-- ==== Sys2Proof/Word.lean ====
section
/-!
DEFINITION. Sys2Proof/Word.lean: the word types of the model and their plainest arithmetic: 32-bit and 8-bit words, the
address of a bit field inside an I/O register, and one row of a register map.
-/
namespace Sys2Proof

/-- A 32-bit register or memory word (R4). -/
abbrev Word := BitVec 32

/-- A byte of data space, MRAM or a frame. -/
abbrev Byte := BitVec 8

namespace Machine

/-- A named field: the register's I/O address, its lowest bit and its width. -/
structure Fld where
  addr : Nat
  lo : Nat
  w : Nat
  deriving DecidableEq, Repr

/-- One row of a register map: offset, three strides with their counts (an unused one has count 1), the reset value,
and the masks of the bits of access type RW, RWL, W1C and W1S (Table SCO-4). -/
structure RegRow where
  off : Nat
  s1 : Nat
  n1 : Nat
  s2 : Nat
  n2 : Nat
  s3 : Nat
  n3 : Nat
  reset : Nat
  rw : Nat
  rwl : Nat
  w1c : Nat
  w1s : Nat
  deriving DecidableEq, Repr

end Machine
end Sys2Proof
end

