-- ==== Sys2Proof/Syntax.lean ====
section
/-!
DEFINITION. Sys2Proof/Syntax.lean: the commands and events of the block, one constructor for each row of the spec's table,
with what each carries from outside: who acts, on which unit, with which values.
-/
namespace Sys2Proof

/-- Who issues an access (Table MEM-5): a tile thread, a tile's DMA channel, a cluster DMA channel, the Storekeeper, the
host queue, or the switch. -/
inductive Master where
  /-- tile `t`, running in the Vital or the General world, at supervisor level or not -/
  | tile (t : Fin 24) (vital sup : Bool)
  /-- channel `k` of tile `t`'s engine with its owner world -/
  | tdma (t : Fin 24) (k : Fin 4) (vital : Bool)
  /-- channel `k` of cluster `c`'s engine with its owner world -/
  | cdma (c : Fin 6) (k : Fin 8) (vital : Bool)
  | storekeeper
  | host
  | switch
  deriving DecidableEq, Repr

/-- The reading masters of R85, each with one latch and one write stage: a tile at thread level or at one of its sixteen
event priorities, a DMA channel, the Storekeeper, the host. -/
inductive Reader where
  | tile (t : Fin 24) (pri : Fin 17)
  | tdma (t : Fin 24) (k : Fin 4)
  | cdma (c : Fin 6) (k : Fin 8)
  | storekeeper
  | host
  deriving DecidableEq, Repr


/-- The commands and events of the block: one constructor for each row of the spec's command table. -/
inductive Instr where
  /-- REGISTER_WRITE, R6: writer, I/O address, value. -/
  | registerWrite (m : Master) (a : BitVec 24) (v : Word)
  /-- WIDE_PAIR_READ, R86: reader, I/O address of the half. -/
  | widePairRead (m : Master) (a : BitVec 24)
  /-- LATCH_EXPIRY, R87: reading master. -/
  | latchExpiry (r : Reader)
  /-- WRITE_STAGE, R88: writer, I/O address of the _LO half, value. -/
  | writeStage (m : Master) (a : BitVec 24) (v : Word)
  /-- WIDE_PAIR_COMMIT, R88: writer, I/O address of the _HI half, value. -/
  | widePairCommit (m : Master) (a : BitVec 24) (v : Word)
  /-- STAGE_EXPIRY, R88: writing master. -/
  | stageExpiry (r : Reader)
  /-- STAGE_BEGIN, R35: PERSIST flag, total length, SHA-384 digest. -/
  | stageBegin (persist : Bool) (total : BitVec 32) (digest : List Byte)
  /-- STAGE_DATA, R402: offset, inventory octets. -/
  | stageData (offset : BitVec 32) (d : List Byte)
  /-- INVENTORY_VERIFY_DONE, R33. -/
  | inventoryVerifyDone
  /-- STAGE_ARM, R35: epoch number, instant in ns. -/
  | stageArm (epoch : BitVec 32) (instant : BitVec 64)
  /-- STAGE_CANCEL, R35. -/
  | stageCancel
  /-- REVERT, R41. -/
  | revert
  /-- EPOCH_TICK, R36. -/
  | epochTick
  /-- REVERT_DECISION, R38. -/
  | revertDecision
  /-- REVERT_INSTANT, R38. -/
  | revertInstant
  /-- REVERT_TICK, R39. -/
  | revertTick
  /-- LATE_REVERT_TICK, R40. -/
  | lateRevertTick
  /-- BEACON_SEND, R37. -/
  | beaconSend
  /-- BEACON_RECEIVE, R43: source address, fingerprint, epoch number and flags of the beacon, eighth of the cycle of its arrival (R78, R289). -/
  | beaconReceive (mac : BitVec 48) (fp : List Byte) (epoch : BitVec 32) (flags : BitVec 8) (eighth : Fin 8)
  /-- PEER_MISSING, R43: peer record. -/
  | peerMissing (p : Fin 64)
  /-- WATCH_CHECK, R51: ring cycles counted. -/
  | watchCheck (count : Nat)
  /-- MONITOR_GATE, R53: edges counted per source, lane links, watch cycles counted, the ring's trim and error. -/
  | monitorGate (edges : Vector Nat 11) (links : BitVec 8) (watch trim est : Nat)
  /-- MISSING_EDGE, R53: source. -/
  | missingEdge (src : Fin 11)
  /-- SOURCE_DECISION, R55. -/
  | sourceDecision
  /-- REVERT_HOLDOFF, R55. -/
  | revertHoldoff
  /-- CLK_SELECT, R56: writer, value. -/
  | clkSelect (m : Master) (v : Word)
  /-- REFERENCE_SWITCH_DONE, R58. -/
  | referenceSwitchDone
  /-- DEADSWITCH, R58. -/
  | deadswitch
  /-- GLIDE_END, R49. -/
  | glideEnd
  /-- PERIOD_MEASURE, R63: core period in units of 2^-16 ns. -/
  | periodMeasure (period : BitVec 24)
  /-- CLOCK_FAULT_HOLD, R67. -/
  | clockFaultHold
  /-- HOLD_TIMEOUT, R67. -/
  | holdTimeout
  /-- SYNC_RECEIVE, R83: port, eighth of the cycle of its arrival (R78), origin in ns, correction in 2^-8 ns, the sender's rateRatio
  less 1 in 2^-41, sync interval in ns, sequenceId. -/
  | syncReceive (port : Fin 8) (eighth : Fin 8) (origin corr cum : Int) (interval seqId : Nat)
  /-- SYNC_TIMEOUT, R83. -/
  | syncTimeout
  /-- ANNOUNCE_RECEIVE, R283: port, priority vector, announce interval in ns. -/
  | announceReceive (p : Fin 8) (vec : Vector Nat 9) (interval : Nat)
  /-- ANNOUNCE_RECEIPT_TIMEOUT, R283: port. -/
  | announceReceiptTimeout (p : Fin 8)
  /-- SYNC_SEND, R283: port. -/
  | syncSend (p : Fin 8)
  /-- PDELAY_REQ_SEND, R283: port. -/
  | pdelayReqSend (p : Fin 8)
  /-- PDELAY_REQ, R84: port and eighth of the cycle of its arrival (R78), sequence number. -/
  | pdelayReq (at_ : Fin 8 × Fin 8) (seq : Fin 65536)
  /-- PDELAY_RESP_RECEIVE, R84: port, eighth of the cycle of its arrival (R78), the answer's sequence number, its t2 and t3 in units of 2^-8 ns. -/
  | pdelayRespReceive (p : Fin 8) (eighth : Fin 8) (seq : Fin 65536) (t2 t3 : Int)
  /-- TT_SLEW_AMOUNT, R81: writer, value. -/
  | ttSlewAmount (m : Master) (v : Word)
  /-- TT_STEP, R82: writer, committed pair. -/
  | ttStep (m : Master) (amount : BitVec 64)
  /-- HA_STATE_WRITE, R84: writer, ha_state written. -/
  | haStateWrite (m : Master) (code : BitVec 3)
  /-- SNAP_GO, R89: writer, unit, value. -/
  | snapGo (m : Master) (n : Fin 4) (v : Word)
  /-- ADD, R99: tile, destination, operands. -/
  | add (t : Fin 24) (ga gb gc : Fin 16)
  /-- SUB, R99: tile, destination, operands. -/
  | sub (t : Fin 24) (ga gb gc : Fin 16)
  /-- AND, R99: tile, destination, operands. -/
  | and (t : Fin 24) (ga gb gc : Fin 16)
  /-- OR, R99: tile, destination, operands. -/
  | or (t : Fin 24) (ga gb gc : Fin 16)
  /-- XOR, R99: tile, destination, operands. -/
  | xor (t : Fin 24) (ga gb gc : Fin 16)
  /-- ANDN, R99: tile, destination, operands. -/
  | andn (t : Fin 24) (ga gb gc : Fin 16)
  /-- SLT, R99: tile, destination, operands. -/
  | slt (t : Fin 24) (ga gb gc : Fin 16)
  /-- SLTU, R99: tile, destination, operands. -/
  | sltu (t : Fin 24) (ga gb gc : Fin 16)
  /-- SHL, R99: tile, destination, operands. -/
  | shl (t : Fin 24) (ga gb gc : Fin 16)
  /-- SHR, R99: tile, destination, operands. -/
  | shr (t : Fin 24) (ga gb gc : Fin 16)
  /-- SAR, R99: tile, destination, operands. -/
  | sar (t : Fin 24) (ga gb gc : Fin 16)
  /-- ROR, R99: tile, destination, operands. -/
  | ror (t : Fin 24) (ga gb gc : Fin 16)
  /-- MIN, R99: tile, destination, operands. -/
  | min (t : Fin 24) (ga gb gc : Fin 16)
  /-- MAX, R99: tile, destination, operands. -/
  | max (t : Fin 24) (ga gb gc : Fin 16)
  /-- MINU, R99: tile, destination, operands. -/
  | minu (t : Fin 24) (ga gb gc : Fin 16)
  /-- MAXU, R99: tile, destination, operands. -/
  | maxu (t : Fin 24) (ga gb gc : Fin 16)
  /-- ADDS, R100: tile, destination, operands. -/
  | adds (t : Fin 24) (ga gb gc : Fin 16)
  /-- SUBS, R100: tile, destination, operands. -/
  | subs (t : Fin 24) (ga gb gc : Fin 16)
  /-- CLZ, R99: tile, destination, operand. -/
  | clz (t : Fin 24) (ga gb : Fin 16)
  /-- ADDI, R99: tile, destination, operand, immediate. -/
  | addi (t : Fin 24) (ga gb : Fin 16) (imm : BitVec 18)
  /-- ANDI, R99: tile, destination, operand, immediate. -/
  | andi (t : Fin 24) (ga gb : Fin 16) (imm : BitVec 18)
  /-- ORI, R99: tile, destination, operand, immediate. -/
  | ori (t : Fin 24) (ga gb : Fin 16) (imm : BitVec 18)
  /-- XORI, R99: tile, destination, operand, immediate. -/
  | xori (t : Fin 24) (ga gb : Fin 16) (imm : BitVec 18)
  /-- SLTI, R99: tile, destination, operand, immediate. -/
  | slti (t : Fin 24) (ga gb : Fin 16) (imm : BitVec 18)
  /-- SLTUI, R99: tile, destination, operand, immediate. -/
  | sltui (t : Fin 24) (ga gb : Fin 16) (imm : BitVec 18)
  /-- SHI_SHL, R99: tile, destination, operand, amount. -/
  | shiShl (t : Fin 24) (ga gb : Fin 16) (n : Fin 32)
  /-- SHI_SHR, R99: tile, destination, operand, amount. -/
  | shiShr (t : Fin 24) (ga gb : Fin 16) (n : Fin 32)
  /-- SHI_SAR, R99: tile, destination, operand, amount. -/
  | shiSar (t : Fin 24) (ga gb : Fin 16) (n : Fin 32)
  /-- SHI_ROR, R99: tile, destination, operand, amount. -/
  | shiRor (t : Fin 24) (ga gb : Fin 16) (n : Fin 32)
  /-- LUI, R99: tile, destination, immediate. -/
  | lui (t : Fin 24) (ga : Fin 16) (imm : BitVec 18)
  /-- APC, R99: tile, destination, immediate. -/
  | apc (t : Fin 24) (ga : Fin 16) (imm : BitVec 18)
  /-- EXTU, R99: tile, destination, operand, position, length less one. -/
  | extu (t : Fin 24) (ga gb : Fin 16) (pos len : Fin 32)
  /-- EXTS, R99: tile, destination, operand, position, length less one. -/
  | exts (t : Fin 24) (ga gb : Fin 16) (pos len : Fin 32)
  /-- INS, R99: tile, destination, operand, position, length less one. -/
  | ins (t : Fin 24) (ga gb : Fin 16) (pos len : Fin 32)
  /-- SATG, R100: tile, destination, operand, width, unsigned. -/
  | satg (t : Fin 24) (ga gb : Fin 16) (n : Fin 32) (u : Bool)
  /-- MUL, R105: tile, operands. -/
  | mul (t : Fin 24) (gb gc : Fin 16)
  /-- MULU, R105: tile, operands. -/
  | mulu (t : Fin 24) (gb gc : Fin 16)
  /-- MUL16, R105: tile, operands. -/
  | mul16 (t : Fin 24) (gb gc : Fin 16)
  /-- MAC, R102: tile, operands. -/
  | mac (t : Fin 24) (gb gc : Fin 16)
  /-- MACU, R102: tile, operands. -/
  | macu (t : Fin 24) (gb gc : Fin 16)
  /-- MSU, R102: tile, operands. -/
  | msu (t : Fin 24) (gb gc : Fin 16)
  /-- MAC16, R102: tile, operands. -/
  | mac16 (t : Fin 24) (gb gc : Fin 16)
  /-- CLRA, R102: tile. -/
  | clra (t : Fin 24)
  /-- LDA, R102: tile, operand. -/
  | lda (t : Fin 24) (gb : Fin 16)
  /-- DIV, R101: tile, dividend, divisor. -/
  | div (t : Fin 24) (gb gc : Fin 16)
  /-- DIVU, R101: tile, dividend, divisor. -/
  | divu (t : Fin 24) (gb gc : Fin 16)
  /-- MUL_RESULT, R105: tile. -/
  | mulResult (t : Fin 24)
  /-- MAC_RESULT, R105: tile. -/
  | macResult (t : Fin 24)
  /-- DIV_RESULT, R105: tile. -/
  | divResult (t : Fin 24)
  /-- EXTA, R102: tile, destination, shift, rounding. -/
  | exta (t : Fin 24) (ga : Fin 16) (shift : Fin 64) (round : Bool)
  /-- MFS, R96: tile, destination, special register. -/
  | mfs (t : Fin 24) (ga : Fin 16) (n : Fin 32)
  /-- MTS, R97: tile, source, special register. -/
  | mts (t : Fin 24) (ga : Fin 16) (n : Fin 32)
  /-- LDW, R99: tile, destination, base, offset, 1 corrected or 2 uncorrectable word in the data TCM. -/
  | ldw (t : Fin 24) (ga gb : Fin 16) (imm : BitVec 18) (ecc : Fin 3)
  /-- LDH, R99: tile, destination, base, offset, 1 corrected or 2 uncorrectable word in the data TCM. -/
  | ldh (t : Fin 24) (ga gb : Fin 16) (imm : BitVec 18) (ecc : Fin 3)
  /-- LDHU, R99: tile, destination, base, offset, 1 corrected or 2 uncorrectable word in the data TCM. -/
  | ldhu (t : Fin 24) (ga gb : Fin 16) (imm : BitVec 18) (ecc : Fin 3)
  /-- LDB, R99: tile, destination, base, offset, 1 corrected or 2 uncorrectable word in the data TCM. -/
  | ldb (t : Fin 24) (ga gb : Fin 16) (imm : BitVec 18) (ecc : Fin 3)
  /-- LDBU, R99: tile, destination, base, offset, 1 corrected or 2 uncorrectable word in the data TCM. -/
  | ldbu (t : Fin 24) (ga gb : Fin 16) (imm : BitVec 18) (ecc : Fin 3)
  /-- STW, R104: tile, source, base, offset, 1 corrected or 2 uncorrectable word in the data TCM. -/
  | stw (t : Fin 24) (ga gb : Fin 16) (imm : BitVec 18) (ecc : Fin 3)
  /-- STH, R104: tile, source, base, offset, 1 corrected or 2 uncorrectable word in the data TCM. -/
  | sth (t : Fin 24) (ga gb : Fin 16) (imm : BitVec 18) (ecc : Fin 3)
  /-- STB, R104: tile, source, base, offset, 1 corrected or 2 uncorrectable word in the data TCM. -/
  | stb (t : Fin 24) (ga gb : Fin 16) (imm : BitVec 18) (ecc : Fin 3)
  /-- LDXW, R99: tile, destination, base, index, shift, data TCM error. -/
  | ldxw (t : Fin 24) (ga gb gc : Fin 16) (sh : Fin 4) (ecc : Fin 3)
  /-- LDXH, R99: tile, destination, base, index, shift, data TCM error. -/
  | ldxh (t : Fin 24) (ga gb gc : Fin 16) (sh : Fin 4) (ecc : Fin 3)
  /-- LDXHU, R99: tile, destination, base, index, shift, data TCM error. -/
  | ldxhu (t : Fin 24) (ga gb gc : Fin 16) (sh : Fin 4) (ecc : Fin 3)
  /-- LDXB, R99: tile, destination, base, index, shift, data TCM error. -/
  | ldxb (t : Fin 24) (ga gb gc : Fin 16) (sh : Fin 4) (ecc : Fin 3)
  /-- LDXBU, R99: tile, destination, base, index, shift, data TCM error. -/
  | ldxbu (t : Fin 24) (ga gb gc : Fin 16) (sh : Fin 4) (ecc : Fin 3)
  /-- STXW, R99: tile, source, base, index, shift, data TCM error. -/
  | stxw (t : Fin 24) (ga gb gc : Fin 16) (sh : Fin 4) (ecc : Fin 3)
  /-- STXH, R99: tile, source, base, index, shift, data TCM error. -/
  | stxh (t : Fin 24) (ga gb gc : Fin 16) (sh : Fin 4) (ecc : Fin 3)
  /-- STXB, R99: tile, source, base, index, shift, data TCM error. -/
  | stxb (t : Fin 24) (ga gb gc : Fin 16) (sh : Fin 4) (ecc : Fin 3)
  /-- IN, R94: tile, destination, base, offset. -/
  | inp (t : Fin 24) (ga gb : Fin 16) (imm : BitVec 18)
  /-- OUT, R104: tile, source, base, offset. -/
  | out (t : Fin 24) (ga gb : Fin 16) (imm : BitVec 18)
  /-- LOAD_DATA_RETURN, R104: tile, error correction of the word read, edges waited at the bank. -/
  | loadDataReturn (t : Fin 24) (ecc : Fin 3) (waited : BitVec 16)
  /-- POSTED_WRITE_COMPLETE, R104: tile, error correction of the word written, edges waited at the bank, whether the write failed twice in transport. -/
  | postedWriteComplete (t : Fin 24) (ecc : Fin 3) (waited : BitVec 16) (fab : Bool)
  /-- BEQ, R99: tile, operands, offset in words. -/
  | beq (t : Fin 24) (ga gb : Fin 16) (imm : BitVec 18)
  /-- BNE, R99: tile, operands, offset in words. -/
  | bne (t : Fin 24) (ga gb : Fin 16) (imm : BitVec 18)
  /-- BLT, R99: tile, operands, offset in words. -/
  | blt (t : Fin 24) (ga gb : Fin 16) (imm : BitVec 18)
  /-- BGE, R99: tile, operands, offset in words. -/
  | bge (t : Fin 24) (ga gb : Fin 16) (imm : BitVec 18)
  /-- BLTU, R99: tile, operands, offset in words. -/
  | bltu (t : Fin 24) (ga gb : Fin 16) (imm : BitVec 18)
  /-- BGEU, R99: tile, operands, offset in words. -/
  | bgeu (t : Fin 24) (ga gb : Fin 16) (imm : BitVec 18)
  /-- DBNZ, R99: tile, counter, offset in words. -/
  | dbnz (t : Fin 24) (ga : Fin 16) (imm : BitVec 18)
  /-- JAL, R99: tile, offset in words. -/
  | jal (t : Fin 24) (off : BitVec 26)
  /-- J, R99: tile, offset in words. -/
  | j (t : Fin 24) (off : BitVec 26)
  /-- JR, R99: tile, target. -/
  | jr (t : Fin 24) (gb : Fin 16)
  /-- JALR, R99: tile, link, target. -/
  | jalr (t : Fin 24) (ga gb : Fin 16)
  /-- NOP, R99: tile. -/
  | nop (t : Fin 24)
  /-- SYNC, R110: tile. -/
  | sync (t : Fin 24)
  /-- WAIT, R126: tile. -/
  | wait (t : Fin 24)
  /-- ERET, R133: tile; error found in the frame. -/
  | eret (t : Fin 24) (ecc : Fin 3)
  /-- TRAP, R103: tile, number. -/
  | trap (t : Fin 24) (n : Fin 256)
  /-- BRK, R99: tile. -/
  | brk (t : Fin 24)
  /-- EI, R99: tile. -/
  | ei (t : Fin 24)
  /-- DI, R99: tile. -/
  | di (t : Fin 24)
  /-- WCALL, R121: tile, gate. -/
  | wcall (t : Fin 24) (n : Fin 256)
  /-- WRET, R122: tile. -/
  | wret (t : Fin 24)
  /-- CINV, R99: tile, address. -/
  | cinv (t : Fin 24) (gb : Fin 16)
  /-- CINVA, R99: tile. -/
  | cinva (t : Fin 24)
  /-- BMOV, R111: tile, operands, width code. -/
  | bmov (t : Fin 24) (ga gb gc : Fin 16) (width : Fin 3)
  /-- BFIL, R111: tile, operands, width code. -/
  | bfil (t : Fin 24) (ga gb gc : Fin 16) (width : Fin 3)
  /-- BCRC, R115: tile, operands, polynomial code. -/
  | bcrc (t : Fin 24) (ga gb gc : Fin 16) (poly : Fin 3)
  /-- BCMP, R112: tile, operands, width code. -/
  | bcmp (t : Fin 24) (ga gb gc : Fin 16) (width : Fin 3)
  /-- BDOT, R111: tile, operands. -/
  | bdot (t : Fin 24) (ga gb gc : Fin 16)
  /-- LONG_ELEMENT, R113: tile, errors found by its first and second access, edges a bank made each wait. -/
  | longElement (t : Fin 24) (e1 e2 : Fin 3) (waited : Nat × Nat)
  /-- ICACHE_MISS_FILL, R189: tile; 1 corrected line, 2 uncorrectable line, 3 parity error in a cached line. -/
  | icacheMissFill (t : Fin 24) (ecc : Fin 4)
  /-- EVENT_ENTRY, R125: tile; whether the vector read finds an uncorrectable line. -/
  | eventEntry (t : Fin 24) (bad : Bool)
  /-- LOCKUP_TILE_RESET, R135: tile. -/
  | lockupTileReset (t : Fin 24)
  /-- TILE_RESET_RELEASE, R118: tile. -/
  | tileResetRelease (t : Fin 24)
  /-- HOLD_OVERRUN, R128: tile. -/
  | holdOverrun (t : Fin 24)
  /-- WAKE_TIMEOUT, R136: the tile or DMA channel that waits. -/
  | wakeTimeout (m : Master)
  /-- EVC_CFG, R124: writer, tile, event, value. -/
  | evcCfg (m : Master) (t : Fin 24) (e : Fin 512) (v : Word)
  /-- CLEAR_EMERG, R134: writer, tile. -/
  | clearEmerg (m : Master) (t : Fin 24)
  /-- OMT_TX_GO, R143: tile, world of the page. -/
  | omtTxGo (t : Fin 24) (w : Fin 2)
  /-- MESSAGE_ARRIVAL, R144: sender and its world, message count, member slot, whether the fabric reports an error. -/
  | messageArrival (t : Fin 24) (w : Fin 2) (id : Fin 65536) (k : Fin 3) (fabric : Bool)
  /-- QUEUE_FULL, R144: sender and its world, message count. -/
  | queueFull (t : Fin 24) (w : Fin 2) (id : Fin 65536)
  /-- MESSAGE_VISIBLE, R146: sender and its world, message count, member slot. -/
  | messageVisible (t : Fin 24) (w : Fin 2) (id : Fin 65536) (k : Fin 3)
  /-- OMT_RX_POP, R146: tile, world, queue. -/
  | omtRxPop (t : Fin 24) (w : Fin 2) (q : Fin 4)
  /-- OMT_NACK_POP, R147: tile, world. -/
  | omtNackPop (t : Fin 24) (w : Fin 2)
  /-- RESEND, R148: commanding tile and world, Shelf, entry, new generation. -/
  | resend (t : Fin 24) (w : Fin 2) (c : Fin 6) (n : Fin 64) (gen : Fin 256)
  /-- DISCARD, R148: commanding tile and world, Shelf, entry. -/
  | discard (t : Fin 24) (w : Fin 2) (c : Fin 6) (n : Fin 64)
  /-- VOTE_WRITE, R151: member tile, group, port, value. -/
  | voteWrite (t : Fin 24) (g : Fin 12) (p : Fin 32) (v : Word)
  /-- VOTE_WRITE_ARRIVAL, R152: group, gate, port, tag, slot. -/
  | voteWriteArrival (g : Fin 12) (c : Fin 6) (p : Fin 32) (tag : Fin 65536) (k : Fin 3)
  /-- FINALIZE, R153: group, gate, port, tag. -/
  | finalize (g : Fin 12) (c : Fin 6) (p : Fin 32) (tag : Fin 65536)
  /-- VERDICT_RECEIVE, R150: group, member gate, port, tag. -/
  | verdictReceive (g : Fin 12) (c : Fin 6) (p : Fin 32) (tag : Fin 65536)
  /-- VOTE_PORT_CFG, R154: member tile, group, port, whether PORT_AUX, world, value. -/
  | votePortCfg (t : Fin 24) (g : Fin 12) (p : Fin 32) (aux : Bool) (w : Fin 2) (v : Word)
  /-- CFG_VOTE_TIMEOUT, R154: group, port, whether PORT_AUX. -/
  | cfgVoteTimeout (g : Fin 12) (p : Fin 32) (aux : Bool)
  /-- RELEASE, R156: group. -/
  | release (g : Fin 12)
  /-- LOCK, R154: group. -/
  | lock (g : Fin 12)
  /-- GO_SAFE, R155: group. -/
  | goSafe (g : Fin 12)
  /-- CKPT_DUE, R157: group, slot. -/
  | ckptDue (g : Fin 12) (k : Fin 3)
  /-- MEMBER_FAULT_REPORT, R159: tile. -/
  | memberFaultReport (t : Fin 24)
  /-- COPY_COMPLETE, R160: group. -/
  | copyComplete (g : Fin 12)
  /-- SPARE_RELEASE, R161: group. -/
  | spareRelease (g : Fin 12)
  /-- HOST_TIMEOUT, R163: group, port. -/
  | hostTimeout (g : Fin 12) (p : Fin 32)
  /-- VOTE_TAKEOVER, R164: writer, group, value. -/
  | voteTakeover (m : Master) (g : Fin 12) (v : Word)
  /-- VOTED_FRAME_READ, R165: group, and whether both reads of the frame met a transport error (R294). -/
  | votedFrameRead (g : Fin 12 × Bool)
  /-- BANK_STATE_REQ, R180: writer, bank (0 to 63 device, 64 + 16 c + b cluster), BANK_CTRL value. -/
  | bankStateReq (m : Master) (b : Fin 160) (v : Word)
  /-- BANK_ENTRY_DONE, R181: bank. -/
  | bankEntryDone (b : Fin 160)
  /-- BANK_WAKE_DONE, R182: bank. -/
  | bankWakeDone (b : Fin 160)
  /-- CONF_CLEAR, R175: writer, bank. -/
  | confClear (m : Master) (b : Fin 160)
  /-- DEEP_EXIT_GROUP, R183. -/
  | deepExitGroup
  /-- ECC_WRITEBACK, R178: array: a bank, 160 the Vault, 161 + 2t and 162 + 2t the instruction and data TCM of tile t. -/
  | eccWriteback (u : Fin 209)
  /-- VAULT_WIPE, R186: cause. -/
  | vaultWipe (cause : Fin 9)
  /-- VAULT_WIPE_DONE, R186. -/
  | vaultWipeDone
  /-- WIPE, R186: writer. -/
  | wipe (m : Master)
  /-- MRAM_LINE_WRITE, R188. -/
  | mramLineWrite
  /-- DMA_GO, R198: writer, channel (4 t + k of a tile engine, 96 + 8 c + k of a cluster engine). -/
  | dmaGo (m : Master) (d : Fin 144)
  /-- DISABLE, R209: writer, channel, beats in flight. -/
  | disable (m : Master) (d : Fin 144) (inflight : Fin 9)
  /-- RESUME, R206: writer, channel. -/
  | resume (m : Master) (d : Fin 144)
  /-- CLEAR, R198: writer, channel. -/
  | clear (m : Master) (d : Fin 144)
  /-- RESTART, R207: writer, cluster. -/
  | restart (m : Master) (c : Fin 6)
  /-- CHANNEL_START, R199: channel. -/
  | channelStart (d : Fin 144)
  /-- PACE_LATCH, R200: channel, beats issued and not yet reflected in the level. -/
  | paceLatch (d : Fin 144) (issued : Fin 9)
  /-- CH_LEVEL, R201: writer, channel, value. -/
  | chLevel (m : Master) (d : Fin 144) (v : Word)
  /-- LIST_FETCH, R197: channel, whether the destination's list, error correction of the word read, edges waited at the bank, whether the fetch failed twice in transport. -/
  | listFetch (d : Fin 144) (dst : Bool) (ecc : Fin 3) (waited : BitVec 16) (fab : Bool)
  /-- BEAT_COMPLETE, R202: channel, error correction and edges waited of the read and of the write, which of them (1, 2) failed twice in transport, beats behind a failed one whose writes have taken effect. -/
  | beatComplete (d : Fin 144) (eccR eccW : Fin 3) (waitR waitW : BitVec 16) (fab : Fin 3) (late : Fin 9)
  /-- DISABLE_STOP_POINT, R209: channel. -/
  | disableStopPoint (d : Fin 144)
  /-- ADC_ENABLE, R221: writer, pair, converter, the ADC_CTRL value with its enable bit taken as 1. -/
  | adcEnable (m : Master) (c : Fin 6) (x : Fin 2) (v : Word)
  /-- ADC_DISABLE, R235: writer, pair, converter, the ADC_CTRL value with its enable bit taken as 0. -/
  | adcDisable (m : Master) (c : Fin 6) (x : Fin 2) (v : Word)
  /-- ADC_GO, R223: writer, pair, converter. -/
  | adcGo (m : Master) (c : Fin 6) (x : Fin 2)
  /-- FLUSH, R234: writer, pair, converter. -/
  | flush (m : Master) (c : Fin 6) (x : Fin 2)
  /-- ADC_TT_TRIGGER, R225: pair, converter. -/
  | adcTtTrigger (c : Fin 6) (x : Fin 2)
  /-- CONVERSION_COMPLETE, R217: pair, converter, the inputs of CcA and CcB at the hold edge in units of VREF / 2^24. -/
  | conversionComplete (c : Fin 6) (x : Fin 2) (vinA vinB : Int)
  /-- ADC_FIFO_READ, R234: reader, pair, converter. -/
  | adcFifoRead (m : Master) (c : Fin 6) (x : Fin 2)
  /-- EDGE_ENABLE, R257: writer, unit, channel, the EDG_CH_CTRL value with its enable bit taken as 1. -/
  | edgeEnable (m : Master) (c : Fin 6) (k : Fin 16) (v : Word)
  /-- EDGE_DISABLE, R258: writer, unit, channel, the EDG_CH_CTRL value with its enable bit taken as 0. -/
  | edgeDisable (m : Master) (c : Fin 6) (k : Fin 16) (v : Word)
  /-- ARM, R244: writer, unit, channel. -/
  | arm (m : Master) (c : Fin 6) (k : Fin 16)
  /-- DISARM, R244: writer, unit, channel. -/
  | disarm (m : Master) (c : Fin 6) (k : Fin 16)
  /-- FORCE_ACTIVE, R245: writer, unit, channel. -/
  | forceActive (m : Master) (c : Fin 6) (k : Fin 16)
  /-- FORCE_INACTIVE, R245: writer, unit, channel. -/
  | forceInactive (m : Master) (c : Fin 6) (k : Fin 16)
  /-- SYNC_TT, R241: writer, unit, channel. -/
  | syncTt (m : Master) (c : Fin 6) (k : Fin 16)
  /-- CLR_OVR, R252: writer, unit, channel. -/
  | clrOvr (m : Master) (c : Fin 6) (k : Fin 16)
  /-- EDG_CMP, R244: writer, unit, channel, value. -/
  | edgCmp (m : Master) (c : Fin 6) (k : Fin 16) (v : Word)
  /-- EDG_CNT, R241: writer, unit, channel, value. -/
  | edgCnt (m : Master) (c : Fin 6) (k : Fin 16) (v : Word)
  /-- EDG_SYNC, R241: writer, unit, value. -/
  | edgSync (m : Master) (c : Fin 6) (v : Word)
  /-- COMPARE_FIRE, R244: unit, channel. -/
  | compareFire (c : Fin 6) (k : Fin 16)
  /-- DUTY_LOAD, R248: unit, channel. -/
  | dutyLoad (c : Fin 6) (k : Fin 16)
  /-- CYCLE_START, R247: unit, channel. -/
  | cycleStart (c : Fin 6) (k : Fin 16)
  /-- PWM_TRANSITION, R247: unit, channel, the instant as a counter value. -/
  | pwmTransition (c : Fin 6) (k : Fin 16) (t : Word)
  /-- CAPTURE, R251: unit, channel, edge, the counter value of the crossing and that of the edge of the synchronised input, in 1/16 ns. -/
  | capture (c : Fin 6) (k : Fin 16) (falling : Bool) (cross t0 : Nat)
  /-- EDG_CAP_POP, R253: reader, unit, channel. -/
  | edgCapPop (m : Master) (c : Fin 6) (k : Fin 16)
  /-- FRAME_HEADER_RECEIVE, R274: lane port, the first 64 octets. -/
  | frameHeaderReceive (p : Fin 8) (d : List Byte)
  /-- FRAME_RECEIVE, R265: lane port, the octets before the FCS, whether the FCS is good. -/
  | frameReceive (p : Fin 8) (d : List Byte) (fcs : Bool)
  /-- TRANSMIT_SELECT, R273: port, and whether both reads of the frame met a transport error (R294). -/
  | transmitSelect (p : Fin 10 × Bool)
  /-- TRANSMIT_DONE, R276: port. -/
  | transmitDone (p : Fin 10)
  /-- GATE_ENTRY, R275: port. -/
  | gateEntry (p : Fin 8)
  /-- FDB_AGEING, R269: set and way. -/
  | fdbAgeing (set : Fin 2048) (way : Fin 4)
  /-- LOOKUP, R271: writer. -/
  | lookup (m : Master)
  /-- INSERT, R271: writer. -/
  | insert (m : Master)
  /-- DELETE, R271: writer. -/
  | delete (m : Master)
  /-- FLUSH_DYNAMIC, R271: writer. -/
  | flushDynamic (m : Master)
  /-- FLUSH_PORT, R271: writer, port. -/
  | flushPort (m : Master) (p : Fin 16)
  /-- FDB_DONE, R271. -/
  | fdbDone
  /-- LEARN_NOTIFY_READ, R270: reader, whether it reads the _HI half. -/
  | learnNotifyRead (r : Reader) (hi : Bool)
  /-- LINK_CHANGE, R262: port, link, speed code. -/
  | linkChange (p : Fin 8) (up : Bool) (speed : Fin 6)
  /-- FRER_RESET, R282: recovery function. -/
  | frerReset (r : Fin 64)
  /-- TTDP_HELLO_SEND, R285. -/
  | ttdpHelloSend
  /-- TTDP_TIMEOUT, R285: port. -/
  | ttdpTimeout (p : Fin 8)
  /-- BOOT_STATUS_SEND, R290. -/
  | bootStatusSend
  /-- TX_DOORBELL, R286: writer, tile with a descriptor whose frame met a transport error at both reads (R294), value. -/
  | txDoorbell (m : Master) (t : Fin 24 × Option (Fin 128)) (v : Word)
  /-- RX_TAIL, R286: writer, tile, value. -/
  | rxTail (m : Master) (t : Fin 24) (v : Word)
  /-- BUS_ENABLE, R298: writer, unit (CAN 0 to 7, MVB 8 and 9, UART 10 to 17, SPI 18 to 21, I2C 22 and 23), X_CTRL value. -/
  | busEnable (m : Master) (u : Fin 24) (v : Word)
  /-- BUS_DISABLE, R298: writer, unit, X_CTRL value, the entry on the wire. -/
  | busDisable (m : Master) (u : Fin 24) (v : Word) (wire : Option (Fin 16))
  /-- BUS_STOP, R298: unit. -/
  | busStop (u : Fin 24)
  /-- RX_FIFO_POP, R301: unit. -/
  | rxFifoPop (u : Fin 24)
  /-- TX_FIFO_WRITE, R301: writer, unit, value. -/
  | txFifoWrite (m : Master) (u : Fin 24) (v : Word)
  /-- CAN_TX_REQ, R304: writer, controller, value. -/
  | canTxReq (m : Master) (n : Fin 8) (v : Word)
  /-- CAN_TX_CANCEL, R304: writer, controller, value, the buffer on the wire. -/
  | canTxCancel (m : Master) (n : Fin 8) (v : Word) (wire : Option (Fin 16))
  /-- CAN_FRAME_RECEIVE, R305: controller, words 0 and 1 of Table BUS-2, TT[31:0] of the start of frame, data words (none: an error), receive error count after it. -/
  | canFrameReceive (n : Fin 8) (w0 w1 start : Word) (data : Option (List Word)) (rec : Fin 256)
  /-- CAN_FRAME_END, R304: controller, buffer, 0 success 1 arbitration loss 2 error, error counts after it (256: bus-off), measured transmitter delay in ns, TT[31:0] of its start of frame. -/
  | canFrameEnd (n : Fin 8) (b : Fin 16) (result : Fin 3) (tec : Fin 257) (rec : Fin 256) (at_ : Fin 65536 × Word)
  /-- BUS_OFF_RECOVERY, R302: controller. -/
  | busOffRecovery (n : Fin 8)
  /-- MVB_MASTER_FRAME, R307: port, address, F_code, line chosen. -/
  | mvbMasterFrame (m : Fin 2) (addr : Fin 4096) (f : Fin 16) (line : Bool)
  /-- MVB_SLAVE_REPLY, R308: port. -/
  | mvbSlaveReply (m : Fin 2)
  /-- MVB_SINK_RECEIVE, R308: port, words, whether the frame is free of line errors. -/
  | mvbSinkReceive (m : Fin 2) (ws : List Word) (ok : Bool)
  /-- MVB_SOURCE_COMMIT, R308: writer, MVB port, source port, last word. -/
  | mvbSourceCommit (mas : Master) (m : Fin 2) (p : Fin 256) (v : Word)
  /-- MVB_SINK_READ, R308: reader, MVB port, sink port. -/
  | mvbSinkRead (r : Reader) (m : Fin 2) (p : Fin 256)
  /-- MVB_ADMIN_CMD, R309: writer, port, value. -/
  | mvbAdminCmd (mas : Master) (m : Fin 2) (v : Word)
  /-- MVB_ADMIN_TIMEOUT, R309: port. -/
  | mvbAdminTimeout (m : Fin 2)
  /-- UART_CHARACTER, R310: UART, sent or received, character and error marks of a received one. -/
  | uartCharacter (n : Fin 8) (sent : Bool) (c : BitVec 9) (parity framing brk : Bool)
  /-- UART_IDLE, R310: UART. -/
  | uartIdle (n : Fin 8)
  /-- SPI_WORD, R311: SPI controller, word received, whether a target's chip select ends. -/
  | spiWord (n : Fin 4) (w : Word) (last : Bool)
  /-- I2C_CMD, R312: writer, I2C controller, value. -/
  | i2cCmd (m : Master) (n : Fin 2) (v : Word)
  /-- I2C_TRANSFER_DONE, R312: I2C controller, 0 complete 1 NACK 2 arbitration lost, bytes written, bytes read. -/
  | i2cTransferDone (n : Fin 2) (result : Fin 3) (sent : Fin 33) (got : List Byte)
  /-- STRETCH_TIMEOUT, R312: I2C controller. -/
  | stretchTimeout (n : Fin 2)
  /-- OWNER_DECISION, R320: ball n; the level a serial owner drives on this edge. -/
  | ownerDecision (n : Fin 192) (serial : Option Bool)
  /-- TAKEOVER, R320: ball n. -/
  | takeover (n : Fin 192)
  /-- SAFE_INTERVAL_START, R320: ball n. -/
  | safeIntervalStart (n : Fin 192)
  /-- GPIO_SET, R323: writer, bank, value. -/
  | gpioSet (m : Master) (b : Fin 8) (v : Word)
  /-- GPIO_CLR, R323: writer, bank, value. -/
  | gpioClr (m : Master) (b : Fin 8) (v : Word)
  /-- GPIO_TGL, R323: writer, bank, value. -/
  | gpioTgl (m : Master) (b : Fin 8) (v : Word)
  /-- GPIO_DIR, R326: writer, bank, value. -/
  | gpioDir (m : Master) (b : Fin 8) (v : Word)
  /-- INPUT_CHANGE, R324: ball n, the new level, the TT at which the synchronised input first showed it. -/
  | inputChange (n : Fin 192) (level : Option Bool) (t0 : Nat)
  /-- SUPPLY_MEASURE, R315: bank, whether its supply is absent, whether it measures 1.8 V. -/
  | supplyMeasure (b : Fin 8) (absent v18 : Bool)
  /-- TAMPER_TRIP, R330: input, its level, the watch cycles it has been there. -/
  | tamperTrip (x : Fin 2) (level : Bool) (cycles : Nat)
  /-- DOMAIN_REQUEST, R334: writer, domain, PWR_DOM_CTRL value. -/
  | domainRequest (m : Master) (d : Fin 47) (v : Word)
  /-- DOMAIN_OFF_DONE, R335: domain. -/
  | domainOffDone (d : Fin 47)
  /-- DOMAIN_WAKE_DONE, R335: domain. -/
  | domainWakeDone (d : Fin 47)
  /-- TILE_RELOAD_DONE, R336: tile. -/
  | tileReloadDone (t : Fin 24)
  /-- DOZE_ENTRY, R339: tile. -/
  | dozeEntry (t : Fin 24)
  /-- DOZE_WAKE, R340: tile. -/
  | dozeWake (t : Fin 24)
  /-- DRIZZLE, R342: writer. -/
  | drizzle (m : Master)
  /-- CELLAR, R342: writer. -/
  | cellar (m : Master)
  /-- CANCEL, R343: writer. -/
  | cancel (m : Master)
  /-- NOTICE_END, R342. -/
  | noticeEnd
  /-- MRAM_FLUSH_POINT, R342. -/
  | mramFlushPoint
  /-- DOMAIN_SHUTDOWN_POINT, R342. -/
  | domainShutdownPoint
  /-- LOW_POWER_ENTRY_DONE, R342. -/
  | lowPowerEntryDone
  /-- DRIZZLE_TICK, R345. -/
  | drizzleTick
  /-- DRIZZLE_RESULT, R347: the entry's input in units of VREF / 2^24. -/
  | drizzleResult (vin : Int)
  /-- DRIZZLE_CYCLE_END, R345. -/
  | drizzleCycleEnd
  /-- WAKE_TIMER, R350. -/
  | wakeTimer
  /-- WAKE, R351: sources whose condition holds, by bit of Table PWR-7. -/
  | wake (src : BitVec 14)
  /-- HIST_CLEAR, R348: writer. -/
  | histClear (m : Master)
  /-- POWER_ON_RESET, R352. -/
  | powerOnReset
  /-- POWER_ON_RESET_RELEASE, R431. -/
  | powerOnResetRelease
  /-- SUPWARN, R353. -/
  | supwarn
  /-- ROM_START, R372. -/
  | romStart
  /-- RECORDS, R372: record copies that read with a wrong CRC, words that fail the self-test by bank index. -/
  | records (bad : List (Fin 65536 × Fin 2)) (fails : List (Fin 256 × Fin 65536))
  /-- SLOT_SELECT, R373: MRAM offsets of uncorrectable lines read. -/
  | slotSelect (bad : List (BitVec 26))
  /-- FIRMWARE, R372: MRAM offset of an uncorrectable line read. -/
  | firmware (bad : Option (BitVec 26))
  /-- PERSIST, R381. -/
  | persist
  /-- INVENTORY, R372: MRAM offset of an uncorrectable line read. -/
  | inventory (bad : Option (BitVec 26))
  /-- TILE_LOAD, R372: MRAM offset of an uncorrectable line read. -/
  | tileLoad (bad : Option (BitVec 26))
  /-- MEASURE, R368: MRAM offset of an uncorrectable line read. -/
  | measure (bad : Option (BitVec 26))
  /-- VERDICT_TIMEOUT, R376. -/
  | verdictTimeout
  /-- THAW, R375. -/
  | thaw
  /-- POST_THAW_RECORDS, R379. -/
  | postThawRecords
  /-- THAW_GO, R375: writer. -/
  | thawGo (m : Master)
  /-- PROGRAM_IMAGE_KEY, R386: requester, image-key slot, whether the fuses read back blown. -/
  | programImageKey (m : Master) (k : Fin 8) (blown : Bool)
  /-- INSTALL_COMMAND_KEY, R386: requester, command-key slot. -/
  | installCommandKey (m : Master) (k : Fin 4)
  /-- ENTER_FACTORY, R386: requester, whether the fuse reads back blown. -/
  | enterFactory (m : Master) (blown : Bool)
  /-- HOST_ACCESS, R390, R392: BAR0, BAR2, BAR4 (0 to 2) or configuration space (3), write, offset, bytes, value, how the access fares (1 corrected, 2 uncorrectable word, 3 transport error that remained, 4 wake not complete in time), edges waited at the bank. -/
  | hostAccess (bar : Fin 4) (write : Bool) (x : BitVec 24) (n : Fin 5) (v : Word) (e : Fin 5) (waited : BitVec 16)
  /-- HOST_SPI_TRANSACTION, R394: opcode, start address, words clocked before HCS_N rises, words written, how each access fares and the edges it waits at its bank. -/
  | hostSpiTransaction (op : BitVec 8) (a : Word) (n : Fin 257) (ws : List Word) (es : List (Fin 5 × BitVec 16))
  /-- PERST_N, R393. -/
  | perstN
  /-- MSI_X_MESSAGE, R395: vector. -/
  | msiXMessage (v : Fin 16)
  /-- HOST_FQ_TX_GO, R396: writer, value. -/
  | hostFqTxGo (m : Master) (v : Word)
  /-- HOST_FQ_RX_LEN, R396. -/
  | hostFqRxLen
  /-- HOST_CMD_DOORBELL, R401: writer, value. -/
  | hostCmdDoorbell (m : Master) (v : Word)
  /-- COMMAND_EXECUTE, R400: whether the counter's record can be written, whether a fuse reads back blown, MRAM offset of an uncorrectable line read. -/
  | commandExecute (recOk blown : Bool) (bad : Option (BitVec 26))
  /-- LADDER, R409: rung, function. -/
  | ladder (rung f : BitVec 8)
  /-- SLOT_OPEN, R377: slot. -/
  | slotOpen (x : BitVec 8)
  /-- SLOT_DATA, R402: offset, image octets. -/
  | slotData (off : BitVec 32) (d : List Byte)
  /-- SLOT_ACTIVATE, R378: slot, ADVANCE, BIND, MRAM offset of an uncorrectable line read. -/
  | slotActivate (x : BitVec 8) (adv bind : Bool) (bad : Option (BitVec 26))
  /-- KEY_REVOKE, R382: image-key slot, whether the fuse reads back blown. -/
  | keyRevoke (k : BitVec 8) (blown : Bool)
  /-- LIFECYCLE, R384: target state, whether the fuses read back blown. -/
  | lifecycle (b : BitVec 8) (blown : Bool)
  /-- DEBUG_UNLOCK, R385. -/
  | debugUnlock
  /-- SPLIT_OVERRIDE, R406: function, setting. -/
  | splitOverride (f v : BitVec 8)
  /-- VERDICT_OVERRIDE, R163: group, VOTE_VERDICT word. -/
  | verdictOverride (g : Fin 12) (v : Word)
  /-- EDGE_OVERRIDE, R407: channel code, op, value. -/
  | edgeOverride (e : Fin 96) (op : BitVec 8) (v : Word)
  /-- GPIO_OVERRIDE, R407: bank, op, value. -/
  | gpioOverride (b : Fin 8) (op : BitVec 8) (v : Word)
  /-- BOOT_VERDICT, R376: nonce, H3, verdict byte. -/
  | bootVerdict (nonce h3 : List Byte) (v : BitVec 8)
  /-- STATUS_QUERY, R399. -/
  | statusQuery
  /-- RECOVERY_WRITE, R383: slot, offset, image octets. -/
  | recoveryWrite (x : BitVec 8) (off : BitVec 32) (d : List Byte)
  /-- RECOVERY_COMMIT, R383: slot, MRAM offset of an uncorrectable line read. -/
  | recoveryCommit (x : BitVec 8) (bad : Option (BitVec 26))
  /-- RE_INIT, R409: function. -/
  | reInit (f : Fin 11)
  /-- FUNCTION_IDLE, R408: function. -/
  | functionIdle (f : Fin 11)
  /-- DEVICE_RESET, R409. -/
  | deviceReset
  /-- POWER_CYCLE, R354. -/
  | powerCycle
  /-- SQUALL_WINDOW_CLOSE, R410: window: fails of function n, re-inits of function n − 11, or 22 resets. -/
  | squallWindowClose (n : Fin 23)
  /-- STABLE_RUN, R413. -/
  | stableRun
  /-- CLEAR_LOG, R418: writer. -/
  | clearLog (m : Master)
  /-- WDT_SERVICE, R420: writer, tile, value. -/
  | wdtService (m : Master) (t : Fin 24) (v : Word)
  /-- WDT_LATE, R420: tile. -/
  | wdtLate (t : Fin 24)
  /-- WDT_BACKSTOP, R421: tile. -/
  | wdtBackstop (t : Fin 24)
  /-- FN_STALL, R422: function. -/
  | fnStall (f : Fin 11)
  /-- UNDEFINED_INSTRUCTION, R98: tile, word. -/
  | undefinedInstruction (t : Fin 24) (w : Word)
  /-- ANNOUNCE_SEND, R283: port. -/
  | announceSend (p : Fin 8)
  /-- SUPWARN_RELEASE, R353. -/
  | supwarnRelease
  /-- PERST_N_RELEASE, R393: width and rate codes that the link trains to. -/
  | perstNRelease (width : Fin 3) (rate : Fin 4)
  /-- LOOP_LOSS_OF_LOCK, R53. -/
  | loopLossOfLock
  /-- MVB_PORT_LATCH_EXPIRY, R308: reader, port. -/
  | mvbPortLatchExpiry (r : Reader) (m : Fin 2)
  /-- MVB_ADMIN_REPLY, R309: port, words. -/
  | mvbAdminReply (m : Fin 2) (ws : List Word)
  /-- OMT_TX_DONE, R143: tile, world of the page. -/
  | omtTxDone (t : Fin 24) (w : Fin 2)
  /-- HOST_FQ_RX_DATA, R396. -/
  | hostFqRxData
  /-- HOST_ACC_ADDR_READ, R390: reader. -/
  | hostAccAddrRead (m : Master)
  /-- DEBUG_ACCESS, R363: write, data space, address, bytes, value, how the access fares, edges waited at the bank. -/
  | debugAccess (write data : Bool) (a : Word) (n : Fin 5) (v : Word) (e : Fin 5) (waited : BitVec 16)
  /-- I2C_TARGET_REQUEST, R312: I2C controller, read request, bytes written to it. -/
  | i2cTargetRequest (n : Fin 2) (read : Bool) (got : List Byte)
  deriving DecidableEq, Repr

end Sys2Proof
end

