-- ==== Sys2Proof/Decode.lean ====
section
/-!
DEFINITION. Sys2Proof/Decode.lean: the words of the command table.  The table gives no row any bits, so no word spells a command.
-/
namespace Sys2Proof

/-- The command a table word spells: none, for no row has bits (log 11). -/
def decodeTableWord (_nbits _w : Nat) : Option Instr := none

end Sys2Proof
end

