-- ==== Sys2Proof/Config.lean ====
section
/-!
DEFINITION. Sys2Proof/Config.lean: what the spec leaves to the implementation or leaves open, as constants without a
body: the free values, and the cryptographic primitives the spec names and does not define.  No proof can see a value.
-/
namespace Sys2Proof.Config

/-- A free 32-bit value, one for each count of `State.fresh` (log 2). -/
opaque freeWord : Nat → Word

/-- A free natural number, one for each count of `State.fresh` (log 2). -/
opaque freeNat : Nat → Nat

/-- What a register field whose reset column is "—" holds before it is written, by I/O address (R10, log 2). -/
opaque undefinedAtReset : Nat → Word

/-- The frequency of the backup ring at each coarse trim code, in ppm, which the device sets (R52, log 14). -/
opaque ringCode : Nat → Int

/-- SHA-384 of a byte string (log 3). -/
opaque sha384Of : List Byte → Vector Byte 48
/-- The 48 bytes of SHA-384 (log 3). -/
def sha384 (m : List Byte) : List Byte := (sha384Of m).toList
@[simp] theorem sha384_length (m : List Byte) : (sha384 m).length = 48 := by simp [sha384]

/-- HMAC-SHA-256 under a key (log 3). -/
opaque hmac256Of : List Byte → List Byte → Vector Byte 32
/-- The 32 bytes of HMAC-SHA-256 (log 3). -/
def hmac256 (key m : List Byte) : List Byte := (hmac256Of key m).toList
@[simp] theorem hmac256_length (key m : List Byte) : (hmac256 key m).length = 32 := by simp [hmac256]

/-- CMAC-AES-256 under a key (log 3). -/
opaque cmacOf : List Byte → List Byte → Vector Byte 16
/-- The 16 bytes of CMAC-AES-256 (log 3). -/
def cmac (key m : List Byte) : List Byte := (cmacOf key m).toList
@[simp] theorem cmac_length (key m : List Byte) : (cmac key m).length = 16 := by simp [cmac]

/-- AES-256 key wrapping under a key, which unwrapping undoes (log 3). -/
opaque aesKeyWrap : List Byte → (List Byte ≃ List Byte)
/-- The wrapped form of `m` under the key `key` (log 3). -/
def aesWrap (key m : List Byte) : List Byte := aesKeyWrap key m
/-- What unwrapping `w` under the key `key` gives back (log 3). -/
def aesUnwrap (key w : List Byte) : Option (List Byte) := some ((aesKeyWrap key).symm w)
@[simp] theorem aesUnwrap_aesWrap (key m : List Byte) : aesUnwrap key (aesWrap key m) = some m := by simp [aesUnwrap, aesWrap]

/-- ECDSA P-384: public key, message, signature (log 3). -/
opaque ecdsaVerify : List Byte → List Byte → List Byte → Bool

/-- ML-DSA-87: public key, message, signature (log 3). -/
opaque mldsaVerify : List Byte → List Byte → List Byte → Bool

/-- The device identifier of Table BOOT-1, unique per device (log 4). -/
opaque deviceId : BitVec 64

/-- The device-unique key of Table BOOT-1, random per device (log 4). -/
opaque deviceKeyOf : Vector Byte 32
/-- The 32 bytes of the device-unique key (log 4). -/
def deviceKey : List Byte := deviceKeyOf.toList

/-- The words of the PCIe core's configuration space that the spec does not give, and the places of its power-management and MSI-X
capabilities there (Table HOST-2; log 102). -/
opaque pcieWord : Nat → Word
/-- The offset of the power-management capability (log 102). -/
opaque pmCap : Nat
/-- The offset of the MSI-X capability (log 102). -/
opaque msixCap : Nat

/-- The upper 43 bits of the base address of R264 in the Storekeeper store, unique per device (log 4). -/
opaque macBase : BitVec 43

/-- The egress port mask of recovery function r, which R282 names and no register of Table NET-12 holds (log 45). -/
opaque recoveryPorts : Nat → BitVec 10

end Sys2Proof.Config
end

