-- ==== Sys2Proof/Machine/InvFormat.lean ====
section
/-!
DEFINITION. Sys2Proof/Machine/InvFormat.lean: the binary format of the inventory (R13 to R32) read as functions of its
bytes, and the checks of R33 in their order.  The device keeps inventories as bytes; nothing is stored twice.
-/
namespace Sys2Proof.Machine

/-- Byte `o` of a little-endian image, 0 past its end. -/
def u8 (b : List Byte) (o : Nat) : Nat := (b.getD o 0).toNat
/-- The 16-bit little-endian value at `o` (R5). -/
def u16 (b : List Byte) (o : Nat) : Nat := u8 b o + 256 * u8 b (o + 1)
/-- The 32-bit little-endian value at `o` (R5). -/
def u32 (b : List Byte) (o : Nat) : Nat := u16 b o + 65536 * u16 b (o + 2)
/-- The `n` bytes from `o`. -/
def slice (b : List Byte) (o n : Nat) : List Byte := (b.drop o).take n
/-- `n` as `k` little-endian bytes (R5). -/
def leBytes : Nat → Nat → List Byte
  | 0, _ => []
  | k + 1, n => BitVec.ofNat 8 n :: leBytes k (n / 256)
/-- Whether the `n` bytes from `o` are all 0. -/
def zeros (b : List Byte) (o n : Nat) : Bool := (slice b o n).all (· == 0)
/-- The first 16-byte boundary at or after `n` (R14). -/
def align16 (n : Nat) : Nat := (n + 15) / 16 * 16
/-- The record number of the first failed check. -/
def firstFail (l : List (Bool × Nat)) : Option Nat := (l.find? (fun p => !p.1)).map (·.2)

/-- A directory entry (Table INV-2). -/
structure DirEntry where
  id : Nat
  version : Nat
  flags : Nat
  rsv : Nat
  offset : Nat
  length : Nat
  digest : List Byte
  deriving DecidableEq, Repr

/-- Directory entry `k` (R16). -/
def dirEntry (b : List Byte) (k : Nat) : DirEntry :=
  let o := 0x80 + 64 * k
  ⟨u16 b o, u16 b (o + 2), u16 b (o + 4), u16 b (o + 6), u32 b (o + 8), u32 b (o + 12), slice b (o + 16) 48⟩
/-- The whole directory (R13). -/
def dirEntries (b : List Byte) : List DirEntry := (List.range (u16 b 0x14)).map (dirEntry b)
/-- A section's body, empty where the inventory has none (Table INV-3). -/
def section_ (b : List Byte) (id : Nat) : List Byte :=
  match (dirEntries b).find? (·.id == id) with
  | some e => slice b e.offset e.length
  | none => []

/-- The identifiers of Table INV-3, the fixed ones first. -/
def fixedIds : List Nat := [1, 2, 3, 4, 5, 6, 7]
/-- The live identifiers of Table INV-3. -/
def liveIds : List Nat := [0x10, 0x11, 0x12, 0x13, 0x14, 0x15]
/-- Every listed identifier. -/
def listedIds : List Nat := fixedIds ++ liveIds

/-- inv_version (Table INV-1). -/
def invVersionOf (b : List Byte) : Nat := u32 b 0x10
/-- fixed_digest (Table INV-1). -/
def fixedDigestOf (b : List Byte) : List Byte := slice b 0x50 48
/-- key_slot of the signature block (R17). -/
def keySlotOf (b : List Byte) : Nat := u8 b (u32 b 0x18)
/-- The bytes both signatures cover (R17). -/
def signedBytes (b : List Byte) : List Byte := b.take (u32 b 0x18)

/-- The fingerprint (R32). -/
def fingerprint (b : List Byte) : List Byte :=
  let hdr := slice b 0 8 ++ [0, 0, 0, 0] ++ slice b 0x0C 12 ++ [0, 0, 0, 0] ++ slice b 0x1C 0x64
  let dir := ((List.range (u16 b 0x14)).filter (fun k => (dirEntry b k).id != 0x15)).map
    (fun k => slice b (0x80 + 64 * k) 64)
  (Config.sha384 (hdr ++ dir.flatten)).take 12

/-! ### Reading the sections -/

/-- Entry `k` of ref_list (Table INV-4). -/
def refEntry (b : List Byte) (k : Nat) : Nat := u8 (section_ b 1) (8 + k)
/-- switch_buf_mib (R21). -/
def switchBufMib (b : List Byte) : Nat := u8 (section_ b 2) 0
/-- Bank record `i` (Table INV-5): owner_kind, owner_index, world. -/
def bankRecord (b : List Byte) (i : Nat) : Nat × Nat × Nat :=
  let s := section_ b 2
  (u8 s (4 + 4 * i), u8 s (5 + 4 * i), u8 s (6 + 4 * i))
/-- Word `i` of tile `t`'s world block `w` (Table INV-6). -/
def worldWord (b : List Byte) (t w i : Nat) : Nat := u32 (section_ b 3) (112 * t + 56 * w + 4 * i)
/-- The gate records (Table INV-7): tile, from_world, gate, target. -/
def gateRecords (b : List Byte) : List (Nat × Nat × Nat × Nat) :=
  let s := section_ b 3
  (List.range (u32 s 0xA80)).map (fun k =>
    let o := 0xA84 + 8 * k
    (u8 s o, u8 s (o + 1), u8 s (o + 2), u32 s (o + 4)))
/-- The 8 bytes of ball record `n` (Table INV-9). -/
def ballByte (b : List Byte) (n j : Nat) : Nat := u8 (section_ b 5) (8 + 8 * n + j)
/-- The safe-level code of edge channel Ec.k: 0 low, 1 high, 2 high impedance. -/
def edgeSafeOf (b : List Byte) (c k : Nat) : Nat := u8 (section_ b 5) (1544 + 16 * c + k)
/-- Whether GPIO bank `b` runs at 1.8 V. -/
def bank18Of (b : List Byte) (bank : Nat) : Nat := u8 (section_ b 5) bank
/-- The power default of domain `d` of the section's 47. -/
def domDefault (b : List Byte) (d : Nat) : Nat := u8 (section_ b 6) d
/-- The default state of bank `i`: 0 On, 1 Retention, 2 Off. -/
def bankDefault (b : List Byte) (i : Nat) : Nat := u8 (section_ b 6) (0x30 + i / 4) / 4 ^ (i % 4) % 4
/-- Whether Cellar retains bank `i`. -/
def bankCellar (b : List Byte) (i : Nat) : Bool := u8 (section_ b 6) (0x58 + i / 8) / 2 ^ (i % 8) % 2 == 1
/-- Port record bytes (Table INV-10). -/
def portByte (b : List Byte) (p j : Nat) : Nat := u8 (section_ b 7) (8 * p + j)
/-- pvid of port `p`. -/
def portPvid (b : List Byte) (p : Nat) : Nat := u16 (section_ b 7) (8 * p + 2)

/-- A role record (Table INV-11). -/
structure RoleRec where
  id : Nat
  kind : Nat
  target : Nat
  baseGen : Nat
  world : Nat
  queue : Nat
  deriving DecidableEq, Repr
/-- Every role record. -/
def roleRecs (b : List Byte) : List RoleRec :=
  let s := section_ b 0x10
  (List.range (u16 s 0)).map (fun k =>
    let o := 4 + 8 * k
    ⟨u16 s o, u8 s (o + 2), u8 s (o + 3), u8 s (o + 4), u8 s (o + 5), u8 s (o + 6)⟩)
/-- The record of role `r`. -/
def roleRec (b : List Byte) (r : Nat) : Option RoleRec := (roleRecs b).find? (·.id == r)

/-- A vote group record (Table INV-12). -/
structure GroupRec where
  group : Nat
  kind : Nat
  member : List Nat
  lullSafe : Bool
  pool : Nat
  checksum : Bool
  stagger : Nat
  skew : Nat
  ckptPeriodUs : Nat
  ckptBase : Nat
  ckptLen : Nat
  deriving DecidableEq, Repr
/-- Every vote group record, in file order. -/
def groupRecs (b : List Byte) : List GroupRec :=
  let s := section_ b 0x11
  (List.range (u8 s 0)).map (fun k =>
    let o := 4 + 32 * k
    ⟨u8 s o, u8 s (o + 1), (List.range (u8 s (o + 1))).map (fun j => u8 s (o + 2 + j)), u8 s (o + 5) == 1,
      u8 s (o + 6), u8 s (o + 7) % 2 == 1, u32 s (o + 8), u32 s (o + 12), u32 s (o + 16), u32 s (o + 20),
      u32 s (o + 24)⟩)
/-- The record of group `g`. -/
def groupRec (b : List Byte) (g : Nat) : Option GroupRec := (groupRecs b).find? (·.group == g)
/-- The worlds that receive for group `g` (R27). -/
def groupWorlds (b : List Byte) (g : Nat) : List Nat :=
  let ws := ((roleRecs b).filter (fun r => r.kind == 1 && r.target == g)).map (·.world)
  if ws.isEmpty then [0] else ws.dedup
/-- The spare pools: index and tiles. -/
def pools (b : List Byte) : List (Nat × List Nat) :=
  let s := section_ b 0x12
  (List.range (u8 s 0)).map (fun k =>
    let o := 4 + 8 * k
    (u8 s o, (List.range (u8 s (o + 1))).map (fun j => u8 s (o + 2 + j))))
/-- The tiles of pool `p`, in record order; 0xFF names none. -/
def poolTiles (b : List Byte) (p : Nat) : List Nat :=
  if p == 0xFF then [] else (((pools b).find? (·.1 == p)).map (·.2)).getD []

/-- A switch schedule: port, cycle, offset, and its entries (gates, interval). -/
structure Sched where
  port : Nat
  cycle : Nat
  offset : Nat
  entries : List (Nat × Nat)
  deriving DecidableEq, Repr
/-- The schedules from offset `o` on, `n` of them. -/
def schedsFrom (s : List Byte) : Nat → Nat → List Sched
  | 0, _ => []
  | n + 1, o =>
    let k := u16 s (o + 2)
    ⟨u8 s o, u32 s (o + 4), u32 s (o + 8),
      (List.range k).map (fun i => (u8 s (o + 16 + 8 * i), u32 s (o + 20 + 8 * i)))⟩
      :: schedsFrom s n (o + 16 + 8 * k)
/-- Whether the reserved bytes of each head and entry are 0, schedule by schedule (R444). -/
def schedZeros (s : List Byte) : Nat → Nat → List Bool
  | 0, _ => []
  | n + 1, o =>
    let k := u16 s (o + 2)
    (zeros s (o + 1) 1 && zeros s (o + 12) 4 && (List.range k).all (fun i => zeros s (o + 17 + 8 * i) 3))
      :: schedZeros s n (o + 16 + 8 * k)
/-- Every switch schedule. -/
def scheds (b : List Byte) : List Sched := let s := section_ b 0x13; schedsFrom s (u8 s 0) 4
/-- The schedule of port `p`. -/
def schedOf (b : List Byte) (p : Nat) : Option Sched := (scheds b).find? (·.port == p)
/-- The split-table byte of function `f`. -/
def splitByte (b : List Byte) (f : Nat) : Nat := u8 (section_ b 0x14) f
/-- peer_count. -/
def peerCount (b : List Byte) : Nat := u16 (section_ b 0x15) 0
/-- beacon_offset in units of 10 µs. -/
def beaconOffset (b : List Byte) : Nat := u16 (section_ b 0x15) 2
/-- revert_delay_ms. -/
def revertDelayMs (b : List Byte) : Nat := u16 (section_ b 0x15) 4

/-- A peer record (Table INV-14). -/
structure PeerRec where
  mac : List Byte
  node : Nat
  flags : Nat
  fp : List Byte
  deriving DecidableEq, Repr
/-- Every peer record. -/
def peerRecs (b : List Byte) : List PeerRec :=
  let s := section_ b 0x15
  (List.range (u16 s 0)).map (fun k =>
    let o := 8 + 24 * k
    ⟨slice s o 6, u16 s (o + 6), u16 s (o + 8), slice s (o + 12) 12⟩)

/-! ### The checks of R33 -/

/-- Result codes (Table INV-15). -/
def invOk : Nat := 0
def invBadMagic : Nat := 1
def invBadFormat : Nat := 2
def invWrongPart : Nat := 3
def invBadSignature : Nat := 4
def invKeyRevoked : Nat := 5
def invLayout : Nat := 6
def invSectionDigest : Nat := 7
def invMissingSection : Nat := 8
def invRule : Nat := 9
def invLifecycle : Nat := 0xA
def invDeviceBind : Nat := 0xB
def invFixedDiffers : Nat := 0xC
def invVersionCode : Nat := 0xD
def invBusy : Nat := 0xE
def invEpochTooSoon : Nat := 0xF
def invEpochMisaligned : Nat := 0x10
def invEpochNumber : Nat := 0x11
def invNothingStaged : Nat := 0x12

/-- What the device brings to the checks of R33: life-cycle state, key-slot states (0 empty, 1 valid, 2 revoked), the
key record of a slot in the manifest of the same image slot, the low half of the device identifier, and the total length
STAGE_BEGIN gave (none at boot). -/
structure InvCtx where
  lc : Nat
  keyState : Nat → Nat
  keyRecord : Nat → Option (List Byte)
  idLow : Nat
  total : Option Nat

/-- Step 1: the header. -/
def checkHeader (b : List Byte) (x : InvCtx) : Option Nat :=
  if u32 b 0 != 0x4E494C55 then some invBadMagic
  else if u32 b 0x0C != 0x2406 then some invWrongPart
  else if u16 b 4 == 1 && u16 b 6 == 0x80 && u32 b 0x1C == 0x80 && u32 b 8 ≤ 262144 &&
      (x.total.all (· == u32 b 8)) && u32 b 0x10 != 0 && 1 ≤ u16 b 0x14 && u16 b 0x14 ≤ 32 && u16 b 0x16 == 0 &&
      zeros b 0x42 14 then none
  else some invBadFormat

/-- The two signatures under a key record, as the life-cycle state requires (Table BOOT-4). -/
def signaturesOk (lc : Nat) (krec msg sig : List Byte) : Bool :=
  let e := Config.ecdsaVerify (slice krec 16 96) (Config.sha384 msg) (slice sig 16 96)
  let m := Config.mldsaVerify (slice krec 112 2592) msg (slice sig 112 4627)
  if lc ≤ 1 then e || m else e && m

/-- Step 2: the signature block. -/
def checkSignature (b : List Byte) (x : InvCtx) : Option Nat :=
  let so := u32 b 0x18
  let k := u8 b so
  if so % 16 != 0 || so + 4752 != u32 b 8 || 8 ≤ k || u32 b (so + 4) != 96 || u32 b (so + 8) != 4627 ||
      !(zeros b (so + 1) 3 && zeros b (so + 12) 4 && zeros b (so + 16 + 96 + 4627) 13) then some invBadFormat
  else if x.keyState k == 2 then some invKeyRevoked
  else match x.keyRecord k with
    | none => some invBadSignature
    | some kr => if signaturesOk x.lc kr (signedBytes b) (slice b so 4752) then none else some invBadSignature

/-- The body length a listed section's description gives (R14). -/
def bodyLen (id : Nat) (s : List Byte) : Nat :=
  match id with
  | 1 => 24
  | 2 => 644
  | 3 => 2692 + 8 * u32 s 0xA80
  | 4 => 8
  | 5 => 1640
  | 6 => 112
  | 7 => 80
  | 0x10 => 4 + 8 * u16 s 0
  | 0x11 => 4 + 32 * u8 s 0
  | 0x12 => 4 + 8 * u8 s 0
  | 0x13 => 4 + ((schedsFrom s (u8 s 0) 4).map (fun c => 16 + 8 * c.entries.length)).sum
  | 0x14 => 16
  | _ => 8 + 24 * u16 s 0

/-- The offsets, lengths, padding and flags of the bodies from offset `cur` on (R14, R16, R19). -/
def layoutOk (b : List Byte) : List DirEntry → Nat → Bool
  | [], cur => cur == u32 b 0x18
  | e :: rest, cur =>
    let next := align16 (e.offset + e.length)
    e.offset == cur && e.flags ≤ 1 && e.rsv == 0 && next ≤ b.length && zeros b (e.offset + e.length)
        (next - (e.offset + e.length)) &&
      (if listedIds.contains e.id then e.length == bodyLen e.id (slice b e.offset e.length) else e.flags % 2 == 1) &&
      layoutOk b rest next

/-- Step 3: the layout, the presence of every section once, and the versions (log 30 gives the order). -/
def checkLayout (b : List Byte) : Option Nat :=
  let es := dirEntries b
  if !layoutOk b es (0x80 + 64 * es.length) then some invLayout
  else if !(listedIds.all (fun id => (es.filter (·.id == id)).length == 1)) then some invMissingSection
  else if (es.getLast?.map (·.id)) != some 0x15 then some invLayout
  else if es.any (fun e => listedIds.contains e.id && e.version != 1) then some invBadFormat
  else none

/-- Step 4: the digests. -/
def checkDigests (b : List Byte) : Option Nat :=
  let es := dirEntries b
  if es.all (fun e => Config.sha384 (slice b e.offset e.length) == e.digest) &&
      Config.sha384 ((es.filter (fun e => fixedIds.contains e.id)).map (fun e => slice b e.offset e.length)).flatten
        == fixedDigestOf b then none
  else some invSectionDigest

/-- Whether `[lo, hi)` lies wholly inside one of the data windows of a world block. -/
def inOneWindow (b : List Byte) (t w lo hi : Nat) : Bool :=
  (List.range 4).any (fun k => worldWord b t w (2 * k) ≤ lo && hi ≤ worldWord b t w (2 * k + 1))
/-- Whether any data window of a world block meets the Vault. -/
def windowMeetsVault (b : List Byte) (t w k : Nat) : Bool :=
  worldWord b t w (2 * k) < 0x2FF10000 && 0x2FF00000 < worldWord b t w (2 * k + 1) &&
    worldWord b t w (2 * k) < worldWord b t w (2 * k + 1)

/-- R20 and R444 on the Clock section. -/
def checkClock (b : List Byte) : Option Nat :=
  let s := section_ b 1
  let n := u8 s 0
  let codes := (List.range n).map (refEntry b)
  firstFail [(1 ≤ n && n ≤ 11, 0), (u8 s 1 ≤ 3 || u8 s 1 == 0xFF, 0), (u8 s 2 ≤ 16, 0), (u8 s 3 ≤ 7, 0),
    (u8 s 4 ≤ 1, 0), (zeros s 5 3, 0), (zeros s 20 4, 0), (codes.all (· ≤ 0x0A), 0),
    ((List.range 12).all (fun k => k < n || refEntry b k == 0xFF), 0), (decide codes.Nodup, 0),
    (codes.dropLast.all (· != 0x0A), 0), (!(codes.contains 8 && u8 s 1 == 0xFF), 0),
    (codes.all (fun c => 8 ≤ c || portByte b c 0 != 0), 0)]

/-- R21 and R444 on the Memory partition. -/
def checkMemory (b : List Byte) : Option Nat :=
  let s := section_ b 2
  let n := switchBufMib b
  firstFail ([(2 ≤ n && n ≤ 8 && zeros s 1 3, 0)] ++ (List.range 160).map (fun i =>
    let (k, x, w) := bankRecord b i
    (k ≤ 4 && w ≤ 2 && u8 s (7 + 4 * i) == 0 &&
      (match k with
        | 1 => decide (x ≤ 5)
        | 2 => decide (x ≤ 23)
        | _ => x == 0) &&
      (if i < 64 then (k == 3) == decide (64 - 4 * n ≤ i)
       else k != 3 && (k != 1 || x == (i - 64) / 16) && (k != 2 || x / 4 == (i - 64) / 16)), i)))

/-- R22 and R444 on the World windows. -/
def checkWorlds (b : List Byte) : Option Nat :=
  let s := section_ b 3
  let gs := gateRecords b
  let blk := fun t w =>
    (List.range 6).all (fun k => worldWord b t w (2 * k) % 256 == 0 &&
      worldWord b t w (2 * k) ≤ worldWord b t w (2 * k + 1)) &&
    worldWord b t w 8 < 0x1000000 && worldWord b t w 9 < 0x1000000 &&
    inOneWindow b t w (worldWord b t w 10) (worldWord b t w 11) &&
    worldWord b t w 13 % 8 == 0 && worldWord b t w 13 + 256 ≤ 0x40000 &&
    (if w == 1 then (List.range 4).all (fun k => !windowMeetsVault b t w k)
     else !((List.range 4).any (windowMeetsVault b t w) && windowMeetsVault b t w 5))
  firstFail ((List.range 24).map (fun t => (blk t 0 && blk t 1, t)) ++ [(decide (u32 s 0xA80 ≤ 256), 0)] ++
    (List.range gs.length).map (fun k =>
      let o := 0xA84 + 8 * k
      (u8 s o ≤ 23 && u8 s (o + 1) ≤ 1 && u8 s (o + 3) == 0 &&
        (List.range k).all (fun j => slice s (0xA84 + 8 * j) 3 != slice s o 3), k)))

/-- R444 on the Life-cycle section. -/
def checkLifecycle (b : List Byte) : Option Nat :=
  let s := section_ b 4
  firstFail [(u8 s 0 < 64 && u8 s 2 < 16 && u8 s 3 == 0, 0)]

/-- The candidate functions of ball `n` (Table PIN-3). -/
def ballCandidates (n : Nat) : List Nat :=
  let bank := n / 24
  let k := n % 24
  [1] ++
  (if bank < 6 then
    (if k < 16 then [0x10 + 16 * bank + k]
     else if bank < 4 then (if k < 23 then [0xB0 + 7 * bank + (k - 16)] else [0x92 + 3 * bank])
     else if k < 22 then [0x80 + 6 * (bank - 4) + (k - 16)] else [0xD0 + 2 * (bank - 4) + (k - 22)])
   else if bank == 6 then
    (if k < 16 then [0x70 + k] else [0x90 + 3 * ((k - 16) / 2) + (k - 16) % 2])
   else
    (if k < 8 then [0x90 + 3 * (4 + k / 2) + k % 2]
     else if k < 16 then [0x92 + 3 * (k - 8)]
     else [0x70 + (k - 16), 0x90 + 3 * (4 + (k - 16) / 2) + (k - 16) % 2]))

/-- R23, R317 and R444 on Balls and safe levels. -/
def checkBalls (b : List Byte) : Option Nat :=
  let cands := fun n => ((List.range 4).map (ballByte b n)).filter (· != 0)
  firstFail ([((List.range 8).all (fun k => bank18Of b k ≤ 1), 0)] ++ (List.range 192).map (fun n =>
    let cs := cands n
    (decide cs.Nodup && cs.all (fun c => (ballCandidates n).contains c) && ballByte b n 4 ≤ 3 && ballByte b n 5 ≤ 1 &&
      ballByte b n 6 ≤ 100 && ballByte b n 7 ≤ 3 &&
      cs.all (fun c => c == 1 || (List.range n).all (fun m => !(cands m).contains c)), n)) ++
    [((List.range 96).all (fun k => u8 (section_ b 5) (1544 + k) ≤ 2), 0)])

/-- R24 and R444 on Power defaults, which holds no records: record 0 for every field. -/
def checkPower (b : List Byte) : Option Nat :=
  let s := section_ b 6
  firstFail ((List.range 47).map (fun d => (domDefault b d ≤ 2 && (3 ≤ d || domDefault b d == 0), 0)) ++
    [(u8 s 0x2F == 0, 0), (zeros s 0x6C 4, 0)] ++
    (List.range 160).map (fun i => (bankDefault b i ≤ 2 &&
      (64 ≤ i || i < 64 - 4 * switchBufMib b || bankDefault b i == 0), 0)))

/-- R25 and R444 on Port roles. -/
def checkPorts (b : List Byte) : Option Nat :=
  firstFail ((List.range 10).map (fun p =>
    (portByte b p 0 ≤ 4 && (portByte b p 0 == 4) == decide (8 ≤ p) && portByte b p 1 ≤ 3 &&
      (p < 8 || portByte b p 1 == 0) && 1 ≤ portPvid b p && portPvid b p ≤ 4094 && portByte b p 4 ≤ 7 &&
      zeros (section_ b 7) (8 * p + 5) 3, p)))

/-- R26, R138 and R444 on the Role table: role 0xFFF is not a role. -/
def checkRoles (b : List Byte) : Option Nat :=
  let s := section_ b 0x10
  let rs := roleRecs b
  firstFail ([(1 ≤ u16 s 0 && u16 s 0 ≤ 1024 && zeros s 2 2, 0)] ++ (List.range rs.length).map (fun k =>
    match rs[k]? with
    | none => (false, k)
    | some r => (r.id < 0xFFF && r.kind ≤ 1 && (if r.kind == 0 then decide (r.target ≤ 23) else decide (r.target ≤ 11))
        && 1 ≤ r.baseGen && r.world ≤ 1 && r.queue ≤ 3 && u8 s (4 + 8 * k + 7) == 0 &&
        (k == 0 || ((rs[k - 1]?).all (fun q => q.id < r.id))), k)))

/-- R27 and R444 on Vote groups. -/
def checkGroups (b : List Byte) : Option Nat :=
  let s := section_ b 0x11
  let gs := groupRecs b
  firstFail ([(u8 s 0 ≤ 12 && zeros s 1 3, 0)] ++ (List.range gs.length).map (fun k =>
    let o := 4 + 32 * k
    match gs[k]? with
    | none => (false, k)
    | some g =>
      ((g.kind == 2 || g.kind == 3) && g.group ≤ 11 && g.member.all (· ≤ 23) &&
        (g.kind == 3 || u8 s (o + 4) == 0xFF) && u8 s (o + 5) ≤ 1 &&
        u8 s (o + 7) ≤ 1 && u32 s (o + 28) == 0 &&
        decide (g.member.map (· / 4)).Nodup &&
        (gs.take k).all (fun h => h.group != g.group && h.member.all (fun m => !g.member.contains m)) &&
        (g.kind - 1) * g.stagger < g.skew && 100 ≤ g.skew && g.skew ≤ 64000 &&
        100 ≤ g.ckptPeriodUs && g.ckptPeriodUs ≤ 1000000 && g.ckptLen % 64 == 0 && 64 ≤ g.ckptLen &&
        g.ckptLen ≤ 262144 &&
        g.member.all (fun m => (groupWorlds b g.group).all (fun w =>
          inOneWindow b m w g.ckptBase (g.ckptBase + g.ckptLen))) &&
        -- R28's last sentence: the pool must be present
        (g.pool == 0xFF || (pools b).any (·.1 == g.pool)), k)))

/-- R28 and R444 on Spare pools. R28 gives the pool index neither a range nor uniqueness: of two records with one index the
first is the pool, and a tile named twice in one record counts once (log 111, DESIGN CHOICE). -/
def checkPools (b : List Byte) : Option Nat :=
  let s := section_ b 0x12
  let ps := pools b
  firstFail ([(u8 s 0 ≤ 8 && zeros s 1 3, 0)] ++ (List.range ps.length).map (fun k =>
    let o := 4 + 8 * k
    match ps[k]? with
    | none => (false, k)
    | some (_, ts) =>
      (1 ≤ u8 s (o + 1) && u8 s (o + 1) ≤ 6 && ts.all (· ≤ 23) &&
        (List.range 6).all (fun j => j < u8 s (o + 1) || u8 s (o + 2 + j) == 0xFF) &&
        ts.all (fun t => (groupRecs b).all (fun g => !g.member.contains t) &&
          (roleRecs b).all (fun r => !(r.kind == 0 && r.target == t))) &&
        (ps.take k).all (fun q => q.2.all (fun t => !ts.contains t)), k)))

/-- R29 and R444 on Switch schedules. -/
def checkScheds (b : List Byte) : Option Nat :=
  let s := section_ b 0x13
  let cs := scheds b
  firstFail ([(u8 s 0 ≤ 8 && zeros s 1 3, 0)] ++ (List.range cs.length).map (fun k =>
    match cs[k]? with
    | none => (false, k)
    | some c => (c.port ≤ 7 && (schedZeros s (u8 s 0) 4).getD k true && 1 ≤ c.entries.length && c.entries.length ≤ 256 &&
        (c.entries.map (·.2)).sum == c.cycle && c.offset < c.cycle && (cs.take k).all (·.port != c.port), k)))

/-- R444 on the Split table. -/
def checkSplit (b : List Byte) : Option Nat :=
  firstFail [((List.range 11).all (fun f => splitByte b f ≤ 3) && zeros (section_ b 0x14) 11 5, 0)]

/-- R31 and R444 on the Peer manifest. -/
def checkPeers (b : List Byte) : Option Nat :=
  let s := section_ b 0x15
  let ps := peerRecs b
  let own := ps.filter (fun p => p.flags / 2 % 2 == 1)
  firstFail ([(1 ≤ u16 s 0 && u16 s 0 ≤ 64 && u16 s 2 ≤ 900 && 10 ≤ u16 s 4 && u16 s 4 ≤ 1000 && zeros s 6 2, 0)] ++
    (List.range ps.length).map (fun k => (ps[k]?.all (fun p => p.flags ≤ 3) && zeros s (8 + 24 * k + 10) 2, k)) ++
    [(own.length == 1 && own.all (fun p => p.node == u16 b 0x40 && p.fp == fingerprint b), 0)])

/-- Step 5: the section rules, section by section in the order of Table INV-3 (log 30). -/
def checkRules (b : List Byte) : Option (Nat × Nat) :=
  ([(1, checkClock b), (2, checkMemory b), (3, checkWorlds b), (4, checkLifecycle b), (5, checkBalls b),
    (6, checkPower b), (7, checkPorts b), (0x10, checkRoles b), (0x11, checkGroups b), (0x12, checkPools b),
    (0x13, checkScheds b), (0x14, checkSplit b), (0x15, checkPeers b)].filterMap
      (fun p => p.2.map (fun r => (p.1, r)))).head?

/-- Step 6: the life-cycle bindings. -/
def checkBindings (b : List Byte) (x : InvCtx) : Option Nat :=
  let s := section_ b 4
  if u8 s 1 / 2 ^ keySlotOf b % 2 == 0 then some invBadSignature
  else if u8 s 0 / 2 ^ x.lc % 2 == 0 then some invLifecycle
  else if u32 s 4 != 0 && u32 s 4 != x.idLow then some invDeviceBind
  else none

/-- R33: code, section and record of the first failure; `(0, 0, 0)` where every check passes. -/
def checkInventory (b : List Byte) (x : InvCtx) : Nat × Nat × Nat :=
  match checkHeader b x with
  | some e => (e, 0, 0)
  | none => match checkSignature b x with
    | some e => (e, 0, 0)
    | none => match checkLayout b with
      | some e => (e, 0, 0)
      | none => match checkDigests b with
        | some e => (e, 0, 0)
        | none => match checkRules b with
          | some (sec, rec) => (invRule, sec, rec)
          | none => match checkBindings b x with
            | some e => (e, 0, 0)
            | none => (invOk, 0, 0)

/-- R33 followed by the two checks of a staged inventory against the active one (R34, Table INV-15). The spec gives the two no
order: FIXED_DIFFERS comes before VERSION (log 112, DESIGN CHOICE). -/
def checkStaged (b active : List Byte) (x : InvCtx) : Nat × Nat × Nat :=
  match checkInventory b x with
  | (0, _, _) =>
    if fixedDigestOf b != fixedDigestOf active then (invFixedDiffers, 0, 0)
    else if invVersionOf b ≤ invVersionOf active then (invVersionCode, 0, 0)
    else (invOk, 0, 0)
  | r => r

end Sys2Proof.Machine
end

