-- ==== Sys2Proof/Machine/Regs.lean ====
section
/-!
DEFINITION. Sys2Proof/Machine/Regs.lean: the register maps of the spec's chapters, one address per register and one
field per named bit range, in the spec's own names, with the access type of Table SCO-4 and the reset value of every
register.  A register with a reset column of "inv" or "fuse" rests at 0 until the inventory or the fuses are read (log 4).
-/
namespace Sys2Proof.Machine

/-- The base of tile `t`'s block, inside its cluster (R3, Table MEM-3). -/
def tileBlk (t : Nat) : Nat := 0x100000 * (t / 4 + 1) + 0x80000 + 0x10000 * (t % 4)

/-- The base of cluster `c`'s blocks (Table MEM-3). -/
def cluBlk (c : Nat) : Nat := 0x100000 * (c + 1)

/-- The registers of channel `k` of tile `t`'s DMA engine (Tables DMA-8, DMA-9). -/
def tdmaCh (t k : Nat) : Nat := tileBlk t + 0x8100 + 0x80 * k

/-- The registers of channel `k` of cluster `c`'s DMA engine (Tables DMA-8, DMA-9). -/
def cdmaCh (c k : Nat) : Nat := cluBlk c + 0x10100 + 0x80 * k

/-! ### INV -/

def INV_VERSION : Nat := 0xA0000
def INV_STATE : Nat := 0xA0004
def INV_STATE.state : Fld := ⟨INV_STATE, 0, 4⟩
def INV_STATE.fallback_held : Fld := ⟨INV_STATE, 8, 1⟩
def INV_STATE.split_override : Fld := ⟨INV_STATE, 9, 1⟩
def INV_STATE.degraded_epoch : Fld := ⟨INV_STATE, 10, 1⟩
def INV_STATE.persist_pending : Fld := ⟨INV_STATE, 11, 1⟩
def INV_FP (w : Nat) : Nat := 0xA0008 + 0x4 * w
def INV_EPOCH : Nat := 0xA0014
def INV_EPOCH_TT_LO : Nat := 0xA0018
def INV_EPOCH_TT_HI : Nat := 0xA001C
def INV_STAGE_VERSION : Nat := 0xA0020
def INV_STAGE_FP (w : Nat) : Nat := 0xA0024 + 0x4 * w
def INV_STATUS : Nat := 0xA0030
def INV_STATUS.code : Fld := ⟨INV_STATUS, 0, 8⟩
def INV_DETAIL : Nat := 0xA0034
def INV_DETAIL.section : Fld := ⟨INV_DETAIL, 0, 16⟩
def INV_DETAIL.record : Fld := ⟨INV_DETAIL, 16, 16⟩
def INV_EVENTS : Nat := 0xA0038
def INV_EVENTS.staged : Fld := ⟨INV_EVENTS, 0, 1⟩
def INV_EVENTS.load_failed : Fld := ⟨INV_EVENTS, 1, 1⟩
def INV_EVENTS.switched : Fld := ⟨INV_EVENTS, 2, 1⟩
def INV_EVENTS.revert_sent : Fld := ⟨INV_EVENTS, 3, 1⟩
def INV_EVENTS.reverted : Fld := ⟨INV_EVENTS, 4, 1⟩
def INV_EVENTS.late_revert : Fld := ⟨INV_EVENTS, 5, 1⟩
def INV_EVENTS.takeover_dropped : Fld := ⟨INV_EVENTS, 6, 1⟩
def INV_EVENTS.peer_change : Fld := ⟨INV_EVENTS, 7, 1⟩
def INV_CFG : Nat := 0xA003C
def INV_CFG.beacon_offset : Fld := ⟨INV_CFG, 0, 10⟩
def INV_CFG.revert_delay_ms : Fld := ⟨INV_CFG, 16, 10⟩

/-! ### BEACON -/

def BEACON_SUMMARY : Nat := 0xA1000
def BEACON_SUMMARY.agree : Fld := ⟨BEACON_SUMMARY, 0, 8⟩
def BEACON_SUMMARY.mismatch : Fld := ⟨BEACON_SUMMARY, 8, 8⟩
def BEACON_SUMMARY.missing : Fld := ⟨BEACON_SUMMARY, 16, 8⟩
def BEACON_SUMMARY.peers : Fld := ⟨BEACON_SUMMARY, 24, 8⟩
def BEACON_TRAILER_MISMATCH : Nat := 0xA1004
def BEACON_PEER_STAT (p : Nat) : Nat := 0xA1100 + 0x10 * p
def BEACON_PEER_STAT.state (p : Nat) : Fld := ⟨BEACON_PEER_STAT p, 0, 2⟩
def BEACON_PEER_STAT.age (p : Nat) : Fld := ⟨BEACON_PEER_STAT p, 8, 8⟩
def BEACON_PEER_STAT.revert_seen (p : Nat) : Fld := ⟨BEACON_PEER_STAT p, 16, 1⟩
def BEACON_PEER_STAT.degraded (p : Nat) : Fld := ⟨BEACON_PEER_STAT p, 17, 1⟩
def BEACON_PEER_FP0 (p : Nat) : Nat := 0xA1104 + 0x10 * p
def BEACON_PEER_FP1 (p : Nat) : Nat := 0xA1108 + 0x10 * p
def BEACON_PEER_FP2 (p : Nat) : Nat := 0xA110C + 0x10 * p

/-! ### CLK -/

def CLK_STATUS : Nat := 0x20000
def CLK_STATUS.mode : Fld := ⟨CLK_STATUS, 0, 3⟩
def CLK_STATUS.glide : Fld := ⟨CLK_STATUS, 3, 1⟩
def CLK_STATUS.switching : Fld := ⟨CLK_STATUS, 4, 1⟩
def CLK_STATUS.degraded : Fld := ⟨CLK_STATUS, 5, 1⟩
def CLK_STATUS.spread_active : Fld := ⟨CLK_STATUS, 6, 1⟩
def CLK_STATUS.lull : Fld := ⟨CLK_STATUS, 7, 1⟩
def CLK_STATUS.selected : Fld := ⟨CLK_STATUS, 8, 8⟩
def CLK_STATUS.select_result : Fld := ⟨CLK_STATUS, 16, 3⟩
def CLK_STATUS.boot_list : Fld := ⟨CLK_STATUS, 19, 1⟩
def CLK_EVENTS : Nat := 0x20004
def CLK_EVENTS.ref_fail : Fld := ⟨CLK_EVENTS, 0, 1⟩
def CLK_EVENTS.ref_proven : Fld := ⟨CLK_EVENTS, 1, 1⟩
def CLK_EVENTS.switched : Fld := ⟨CLK_EVENTS, 2, 1⟩
def CLK_EVENTS.deadswitch : Fld := ⟨CLK_EVENTS, 3, 1⟩
def CLK_EVENTS.lull_enter : Fld := ⟨CLK_EVENTS, 4, 1⟩
def CLK_EVENTS.lull_exit : Fld := ⟨CLK_EVENTS, 5, 1⟩
def CLK_EVENTS.ring_fail : Fld := ⟨CLK_EVENTS, 6, 1⟩
def CLK_EVENTS.ring_trimmed : Fld := ⟨CLK_EVENTS, 7, 1⟩
def CLK_EVENTS.loop_slip : Fld := ⟨CLK_EVENTS, 8, 1⟩
def CLK_EVENTS.watch_fail : Fld := ⟨CLK_EVENTS, 9, 1⟩
def CLK_EVENTS.hold_verdict : Fld := ⟨CLK_EVENTS, 10, 1⟩
def CLK_EVENT_EN : Nat := 0x20008
def CLK_EVENT_EN.en : Fld := ⟨CLK_EVENT_EN, 0, 11⟩
def CLK_CTRL : Nat := 0x2000C
def CLK_CTRL.revert_holdoff_ms : Fld := ⟨CLK_CTRL, 0, 16⟩
def CLK_CTRL.lock : Fld := ⟨CLK_CTRL, 31, 1⟩
def CLK_SELECT : Nat := 0x20010
def CLK_SELECT.source : Fld := ⟨CLK_SELECT, 0, 8⟩
def CLK_REF_CFG : Nat := 0x20014
def CLK_REF_CFG.ref_count : Fld := ⟨CLK_REF_CFG, 0, 4⟩
def CLK_REF_CFG.refin_freq : Fld := ⟨CLK_REF_CFG, 8, 8⟩
def CLK_REF_CFG.spread_depth : Fld := ⟨CLK_REF_CFG, 16, 5⟩
def CLK_REF_CFG.spread_rate : Fld := ⟨CLK_REF_CFG, 24, 3⟩
def CLK_REF_CFG.spread_profile : Fld := ⟨CLK_REF_CFG, 28, 1⟩
def CLK_REF_LIST0 : Nat := 0x20018
def CLK_REF_LIST12 (n : Nat) : Nat := 0x2001C + 0x4 * n
def CLK_RING : Nat := 0x20024
def CLK_RING.state : Fld := ⟨CLK_RING, 0, 2⟩
def CLK_RING.trim : Fld := ⟨CLK_RING, 2, 10⟩
def CLK_RING.error_ppm : Fld := ⟨CLK_RING, 16, 16⟩
def CLK_PERIOD_MEAS : Nat := 0x20028
def CLK_PERIOD_MEAS.period : Fld := ⟨CLK_PERIOD_MEAS, 0, 24⟩
def CLK_PERIOD_MEAS.valid : Fld := ⟨CLK_PERIOD_MEAS, 31, 1⟩
def CLK_LAST_SWITCH : Nat := 0x2002C
def CLK_LAST_SWITCH.from_ : Fld := ⟨CLK_LAST_SWITCH, 0, 8⟩
def CLK_LAST_SWITCH.to : Fld := ⟨CLK_LAST_SWITCH, 8, 8⟩
def CLK_LAST_SWITCH.cause : Fld := ⟨CLK_LAST_SWITCH, 16, 4⟩
def CLK_LAST_SWITCH.deadswitch : Fld := ⟨CLK_LAST_SWITCH, 20, 1⟩
def CLK_SWITCH_TT_LO : Nat := 0x20030
def CLK_SWITCH_TT_HI : Nat := 0x20034
def CLK_COUNTS : Nat := 0x20038
def CLK_COUNTS.switches : Fld := ⟨CLK_COUNTS, 0, 16⟩
def CLK_COUNTS.deadswitches : Fld := ⟨CLK_COUNTS, 16, 16⟩
def CLK_HOLD_RECORD : Nat := 0x2003C
def CLK_HOLD_RECORD.hold_entered : Fld := ⟨CLK_HOLD_RECORD, 0, 1⟩
def CLK_HOLD_RECORD.at_power_on : Fld := ⟨CLK_HOLD_RECORD, 1, 1⟩
def CLK_HOLD_RECORD.holds : Fld := ⟨CLK_HOLD_RECORD, 8, 8⟩
def CLK_SRC_STAT (s : Nat) : Nat := 0x20100 + 0x4 * s
def CLK_SRC_STAT.state (s : Nat) : Fld := ⟨CLK_SRC_STAT s, 0, 2⟩
def CLK_SRC_STAT.listed (s : Nat) : Fld := ⟨CLK_SRC_STAT s, 2, 1⟩
def CLK_SRC_STAT.selected (s : Nat) : Fld := ⟨CLK_SRC_STAT s, 3, 1⟩
def CLK_SRC_STAT.pass_count (s : Nat) : Fld := ⟨CLK_SRC_STAT s, 4, 4⟩
def CLK_SRC_STAT.fail_cause (s : Nat) : Fld := ⟨CLK_SRC_STAT s, 8, 4⟩
def CLK_SRC_STAT.deviation_ppm (s : Nat) : Fld := ⟨CLK_SRC_STAT s, 16, 16⟩

/-! ### TT -/

def TT_NOW_LO : Nat := 0x30000
def TT_NOW_HI : Nat := 0x30004
def TT_NOW_FRAC : Nat := 0x30008
def TT_NOW_FRAC.frac : Fld := ⟨TT_NOW_FRAC, 0, 24⟩
def TT_STATUS : Nat := 0x3000C
def TT_STATUS.state : Fld := ⟨TT_STATUS, 0, 3⟩
def TT_STATUS.degraded : Fld := ⟨TT_STATUS, 3, 1⟩
def TT_STATUS.clock_degraded : Fld := ⟨TT_STATUS, 4, 1⟩
def TT_STATUS.ever_synced : Fld := ⟨TT_STATUS, 5, 1⟩
def TT_STATUS.step_permitted : Fld := ⟨TT_STATUS, 6, 1⟩
def TT_STATUS.phase_only : Fld := ⟨TT_STATUS, 7, 1⟩
def TT_STATUS.slewing : Fld := ⟨TT_STATUS, 8, 1⟩
def TT_STATUS.slave_port : Fld := ⟨TT_STATUS, 12, 4⟩
def TT_EVENTS : Nat := 0x30010
def TT_EVENTS.locked : Fld := ⟨TT_EVENTS, 0, 1⟩
def TT_EVENTS.unlocked : Fld := ⟨TT_EVENTS, 1, 1⟩
def TT_EVENTS.holdover : Fld := ⟨TT_EVENTS, 2, 1⟩
def TT_EVENTS.step_taken : Fld := ⟨TT_EVENTS, 3, 1⟩
def TT_EVENTS.step_far : Fld := ⟨TT_EVENTS, 4, 1⟩
def TT_EVENTS.grandmaster : Fld := ⟨TT_EVENTS, 5, 1⟩
def TT_EVENTS.degraded_change : Fld := ⟨TT_EVENTS, 6, 1⟩
def TT_EVENTS.snap_done : Fld := ⟨TT_EVENTS, 7, 1⟩
def TT_EVENT_EN : Nat := 0x30014
def TT_EVENT_EN.en : Fld := ⟨TT_EVENT_EN, 0, 8⟩
def TT_CTRL : Nat := 0x30018
def TT_CTRL.step_threshold_us : Fld := ⟨TT_CTRL, 0, 8⟩
def TT_CTRL.lock_ns : Fld := ⟨TT_CTRL, 8, 10⟩
def TT_CTRL.slew_max : Fld := ⟨TT_CTRL, 18, 10⟩
def TT_CTRL.ha_state : Fld := ⟨TT_CTRL, 28, 3⟩
def TT_CTRL.lock : Fld := ⟨TT_CTRL, 31, 1⟩
def TT_PERIOD : Nat := 0x3001C
def TT_PERIOD.period : Fld := ⟨TT_PERIOD, 0, 32⟩
def TT_PERIOD_FINE : Nat := 0x30020
def TT_PERIOD_FINE.fine : Fld := ⟨TT_PERIOD_FINE, 0, 32⟩
def TT_SLEW_AMOUNT : Nat := 0x30024
def TT_SLEW_AMOUNT.amount : Fld := ⟨TT_SLEW_AMOUNT, 0, 32⟩
def TT_SLEW_RATE : Nat := 0x30028
def TT_SLEW_RATE.rate : Fld := ⟨TT_SLEW_RATE, 0, 10⟩
def TT_SLEW_LEFT : Nat := 0x3002C
def TT_SLEW_LEFT.left : Fld := ⟨TT_SLEW_LEFT, 0, 32⟩
def TT_STEP_LO : Nat := 0x30030
def TT_STEP_HI : Nat := 0x30034
def TT_STEP_STATUS : Nat := 0x30038
def TT_STEP_STATUS.result : Fld := ⟨TT_STEP_STATUS, 0, 2⟩
def TT_OFFSET : Nat := 0x3003C
def TT_OFFSET.offset : Fld := ⟨TT_OFFSET, 0, 32⟩
def TT_RATE : Nat := 0x30040
def TT_RATE.rate : Fld := ⟨TT_RATE, 0, 32⟩
def TT_SYNC : Nat := 0x30044
def TT_SYNC.sequence_id : Fld := ⟨TT_SYNC, 0, 16⟩
def TT_SYNC.port : Fld := ⟨TT_SYNC, 16, 4⟩
def TT_SYNC.count : Fld := ⟨TT_SYNC, 20, 12⟩
def TT_SNAP_CTRL (n : Nat) : Nat := 0x30100 + 0x10 * n
def TT_SNAP_CTRL.src_b (n : Nat) : Fld := ⟨TT_SNAP_CTRL n, 0, 8⟩
def TT_SNAP_CTRL.src_a (n : Nat) : Fld := ⟨TT_SNAP_CTRL n, 8, 8⟩
def TT_SNAP_CTRL.go (n : Nat) : Fld := ⟨TT_SNAP_CTRL n, 16, 1⟩
def TT_SNAP_CTRL.done (n : Nat) : Fld := ⟨TT_SNAP_CTRL n, 17, 1⟩
def TT_SNAP_A_LO (n : Nat) : Nat := 0x30104 + 0x10 * n
def TT_SNAP_A_HI (n : Nat) : Nat := 0x30108 + 0x10 * n
def TT_SNAP_B (n : Nat) : Nat := 0x3010C + 0x10 * n
def TT_PORT_ASYM (p : Nat) : Nat := 0x30200 + 0x8 * p
def TT_PORT_ASYM.asym (p : Nat) : Fld := ⟨TT_PORT_ASYM p, 0, 32⟩
def TT_PORT_DELAY (p : Nat) : Nat := 0x30204 + 0x8 * p
def TT_PORT_DELAY.delay (p : Nat) : Fld := ⟨TT_PORT_DELAY p, 0, 32⟩

/-! ### TILE -/

def EXC_STATUS (t : Nat) : Nat := tileBlk t + 0x0
def EXC_STATUS.emerg_vital (t : Nat) : Fld := ⟨EXC_STATUS t, 0, 1⟩
def EXC_STATUS.emerg_common (t : Nat) : Fld := ⟨EXC_STATUS t, 1, 1⟩
def EXC_STATUS.gate_depth (t : Nat) : Fld := ⟨EXC_STATUS t, 2, 3⟩
def EXC_STATUS.hold_active (t : Nat) : Fld := ⟨EXC_STATUS t, 5, 1⟩
def EXC_STATUS.sync_depth (t : Nat) : Fld := ⟨EXC_STATUS t, 8, 8⟩
def EXC_STATUS.active (t : Nat) : Fld := ⟨EXC_STATUS t, 16, 16⟩
def EXC_EVENTS (t : Nat) : Nat := tileBlk t + 0x4
def EXC_EVENTS.hold_overrun (t : Nat) : Fld := ⟨EXC_EVENTS t, 0, 1⟩
def EXC_EVENTS.stack_fault (t : Nat) : Fld := ⟨EXC_EVENTS t, 1, 1⟩
def EXC_EVENTS.post_err (t : Nat) : Fld := ⟨EXC_EVENTS t, 2, 1⟩
def EXC_EVENTS.gate_fault (t : Nat) : Fld := ⟨EXC_EVENTS t, 3, 1⟩
def EXC_EVENTS.foreign_write (t : Nat) : Fld := ⟨EXC_EVENTS t, 4, 1⟩
def EXC_EVENT_EN (t : Nat) : Nat := tileBlk t + 0x8
def EXC_EVENT_EN.en (t : Nat) : Fld := ⟨EXC_EVENT_EN t, 0, 5⟩
def EXC_CTRL (t : Nat) : Nat := tileBlk t + 0xC
def EXC_CTRL.evc_lock (t : Nat) : Fld := ⟨EXC_CTRL t, 0, 1⟩
def EXC_CTRL.clear_emerg (t : Nat) : Fld := ⟨EXC_CTRL t, 8, 1⟩
def EXC_OVERRUN (t : Nat) : Nat := tileBlk t + 0x10
def EXC_OVERRUN.count (t : Nat) : Fld := ⟨EXC_OVERRUN t, 0, 16⟩
def EXC_OVERRUN.vector (t : Nat) : Fld := ⟨EXC_OVERRUN t, 16, 10⟩
def EXC_POST_ADDR (t : Nat) : Nat := tileBlk t + 0x14
def EXC_LOCKUP (t : Nat) : Nat := tileBlk t + 0x18
def EXC_LOCKUP.cause (t : Nat) : Fld := ⟨EXC_LOCKUP t, 0, 4⟩
def EXC_LOCKUP.count (t : Nat) : Fld := ⟨EXC_LOCKUP t, 8, 8⟩
def EXC_LOCKUP.vector (t : Nat) : Fld := ⟨EXC_LOCKUP t, 16, 10⟩
def EXC_LOCKUP_PC (t : Nat) : Nat := tileBlk t + 0x1C
def EXC_WIN (t w i : Nat) : Nat := tileBlk t + 0x100 + 0x40 * w + 0x4 * i
def TMEM_STATUS (t : Nat) : Nat := tileBlk t + 0x400
def TMEM_STATUS.itcm_corr (t : Nat) : Fld := ⟨TMEM_STATUS t, 0, 8⟩
def TMEM_STATUS.dtcm_corr (t : Nat) : Fld := ⟨TMEM_STATUS t, 8, 8⟩
def TMEM_STATUS.icache_parity (t : Nat) : Fld := ⟨TMEM_STATUS t, 16, 8⟩
def TMEM_STATUS.uncorr (t : Nat) : Fld := ⟨TMEM_STATUS t, 24, 8⟩
def TMEM_ERR_ADDR (t : Nat) : Nat := tileBlk t + 0x404
def TMEM_ERR_ADDR.address (t : Nat) : Fld := ⟨TMEM_ERR_ADDR t, 0, 18⟩
def TMEM_ERR_ADDR.itcm (t : Nat) : Fld := ⟨TMEM_ERR_ADDR t, 31, 1⟩
def ICACHE_HITS (t : Nat) : Nat := tileBlk t + 0x408
def ICACHE_MISSES (t : Nat) : Nat := tileBlk t + 0x40C
def TMEM_CTRL (t : Nat) : Nat := tileBlk t + 0x410
def TMEM_CTRL.clear (t : Nat) : Fld := ⟨TMEM_CTRL t, 0, 1⟩
def TMEM_CTRL.icache_off (t : Nat) : Fld := ⟨TMEM_CTRL t, 1, 1⟩
def EVC_PEND (t n : Nat) : Nat := tileBlk t + 0x1000 + 0x4 * n
def EVC_SW (t : Nat) : Nat := tileBlk t + 0x1080
def EVC_SW.sw (t : Nat) : Fld := ⟨EVC_SW t, 0, 16⟩
def EVC_TOP (t : Nat) : Nat := tileBlk t + 0x1088
def EVC_TOP.event (t : Nat) : Fld := ⟨EVC_TOP t, 0, 10⟩
def EVC_TOP.priority (t : Nat) : Fld := ⟨EVC_TOP t, 16, 4⟩
def EVC_TOP.valid (t : Nat) : Fld := ⟨EVC_TOP t, 31, 1⟩
def EVC_CFG (t e : Nat) : Nat := tileBlk t + 0x1800 + 0x4 * e
def EVC_CFG.enable (t e : Nat) : Fld := ⟨EVC_CFG t e, 0, 1⟩
def EVC_CFG.priority (t e : Nat) : Fld := ⟨EVC_CFG t e, 4, 4⟩
def EVC_CFG.world (t e : Nat) : Fld := ⟨EVC_CFG t e, 8, 1⟩
def EVC_SW_SET (t : Nat) : Nat := tileBlk t + 0x2000
def EVC_SW_SET.set_ (t : Nat) : Fld := ⟨EVC_SW_SET t, 0, 16⟩
def OMT_TX_HDR (t w : Nat) : Nat := tileBlk t + 0x4000 + 0x1000 * w
def OMT_TX_GO (t w : Nat) : Nat := tileBlk t + 0x4004 + 0x1000 * w
def OMT_TX_STATUS (t w : Nat) : Nat := tileBlk t + 0x4008 + 0x1000 * w
def OMT_TX_STATUS.busy (t w : Nat) : Fld := ⟨OMT_TX_STATUS t w, 0, 1⟩
def OMT_TX_STATUS.result (t w : Nat) : Fld := ⟨OMT_TX_STATUS t w, 1, 2⟩
def OMT_TX_STATUS.msg_id (t w : Nat) : Fld := ⟨OMT_TX_STATUS t w, 16, 16⟩
def OMT_NACK (t w : Nat) : Nat := tileBlk t + 0x400C + 0x1000 * w
def OMT_NACK.msg_id (t w : Nat) : Fld := ⟨OMT_NACK t w, 0, 16⟩
def OMT_NACK.cause (t w : Nat) : Fld := ⟨OMT_NACK t w, 16, 3⟩
def OMT_NACK.shelf_index (t w : Nat) : Fld := ⟨OMT_NACK t w, 19, 7⟩
def OMT_NACK.count (t w : Nat) : Fld := ⟨OMT_NACK t w, 26, 4⟩
def OMT_NACK.lost (t w : Nat) : Fld := ⟨OMT_NACK t w, 30, 1⟩
def OMT_NACK.valid (t w : Nat) : Fld := ⟨OMT_NACK t w, 31, 1⟩
def OMT_NACK_POP (t w : Nat) : Nat := tileBlk t + 0x4010 + 0x1000 * w
def OMT_TX_DATA (t w i : Nat) : Nat := tileBlk t + 0x4040 + 0x1000 * w + 0x4 * i
def OMT_RX_HDR0 (t w q : Nat) : Nat := tileBlk t + 0x4100 + 0x1000 * w + 0x80 * q
def OMT_RX_HDR1 (t w q : Nat) : Nat := tileBlk t + 0x4104 + 0x1000 * w + 0x80 * q
def OMT_RX_HDR2 (t w q : Nat) : Nat := tileBlk t + 0x4108 + 0x1000 * w + 0x80 * q
def OMT_RX_HDR3 (t w q : Nat) : Nat := tileBlk t + 0x410C + 0x1000 * w + 0x80 * q
def OMT_RX_STAT (t w q : Nat) : Nat := tileBlk t + 0x4110 + 0x1000 * w + 0x80 * q
def OMT_RX_STAT.count (t w q : Nat) : Fld := ⟨OMT_RX_STAT t w q, 0, 4⟩
def OMT_RX_POP (t w q : Nat) : Nat := tileBlk t + 0x4114 + 0x1000 * w + 0x80 * q
def OMT_RX_DATA (t w q i : Nat) : Nat := tileBlk t + 0x4140 + 0x1000 * w + 0x80 * q + 0x4 * i
def OMT_EVENTS (t : Nat) : Nat := tileBlk t + 0x6000
def OMT_EVENTS.rx_vital (t : Nat) : Fld := ⟨OMT_EVENTS t, 0, 4⟩
def OMT_EVENTS.rx_common (t : Nat) : Fld := ⟨OMT_EVENTS t, 4, 4⟩
def OMT_EVENTS.nack_vital (t : Nat) : Fld := ⟨OMT_EVENTS t, 8, 1⟩
def OMT_EVENTS.nack_common (t : Nat) : Fld := ⟨OMT_EVENTS t, 9, 1⟩
def OMT_EVENTS.ckpt_due (t : Nat) : Fld := ⟨OMT_EVENTS t, 10, 1⟩
def OMT_EVENTS.join (t : Nat) : Fld := ⟨OMT_EVENTS t, 11, 1⟩
def OMT_EVENTS.tx_done_vital (t : Nat) : Fld := ⟨OMT_EVENTS t, 12, 1⟩
def OMT_EVENTS.tx_done_common (t : Nat) : Fld := ⟨OMT_EVENTS t, 13, 1⟩
def OMT_EVENT_EN (t : Nat) : Nat := tileBlk t + 0x6004
def OMT_EVENT_EN.en (t : Nat) : Fld := ⟨OMT_EVENT_EN t, 0, 14⟩
def TDMA_STATUS (t : Nat) : Nat := tileBlk t + 0x8000
def TDMA_STATUS.busy (t : Nat) : Fld := ⟨TDMA_STATUS t, 0, 4⟩
def TDMA_EVENTS (t : Nat) : Nat := tileBlk t + 0x8004
def TDMA_EVENTS.flags (t : Nat) : Fld := ⟨TDMA_EVENTS t, 0, 16⟩
def TDMA_EVENT_EN (t : Nat) : Nat := tileBlk t + 0x8008
def TDMA_EVENT_EN.en (t : Nat) : Fld := ⟨TDMA_EVENT_EN t, 0, 16⟩

/-! ### CDMA -/

def CDMA_STATUS (c : Nat) : Nat := cluBlk c + 0x10000 + 0x0
def CDMA_STATUS.busy (c : Nat) : Fld := ⟨CDMA_STATUS c, 0, 8⟩
def CDMA_STATUS.stopped (c : Nat) : Fld := ⟨CDMA_STATUS c, 8, 1⟩
def CDMA_STATUS.ch7_claimed (c : Nat) : Fld := ⟨CDMA_STATUS c, 9, 1⟩
def CDMA_STATUS.errors (c : Nat) : Fld := ⟨CDMA_STATUS c, 24, 8⟩
def CDMA_EVENTS (c : Nat) : Nat := cluBlk c + 0x10000 + 0x4
def CDMA_EVENTS.done (c : Nat) : Fld := ⟨CDMA_EVENTS c, 0, 8⟩
def CDMA_EVENTS.entry (c : Nat) : Fld := ⟨CDMA_EVENTS c, 8, 8⟩
def CDMA_EVENTS.crc_mismatch (c : Nat) : Fld := ⟨CDMA_EVENTS c, 16, 8⟩
def CDMA_EVENTS.engine_stop (c : Nat) : Fld := ⟨CDMA_EVENTS c, 24, 1⟩
def CDMA_EVENTS.claimed (c : Nat) : Fld := ⟨CDMA_EVENTS c, 25, 1⟩
def CDMA_EVENTS.released (c : Nat) : Fld := ⟨CDMA_EVENTS c, 26, 1⟩
def CDMA_EVENT_EN (c : Nat) : Nat := cluBlk c + 0x10000 + 0x8
def CDMA_EVENT_EN.en (c : Nat) : Fld := ⟨CDMA_EVENT_EN c, 0, 27⟩
def CDMA_CMD (c : Nat) : Nat := cluBlk c + 0x10000 + 0xC
def CDMA_CMD.restart (c : Nat) : Fld := ⟨CDMA_CMD c, 0, 1⟩
def CDMA_ERR_ADDR (c : Nat) : Nat := cluBlk c + 0x10000 + 0x10

/-! ### CH -/

def CH_CTRL (h : Nat) : Nat := h + 0x0
def CH_CTRL.src_mode (h : Nat) : Fld := ⟨CH_CTRL h, 0, 2⟩
def CH_CTRL.src_fixed (h : Nat) : Fld := ⟨CH_CTRL h, 2, 1⟩
def CH_CTRL.src_io (h : Nat) : Fld := ⟨CH_CTRL h, 3, 1⟩
def CH_CTRL.dst_mode (h : Nat) : Fld := ⟨CH_CTRL h, 4, 2⟩
def CH_CTRL.dst_fixed (h : Nat) : Fld := ⟨CH_CTRL h, 6, 1⟩
def CH_CTRL.dst_io (h : Nat) : Fld := ⟨CH_CTRL h, 7, 1⟩
def CH_CTRL.width (h : Nat) : Fld := ⟨CH_CTRL h, 8, 2⟩
def CH_CTRL.start (h : Nat) : Fld := ⟨CH_CTRL h, 10, 2⟩
def CH_CTRL.crc_op (h : Nat) : Fld := ⟨CH_CTRL h, 12, 2⟩
def CH_CTRL.crc_poly (h : Nat) : Fld := ⟨CH_CTRL h, 14, 2⟩
def CH_CTRL.crc_continue (h : Nat) : Fld := ⟨CH_CTRL h, 16, 1⟩
def CH_CTRL.policy (h : Nat) : Fld := ⟨CH_CTRL h, 17, 1⟩
def CH_CTRL.world (h : Nat) : Fld := ⟨CH_CTRL h, 18, 1⟩
def CH_CMD (h : Nat) : Nat := h + 0x4
def CH_CMD.op (h : Nat) : Fld := ⟨CH_CMD h, 0, 3⟩
def CH_STATUS (h : Nat) : Nat := h + 0x8
def CH_STATUS.state (h : Nat) : Fld := ⟨CH_STATUS h, 0, 3⟩
def CH_STATUS.pace_latch (h : Nat) : Fld := ⟨CH_STATUS h, 3, 1⟩
def CH_STATUS.end_ (h : Nat) : Fld := ⟨CH_STATUS h, 4, 4⟩
def CH_STATUS.cmd_result (h : Nat) : Fld := ⟨CH_STATUS h, 8, 3⟩
def CH_STATUS.crc_held (h : Nat) : Fld := ⟨CH_STATUS h, 11, 1⟩
def CH_STATUS.claimed (h : Nat) : Fld := ⟨CH_STATUS h, 12, 1⟩
def CH_SRC (h : Nat) : Nat := h + 0xC
def CH_DST (h : Nat) : Nat := h + 0x10
def CH_LEN (h : Nat) : Nat := h + 0x14
def CH_LEN.len (h : Nat) : Fld := ⟨CH_LEN h, 0, 24⟩
def CH_PACE (h : Nat) : Nat := h + 0x18
def CH_PACE.source (h : Nat) : Fld := ⟨CH_PACE h, 0, 8⟩
def CH_PACE.sense (h : Nat) : Fld := ⟨CH_PACE h, 8, 1⟩
def CH_PACE.high (h : Nat) : Fld := ⟨CH_PACE h, 16, 8⟩
def CH_PACE.low (h : Nat) : Fld := ⟨CH_PACE h, 24, 8⟩
def CH_LEVEL (h : Nat) : Nat := h + 0x1C
def CH_LEVEL.level (h : Nat) : Fld := ⟨CH_LEVEL h, 0, 16⟩
def CH_START_TT_LO (h : Nat) : Nat := h + 0x20
def CH_START_TT_HI (h : Nat) : Nat := h + 0x24
def CH_DONE_BYTES (h : Nat) : Nat := h + 0x28
def CH_CRC (h : Nat) : Nat := h + 0x2C
def CH_CRC_REF (h : Nat) : Nat := h + 0x30
def CH_ERR_ADDR (h : Nat) : Nat := h + 0x34
def CH_ERR_INFO (h : Nat) : Nat := h + 0x38
def CH_ERR_INFO.write (h : Nat) : Fld := ⟨CH_ERR_INFO h, 0, 1⟩
def CH_ERR_INFO.list (h : Nat) : Fld := ⟨CH_ERR_INFO h, 1, 1⟩
def CH_ERR_INFO.cause (h : Nat) : Fld := ⟨CH_ERR_INFO h, 2, 4⟩
def CH_POS (h : Nat) : Nat := h + 0x3C
def CH_DONE_ENTRIES (h : Nat) : Nat := h + 0x40

/-! ### ROLE -/

def OMT_ROLE (r : Nat) : Nat := 0xB0000 + 0x4 * r
def OMT_ROLE.gen (r : Nat) : Fld := ⟨OMT_ROLE r, 0, 8⟩
def OMT_ROLE.kind (r : Nat) : Fld := ⟨OMT_ROLE r, 8, 1⟩
def OMT_ROLE.target (r : Nat) : Fld := ⟨OMT_ROLE r, 9, 5⟩
def OMT_ROLE.world (r : Nat) : Fld := ⟨OMT_ROLE r, 14, 1⟩
def OMT_ROLE.queue (r : Nat) : Fld := ⟨OMT_ROLE r, 15, 2⟩
def OMT_ROLE.withdrawn (r : Nat) : Fld := ⟨OMT_ROLE r, 17, 1⟩

/-! ### VOTE -/

def VOTE_STATUS (c : Nat) : Nat := cluBlk c + 0x48000 + 0x0
def VOTE_STATUS.lead (c : Nat) : Fld := ⟨VOTE_STATUS c, 0, 12⟩
def VOTE_STATUS.member (c : Nat) : Fld := ⟨VOTE_STATUS c, 16, 12⟩
def VOTE_EVENTS (c : Nat) : Nat := cluBlk c + 0x48000 + 0x4
def VOTE_EVENTS.disagree (c : Nat) : Fld := ⟨VOTE_EVENTS c, 0, 1⟩
def VOTE_EVENTS.safe_entered (c : Nat) : Fld := ⟨VOTE_EVENTS c, 1, 1⟩
def VOTE_EVENTS.released (c : Nat) : Fld := ⟨VOTE_EVENTS c, 2, 1⟩
def VOTE_EVENTS.release_refused (c : Nat) : Fld := ⟨VOTE_EVENTS c, 3, 1⟩
def VOTE_EVENTS.suspect (c : Nat) : Fld := ⟨VOTE_EVENTS c, 4, 1⟩
def VOTE_EVENTS.takeover_start (c : Nat) : Fld := ⟨VOTE_EVENTS c, 5, 1⟩
def VOTE_EVENTS.takeover_done (c : Nat) : Fld := ⟨VOTE_EVENTS c, 6, 1⟩
def VOTE_EVENTS.takeover_failed (c : Nat) : Fld := ⟨VOTE_EVENTS c, 7, 1⟩
def VOTE_EVENTS.cfg_mismatch (c : Nat) : Fld := ⟨VOTE_EVENTS c, 8, 1⟩
def VOTE_EVENTS.gate_diverge (c : Nat) : Fld := ⟨VOTE_EVENTS c, 9, 1⟩
def VOTE_EVENTS.port_overrun (c : Nat) : Fld := ⟨VOTE_EVENTS c, 10, 1⟩
def VOTE_EVENTS.foreign_write (c : Nat) : Fld := ⟨VOTE_EVENTS c, 11, 1⟩
def VOTE_EVENTS.ha_verdict (c : Nat) : Fld := ⟨VOTE_EVENTS c, 12, 1⟩
def VOTE_EVENTS.frame_drop (c : Nat) : Fld := ⟨VOTE_EVENTS c, 13, 1⟩
def VOTE_EVENTS.bad_control (c : Nat) : Fld := ⟨VOTE_EVENTS c, 14, 1⟩
def VOTE_EVENTS.shelf_stored (c : Nat) : Fld := ⟨VOTE_EVENTS c, 15, 1⟩
def VOTE_EVENTS.shelf_overflow (c : Nat) : Fld := ⟨VOTE_EVENTS c, 16, 1⟩
def VOTE_EVENTS.shelf_resent (c : Nat) : Fld := ⟨VOTE_EVENTS c, 17, 1⟩
def VOTE_EVENT_EN (c : Nat) : Nat := cluBlk c + 0x48000 + 0x8
def VOTE_EVENT_EN.en (c : Nat) : Fld := ⟨VOTE_EVENT_EN c, 0, 18⟩
def VOTE_COUNTS (c : Nat) : Nat := cluBlk c + 0x48000 + 0xC
def VOTE_COUNTS.disagreements (c : Nat) : Fld := ⟨VOTE_COUNTS c, 0, 16⟩
def VOTE_COUNTS.takeovers (c : Nat) : Fld := ⟨VOTE_COUNTS c, 16, 8⟩
def VOTE_COUNTS.divergences (c : Nat) : Fld := ⟨VOTE_COUNTS c, 24, 8⟩
def VOTE_LAST_ID (c : Nat) : Nat := cluBlk c + 0x48000 + 0x10
def VOTE_LAST_ID.group (c : Nat) : Fld := ⟨VOTE_LAST_ID c, 0, 4⟩
def VOTE_LAST_ID.port (c : Nat) : Fld := ⟨VOTE_LAST_ID c, 4, 5⟩
def VOTE_LAST_ID.cause (c : Nat) : Fld := ⟨VOTE_LAST_ID c, 9, 3⟩
def VOTE_LAST_ID.present (c : Nat) : Fld := ⟨VOTE_LAST_ID c, 12, 3⟩
def VOTE_LAST_ID.tag (c : Nat) : Fld := ⟨VOTE_LAST_ID c, 16, 16⟩
def VOTE_LAST_V (c k : Nat) : Nat := cluBlk c + 0x48000 + 0x14 + 0x4 * k
def VOTE_LAST_TT (c : Nat) : Nat := cluBlk c + 0x48000 + 0x20
def VOTE_GRP_STATUS (c g : Nat) : Nat := cluBlk c + 0x48000 + 0x100 + 0x20 * g
def VOTE_GRP_STATUS.live (c g : Nat) : Fld := ⟨VOTE_GRP_STATUS c g, 0, 1⟩
def VOTE_GRP_STATUS.current (c g : Nat) : Fld := ⟨VOTE_GRP_STATUS c g, 1, 3⟩
def VOTE_GRP_STATUS.suspect (c g : Nat) : Fld := ⟨VOTE_GRP_STATUS c g, 4, 3⟩
def VOTE_GRP_STATUS.phase (c g : Nat) : Fld := ⟨VOTE_GRP_STATUS c g, 8, 2⟩
def VOTE_GRP_STATUS.join_slot (c g : Nat) : Fld := ⟨VOTE_GRP_STATUS c g, 10, 2⟩
def VOTE_GRP_STATUS.safe_cause (c g : Nat) : Fld := ⟨VOTE_GRP_STATUS c g, 12, 4⟩
def VOTE_GRP_STATUS.takeover_cause (c g : Nat) : Fld := ⟨VOTE_GRP_STATUS c g, 16, 4⟩
def VOTE_GRP_STATUS.locked (c g : Nat) : Fld := ⟨VOTE_GRP_STATUS c g, 20, 1⟩
def VOTE_GRP_MEMBERS (c g : Nat) : Nat := cluBlk c + 0x48000 + 0x104 + 0x20 * g
def VOTE_GRP_MEMBERS.slot_tile (c g : Nat) : Fld := ⟨VOTE_GRP_MEMBERS c g, 0, 24⟩
def VOTE_GRP_MEMBERS.spare (c g : Nat) : Fld := ⟨VOTE_GRP_MEMBERS c g, 24, 8⟩
def VOTE_GRP_CFG (c g : Nat) : Nat := cluBlk c + 0x48000 + 0x108 + 0x20 * g
def VOTE_GRP_CFG.kind (c g : Nat) : Fld := ⟨VOTE_GRP_CFG c g, 0, 2⟩
def VOTE_GRP_CFG.lull_policy (c g : Nat) : Fld := ⟨VOTE_GRP_CFG c g, 2, 1⟩
def VOTE_GRP_CFG.checksum (c g : Nat) : Fld := ⟨VOTE_GRP_CFG c g, 3, 1⟩
def VOTE_GRP_CFG.pool (c g : Nat) : Fld := ⟨VOTE_GRP_CFG c g, 4, 8⟩
def VOTE_GRP_STAGGER (c g : Nat) : Nat := cluBlk c + 0x48000 + 0x10C + 0x20 * g
def VOTE_GRP_SKEW (c g : Nat) : Nat := cluBlk c + 0x48000 + 0x110 + 0x20 * g
def VOTE_GRP_CKPT (c g : Nat) : Nat := cluBlk c + 0x48000 + 0x114 + 0x20 * g
def VOTE_GRP_CKPT.number (c g : Nat) : Fld := ⟨VOTE_GRP_CKPT c g, 0, 16⟩
def VOTE_VERDICT (c g : Nat) : Nat := cluBlk c + 0x48000 + 0x118 + 0x20 * g
def VOTE_VERDICT.action (c g : Nat) : Fld := ⟨VOTE_VERDICT c g, 0, 2⟩
def VOTE_VERDICT.r (c g : Nat) : Fld := ⟨VOTE_VERDICT c g, 2, 2⟩
def VOTE_VERDICT.s (c g : Nat) : Fld := ⟨VOTE_VERDICT c g, 4, 2⟩
def VOTE_VERDICT.port (c g : Nat) : Fld := ⟨VOTE_VERDICT c g, 6, 5⟩
def VOTE_VERDICT.tag (c g : Nat) : Fld := ⟨VOTE_VERDICT c g, 16, 16⟩
def VOTE_TAKEOVER (c g : Nat) : Nat := cluBlk c + 0x48000 + 0x11C + 0x20 * g
def VOTE_TAKEOVER.spare (c g : Nat) : Fld := ⟨VOTE_TAKEOVER c g, 0, 8⟩
def VOTE_TAKEOVER.slot (c g : Nat) : Fld := ⟨VOTE_TAKEOVER c g, 8, 2⟩
def VOTE_PORT_DATA (c g p : Nat) : Nat := cluBlk c + 0x48000 + 0x1000 + 0x200 * g + 0x10 * p
def VOTE_PORT_CFG (c g p : Nat) : Nat := cluBlk c + 0x48000 + 0x1004 + 0x200 * g + 0x10 * p
def VOTE_PORT_CFG.kind (c g p : Nat) : Fld := ⟨VOTE_PORT_CFG c g p, 0, 3⟩
def VOTE_PORT_CFG.index (c g p : Nat) : Fld := ⟨VOTE_PORT_CFG c g p, 3, 8⟩
def VOTE_PORT_AUX (c g p : Nat) : Nat := cluBlk c + 0x48000 + 0x1008 + 0x200 * g + 0x10 * p
def VOTE_PORT_SEQ (c g p : Nat) : Nat := cluBlk c + 0x48000 + 0x100C + 0x200 * g + 0x10 * p
def VOTE_PORT_SEQ.next (c g p : Nat) : Fld := ⟨VOTE_PORT_SEQ c g p, 0, 16⟩
def VOTE_PORT_SEQ.released (c g p : Nat) : Fld := ⟨VOTE_PORT_SEQ c g p, 16, 16⟩

/-! ### SHELF -/

def SHELF_STATUS (c : Nat) : Nat := cluBlk c + 0x4C000 + 0x0
def SHELF_STATUS.used (c : Nat) : Fld := ⟨SHELF_STATUS c, 0, 7⟩
def SHELF_STATUS.overflow (c : Nat) : Fld := ⟨SHELF_STATUS c, 16, 16⟩
def SHELF_CMD (c : Nat) : Nat := cluBlk c + 0x4C000 + 0x4
def SHELF_CMD.index (c : Nat) : Fld := ⟨SHELF_CMD c, 0, 6⟩
def SHELF_CMD.op (c : Nat) : Fld := ⟨SHELF_CMD c, 6, 2⟩
def SHELF_CMD.gen (c : Nat) : Fld := ⟨SHELF_CMD c, 8, 8⟩
def SHELF_CMD_RESULT (c : Nat) : Nat := cluBlk c + 0x4C000 + 0x8
def SHELF_CMD_RESULT.result (c : Nat) : Fld := ⟨SHELF_CMD_RESULT c, 0, 2⟩
def SHELF_META (c i : Nat) : Nat := cluBlk c + 0x4C000 + 0x400 + 0x80 * i
def SHELF_META.cause (c i : Nat) : Fld := ⟨SHELF_META c i, 0, 3⟩
def SHELF_META.src_tile (c i : Nat) : Fld := ⟨SHELF_META c i, 3, 5⟩
def SHELF_META.src_world (c i : Nat) : Fld := ⟨SHELF_META c i, 8, 1⟩
def SHELF_META.valid (c i : Nat) : Fld := ⟨SHELF_META c i, 31, 1⟩
def SHELF_TT (c i : Nat) : Nat := cluBlk c + 0x4C000 + 0x404 + 0x80 * i
def SHELF_HDR (c i w : Nat) : Nat := cluBlk c + 0x4C000 + 0x410 + 0x80 * i + 0x4 * w
def SHELF_DATA (c i j : Nat) : Nat := cluBlk c + 0x4C000 + 0x440 + 0x80 * i + 0x4 * j

/-! ### MEM -/

def MEM_STATUS : Nat := 0x40000
def MEM_STATUS.deep_hold : Fld := ⟨MEM_STATUS, 0, 1⟩
def MEM_STATUS.wbuf_busy : Fld := ⟨MEM_STATUS, 1, 1⟩
def MEM_STATUS.wbuf_lines : Fld := ⟨MEM_STATUS, 8, 5⟩
def MEM_EVENTS : Nat := 0x40004
def MEM_EVENTS.ecc_corr : Fld := ⟨MEM_EVENTS, 0, 1⟩
def MEM_EVENTS.ecc_uncorr : Fld := ⟨MEM_EVENTS, 1, 1⟩
def MEM_EVENTS.owner_violation : Fld := ⟨MEM_EVENTS, 2, 1⟩
def MEM_EVENTS.off_access : Fld := ⟨MEM_EVENTS, 3, 1⟩
def MEM_EVENTS.state_done : Fld := ⟨MEM_EVENTS, 4, 1⟩
def MEM_EVENTS.conf_sat : Fld := ⟨MEM_EVENTS, 5, 1⟩
def MEM_EVENTS.mram_corr : Fld := ⟨MEM_EVENTS, 6, 1⟩
def MEM_EVENTS.mram_uncorr : Fld := ⟨MEM_EVENTS, 7, 1⟩
def MEM_EVENTS.mram_refused : Fld := ⟨MEM_EVENTS, 8, 1⟩
def MEM_EVENTS.vault_wiped : Fld := ⟨MEM_EVENTS, 9, 1⟩
def MEM_EVENTS.deep_exit_done : Fld := ⟨MEM_EVENTS, 10, 1⟩
def MEM_EVENT_EN : Nat := 0x40008
def MEM_EVENT_EN.en : Fld := ⟨MEM_EVENT_EN, 0, 11⟩
def MEM_CTRL : Nat := 0x4000C
def MEM_CTRL.conf_freeze : Fld := ⟨MEM_CTRL, 0, 1⟩
def MEM_CTRL.lock : Fld := ⟨MEM_CTRL, 31, 1⟩
def MEM_ERR_ADDR : Nat := 0x40010
def MEM_ERR_INFO : Nat := 0x40014
def MEM_ERR_INFO.master : Fld := ⟨MEM_ERR_INFO, 0, 8⟩
def MEM_ERR_INFO.write : Fld := ⟨MEM_ERR_INFO, 8, 1⟩
def MEM_ERR_INFO.bank : Fld := ⟨MEM_ERR_INFO, 16, 8⟩
def MEM_ERR_INFO.count : Fld := ⟨MEM_ERR_INFO, 24, 8⟩
def MEM_VIOL_ADDR : Nat := 0x40018
def MEM_VIOL_INFO : Nat := 0x4001C
def MEM_VIOL_INFO.master : Fld := ⟨MEM_VIOL_INFO, 0, 8⟩
def MEM_VIOL_INFO.write : Fld := ⟨MEM_VIOL_INFO, 8, 1⟩
def MEM_VIOL_INFO.reason : Fld := ⟨MEM_VIOL_INFO, 9, 2⟩
def MEM_VIOL_INFO.bank : Fld := ⟨MEM_VIOL_INFO, 16, 8⟩
def MEM_VIOL_INFO.count : Fld := ⟨MEM_VIOL_INFO, 24, 8⟩
def BANK_CTRL (i : Nat) : Nat := 0x40100 + 0x10 * i
def BANK_CTRL.state_req (i : Nat) : Fld := ⟨BANK_CTRL i, 0, 2⟩
def BANK_CTRL.woa (i : Nat) : Fld := ⟨BANK_CTRL i, 2, 1⟩
def BANK_CTRL.conf_clear (i : Nat) : Fld := ⟨BANK_CTRL i, 3, 1⟩
def BANK_STAT (i : Nat) : Nat := 0x40104 + 0x10 * i
def BANK_STAT.state (i : Nat) : Fld := ⟨BANK_STAT i, 0, 3⟩
def BANK_STAT.clamped (i : Nat) : Fld := ⟨BANK_STAT i, 3, 1⟩
def BANK_STAT.req_result (i : Nat) : Fld := ⟨BANK_STAT i, 4, 2⟩
def BANK_STAT.ecc_corr (i : Nat) : Fld := ⟨BANK_STAT i, 8, 8⟩
def BANK_OWNER (i : Nat) : Nat := 0x40108 + 0x10 * i
def BANK_OWNER.owner_kind (i : Nat) : Fld := ⟨BANK_OWNER i, 0, 3⟩
def BANK_OWNER.owner_index (i : Nat) : Fld := ⟨BANK_OWNER i, 3, 5⟩
def BANK_OWNER.world (i : Nat) : Fld := ⟨BANK_OWNER i, 8, 2⟩
def BANK_OWNER.cellar (i : Nat) : Fld := ⟨BANK_OWNER i, 10, 1⟩
def MRAM_STATUS : Nat := 0x40600
def MRAM_STATUS.active_slot : Fld := ⟨MRAM_STATUS, 0, 1⟩
def MRAM_STATUS.code_locked : Fld := ⟨MRAM_STATUS, 1, 1⟩
def MRAM_STATUS.corr_count : Fld := ⟨MRAM_STATUS, 8, 8⟩
def MRAM_STATUS.uncorr_count : Fld := ⟨MRAM_STATUS, 16, 8⟩
def MRAM_STATUS.refused_count : Fld := ⟨MRAM_STATUS, 24, 8⟩
def MRAM_ERR_ADDR : Nat := 0x40604
def MRAM_ERR_ADDR.offset : Fld := ⟨MRAM_ERR_ADDR, 0, 26⟩
def VAULT_STATUS : Nat := 0x40700
def VAULT_STATUS.wiping : Fld := ⟨VAULT_STATUS, 0, 1⟩
def VAULT_STATUS.restored : Fld := ⟨VAULT_STATUS, 1, 1⟩
def VAULT_STATUS.last_cause : Fld := ⟨VAULT_STATUS, 8, 4⟩
def VAULT_STATUS.wipes : Fld := ⟨VAULT_STATUS, 16, 8⟩
def VAULT_CTRL : Nat := 0x40704
def VAULT_CTRL.wipe : Fld := ⟨VAULT_CTRL, 0, 1⟩
def BANK_CONF (i j : Nat) : Nat := 0x48000 + 0x200 * i + 0x4 * j
def BANK_CONF.count_even (i j : Nat) : Fld := ⟨BANK_CONF i j, 0, 16⟩
def BANK_CONF.count_odd (i j : Nat) : Fld := ⟨BANK_CONF i j, 16, 16⟩

/-! ### CMEM -/

def CMEM_EVENTS (c : Nat) : Nat := cluBlk c + 0x40000 + 0x4
def CMEM_EVENTS.ecc_corr (c : Nat) : Fld := ⟨CMEM_EVENTS c, 0, 1⟩
def CMEM_EVENTS.ecc_uncorr (c : Nat) : Fld := ⟨CMEM_EVENTS c, 1, 1⟩
def CMEM_EVENTS.owner_violation (c : Nat) : Fld := ⟨CMEM_EVENTS c, 2, 1⟩
def CMEM_EVENTS.off_access (c : Nat) : Fld := ⟨CMEM_EVENTS c, 3, 1⟩
def CMEM_EVENTS.state_done (c : Nat) : Fld := ⟨CMEM_EVENTS c, 4, 1⟩
def CMEM_EVENTS.conf_sat (c : Nat) : Fld := ⟨CMEM_EVENTS c, 5, 1⟩
def CMEM_EVENTS.tcm_corr (c : Nat) : Fld := ⟨CMEM_EVENTS c, 6, 1⟩
def CMEM_EVENTS.tcm_uncorr (c : Nat) : Fld := ⟨CMEM_EVENTS c, 7, 1⟩
def CMEM_EVENT_EN (c : Nat) : Nat := cluBlk c + 0x40000 + 0x8
def CMEM_EVENT_EN.en (c : Nat) : Fld := ⟨CMEM_EVENT_EN c, 0, 8⟩
def CMEM_CTRL (c : Nat) : Nat := cluBlk c + 0x40000 + 0xC
def CMEM_CTRL.conf_freeze (c : Nat) : Fld := ⟨CMEM_CTRL c, 0, 1⟩
def CMEM_CTRL.lock (c : Nat) : Fld := ⟨CMEM_CTRL c, 31, 1⟩
def CMEM_ERR_ADDR (c : Nat) : Nat := cluBlk c + 0x40000 + 0x10
def CMEM_ERR_INFO (c : Nat) : Nat := cluBlk c + 0x40000 + 0x14
def CMEM_ERR_INFO.master (c : Nat) : Fld := ⟨CMEM_ERR_INFO c, 0, 8⟩
def CMEM_ERR_INFO.write (c : Nat) : Fld := ⟨CMEM_ERR_INFO c, 8, 1⟩
def CMEM_ERR_INFO.bank (c : Nat) : Fld := ⟨CMEM_ERR_INFO c, 16, 8⟩
def CMEM_ERR_INFO.count (c : Nat) : Fld := ⟨CMEM_ERR_INFO c, 24, 8⟩
def CMEM_VIOL_ADDR (c : Nat) : Nat := cluBlk c + 0x40000 + 0x18
def CMEM_VIOL_INFO (c : Nat) : Nat := cluBlk c + 0x40000 + 0x1C
def CMEM_VIOL_INFO.master (c : Nat) : Fld := ⟨CMEM_VIOL_INFO c, 0, 8⟩
def CMEM_VIOL_INFO.write (c : Nat) : Fld := ⟨CMEM_VIOL_INFO c, 8, 1⟩
def CMEM_VIOL_INFO.reason (c : Nat) : Fld := ⟨CMEM_VIOL_INFO c, 9, 2⟩
def CMEM_VIOL_INFO.bank (c : Nat) : Fld := ⟨CMEM_VIOL_INFO c, 16, 8⟩
def CMEM_VIOL_INFO.count (c : Nat) : Fld := ⟨CMEM_VIOL_INFO c, 24, 8⟩
def CMEM_TCM_ERR (c : Nat) : Nat := cluBlk c + 0x40000 + 0x20
def CMEM_TCM_ERR.tile (c : Nat) : Fld := ⟨CMEM_TCM_ERR c, 0, 5⟩
def CBANK_CTRL (c b : Nat) : Nat := cluBlk c + 0x40000 + 0x100 + 0x10 * b
def CBANK_CTRL.state_req (c b : Nat) : Fld := ⟨CBANK_CTRL c b, 0, 2⟩
def CBANK_CTRL.woa (c b : Nat) : Fld := ⟨CBANK_CTRL c b, 2, 1⟩
def CBANK_CTRL.conf_clear (c b : Nat) : Fld := ⟨CBANK_CTRL c b, 3, 1⟩
def CBANK_STAT (c b : Nat) : Nat := cluBlk c + 0x40000 + 0x104 + 0x10 * b
def CBANK_STAT.state (c b : Nat) : Fld := ⟨CBANK_STAT c b, 0, 3⟩
def CBANK_STAT.clamped (c b : Nat) : Fld := ⟨CBANK_STAT c b, 3, 1⟩
def CBANK_STAT.req_result (c b : Nat) : Fld := ⟨CBANK_STAT c b, 4, 2⟩
def CBANK_STAT.ecc_corr (c b : Nat) : Fld := ⟨CBANK_STAT c b, 8, 8⟩
def CBANK_OWNER (c b : Nat) : Nat := cluBlk c + 0x40000 + 0x108 + 0x10 * b
def CBANK_OWNER.owner_kind (c b : Nat) : Fld := ⟨CBANK_OWNER c b, 0, 3⟩
def CBANK_OWNER.owner_index (c b : Nat) : Fld := ⟨CBANK_OWNER c b, 3, 5⟩
def CBANK_OWNER.world (c b : Nat) : Fld := ⟨CBANK_OWNER c b, 8, 2⟩
def CBANK_OWNER.cellar (c b : Nat) : Fld := ⟨CBANK_OWNER c b, 10, 1⟩
def CBANK_CONF (c b j : Nat) : Nat := cluBlk c + 0x40000 + 0x1000 + 0x200 * b + 0x4 * j
def CBANK_CONF.count_even (c b j : Nat) : Fld := ⟨CBANK_CONF c b j, 0, 16⟩
def CBANK_CONF.count_odd (c b j : Nat) : Fld := ⟨CBANK_CONF c b j, 16, 16⟩

/-! ### ADC -/

def ADC_PAIR_STATUS (c : Nat) : Nat := cluBlk c + 0x20000 + 0x0
def ADC_PAIR_STATUS.a_state (c : Nat) : Fld := ⟨ADC_PAIR_STATUS c, 0, 3⟩
def ADC_PAIR_STATUS.b_state (c : Nat) : Fld := ⟨ADC_PAIR_STATUS c, 4, 3⟩
def ADC_PAIR_STATUS.linked (c : Nat) : Fld := ⟨ADC_PAIR_STATUS c, 8, 1⟩
def ADC_PAIR_STATUS.ha (c : Nat) : Fld := ⟨ADC_PAIR_STATUS c, 9, 1⟩
def ADC_EVENTS (c : Nat) : Nat := cluBlk c + 0x20000 + 0x4
def ADC_EVENTS.a_done (c : Nat) : Fld := ⟨ADC_EVENTS c, 0, 1⟩
def ADC_EVENTS.b_done (c : Nat) : Fld := ⟨ADC_EVENTS c, 1, 1⟩
def ADC_EVENTS.a_entry (c : Nat) : Fld := ⟨ADC_EVENTS c, 2, 1⟩
def ADC_EVENTS.b_entry (c : Nat) : Fld := ⟨ADC_EVENTS c, 3, 1⟩
def ADC_EVENTS.plaus_fail (c : Nat) : Fld := ⟨ADC_EVENTS c, 4, 1⟩
def ADC_EVENTS.plaus_data (c : Nat) : Fld := ⟨ADC_EVENTS c, 5, 1⟩
def ADC_EVENTS.a_trig_lost (c : Nat) : Fld := ⟨ADC_EVENTS c, 6, 1⟩
def ADC_EVENTS.b_trig_lost (c : Nat) : Fld := ⟨ADC_EVENTS c, 7, 1⟩
def ADC_EVENTS.a_fifo_ovf (c : Nat) : Fld := ⟨ADC_EVENTS c, 8, 1⟩
def ADC_EVENTS.b_fifo_ovf (c : Nat) : Fld := ⟨ADC_EVENTS c, 9, 1⟩
def ADC_EVENTS.a_clock_abort (c : Nat) : Fld := ⟨ADC_EVENTS c, 10, 1⟩
def ADC_EVENTS.b_clock_abort (c : Nat) : Fld := ⟨ADC_EVENTS c, 11, 1⟩
def ADC_EVENTS.a_cfg_err (c : Nat) : Fld := ⟨ADC_EVENTS c, 12, 1⟩
def ADC_EVENTS.b_cfg_err (c : Nat) : Fld := ⟨ADC_EVENTS c, 13, 1⟩
def ADC_EVENTS.trig_refused (c : Nat) : Fld := ⟨ADC_EVENTS c, 14, 1⟩
def ADC_EVENTS.disabled (c : Nat) : Fld := ⟨ADC_EVENTS c, 15, 1⟩
def ADC_EVENT_EN (c : Nat) : Nat := cluBlk c + 0x20000 + 0x8
def ADC_EVENT_EN.en (c : Nat) : Fld := ⟨ADC_EVENT_EN c, 0, 16⟩
def ADC_PAIR_CTRL (c : Nat) : Nat := cluBlk c + 0x20000 + 0xC
def ADC_PAIR_CTRL.linked (c : Nat) : Fld := ⟨ADC_PAIR_CTRL c, 0, 1⟩
def ADC_PAIR_CTRL.lock (c : Nat) : Fld := ⟨ADC_PAIR_CTRL c, 31, 1⟩
def ADC_PLAUS_WIN (c : Nat) : Nat := cluBlk c + 0x20000 + 0x10
def ADC_PLAUS_WIN.window (c : Nat) : Fld := ⟨ADC_PLAUS_WIN c, 0, 12⟩
def ADC_PLAUS_LAST (c : Nat) : Nat := cluBlk c + 0x20000 + 0x14
def ADC_PLAUS_LAST.entry (c : Nat) : Fld := ⟨ADC_PLAUS_LAST c, 0, 4⟩
def ADC_PLAUS_LAST.run (c : Nat) : Fld := ⟨ADC_PLAUS_LAST c, 8, 8⟩
def ADC_PLAUS_LAST.fails (c : Nat) : Fld := ⟨ADC_PLAUS_LAST c, 16, 16⟩
def ADC_PLAUS_CODES (c : Nat) : Nat := cluBlk c + 0x20000 + 0x18
def ADC_PLAUS_CODES.code_a (c : Nat) : Fld := ⟨ADC_PLAUS_CODES c, 0, 12⟩
def ADC_PLAUS_CODES.code_b (c : Nat) : Fld := ⟨ADC_PLAUS_CODES c, 16, 12⟩
def ADC_CTRL (c x : Nat) : Nat := cluBlk c + 0x20000 + 0x100 + 0x100 * x
def ADC_CTRL.enable (c x : Nat) : Fld := ⟨ADC_CTRL c x, 0, 1⟩
def ADC_CTRL.policy (c x : Nat) : Fld := ⟨ADC_CTRL c x, 1, 1⟩
def ADC_CTRL.start (c x : Nat) : Fld := ⟨ADC_CTRL c x, 2, 2⟩
def ADC_CTRL.length (c x : Nat) : Fld := ⟨ADC_CTRL c x, 4, 4⟩
def ADC_CTRL.edge_kind (c x : Nat) : Fld := ⟨ADC_CTRL c x, 8, 1⟩
def ADC_CTRL.edge_ch (c x : Nat) : Fld := ⟨ADC_CTRL c x, 12, 4⟩
def ADC_CMD (c x : Nat) : Nat := cluBlk c + 0x20000 + 0x104 + 0x100 * x
def ADC_CMD.op (c x : Nat) : Fld := ⟨ADC_CMD c x, 0, 2⟩
def ADC_STAT (c x : Nat) : Nat := cluBlk c + 0x20000 + 0x108 + 0x100 * x
def ADC_STAT.state (c x : Nat) : Fld := ⟨ADC_STAT c x, 0, 3⟩
def ADC_STAT.entry (c x : Nat) : Fld := ⟨ADC_STAT c x, 4, 4⟩
def ADC_STAT.cmd_result (c x : Nat) : Fld := ⟨ADC_STAT c x, 8, 3⟩
def ADC_STAT.cfg_code (c x : Nat) : Fld := ⟨ADC_STAT c x, 11, 2⟩
def ADC_STAT.end_ (c x : Nat) : Fld := ⟨ADC_STAT c x, 13, 3⟩
def ADC_STAT.run (c x : Nat) : Fld := ⟨ADC_STAT c x, 16, 8⟩
def ADC_STAT.fifo_level (c x : Nat) : Fld := ⟨ADC_STAT c x, 24, 6⟩
def ADC_PERIOD (c x : Nat) : Nat := cluBlk c + 0x20000 + 0x10C + 0x100 * x
def ADC_START_TT_LO (c x : Nat) : Nat := cluBlk c + 0x20000 + 0x110 + 0x100 * x
def ADC_START_TT_HI (c x : Nat) : Nat := cluBlk c + 0x20000 + 0x114 + 0x100 * x
def ADC_RUN_TT (c x : Nat) : Nat := cluBlk c + 0x20000 + 0x118 + 0x100 * x
def ADC_FIFO (c x : Nat) : Nat := cluBlk c + 0x20000 + 0x11C + 0x100 * x
def ADC_COUNTS (c x : Nat) : Nat := cluBlk c + 0x20000 + 0x120 + 0x100 * x
def ADC_COUNTS.lost (c x : Nat) : Fld := ⟨ADC_COUNTS c x, 0, 16⟩
def ADC_COUNTS.fifo_ovf (c x : Nat) : Fld := ⟨ADC_COUNTS c x, 16, 16⟩
def ADC_SEQ (c x i : Nat) : Nat := cluBlk c + 0x20000 + 0x140 + 0x100 * x + 0x4 * i
def ADC_SEQ.input (c x i : Nat) : Fld := ⟨ADC_SEQ c x i, 0, 4⟩
def ADC_SEQ.stime (c x i : Nat) : Fld := ⟨ADC_SEQ c x i, 4, 3⟩
def ADC_SEQ.gain (c x i : Nat) : Fld := ⟨ADC_SEQ c x i, 7, 2⟩
def ADC_SEQ.fifo (c x i : Nat) : Fld := ⟨ADC_SEQ c x i, 9, 1⟩
def ADC_SEQ.paired (c x i : Nat) : Fld := ⟨ADC_SEQ c x i, 10, 1⟩
def ADC_SEQ.ev (c x i : Nat) : Fld := ⟨ADC_SEQ c x i, 11, 1⟩
def ADC_RES_LO (c x i : Nat) : Nat := cluBlk c + 0x20000 + 0x180 + 0x100 * x + 0x8 * i
def ADC_RES_HI (c x i : Nat) : Nat := cluBlk c + 0x20000 + 0x184 + 0x100 * x + 0x8 * i

/-! ### EDG -/

def EDG_STATUS (c : Nat) : Nat := cluBlk c + 0x30000 + 0x0
def EDG_STATUS.safe (c : Nat) : Fld := ⟨EDG_STATUS c, 0, 16⟩
def EDG_STATUS.frost (c : Nat) : Fld := ⟨EDG_STATUS c, 16, 1⟩
def EDG_STATUS.lull (c : Nat) : Fld := ⟨EDG_STATUS c, 17, 1⟩
def EDG_EVENTS (c : Nat) : Nat := cluBlk c + 0x30000 + 0x4
def EDG_EVENTS.cmp (c : Nat) : Fld := ⟨EDG_EVENTS c, 0, 16⟩
def EDG_EVENTS.cap (c : Nat) : Fld := ⟨EDG_EVENTS c, 16, 16⟩
def EDG_EVENT_EN (c : Nat) : Nat := cluBlk c + 0x30000 + 0x8
def EDG_EVENT_EN.en (c : Nat) : Fld := ⟨EDG_EVENT_EN c, 0, 32⟩
def EDG_CTRL (c : Nat) : Nat := cluBlk c + 0x30000 + 0xC
def EDG_CTRL.lock (c : Nat) : Fld := ⟨EDG_CTRL c, 31, 1⟩
def EDG_SYNC (c : Nat) : Nat := cluBlk c + 0x30000 + 0x10
def EDG_SYNC.sync (c : Nat) : Fld := ⟨EDG_SYNC c, 0, 16⟩
def EDG_VOTED (c : Nat) : Nat := cluBlk c + 0x30000 + 0x14
def EDG_VOTED.voted (c : Nat) : Fld := ⟨EDG_VOTED c, 0, 16⟩
def EDG_VOTED.group_safe (c : Nat) : Fld := ⟨EDG_VOTED c, 16, 16⟩
def EDG_ERR (c : Nat) : Nat := cluBlk c + 0x30000 + 0x18
def EDG_ERR.ovr (c : Nat) : Fld := ⟨EDG_ERR c, 0, 16⟩
def EDG_ERR.voted_write (c : Nat) : Fld := ⟨EDG_ERR c, 16, 16⟩
def EDG_SAFE_LVL (c : Nat) : Nat := cluBlk c + 0x30000 + 0x40
def EDG_SAFE_LVL.level (c : Nat) : Fld := ⟨EDG_SAFE_LVL c, 0, 32⟩
def EDG_CH_CTRL (c k : Nat) : Nat := cluBlk c + 0x30000 + 0x100 + 0x40 * k
def EDG_CH_CTRL.enable (c k : Nat) : Fld := ⟨EDG_CH_CTRL c k, 0, 1⟩
def EDG_CH_CTRL.func (c k : Nat) : Fld := ⟨EDG_CH_CTRL c k, 1, 3⟩
def EDG_CH_CTRL.src (c k : Nat) : Fld := ⟨EDG_CH_CTRL c k, 4, 2⟩
def EDG_CH_CTRL.pol (c k : Nat) : Fld := ⟨EDG_CH_CTRL c k, 6, 1⟩
def EDG_CH_CTRL.action (c k : Nat) : Fld := ⟨EDG_CH_CTRL c k, 7, 2⟩
def EDG_CH_CTRL.align (c k : Nat) : Fld := ⟨EDG_CH_CTRL c k, 9, 1⟩
def EDG_CH_CTRL.cap_edge (c k : Nat) : Fld := ⟨EDG_CH_CTRL c k, 10, 2⟩
def EDG_CH_CTRL.in_sel (c k : Nat) : Fld := ⟨EDG_CH_CTRL c k, 12, 4⟩
def EDG_CH_CTRL.gate_level (c k : Nat) : Fld := ⟨EDG_CH_CTRL c k, 16, 1⟩
def EDG_CH_CTRL.policy (c k : Nat) : Fld := ⟨EDG_CH_CTRL c k, 17, 1⟩
def EDG_CH_CTRL.lull_safe (c k : Nat) : Fld := ⟨EDG_CH_CTRL c k, 18, 1⟩
def EDG_CH_CMD (c k : Nat) : Nat := cluBlk c + 0x30000 + 0x104 + 0x40 * k
def EDG_CH_CMD.op (c k : Nat) : Fld := ⟨EDG_CH_CMD c k, 0, 3⟩
def EDG_CH_STAT (c k : Nat) : Nat := cluBlk c + 0x30000 + 0x108 + 0x40 * k
def EDG_CH_STAT.state (c k : Nat) : Fld := ⟨EDG_CH_STAT c k, 0, 2⟩
def EDG_CH_STAT.armed (c k : Nat) : Fld := ⟨EDG_CH_STAT c k, 2, 1⟩
def EDG_CH_STAT.level (c k : Nat) : Fld := ⟨EDG_CH_STAT c k, 3, 1⟩
def EDG_CH_STAT.safe (c k : Nat) : Fld := ⟨EDG_CH_STAT c k, 4, 1⟩
def EDG_CH_STAT.late (c k : Nat) : Fld := ⟨EDG_CH_STAT c k, 5, 1⟩
def EDG_CH_STAT.coarse (c k : Nat) : Fld := ⟨EDG_CH_STAT c k, 6, 1⟩
def EDG_CH_STAT.ovr (c k : Nat) : Fld := ⟨EDG_CH_STAT c k, 7, 1⟩
def EDG_CH_STAT.cap_count (c k : Nat) : Fld := ⟨EDG_CH_STAT c k, 8, 2⟩
def EDG_CH_STAT.cmd_result (c k : Nat) : Fld := ⟨EDG_CH_STAT c k, 10, 3⟩
def EDG_CH_STAT.cfg_code (c k : Nat) : Fld := ⟨EDG_CH_STAT c k, 13, 3⟩
def EDG_CNT (c k : Nat) : Nat := cluBlk c + 0x30000 + 0x10C + 0x40 * k
def EDG_CMP (c k : Nat) : Nat := cluBlk c + 0x30000 + 0x110 + 0x40 * k
def EDG_PER (c k : Nat) : Nat := cluBlk c + 0x30000 + 0x114 + 0x40 * k
def EDG_BASE (c k : Nat) : Nat := cluBlk c + 0x30000 + 0x118 + 0x40 * k
def EDG_EVT_OFS (c k : Nat) : Nat := cluBlk c + 0x30000 + 0x11C + 0x40 * k
def EDG_DT (c k : Nat) : Nat := cluBlk c + 0x30000 + 0x120 + 0x40 * k
def EDG_CAP_LO (c k : Nat) : Nat := cluBlk c + 0x30000 + 0x124 + 0x40 * k
def EDG_CAP_HI (c k : Nat) : Nat := cluBlk c + 0x30000 + 0x128 + 0x40 * k
def EDG_CAP_HI.valid (c k : Nat) : Fld := ⟨EDG_CAP_HI c k, 0, 1⟩
def EDG_CAP_HI.edge (c k : Nat) : Fld := ⟨EDG_CAP_HI c k, 1, 1⟩
def EDG_CAP_HI.ovr (c k : Nat) : Fld := ⟨EDG_CAP_HI c k, 2, 1⟩
def EDG_CAP_HI.degraded (c k : Nat) : Fld := ⟨EDG_CAP_HI c k, 3, 1⟩
def EDG_CAP_HI.coarse (c k : Nat) : Fld := ⟨EDG_CAP_HI c k, 4, 1⟩
def EDG_CAP_HI.frac (c k : Nat) : Fld := ⟨EDG_CAP_HI c k, 8, 4⟩
def EDG_CAP_POP (c k : Nat) : Nat := cluBlk c + 0x30000 + 0x12C + 0x40 * k
def EDG_ACT (c k : Nat) : Nat := cluBlk c + 0x30000 + 0x130 + 0x40 * k

/-! ### NET -/

def NET_STATUS : Nat := 0xC0000
def NET_STATUS.link : Fld := ⟨NET_STATUS, 0, 8⟩
def NET_STATUS.frost : Fld := ⟨NET_STATUS, 8, 1⟩
def NET_STATUS.learn_ha : Fld := ⟨NET_STATUS, 9, 1⟩
def NET_STATUS.free_cells : Fld := ⟨NET_STATUS, 16, 16⟩
def NET_EVENTS : Nat := 0xC0004
def NET_EVENTS.link_change : Fld := ⟨NET_EVENTS, 0, 1⟩
def NET_EVENTS.learn_full : Fld := ⟨NET_EVENTS, 1, 1⟩
def NET_EVENTS.learn_notify : Fld := ⟨NET_EVENTS, 2, 1⟩
def NET_EVENTS.learn_lost : Fld := ⟨NET_EVENTS, 3, 1⟩
def NET_EVENTS.fdb_done : Fld := ⟨NET_EVENTS, 4, 1⟩
def NET_EVENTS.sdu_drop : Fld := ⟨NET_EVENTS, 5, 1⟩
def NET_EVENTS.meter_drop : Fld := ⟨NET_EVENTS, 6, 1⟩
def NET_EVENTS.frer_reset : Fld := ⟨NET_EVENTS, 7, 1⟩
def NET_EVENTS.frer_rogue : Fld := ⟨NET_EVENTS, 8, 1⟩
def NET_EVENTS.trailer_mismatch : Fld := ⟨NET_EVENTS, 9, 1⟩
def NET_EVENTS.ttdp_rx : Fld := ⟨NET_EVENTS, 10, 1⟩
def NET_EVENTS.ttdp_timeout : Fld := ⟨NET_EVENTS, 11, 1⟩
def NET_EVENTS.cmd_rx : Fld := ⟨NET_EVENTS, 12, 1⟩
def NET_EVENTS.cmd_drop : Fld := ⟨NET_EVENTS, 13, 1⟩
def NET_EVENTS.ring : Fld := ⟨NET_EVENTS, 14, 1⟩
def NET_EVENTS.stomp : Fld := ⟨NET_EVENTS, 15, 1⟩
def NET_EVENTS.tail_drop : Fld := ⟨NET_EVENTS, 16, 1⟩
def NET_EVENTS.frost_drop : Fld := ⟨NET_EVENTS, 17, 1⟩
def NET_EVENTS.gptp_state : Fld := ⟨NET_EVENTS, 18, 1⟩
def NET_EVENTS.buf_low : Fld := ⟨NET_EVENTS, 19, 1⟩
def NET_EVENT_EN : Nat := 0xC0008
def NET_EVENT_EN.en : Fld := ⟨NET_EVENT_EN, 0, 20⟩
def NET_CTRL : Nat := 0xC000C
def NET_CTRL.age_s : Fld := ⟨NET_CTRL, 0, 16⟩
def NET_CTRL.trap_l2 : Fld := ⟨NET_CTRL, 16, 1⟩
def NET_CTRL.mc_flood : Fld := ⟨NET_CTRL, 17, 1⟩
def NET_CTRL.lock : Fld := ⟨NET_CTRL, 31, 1⟩
def NET_PCP_MAP : Nat := 0xC0010
def NET_PCP_MAP.map : Fld := ⟨NET_PCP_MAP, 0, 24⟩
def NET_BUF_CFG : Nat := 0xC0014
def NET_BUF_CFG.buf_mib : Fld := ⟨NET_BUF_CFG, 0, 4⟩
def NET_MAC_LO : Nat := 0xC0018
def NET_MAC_HI : Nat := 0xC001C
def NET_MAC_HI.mac_hi : Fld := ⟨NET_MAC_HI, 0, 16⟩
def NET_SVC_CFG : Nat := 0xC0020
def NET_SVC_CFG.vid : Fld := ⟨NET_SVC_CFG, 0, 12⟩
def NET_SVC_CFG.pcp : Fld := ⟨NET_SVC_CFG, 12, 3⟩
def NET_FDB_CMD : Nat := 0xC0024
def NET_FDB_CMD.op : Fld := ⟨NET_FDB_CMD, 0, 3⟩
def NET_FDB_CMD.port : Fld := ⟨NET_FDB_CMD, 8, 4⟩
def NET_FDB_MAC_LO : Nat := 0xC0028
def NET_FDB_MAC_HI : Nat := 0xC002C
def NET_FDB_MAC_HI.mac_hi : Fld := ⟨NET_FDB_MAC_HI, 0, 16⟩
def NET_FDB_MAC_HI.vid : Fld := ⟨NET_FDB_MAC_HI, 16, 12⟩
def NET_FDB_PORTS : Nat := 0xC0030
def NET_FDB_PORTS.ports : Fld := ⟨NET_FDB_PORTS, 0, 10⟩
def NET_FDB_PORTS.static_ : Fld := ⟨NET_FDB_PORTS, 16, 1⟩
def NET_FDB_PORTS.valid : Fld := ⟨NET_FDB_PORTS, 17, 1⟩
def NET_FDB_RESULT : Nat := 0xC0034
def NET_FDB_RESULT.result : Fld := ⟨NET_FDB_RESULT, 0, 2⟩
def NET_FDB_RESULT.busy : Fld := ⟨NET_FDB_RESULT, 2, 1⟩
def NET_LEARN_LO : Nat := 0xC0038
def NET_LEARN_HI : Nat := 0xC003C
def NET_LEARN_HI.mac_hi : Fld := ⟨NET_LEARN_HI, 0, 16⟩
def NET_LEARN_HI.vid : Fld := ⟨NET_LEARN_HI, 16, 12⟩
def NET_LEARN_HI.port : Fld := ⟨NET_LEARN_HI, 28, 4⟩
def NET_GPTP_CFG : Nat := 0xC0040
def NET_GPTP_CFG.priority1 : Fld := ⟨NET_GPTP_CFG, 0, 8⟩
def NET_GPTP_CFG.priority2 : Fld := ⟨NET_GPTP_CFG, 8, 8⟩
def NET_GPTP_CFG.clock_class : Fld := ⟨NET_GPTP_CFG, 16, 8⟩
def NET_GPTP_CFG.ext_port_cfg : Fld := ⟨NET_GPTP_CFG, 24, 1⟩
def NET_GPTP_QUAL : Nat := 0xC0044
def NET_GPTP_QUAL.clock_accuracy : Fld := ⟨NET_GPTP_QUAL, 0, 8⟩
def NET_GPTP_QUAL.variance : Fld := ⟨NET_GPTP_QUAL, 8, 16⟩
def NET_GPTP_INT : Nat := 0xC0048
def NET_GPTP_INT.log_sync : Fld := ⟨NET_GPTP_INT, 0, 4⟩
def NET_GPTP_INT.log_pdelay : Fld := ⟨NET_GPTP_INT, 4, 4⟩
def NET_GPTP_INT.log_announce : Fld := ⟨NET_GPTP_INT, 8, 4⟩
def NET_GPTP_GM_LO : Nat := 0xC0050
def NET_GPTP_GM_HI : Nat := 0xC0054
def NET_TTDP_CFG : Nat := 0xC0058
def NET_TTDP_CFG.period_ms : Fld := ⟨NET_TTDP_CFG, 0, 12⟩
def NET_TTDP_CFG.timeout_ms : Fld := ⟨NET_TTDP_CFG, 12, 12⟩
def NET_TTDP_ETYPE : Nat := 0xC005C
def NET_TTDP_ETYPE.etype : Fld := ⟨NET_TTDP_ETYPE, 0, 16⟩
def NET_RING_PEND : Nat := 0xC0060
def NET_RING_PEND.tile : Fld := ⟨NET_RING_PEND, 0, 24⟩
def NET_TTDP_DA_LO : Nat := 0xC0068
def NET_TTDP_DA_HI : Nat := 0xC006C
def NET_TTDP_DA_HI.da_hi : Fld := ⟨NET_TTDP_DA_HI, 0, 16⟩
def PORT_CFG (p : Nat) : Nat := 0xC1000 + 0x400 * p
def PORT_CFG.role (p : Nat) : Fld := ⟨PORT_CFG p, 0, 3⟩
def PORT_CFG.line_mode (p : Nat) : Fld := ⟨PORT_CFG p, 4, 2⟩
def PORT_CFG.gptp (p : Nat) : Fld := ⟨PORT_CFG p, 8, 1⟩
def PORT_CFG.cut_through (p : Nat) : Fld := ⟨PORT_CFG p, 9, 1⟩
def PORT_CFG.cmd (p : Nat) : Fld := ⟨PORT_CFG p, 10, 1⟩
def PORT_CFG.pvid (p : Nat) : Fld := ⟨PORT_CFG p, 16, 12⟩
def PORT_STATUS (p : Nat) : Nat := 0xC1004 + 0x400 * p
def PORT_STATUS.link (p : Nat) : Fld := ⟨PORT_STATUS p, 0, 1⟩
def PORT_STATUS.speed (p : Nat) : Fld := ⟨PORT_STATUS p, 1, 3⟩
def PORT_STATUS.gptp_state (p : Nat) : Fld := ⟨PORT_STATUS p, 4, 3⟩
def PORT_STATUS.as_capable (p : Nat) : Fld := ⟨PORT_STATUS p, 7, 1⟩
def PORT_STATUS.scheduled (p : Nat) : Fld := ⟨PORT_STATUS p, 8, 1⟩
def PORT_STATUS.gates (p : Nat) : Fld := ⟨PORT_STATUS p, 16, 8⟩
def PORT_STATUS.entry (p : Nat) : Fld := ⟨PORT_STATUS p, 24, 8⟩
def PORT_CTRL (p : Nat) : Nat := 0xC1008 + 0x400 * p
def PORT_CTRL.defpri (p : Nat) : Fld := ⟨PORT_CTRL p, 0, 3⟩
def PORT_CTRL.etb_fwd (p : Nat) : Fld := ⟨PORT_CTRL p, 4, 1⟩
def PORT_CTRL.ext_state (p : Nat) : Fld := ⟨PORT_CTRL p, 5, 3⟩
def PORT_QLIM (p : Nat) : Nat := 0xC100C + 0x400 * p
def PORT_QLIM.cells (p : Nat) : Fld := ⟨PORT_QLIM p, 0, 16⟩
def PORT_RX_FRAMES (p : Nat) : Nat := 0xC1010 + 0x400 * p
def PORT_TX_FRAMES (p : Nat) : Nat := 0xC1014 + 0x400 * p
def PORT_RX_ERR (p : Nat) : Nat := 0xC1018 + 0x400 * p
def PORT_DROP (p : Nat) : Nat := 0xC101C + 0x400 * p
def PORT_TAIL_DROP (p : Nat) : Nat := 0xC1020 + 0x400 * p
def PORT_STOMP (p : Nat) : Nat := 0xC1024 + 0x400 * p
def PORT_TTDP_LAST (p : Nat) : Nat := 0xC1028 + 0x400 * p
def PORT_TTDP_LEN (p : Nat) : Nat := 0xC102C + 0x400 * p
def PORT_TTDP_TPL (p w : Nat) : Nat := 0xC1200 + 0x400 * p + 0x4 * w
def NET_TRING_TX_BASE (t : Nat) : Nat := 0xC4000 + 0x20 * t
def NET_TRING_RX_BASE (t : Nat) : Nat := 0xC4004 + 0x20 * t
def NET_TRING_CFG (t : Nat) : Nat := 0xC4008 + 0x20 * t
def NET_TRING_CFG.log2 (t : Nat) : Fld := ⟨NET_TRING_CFG t, 0, 3⟩
def NET_TRING_CFG.enable (t : Nat) : Fld := ⟨NET_TRING_CFG t, 3, 1⟩
def NET_TRING_CFG.mc (t : Nat) : Fld := ⟨NET_TRING_CFG t, 4, 1⟩
def NET_TRING_CFG.world (t : Nat) : Fld := ⟨NET_TRING_CFG t, 5, 1⟩
def NET_TRING_TX_TAIL (t : Nat) : Nat := 0xC400C + 0x20 * t
def NET_TRING_TX_TAIL.tail (t : Nat) : Fld := ⟨NET_TRING_TX_TAIL t, 0, 7⟩
def NET_TRING_RX_TAIL (t : Nat) : Nat := 0xC4010 + 0x20 * t
def NET_TRING_RX_TAIL.tail (t : Nat) : Fld := ⟨NET_TRING_RX_TAIL t, 0, 7⟩
def NET_TRING_HEADS (t : Nat) : Nat := 0xC4014 + 0x20 * t
def NET_TRING_HEADS.tx (t : Nat) : Fld := ⟨NET_TRING_HEADS t, 0, 7⟩
def NET_TRING_HEADS.rx (t : Nat) : Fld := ⟨NET_TRING_HEADS t, 16, 7⟩
def NET_TRING_DROP (t : Nat) : Nat := 0xC4018 + 0x20 * t
def VLAN_ENTRY (v : Nat) : Nat := 0xD0000 + 0x4 * v
def VLAN_ENTRY.member (v : Nat) : Fld := ⟨VLAN_ENTRY v, 0, 10⟩
def VLAN_ENTRY.untag (v : Nat) : Fld := ⟨VLAN_ENTRY v, 10, 10⟩
def STREAM_ID0 (i : Nat) : Nat := 0xD8000 + 0x10 * i
def STREAM_ID1 (i : Nat) : Nat := 0xD8004 + 0x10 * i
def STREAM_ID1.mac_hi (i : Nat) : Fld := ⟨STREAM_ID1 i, 0, 16⟩
def STREAM_ID1.vid (i : Nat) : Fld := ⟨STREAM_ID1 i, 16, 12⟩
def STREAM_ID1.source (i : Nat) : Fld := ⟨STREAM_ID1 i, 28, 1⟩
def STREAM_ID1.valid (i : Nat) : Fld := ⟨STREAM_ID1 i, 29, 1⟩
def STREAM_ID1.voted (i : Nat) : Fld := ⟨STREAM_ID1 i, 30, 1⟩
def STREAM_ID2 (i : Nat) : Nat := 0xD8008 + 0x10 * i
def STREAM_ID2.ports (i : Nat) : Fld := ⟨STREAM_ID2 i, 0, 10⟩
def SFILT0 (i : Nat) : Nat := 0xD9000 + 0x10 * i
def SFILT0.max_sdu (i : Nat) : Fld := ⟨SFILT0 i, 0, 16⟩
def SFILT0.meter (i : Nat) : Fld := ⟨SFILT0 i, 16, 8⟩
def SFILT0.block_oversize (i : Nat) : Fld := ⟨SFILT0 i, 24, 1⟩
def SFILT0.blocked (i : Nat) : Fld := ⟨SFILT0 i, 25, 1⟩
def SFILT_MATCHED (i : Nat) : Nat := 0xD9004 + 0x10 * i
def SFILT_PASSED (i : Nat) : Nat := 0xD9008 + 0x10 * i
def SFILT_DROPPED (i : Nat) : Nat := 0xD900C + 0x10 * i
def METER_CIR (m : Nat) : Nat := 0xDA000 + 0x20 * m
def METER_CBS (m : Nat) : Nat := 0xDA004 + 0x20 * m
def METER_EIR (m : Nat) : Nat := 0xDA008 + 0x20 * m
def METER_EBS (m : Nat) : Nat := 0xDA00C + 0x20 * m
def METER4 (m : Nat) : Nat := 0xDA010 + 0x20 * m
def METER4.cf (m : Nat) : Fld := ⟨METER4 m, 0, 1⟩
def METER4.drop_yellow (m : Nat) : Fld := ⟨METER4 m, 1, 1⟩
def METER4.mark_red_enable (m : Nat) : Fld := ⟨METER4 m, 2, 1⟩
def METER4.mark_red (m : Nat) : Fld := ⟨METER4 m, 3, 1⟩
def METER_GREEN (m : Nat) : Nat := 0xDA014 + 0x20 * m
def METER_YELLOW (m : Nat) : Nat := 0xDA018 + 0x20 * m
def METER_RED (m : Nat) : Nat := 0xDA01C + 0x20 * m
def FRER_GEN0 (g : Nat) : Nat := 0xDC000 + 0x10 * g
def FRER_GEN0.handle (g : Nat) : Fld := ⟨FRER_GEN0 g, 0, 7⟩
def FRER_GEN0.valid (g : Nat) : Fld := ⟨FRER_GEN0 g, 7, 1⟩
def FRER_GEN0.replicate (g : Nat) : Fld := ⟨FRER_GEN0 g, 8, 10⟩
def FRER_GEN1 (g : Nat) : Nat := 0xDC004 + 0x10 * g
def FRER_GEN1.next_seq (g : Nat) : Fld := ⟨FRER_GEN1 g, 0, 16⟩
def FRER_REC0 (r : Nat) : Nat := 0xDD000 + 0x10 * r
def FRER_REC0.handle (r : Nat) : Fld := ⟨FRER_REC0 r, 0, 7⟩
def FRER_REC0.valid (r : Nat) : Fld := ⟨FRER_REC0 r, 7, 1⟩
def FRER_REC0.history (r : Nat) : Fld := ⟨FRER_REC0 r, 8, 5⟩
def FRER_REC0.decap (r : Nat) : Fld := ⟨FRER_REC0 r, 13, 1⟩
def FRER_REC0.reset_ms (r : Nat) : Fld := ⟨FRER_REC0 r, 16, 16⟩
def FRER_REC1 (r : Nat) : Nat := 0xDD004 + 0x10 * r
def FRER_REC1.last_seq (r : Nat) : Fld := ⟨FRER_REC1 r, 0, 16⟩
def FRER_REC_PASSED (r : Nat) : Nat := 0xDD008 + 0x10 * r
def FRER_REC_DISC (r : Nat) : Nat := 0xDD00C + 0x10 * r

/-! ### CAN -/

def CAN_CTRL (n : Nat) : Nat := 0x060000 + 0x1000 * n + 0x0
def CAN_CTRL.enable (n : Nat) : Fld := ⟨CAN_CTRL n, 0, 1⟩
def CAN_CTRL.policy (n : Nat) : Fld := ⟨CAN_CTRL n, 1, 1⟩
def CAN_CTRL.fd_enable (n : Nat) : Fld := ⟨CAN_CTRL n, 2, 1⟩
def CAN_CTRL.brs_enable (n : Nat) : Fld := ⟨CAN_CTRL n, 3, 1⟩
def CAN_CTRL.monitor (n : Nat) : Fld := ⟨CAN_CTRL n, 4, 1⟩
def CAN_CTRL.no_retx (n : Nat) : Fld := ⟨CAN_CTRL n, 5, 1⟩
def CAN_CTRL.loopback (n : Nat) : Fld := ⟨CAN_CTRL n, 6, 1⟩
def CAN_STATUS (n : Nat) : Nat := 0x060000 + 0x1000 * n + 0x4
def CAN_STATUS.state (n : Nat) : Fld := ⟨CAN_STATUS n, 0, 2⟩
def CAN_STATUS.frost_hold (n : Nat) : Fld := ⟨CAN_STATUS n, 2, 1⟩
def CAN_STATUS.cfg_err (n : Nat) : Fld := ⟨CAN_STATUS n, 3, 1⟩
def CAN_STATUS.clock_hold (n : Nat) : Fld := ⟨CAN_STATUS n, 4, 1⟩
def CAN_STATUS.fault (n : Nat) : Fld := ⟨CAN_STATUS n, 5, 2⟩
def CAN_STATUS.tec (n : Nat) : Fld := ⟨CAN_STATUS n, 8, 8⟩
def CAN_STATUS.rec (n : Nat) : Fld := ⟨CAN_STATUS n, 16, 8⟩
def CAN_STATUS.left (n : Nat) : Fld := ⟨CAN_STATUS n, 24, 8⟩
def CAN_EVENTS (n : Nat) : Nat := 0x060000 + 0x1000 * n + 0x8
def CAN_EVENTS.rx (n : Nat) : Fld := ⟨CAN_EVENTS n, 0, 1⟩
def CAN_EVENTS.tx_done (n : Nat) : Fld := ⟨CAN_EVENTS n, 1, 1⟩
def CAN_EVENTS.err_passive (n : Nat) : Fld := ⟨CAN_EVENTS n, 2, 1⟩
def CAN_EVENTS.bus_off (n : Nat) : Fld := ⟨CAN_EVENTS n, 3, 1⟩
def CAN_EVENTS.rx_ovf (n : Nat) : Fld := ⟨CAN_EVENTS n, 4, 1⟩
def CAN_EVENTS.error (n : Nat) : Fld := ⟨CAN_EVENTS n, 5, 1⟩
def CAN_EVENTS.auto_reply (n : Nat) : Fld := ⟨CAN_EVENTS n, 6, 1⟩
def CAN_EVENTS.recovered (n : Nat) : Fld := ⟨CAN_EVENTS n, 7, 1⟩
def CAN_EVENT_EN (n : Nat) : Nat := 0x060000 + 0x1000 * n + 0xC
def CAN_EVENT_EN.en (n : Nat) : Fld := ⟨CAN_EVENT_EN n, 0, 8⟩
def CAN_NBT_TQ (n : Nat) : Nat := 0x060000 + 0x1000 * n + 0x10
def CAN_NBT_TQ.tq (n : Nat) : Fld := ⟨CAN_NBT_TQ n, 0, 16⟩
def CAN_NBT_SEG (n : Nat) : Nat := 0x060000 + 0x1000 * n + 0x14
def CAN_NBT_SEG.tseg1 (n : Nat) : Fld := ⟨CAN_NBT_SEG n, 0, 8⟩
def CAN_NBT_SEG.tseg2 (n : Nat) : Fld := ⟨CAN_NBT_SEG n, 8, 7⟩
def CAN_NBT_SEG.sjw (n : Nat) : Fld := ⟨CAN_NBT_SEG n, 16, 7⟩
def CAN_DBT_TQ (n : Nat) : Nat := 0x060000 + 0x1000 * n + 0x18
def CAN_DBT_TQ.tq (n : Nat) : Fld := ⟨CAN_DBT_TQ n, 0, 16⟩
def CAN_DBT_SEG (n : Nat) : Nat := 0x060000 + 0x1000 * n + 0x1C
def CAN_DBT_SEG.tseg1 (n : Nat) : Fld := ⟨CAN_DBT_SEG n, 0, 5⟩
def CAN_DBT_SEG.tseg2 (n : Nat) : Fld := ⟨CAN_DBT_SEG n, 8, 4⟩
def CAN_DBT_SEG.sjw (n : Nat) : Fld := ⟨CAN_DBT_SEG n, 16, 4⟩
def CAN_TDC (n : Nat) : Nat := 0x060000 + 0x1000 * n + 0x20
def CAN_TDC.sso_tq (n : Nat) : Fld := ⟨CAN_TDC n, 0, 8⟩
def CAN_TDC.tdc_en (n : Nat) : Fld := ⟨CAN_TDC n, 8, 1⟩
def CAN_TDC.delay_ns (n : Nat) : Fld := ⟨CAN_TDC n, 16, 16⟩
def CAN_TX_REQ (n : Nat) : Nat := 0x060000 + 0x1000 * n + 0x24
def CAN_TX_CANCEL (n : Nat) : Nat := 0x060000 + 0x1000 * n + 0x28
def CAN_TX_PEND (n : Nat) : Nat := 0x060000 + 0x1000 * n + 0x2C
def CAN_RX_DATA (n : Nat) : Nat := 0x060000 + 0x1000 * n + 0x30
def CAN_RX_LEVEL (n : Nat) : Nat := 0x060000 + 0x1000 * n + 0x34
def CAN_RX_LEVEL.words (n : Nat) : Fld := ⟨CAN_RX_LEVEL n, 0, 11⟩
def CAN_RX_LEVEL.frames (n : Nat) : Fld := ⟨CAN_RX_LEVEL n, 16, 6⟩
def CAN_FILTER (n f : Nat) : Nat := 0x060000 + 0x1000 * n + 0x40 + 0x4 * f
def CAN_FILTER.id (n f : Nat) : Fld := ⟨CAN_FILTER n f, 0, 29⟩
def CAN_FILTER.ide (n f : Nat) : Fld := ⟨CAN_FILTER n f, 29, 1⟩
def CAN_FILTER.valid (n f : Nat) : Fld := ⟨CAN_FILTER n f, 30, 1⟩
def CAN_MASK (n f : Nat) : Nat := 0x060000 + 0x1000 * n + 0xC0 + 0x4 * f
def CAN_MASK.mask (n f : Nat) : Fld := ⟨CAN_MASK n f, 0, 30⟩
def CAN_TXB (n b w : Nat) : Nat := 0x060000 + 0x1000 * n + 0x400 + 0x50 * b + 0x4 * w

/-! ### MVB -/

def MVB_CTRL (m : Nat) : Nat := 0x068000 + 0x4000 * m + 0x0
def MVB_CTRL.enable (m : Nat) : Fld := ⟨MVB_CTRL m, 0, 1⟩
def MVB_CTRL.policy (m : Nat) : Fld := ⟨MVB_CTRL m, 1, 1⟩
def MVB_CTRL.admin (m : Nat) : Fld := ⟨MVB_CTRL m, 2, 1⟩
def MVB_CTRL.line_a_en (m : Nat) : Fld := ⟨MVB_CTRL m, 3, 1⟩
def MVB_CTRL.line_b_en (m : Nat) : Fld := ⟨MVB_CTRL m, 4, 1⟩
def MVB_CTRL.address (m : Nat) : Fld := ⟨MVB_CTRL m, 16, 12⟩
def MVB_STATUS (m : Nat) : Nat := 0x068000 + 0x4000 * m + 0x4
def MVB_STATUS.state (m : Nat) : Fld := ⟨MVB_STATUS m, 0, 2⟩
def MVB_STATUS.frost_hold (m : Nat) : Fld := ⟨MVB_STATUS m, 2, 1⟩
def MVB_STATUS.cfg_err (m : Nat) : Fld := ⟨MVB_STATUS m, 3, 1⟩
def MVB_STATUS.clock_hold (m : Nat) : Fld := ⟨MVB_STATUS m, 4, 1⟩
def MVB_STATUS.line (m : Nat) : Fld := ⟨MVB_STATUS m, 5, 1⟩
def MVB_STATUS.left (m : Nat) : Fld := ⟨MVB_STATUS m, 24, 8⟩
def MVB_EVENTS (m : Nat) : Nat := 0x068000 + 0x4000 * m + 0x8
def MVB_EVENTS.pd_rx (m : Nat) : Fld := ⟨MVB_EVENTS m, 0, 1⟩
def MVB_EVENTS.pd_tx (m : Nat) : Fld := ⟨MVB_EVENTS m, 1, 1⟩
def MVB_EVENTS.line_err (m : Nat) : Fld := ⟨MVB_EVENTS m, 2, 1⟩
def MVB_EVENTS.line_switch (m : Nat) : Fld := ⟨MVB_EVENTS m, 3, 1⟩
def MVB_EVENTS.admin_done (m : Nat) : Fld := ⟨MVB_EVENTS m, 4, 1⟩
def MVB_EVENTS.admin_timeout (m : Nat) : Fld := ⟨MVB_EVENTS m, 5, 1⟩
def MVB_EVENTS.dev_status (m : Nat) : Fld := ⟨MVB_EVENTS m, 6, 1⟩
def MVB_EVENT_EN (m : Nat) : Nat := 0x068000 + 0x4000 * m + 0xC
def MVB_EVENT_EN.en (m : Nat) : Fld := ⟨MVB_EVENT_EN m, 0, 8⟩
def MVB_DEV_STATUS (m : Nat) : Nat := 0x068000 + 0x4000 * m + 0x10
def MVB_DEV_STATUS.status (m : Nat) : Fld := ⟨MVB_DEV_STATUS m, 0, 16⟩
def MVB_ADMIN_CMD (m : Nat) : Nat := 0x068000 + 0x4000 * m + 0x14
def MVB_ADMIN_CMD.address (m : Nat) : Fld := ⟨MVB_ADMIN_CMD m, 0, 12⟩
def MVB_ADMIN_CMD.f_code (m : Nat) : Fld := ⟨MVB_ADMIN_CMD m, 12, 4⟩
def MVB_ADMIN_RESULT (m : Nat) : Nat := 0x068000 + 0x4000 * m + 0x18
def MVB_ADMIN_RESULT.result (m : Nat) : Fld := ⟨MVB_ADMIN_RESULT m, 0, 2⟩
def MVB_ADMIN_DATA (m w : Nat) : Nat := 0x068000 + 0x4000 * m + 0x20 + 0x4 * w
def MVB_PORT_CFG (m p : Nat) : Nat := 0x068000 + 0x4000 * m + 0x100 + 0x4 * p
def MVB_PORT_CFG.address (m p : Nat) : Fld := ⟨MVB_PORT_CFG m p, 0, 12⟩
def MVB_PORT_CFG.f_code (m p : Nat) : Fld := ⟨MVB_PORT_CFG m p, 12, 3⟩
def MVB_PORT_CFG.dir (m p : Nat) : Fld := ⟨MVB_PORT_CFG m p, 15, 2⟩
def MVB_PORT_CFG.ev (m p : Nat) : Fld := ⟨MVB_PORT_CFG m p, 17, 1⟩
def MVB_PORT_STAT (m p : Nat) : Nat := 0x068000 + 0x4000 * m + 0x500 + 0x4 * p
def MVB_PORT_STAT.age_ms (m p : Nat) : Fld := ⟨MVB_PORT_STAT m p, 0, 16⟩
def MVB_PORT_STAT.valid (m p : Nat) : Fld := ⟨MVB_PORT_STAT m p, 16, 1⟩
def MVB_PORT_DATA (m p w : Nat) : Nat := 0x068000 + 0x4000 * m + 0x1000 + 0x20 * p + 0x4 * w

/-! ### UART -/

def UART_CTRL (u : Nat) : Nat := 0x070000 + 0x400 * u + 0x0
def UART_CTRL.enable (u : Nat) : Fld := ⟨UART_CTRL u, 0, 1⟩
def UART_CTRL.policy (u : Nat) : Fld := ⟨UART_CTRL u, 1, 1⟩
def UART_CTRL.bits (u : Nat) : Fld := ⟨UART_CTRL u, 2, 3⟩
def UART_CTRL.parity (u : Nat) : Fld := ⟨UART_CTRL u, 5, 2⟩
def UART_CTRL.stop2 (u : Nat) : Fld := ⟨UART_CTRL u, 7, 1⟩
def UART_CTRL.rs485 (u : Nat) : Fld := ⟨UART_CTRL u, 8, 1⟩
def UART_CTRL.de_pol (u : Nat) : Fld := ⟨UART_CTRL u, 9, 1⟩
def UART_CTRL.loopback (u : Nat) : Fld := ⟨UART_CTRL u, 10, 1⟩
def UART_STATUS (u : Nat) : Nat := 0x070000 + 0x400 * u + 0x4
def UART_STATUS.state (u : Nat) : Fld := ⟨UART_STATUS u, 0, 2⟩
def UART_STATUS.frost_hold (u : Nat) : Fld := ⟨UART_STATUS u, 2, 1⟩
def UART_STATUS.cfg_err (u : Nat) : Fld := ⟨UART_STATUS u, 3, 1⟩
def UART_STATUS.rx_level (u : Nat) : Fld := ⟨UART_STATUS u, 4, 9⟩
def UART_STATUS.tx_level (u : Nat) : Fld := ⟨UART_STATUS u, 13, 8⟩
def UART_STATUS.left (u : Nat) : Fld := ⟨UART_STATUS u, 24, 8⟩
def UART_EVENTS (u : Nat) : Nat := 0x070000 + 0x400 * u + 0x8
def UART_EVENTS.rx (u : Nat) : Fld := ⟨UART_EVENTS u, 0, 1⟩
def UART_EVENTS.tx_empty (u : Nat) : Fld := ⟨UART_EVENTS u, 1, 1⟩
def UART_EVENTS.rx_ovf (u : Nat) : Fld := ⟨UART_EVENTS u, 2, 1⟩
def UART_EVENTS.tx_ovf (u : Nat) : Fld := ⟨UART_EVENTS u, 3, 1⟩
def UART_EVENTS.framing (u : Nat) : Fld := ⟨UART_EVENTS u, 4, 1⟩
def UART_EVENTS.parity (u : Nat) : Fld := ⟨UART_EVENTS u, 5, 1⟩
def UART_EVENTS.break_ (u : Nat) : Fld := ⟨UART_EVENTS u, 6, 1⟩
def UART_EVENTS.idle (u : Nat) : Fld := ⟨UART_EVENTS u, 7, 1⟩
def UART_EVENT_EN (u : Nat) : Nat := 0x070000 + 0x400 * u + 0xC
def UART_EVENT_EN.en (u : Nat) : Fld := ⟨UART_EVENT_EN u, 0, 8⟩
def UART_BIT (u : Nat) : Nat := 0x070000 + 0x400 * u + 0x10
def UART_BIT.bit (u : Nat) : Fld := ⟨UART_BIT u, 0, 28⟩
def UART_DE (u : Nat) : Nat := 0x070000 + 0x400 * u + 0x14
def UART_DE.lead_ns (u : Nat) : Fld := ⟨UART_DE u, 0, 16⟩
def UART_DE.lag_ns (u : Nat) : Fld := ⟨UART_DE u, 16, 16⟩
def UART_TX (u : Nat) : Nat := 0x070000 + 0x400 * u + 0x18
def UART_TX.char (u : Nat) : Fld := ⟨UART_TX u, 0, 9⟩
def UART_RX (u : Nat) : Nat := 0x070000 + 0x400 * u + 0x1C
def UART_RX.data (u : Nat) : Fld := ⟨UART_RX u, 0, 9⟩
def UART_RX.parity (u : Nat) : Fld := ⟨UART_RX u, 9, 1⟩
def UART_RX.framing (u : Nat) : Fld := ⟨UART_RX u, 10, 1⟩
def UART_RX.break_ (u : Nat) : Fld := ⟨UART_RX u, 11, 1⟩
def UART_RX.valid (u : Nat) : Fld := ⟨UART_RX u, 31, 1⟩

/-! ### SPI -/

def SPI_CTRL (s : Nat) : Nat := 0x074000 + 0x400 * s + 0x0
def SPI_CTRL.enable (s : Nat) : Fld := ⟨SPI_CTRL s, 0, 1⟩
def SPI_CTRL.policy (s : Nat) : Fld := ⟨SPI_CTRL s, 1, 1⟩
def SPI_CTRL.target (s : Nat) : Fld := ⟨SPI_CTRL s, 2, 1⟩
def SPI_CTRL.mode (s : Nat) : Fld := ⟨SPI_CTRL s, 3, 2⟩
def SPI_CTRL.bits (s : Nat) : Fld := ⟨SPI_CTRL s, 5, 5⟩
def SPI_CTRL.lsb_first (s : Nat) : Fld := ⟨SPI_CTRL s, 10, 1⟩
def SPI_CTRL.cs (s : Nat) : Fld := ⟨SPI_CTRL s, 11, 2⟩
def SPI_CTRL.cs_hold (s : Nat) : Fld := ⟨SPI_CTRL s, 13, 1⟩
def SPI_STATUS (s : Nat) : Nat := 0x074000 + 0x400 * s + 0x4
def SPI_STATUS.state (s : Nat) : Fld := ⟨SPI_STATUS s, 0, 2⟩
def SPI_STATUS.frost_hold (s : Nat) : Fld := ⟨SPI_STATUS s, 2, 1⟩
def SPI_STATUS.cfg_err (s : Nat) : Fld := ⟨SPI_STATUS s, 3, 1⟩
def SPI_STATUS.rx_level (s : Nat) : Fld := ⟨SPI_STATUS s, 4, 7⟩
def SPI_STATUS.tx_level (s : Nat) : Fld := ⟨SPI_STATUS s, 11, 7⟩
def SPI_STATUS.busy (s : Nat) : Fld := ⟨SPI_STATUS s, 18, 1⟩
def SPI_STATUS.left (s : Nat) : Fld := ⟨SPI_STATUS s, 24, 8⟩
def SPI_EVENTS (s : Nat) : Nat := 0x074000 + 0x400 * s + 0x8
def SPI_EVENTS.rx (s : Nat) : Fld := ⟨SPI_EVENTS s, 0, 1⟩
def SPI_EVENTS.tx_empty (s : Nat) : Fld := ⟨SPI_EVENTS s, 1, 1⟩
def SPI_EVENTS.rx_ovf (s : Nat) : Fld := ⟨SPI_EVENTS s, 2, 1⟩
def SPI_EVENTS.tx_ovf (s : Nat) : Fld := ⟨SPI_EVENTS s, 3, 1⟩
def SPI_EVENTS.tx_underrun (s : Nat) : Fld := ⟨SPI_EVENTS s, 4, 1⟩
def SPI_EVENTS.cs_end (s : Nat) : Fld := ⟨SPI_EVENTS s, 5, 1⟩
def SPI_EVENT_EN (s : Nat) : Nat := 0x074000 + 0x400 * s + 0xC
def SPI_EVENT_EN.en (s : Nat) : Fld := ⟨SPI_EVENT_EN s, 0, 8⟩
def SPI_SCK (s : Nat) : Nat := 0x074000 + 0x400 * s + 0x10
def SPI_SCK.half (s : Nat) : Fld := ⟨SPI_SCK s, 0, 16⟩
def SPI_IDLE (s : Nat) : Nat := 0x074000 + 0x400 * s + 0x14
def SPI_TX (s : Nat) : Nat := 0x074000 + 0x400 * s + 0x18
def SPI_RX (s : Nat) : Nat := 0x074000 + 0x400 * s + 0x1C

/-! ### I2C -/

def I2C_CTRL (i : Nat) : Nat := 0x076000 + 0x400 * i + 0x0
def I2C_CTRL.enable (i : Nat) : Fld := ⟨I2C_CTRL i, 0, 1⟩
def I2C_CTRL.policy (i : Nat) : Fld := ⟨I2C_CTRL i, 1, 1⟩
def I2C_CTRL.target (i : Nat) : Fld := ⟨I2C_CTRL i, 2, 1⟩
def I2C_CTRL.speed (i : Nat) : Fld := ⟨I2C_CTRL i, 3, 2⟩
def I2C_CTRL.address (i : Nat) : Fld := ⟨I2C_CTRL i, 5, 10⟩
def I2C_CTRL.addr10 (i : Nat) : Fld := ⟨I2C_CTRL i, 15, 1⟩
def I2C_STATUS (i : Nat) : Nat := 0x076000 + 0x400 * i + 0x4
def I2C_STATUS.state (i : Nat) : Fld := ⟨I2C_STATUS i, 0, 2⟩
def I2C_STATUS.frost_hold (i : Nat) : Fld := ⟨I2C_STATUS i, 2, 1⟩
def I2C_STATUS.cfg_err (i : Nat) : Fld := ⟨I2C_STATUS i, 3, 1⟩
def I2C_STATUS.bus_busy (i : Nat) : Fld := ⟨I2C_STATUS i, 4, 1⟩
def I2C_STATUS.rx_level (i : Nat) : Fld := ⟨I2C_STATUS i, 5, 5⟩
def I2C_STATUS.tx_level (i : Nat) : Fld := ⟨I2C_STATUS i, 10, 5⟩
def I2C_STATUS.left (i : Nat) : Fld := ⟨I2C_STATUS i, 24, 8⟩
def I2C_EVENTS (i : Nat) : Nat := 0x076000 + 0x400 * i + 0x8
def I2C_EVENTS.done (i : Nat) : Fld := ⟨I2C_EVENTS i, 0, 1⟩
def I2C_EVENTS.nack (i : Nat) : Fld := ⟨I2C_EVENTS i, 1, 1⟩
def I2C_EVENTS.arb_lost (i : Nat) : Fld := ⟨I2C_EVENTS i, 2, 1⟩
def I2C_EVENTS.rx (i : Nat) : Fld := ⟨I2C_EVENTS i, 3, 1⟩
def I2C_EVENTS.target_req (i : Nat) : Fld := ⟨I2C_EVENTS i, 4, 1⟩
def I2C_EVENTS.stretch_timeout (i : Nat) : Fld := ⟨I2C_EVENTS i, 5, 1⟩
def I2C_EVENTS.rx_ovf (i : Nat) : Fld := ⟨I2C_EVENTS i, 6, 1⟩
def I2C_EVENTS.tx_ovf (i : Nat) : Fld := ⟨I2C_EVENTS i, 7, 1⟩
def I2C_EVENT_EN (i : Nat) : Nat := 0x076000 + 0x400 * i + 0xC
def I2C_EVENT_EN.en (i : Nat) : Fld := ⟨I2C_EVENT_EN i, 0, 8⟩
def I2C_CMD (i : Nat) : Nat := 0x076000 + 0x400 * i + 0x10
def I2C_CMD.address (i : Nat) : Fld := ⟨I2C_CMD i, 0, 10⟩
def I2C_CMD.read (i : Nat) : Fld := ⟨I2C_CMD i, 10, 1⟩
def I2C_CMD.addr10 (i : Nat) : Fld := ⟨I2C_CMD i, 11, 1⟩
def I2C_CMD.count (i : Nat) : Fld := ⟨I2C_CMD i, 12, 5⟩
def I2C_CMD.no_stop (i : Nat) : Fld := ⟨I2C_CMD i, 17, 1⟩
def I2C_TX (i : Nat) : Nat := 0x076000 + 0x400 * i + 0x14
def I2C_TX.byte (i : Nat) : Fld := ⟨I2C_TX i, 0, 8⟩
def I2C_RX (i : Nat) : Nat := 0x076000 + 0x400 * i + 0x18
def I2C_RX.byte (i : Nat) : Fld := ⟨I2C_RX i, 0, 8⟩
def I2C_RX.valid (i : Nat) : Fld := ⟨I2C_RX i, 31, 1⟩
def I2C_STRETCH (i : Nat) : Nat := 0x076000 + 0x400 * i + 0x1C
def I2C_STRETCH.stretch_us (i : Nat) : Fld := ⟨I2C_STRETCH i, 0, 16⟩

/-! ### PIN -/

def PIN_STATUS : Nat := 0x50000
def PIN_STATUS.frost : Fld := ⟨PIN_STATUS, 0, 1⟩
def PIN_STATUS.applied : Fld := ⟨PIN_STATUS, 1, 1⟩
def PIN_STATUS.mismatch : Fld := ⟨PIN_STATUS, 8, 8⟩
def PIN_EVENTS : Nat := 0x50004
def PIN_EVENTS.owner_change : Fld := ⟨PIN_EVENTS, 0, 1⟩
def PIN_EVENTS.starved : Fld := ⟨PIN_EVENTS, 1, 1⟩
def PIN_EVENTS.voted_write : Fld := ⟨PIN_EVENTS, 2, 1⟩
def PIN_EVENTS.supply_mismatch : Fld := ⟨PIN_EVENTS, 3, 1⟩
def PIN_EVENTS.tamper0 : Fld := ⟨PIN_EVENTS, 4, 1⟩
def PIN_EVENTS.tamper1 : Fld := ⟨PIN_EVENTS, 5, 1⟩
def PIN_EVENT_EN : Nat := 0x50008
def PIN_EVENT_EN.en : Fld := ⟨PIN_EVENT_EN, 0, 6⟩
def PIN_CTRL : Nat := 0x5000C
def PIN_CTRL.lock : Fld := ⟨PIN_CTRL, 31, 1⟩
def PIN_SUPPLY : Nat := 0x50010
def PIN_SUPPLY.bank_18 : Fld := ⟨PIN_SUPPLY, 0, 8⟩
def PIN_TAMPER : Nat := 0x50020
def PIN_TAMPER.arm0 : Fld := ⟨PIN_TAMPER, 0, 1⟩
def PIN_TAMPER.arm1 : Fld := ⟨PIN_TAMPER, 1, 1⟩
def PIN_TAMPER.level0 : Fld := ⟨PIN_TAMPER, 2, 1⟩
def PIN_TAMPER.level1 : Fld := ⟨PIN_TAMPER, 3, 1⟩
def PIN_TAMPER.filter : Fld := ⟨PIN_TAMPER, 8, 4⟩
def PIN_TAMPER_STAT : Nat := 0x50024
def PIN_TAMPER_STAT.in0 : Fld := ⟨PIN_TAMPER_STAT, 0, 1⟩
def PIN_TAMPER_STAT.in1 : Fld := ⟨PIN_TAMPER_STAT, 1, 1⟩
def PIN_TAMPER_STAT.trip0 : Fld := ⟨PIN_TAMPER_STAT, 2, 1⟩
def PIN_TAMPER_STAT.trip1 : Fld := ⟨PIN_TAMPER_STAT, 3, 1⟩
def PIN_TAMPER_STAT.trips : Fld := ⟨PIN_TAMPER_STAT, 8, 8⟩
def GPIO_IN (b : Nat) : Nat := 0x50100 + 0x40 * b
def GPIO_OUT (b : Nat) : Nat := 0x50104 + 0x40 * b
def GPIO_SET (b : Nat) : Nat := 0x50108 + 0x40 * b
def GPIO_CLR (b : Nat) : Nat := 0x5010C + 0x40 * b
def GPIO_TGL (b : Nat) : Nat := 0x50110 + 0x40 * b
def GPIO_DIR (b : Nat) : Nat := 0x50114 + 0x40 * b
def GPIO_DIR.dir (b : Nat) : Fld := ⟨GPIO_DIR b, 0, 24⟩
def GPIO_EVENTS (b : Nat) : Nat := 0x50118 + 0x40 * b
def GPIO_EVENTS.flags (b : Nat) : Fld := ⟨GPIO_EVENTS b, 0, 24⟩
def GPIO_RISE_EN (b : Nat) : Nat := 0x5011C + 0x40 * b
def GPIO_RISE_EN.en (b : Nat) : Fld := ⟨GPIO_RISE_EN b, 0, 24⟩
def GPIO_FALL_EN (b : Nat) : Nat := 0x50120 + 0x40 * b
def GPIO_FALL_EN.en (b : Nat) : Fld := ⟨GPIO_FALL_EN b, 0, 24⟩
def GPIO_VOTED (b : Nat) : Nat := 0x50124 + 0x40 * b
def PIN_BANK_STAT (b : Nat) : Nat := 0x50128 + 0x40 * b
def PIN_BANK_STAT.mismatch (b : Nat) : Fld := ⟨PIN_BANK_STAT b, 0, 1⟩
def PIN_BANK_STAT.measured (b : Nat) : Fld := ⟨PIN_BANK_STAT b, 1, 1⟩
def PIN_BANK_STAT.absent (b : Nat) : Fld := ⟨PIN_BANK_STAT b, 2, 1⟩
def PIN_CAND (n : Nat) : Nat := 0x51000 + 0x10 * n
def PIN_PADCFG (n : Nat) : Nat := 0x51004 + 0x10 * n
def PIN_PADCFG.safe (n : Nat) : Fld := ⟨PIN_PADCFG n, 0, 2⟩
def PIN_PADCFG.safe_change (n : Nat) : Fld := ⟨PIN_PADCFG n, 2, 1⟩
def PIN_PADCFG.filter (n : Nat) : Fld := ⟨PIN_PADCFG n, 4, 7⟩
def PIN_PADCFG.slew (n : Nat) : Fld := ⟨PIN_PADCFG n, 12, 2⟩
def PIN_OWNER (n : Nat) : Nat := 0x51008 + 0x10 * n
def PIN_OWNER.owner (n : Nat) : Fld := ⟨PIN_OWNER n, 0, 8⟩
def PIN_OWNER.index (n : Nat) : Fld := ⟨PIN_OWNER n, 8, 3⟩
def PIN_OWNER.phase (n : Nat) : Fld := ⟨PIN_OWNER n, 11, 2⟩
def PIN_OWNER.safe (n : Nat) : Fld := ⟨PIN_OWNER n, 13, 1⟩
def PIN_OWNER.starved (n : Nat) : Fld := ⟨PIN_OWNER n, 14, 1⟩
def PIN_PULL (n : Nat) : Nat := 0x5100C + 0x10 * n
def PIN_PULL.pull (n : Nat) : Fld := ⟨PIN_PULL n, 0, 2⟩

/-! ### PWR -/

def PWR_STATUS : Nat := 0x10000
def PWR_STATUS.state : Fld := ⟨PWR_STATUS, 0, 2⟩
def PWR_STATUS.supwarn : Fld := ⟨PWR_STATUS, 2, 1⟩
def PWR_STATUS.dozing : Fld := ⟨PWR_STATUS, 8, 24⟩
def PWR_EVENTS : Nat := 0x10004
def PWR_EVENTS.notice : Fld := ⟨PWR_EVENTS, 0, 1⟩
def PWR_EVENTS.wake_cancel : Fld := ⟨PWR_EVENTS, 1, 1⟩
def PWR_EVENTS.supply_warn : Fld := ⟨PWR_EVENTS, 2, 1⟩
def PWR_EVENTS.dom_done : Fld := ⟨PWR_EVENTS, 3, 1⟩
def PWR_EVENTS.dom_refused : Fld := ⟨PWR_EVENTS, 4, 1⟩
def PWR_EVENTS.woke : Fld := ⟨PWR_EVENTS, 5, 1⟩
def PWR_EVENT_EN : Nat := 0x10008
def PWR_EVENT_EN.en : Fld := ⟨PWR_EVENT_EN, 0, 6⟩
def PWR_CTRL : Nat := 0x1000C
def PWR_CTRL.notice_us : Fld := ⟨PWR_CTRL, 0, 10⟩
def PWR_CTRL.lock : Fld := ⟨PWR_CTRL, 31, 1⟩
def PWR_CMD : Nat := 0x10010
def PWR_CMD.op : Fld := ⟨PWR_CMD, 0, 2⟩
def PWR_CMD_RESULT : Nat := 0x10014
def PWR_CMD_RESULT.result : Fld := ⟨PWR_CMD_RESULT, 0, 3⟩
def PWR_DOZE_EN : Nat := 0x10018
def PWR_DOZE_EN.tile : Fld := ⟨PWR_DOZE_EN, 0, 24⟩
def PWR_WAKE_EN : Nat := 0x1001C
def PWR_WAKE_EN.enable : Fld := ⟨PWR_WAKE_EN, 0, 14⟩
def PWR_WAKE_REC : Nat := 0x10020
def PWR_WAKE_REC.cause : Fld := ⟨PWR_WAKE_REC, 0, 15⟩
def PWR_WAKE_REC.cellar : Fld := ⟨PWR_WAKE_REC, 16, 1⟩
def PWR_WAKE_REC.wakes : Fld := ⟨PWR_WAKE_REC, 24, 8⟩
def PWR_WAKE_TIMER : Nat := 0x10024
def PWR_DOM_CTRL (d : Nat) : Nat := 0x10100 + 0x4 * d
def PWR_DOM_CTRL.req (d : Nat) : Fld := ⟨PWR_DOM_CTRL d, 0, 1⟩
def PWR_DOM_CTRL.woa (d : Nat) : Fld := ⟨PWR_DOM_CTRL d, 1, 1⟩
def PWR_DOM_CTRL.hold (d : Nat) : Fld := ⟨PWR_DOM_CTRL d, 2, 1⟩
def PWR_DOM_STAT (d : Nat) : Nat := 0x10200 + 0x4 * d
def PWR_DOM_STAT.state (d : Nat) : Fld := ⟨PWR_DOM_STAT d, 0, 2⟩
def PWR_DOM_STAT.clamped (d : Nat) : Fld := ⟨PWR_DOM_STAT d, 2, 1⟩
def PWR_DOM_STAT.req_result (d : Nat) : Fld := ⟨PWR_DOM_STAT d, 3, 2⟩
def DRZ_CFG : Nat := 0x10400
def DRZ_CFG.pair : Fld := ⟨DRZ_CFG, 0, 3⟩
def DRZ_CFG.length : Fld := ⟨DRZ_CFG, 4, 3⟩
def DRZ_CFG.ha : Fld := ⟨DRZ_CFG, 7, 1⟩
def DRZ_CFG.hist_clear : Fld := ⟨DRZ_CFG, 8, 1⟩
def DRZ_PERIOD : Nat := 0x10404
def DRZ_TICK_LO : Nat := 0x10408
def DRZ_TICK_HI : Nat := 0x1040C
def DRZ_CYCLES : Nat := 0x10410
def DRZ_CYCLES.cycles : Fld := ⟨DRZ_CYCLES, 0, 24⟩
def DRZ_CYCLES.ring_fails : Fld := ⟨DRZ_CYCLES, 24, 8⟩
def DRZ_WAKE_DATA : Nat := 0x10414
def DRZ_WAKE_DATA.entry : Fld := ⟨DRZ_WAKE_DATA, 0, 3⟩
def DRZ_WAKE_DATA.high : Fld := ⟨DRZ_WAKE_DATA, 3, 1⟩
def DRZ_WAKE_DATA.code : Fld := ⟨DRZ_WAKE_DATA, 16, 12⟩
def DRZ_HIST_LEVEL : Nat := 0x10418
def DRZ_HIST_LEVEL.level : Fld := ⟨DRZ_HIST_LEVEL, 0, 7⟩
def DRZ_HIST_LEVEL.oldest : Fld := ⟨DRZ_HIST_LEVEL, 8, 6⟩
def DRZ_SEQ (i : Nat) : Nat := 0x10440 + 0x4 * i
def DRZ_SEQ.input (i : Nat) : Fld := ⟨DRZ_SEQ i, 0, 4⟩
def DRZ_SEQ.stime (i : Nat) : Fld := ⟨DRZ_SEQ i, 4, 3⟩
def DRZ_SEQ.gain (i : Nat) : Fld := ⟨DRZ_SEQ i, 7, 2⟩
def DRZ_SEQ.count (i : Nat) : Fld := ⟨DRZ_SEQ i, 9, 3⟩
def DRZ_SEQ.wake_low (i : Nat) : Fld := ⟨DRZ_SEQ i, 12, 1⟩
def DRZ_SEQ.wake_high (i : Nat) : Fld := ⟨DRZ_SEQ i, 13, 1⟩
def DRZ_WIN (i : Nat) : Nat := 0x10460 + 0x4 * i
def DRZ_WIN.low (i : Nat) : Fld := ⟨DRZ_WIN i, 0, 12⟩
def DRZ_WIN.high (i : Nat) : Fld := ⟨DRZ_WIN i, 16, 12⟩
def DRZ_HIST (j : Nat) : Nat := 0x10800 + 0x4 * j
def DRZ_HIST.code (j : Nat) : Fld := ⟨DRZ_HIST j, 0, 12⟩
def DRZ_HIST.counted (j : Nat) : Fld := ⟨DRZ_HIST j, 12, 1⟩
def DRZ_HIST.clip (j : Nat) : Fld := ⟨DRZ_HIST j, 13, 1⟩
def DRZ_HIST.entry (j : Nat) : Fld := ⟨DRZ_HIST j, 16, 3⟩
def DRZ_HIST.cycle (j : Nat) : Fld := ⟨DRZ_HIST j, 24, 8⟩

/-! ### BOOT -/

def BOOT_ID_LO : Nat := 0x0
def BOOT_ID_HI : Nat := 0x4
def BOOT_PART : Nat := 0x8
def BOOT_PART.part : Fld := ⟨BOOT_PART, 0, 16⟩
def BOOT_PART.step : Fld := ⟨BOOT_PART, 16, 8⟩
def BOOT_STATUS : Nat := 0xC
def BOOT_STATUS.lc : Fld := ⟨BOOT_STATUS, 0, 3⟩
def BOOT_STATUS.frost : Fld := ⟨BOOT_STATUS, 3, 1⟩
def BOOT_STATUS.recovery : Fld := ⟨BOOT_STATUS, 4, 1⟩
def BOOT_STATUS.slot : Fld := ⟨BOOT_STATUS, 5, 1⟩
def BOOT_STATUS.ha : Fld := ⟨BOOT_STATUS, 6, 1⟩
def BOOT_STATUS.debug : Fld := ⟨BOOT_STATUS, 8, 2⟩
def BOOT_STATUS.stage : Fld := ⟨BOOT_STATUS, 12, 4⟩
def BOOT_STATUS.result : Fld := ⟨BOOT_STATUS, 16, 8⟩
def BOOT_STATUS.verdict_wait : Fld := ⟨BOOT_STATUS, 24, 1⟩
def BOOT_STATUS.persisted : Fld := ⟨BOOT_STATUS, 25, 1⟩
def BOOT_EVENTS : Nat := 0x10
def BOOT_EVENTS.thawed : Fld := ⟨BOOT_EVENTS, 0, 1⟩
def BOOT_EVENTS.slot_bad : Fld := ⟨BOOT_EVENTS, 1, 1⟩
def BOOT_EVENTS.verdict_needed : Fld := ⟨BOOT_EVENTS, 2, 1⟩
def BOOT_EVENTS.fuse_done : Fld := ⟨BOOT_EVENTS, 3, 1⟩
def BOOT_EVENTS.debug_unlocked : Fld := ⟨BOOT_EVENTS, 4, 1⟩
def BOOT_EVENTS.revoked : Fld := ⟨BOOT_EVENTS, 5, 1⟩
def BOOT_EVENTS.record_fallback : Fld := ⟨BOOT_EVENTS, 6, 1⟩
def BOOT_EVENTS.activated : Fld := ⟨BOOT_EVENTS, 7, 1⟩
def BOOT_EVENT_EN : Nat := 0x14
def BOOT_EVENT_EN.en : Fld := ⟨BOOT_EVENT_EN, 0, 8⟩
def BOOT_CTRL : Nat := 0x18
def BOOT_CTRL.thaw_gate : Fld := ⟨BOOT_CTRL, 0, 1⟩
def BOOT_CTRL.thaw_go : Fld := ⟨BOOT_CTRL, 1, 1⟩
def BOOT_CTRL.lock : Fld := ⟨BOOT_CTRL, 31, 1⟩
def BOOT_SLOT (x : Nat) : Nat := 0x1C + 0x4 * x
def BOOT_SLOT.good (x : Nat) : Fld := ⟨BOOT_SLOT x, 0, 1⟩
def BOOT_SLOT.active (x : Nat) : Fld := ⟨BOOT_SLOT x, 1, 1⟩
def BOOT_SLOT.excluded (x : Nat) : Fld := ⟨BOOT_SLOT x, 2, 1⟩
def BOOT_SLOT.bound (x : Nat) : Fld := ⟨BOOT_SLOT x, 3, 1⟩
def BOOT_SLOT.last_good (x : Nat) : Fld := ⟨BOOT_SLOT x, 4, 1⟩
def BOOT_SLOT.booted (x : Nat) : Fld := ⟨BOOT_SLOT x, 5, 1⟩
def BOOT_SLOT.result (x : Nat) : Fld := ⟨BOOT_SLOT x, 8, 8⟩
def BOOT_SLOT.key_slot (x : Nat) : Fld := ⟨BOOT_SLOT x, 16, 8⟩
def BOOT_VER (x : Nat) : Nat := 0x24 + 0x4 * x
def BOOT_FLOOR : Nat := 0x2C
def BOOT_FUSE_CTR : Nat := 0x30
def BOOT_FUSE_CTR.count : Fld := ⟨BOOT_FUSE_CTR, 0, 8⟩
def BOOT_FUSE_CTR.target : Fld := ⟨BOOT_FUSE_CTR, 8, 8⟩
def BOOT_MINVER : Nat := 0x34
def BOOT_KEYS : Nat := 0x38
def BOOT_KEYS.state : Fld := ⟨BOOT_KEYS, 0, 16⟩
def BOOT_KEYS.manifest_key : Fld := ⟨BOOT_KEYS, 16, 8⟩
def BOOT_KEYS.inventory_key : Fld := ⟨BOOT_KEYS, 24, 8⟩
def BOOT_FAIL : Nat := 0x3C
def BOOT_FAIL.result : Fld := ⟨BOOT_FAIL, 0, 8⟩
def BOOT_FAIL.stage : Fld := ⟨BOOT_FAIL, 8, 4⟩
def BOOT_FAIL.slot : Fld := ⟨BOOT_FAIL, 12, 1⟩
def BOOT_FAIL.detail : Fld := ⟨BOOT_FAIL, 16, 8⟩
def BOOT_FAIL.count : Fld := ⟨BOOT_FAIL, 24, 8⟩
def BOOT_THAW_US : Nat := 0x40
def BOOT_NONCE (i : Nat) : Nat := 0x50 + 0x4 * i
def BOOT_SLOT_MEAS (w : Nat) : Nat := 0xC0 + 0x4 * w
def BOOT_MEAS (s w : Nat) : Nat := 0x100 + 0x30 * s + 0x4 * w
def BOOT_PROV_CMD : Nat := 0x300
def BOOT_PROV_CMD.op : Fld := ⟨BOOT_PROV_CMD, 0, 3⟩
def BOOT_PROV_CMD.index : Fld := ⟨BOOT_PROV_CMD, 8, 3⟩
def BOOT_PROV_RESULT : Nat := 0x304
def BOOT_PROV_RESULT.result : Fld := ⟨BOOT_PROV_RESULT, 0, 4⟩
def BOOT_PROV_DATA (w : Nat) : Nat := 0x320 + 0x4 * w

/-! ### HOST -/

def HOST_STATUS : Nat := 0x80000
def HOST_STATUS.pcie_link : Fld := ⟨HOST_STATUS, 0, 1⟩
def HOST_STATUS.width : Fld := ⟨HOST_STATUS, 1, 2⟩
def HOST_STATUS.rate : Fld := ⟨HOST_STATUS, 3, 2⟩
def HOST_STATUS.spi_active : Fld := ⟨HOST_STATUS, 5, 1⟩
def HOST_EVENTS : Nat := 0x80004
def HOST_EVENTS.cmd_done : Fld := ⟨HOST_EVENTS, 0, 1⟩
def HOST_EVENTS.fq_rx : Fld := ⟨HOST_EVENTS, 1, 1⟩
def HOST_EVENTS.fq_tx_done : Fld := ⟨HOST_EVENTS, 2, 1⟩
def HOST_EVENTS.acc_err : Fld := ⟨HOST_EVENTS, 3, 1⟩
def HOST_EVENTS.squall : Fld := ⟨HOST_EVENTS, 4, 1⟩
def HOST_EVENTS.rung : Fld := ⟨HOST_EVENTS, 5, 1⟩
def HOST_EVENTS.fn_idle : Fld := ⟨HOST_EVENTS, 6, 1⟩
def HOST_EVENTS.ladder_exhausted : Fld := ⟨HOST_EVENTS, 7, 1⟩
def HOST_EVENTS.fq_drop : Fld := ⟨HOST_EVENTS, 8, 1⟩
def HOST_EVENT_EN : Nat := 0x80008
def HOST_EVENT_EN.en : Fld := ⟨HOST_EVENT_EN, 0, 9⟩
def HOST_CTRL : Nat := 0x8000C
def HOST_CTRL.lock : Fld := ⟨HOST_CTRL, 31, 1⟩
def HOST_ACC_STAT : Nat := 0x80010
def HOST_ACC_STAT.status : Fld := ⟨HOST_ACC_STAT, 0, 3⟩
def HOST_ACC_STAT.path : Fld := ⟨HOST_ACC_STAT, 3, 1⟩
def HOST_ACC_STAT.write : Fld := ⟨HOST_ACC_STAT, 4, 1⟩
def HOST_ACC_STAT.data_space : Fld := ⟨HOST_ACC_STAT, 5, 1⟩
def HOST_ACC_STAT.count : Fld := ⟨HOST_ACC_STAT, 24, 8⟩
def HOST_ACC_ADDR : Nat := 0x80014
def HOST_DWIN : Nat := 0x80018
def HOST_DWIN.base : Fld := ⟨HOST_DWIN, 24, 8⟩
def HOST_CMD_DOORBELL : Nat := 0x80020
def HOST_CMD_DOORBELL.length : Fld := ⟨HOST_CMD_DOORBELL, 0, 11⟩
def HOST_CMD_STATUS : Nat := 0x80024
def HOST_CMD_STATUS.state : Fld := ⟨HOST_CMD_STATUS, 0, 2⟩
def HOST_CMD_STATUS.refused : Fld := ⟨HOST_CMD_STATUS, 2, 1⟩
def HOST_CMD_STATUS.result : Fld := ⟨HOST_CMD_STATUS, 8, 8⟩
def HOST_CMD_STATUS.detail : Fld := ⟨HOST_CMD_STATUS, 16, 8⟩
def CMD_CTR_LO (k : Nat) : Nat := 0x80040 + 0x8 * k
def CMD_CTR_HI (k : Nat) : Nat := 0x80044 + 0x8 * k
def LADDER_STATUS : Nat := 0x80060
def LADDER_STATUS.resets : Fld := ⟨LADDER_STATUS, 0, 8⟩
def LADDER_STATUS.rung4 : Fld := ⟨LADDER_STATUS, 8, 8⟩
def LADDER_STATUS.ha : Fld := ⟨LADDER_STATUS, 16, 1⟩
def LADDER_STATUS.exhausted : Fld := ⟨LADDER_STATUS, 17, 1⟩
def LADDER_CFG0 : Nat := 0x80064
def LADDER_CFG0.fail_limit : Fld := ⟨LADDER_CFG0, 0, 4⟩
def LADDER_CFG0.reinit_limit : Fld := ⟨LADDER_CFG0, 8, 4⟩
def LADDER_CFG0.fail_window_ms : Fld := ⟨LADDER_CFG0, 16, 16⟩
def LADDER_CFG1 : Nat := 0x80068
def LADDER_CFG1.reinit_window_s : Fld := ⟨LADDER_CFG1, 0, 8⟩
def LADDER_CFG1.reset_limit : Fld := ⟨LADDER_CFG1, 8, 4⟩
def LADDER_CFG1.r4_limit : Fld := ⟨LADDER_CFG1, 12, 4⟩
def LADDER_CFG1.reset_window_s : Fld := ⟨LADDER_CFG1, 16, 16⟩
def LADDER_LAST : Nat := 0x8006C
def LADDER_LAST.rung : Fld := ⟨LADDER_LAST, 0, 2⟩
def LADDER_LAST.function : Fld := ⟨LADDER_LAST, 2, 4⟩
def LADDER_LAST.cause : Fld := ⟨LADDER_LAST, 6, 2⟩
def LADDER_LAST.count : Fld := ⟨LADDER_LAST, 8, 24⟩
def HOST_FN_STAT (f : Nat) : Nat := 0x80100 + 0x8 * f
def HOST_FN_STAT.mode (f : Nat) : Fld := ⟨HOST_FN_STAT f, 0, 1⟩
def HOST_FN_STAT.policy (f : Nat) : Fld := ⟨HOST_FN_STAT f, 1, 1⟩
def HOST_FN_STAT.override (f : Nat) : Fld := ⟨HOST_FN_STAT f, 2, 1⟩
def HOST_FN_STAT.state (f : Nat) : Fld := ⟨HOST_FN_STAT f, 3, 2⟩
def HOST_FN_COUNT (f : Nat) : Nat := 0x80104 + 0x8 * f
def HOST_FN_COUNT.fails (f : Nat) : Fld := ⟨HOST_FN_COUNT f, 0, 8⟩
def HOST_FN_COUNT.reinits (f : Nat) : Fld := ⟨HOST_FN_COUNT f, 8, 8⟩
def HOST_FN_COUNT.total (f : Nat) : Fld := ⟨HOST_FN_COUNT f, 16, 16⟩
def HOST_IRQ_SEL (v : Nat) : Nat := 0x80200 + 0x4 * v
def HOST_IRQ_SEL.event (v : Nat) : Fld := ⟨HOST_IRQ_SEL v, 0, 9⟩
def HOST_IRQ_SEL.tile (v : Nat) : Fld := ⟨HOST_IRQ_SEL v, 9, 5⟩
def HOST_IRQ_SEL.enable (v : Nat) : Fld := ⟨HOST_IRQ_SEL v, 15, 1⟩
def HOST_FQ_STATUS : Nat := 0x80400
def HOST_FQ_STATUS.tx_busy : Fld := ⟨HOST_FQ_STATUS, 0, 1⟩
def HOST_FQ_STATUS.rx_frames : Fld := ⟨HOST_FQ_STATUS, 8, 8⟩
def HOST_FQ_TX_GO : Nat := 0x80404
def HOST_FQ_TX_GO.length : Fld := ⟨HOST_FQ_TX_GO, 0, 11⟩
def HOST_FQ_TX_DATA : Nat := 0x80408
def HOST_FQ_RX_LEN : Nat := 0x8040C
def HOST_FQ_RX_LEN.length : Fld := ⟨HOST_FQ_RX_LEN, 0, 11⟩
def HOST_FQ_RX_DATA : Nat := 0x80410
def HOST_CMD_BUF (w : Nat) : Nat := 0x80800 + 0x4 * w

/-! ### FLT -/

def FLT_STATUS : Nat := 0x90000
def FLT_STATUS.level : Fld := ⟨FLT_STATUS, 0, 7⟩
def FLT_STATUS.next : Fld := ⟨FLT_STATUS, 8, 6⟩
def FLT_STATUS.overflow : Fld := ⟨FLT_STATUS, 16, 16⟩
def FLT_EVENTS : Nat := 0x90004
def FLT_EVENTS.wdt : Fld := ⟨FLT_EVENTS, 0, 24⟩
def FLT_EVENTS.fn_stall : Fld := ⟨FLT_EVENTS, 24, 1⟩
def FLT_EVENTS.logged : Fld := ⟨FLT_EVENTS, 25, 1⟩
def FLT_EVENTS.log_overflow : Fld := ⟨FLT_EVENTS, 26, 1⟩
def FLT_EVENTS.selftest_done : Fld := ⟨FLT_EVENTS, 27, 1⟩
def FLT_EVENTS.uncorr : Fld := ⟨FLT_EVENTS, 28, 1⟩
def FLT_EVENTS.plaus : Fld := ⟨FLT_EVENTS, 29, 1⟩
def FLT_EVENT_EN : Nat := 0x90008
def FLT_EVENT_EN.en : Fld := ⟨FLT_EVENT_EN, 0, 30⟩
def FLT_CTRL : Nat := 0x9000C
def FLT_CTRL.clear_log : Fld := ⟨FLT_CTRL, 0, 1⟩
def FLT_CTRL.lock : Fld := ⟨FLT_CTRL, 31, 1⟩
def FLT_SELFTEST : Nat := 0x90010
def FLT_SELFTEST.req : Fld := ⟨FLT_SELFTEST, 0, 1⟩
def FLT_SELFTEST.done : Fld := ⟨FLT_SELFTEST, 1, 1⟩
def FLT_SELFTEST.pass : Fld := ⟨FLT_SELFTEST, 2, 1⟩
def FLT_SELFTEST.failed : Fld := ⟨FLT_SELFTEST, 16, 16⟩
def WDT_CFG (t : Nat) : Nat := 0x90100 + 0x10 * t
def WDT_CFG.enable (t : Nat) : Fld := ⟨WDT_CFG t, 0, 1⟩
def WDT_CFG.action (t : Nat) : Fld := ⟨WDT_CFG t, 1, 2⟩
def WDT_CFG.open_us (t : Nat) : Fld := ⟨WDT_CFG t, 16, 8⟩
def WDT_CFG.close_us (t : Nat) : Fld := ⟨WDT_CFG t, 24, 8⟩
def WDT_SERVICE (t : Nat) : Nat := 0x90104 + 0x10 * t
def WDT_STAT (t : Nat) : Nat := 0x90108 + 0x10 * t
def WDT_STAT.early (t : Nat) : Fld := ⟨WDT_STAT t, 0, 8⟩
def WDT_STAT.late (t : Nat) : Fld := ⟨WDT_STAT t, 8, 8⟩
def WDT_STAT.bad (t : Nat) : Fld := ⟨WDT_STAT t, 16, 8⟩
def WDT_STAT.backstop (t : Nat) : Fld := ⟨WDT_STAT t, 24, 8⟩
def WDT_BACKSTOP (t : Nat) : Nat := 0x9010C + 0x10 * t
def WDT_BACKSTOP.backstop (t : Nat) : Fld := ⟨WDT_BACKSTOP t, 0, 16⟩
def FWD_CFG (f : Nat) : Nat := 0x90300 + 0x8 * f
def FWD_CFG.timeout_us (f : Nat) : Fld := ⟨FWD_CFG f, 0, 24⟩
def FWD_STAT (f : Nat) : Nat := 0x90304 + 0x8 * f
def FWD_STAT.busy (f : Nat) : Fld := ⟨FWD_STAT f, 0, 1⟩
def FWD_STAT.stalls (f : Nat) : Fld := ⟨FWD_STAT f, 8, 8⟩
def FLT_LOG (i w : Nat) : Nat := 0x91000 + 0x10 * i + 0x4 * w

/-! ### The maps as data -/

/-- The register rows of the INV block, offsets from the block's base. -/
def rowsINV : List RegRow := [
  ⟨0x0, 0x1000000, 1, 0x1000000, 1, 0x1000000, 1, 0x0, 0x0, 0x0, 0x0, 0x0⟩,
  ⟨0x4, 0x1000000, 1, 0x1000000, 1, 0x1000000, 1, 0x0, 0x0, 0x0, 0x0, 0x0⟩,
  ⟨0x8, 0x1000000, 1, 0x1000000, 1, 0x4, 3, 0x0, 0x0, 0x0, 0x0, 0x0⟩,
  ⟨0x14, 0x1000000, 1, 0x1000000, 1, 0x1000000, 1, 0x0, 0x0, 0x0, 0x0, 0x0⟩,
  ⟨0x18, 0x1000000, 1, 0x1000000, 1, 0x1000000, 1, 0x0, 0x0, 0x0, 0x0, 0x0⟩,
  ⟨0x1C, 0x1000000, 1, 0x1000000, 1, 0x1000000, 1, 0x0, 0x0, 0x0, 0x0, 0x0⟩,
  ⟨0x20, 0x1000000, 1, 0x1000000, 1, 0x1000000, 1, 0x0, 0x0, 0x0, 0x0, 0x0⟩,
  ⟨0x24, 0x1000000, 1, 0x1000000, 1, 0x4, 3, 0x0, 0x0, 0x0, 0x0, 0x0⟩,
  ⟨0x30, 0x1000000, 1, 0x1000000, 1, 0x1000000, 1, 0x0, 0x0, 0x0, 0x0, 0x0⟩,
  ⟨0x34, 0x1000000, 1, 0x1000000, 1, 0x1000000, 1, 0x0, 0x0, 0x0, 0x0, 0x0⟩,
  ⟨0x38, 0x1000000, 1, 0x1000000, 1, 0x1000000, 1, 0x0, 0x0, 0x0, 0xFF, 0x0⟩,
  ⟨0x3C, 0x1000000, 1, 0x1000000, 1, 0x1000000, 1, 0x0, 0x0, 0x0, 0x0, 0x0⟩]

/-- The register rows of the BEACON block, offsets from the block's base. -/
def rowsBEACON : List RegRow := [
  ⟨0x0, 0x1000000, 1, 0x1000000, 1, 0x1000000, 1, 0x0, 0x0, 0x0, 0x0, 0x0⟩,
  ⟨0x4, 0x1000000, 1, 0x1000000, 1, 0x1000000, 1, 0x0, 0x0, 0x0, 0x0, 0x0⟩,
  ⟨0x100, 0x1000000, 1, 0x1000000, 1, 0x10, 64, 0x0, 0x0, 0x0, 0x0, 0x0⟩,
  ⟨0x104, 0x1000000, 1, 0x1000000, 1, 0x10, 64, 0x0, 0x0, 0x0, 0x0, 0x0⟩,
  ⟨0x108, 0x1000000, 1, 0x1000000, 1, 0x10, 64, 0x0, 0x0, 0x0, 0x0, 0x0⟩,
  ⟨0x10C, 0x1000000, 1, 0x1000000, 1, 0x10, 64, 0x0, 0x0, 0x0, 0x0, 0x0⟩]

/-- The register rows of the CLK block, offsets from the block's base. -/
def rowsCLK : List RegRow := [
  ⟨0x0, 0x1000000, 1, 0x1000000, 1, 0x1000000, 1, 0x8FE00, 0x0, 0x0, 0x0, 0x0⟩,
  ⟨0x4, 0x1000000, 1, 0x1000000, 1, 0x1000000, 1, 0x0, 0x0, 0x0, 0x7FF, 0x0⟩,
  ⟨0x8, 0x1000000, 1, 0x1000000, 1, 0x1000000, 1, 0x7FF, 0x7FF, 0x0, 0x0, 0x0⟩,
  ⟨0xC, 0x1000000, 1, 0x1000000, 1, 0x1000000, 1, 0x3E8, 0x0, 0xFFFF, 0x0, 0x80000000⟩,
  ⟨0x10, 0x1000000, 1, 0x1000000, 1, 0x1000000, 1, 0x0, 0x0, 0x0, 0x0, 0x0⟩,
  ⟨0x14, 0x1000000, 1, 0x1000000, 1, 0x1000000, 1, 0xFF03, 0x0, 0x0, 0x0, 0x0⟩,
  ⟨0x18, 0x1000000, 1, 0x1000000, 1, 0x1000000, 1, 0xFF0A0908, 0x0, 0x0, 0x0, 0x0⟩,
  ⟨0x1C, 0x1000000, 1, 0x1000000, 1, 0x4, 2, 0xFFFFFFFF, 0x0, 0x0, 0x0, 0x0⟩,
  ⟨0x24, 0x1000000, 1, 0x1000000, 1, 0x1000000, 1, 0x0, 0x0, 0x0, 0x0, 0x0⟩,
  ⟨0x28, 0x1000000, 1, 0x1000000, 1, 0x1000000, 1, 0x0, 0x0, 0x0, 0x0, 0x0⟩,
  ⟨0x2C, 0x1000000, 1, 0x1000000, 1, 0x1000000, 1, 0x0, 0x0, 0x0, 0x0, 0x0⟩,
  ⟨0x30, 0x1000000, 1, 0x1000000, 1, 0x1000000, 1, 0x0, 0x0, 0x0, 0x0, 0x0⟩,
  ⟨0x34, 0x1000000, 1, 0x1000000, 1, 0x1000000, 1, 0x0, 0x0, 0x0, 0x0, 0x0⟩,
  ⟨0x38, 0x1000000, 1, 0x1000000, 1, 0x1000000, 1, 0x0, 0x0, 0x0, 0x0, 0x0⟩,
  ⟨0x3C, 0x1000000, 1, 0x1000000, 1, 0x1000000, 1, 0x0, 0x0, 0x0, 0x1, 0x0⟩,
  ⟨0x100, 0x1000000, 1, 0x1000000, 1, 0x4, 11, 0x80000000, 0x0, 0x0, 0x0, 0x0⟩]

/-- The register rows of the TT block, offsets from the block's base. -/
def rowsTT : List RegRow := [
  ⟨0x0, 0x1000000, 1, 0x1000000, 1, 0x1000000, 1, 0x0, 0x0, 0x0, 0x0, 0x0⟩,
  ⟨0x4, 0x1000000, 1, 0x1000000, 1, 0x1000000, 1, 0x0, 0x0, 0x0, 0x0, 0x0⟩,
  ⟨0x8, 0x1000000, 1, 0x1000000, 1, 0x1000000, 1, 0x0, 0x0, 0x0, 0x0, 0x0⟩,
  ⟨0xC, 0x1000000, 1, 0x1000000, 1, 0x1000000, 1, 0xF000, 0x0, 0x0, 0x0, 0x0⟩,
  ⟨0x10, 0x1000000, 1, 0x1000000, 1, 0x1000000, 1, 0x0, 0x0, 0x0, 0xFF, 0x0⟩,
  ⟨0x14, 0x1000000, 1, 0x1000000, 1, 0x1000000, 1, 0xFF, 0xFF, 0x0, 0x0, 0x0⟩,
  ⟨0x18, 0x1000000, 1, 0x1000000, 1, 0x1000000, 1, 0xD0640A, 0x0, 0x7FFFFFFF, 0x0, 0x80000000⟩,
  ⟨0x1C, 0x1000000, 1, 0x1000000, 1, 0x1000000, 1, 0x2AAAAAA, 0xFFFFFFFF, 0x0, 0x0, 0x0⟩,
  ⟨0x20, 0x1000000, 1, 0x1000000, 1, 0x1000000, 1, 0xAAAAAAAA, 0xFFFFFFFF, 0x0, 0x0, 0x0⟩,
  ⟨0x24, 0x1000000, 1, 0x1000000, 1, 0x1000000, 1, 0x0, 0x0, 0x0, 0x0, 0x0⟩,
  ⟨0x28, 0x1000000, 1, 0x1000000, 1, 0x1000000, 1, 0x34, 0x3FF, 0x0, 0x0, 0x0⟩,
  ⟨0x2C, 0x1000000, 1, 0x1000000, 1, 0x1000000, 1, 0x0, 0x0, 0x0, 0x0, 0x0⟩,
  ⟨0x30, 0x1000000, 1, 0x1000000, 1, 0x1000000, 1, 0x0, 0xFFFFFFFF, 0x0, 0x0, 0x0⟩,
  ⟨0x34, 0x1000000, 1, 0x1000000, 1, 0x1000000, 1, 0x0, 0xFFFFFFFF, 0x0, 0x0, 0x0⟩,
  ⟨0x38, 0x1000000, 1, 0x1000000, 1, 0x1000000, 1, 0x0, 0x0, 0x0, 0x0, 0x0⟩,
  ⟨0x3C, 0x1000000, 1, 0x1000000, 1, 0x1000000, 1, 0x0, 0x0, 0x0, 0x0, 0x0⟩,
  ⟨0x40, 0x1000000, 1, 0x1000000, 1, 0x1000000, 1, 0x0, 0x0, 0x0, 0x0, 0x0⟩,
  ⟨0x44, 0x1000000, 1, 0x1000000, 1, 0x1000000, 1, 0xF0000, 0x0, 0x0, 0x0, 0x0⟩,
  ⟨0x100, 0x1000000, 1, 0x1000000, 1, 0x10, 4, 0xFF00, 0xFFFF, 0x0, 0x0, 0x10000⟩,
  ⟨0x104, 0x1000000, 1, 0x1000000, 1, 0x10, 4, 0x0, 0x0, 0x0, 0x0, 0x0⟩,
  ⟨0x108, 0x1000000, 1, 0x1000000, 1, 0x10, 4, 0x0, 0x0, 0x0, 0x0, 0x0⟩,
  ⟨0x10C, 0x1000000, 1, 0x1000000, 1, 0x10, 4, 0x0, 0x0, 0x0, 0x0, 0x0⟩,
  ⟨0x200, 0x1000000, 1, 0x1000000, 1, 0x8, 8, 0x0, 0x0, 0xFFFFFFFF, 0x0, 0x0⟩,
  ⟨0x204, 0x1000000, 1, 0x1000000, 1, 0x8, 8, 0xFFFFFFFF, 0x0, 0x0, 0x0, 0x0⟩]

/-- The register rows of the TILE block, offsets from the block's base. -/
def rowsTILE0 : List RegRow := [
  ⟨0x0, 0x1000000, 1, 0x1000000, 1, 0x1000000, 1, 0x0, 0x0, 0x0, 0x0, 0x0⟩,
  ⟨0x4, 0x1000000, 1, 0x1000000, 1, 0x1000000, 1, 0x0, 0x0, 0x0, 0x1F, 0x0⟩,
  ⟨0x8, 0x1000000, 1, 0x1000000, 1, 0x1000000, 1, 0x1F, 0x1F, 0x0, 0x0, 0x0⟩,
  ⟨0xC, 0x1000000, 1, 0x1000000, 1, 0x1000000, 1, 0x0, 0x0, 0x0, 0x0, 0x1⟩,
  ⟨0x10, 0x1000000, 1, 0x1000000, 1, 0x1000000, 1, 0x0, 0x0, 0x0, 0x0, 0x0⟩,
  ⟨0x14, 0x1000000, 1, 0x1000000, 1, 0x1000000, 1, 0x0, 0x0, 0x0, 0x0, 0x0⟩,
  ⟨0x18, 0x1000000, 1, 0x1000000, 1, 0x1000000, 1, 0x0, 0x0, 0x0, 0x0, 0x0⟩,
  ⟨0x1C, 0x1000000, 1, 0x1000000, 1, 0x1000000, 1, 0x0, 0x0, 0x0, 0x0, 0x0⟩,
  ⟨0x100, 0x1000000, 1, 0x40, 2, 0x4, 14, 0x0, 0x0, 0x0, 0x0, 0x0⟩,
  ⟨0x400, 0x1000000, 1, 0x1000000, 1, 0x1000000, 1, 0x0, 0x0, 0x0, 0x0, 0x0⟩,
  ⟨0x404, 0x1000000, 1, 0x1000000, 1, 0x1000000, 1, 0x0, 0x0, 0x0, 0x0, 0x0⟩,
  ⟨0x408, 0x1000000, 1, 0x1000000, 1, 0x1000000, 1, 0x0, 0x0, 0x0, 0x0, 0x0⟩,
  ⟨0x40C, 0x1000000, 1, 0x1000000, 1, 0x1000000, 1, 0x0, 0x0, 0x0, 0x0, 0x0⟩,
  ⟨0x410, 0x1000000, 1, 0x1000000, 1, 0x1000000, 1, 0x0, 0x2, 0x0, 0x0, 0x0⟩,
  ⟨0x1000, 0x1000000, 1, 0x1000000, 1, 0x4, 16, 0x0, 0x0, 0x0, 0x0, 0x0⟩,
  ⟨0x1080, 0x1000000, 1, 0x1000000, 1, 0x1000000, 1, 0x0, 0x0, 0x0, 0xFFFF, 0x0⟩,
  ⟨0x1088, 0x1000000, 1, 0x1000000, 1, 0x1000000, 1, 0x0, 0x0, 0x0, 0x0, 0x0⟩,
  ⟨0x1800, 0x1000000, 1, 0x1000000, 1, 0x4, 512, 0xF0, 0x1F1, 0x0, 0x0, 0x0⟩,
  ⟨0x2000, 0x1000000, 1, 0x1000000, 1, 0x1000000, 1, 0x0, 0x0, 0x0, 0x0, 0xFFFF⟩,
  ⟨0x4000, 0x1000000, 1, 0x1000000, 1, 0x1000, 2, 0x0, 0xFFFFFFFF, 0x0, 0x0, 0x0⟩,
  ⟨0x4004, 0x1000000, 1, 0x1000000, 1, 0x1000, 2, 0x0, 0x0, 0x0, 0x0, 0x0⟩,
  ⟨0x4008, 0x1000000, 1, 0x1000000, 1, 0x1000, 2, 0x0, 0x0, 0x0, 0x0, 0x0⟩,
  ⟨0x400C, 0x1000000, 1, 0x1000000, 1, 0x1000, 2, 0x0, 0x0, 0x0, 0x0, 0x0⟩,
  ⟨0x4010, 0x1000000, 1, 0x1000000, 1, 0x1000, 2, 0x0, 0x0, 0x0, 0x0, 0x0⟩,
  ⟨0x4040, 0x1000000, 1, 0x1000, 2, 0x4, 16, 0x0, 0xFFFFFFFF, 0x0, 0x0, 0x0⟩]
/-- More rows of the same map. -/
def rowsTILE1 : List RegRow := [
  ⟨0x4100, 0x1000000, 1, 0x1000, 2, 0x80, 4, 0x0, 0x0, 0x0, 0x0, 0x0⟩,
  ⟨0x4104, 0x1000000, 1, 0x1000, 2, 0x80, 4, 0x0, 0x0, 0x0, 0x0, 0x0⟩,
  ⟨0x4108, 0x1000000, 1, 0x1000, 2, 0x80, 4, 0x0, 0x0, 0x0, 0x0, 0x0⟩,
  ⟨0x410C, 0x1000000, 1, 0x1000, 2, 0x80, 4, 0x0, 0x0, 0x0, 0x0, 0x0⟩,
  ⟨0x4110, 0x1000000, 1, 0x1000, 2, 0x80, 4, 0x0, 0x0, 0x0, 0x0, 0x0⟩,
  ⟨0x4114, 0x1000000, 1, 0x1000, 2, 0x80, 4, 0x0, 0x0, 0x0, 0x0, 0x0⟩,
  ⟨0x4140, 0x1000, 2, 0x80, 4, 0x4, 16, 0x0, 0x0, 0x0, 0x0, 0x0⟩,
  ⟨0x6000, 0x1000000, 1, 0x1000000, 1, 0x1000000, 1, 0x0, 0x0, 0x0, 0x3C00, 0x0⟩,
  ⟨0x6004, 0x1000000, 1, 0x1000000, 1, 0x1000000, 1, 0xFFF, 0x3FFF, 0x0, 0x0, 0x0⟩,
  ⟨0x8000, 0x1000000, 1, 0x1000000, 1, 0x1000000, 1, 0x0, 0x0, 0x0, 0x0, 0x0⟩,
  ⟨0x8004, 0x1000000, 1, 0x1000000, 1, 0x1000000, 1, 0x0, 0x0, 0x0, 0xFFFF, 0x0⟩,
  ⟨0x8008, 0x1000000, 1, 0x1000000, 1, 0x1000000, 1, 0xFFFF, 0xFFFF, 0x0, 0x0, 0x0⟩,
  ⟨0x8100, 0x1000000, 1, 0x1000000, 1, 0x80, 4, 0x0, 0x3FFFF, 0x0, 0x0, 0x0⟩,
  ⟨0x8104, 0x1000000, 1, 0x1000000, 1, 0x80, 4, 0x0, 0x0, 0x0, 0x0, 0x0⟩,
  ⟨0x8108, 0x1000000, 1, 0x1000000, 1, 0x80, 4, 0x0, 0x0, 0x0, 0x0, 0x0⟩,
  ⟨0x810C, 0x1000000, 1, 0x1000000, 1, 0x80, 4, 0x0, 0xFFFFFFFF, 0x0, 0x0, 0x0⟩,
  ⟨0x8110, 0x1000000, 1, 0x1000000, 1, 0x80, 4, 0x0, 0xFFFFFFFF, 0x0, 0x0, 0x0⟩,
  ⟨0x8114, 0x1000000, 1, 0x1000000, 1, 0x80, 4, 0x0, 0xFFFFFF, 0x0, 0x0, 0x0⟩,
  ⟨0x8118, 0x1000000, 1, 0x1000000, 1, 0x80, 4, 0x0, 0xFFFF01FF, 0x0, 0x0, 0x0⟩,
  ⟨0x811C, 0x1000000, 1, 0x1000000, 1, 0x80, 4, 0x0, 0xFFFF, 0x0, 0x0, 0x0⟩,
  ⟨0x8120, 0x1000000, 1, 0x1000000, 1, 0x80, 4, 0x0, 0xFFFFFFFF, 0x0, 0x0, 0x0⟩,
  ⟨0x8124, 0x1000000, 1, 0x1000000, 1, 0x80, 4, 0x0, 0xFFFFFFFF, 0x0, 0x0, 0x0⟩,
  ⟨0x8128, 0x1000000, 1, 0x1000000, 1, 0x80, 4, 0x0, 0x0, 0x0, 0x0, 0x0⟩,
  ⟨0x812C, 0x1000000, 1, 0x1000000, 1, 0x80, 4, 0x0, 0xFFFFFFFF, 0x0, 0x0, 0x0⟩,
  ⟨0x8130, 0x1000000, 1, 0x1000000, 1, 0x80, 4, 0x0, 0x0, 0x0, 0x0, 0x0⟩]
/-- More rows of the same map. -/
def rowsTILE2 : List RegRow := [
  ⟨0x8134, 0x1000000, 1, 0x1000000, 1, 0x80, 4, 0x0, 0x0, 0x0, 0x0, 0x0⟩,
  ⟨0x8138, 0x1000000, 1, 0x1000000, 1, 0x80, 4, 0x0, 0x0, 0x0, 0x0, 0x0⟩,
  ⟨0x813C, 0x1000000, 1, 0x1000000, 1, 0x80, 4, 0x0, 0x0, 0x0, 0x0, 0x0⟩,
  ⟨0x8140, 0x1000000, 1, 0x1000000, 1, 0x80, 4, 0x0, 0x0, 0x0, 0x0, 0x0⟩]
/-- The register rows of the TILE block, offsets from the block's base. -/
def rowsTILE : List RegRow := rowsTILE0 ++ rowsTILE1 ++ rowsTILE2

/-- The register rows of the CDMA block, offsets from the block's base. -/
def rowsCDMA : List RegRow := [
  ⟨0x0, 0x1000000, 1, 0x1000000, 1, 0x1000000, 1, 0x0, 0x0, 0x0, 0x0, 0x0⟩,
  ⟨0x4, 0x1000000, 1, 0x1000000, 1, 0x1000000, 1, 0x0, 0x0, 0x0, 0x7FFFFFF, 0x0⟩,
  ⟨0x8, 0x1000000, 1, 0x1000000, 1, 0x1000000, 1, 0x7FFFFFF, 0x7FFFFFF, 0x0, 0x0, 0x0⟩,
  ⟨0xC, 0x1000000, 1, 0x1000000, 1, 0x1000000, 1, 0x0, 0x0, 0x0, 0x0, 0x0⟩,
  ⟨0x10, 0x1000000, 1, 0x1000000, 1, 0x1000000, 1, 0x0, 0x0, 0x0, 0x0, 0x0⟩,
  ⟨0x100, 0x1000000, 1, 0x1000000, 1, 0x80, 8, 0x0, 0x3FFFF, 0x0, 0x0, 0x0⟩,
  ⟨0x104, 0x1000000, 1, 0x1000000, 1, 0x80, 8, 0x0, 0x0, 0x0, 0x0, 0x0⟩,
  ⟨0x108, 0x1000000, 1, 0x1000000, 1, 0x80, 8, 0x0, 0x0, 0x0, 0x0, 0x0⟩,
  ⟨0x10C, 0x1000000, 1, 0x1000000, 1, 0x80, 8, 0x0, 0xFFFFFFFF, 0x0, 0x0, 0x0⟩,
  ⟨0x110, 0x1000000, 1, 0x1000000, 1, 0x80, 8, 0x0, 0xFFFFFFFF, 0x0, 0x0, 0x0⟩,
  ⟨0x114, 0x1000000, 1, 0x1000000, 1, 0x80, 8, 0x0, 0xFFFFFF, 0x0, 0x0, 0x0⟩,
  ⟨0x118, 0x1000000, 1, 0x1000000, 1, 0x80, 8, 0x0, 0xFFFF01FF, 0x0, 0x0, 0x0⟩,
  ⟨0x11C, 0x1000000, 1, 0x1000000, 1, 0x80, 8, 0x0, 0xFFFF, 0x0, 0x0, 0x0⟩,
  ⟨0x120, 0x1000000, 1, 0x1000000, 1, 0x80, 8, 0x0, 0xFFFFFFFF, 0x0, 0x0, 0x0⟩,
  ⟨0x124, 0x1000000, 1, 0x1000000, 1, 0x80, 8, 0x0, 0xFFFFFFFF, 0x0, 0x0, 0x0⟩,
  ⟨0x128, 0x1000000, 1, 0x1000000, 1, 0x80, 8, 0x0, 0x0, 0x0, 0x0, 0x0⟩,
  ⟨0x12C, 0x1000000, 1, 0x1000000, 1, 0x80, 8, 0x0, 0xFFFFFFFF, 0x0, 0x0, 0x0⟩,
  ⟨0x130, 0x1000000, 1, 0x1000000, 1, 0x80, 8, 0x0, 0x0, 0x0, 0x0, 0x0⟩,
  ⟨0x134, 0x1000000, 1, 0x1000000, 1, 0x80, 8, 0x0, 0x0, 0x0, 0x0, 0x0⟩,
  ⟨0x138, 0x1000000, 1, 0x1000000, 1, 0x80, 8, 0x0, 0x0, 0x0, 0x0, 0x0⟩,
  ⟨0x13C, 0x1000000, 1, 0x1000000, 1, 0x80, 8, 0x0, 0x0, 0x0, 0x0, 0x0⟩,
  ⟨0x140, 0x1000000, 1, 0x1000000, 1, 0x80, 8, 0x0, 0x0, 0x0, 0x0, 0x0⟩]

/-- The register rows of the ROLE block, offsets from the block's base. -/
def rowsROLE : List RegRow := [
  ⟨0x0, 0x1000000, 1, 0x1000000, 1, 0x4, 4096, 0x0, 0x0, 0x0, 0x0, 0x0⟩]

/-- The register rows of the VOTE block, offsets from the block's base. -/
def rowsVOTE : List RegRow := [
  ⟨0x0, 0x1000000, 1, 0x1000000, 1, 0x1000000, 1, 0x0, 0x0, 0x0, 0x0, 0x0⟩,
  ⟨0x4, 0x1000000, 1, 0x1000000, 1, 0x1000000, 1, 0x0, 0x0, 0x0, 0x3FFFF, 0x0⟩,
  ⟨0x8, 0x1000000, 1, 0x1000000, 1, 0x1000000, 1, 0x3FFFF, 0x3FFFF, 0x0, 0x0, 0x0⟩,
  ⟨0xC, 0x1000000, 1, 0x1000000, 1, 0x1000000, 1, 0x0, 0x0, 0x0, 0x0, 0x0⟩,
  ⟨0x10, 0x1000000, 1, 0x1000000, 1, 0x1000000, 1, 0x0, 0x0, 0x0, 0x0, 0x0⟩,
  ⟨0x14, 0x1000000, 1, 0x1000000, 1, 0x4, 3, 0x0, 0x0, 0x0, 0x0, 0x0⟩,
  ⟨0x20, 0x1000000, 1, 0x1000000, 1, 0x1000000, 1, 0x0, 0x0, 0x0, 0x0, 0x0⟩,
  ⟨0x100, 0x1000000, 1, 0x1000000, 1, 0x20, 12, 0x0, 0x0, 0x0, 0x0, 0x0⟩,
  ⟨0x104, 0x1000000, 1, 0x1000000, 1, 0x20, 12, 0xFF000000, 0x0, 0x0, 0x0, 0x0⟩,
  ⟨0x108, 0x1000000, 1, 0x1000000, 1, 0x20, 12, 0x0, 0x0, 0x0, 0x0, 0x0⟩,
  ⟨0x10C, 0x1000000, 1, 0x1000000, 1, 0x20, 12, 0x0, 0x0, 0x0, 0x0, 0x0⟩,
  ⟨0x110, 0x1000000, 1, 0x1000000, 1, 0x20, 12, 0x0, 0x0, 0x0, 0x0, 0x0⟩,
  ⟨0x114, 0x1000000, 1, 0x1000000, 1, 0x20, 12, 0x0, 0x0, 0x0, 0x0, 0x0⟩,
  ⟨0x118, 0x1000000, 1, 0x1000000, 1, 0x20, 12, 0x0, 0x0, 0x0, 0x0, 0x0⟩,
  ⟨0x11C, 0x1000000, 1, 0x1000000, 1, 0x20, 12, 0x0, 0x0, 0x0, 0x0, 0x0⟩,
  ⟨0x1000, 0x1000000, 1, 0x200, 12, 0x10, 32, 0x0, 0x0, 0x0, 0x0, 0x0⟩,
  ⟨0x1004, 0x1000000, 1, 0x200, 12, 0x10, 32, 0x0, 0x7FF, 0x0, 0x0, 0x0⟩,
  ⟨0x1008, 0x1000000, 1, 0x200, 12, 0x10, 32, 0x0, 0xFFFFFFFF, 0x0, 0x0, 0x0⟩,
  ⟨0x100C, 0x1000000, 1, 0x200, 12, 0x10, 32, 0x0, 0x0, 0x0, 0x0, 0x0⟩]

/-- The register rows of the SHELF block, offsets from the block's base. -/
def rowsSHELF : List RegRow := [
  ⟨0x0, 0x1000000, 1, 0x1000000, 1, 0x1000000, 1, 0x0, 0x0, 0x0, 0x0, 0x0⟩,
  ⟨0x4, 0x1000000, 1, 0x1000000, 1, 0x1000000, 1, 0x0, 0x0, 0x0, 0x0, 0x0⟩,
  ⟨0x8, 0x1000000, 1, 0x1000000, 1, 0x1000000, 1, 0x0, 0x0, 0x0, 0x0, 0x0⟩,
  ⟨0x400, 0x1000000, 1, 0x1000000, 1, 0x80, 64, 0x0, 0x0, 0x0, 0x0, 0x0⟩,
  ⟨0x404, 0x1000000, 1, 0x1000000, 1, 0x80, 64, 0x0, 0x0, 0x0, 0x0, 0x0⟩,
  ⟨0x410, 0x1000000, 1, 0x80, 64, 0x4, 4, 0x0, 0x0, 0x0, 0x0, 0x0⟩,
  ⟨0x440, 0x1000000, 1, 0x80, 64, 0x4, 16, 0x0, 0x0, 0x0, 0x0, 0x0⟩]

/-- The register rows of the MEM block, offsets from the block's base. -/
def rowsMEM : List RegRow := [
  ⟨0x0, 0x1000000, 1, 0x1000000, 1, 0x1000000, 1, 0x1, 0x0, 0x0, 0x0, 0x0⟩,
  ⟨0x4, 0x1000000, 1, 0x1000000, 1, 0x1000000, 1, 0x0, 0x0, 0x0, 0x7FF, 0x0⟩,
  ⟨0x8, 0x1000000, 1, 0x1000000, 1, 0x1000000, 1, 0x7FF, 0x7FF, 0x0, 0x0, 0x0⟩,
  ⟨0xC, 0x1000000, 1, 0x1000000, 1, 0x1000000, 1, 0x0, 0x0, 0x1, 0x0, 0x80000000⟩,
  ⟨0x10, 0x1000000, 1, 0x1000000, 1, 0x1000000, 1, 0x0, 0x0, 0x0, 0x0, 0x0⟩,
  ⟨0x14, 0x1000000, 1, 0x1000000, 1, 0x1000000, 1, 0x0, 0x0, 0x0, 0x0, 0x0⟩,
  ⟨0x18, 0x1000000, 1, 0x1000000, 1, 0x1000000, 1, 0x0, 0x0, 0x0, 0x0, 0x0⟩,
  ⟨0x1C, 0x1000000, 1, 0x1000000, 1, 0x1000000, 1, 0x0, 0x0, 0x0, 0x0, 0x0⟩,
  ⟨0x100, 0x1000000, 1, 0x1000000, 1, 0x10, 64, 0x0, 0x7, 0x0, 0x0, 0x0⟩,
  ⟨0x104, 0x1000000, 1, 0x1000000, 1, 0x10, 64, 0x3, 0x0, 0x0, 0x0, 0x0⟩,
  ⟨0x108, 0x1000000, 1, 0x1000000, 1, 0x10, 64, 0x0, 0x0, 0x0, 0x0, 0x0⟩,
  ⟨0x600, 0x1000000, 1, 0x1000000, 1, 0x1000000, 1, 0x0, 0x0, 0x0, 0x0, 0x0⟩,
  ⟨0x604, 0x1000000, 1, 0x1000000, 1, 0x1000000, 1, 0x0, 0x0, 0x0, 0x0, 0x0⟩,
  ⟨0x700, 0x1000000, 1, 0x1000000, 1, 0x1000000, 1, 0x0, 0x0, 0x0, 0x0, 0x0⟩,
  ⟨0x704, 0x1000000, 1, 0x1000000, 1, 0x1000000, 1, 0x0, 0x0, 0x0, 0x0, 0x0⟩,
  ⟨0x8000, 0x1000000, 1, 0x200, 64, 0x4, 86, 0x0, 0x0, 0x0, 0x0, 0x0⟩]

/-- The register rows of the CMEM block, offsets from the block's base. -/
def rowsCMEM : List RegRow := [
  ⟨0x4, 0x1000000, 1, 0x1000000, 1, 0x1000000, 1, 0x0, 0x0, 0x0, 0xFF, 0x0⟩,
  ⟨0x8, 0x1000000, 1, 0x1000000, 1, 0x1000000, 1, 0xFF, 0xFF, 0x0, 0x0, 0x0⟩,
  ⟨0xC, 0x1000000, 1, 0x1000000, 1, 0x1000000, 1, 0x0, 0x0, 0x1, 0x0, 0x80000000⟩,
  ⟨0x10, 0x1000000, 1, 0x1000000, 1, 0x1000000, 1, 0x0, 0x0, 0x0, 0x0, 0x0⟩,
  ⟨0x14, 0x1000000, 1, 0x1000000, 1, 0x1000000, 1, 0x0, 0x0, 0x0, 0x0, 0x0⟩,
  ⟨0x18, 0x1000000, 1, 0x1000000, 1, 0x1000000, 1, 0x0, 0x0, 0x0, 0x0, 0x0⟩,
  ⟨0x1C, 0x1000000, 1, 0x1000000, 1, 0x1000000, 1, 0x0, 0x0, 0x0, 0x0, 0x0⟩,
  ⟨0x20, 0x1000000, 1, 0x1000000, 1, 0x1000000, 1, 0x0, 0x0, 0x0, 0x0, 0x0⟩,
  ⟨0x100, 0x1000000, 1, 0x1000000, 1, 0x10, 16, 0x0, 0x7, 0x0, 0x0, 0x0⟩,
  ⟨0x104, 0x1000000, 1, 0x1000000, 1, 0x10, 16, 0x3, 0x0, 0x0, 0x0, 0x0⟩,
  ⟨0x108, 0x1000000, 1, 0x1000000, 1, 0x10, 16, 0x0, 0x0, 0x0, 0x0, 0x0⟩,
  ⟨0x1000, 0x1000000, 1, 0x200, 16, 0x4, 86, 0x0, 0x0, 0x0, 0x0, 0x0⟩]

/-- The register rows of the ADC block, offsets from the block's base. -/
def rowsADC : List RegRow := [
  ⟨0x0, 0x1000000, 1, 0x1000000, 1, 0x1000000, 1, 0x0, 0x0, 0x0, 0x0, 0x0⟩,
  ⟨0x4, 0x1000000, 1, 0x1000000, 1, 0x1000000, 1, 0x0, 0x0, 0x0, 0xFFFF, 0x0⟩,
  ⟨0x8, 0x1000000, 1, 0x1000000, 1, 0x1000000, 1, 0xFFDF, 0xFFFF, 0x0, 0x0, 0x0⟩,
  ⟨0xC, 0x1000000, 1, 0x1000000, 1, 0x1000000, 1, 0x0, 0x0, 0x1, 0x0, 0x80000000⟩,
  ⟨0x10, 0x1000000, 1, 0x1000000, 1, 0x1000000, 1, 0x8, 0x0, 0xFFF, 0x0, 0x0⟩,
  ⟨0x14, 0x1000000, 1, 0x1000000, 1, 0x1000000, 1, 0x0, 0x0, 0x0, 0x0, 0x0⟩,
  ⟨0x18, 0x1000000, 1, 0x1000000, 1, 0x1000000, 1, 0x0, 0x0, 0x0, 0x0, 0x0⟩,
  ⟨0x100, 0x1000000, 1, 0x1000000, 1, 0x100, 2, 0x0, 0xF1FF, 0x0, 0x0, 0x0⟩,
  ⟨0x104, 0x1000000, 1, 0x1000000, 1, 0x100, 2, 0x0, 0x0, 0x0, 0x0, 0x0⟩,
  ⟨0x108, 0x1000000, 1, 0x1000000, 1, 0x100, 2, 0x0, 0x0, 0x0, 0x0, 0x0⟩,
  ⟨0x10C, 0x1000000, 1, 0x1000000, 1, 0x100, 2, 0x0, 0xFFFFFFFF, 0x0, 0x0, 0x0⟩,
  ⟨0x110, 0x1000000, 1, 0x1000000, 1, 0x100, 2, 0x0, 0xFFFFFFFF, 0x0, 0x0, 0x0⟩,
  ⟨0x114, 0x1000000, 1, 0x1000000, 1, 0x100, 2, 0x0, 0xFFFFFFFF, 0x0, 0x0, 0x0⟩,
  ⟨0x118, 0x1000000, 1, 0x1000000, 1, 0x100, 2, 0x0, 0x0, 0x0, 0x0, 0x0⟩,
  ⟨0x11C, 0x1000000, 1, 0x1000000, 1, 0x100, 2, 0x0, 0x0, 0x0, 0x0, 0x0⟩,
  ⟨0x120, 0x1000000, 1, 0x1000000, 1, 0x100, 2, 0x0, 0x0, 0x0, 0x0, 0x0⟩,
  ⟨0x140, 0x1000000, 1, 0x100, 2, 0x4, 16, 0x0, 0xFFF, 0x0, 0x0, 0x0⟩,
  ⟨0x180, 0x1000000, 1, 0x100, 2, 0x8, 16, 0x0, 0x0, 0x0, 0x0, 0x0⟩,
  ⟨0x184, 0x1000000, 1, 0x100, 2, 0x8, 16, 0x0, 0x0, 0x0, 0x0, 0x0⟩]

/-- The register rows of the EDG block, offsets from the block's base. -/
def rowsEDG : List RegRow := [
  ⟨0x0, 0x1000000, 1, 0x1000000, 1, 0x1000000, 1, 0x10000, 0x0, 0x0, 0x0, 0x0⟩,
  ⟨0x4, 0x1000000, 1, 0x1000000, 1, 0x1000000, 1, 0x0, 0x0, 0x0, 0xFFFFFFFF, 0x0⟩,
  ⟨0x8, 0x1000000, 1, 0x1000000, 1, 0x1000000, 1, 0xFFFFFFFF, 0xFFFFFFFF, 0x0, 0x0, 0x0⟩,
  ⟨0xC, 0x1000000, 1, 0x1000000, 1, 0x1000000, 1, 0x0, 0x0, 0x0, 0x0, 0x80000000⟩,
  ⟨0x10, 0x1000000, 1, 0x1000000, 1, 0x1000000, 1, 0x0, 0x0, 0x0, 0x0, 0x0⟩,
  ⟨0x14, 0x1000000, 1, 0x1000000, 1, 0x1000000, 1, 0x0, 0x0, 0x0, 0x0, 0x0⟩,
  ⟨0x18, 0x1000000, 1, 0x1000000, 1, 0x1000000, 1, 0x0, 0x0, 0x0, 0xFFFFFFFF, 0x0⟩,
  ⟨0x40, 0x1000000, 1, 0x1000000, 1, 0x1000000, 1, 0x0, 0x0, 0x0, 0x0, 0x0⟩,
  ⟨0x100, 0x1000000, 1, 0x1000000, 1, 0x40, 16, 0x0, 0x1, 0x7FFFE, 0x0, 0x0⟩,
  ⟨0x104, 0x1000000, 1, 0x1000000, 1, 0x40, 16, 0x0, 0x0, 0x0, 0x0, 0x0⟩,
  ⟨0x108, 0x1000000, 1, 0x1000000, 1, 0x40, 16, 0x0, 0x0, 0x0, 0x0, 0x0⟩,
  ⟨0x10C, 0x1000000, 1, 0x1000000, 1, 0x40, 16, 0x0, 0xFFFFFFFF, 0x0, 0x0, 0x0⟩,
  ⟨0x110, 0x1000000, 1, 0x1000000, 1, 0x40, 16, 0x0, 0xFFFFFFFF, 0x0, 0x0, 0x0⟩,
  ⟨0x114, 0x1000000, 1, 0x1000000, 1, 0x40, 16, 0x0, 0x0, 0xFFFFFFFF, 0x0, 0x0⟩,
  ⟨0x118, 0x1000000, 1, 0x1000000, 1, 0x40, 16, 0x0, 0x0, 0xFFFFFFFF, 0x0, 0x0⟩,
  ⟨0x11C, 0x1000000, 1, 0x1000000, 1, 0x40, 16, 0x0, 0x0, 0xFFFFFFFF, 0x0, 0x0⟩,
  ⟨0x120, 0x1000000, 1, 0x1000000, 1, 0x40, 16, 0x0, 0x0, 0xFFFF, 0x0, 0x0⟩,
  ⟨0x124, 0x1000000, 1, 0x1000000, 1, 0x40, 16, 0x0, 0x0, 0x0, 0x0, 0x0⟩,
  ⟨0x128, 0x1000000, 1, 0x1000000, 1, 0x40, 16, 0x0, 0x0, 0x0, 0x0, 0x0⟩,
  ⟨0x12C, 0x1000000, 1, 0x1000000, 1, 0x40, 16, 0x0, 0x0, 0x0, 0x0, 0x0⟩,
  ⟨0x130, 0x1000000, 1, 0x1000000, 1, 0x40, 16, 0x0, 0x0, 0x0, 0x0, 0x0⟩]

/-- The register rows of the NET block, offsets from the block's base. -/
def rowsNET0 : List RegRow := [
  ⟨0x0, 0x1000000, 1, 0x1000000, 1, 0x1000000, 1, 0x100, 0x0, 0x0, 0x0, 0x0⟩,
  ⟨0x4, 0x1000000, 1, 0x1000000, 1, 0x1000000, 1, 0x0, 0x0, 0x0, 0xFFFFF, 0x0⟩,
  ⟨0x8, 0x1000000, 1, 0x1000000, 1, 0x1000000, 1, 0xFFFFF, 0xFFFFF, 0x0, 0x0, 0x0⟩,
  ⟨0xC, 0x1000000, 1, 0x1000000, 1, 0x1000000, 1, 0x2012C, 0x0, 0x3FFFF, 0x0, 0x80000000⟩,
  ⟨0x10, 0x1000000, 1, 0x1000000, 1, 0x1000000, 1, 0xFAC681, 0x0, 0xFFFFFF, 0x0, 0x0⟩,
  ⟨0x14, 0x1000000, 1, 0x1000000, 1, 0x1000000, 1, 0x0, 0x0, 0x0, 0x0, 0x0⟩,
  ⟨0x18, 0x1000000, 1, 0x1000000, 1, 0x1000000, 1, 0x0, 0xFFFFFFFF, 0x0, 0x0, 0x0⟩,
  ⟨0x1C, 0x1000000, 1, 0x1000000, 1, 0x1000000, 1, 0x0, 0xFFFF, 0x0, 0x0, 0x0⟩,
  ⟨0x20, 0x1000000, 1, 0x1000000, 1, 0x1000000, 1, 0x7000, 0x0, 0x7FFF, 0x0, 0x0⟩,
  ⟨0x24, 0x1000000, 1, 0x1000000, 1, 0x1000000, 1, 0x0, 0x0, 0x0, 0x0, 0x0⟩,
  ⟨0x28, 0x1000000, 1, 0x1000000, 1, 0x1000000, 1, 0x0, 0xFFFFFFFF, 0x0, 0x0, 0x0⟩,
  ⟨0x2C, 0x1000000, 1, 0x1000000, 1, 0x1000000, 1, 0x0, 0xFFFFFFF, 0x0, 0x0, 0x0⟩,
  ⟨0x30, 0x1000000, 1, 0x1000000, 1, 0x1000000, 1, 0x0, 0x303FF, 0x0, 0x0, 0x0⟩,
  ⟨0x34, 0x1000000, 1, 0x1000000, 1, 0x1000000, 1, 0x0, 0x0, 0x0, 0x0, 0x0⟩,
  ⟨0x38, 0x1000000, 1, 0x1000000, 1, 0x1000000, 1, 0x0, 0x0, 0x0, 0x0, 0x0⟩,
  ⟨0x3C, 0x1000000, 1, 0x1000000, 1, 0x1000000, 1, 0x0, 0x0, 0x0, 0x0, 0x0⟩,
  ⟨0x40, 0x1000000, 1, 0x1000000, 1, 0x1000000, 1, 0xF8F8F8, 0x0, 0x1FFFFFF, 0x0, 0x0⟩,
  ⟨0x44, 0x1000000, 1, 0x1000000, 1, 0x1000000, 1, 0x4E5DFE, 0x0, 0xFFFFFF, 0x0, 0x0⟩,
  ⟨0x48, 0x1000000, 1, 0x1000000, 1, 0x1000000, 1, 0xD, 0x0, 0xFFF, 0x0, 0x0⟩,
  ⟨0x50, 0x1000000, 1, 0x1000000, 1, 0x1000000, 1, 0x0, 0x0, 0x0, 0x0, 0x0⟩,
  ⟨0x54, 0x1000000, 1, 0x1000000, 1, 0x1000000, 1, 0x0, 0x0, 0x0, 0x0, 0x0⟩,
  ⟨0x58, 0x1000000, 1, 0x1000000, 1, 0x1000000, 1, 0x0, 0x0, 0xFFFFFF, 0x0, 0x0⟩,
  ⟨0x5C, 0x1000000, 1, 0x1000000, 1, 0x1000000, 1, 0x0, 0x0, 0xFFFF, 0x0, 0x0⟩,
  ⟨0x60, 0x1000000, 1, 0x1000000, 1, 0x1000000, 1, 0x0, 0x0, 0x0, 0xFFFFFF, 0x0⟩,
  ⟨0x68, 0x1000000, 1, 0x1000000, 1, 0x1000000, 1, 0x0, 0x0, 0xFFFFFFFF, 0x0, 0x0⟩]
/-- More rows of the same map. -/
def rowsNET1 : List RegRow := [
  ⟨0x6C, 0x1000000, 1, 0x1000000, 1, 0x1000000, 1, 0x0, 0x0, 0xFFFF, 0x0, 0x0⟩,
  ⟨0x1000, 0x1000000, 1, 0x1000000, 1, 0x400, 10, 0x0, 0x0, 0x0, 0x0, 0x0⟩,
  ⟨0x1004, 0x1000000, 1, 0x1000000, 1, 0x400, 10, 0x0, 0x0, 0x0, 0x0, 0x0⟩,
  ⟨0x1008, 0x1000000, 1, 0x1000000, 1, 0x400, 10, 0x0, 0x0, 0xF7, 0x0, 0x0⟩,
  ⟨0x100C, 0x1000000, 1, 0x1000000, 1, 0x400, 10, 0x400, 0x0, 0xFFFF, 0x0, 0x0⟩,
  ⟨0x1010, 0x1000000, 1, 0x1000000, 1, 0x400, 10, 0x0, 0x0, 0x0, 0x0, 0x0⟩,
  ⟨0x1014, 0x1000000, 1, 0x1000000, 1, 0x400, 10, 0x0, 0x0, 0x0, 0x0, 0x0⟩,
  ⟨0x1018, 0x1000000, 1, 0x1000000, 1, 0x400, 10, 0x0, 0x0, 0x0, 0x0, 0x0⟩,
  ⟨0x101C, 0x1000000, 1, 0x1000000, 1, 0x400, 10, 0x0, 0x0, 0x0, 0x0, 0x0⟩,
  ⟨0x1020, 0x1000000, 1, 0x1000000, 1, 0x400, 10, 0x0, 0x0, 0x0, 0x0, 0x0⟩,
  ⟨0x1024, 0x1000000, 1, 0x1000000, 1, 0x400, 10, 0x0, 0x0, 0x0, 0x0, 0x0⟩,
  ⟨0x1028, 0x1000000, 1, 0x1000000, 1, 0x400, 10, 0x0, 0x0, 0x0, 0x0, 0x0⟩,
  ⟨0x102C, 0x1000000, 1, 0x1000000, 1, 0x400, 10, 0x0, 0x0, 0xFFFFFFFF, 0x0, 0x0⟩,
  ⟨0x1200, 0x1000000, 1, 0x400, 10, 0x4, 128, 0x0, 0x0, 0xFFFFFFFF, 0x0, 0x0⟩,
  ⟨0x4000, 0x1000000, 1, 0x1000000, 1, 0x20, 24, 0x0, 0xFFFFFFFF, 0x0, 0x0, 0x0⟩,
  ⟨0x4004, 0x1000000, 1, 0x1000000, 1, 0x20, 24, 0x0, 0xFFFFFFFF, 0x0, 0x0, 0x0⟩,
  ⟨0x4008, 0x1000000, 1, 0x1000000, 1, 0x20, 24, 0x0, 0x1F, 0x0, 0x0, 0x0⟩,
  ⟨0x400C, 0x1000000, 1, 0x1000000, 1, 0x20, 24, 0x0, 0x7F, 0x0, 0x0, 0x0⟩,
  ⟨0x4010, 0x1000000, 1, 0x1000000, 1, 0x20, 24, 0x0, 0x7F, 0x0, 0x0, 0x0⟩,
  ⟨0x4014, 0x1000000, 1, 0x1000000, 1, 0x20, 24, 0x0, 0x0, 0x0, 0x0, 0x0⟩,
  ⟨0x4018, 0x1000000, 1, 0x1000000, 1, 0x20, 24, 0x0, 0x0, 0x0, 0x0, 0x0⟩,
  ⟨0x10000, 0x1000000, 1, 0x1000000, 1, 0x4, 4096, 0x0, 0x0, 0xFFFFF, 0x0, 0x0⟩,
  ⟨0x18000, 0x1000000, 1, 0x1000000, 1, 0x10, 128, 0x0, 0x0, 0xFFFFFFFF, 0x0, 0x0⟩,
  ⟨0x18004, 0x1000000, 1, 0x1000000, 1, 0x10, 128, 0x0, 0x0, 0x7FFFFFFF, 0x0, 0x0⟩,
  ⟨0x18008, 0x1000000, 1, 0x1000000, 1, 0x10, 128, 0x0, 0x0, 0x3FF, 0x0, 0x0⟩]
/-- More rows of the same map. -/
def rowsNET2 : List RegRow := [
  ⟨0x19000, 0x1000000, 1, 0x1000000, 1, 0x10, 128, 0x0, 0x0, 0x1FFFFFF, 0x2000000, 0x0⟩,
  ⟨0x19004, 0x1000000, 1, 0x1000000, 1, 0x10, 128, 0x0, 0x0, 0x0, 0x0, 0x0⟩,
  ⟨0x19008, 0x1000000, 1, 0x1000000, 1, 0x10, 128, 0x0, 0x0, 0x0, 0x0, 0x0⟩,
  ⟨0x1900C, 0x1000000, 1, 0x1000000, 1, 0x10, 128, 0x0, 0x0, 0x0, 0x0, 0x0⟩,
  ⟨0x1A000, 0x1000000, 1, 0x1000000, 1, 0x20, 64, 0x0, 0x0, 0xFFFFFFFF, 0x0, 0x0⟩,
  ⟨0x1A004, 0x1000000, 1, 0x1000000, 1, 0x20, 64, 0x0, 0x0, 0xFFFFFFFF, 0x0, 0x0⟩,
  ⟨0x1A008, 0x1000000, 1, 0x1000000, 1, 0x20, 64, 0x0, 0x0, 0xFFFFFFFF, 0x0, 0x0⟩,
  ⟨0x1A00C, 0x1000000, 1, 0x1000000, 1, 0x20, 64, 0x0, 0x0, 0xFFFFFFFF, 0x0, 0x0⟩,
  ⟨0x1A010, 0x1000000, 1, 0x1000000, 1, 0x20, 64, 0x0, 0x0, 0x7, 0x8, 0x0⟩,
  ⟨0x1A014, 0x1000000, 1, 0x1000000, 1, 0x20, 64, 0x0, 0x0, 0x0, 0x0, 0x0⟩,
  ⟨0x1A018, 0x1000000, 1, 0x1000000, 1, 0x20, 64, 0x0, 0x0, 0x0, 0x0, 0x0⟩,
  ⟨0x1A01C, 0x1000000, 1, 0x1000000, 1, 0x20, 64, 0x0, 0x0, 0x0, 0x0, 0x0⟩,
  ⟨0x1C000, 0x1000000, 1, 0x1000000, 1, 0x10, 64, 0x0, 0x0, 0x3FFFF, 0x0, 0x0⟩,
  ⟨0x1C004, 0x1000000, 1, 0x1000000, 1, 0x10, 64, 0x0, 0x0, 0x0, 0x0, 0x0⟩,
  ⟨0x1D000, 0x1000000, 1, 0x1000000, 1, 0x10, 64, 0x0, 0x0, 0xFFFF3FFF, 0x0, 0x0⟩,
  ⟨0x1D004, 0x1000000, 1, 0x1000000, 1, 0x10, 64, 0x0, 0x0, 0x0, 0x0, 0x0⟩,
  ⟨0x1D008, 0x1000000, 1, 0x1000000, 1, 0x10, 64, 0x0, 0x0, 0x0, 0x0, 0x0⟩,
  ⟨0x1D00C, 0x1000000, 1, 0x1000000, 1, 0x10, 64, 0x0, 0x0, 0x0, 0x0, 0x0⟩]
/-- The register rows of the NET block, offsets from the block's base. -/
def rowsNET : List RegRow := rowsNET0 ++ rowsNET1 ++ rowsNET2

/-- The register rows of the CAN block, offsets from the block's base. -/
def rowsCAN : List RegRow := [
  ⟨0x0, 0x1000000, 1, 0x1000000, 1, 0x1000000, 1, 0x0, 0x7F, 0x0, 0x0, 0x0⟩,
  ⟨0x4, 0x1000000, 1, 0x1000000, 1, 0x1000000, 1, 0x0, 0x0, 0x0, 0x0, 0x0⟩,
  ⟨0x8, 0x1000000, 1, 0x1000000, 1, 0x1000000, 1, 0x0, 0x0, 0x0, 0xFF, 0x0⟩,
  ⟨0xC, 0x1000000, 1, 0x1000000, 1, 0x1000000, 1, 0xFF, 0xFF, 0x0, 0x0, 0x0⟩,
  ⟨0x10, 0x1000000, 1, 0x1000000, 1, 0x1000000, 1, 0x0, 0xFFFF, 0x0, 0x0, 0x0⟩,
  ⟨0x14, 0x1000000, 1, 0x1000000, 1, 0x1000000, 1, 0x0, 0x7F7FFF, 0x0, 0x0, 0x0⟩,
  ⟨0x18, 0x1000000, 1, 0x1000000, 1, 0x1000000, 1, 0x0, 0xFFFF, 0x0, 0x0, 0x0⟩,
  ⟨0x1C, 0x1000000, 1, 0x1000000, 1, 0x1000000, 1, 0x0, 0xF0F1F, 0x0, 0x0, 0x0⟩,
  ⟨0x20, 0x1000000, 1, 0x1000000, 1, 0x1000000, 1, 0x0, 0x1FF, 0x0, 0x0, 0x0⟩,
  ⟨0x24, 0x1000000, 1, 0x1000000, 1, 0x1000000, 1, 0x0, 0x0, 0x0, 0x0, 0x0⟩,
  ⟨0x28, 0x1000000, 1, 0x1000000, 1, 0x1000000, 1, 0x0, 0x0, 0x0, 0x0, 0x0⟩,
  ⟨0x2C, 0x1000000, 1, 0x1000000, 1, 0x1000000, 1, 0x0, 0x0, 0x0, 0x0, 0x0⟩,
  ⟨0x30, 0x1000000, 1, 0x1000000, 1, 0x1000000, 1, 0x0, 0x0, 0x0, 0x0, 0x0⟩,
  ⟨0x34, 0x1000000, 1, 0x1000000, 1, 0x1000000, 1, 0x0, 0x0, 0x0, 0x0, 0x0⟩,
  ⟨0x40, 0x1000000, 1, 0x1000000, 1, 0x4, 32, 0x0, 0x7FFFFFFF, 0x0, 0x0, 0x0⟩,
  ⟨0xC0, 0x1000000, 1, 0x1000000, 1, 0x4, 32, 0x0, 0x3FFFFFFF, 0x0, 0x0, 0x0⟩,
  ⟨0x400, 0x1000000, 1, 0x50, 16, 0x4, 20, 0x0, 0xFFFFFFFF, 0x0, 0x0, 0x0⟩]

/-- The register rows of the MVB block, offsets from the block's base. -/
def rowsMVB : List RegRow := [
  ⟨0x0, 0x1000000, 1, 0x1000000, 1, 0x1000000, 1, 0x0, 0xFFF001F, 0x0, 0x0, 0x0⟩,
  ⟨0x4, 0x1000000, 1, 0x1000000, 1, 0x1000000, 1, 0x0, 0x0, 0x0, 0x0, 0x0⟩,
  ⟨0x8, 0x1000000, 1, 0x1000000, 1, 0x1000000, 1, 0x0, 0x0, 0x0, 0x7F, 0x0⟩,
  ⟨0xC, 0x1000000, 1, 0x1000000, 1, 0x1000000, 1, 0xFF, 0xFF, 0x0, 0x0, 0x0⟩,
  ⟨0x10, 0x1000000, 1, 0x1000000, 1, 0x1000000, 1, 0x0, 0xFFFF, 0x0, 0x0, 0x0⟩,
  ⟨0x14, 0x1000000, 1, 0x1000000, 1, 0x1000000, 1, 0x0, 0x0, 0x0, 0x0, 0x0⟩,
  ⟨0x18, 0x1000000, 1, 0x1000000, 1, 0x1000000, 1, 0x0, 0x0, 0x0, 0x0, 0x0⟩,
  ⟨0x20, 0x1000000, 1, 0x1000000, 1, 0x4, 8, 0x0, 0x0, 0x0, 0x0, 0x0⟩,
  ⟨0x100, 0x1000000, 1, 0x1000000, 1, 0x4, 256, 0x0, 0x3FFFF, 0x0, 0x0, 0x0⟩,
  ⟨0x500, 0x1000000, 1, 0x1000000, 1, 0x4, 256, 0x0, 0x0, 0x0, 0x0, 0x0⟩,
  ⟨0x1000, 0x1000000, 1, 0x20, 256, 0x4, 8, 0x0, 0xFFFFFFFF, 0x0, 0x0, 0x0⟩]

/-- The register rows of the UART block, offsets from the block's base. -/
def rowsUART : List RegRow := [
  ⟨0x0, 0x1000000, 1, 0x1000000, 1, 0x1000000, 1, 0x0, 0x7FF, 0x0, 0x0, 0x0⟩,
  ⟨0x4, 0x1000000, 1, 0x1000000, 1, 0x1000000, 1, 0x0, 0x0, 0x0, 0x0, 0x0⟩,
  ⟨0x8, 0x1000000, 1, 0x1000000, 1, 0x1000000, 1, 0x0, 0x0, 0x0, 0xFF, 0x0⟩,
  ⟨0xC, 0x1000000, 1, 0x1000000, 1, 0x1000000, 1, 0xFF, 0xFF, 0x0, 0x0, 0x0⟩,
  ⟨0x10, 0x1000000, 1, 0x1000000, 1, 0x1000000, 1, 0x0, 0xFFFFFFF, 0x0, 0x0, 0x0⟩,
  ⟨0x14, 0x1000000, 1, 0x1000000, 1, 0x1000000, 1, 0x0, 0xFFFFFFFF, 0x0, 0x0, 0x0⟩,
  ⟨0x18, 0x1000000, 1, 0x1000000, 1, 0x1000000, 1, 0x0, 0x0, 0x0, 0x0, 0x0⟩,
  ⟨0x1C, 0x1000000, 1, 0x1000000, 1, 0x1000000, 1, 0x0, 0x0, 0x0, 0x0, 0x0⟩]

/-- The register rows of the SPI block, offsets from the block's base. -/
def rowsSPI : List RegRow := [
  ⟨0x0, 0x1000000, 1, 0x1000000, 1, 0x1000000, 1, 0x0, 0x3FFF, 0x0, 0x0, 0x0⟩,
  ⟨0x4, 0x1000000, 1, 0x1000000, 1, 0x1000000, 1, 0x0, 0x0, 0x0, 0x0, 0x0⟩,
  ⟨0x8, 0x1000000, 1, 0x1000000, 1, 0x1000000, 1, 0x0, 0x0, 0x0, 0x3F, 0x0⟩,
  ⟨0xC, 0x1000000, 1, 0x1000000, 1, 0x1000000, 1, 0xFF, 0xFF, 0x0, 0x0, 0x0⟩,
  ⟨0x10, 0x1000000, 1, 0x1000000, 1, 0x1000000, 1, 0x0, 0xFFFF, 0x0, 0x0, 0x0⟩,
  ⟨0x14, 0x1000000, 1, 0x1000000, 1, 0x1000000, 1, 0x0, 0xFFFFFFFF, 0x0, 0x0, 0x0⟩,
  ⟨0x18, 0x1000000, 1, 0x1000000, 1, 0x1000000, 1, 0x0, 0x0, 0x0, 0x0, 0x0⟩,
  ⟨0x1C, 0x1000000, 1, 0x1000000, 1, 0x1000000, 1, 0x0, 0x0, 0x0, 0x0, 0x0⟩]

/-- The register rows of the I2C block, offsets from the block's base. -/
def rowsI2C : List RegRow := [
  ⟨0x0, 0x1000000, 1, 0x1000000, 1, 0x1000000, 1, 0x0, 0xFFFF, 0x0, 0x0, 0x0⟩,
  ⟨0x4, 0x1000000, 1, 0x1000000, 1, 0x1000000, 1, 0x0, 0x0, 0x0, 0x0, 0x0⟩,
  ⟨0x8, 0x1000000, 1, 0x1000000, 1, 0x1000000, 1, 0x0, 0x0, 0x0, 0xFF, 0x0⟩,
  ⟨0xC, 0x1000000, 1, 0x1000000, 1, 0x1000000, 1, 0xFF, 0xFF, 0x0, 0x0, 0x0⟩,
  ⟨0x10, 0x1000000, 1, 0x1000000, 1, 0x1000000, 1, 0x0, 0x0, 0x0, 0x0, 0x0⟩,
  ⟨0x14, 0x1000000, 1, 0x1000000, 1, 0x1000000, 1, 0x0, 0x0, 0x0, 0x0, 0x0⟩,
  ⟨0x18, 0x1000000, 1, 0x1000000, 1, 0x1000000, 1, 0x0, 0x0, 0x0, 0x0, 0x0⟩,
  ⟨0x1C, 0x1000000, 1, 0x1000000, 1, 0x1000000, 1, 0x3E8, 0xFFFF, 0x0, 0x0, 0x0⟩]

/-- The register rows of the PIN block, offsets from the block's base. -/
def rowsPIN : List RegRow := [
  ⟨0x0, 0x1000000, 1, 0x1000000, 1, 0x1000000, 1, 0x1, 0x0, 0x0, 0x0, 0x0⟩,
  ⟨0x4, 0x1000000, 1, 0x1000000, 1, 0x1000000, 1, 0x0, 0x0, 0x0, 0x3F, 0x0⟩,
  ⟨0x8, 0x1000000, 1, 0x1000000, 1, 0x1000000, 1, 0x3F, 0x3F, 0x0, 0x0, 0x0⟩,
  ⟨0xC, 0x1000000, 1, 0x1000000, 1, 0x1000000, 1, 0x0, 0x0, 0x0, 0x0, 0x80000000⟩,
  ⟨0x10, 0x1000000, 1, 0x1000000, 1, 0x1000000, 1, 0x0, 0x0, 0x0, 0x0, 0x0⟩,
  ⟨0x20, 0x1000000, 1, 0x1000000, 1, 0x1000000, 1, 0x40C, 0xF0C, 0x0, 0x0, 0x3⟩,
  ⟨0x24, 0x1000000, 1, 0x1000000, 1, 0x1000000, 1, 0x0, 0x0, 0x0, 0xC, 0x0⟩,
  ⟨0x100, 0x1000000, 1, 0x1000000, 1, 0x40, 8, 0x0, 0x0, 0x0, 0x0, 0x0⟩,
  ⟨0x104, 0x1000000, 1, 0x1000000, 1, 0x40, 8, 0x0, 0x0, 0x0, 0x0, 0x0⟩,
  ⟨0x108, 0x1000000, 1, 0x1000000, 1, 0x40, 8, 0x0, 0x0, 0x0, 0x0, 0x0⟩,
  ⟨0x10C, 0x1000000, 1, 0x1000000, 1, 0x40, 8, 0x0, 0x0, 0x0, 0x0, 0x0⟩,
  ⟨0x110, 0x1000000, 1, 0x1000000, 1, 0x40, 8, 0x0, 0x0, 0x0, 0x0, 0x0⟩,
  ⟨0x114, 0x1000000, 1, 0x1000000, 1, 0x40, 8, 0x0, 0xFFFFFF, 0x0, 0x0, 0x0⟩,
  ⟨0x118, 0x1000000, 1, 0x1000000, 1, 0x40, 8, 0x0, 0x0, 0x0, 0xFFFFFF, 0x0⟩,
  ⟨0x11C, 0x1000000, 1, 0x1000000, 1, 0x40, 8, 0x0, 0xFFFFFF, 0x0, 0x0, 0x0⟩,
  ⟨0x120, 0x1000000, 1, 0x1000000, 1, 0x40, 8, 0x0, 0xFFFFFF, 0x0, 0x0, 0x0⟩,
  ⟨0x124, 0x1000000, 1, 0x1000000, 1, 0x40, 8, 0x0, 0x0, 0x0, 0x0, 0x0⟩,
  ⟨0x128, 0x1000000, 1, 0x1000000, 1, 0x40, 8, 0x0, 0x0, 0x0, 0x0, 0x0⟩,
  ⟨0x1000, 0x1000000, 1, 0x1000000, 1, 0x10, 192, 0x0, 0x0, 0x0, 0x0, 0x0⟩,
  ⟨0x1004, 0x1000000, 1, 0x1000000, 1, 0x10, 192, 0x0, 0x0, 0x0, 0x0, 0x0⟩,
  ⟨0x1008, 0x1000000, 1, 0x1000000, 1, 0x10, 192, 0x700, 0x0, 0x0, 0x0, 0x0⟩,
  ⟨0x100C, 0x1000000, 1, 0x1000000, 1, 0x10, 192, 0x0, 0x0, 0x3, 0x0, 0x0⟩]

/-- The register rows of the PWR block, offsets from the block's base. -/
def rowsPWR : List RegRow := [
  ⟨0x0, 0x1000000, 1, 0x1000000, 1, 0x1000000, 1, 0x0, 0x0, 0x0, 0x0, 0x0⟩,
  ⟨0x4, 0x1000000, 1, 0x1000000, 1, 0x1000000, 1, 0x0, 0x0, 0x0, 0x3F, 0x0⟩,
  ⟨0x8, 0x1000000, 1, 0x1000000, 1, 0x1000000, 1, 0x3F, 0x3F, 0x0, 0x0, 0x0⟩,
  ⟨0xC, 0x1000000, 1, 0x1000000, 1, 0x1000000, 1, 0x64, 0x0, 0x3FF, 0x0, 0x80000000⟩,
  ⟨0x10, 0x1000000, 1, 0x1000000, 1, 0x1000000, 1, 0x0, 0x0, 0x0, 0x0, 0x0⟩,
  ⟨0x14, 0x1000000, 1, 0x1000000, 1, 0x1000000, 1, 0x0, 0x0, 0x0, 0x0, 0x0⟩,
  ⟨0x18, 0x1000000, 1, 0x1000000, 1, 0x1000000, 1, 0x0, 0xFFFFFF, 0x0, 0x0, 0x0⟩,
  ⟨0x1C, 0x1000000, 1, 0x1000000, 1, 0x1000000, 1, 0x0, 0x3FFF, 0x0, 0x0, 0x0⟩,
  ⟨0x20, 0x1000000, 1, 0x1000000, 1, 0x1000000, 1, 0x0, 0x0, 0x0, 0x0, 0x0⟩,
  ⟨0x24, 0x1000000, 1, 0x1000000, 1, 0x1000000, 1, 0x0, 0xFFFFFFFF, 0x0, 0x0, 0x0⟩,
  ⟨0x100, 0x1000000, 1, 0x1000000, 1, 0x4, 47, 0x0, 0x7, 0x0, 0x0, 0x0⟩,
  ⟨0x200, 0x1000000, 1, 0x1000000, 1, 0x4, 47, 0x0, 0x0, 0x0, 0x0, 0x0⟩,
  ⟨0x400, 0x1000000, 1, 0x1000000, 1, 0x1000000, 1, 0x0, 0x77, 0x0, 0x0, 0x0⟩,
  ⟨0x404, 0x1000000, 1, 0x1000000, 1, 0x1000000, 1, 0x7A1200, 0xFFFFFFFF, 0x0, 0x0, 0x0⟩,
  ⟨0x408, 0x1000000, 1, 0x1000000, 1, 0x1000000, 1, 0x0, 0x0, 0x0, 0x0, 0x0⟩,
  ⟨0x40C, 0x1000000, 1, 0x1000000, 1, 0x1000000, 1, 0x0, 0x0, 0x0, 0x0, 0x0⟩,
  ⟨0x410, 0x1000000, 1, 0x1000000, 1, 0x1000000, 1, 0x0, 0x0, 0x0, 0x0, 0x0⟩,
  ⟨0x414, 0x1000000, 1, 0x1000000, 1, 0x1000000, 1, 0x0, 0x0, 0x0, 0x0, 0x0⟩,
  ⟨0x418, 0x1000000, 1, 0x1000000, 1, 0x1000000, 1, 0x0, 0x0, 0x0, 0x0, 0x0⟩,
  ⟨0x440, 0x1000000, 1, 0x1000000, 1, 0x4, 8, 0x0, 0x3FFF, 0x0, 0x0, 0x0⟩,
  ⟨0x460, 0x1000000, 1, 0x1000000, 1, 0x4, 8, 0xFFF0000, 0xFFF0FFF, 0x0, 0x0, 0x0⟩,
  ⟨0x800, 0x1000000, 1, 0x1000000, 1, 0x4, 64, 0x0, 0x0, 0x0, 0x0, 0x0⟩]

/-- The register rows of the BOOT block, offsets from the block's base. -/
def rowsBOOT : List RegRow := [
  ⟨0x0, 0x1000000, 1, 0x1000000, 1, 0x1000000, 1, 0x0, 0x0, 0x0, 0x0, 0x0⟩,
  ⟨0x4, 0x1000000, 1, 0x1000000, 1, 0x1000000, 1, 0x0, 0x0, 0x0, 0x0, 0x0⟩,
  ⟨0x8, 0x1000000, 1, 0x1000000, 1, 0x1000000, 1, 0x12406, 0x0, 0x0, 0x0, 0x0⟩,
  ⟨0xC, 0x1000000, 1, 0x1000000, 1, 0x1000000, 1, 0x8, 0x0, 0x0, 0x0, 0x0⟩,
  ⟨0x10, 0x1000000, 1, 0x1000000, 1, 0x1000000, 1, 0x0, 0x0, 0x0, 0xFF, 0x0⟩,
  ⟨0x14, 0x1000000, 1, 0x1000000, 1, 0x1000000, 1, 0xFF, 0xFF, 0x0, 0x0, 0x0⟩,
  ⟨0x18, 0x1000000, 1, 0x1000000, 1, 0x1000000, 1, 0x0, 0x0, 0x1, 0x0, 0x80000000⟩,
  ⟨0x1C, 0x1000000, 1, 0x1000000, 1, 0x4, 2, 0x0, 0x0, 0x0, 0x0, 0x0⟩,
  ⟨0x24, 0x1000000, 1, 0x1000000, 1, 0x4, 2, 0x0, 0x0, 0x0, 0x0, 0x0⟩,
  ⟨0x2C, 0x1000000, 1, 0x1000000, 1, 0x1000000, 1, 0x0, 0x0, 0x0, 0x0, 0x0⟩,
  ⟨0x30, 0x1000000, 1, 0x1000000, 1, 0x1000000, 1, 0x0, 0x0, 0x0, 0x0, 0x0⟩,
  ⟨0x34, 0x1000000, 1, 0x1000000, 1, 0x1000000, 1, 0x0, 0x0, 0x0, 0x0, 0x0⟩,
  ⟨0x38, 0x1000000, 1, 0x1000000, 1, 0x1000000, 1, 0x0, 0x0, 0x0, 0x0, 0x0⟩,
  ⟨0x3C, 0x1000000, 1, 0x1000000, 1, 0x1000000, 1, 0x0, 0x0, 0x0, 0x0, 0x0⟩,
  ⟨0x40, 0x1000000, 1, 0x1000000, 1, 0x1000000, 1, 0x0, 0x0, 0x0, 0x0, 0x0⟩,
  ⟨0x50, 0x1000000, 1, 0x1000000, 1, 0x4, 4, 0x0, 0x0, 0x0, 0x0, 0x0⟩,
  ⟨0xC0, 0x1000000, 1, 0x1000000, 1, 0x4, 12, 0x0, 0x0, 0x0, 0x0, 0x0⟩,
  ⟨0x100, 0x1000000, 1, 0x30, 4, 0x4, 12, 0x0, 0x0, 0x0, 0x0, 0x0⟩,
  ⟨0x300, 0x1000000, 1, 0x1000000, 1, 0x1000000, 1, 0x0, 0x0, 0x0, 0x0, 0x0⟩,
  ⟨0x304, 0x1000000, 1, 0x1000000, 1, 0x1000000, 1, 0x0, 0x0, 0x0, 0x0, 0x0⟩,
  ⟨0x320, 0x1000000, 1, 0x1000000, 1, 0x4, 8, 0x0, 0xFFFFFFFF, 0x0, 0x0, 0x0⟩]

/-- The register rows of the HOST block, offsets from the block's base. -/
def rowsHOST : List RegRow := [
  ⟨0x0, 0x1000000, 1, 0x1000000, 1, 0x1000000, 1, 0x0, 0x0, 0x0, 0x0, 0x0⟩,
  ⟨0x4, 0x1000000, 1, 0x1000000, 1, 0x1000000, 1, 0x0, 0x0, 0x0, 0x1FF, 0x0⟩,
  ⟨0x8, 0x1000000, 1, 0x1000000, 1, 0x1000000, 1, 0x1FF, 0x1FF, 0x0, 0x0, 0x0⟩,
  ⟨0xC, 0x1000000, 1, 0x1000000, 1, 0x1000000, 1, 0x0, 0x0, 0x0, 0x0, 0x80000000⟩,
  ⟨0x10, 0x1000000, 1, 0x1000000, 1, 0x1000000, 1, 0x0, 0x0, 0x0, 0x0, 0x0⟩,
  ⟨0x14, 0x1000000, 1, 0x1000000, 1, 0x1000000, 1, 0x0, 0x0, 0x0, 0x0, 0x0⟩,
  ⟨0x18, 0x1000000, 1, 0x1000000, 1, 0x1000000, 1, 0x0, 0xFF000000, 0x0, 0x0, 0x0⟩,
  ⟨0x20, 0x1000000, 1, 0x1000000, 1, 0x1000000, 1, 0x0, 0x0, 0x0, 0x0, 0x0⟩,
  ⟨0x24, 0x1000000, 1, 0x1000000, 1, 0x1000000, 1, 0x0, 0x0, 0x0, 0x0, 0x0⟩,
  ⟨0x40, 0x1000000, 1, 0x1000000, 1, 0x8, 4, 0x0, 0x0, 0x0, 0x0, 0x0⟩,
  ⟨0x44, 0x1000000, 1, 0x1000000, 1, 0x8, 4, 0x0, 0x0, 0x0, 0x0, 0x0⟩,
  ⟨0x60, 0x1000000, 1, 0x1000000, 1, 0x1000000, 1, 0x0, 0x0, 0x0, 0x0, 0x0⟩,
  ⟨0x64, 0x1000000, 1, 0x1000000, 1, 0x1000000, 1, 0x3E80303, 0x0, 0xFFFF0F0F, 0x0, 0x0⟩,
  ⟨0x68, 0x1000000, 1, 0x1000000, 1, 0x1000000, 1, 0x258033C, 0x0, 0xFFFFFFFF, 0x0, 0x0⟩,
  ⟨0x6C, 0x1000000, 1, 0x1000000, 1, 0x1000000, 1, 0x0, 0x0, 0x0, 0x0, 0x0⟩,
  ⟨0x100, 0x1000000, 1, 0x1000000, 1, 0x8, 11, 0x0, 0x0, 0x0, 0x0, 0x0⟩,
  ⟨0x104, 0x1000000, 1, 0x1000000, 1, 0x8, 11, 0x0, 0x0, 0x0, 0x0, 0x0⟩,
  ⟨0x200, 0x1000000, 1, 0x1000000, 1, 0x4, 16, 0x0, 0xBFFF, 0x0, 0x0, 0x0⟩,
  ⟨0x400, 0x1000000, 1, 0x1000000, 1, 0x1000000, 1, 0x0, 0x0, 0x0, 0x0, 0x0⟩,
  ⟨0x404, 0x1000000, 1, 0x1000000, 1, 0x1000000, 1, 0x0, 0x0, 0x0, 0x0, 0x0⟩,
  ⟨0x408, 0x1000000, 1, 0x1000000, 1, 0x1000000, 1, 0x0, 0x0, 0x0, 0x0, 0x0⟩,
  ⟨0x40C, 0x1000000, 1, 0x1000000, 1, 0x1000000, 1, 0x0, 0x0, 0x0, 0x0, 0x0⟩,
  ⟨0x410, 0x1000000, 1, 0x1000000, 1, 0x1000000, 1, 0x0, 0x0, 0x0, 0x0, 0x0⟩,
  ⟨0x800, 0x1000000, 1, 0x1000000, 1, 0x4, 374, 0x0, 0xFFFFFFFF, 0x0, 0x0, 0x0⟩]

/-- The register rows of the FLT block, offsets from the block's base. -/
def rowsFLT : List RegRow := [
  ⟨0x0, 0x1000000, 1, 0x1000000, 1, 0x1000000, 1, 0x0, 0x0, 0x0, 0x0, 0x0⟩,
  ⟨0x4, 0x1000000, 1, 0x1000000, 1, 0x1000000, 1, 0x0, 0x0, 0x0, 0x3FFFFFFF, 0x0⟩,
  ⟨0x8, 0x1000000, 1, 0x1000000, 1, 0x1000000, 1, 0x3FFFFFFF, 0x3FFFFFFF, 0x0, 0x0, 0x0⟩,
  ⟨0xC, 0x1000000, 1, 0x1000000, 1, 0x1000000, 1, 0x0, 0x0, 0x0, 0x0, 0x80000000⟩,
  ⟨0x10, 0x1000000, 1, 0x1000000, 1, 0x1000000, 1, 0x0, 0x1, 0x0, 0x0, 0x0⟩,
  ⟨0x100, 0x1000000, 1, 0x1000000, 1, 0x10, 24, 0x0, 0xFFFF0006, 0x0, 0x0, 0x1⟩,
  ⟨0x104, 0x1000000, 1, 0x1000000, 1, 0x10, 24, 0x0, 0x0, 0x0, 0x0, 0x0⟩,
  ⟨0x108, 0x1000000, 1, 0x1000000, 1, 0x10, 24, 0x0, 0x0, 0x0, 0x0, 0x0⟩,
  ⟨0x10C, 0x1000000, 1, 0x1000000, 1, 0x10, 24, 0x0, 0xFFFF, 0x0, 0x0, 0x0⟩,
  ⟨0x300, 0x1000000, 1, 0x1000000, 1, 0x8, 11, 0x0, 0xFFFFFF, 0x0, 0x0, 0x0⟩,
  ⟨0x304, 0x1000000, 1, 0x1000000, 1, 0x8, 11, 0x0, 0x0, 0x0, 0x0, 0x0⟩,
  ⟨0x1000, 0x1000000, 1, 0x10, 64, 0x4, 4, 0x0, 0x0, 0x0, 0x0, 0x0⟩]

end Sys2Proof.Machine
end

