-- ==== Sys2Proof/Machine/State.lean ====
section
/-!
DEFINITION. Sys2Proof/Machine/State.lean: the state of the block.  Every software-visible register lives in one sparse map
from I/O address to word (`io`), data memory in one sparse map of bytes (`mem`), and what no register shows in one
structure per block.  Plain data throughout; `State.reset` is the delivered device at power-on reset.
-/
namespace Sys2Proof.Machine

/-! ### Sparse maps in canonical form -/

/-- The value at key `k`, if one is listed. -/
def lookup {β : Type} : List (Nat × β) → Nat → Option β
  | [], _ => none
  | (k', v) :: rest, k => if k == k' then some v else lookup rest k

/-- The entries of every other key than `k`. -/
def dropKey {β : Type} (l : List (Nat × β)) (k : Nat) : List (Nat × β) := l.filter (fun e => e.1 != k)

/-- `v` at key `k`, before the first larger key. -/
def insertKey {β : Type} : List (Nat × β) → Nat → β → List (Nat × β)
  | [], k, v => [(k, v)]
  | (k', v') :: rest, k, v => if k < k' then (k, v) :: (k', v') :: rest else (k', v') :: insertKey rest k v

/-- `v` at key `k`; the entry is left out where `v` is the default `d` (log 5). -/
def store {β : Type} [BEq β] (l : List (Nat × β)) (k : Nat) (v d : β) : List (Nat × β) :=
  if v == d then dropKey l k else insertKey (dropKey l k) k v

/-- The canonical form: keys rise strictly, and no entry equals what an unlisted key reads as. -/
abbrev Canonical {β : Type} (dflt : Nat → β) (l : List (Nat × β)) : Prop :=
  l.Pairwise (fun e e' => e.1 < e'.1) ∧ ∀ e ∈ l, e.2 ≠ dflt e.1

/-! ### The register maps by address -/

/-- The row of a map that offset `o` falls on. -/
def RegRow.covers (r : RegRow) (o : Nat) : Bool :=
  r.off ≤ o &&
    (let d := o - r.off
     d / r.s1 < r.n1 &&
       (let e := d % r.s1
        e / r.s2 < r.n2 && (let f := e % r.s2; f / r.s3 < r.n3 && f % r.s3 == 0)))

/-- The rows of the block an I/O address lies in, the offset there, and the register that holds the block's LOCK bit 31
(Tables MEM-2, MEM-3; 0 where the block has none). -/
def blockRows (a : Nat) : List RegRow × Nat × Nat :=
  if a < 0x100000 then
    match a / 0x10000 with
    | 0x0 => (rowsBOOT, a, BOOT_CTRL)
    | 0x1 => (rowsPWR, a - 0x10000, PWR_CTRL)
    | 0x2 => (rowsCLK, a - 0x20000, CLK_CTRL)
    | 0x3 => (rowsTT, a - 0x30000, TT_CTRL)
    | 0x4 => (rowsMEM, a - 0x40000, MEM_CTRL)
    | 0x5 => (rowsPIN, a - 0x50000, PIN_CTRL)
    | 0x6 => if a < 0x68000 then (rowsCAN, a % 0x1000, 0) else (rowsMVB, a % 0x4000, 0)
    | 0x7 => if a < 0x72000 then (rowsUART, a % 0x400, 0)
             else if 0x74000 ≤ a && a < 0x75000 then (rowsSPI, a % 0x400, 0)
             else if 0x76000 ≤ a && a < 0x76800 then (rowsI2C, a % 0x400, 0)
             else ([], 0, 0)
    | 0x8 => (rowsHOST, a - 0x80000, HOST_CTRL)
    | 0x9 => (rowsFLT, a - 0x90000, FLT_CTRL)
    | 0xA => if a < 0xA1000 then (rowsINV, a - 0xA0000, 0) else (rowsBEACON, a - 0xA1000, 0)
    | 0xB => (rowsROLE, a - 0xB0000, 0)
    | _ => (rowsNET, a - 0xC0000, NET_CTRL)
  else if a < 0x700000 then
    let b := a / 0x100000 * 0x100000
    let o := a % 0x100000
    if o < 0x10000 then ([], 0, 0)
    else if o < 0x20000 then (rowsCDMA, o - 0x10000, 0)
    else if o < 0x30000 then (rowsADC, o - 0x20000, b + 0x2000C)
    else if o < 0x40000 then (rowsEDG, o - 0x30000, b + 0x3000C)
    else if o < 0x48000 then (rowsCMEM, o - 0x40000, b + 0x4000C)
    else if o < 0x4C000 then (rowsVOTE, o - 0x48000, 0)
    else if o < 0x50000 then (rowsSHELF, o - 0x4C000, 0)
    else if o < 0x80000 then ([], 0, 0)
    else if o < 0xC0000 then (rowsTILE, o % 0x10000, 0)
    else ([], 0, 0)
  else ([], 0, 0)

/-- The row of the register at an I/O address; none at a reserved offset (R9, R170). -/
def regRow (a : Nat) : Option RegRow := let (rows, o, _) := blockRows a; rows.find? (·.covers o)

/-- What an unlisted register reads as: its reset value, or 0 at a reserved offset (R9). -/
def ioReset (a : Nat) : Word :=
  match regRow a with
  | some r => BitVec.ofNat 32 r.reset
  | none => 0

/-- What an unlisted byte of data memory reads as (log 6). -/
def memReset (_ : Nat) : Byte := 0

/-- The register map is in canonical form. -/
abbrev Regs.wf (l : List (Nat × Word)) : Prop := Canonical ioReset l

/-- The memory is in canonical form. -/
abbrev Memory.wf (l : List (Nat × Byte)) : Prop := Canonical memReset l


/-! ### The inventory (chapter "The inventory") -/

/-- A beacon's arrival during the check of R38: peer, arrival TT, epoch number, fingerprint. -/
structure Arrival where
  peer : Nat
  tt : Nat
  epoch : Nat
  fp : List Byte
  deriving DecidableEq, Repr

/-- The Storekeeper's inventory buffers and the staging machine's hidden state (R35 to R43). -/
structure InvH where
  /-- the active copy; empty before an inventory is applied -/
  active : List Byte
  shadow : List Byte
  fallback : List Byte
  /-- total length, digest and PERSIST flag of STAGE_BEGIN -/
  total : Nat
  digest : List Byte
  persist : Bool
  /-- the armed epoch number, and the instant E of the tick being checked -/
  armedEpoch : Nat
  tickE : Nat
  arrivals : List Arrival
  /-- REVERT is set in this node's beacons until R -/
  sendRevert : Bool
  /-- a REVERT command of HA mode has been accepted (R41) -/
  revertAsked : Bool
  /-- the epoch last confirmed and its R and revert delay in ns (R40) -/
  confirmed : Option (Nat × Nat × Nat)
  /-- the instant of a late revert (R40) -/
  lateAt : Option Nat
  /-- the instant at which the fallback copy is discarded, free (R40, log 115) -/
  discardAt : Option Nat
  /-- the arrival TT of each peer's last beacon -/
  lastBeacon : List (Nat × Nat)
  deriving DecidableEq, Repr

def InvH.reset : InvH :=
  ⟨[], [], [], 0, [], false, 0, 0, [], false, false, none, none, none, []⟩

/-! ### The clock (chapter "One clock") -/

/-- A reference switch in progress (R58): the old source whose gate closes (0xFE: none), the new one (0xFF: the watch oscillator,
R59), cause, and whether the timeout of Table CLK-5 was taken. -/
structure SwitchH where
  src : Nat
  dst : Nat
  cause : Nat
  dead : Bool
  deriving DecidableEq, Repr

/-- The clock block's hidden state. -/
structure ClkH where
  /-- core cycles of the glide still to run, its end frequencies in kHz, the mode it ends in (R49) -/
  glideLeft : Nat
  glideFrom : Nat
  glideTo : Nat
  glideMode : Nat
  switch : Option SwitchH
  /-- the divider of the present cycle, the modulator's accumulator (2^-16), its place in the profile, its shift register
  and the end values of the present segment in 15ths (R60) -/
  divD : Nat
  acc : Nat
  prof : Nat
  lfsr : Nat
  segFrom : Nat
  segTo : Nat
  /-- gates ended, and the sources that made the loop slip while selected, with the gates (R53) -/
  gates : Nat
  slips : List (Nat × Nat)
  /-- per source: gates without edges while FAILED, gates since failing, and R66's verdict held -/
  noEdge : Vector Nat 11
  sinceFail : Vector Nat 11
  held : Vector Bool 11
  /-- the first gate after the ring has passed is still to come (R66) -/
  firstGate : Bool
  /-- the TT at which each source last entered PROVEN, from which its hold-off runs (R55) -/
  provenAt : Vector Nat 11
  /-- the TT before which no hold-off runs: that of the last change of split entry 0 (R57) -/
  holdFrom : Nat
  /-- gates of the ring's search still to run (R52) -/
  acq : Nat
  /-- clock-fault hold: 0 none, 1 at power-on, 2 from Lull (R67) -/
  hold : Nat
  /-- Lull was entered under R66 with the ring UNPROVEN -/
  lullRing : Bool
  /-- a source failed on this decision edge (R57) -/
  failedNow : Bool
  /-- consecutive gates with the watch count out of range (R68) -/
  watchBad : Nat
  /-- the ring's fine trim, which no register shows, and RING_EST at the loss of the trim reference (R52, Table TT-1) -/
  fine : Int
  estAtLoss : Nat
  /-- lanes whose transmit loop has locked since power-on (R69) -/
  txLocked : Vector Bool 8
  /-- the frequency of REFIN that the coarse count identified for the boot list -/
  bootRefin : Nat
  /-- core edges since reset (CYC counts per tile) -/
  edges : Nat
  /-- the core edge on which Lull reaches the edge units (R255) -/
  lullAt : Option Nat
  /-- the ring has passed a watch check since the release of power-on reset (R67) -/
  passed : Bool
  /-- lanes whose link has gone down since the last gate (R262) -/
  linkDown : Vector Bool 8
  deriving DecidableEq, Repr

def ClkH.reset : ClkH :=
  ⟨0, 0, 0, 0, none, 256, 0, 0, 0x7FFF, 0, 0, 0, [], Vector.replicate 11 0, Vector.replicate 11 0,
    Vector.replicate 11 false, false, Vector.replicate 11 0, 0, 0, 0, false, false, 0, 0, 0, Vector.replicate 8 false, 0xFF, 0, none, false,
    Vector.replicate 8 false⟩

/-! ### Train time (chapter "Train time") -/

/-- A full latch (Table TT-4): the pair's _LO address, the value, the half read first, the fraction, counted clk. -/
structure Latch where
  pair : Nat
  value : Nat
  hiFirst : Bool
  frac : Nat
  age : Nat
  deriving DecidableEq, Repr

/-- A full write stage (R88): the pair's _LO address, the staged value, counted clk. -/
structure Stage where
  pair : Nat
  value : Word
  age : Nat
  deriving DecidableEq, Repr

/-- The Sync applied last, as the relay passes it on (R84): the slave port, the receive time, origin and correction in units of
2^-8 ns, rateRatio − 1 in units of 2^-41. -/
structure SyncRec where
  port : Nat
  rx : Int
  origin : Int
  corr : Int
  ratio : Int
  deriving DecidableEq, Repr

/-- The time base and the servo. -/
structure TtH where
  /-- TT in units of 2^-84 ns, below 2^148: 64 bits of ns and every remainder R74 carries -/
  t : Nat
  /-- the slew left, signed, in units of 2^-84 ns (R81); whether a host write started it, so that it runs at TT_SLEW_RATE, and
  not the servo, whose slews run at slew_max -/
  slew : Int
  slewHost : Bool
  /-- the last 8 rateRatio − 1 values, newest first, units of 2^-41 (R80) -/
  ratios : List Int
  /-- consecutive Syncs within and outside lock_ns (Table TT-2) -/
  good : Nat
  bad : Nat
  /-- the announced sync interval in ns and the TT of the last applied Sync (R83) -/
  interval : Nat
  lastSync : Nat
  relay : Option SyncRec
  /-- this node is grandmaster -/
  gm : Bool
  /-- a capture of SNAP unit n is pending (R89) -/
  snap : Vector Bool 4
  latches : List (Reader × Latch)
  stages : List (Reader × Stage)
  /-- TT on the core edge before, in the same units, from which the edge units place a transition (R246) -/
  last : Nat
  deriving DecidableEq, Repr

def TtH.reset : TtH := ⟨0, 0, false, [], 0, 0, 125000000, 0, none, false, Vector.replicate 4 false, [], [], 0⟩

/-! ### The fault log and the recovery ladder -/

/-- Hidden state of the fault log, the watchdogs and the recovery ladder (R410 to R422). -/
structure FltH where
  /-- sequence number of the next record -/
  seq : Nat
  /-- L of each tile's watchdog, and its backstop's remaining watch cycles -/
  wdtL : Vector Nat 24
  backstop : Vector Nat 24
  /-- TT of the last progress event of each function -/
  progress : Vector Nat 11
  /-- the instants the Squall windows opened: fails and re-inits by TT, resets by watch cycles -/
  failOpen : Vector Nat 11
  reinitOpen : Vector Nat 11
  resetOpen : Nat
  /-- a rung 2 due on a function; a rung 3 or 4 due, with its cause and function -/
  due2 : Vector Bool 11
  due : Option (Nat × Nat × Nat)
  /-- the mode a disabling function keeps until it is idle, where its mode changes, and whether its block is then reset -/
  next : Vector (Option Nat) 11
  reinit : Vector Bool 11
  /-- TT of the Thaw that a stable run counts from -/
  stableFrom : Option Nat
  deriving DecidableEq, Repr

def FltH.reset : FltH :=
  ⟨0, Vector.replicate 24 0, Vector.replicate 24 0, Vector.replicate 11 0, Vector.replicate 11 0, Vector.replicate 11 0,
    0, Vector.replicate 11 false, none, Vector.replicate 11 none, Vector.replicate 11 false, none⟩


/-! ### Tiles -/

/-- One entry of the accumulator pipeline (R105, R107). -/
inductive AccOp where
  /-- adds a product to the accumulator -/
  | add (p : Int)
  /-- replaces the accumulator: CLRA and LDA -/
  | load (v : Int)
  /-- an MTS to AL, AH or AX (2, 3, 4) -/
  | part (n : Nat) (v : Word)
  deriving DecidableEq, Repr

/-- One entry of the multiplier pipeline: a product, or an MTS to ML or MH (0, 1). -/
inductive MulOp where
  | product (lo hi : Word)
  | part (n : Nat) (v : Word)
  deriving DecidableEq, Repr

/-- A divide in flight: edges left, results, whether it sets WST.dv, and the registers an MTS of the same edge keeps. -/
structure DivOp where
  left : Nat
  qt : Word
  rm : Word
  dv : Bool
  keepQ : Bool
  keepR : Bool
  deriving DecidableEq, Repr

/-- What a tile enters: synchronous exception `vec` with its ESR detail, or event `e` at priority `p` (Table EXC-6). -/
inductive Cause where
  | sync (vec detail : Nat)
  | event (e p : Nat)
  deriving DecidableEq, Repr

/-- An entry that has been decided and waits for the memory of its frame: the cause, its EPC, and whether the vector read finds
an uncorrectable line (R125, R136). -/
structure Entry where
  cause : Cause
  epc : Word
  bad : Bool
  deriving DecidableEq, Repr

/-- A posted write (R104). -/
structure Posted where
  io : Bool
  addr : Nat
  bytes : Nat
  value : Word
  vital : Bool
  sup : Bool
  /-- the priority at which it was issued, whose write stage it uses (R85, R88) -/
  pri : Nat
  deriving DecidableEq, Repr

/-- A load or IN whose data has not returned (R104): its instruction word, destination, address and form. -/
structure Load where
  io : Bool
  addr : Nat
  bytes : Nat
  signed : Bool
  ga : Fin 16
  word : Word
  deriving DecidableEq, Repr

/-- A long instruction in progress (R111 to R113). -/
structure Long where
  kind : Nat
  ga : Fin 16
  gb : Fin 16
  gc : Fin 16
  minor : Nat
  word : Word
  /-- the setup and first element cannot be interrupted -/
  first : Bool
  deriving DecidableEq, Repr

/-- The seven result registers. -/
structure Results where
  ml : Word
  mh : Word
  al : Word
  ah : Word
  ax : Word
  qt : Word
  rm : Word
  deriving DecidableEq, Repr

def Results.zero : Results := ⟨0, 0, 0, 0, 0, 0, 0⟩

/-- An entry of the gate stack (R121). -/
structure GateEntry where
  pc : Word
  wst : Word
  depth : Nat
  g : Vector Word 7
  res : Results
  deriving DecidableEq, Repr

/-- The hidden record of a priority (R130, R132, R133): the interrupted world and priority, and for a cross-world entry
everything else. -/
structure Record where
  world : Nat
  pri : Nat
  cross : Bool
  pc : Word
  wst : Word
  prog : Word
  g : Vector Word 15
  res : Results
  deriving DecidableEq, Repr

/-- A tile's processor state. -/
structure Tile where
  /-- in tile reset; edges still to pass before release; held for a vote gate; TCMs still to be loaded -/
  held : Bool
  wait : Nat
  pinned : Bool
  unloaded : Bool
  /-- edges counted since a lockup or an uncorrectable TCM word (R135, R417) -/
  lockup : Option Nat
  /-- issue has stopped at a lockup; halted at a BRK; waiting in WAIT -/
  stopped : Bool
  halted : Bool
  waiting : Bool
  /-- the WAIT was executed with Doze enabled (R339) -/
  doze : Bool
  g : Vector Word 15
  /-- SP of Vital user, Vital supervisor, Common user, Common supervisor -/
  sp : Vector Word 4
  pc : Word
  res : Results
  prog : Word
  wst : Word
  epc : Word
  esr : Word
  einst : Word
  hold : Nat
  cyc : Word
  mulQ : List (Nat × MulOp)
  macQ : List (Nat × AccOp)
  div : Option DivOp
  /-- MTS to QT or RM (5, 6) not yet written -/
  qrQ : List (Nat × Nat × Word)
  posted : List Posted
  load : Option Load
  long : Option Long
  /-- an access waits for a wake: its OFFLINE detail, its instruction word and its address (R136) -/
  woa : Option (Nat × Word × Nat)
  gates : List GateEntry
  recs : Vector (Option Record) 16
  /-- sync depths of priorities 0 to 15 and, at 16, of thread level -/
  depth : Vector Nat 17
  /-- the hold window that the next issue loads (R128) -/
  holdNext : Nat
  /-- the vector index and priority of the handler that loaded HOLD -/
  holder : Option (Nat × Nat)
  /-- lines of the instruction cache by code-window offset / 32, most recently used first -/
  icache : List Nat
  /-- a decided entry that waits for its frame's memory (R125, R136) -/
  entry : Option Entry
  /-- the oldest posted write reached a target with wake-on-access that was Entering, and waits for its wake (R181, R334) -/
  kept : Bool
  deriving DecidableEq, Repr

/-- Tile `t` after a tile reset (Table ISA-12). -/
def Tile.reset : Tile :=
  ⟨true, 0, false, true, none, false, false, false, false, Vector.replicate 15 0, Vector.replicate 4 0, 0, .zero, 0, 0x1F01, 0, 0,
    0, 0, 0, [], [], none, [], [], none, none, none, [], Vector.replicate 16 none, Vector.replicate 17 0, 0, none, [], none,
    false⟩


/-! ### Omtas and the vote gates -/

/-- An Omtas message (Table VOT-1): word 0, the sender and its count, the 64-bit TT of sending, and the payload; in a receive
queue header word 3 stands before the payload. -/
structure Msg where
  w0 : Word
  id : Nat
  tile : Nat
  world : Nat
  sent : Nat
  data : List Word
  deriving DecidableEq, Repr

/-- A message in the fabric: the member slots whose routers it has reached and reserved, those it has become visible at,
and since when it waits for a full queue (R144, R146). -/
structure Flight where
  msg : Msg
  arrived : List Nat
  shown : List Nat
  since : Option Nat
  deriving DecidableEq, Repr

/-- A Shelf entry (R147, R148). -/
structure Shelved where
  msg : Msg
  cause : Nat
  tt : Nat
  deriving DecidableEq, Repr

/-- The fabric's hidden state. -/
structure OmtH where
  /-- the message each page still holds, by 2 t + w -/
  tx : Vector (Option Msg) 48
  flights : List Flight
  /-- receive queues by 8 t + 4 w + q, oldest first -/
  rx : Vector (List Msg) 192
  /-- NACK records by 2 t + w, oldest first, and whether one was dropped -/
  nack : Vector (List Nat) 48
  lost : Vector Bool 48
  /-- Shelf entries by 64 c + i, and by 24 c + t the result of tile t's last SHELF_CMD -/
  shelf : List (Nat × Shelved)
  cmdResult : Vector Nat 144
  deriving DecidableEq, Repr

def OmtH.reset : OmtH :=
  ⟨Vector.replicate 48 none, [], Vector.replicate 192 [], Vector.replicate 48 [], Vector.replicate 48 false, [],
    Vector.replicate 144 0⟩

/-- A vote write: slot, value, origin stamp, and at port 30 the member's counters (R151, R157). -/
structure VoteW where
  slot : Nat
  value : Word
  stamp : Nat
  seqs : List Nat
  deriving DecidableEq, Repr

/-- The definition a comparison keeps over an epoch (R37): slot tiles with their suspect marks, skew_ns, the checksum flag, and
whether the group's counters have been reset since, so that its tags are not those of later writes and it stands apart. -/
structure GrpDef where
  tiles : List (Nat × Bool)
  skew : Nat
  checksum : Bool
  apart : Bool
  deriving DecidableEq, Repr

/-- A comparison at a gate (R152, R153): its start, the writes counted, whether it is decided, with the released value (none:
SAFE) and the agreeing slots, whether the third write is still awaited, whether its tag has been passed, whether the group
was LIVE at the decision and which slots were current then, whether the finalize instant has passed, whether HA mode has
stopped the port at it, and whether a host verdict released it. -/
structure Cmp where
  gate : Nat
  port : Nat
  tag : Nat
  start : Nat
  writes : List VoteW
  decided : Bool
  value : Option Word
  agree : List Nat
  third : Bool
  retired : Bool
  live : Bool
  members : List Nat
  final : Bool
  stopped : Bool
  byHost : Bool
  old : Option GrpDef
  deriving DecidableEq, Repr

/-- A verdict on the way to a member gate, or that gate's own (R150): code 0 a release of a value; 1 SAFE; 2 and 3 the third
slot suspect, as minority or missing, and 5 the third write equal, the value naming the slot; 4 a stop for the host (R163). -/
structure Verdict where
  gate : Nat
  port : Nat
  tag : Nat
  code : Nat
  value : Word
  deriving DecidableEq, Repr

/-- A vote on port configuration in progress (R154): port, whether AUX, TT of the first write, and the slots' values. -/
structure CfgVote where
  port : Nat
  aux : Bool
  first : Nat
  vals : List (Nat × Word)
  deriving DecidableEq, Repr

/-- A voted frame agreed and to be read (R165). -/
structure VFrame where
  port : Nat
  tag : Nat
  value : Word
  slot : Nat
  /-- Table VOT-8, as at the release -/
  trailer : List Byte
  deriving DecidableEq, Repr

/-- A vote group's hidden state, the same at every gate. -/
structure GrpH where
  live : Bool
  /-- the tile of each slot, and whether the slot is suspect or lost -/
  tiles : List (Nat × Bool)
  seq : Vector (Vector Nat 32) 3
  cmps : List Cmp
  /-- writes on their way to other gates: gate, port, tag, write -/
  transit : List (Nat × Nat × Nat × VoteW)
  /-- the writes that were in flight when an epoch reset the group's counters (R37) -/
  strays : List (Nat × Nat × Nat × VoteW)
  /-- per gate and port the next tag to pass, and per port the next tag to release -/
  next : Vector (Vector Nat 32) 6
  rel : Vector Nat 32
  own : List Verdict
  lead : List Verdict
  cfg : Vector Nat 32
  aux : Vector Nat 32
  /-- per port and slot, the buffer address and world written for kind 5: (port, slot, address, world) -/
  bufs : List (Nat × Nat × Nat × Nat)
  cfgVotes : List CfgVote
  released : Vector Nat 32
  locked : Bool
  safeCause : Nat
  ckpt : Nat
  /-- agreed control codes whose effect is still to come (Table VOT-6) -/
  ctl : List Nat
  /-- takeover: phase, slot to fill, spare, donor slot, cause (Table VOT-7, R162), and the tile that joined and waits to leave
  its reset -/
  phase : Nat
  joinSlot : Nat
  spare : Option Nat
  donor : Nat
  tkCause : Nat
  joined : Option Nat
  /-- the voted frames to be read -/
  frames : List VFrame
  /-- the checkpoint instant last raised at each slot's member -/
  ckptRaised : Vector Nat 3
  /-- the core edge on which the group entered SAFE and its lead's cluster, while the safe action is on its way (Table VOT-4) -/
  safeFrom : Option (Nat × Nat)
  deriving DecidableEq, Repr

def GrpH.reset : GrpH :=
  { live := false, tiles := [], seq := Vector.replicate 3 (Vector.replicate 32 0), cmps := [], transit := [],
    strays := [], next := Vector.replicate 6 (Vector.replicate 32 0), rel := Vector.replicate 32 0, own := [], lead := [],
    cfg := Vector.replicate 32 0, aux := Vector.replicate 32 0, bufs := [], cfgVotes := [],
    released := Vector.replicate 32 0, locked := false, safeCause := 0, ckpt := 0, ctl := [], phase := 0, joinSlot := 0,
    spare := none, donor := 0, tkCause := 0, joined := none, frames := [], ckptRaised := Vector.replicate 3 0,
    safeFrom := none }

/-- A released value on its way to its target (Table VOT-4). -/
structure VoteOut where
  /-- the core edge on which it is applied -/
  due : Nat
  /-- kind 1 (edge compare), 2 or 3 (GPIO set, clear), index, value and mask of Table VOT-5 -/
  kind : Nat
  index : Nat
  value : Word
  mask : Nat
  /-- it failed at its target and is repeated (R166) -/
  again : Bool
  deriving DecidableEq, Repr

/-- The vote gates' hidden state. -/
structure VoteH where
  grp : Vector GrpH 12
  /-- tiles marked suspect since the last device reset (R158) -/
  suspects : List Nat
  /-- the last generation of roles that are not bound now (R37) -/
  gens : List (Nat × Nat)
  /-- the releases on their way to edge channels and GPIO banks, in the order in which they were issued -/
  outs : List VoteOut
  deriving DecidableEq, Repr

def VoteH.reset : VoteH := ⟨Vector.replicate 12 .reset, [], [], []⟩


/-! ### Memory -/

/-- A bank's hidden state. -/
structure BankH where
  /-- the state an entry in progress ends in, and the state requested while in a low-power state (R180, R181) -/
  target : Nat
  next : Option Nat
  /-- the next wake zero-fills the bank (R182, R183) -/
  zero : Bool
  /-- an access with wake-on-access waits for the entry to complete (R181) -/
  woaPend : Bool
  /-- the master ID last granted (R174) -/
  last : Nat
  deriving DecidableEq, Repr

def BankH.reset : BankH := ⟨3, none, true, false, 171⟩

/-- The memories' hidden state. -/
structure MemH where
  /-- banks 0 to 63 device, 64 + 16 c + b cluster -/
  bank : Vector BankH 160
  /-- banks Entering, with the edges counted up to the clamps (Table MEM-8) -/
  entering : List (Nat × Nat)
  /-- corrected words to write back, oldest first, by array and word: banks, 160 the Vault, 161 + 2t and 162 + 2t tile t's TCMs
  (R178) -/
  writeback : List (Nat × Nat)
  /-- lines in the MRAM write buffer, oldest first, and whether new writes are accepted (R188) -/
  lines : List Nat
  mramOpen : Bool
  /-- the 64-bit words found uncorrectable and not written since, by the key of their first byte (R178) -/
  bad : List Nat
  /-- the next group to leave Deep retention, and the banks of the groups started that have not completed (R183) -/
  deepNext : Option Nat
  deepBanks : List Nat
  deriving DecidableEq, Repr

def MemH.reset : MemH := ⟨Vector.replicate 160 .reset, [], [], [], true, [], none, []⟩


/-! ### Data movers -/

/-- One side of a transfer (R195 to R197): the list entry it stands on, its next data address, the bytes left there, the
flags in force, whether an entry is to be fetched, and whether the side has ended. -/
structure Side where
  entry : Nat
  addr : Nat
  rem : Nat
  fixed : Bool
  io : Bool
  last : Bool
  event : Bool
  nocrc : Bool
  fetch : Bool
  ended : Bool
  deriving DecidableEq, Repr

def Side.zero : Side := ⟨0, 0, 0, false, false, false, false, false, false, false⟩

/-- A channel's hidden state. -/
structure DmaH where
  src : Side
  dst : Side
  /-- the DMA CRC function was in HA mode when the transfer started (R205) -/
  ha : Bool
  /-- the state held before a stop (R207) -/
  was : Nat
  /-- beats issued that may still complete in PAUSED or, after ABORT, in DISABLING -/
  left : Nat
  /-- the DISABLE in progress drains (R209, R210) -/
  drain : Bool
  /-- bytes of the CRC still to be stored or read, and those read so far, first byte lowest (R203, R204) -/
  tail : Nat
  ref : List Byte
  /-- the width-8 copy of a takeover runs (R210); the group it serves -/
  copy : Option Nat
  /-- an access with wake-on-access waits for its target -/
  woa : Bool
  /-- after a reset of the engine's tile: the width and the world (Vital) of `left` beats, or of the `tail` octets of the CRC in
  `ref`, whose writes may still complete (R212) -/
  orphan : Option (Nat × Bool)
  /-- beats issued when the pace latch cleared, which a DRAIN still completes (R200) -/
  issued : Nat
  deriving DecidableEq, Repr

def DmaH.reset : DmaH := ⟨.zero, .zero, false, 0, 0, false, 0, [], none, false, none, 0⟩


/-! ### Converters -/

/-- A converter's hidden state. -/
structure AdcH where
  /-- entry in progress, core edge on which its sampling starts, the divider of the run (R215 to R217) -/
  entry : Nat
  start : Nat
  divN : Nat
  /-- the entry in progress has been written or abandoned, and waits for its linked partner (R226) -/
  finished : Bool
  /-- TT[31:0] and the degraded mark of the hold edge, once it has passed -/
  hold : Option (Nat × Bool)
  /-- plausibility mode of the run: HA (R231); comparisons ended by an ABORT of the function (R235) -/
  ha : Bool
  mute : Bool
  /-- the pending instant of the schedule (R225) -/
  sched : Option Nat
  /-- the stream mailbox, oldest first, and the run and entry of the word last removed (R234) -/
  fifo : List Word
  lastOut : Nat × Nat
  /-- the (mailbox, master ID) pairs that have captured the present contents (R232) -/
  seen : List (Nat × Nat)
  /-- triggers on their way: the core edge on which each is accepted, and its start mode (R223, R225) -/
  soon : List (Nat × Nat)
  /-- the run started while the plausibility function was giving way to its new mode (R231) -/
  fresh : Bool
  deriving DecidableEq, Repr

def AdcH.reset : AdcH := ⟨0, 0, 20, false, none, false, false, none, [], (0, 0), [], [], false⟩


/-! ### Edge units and balls -/

/-- A capture word (Table EDG-9). -/
structure Capture where
  value : Word
  falling : Bool
  ovr : Bool
  degraded : Bool
  coarse : Bool
  frac : Nat
  deriving DecidableEq, Repr

/-- An edge channel's hidden state. -/
structure EdgH where
  /-- the capture stages, head first, at most two (R252) -/
  stages : List Capture
  /-- start of the present PWM cycle and of the next, as counter values (R247) -/
  cycle : Nat
  next : Nat
  /-- the duties of the cycle before and of the present cycle (R248, R250) -/
  dPrev : Nat
  dCur : Nat
  /-- a cycle has started since the channel left OFF or since a TT step (R247, R243) -/
  started : Bool
  /-- the duty of the next cycle has been loaded into EDG_ACT; the cycle's compare event has been raised -/
  loaded : Bool
  evtDone : Bool
  /-- the armed compare was past when it was armed (R244) -/
  late : Bool
  /-- a force command waits for the next edge: the level it sets (R245) -/
  force : Option Bool
  /-- counter value of the output's last transition, drawn up to 65 536 ns before each cycle start (R249) -/
  moved : Option Nat
  /-- the last condition of R255 has ended and the output waits for a cycle start (R256) -/
  resume : Bool
  /-- edges left until OFF after a write of enable 0: 2, 1, 0 (R258) -/
  off : Nat
  /-- the core edge of the last arming, after which the comparison runs (R244) -/
  armEdge : Nat
  /-- the instant of the output's last transition, in TT's own units (R246) -/
  instant : Nat
  /-- the channel is voted and its group SAFE (R255) -/
  grpSafe : Bool
  /-- one more than the core edge of the output's last transition; 0 for none (R249) -/
  movedEdge : Nat
  deriving DecidableEq, Repr

def EdgH.reset : EdgH := ⟨[], 0, 0, 0, 0, false, false, false, false, none, none, false, 0, 0, 0, false, 0⟩

/-- A ball's hidden state. -/
structure BallH where
  /-- what the pad drove at the decision edge of a hand-over; none: undriven (R320) -/
  hold : Option Bool
  /-- what the ball drove when its safe condition began (R327 code 3) -/
  keep : Option Bool
  /-- the ball is held by a SAFE group until the first release after LIVE (R327) -/
  votedHold : Bool
  /-- what the AON latch of the pad drives across Drizzle and Cellar (R342) -/
  aon : Option (Option Bool)
  /-- the functions starved on the ball (R319) -/
  starving : List Nat
  /-- the level the ball last had while driven, where a bus keeper holds it; none: not known (R324) -/
  last : Option Bool
  deriving DecidableEq, Repr

def BallH.reset : BallH := ⟨none, none, false, none, [], none⟩

/-! ### The switch -/

/-- A forwarding-database entry: set, way, MAC, VID, port mask, static, and the TT of the last refresh (R267, R269). -/
structure FdbEntry where
  set : Nat
  way : Nat
  mac : Nat
  vid : Nat
  ports : Nat
  fixed : Bool
  last : Nat
  deriving DecidableEq, Repr

/-- An FDB command in progress (R271): op, MAC, VID, port mask, static, port. -/
structure FdbCmd where
  op : Nat
  mac : Nat
  vid : Nat
  ports : Nat
  fixed : Bool
  port : Nat
  deriving DecidableEq, Repr

/-- A frame in the switch: its number, addresses, VID and PCP of its tag (VID 0: untagged service frame), R-tag, EtherType
and payload, length received with FCS, the ports at which the R-tag is removed, the octets where they are sent as they stand
(R285, R288), and the DEI bit of its tag (R268). -/
structure NetFrame where
  id : Nat
  dst : Nat
  src : Nat
  vid : Nat
  pcp : Nat
  rtag : Option Nat
  body : List Byte
  len : Nat
  ing : Nat
  decap : Nat
  raw : Option (List Byte)
  dei : Bool
  deriving DecidableEq, Repr

/-- A gPTP message to be sent: kind (0 Sync, 1 Follow_Up, 2 Pdelay_Req, 3 Pdelay_Resp, 4 Pdelay_Resp_Follow_Up, 5 Announce),
sequence number, TT of queueing, and the times it carries in units of 2^-8 ns: a Follow_Up the origin, the correction and
rateRatio − 1 (2^-41), a Pdelay_Resp the receipt of its request, its Follow_Up the origin of the response (R78, R84). -/
structure Gptp where
  kind : Nat
  seq : Nat
  tt : Nat
  times : List Int
  deriving DecidableEq, Repr

/-- What a port transmits: a frame, complete or still arriving, or a gPTP message. -/
inductive TxItem where
  | frame (f : NetFrame) (whole : Bool)
  /-- a cut-through transmission that ends with the FCS inverted (R274) -/
  | stomped (f : NetFrame)
  | gptp (m : Gptp)
  deriving DecidableEq, Repr

/-- The announced priority vector held at a port: priority1, class, accuracy, variance, priority2, grandmaster, steps, sender,
sender's port; the TT received and the announce interval in ns. -/
structure Announce where
  vec : List Nat
  tt : Nat
  interval : Nat
  deriving DecidableEq, Repr

/-- A port's hidden state. -/
structure PortH where
  queues : Vector (List NetFrame) 8
  gq : List Gptp
  tx : Option TxItem
  /-- the last frame sent, from its destination address on, and the last gPTP message sent -/
  sent : List Byte
  /-- the FCS of the last frame sent was inverted (R274) -/
  sentBad : Bool
  gsent : Option Gptp
  sched : Option Sched
  /-- the schedule that starts at an instant (R37) -/
  next : Option (Option Sched × Nat)
  /-- egress ports to which the frame now arriving is forwarded by cut-through -/
  cutTo : List Nat
  /-- TT of the last HELLO received or of the last ttdp_timeout -/
  hello : Nat
  ann : Option Announce
  /-- (t3, t4) of the last Pdelay exchange, units of 2^-8 ns; t1 of the exchange in progress; neighborRateRatio − 1 in units of
  2^-41 (R84) -/
  pdelay : Option (Int × Int)
  t1 : Option Int
  nrr : Int
  /-- sequence numbers of Sync, Pdelay_Req and Announce, and the TT before which the next is not sent (R283) -/
  seqs : Vector Nat 3
  nextAt : Vector Nat 3
  deriving DecidableEq, Repr

def PortH.reset : PortH :=
  ⟨Vector.replicate 8 [], [], none, [], false, none, none, none, [], 0, none, none, none, 0, Vector.replicate 3 0, Vector.replicate 3 0⟩

/-- A recovery function's hidden state: passed numbers within the window, TT of the last pass; none after a reset (R282). -/
structure RecH where
  seen : Option (List Nat)
  last : Nat
  deriving DecidableEq, Repr

/-- The switch's hidden state. -/
structure NetH where
  port : Vector PortH 10
  fdb : List FdbEntry
  cmd : Option FdbCmd
  /-- learning notifications, oldest first: MAC, VID, port (R270) -/
  learn : List (Nat × Nat × Nat)
  /-- flow meters: green and yellow tokens in units of 1/8000000 octet, and the TT filled to; none: full (R279) -/
  meter : Vector (Option (Nat × Nat × Nat)) 64
  frer : Vector RecH 64
  /-- number of the next frame, and the TT of the last HELLO sent (R285) -/
  nextId : Nat
  helloSent : Nat
  /-- the pair of the FDB command that completed last, with its core edge; and a flush to come once the notifications pending when
  learning was disabled have been read (R271) -/
  lastCmd : Option (Nat × Nat × Nat)
  flushDue : Bool
  /-- the last multiple of 10 ms at which boot-status frames were sent, counted from 1 (R290) -/
  bootSent : Nat
  deriving DecidableEq, Repr

def NetH.reset : NetH :=
  ⟨Vector.replicate 10 .reset, [], none, [], Vector.replicate 64 none, Vector.replicate 64 ⟨none, 0⟩, 0, 0, none, false, 0⟩

/-! ### The host port and the Storekeeper's commands -/

/-- A command waiting for the Storekeeper (R401): for a command frame its port, sender, and VLAN tag; its octets. -/
structure CmdJob where
  frame : Option (Nat × Nat × Option Nat)
  data : List Byte
  deriving DecidableEq, Repr

/-- The host port's hidden state. -/
structure HostH where
  jobs : List CmdJob
  /-- frames received for the host, oldest first; the words of the frame being read; the transmit words written -/
  rx : List (List Byte)
  reading : List Word
  tx : List Word
  /-- HOST_ACC_STAT holds its first failure (R390) -/
  accHeld : Bool
  /-- PERST_N is asserted (R393) -/
  perst : Bool
  /-- per MSI-X vector: the level last seen of its source, and its pending bit (R395); the MSI-X table, 4 words a vector -/
  irq : Vector (Bool × Bool) 16
  msix : Vector Word 64
  /-- MSI-X messages sent, per vector -/
  msgs : Vector Nat 16
  /-- the slot open for a slot write (R377) -/
  slotOpen : Option Nat
  /-- the number of the host's frame in the switch (R396) -/
  txId : Option Nat
  /-- HCS_N is low; of the last host-SPI transaction, the status octet and the word of each word read, and the status octet that
  ends a write (R394) -/
  spiActive : Bool
  spiWords : List (Nat × Word)
  spiEnd : Option Nat
  /-- the PCIe core's configuration: MSI-X enabled, its function mask, and state D3hot (Table HOST-2) -/
  msixOn : Bool
  msixMask : Bool
  d3hot : Bool
  deriving DecidableEq, Repr

def HostH.reset : HostH :=
  ⟨[], [], [], [], false, false, Vector.replicate 16 (false, false),
    Vector.ofFn (fun (i : Fin 64) => if i.val % 4 == 3 then 1 else 0), Vector.replicate 16 0, none, none,
    false, [], none, false, false, false⟩


/-! ### Fieldbuses and serial ports -/

/-- A CAN controller's hidden state: receive words oldest first with the sizes of the frames they make up, the buffers
that entered arbitration since the bus was last idle, one of which may be on the wire, buffers cancelled while on the wire, and
those that still answer a remote frame (R304 to R306). -/
structure CanH where
  rx : List Word
  frames : List Nat
  wire : List Nat
  cancel : List Nat
  replies : List Nat
  deriving DecidableEq, Repr

def CanH.reset : CanH := ⟨[], [], [], [], []⟩

/-- An MVB port's hidden state: committed words by 8 p + w, staged words, the latches of sink ports (reader, port, words, counted
clk), the source port to answer with its words (port 256: the device status), the sink ports that wait for a slave frame,
the TT at which the master frame that waits for its answer was sent as administrator, and the TT of each sink port's last frame (R308, R309). -/
structure MvbH where
  data : List (Nat × Word)
  staged : List (Nat × Word)
  latches : List (Reader × Nat × List Word × Nat)
  reply : Option (Nat × List Word)
  sink : List Nat
  admin : Option Nat
  sunk : List (Nat × Nat)
  deriving DecidableEq, Repr

def MvbH.reset : MvbH := ⟨[], [], [], none, [], none, []⟩

/-- The FIFOs of a UART, SPI or I2C controller, oldest first; a transfer of the I2C controller; the TT at which a target began to
stretch SCL; whether the chip select is asserted (R310 to R312). -/
structure SerH where
  tx : List Word
  rx : List Word
  xfer : Option Word
  stretch : Option Nat
  cs : Bool
  /-- the TT from which, and that until which, a UART drives its direction output active, 0 and 0 for never; a character has been
  received since the line was last marked idle (R310) -/
  deFrom : Nat
  deEnd : Nat
  heard : Bool
  deriving DecidableEq, Repr

def SerH.reset : SerH := ⟨[], [], none, none, false, 0, 0, false⟩

/-- The buses' hidden state; UARTs are 0 to 7, SPI controllers 8 to 11, I2C controllers 12 and 13. -/
structure BusH where
  can : Vector CanH 8
  mvb : Vector MvbH 2
  ser : Vector SerH 14
  deriving DecidableEq, Repr

def BusH.reset : BusH := ⟨Vector.replicate 8 .reset, Vector.replicate 2 .reset, Vector.replicate 14 .reset⟩


/-! ### Power -/

/-- The power block's hidden state. -/
structure PwrH where
  /-- domains Entering for which a wake waits (R334); domains Entering, with the edges counted up to the clamps (R335) -/
  domPend : List Nat
  entering : List (Nat × Nat)
  /-- an entry in progress: to Cellar or to Drizzle, and the last step of Table PWR-5 taken (0 to 3) -/
  entry : Option (Bool × Nat)
  /-- in Drizzle (false) or Cellar (true), and DRZ_TICK when the entry completed -/
  low : Option Bool
  lowFrom : Nat
  /-- the Drizzle cycle in progress: its next entry; whether its watch check has passed; the tick of the last period -/
  cycle : Option Nat
  checked : Bool
  lastTick : Nat
  /-- consecutive counts per entry, consecutive failed cycles, and whether an entry crossed in this cycle (R346, R347) -/
  counts : Vector Nat 8
  fails : Nat
  crossed : Bool
  /-- wake sources that have asserted and wait for the entry to complete or the cycle to end (R343, R347; Table PWR-7) -/
  wakes : Nat
  /-- RSTOUT_N and PWRC_REQ_N are driven low; power-on reset is held; woke is raised at the next Thaw (R351 to R354) -/
  rstout : Bool
  pwrc : Bool
  por : Bool
  woke : Bool
  /-- TT at time 0 of the entry in progress (R342) -/
  entryAt : Nat
  /-- the bank voltages of the Balls and safe levels section, bit b: 1.8 V; none until a section is applied after power-on (R315) -/
  balls : Option Nat
  deriving DecidableEq, Repr

def PwrH.reset : PwrH :=
  ⟨[], [], none, none, 0, none, false, 0, Vector.replicate 8 0, 0, false, 0, true, false, true, false, 0, none⟩

/-! ### The Storekeeper -/

/-- One copy of a protected record (R360): record id, copy 0 or 1, sequence, body, and the CRC of its head. -/
structure RecCopy where
  id : Nat
  copy : Nat
  seq : Nat
  body : List Byte
  crc : Nat
  deriving DecidableEq, Repr

/-- The Storekeeper's fuses, store, records and the boot in progress. -/
structure BootH where
  /-- life-cycle state code; image-key slots: digest, programmed, revoked; blown counter fuses (Table BOOT-1) -/
  lc : Nat
  keys : Vector (List Byte × Bool × Bool) 8
  ctr : Nat
  recs : List RecCopy
  /-- the wrapped command keys of the store, and the Vault's command-key slots (R361) -/
  wrapped : Vector (Option (List Byte)) 4
  cmdKeys : Vector (Option (List Byte)) 4
  /-- the persisted inventory and the slot measurement it belongs to (R381) -/
  persist : Option (List Byte × List Byte)
  /-- slots A and B in the exclusion mask, AON (R374) -/
  excl : Vector Bool 2
  /-- the measurement chain H0 to H3 as far as it has come, and the TCM entries loaded (R368, R372) -/
  chain : List (List Byte)
  loaded : List Nat
  digests : List (List Byte)
  /-- a verdict has been accepted (R376); thaw_go has been written (R375) -/
  verdict : Bool
  go : Bool
  /-- DRZ_TICK at the last reset, from which BOOT_THAW_US counts -/
  resetTick : Nat
  /-- the records of R379 are still to be written; the wait of R376 has timed out -/
  post : Bool
  timedOut : Bool
  /-- a command of R376 to R386 that ends in rung 3 has not ended yet (R387) -/
  busy : Bool
  /-- after rung 3 the Storekeeper is on its way to stage RECORDS, at which it starts (R372, R393; Table BOOT-14) -/
  warm : Bool
  deriving DecidableEq, Repr

def BootH.reset : BootH :=
  { lc := 0, keys := Vector.replicate 8 ([], false, false), ctr := 0, recs := [], wrapped := Vector.replicate 4 none,
    cmdKeys := Vector.replicate 4 none, persist := none, excl := Vector.replicate 2 false, chain := [], loaded := [], digests := [],
    verdict := false, go := false, resetTick := 0, post := false, timedOut := false, busy := false, warm := false }



/-! ### Stops -/

/-- The reasons a step stops with a fault: no meaning of this block answers one; raised by nobody, safe. -/
inductive Fault where
  deriving DecidableEq, Repr

/-- The reasons a step is refused. -/
inductive Refusal where
  /-- the command has no meaning yet; raised by Dispatch.lean alone; safe -/
  | notModelled (mnemonic : String)
  deriving DecidableEq, Repr


/-! ### The state -/

/-- The block's state. -/
structure State where
  /-- every software-visible register by I/O address, where it differs from its reset value -/
  io : List (Nat × Word)
  /-- data memory by physical key, where it differs from what an unlisted byte reads as -/
  mem : List (Nat × Byte)
  /-- the model's own: the count of free values drawn (log 2) -/
  fresh : Nat
  /-- the commands waiting, first in, first out -/
  pending : List Instr
  /-- the inventory -/
  inv : InvH
  /-- the clock -/
  clk : ClkH
  /-- the time base -/
  tt : TtH
  /-- the fault log, the watchdogs and the recovery ladder -/
  flt : FltH
  /-- edge channels, 16 c + k -/
  edg : Vector EdgH 96
  /-- balls -/
  ball : Vector BallH 192
  /-- the frozen or followed input of each pin function, where it differs from its idle level -/
  fnIn : List (Nat × Bool)
  /-- tiles -/
  tiles : Vector Tile 24
  /-- converters, 2 c + x -/
  adc : Vector AdcH 12
  /-- the word the last register read returned to its reader -/
  data : Word
  /-- the memories -/
  memh : MemH
  /-- the Omtas fabric -/
  omt : OmtH
  /-- the vote gates -/
  vote : VoteH
  /-- power -/
  pwr : PwrH
  /-- a debug port is open and a debugger attached to it -/
  dbg : Bool
  /-- DMA channels: 4 t + k, and 96 + 8 c + k -/
  dma : Vector DmaH 144
  /-- per engine, tiles' first: the channel served last and its beats of the present burst (R211) -/
  turn : Vector (Nat × Nat) 30
  /-- the switch -/
  net : NetH
  /-- the host port -/
  host : HostH
  /-- fieldbuses and serial ports -/
  bus : BusH
  /-- the Storekeeper's fuses, store, records and boot -/
  boot : BootH
  deriving DecidableEq, Repr

/-- The delivered device (R443) at power-on reset: every register at its reset value, nothing listed in memory, no command
waiting (log 1). -/
def State.reset : State where
  io := []
  mem := []
  fresh := 0
  pending := []
  inv := .reset
  clk := .reset
  tt := .reset
  flt := .reset
  edg := Vector.replicate 96 .reset
  ball := Vector.replicate 192 .reset
  fnIn := []
  tiles := Vector.replicate 24 .reset
  adc := Vector.replicate 12 .reset
  data := 0
  memh := .reset
  omt := .reset
  vote := .reset
  pwr := .reset
  dbg := false
  dma := Vector.replicate 144 .reset
  turn := Vector.replicate 30 (0, 0)
  net := .reset
  host := .reset
  bus := .reset
  boot := .reset

/-- What a meaning answers. -/
abbrev Outcome := Host.Outcome State Fault Refusal

end Sys2Proof.Machine
end

