-- ==== Sys2Proof/Machine/Ops.lean ====
section
/-!
DEFINITION. Sys2Proof/Machine/Ops.lean: the named operations over the state: registers and their fields, wide pairs, data
memory, train time, free values, event flags, the fault log (R418) and the counts of the recovery ladder (R410).
-/
namespace Sys2Proof.Machine

/-! ### Registers -/

/-- The word register `a` holds. -/
def State.reg (s : State) (a : Nat) : Word := (lookup s.io a).getD (ioReset a)
/-- Gives register `a` the word `v`. -/
def State.setReg (s : State) (a : Nat) (v : Word) : State := { s with io := store s.io a v (ioReset a) }
/-- Bits `lo + w - 1 .. lo` of a word. -/
def bitsOf (v : Word) (lo w : Nat) : Nat := v.toNat / 2 ^ lo % 2 ^ w
/-- A word with bits `lo + w - 1 .. lo` replaced by `n`, taken modulo 2^w. -/
def withBits (v : Word) (lo w n : Nat) : Word :=
  BitVec.ofNat 32 (v.toNat - bitsOf v lo w * 2 ^ lo + n % 2 ^ w * 2 ^ lo)
/-- The value of a field. -/
def State.get (s : State) (f : Fld) : Nat := bitsOf (s.reg f.addr) f.lo f.w
/-- Gives a field a value, leaving the register's other bits as they are. -/
def State.set (s : State) (f : Fld) (n : Nat) : State := s.setReg f.addr (withBits (s.reg f.addr) f.lo f.w n)
/-- Whether a field is not 0. -/
def State.is (s : State) (f : Fld) : Bool := s.get f != 0
/-- Sets a one-bit field, in particular an event flag (R7). -/
def State.raise (s : State) (f : Fld) : State := s.set f 1
/-- Advances a saturating count by one. -/
def State.bump (s : State) (f : Fld) : State := s.set f (min (s.get f + 1) (2 ^ f.w - 1))
/-- Advances a count by one, modulo its width. -/
def State.count (s : State) (f : Fld) : State := s.set f (s.get f + 1)
/-- Gives a field the value of a Bool. -/
def State.setB (s : State) (f : Fld) (b : Bool) : State := s.set f (if b then 1 else 0)
/-- A whole register as a natural number. -/
def State.regN (s : State) (a : Nat) : Nat := (s.reg a).toNat
/-- Gives a whole register a natural number, modulo 2^32. -/
def State.setN (s : State) (a n : Nat) : State := s.setReg a (BitVec.ofNat 32 n)
/-- Advances a whole-register counter by one, modulo 2^32. -/
def State.countReg (s : State) (a : Nat) : State := s.setN a (s.regN a + 1)
/-- The 64-bit value of a wide pair whose _LO is at `a` (R86). -/
def State.pair (s : State) (a : Nat) : Nat := s.regN a + 2 ^ 32 * s.regN (a + 4)
/-- Gives a wide pair a 64-bit value. -/
def State.setPair (s : State) (a n : Nat) : State := (s.setN a n).setN (a + 4) (n / 2 ^ 32)
/-- Returns the registers of the I/O addresses that satisfy `p` to their reset values. -/
def State.resetRegs (s : State) (p : Nat → Bool) : State := { s with io := s.io.filter (fun e => !p e.1) }
/-- Applies `f` where `b` holds. -/
def State.when (s : State) (b : Bool) (f : State → State) : State := if b then f s else s
/-- Applies `f` for each element of a list, in order. -/
def State.forEach {α : Type} (s : State) (l : List α) (f : α → State → State) : State := l.foldl (fun s x => f x s) s

/-- Element `i` of a fixed table replaced by its image. -/
def updAt {α : Type} {n : Nat} (v : Vector α n) (i : Nat) (f : α → α) : Vector α n :=
  if h : i < n then v.set i (f v[i]) else v
/-- Element `i` of a fixed table, `d` past its end. -/
def atD {α : Type} {n : Nat} (v : Vector α n) (i : Nat) (d : α) : α := if h : i < n then v[i] else d
/-- Bit `i` of a number. -/
def bitN (n i : Nat) : Bool := n / 2 ^ i % 2 == 1
/-- A two's-complement number of `w` bits. -/
def signedN (w n : Nat) : Int := if n % 2 ^ w < 2 ^ (w - 1) then (n % 2 ^ w : Nat) else ((n % 2 ^ w : Nat) : Int) - 2 ^ w
/-- An integer as `w` bits of two's complement. -/
def toBits (w : Nat) (i : Int) : Nat := (i % (2 ^ w : Int)).toNat
/-- An integer clamped to the signed range of `w` bits. -/
def clampS (w : Nat) (i : Int) : Int := max (-(2 ^ (w - 1) : Int)) (min (2 ^ (w - 1) - 1 : Int) i)

/-! ### Data memory -/

/-- The byte at a physical memory key. -/
def State.byte (s : State) (k : Nat) : Byte := (lookup s.mem k).getD (memReset k)
/-- Stores a byte at a physical memory key. -/
def State.setByte (s : State) (k : Nat) (v : Byte) : State := { s with mem := store s.mem k v (memReset k) }
/-- The `n` bytes from key `k`. -/
def State.bytes (s : State) (k n : Nat) : List Byte := (List.range n).map (fun i => s.byte (k + i))
/-- Stores bytes from key `k` on. -/
def State.setBytes (s : State) : Nat → List Byte → State
  | _, [] => s
  | k, b :: rest => (s.setByte k b).setBytes (k + 1) rest
/-- The `n`-byte little-endian value at key `k` (R5). -/
def State.load (s : State) (k : Nat) : Nat → Nat
  | 0 => 0
  | n + 1 => (s.byte k).toNat + 256 * s.load (k + 1) n
/-- Stores an `n`-byte little-endian value at key `k` (R5). -/
def State.storeN (s : State) (k n v : Nat) : State := s.setBytes k (leBytes n v)
/-- Returns the memory keys from `lo` below `hi` to what unlisted memory reads as. -/
def State.clearMem (s : State) (lo hi : Nat) : State := { s with mem := s.mem.filter (fun e => !(lo ≤ e.1 && e.1 < hi)) }
/-- The words from key `lo` below `hi` are written whole, with valid check bits (R178). -/
def State.goodMem (s : State) (lo hi : Nat) : State :=
  { s with memh := { s.memh with bad := s.memh.bad.filter (fun k => !(lo ≤ k && k < hi)) } }

/-! ### Free values -/

/-- A fresh free word (log 2). -/
def State.freeWord (s : State) : Word := Config.freeWord s.fresh
/-- A fresh free number (log 2). -/
def State.freeNat (s : State) : Nat := Config.freeNat s.fresh
/-- Moves on to the next free value. -/
def State.drawn (s : State) : State := { s with fresh := s.fresh + 1 }

/-! ### Train time, modes and Frost -/

/-- TT in whole nanoseconds (R73). -/
def State.now (s : State) : Nat := s.tt.t / 2 ^ 84
/-- The fraction of TT in units of 2^-24 ns (R73). -/
def State.frac (s : State) : Nat := s.tt.t % 2 ^ 84 / 2 ^ 60
/-- TT is at or past instant `x` (R77). -/
def State.due (s : State) (x : Nat) : Bool := x ≤ s.now
/-- R61, R74: inc = P × D / 256 of the present cycle, in units of 2^-84 ns. -/
def State.ttInc (s : State) : Nat := (s.regN TT_PERIOD * 2 ^ 32 + s.regN TT_PERIOD_FINE) * s.clk.divD * 2 ^ 20
/-- R81: the rate of the slew in progress in units of 2^-20: TT_SLEW_RATE for a host's slew, slew_max for the servo's. -/
def State.slewRate (s : State) : Nat :=
  max 1 (if s.tt.slewHost then s.get TT_SLEW_RATE.rate else s.get TT_CTRL.slew_max)
/-- R74, R81: what the next core edge adds to TT, in units of 2^-84 ns, and the slew that is left after it. -/
def State.ttAdvance (s : State) : Int × Int :=
  let inc := s.ttInc
  let room : Nat := inc * s.slewRate / 2 ^ 20
  let cut : Int := min (s.tt.slew.natAbs : Int) room
  let sgn : Int := if s.tt.slew < 0 then -1 else 1
  -- s = −sign(A) × min(|A|, inc × r), A being the amount still to be removed from TT
  ((inc : Int) - sgn * cut, s.tt.slew - sgn * cut)
/-- The clock is in REF mode outside a glide. -/
def State.refMode (s : State) : Bool := s.get CLK_STATUS.mode == 1 && !s.is CLK_STATUS.glide
/-- Whether function `f` of the split table works in HA mode: a disabling function takes its new mode when it is idle (R408). -/
def State.ha (s : State) (f : Nat) : Bool :=
  match atD s.flt.next f none with
  | some m => m == 1
  | none => s.is (HOST_FN_STAT.mode f)
/-- Whether function `f` is DISABLING (R408). -/
def State.disabling (s : State) (f : Nat) : Bool := s.get (HOST_FN_STAT.state f) == 1
/-- Whether Frost holds (R375). -/
def State.frost (s : State) : Bool := s.is BOOT_STATUS.frost
/-- The active inventory's bytes, empty before one is applied (R35). -/
def State.invB (s : State) : List Byte := s.inv.active
/-- Whether an inventory is applied. -/
def State.hasInv (s : State) : Bool := !s.inv.active.isEmpty

/-! ### The fault log -/

/-- The level of a fault code (Table FLT-2); BANK_UNCORR takes its source index to tell. -/
def faultLevel (code source : Nat) : Nat :=
  if code < 0x10 then 0 else if code == 0x10 && source == 6 then 2 else if code < 0x20 then 1 else 2

/-- R418: writes one record and raises the flags of Table FLT-8. -/
def State.fault (s : State) (code source : Nat) (detail : Word) : State :=
  let i := s.get FLT_STATUS.next
  let full := s.get FLT_STATUS.level == 64
  let s := s.setN (FLT_LOG i 0) (code + 256 * faultLevel code source + 65536 * (source % 256) + 16777216 * s.flt.seq)
  let s := s.setPair (FLT_LOG i 1) s.now
  let s := s.setReg (FLT_LOG i 3) detail
  let s := { s with flt := { s.flt with seq := (s.flt.seq + 1) % 256 } }
  let s := s.set FLT_STATUS.next ((i + 1) % 64)
  let s := if full then (s.bump FLT_STATUS.overflow).raise FLT_EVENTS.log_overflow
    else s.set FLT_STATUS.level (s.get FLT_STATUS.level + 1)
  let s := s.raise FLT_EVENTS.logged
  let s := s.when (code == 0x05 || code == 0x10 || code == 0x26) (·.raise FLT_EVENTS.uncorr)
  s.when (code == 0x12) (·.raise FLT_EVENTS.plaus)

/-- The records of the log, newest first (R419). -/
def State.newestRecords (s : State) (n : Nat) : List Byte :=
  ((List.range (min n (s.get FLT_STATUS.level))).map (fun k =>
    let i := (s.get FLT_STATUS.next + 63 - k) % 64
    ((List.range 4).map (fun w => leBytes 4 (s.regN (FLT_LOG i w)))).flatten)).flatten

/-! ### The recovery ladder -/

/-- A rung 3 or 4 falls due; the higher one is kept (R412). -/
def State.rungDue (s : State) (rung fn cause : Nat) : State :=
  match s.flt.due with
  | some (r, _, _) => if rung ≤ r then s else { s with flt := { s.flt with due := some (rung, fn, cause) } }
  | none => { s with flt := { s.flt with due := some (rung, fn, cause) } }

/-- R413: a rung 4 that no LADDER command asks for falls due, or a rung 3 in its place. -/
def State.rung4 (s : State) (fn cause : Nat) : State :=
  let limit := s.get LADDER_CFG1.r4_limit
  if limit != 0 && limit ≤ s.get LADDER_STATUS.rung4 then
    let s := ((s.raise LADDER_STATUS.exhausted).raise HOST_EVENTS.ladder_exhausted).rungDue 3 fn cause
    s.fault 0x31 0 (s.reg LADDER_STATUS)
  else s.rungDue 4 fn cause

/-- A rung 3 falls due under R410 with the count of resets: the reset that would reach the limit is a rung 4 instead.  In HA
mode only the LADDER command (cause 1) has it taken (R411). -/
def State.rung3Counted (s : State) (fn cause : Nat) : State :=
  let n := s.get LADDER_STATUS.resets + 1
  let s := s.when (n == 1) (fun s => { s with flt := { s.flt with resetOpen := s.pair DRZ_TICK_LO } })
  let taken := cause == 1 || !s.ha 10
  if max 2 (s.get LADDER_CFG1.reset_limit) ≤ n then
    ((s.set LADDER_STATUS.resets 0).raise HOST_EVENTS.squall).when taken (·.rung4 fn cause)
  else (s.set LADDER_STATUS.resets n).when taken (·.rungDue 3 fn cause)

/-- A fail report of function `f` (R410). -/
def State.failReport (s : State) (f : Nat) : State :=
  let n := s.get (HOST_FN_COUNT.fails f) + 1
  let s := (s.set (HOST_FN_COUNT.fails f) n).when (n == 1) (fun s =>
    { s with flt := { s.flt with failOpen := updAt s.flt.failOpen f (fun _ => s.now) } })
  if s.get LADDER_CFG0.fail_limit ≤ n then
    ((s.set (HOST_FN_COUNT.fails f) 0).raise HOST_EVENTS.squall).when (!s.ha 10)
      (fun s => { s with flt := { s.flt with due2 := updAt s.flt.due2 f (fun _ => true) } })
  else s

/-- A second transport error after rung 1 is a fail report and RETRY_FAIL (Tables HOST-9, FLT-2); the spec does not say of which
function, so the function is free (log 2). -/
def State.retryFail (s : State) : State :=
  let f := s.freeNat % 11
  (s.drawn.failReport f).fault 0x2F f 0

/-- A progress event of function `f` (R422). -/
def State.progress (s : State) (f : Nat) : State :=
  { s with flt := { s.flt with progress := updAt s.flt.progress f (fun _ => s.now) } }

/-! ### Writers (Table MEM-5 and the chapters' register sections) -/

/-- Vital supervisor, the Storekeeper and the host. -/
def devWriter : Master → Bool
  | .tile _ vital sup => vital && sup
  | .storekeeper => true
  | .host => true
  | _ => false
/-- Supervisor level of either world, the Storekeeper and the host. -/
def supWriter : Master → Bool
  | .tile _ _ sup => sup
  | .storekeeper => true
  | .host => true
  | _ => false
/-- Vital supervisor and the Storekeeper. -/
def vitalOrSk : Master → Bool
  | .tile _ vital sup => vital && sup
  | .storekeeper => true
  | _ => false
/-- The world a master acts in: DMA channels act for their owner world, the host as Common (R171), and the others as Vital
(R4, Table MEM-5). -/
def masterVital : Master → Bool
  | .tile _ v _ => v
  | .tdma _ _ v => v
  | .cdma _ _ v => v
  | .host => false
  | _ => true
/-- The master ID (Table MEM-5). -/
def masterId : Master → Nat
  | .tile t _ _ => t
  | .tdma t k _ => 24 + 4 * t + k
  | .cdma c k _ => 120 + 8 * c + k
  | .storekeeper => 168
  | .host => 169
  | .switch => 170

end Sys2Proof.Machine
end

