-- ==== Sys2Proof/Machine/Pads.lean ====
section
/-!
DEFINITION. Sys2Proof/Machine/Pads.lean: balls, pads and pin ownership (R314 to R332), the safe levels of balls and of edge
channels (R255, R256, R327, R328), and the start of a Vault wipe (R186).
-/
namespace Sys2Proof.Machine

/-! ### Power domains as the other blocks see them -/

/-- The core domain has its supply: not in Drizzle or Cellar, in power-on reset or behind PWRC_REQ_N. -/
def powered (s : State) : Bool := s.pwr.low.isNone && !s.pwr.por && !s.pwr.pwrc
/-- No clock-fault hold, in which every core-domain block but the Storekeeper and the ladder is stopped (R67). -/
def live (s : State) : Bool := s.clk.hold == 0
/-- Whether the blocks of the core domain work. -/
def coreOn (s : State) : Bool := powered s && live s
/-- Whether the Storekeeper runs: in clock-fault hold on the watch oscillator, once the switch to it is done (R46, R59). -/
def skRuns (s : State) : Bool := powered s && (live s || s.clk.switch.isNone)

/-- The effect of a command on a block of the core domain: none in clock-fault hold, in which the block is stopped (R67). -/
def inCore (f : State → State) (s : State) : State := if live s then f s else s
/-- Out of hold the block works. -/
@[simp] theorem inCore_live (f : State → State) (s : State) (h : live s = true) : inCore f s = f s := if_pos h

/-- Whether power domain `d` works: On, or Entering before its clamps engage (R335; Table PWR-1's order), and clocked (R67). -/
def domOn (s : State) (d : Nat) : Bool :=
  (s.get (PWR_DOM_STAT.state d) == 0 || (s.get (PWR_DOM_STAT.state d) == 2 && !s.is (PWR_DOM_STAT.clamped d))) && live s
/-- Domain index of cluster `c`. -/
def domCluster (c : Nat) : Nat := 3 + c
/-- Domain index of tile `t`. -/
def domTile (t : Nat) : Nat := 9 + t
/-- Domain index of converter pair `c`. -/
def domPair (c : Nat) : Nat := 33 + c
/-- Domain index of lane `p`. -/
def domLane (p : Nat) : Nat := 39 + p

/-- The cluster whose domain holds domain `d`: a tile's or a pair's (R333). -/
def domParent (d : Nat) : Option Nat :=
  if 9 ≤ d && d < 33 then some ((d - 9) / 4) else if 33 ≤ d && d < 39 then some (d - 33) else none
/-- R334: On is not refused because the domain's cluster domain is Off. -/
def wakeable (s : State) (d : Nat) : Bool := (domParent d).all (fun c => s.get (PWR_DOM_STAT.state (domCluster c)) != 1)

/-! ### The Vault wipe -/

/-- R186: a wipe cause engages the clamps and starts the clear; a cause during a wipe extends it. -/
def vaultWipe (cause : Nat) (s : State) : State :=
  let s := s.when (!s.is VAULT_STATUS.wiping) (·.bump VAULT_STATUS.wipes)
  let s := ((s.raise VAULT_STATUS.wiping).set VAULT_STATUS.last_cause cause).set VAULT_STATUS.restored 0
  s.fault 0x27 cause 0

/-! ### Edge channels: safe levels -/

/-- Function codes of EDG_CH_CTRL.func. -/
def fnTIMER : Nat := 0
def fnCOMPARE : Nat := 1
def fnPWM : Nat := 2
def fnCAPTURE : Nat := 3
def fnPWMCOMP : Nat := 4

/-- Changes channel `e` = 16c + k's hidden state. -/
def State.modEdg (s : State) (e : Nat) (f : EdgH → EdgH) : State := { s with edg := updAt s.edg e f }
/-- Channel `e`'s hidden state. -/
def State.edgOf (s : State) (e : Nat) : EdgH := atD s.edg e EdgH.reset

/-- The conditions of R255 on channel k of cluster c. -/
def chanSafeCond (c k : Nat) (s : State) : Bool :=
  s.frost || s.clk.hold != 0 || !domOn s (domCluster c) ||
  (s.is (EDG_STATUS.lull c) && s.is (EDG_CH_CTRL.lull_safe c k)) || bitN (s.get (EDG_VOTED.group_safe c)) k

/-- Shows whether channel k of cluster c is at its safe level; the change is coarse (R246). -/
def showChanSafe (c k : Nat) (b : Bool) (s : State) : State :=
  let s := s.when (s.is (EDG_CH_STAT.safe c k) != b && s.get (EDG_CH_STAT.state c k) != 0)
    (·.raise (EDG_CH_STAT.coarse c k))
  (s.setB (EDG_CH_STAT.safe c k) b).setB ⟨EDG_STATUS c, k, 1⟩ b

/-- The UART drives its direction output (R310). -/
def uartDrives (s : State) (u : Nat) : Bool :=
  let h := atD s.bus.ser u SerH.reset
  s.is (UART_CTRL.rs485 u) && ((!h.tx.isEmpty && !s.frost) || s.now < h.deEnd)

/-- R255, R256: a channel's output goes to its safe level, or, once the last condition has ended, waits to resume: in PWM and
PWM_COMP for a cycle start, else for the next edge.  In OFF it is undriven at once. -/
def refreshChan (c k : Nat) (s : State) : State :=
  if chanSafeCond c k s then
    showChanSafe c k true (s.modEdg (16 * c + k) (fun h => { h with resume := false }))
  else if s.is (EDG_CH_STAT.safe c k) && s.get (EDG_CH_STAT.state c k) != 0 then
    s.modEdg (16 * c + k) (fun h => { h with resume := true })
  else showChanSafe c k false s

/-- Every channel after a change of Frost, Lull or hold. -/
def refreshChans (s : State) : State :=
  s.forEach (List.range 6) (fun c s => s.forEach (List.range 16) (fun k => refreshChan c k))

/-! ### Balls -/

/-- Changes ball `n`'s hidden state. -/
def State.modBall (s : State) (n : Nat) (f : BallH → BallH) : State := { s with ball := updAt s.ball n f }
/-- Ball `n`'s hidden state. -/
def State.ballOf (s : State) (n : Nat) : BallH := atD s.ball n BallH.reset

/-- The idle level of a function's input before it first owns its ball (R322). -/
def idleInput (code : Nat) : Bool :=
  if code < 0x70 then false
  else if code < 0x80 then code % 2 == 1
  else if code < 0x90 then (code - 0x80) % 6 == 2 || (code - 0x80) % 6 == 5
  else if code < 0xB0 then (code - 0x90) % 3 == 1
  else if code < 0xD0 then 3 ≤ (code - 0xB0) % 7
  else true
/-- The input a function sees (R322). -/
def fnInput (s : State) (code : Nat) : Bool := (lookup s.fnIn code).getD (idleInput code)
/-- Sets the input a function sees. -/
def setFnInput (code : Nat) (b : Bool) (s : State) : State := { s with fnIn := store s.fnIn code b (idleInput code) }

/-- Whether a bus controller is in RUN or DISABLING, by its X_STATUS address. -/
def busRunning (s : State) (status : Nat) : Bool := bitsOf (s.reg status) 0 2 != 0

/-- Whether a function requests its ball (Table PIN-4). -/
def requests (s : State) (code : Nat) : Bool :=
  if code == 0 then false
  else if code == 1 then true
  else if code < 0x70 then
    let c := (code - 0x10) / 16
    let k := (code - 0x10) % 16
    s.get (EDG_CH_STAT.state c k) != 0 ||
      (List.range 16).any (fun j => s.get (EDG_CH_STAT.state c j) != 0 && s.get (EDG_CH_CTRL.in_sel c j) == k &&
        (s.get (EDG_CH_CTRL.func c j) == fnCAPTURE || s.get (EDG_CH_CTRL.src c j) == 1))
  else if code < 0x80 then busRunning s (CAN_STATUS ((code - 0x70) / 2))
  else if code < 0x8C then
    let m := (code - 0x80) / 6
    busRunning s (MVB_STATUS m) &&
      (if (code - 0x80) % 6 < 3 then s.is (MVB_CTRL.line_a_en m) else s.is (MVB_CTRL.line_b_en m))
  else if 0x90 ≤ code && code < 0xA8 then
    let u := (code - 0x90) / 3
    busRunning s (UART_STATUS u) && ((code - 0x90) % 3 != 2 || s.is (UART_CTRL.rs485 u))
  else if 0xB0 ≤ code && code < 0xCC then
    let i := (code - 0xB0) / 7
    busRunning s (SPI_STATUS i) && (!s.is (SPI_CTRL.target i) || (code - 0xB0) % 7 ≤ 3)
  else if 0xD0 ≤ code && code < 0xD4 then busRunning s (I2C_STATUS ((code - 0xD0) / 2))
  else false

/-- Candidate `j` of ball `n`. -/
def candOf (s : State) (n j : Nat) : Nat := bitsOf (s.reg (PIN_CAND n)) (8 * j) 8
/-- R319: the index of the first candidate that requests; 7 for none. -/
def wantedOwner (s : State) (n : Nat) : Nat := ((List.range 4).find? (fun j => requests s (candOf s n j))).getD 7
/-- R319: the candidates other than GPIO that request behind the owner. -/
def starvedOn (s : State) (n idx : Nat) : List Nat :=
  ((List.range 4).filter (fun j => idx < j && candOf s n j != 1 && requests s (candOf s n j))).map (candOf s n)

/-- Level bit k of bank b in a 24-bit bank register. -/
def bankBit (s : State) (a n : Nat) : Bool := bitN (s.regN a) (n % 24)

/-- The safe code in force on a ball: the channel's while an edge function owns it, else the ball record's (R327). -/
def safeCode (s : State) (n : Nat) : Nat :=
  let o := s.get (PIN_OWNER.owner n)
  if s.get (PIN_OWNER.phase n) != 2 && 0x10 ≤ o && o < 0x70 then
    bitsOf (s.reg (EDG_SAFE_LVL ((o - 0x10) / 16))) (2 * ((o - 0x10) % 16)) 2
  else s.get (PIN_PADCFG.safe n)

/-- What a ball drives at its safe code, `kept` being what code 3 holds: none is undriven. -/
def safeFrom (s : State) (n : Nat) (kept : Option Bool) : Option Bool :=
  match safeCode s n with
  | 0 => some false
  | 1 => some true
  | 2 => none
  | _ => kept
/-- What a ball at its safe level drives. -/
def safeDrive (s : State) (n : Nat) : Option Bool := safeFrom s n (s.ballOf n).keep

/-- The direction of a serial function at its ball (Table PIN-2): 0 input, 1 output, 2 open drain. -/
def serialDir (s : State) (code : Nat) : Nat :=
  if code < 0x80 then (code + 1) % 2
  else if code < 0x8C then (if (code - 0x80) % 3 == 2 then 0 else 1)
  else if 0x90 ≤ code && code < 0xA8 then (if (code - 0x90) % 3 == 1 then 0 else 1)
  else if 0xB0 ≤ code && code < 0xCC then
    -- SDT is the target's output and the controller's input, the others are the controller's
    (if ((code - 0xB0) % 7 == 2) == s.is (SPI_CTRL.target ((code - 0xB0) / 7)) then 1 else 0)
  else if 0xD0 ≤ code && code < 0xD4 then 2
  else 0
/-- What a serial function drives: an input nothing, an open drain low or nothing, a UART's direction output the level of R310,
another output the level `serial`, which is free where none is given (log 33). -/
def serialDrive (s : State) (code : Nat) (serial : Option Bool) : Option Bool :=
  match serialDir s code with
  | 0 => none
  | 2 => if serial == some false then some false else none
  | _ =>
    if 0x90 ≤ code && code < 0xA8 && (code - 0x90) % 3 == 2 then
      some (uartDrives s ((code - 0x90) / 3) != s.is (UART_CTRL.de_pol ((code - 0x90) / 3)))
    else some (serial.getD (s.freeNat % 2 == 1))

/-- What an owner drives onto its ball; a serial function's bit waveform is not followed (log 33). -/
def ownerDrive (s : State) (n : Nat) (serial : Option Bool) : Option Bool :=
  let o := s.get (PIN_OWNER.owner n)
  if o == 0 then none
  else if o == 1 then (if bankBit s (GPIO_DIR (n / 24)) n then some (bankBit s (GPIO_OUT (n / 24)) n) else none)
  else if o < 0x70 then
    let c := (o - 0x10) / 16
    let k := (o - 0x10) % 16
    let f := s.get (EDG_CH_CTRL.func c k)
    if s.get (EDG_CH_STAT.state c k) != 0 && (f == fnCOMPARE || f == fnPWM || f == fnPWMCOMP) then
      some (s.is (EDG_CH_STAT.level c k) != s.is (EDG_CH_CTRL.pol c k))
    else none
  else serialDrive s o serial

/-- What the pad of ball `n` drives now (R315, R320, R327). -/
def padDrive (s : State) (n : Nat) (serial : Option Bool) : Option Bool :=
  if s.is (PIN_BANK_STAT.mismatch (n / 24)) then none
  else if (s.ballOf n).aon.isSome then ((s.ballOf n).aon).join
  else if s.pwr.balls.isNone then none
  else if s.is (PIN_OWNER.safe n) || s.get (PIN_OWNER.phase n) == 2 then safeDrive s n
  else if s.get (PIN_OWNER.phase n) == 1 then (s.ballOf n).hold
  else ownerDrive s n serial

/-- Whether the power domain behind a function is off (R327). -/
def ownerOff (s : State) (code : Nat) : Bool := 0x10 ≤ code && code < 0x70 && !domOn s (domCluster ((code - 0x10) / 16))

/-- The conditions of R327 on ball `n`. -/
def ballSafeCond (s : State) (n : Nat) : Bool :=
  let o := s.get (PIN_OWNER.owner n)
  s.frost || s.clk.hold != 0 || (s.ballOf n).votedHold || ownerOff s o || s.get (PIN_OWNER.phase n) == 2 ||
  (s.get (PIN_OWNER.phase n) == 0 && (s.get (PIN_OWNER.index n) == 7 ||
  0x10 ≤ o && o < 0x70 && s.is (EDG_CH_STAT.safe ((o - 0x10) / 16) ((o - 0x10) % 16))))

/-- R327, R328: the ball, whose pad drove `d` until now, goes to its safe level, remembering `d`, or takes its owner's drive
again. -/
def refreshFrom (d : Option Bool) (n : Nat) (s : State) : State :=
  let c := ballSafeCond s n
  (s.when (c && !s.is (PIN_OWNER.safe n)) (·.modBall n (fun h => { h with keep := d }))).setB (PIN_OWNER.safe n) c
/-- R327, R328: ball `n` after a change of a condition that leaves what drives it. -/
def refreshBall (n : Nat) (s : State) : State :=
  -- a serial owner's level is free (log 33), one draw for each ball that code 3 then holds
  (refreshFrom (padDrive s n none) n s).when (ballSafeCond s n && !s.is (PIN_OWNER.safe n) && 0x70 ≤ s.get (PIN_OWNER.owner n)) (·.drawn)

/-- Every ball after a change of a condition. -/
def refreshBalls (s : State) : State := s.forEach (List.range 192) refreshBall

/-- Every output after a change of Frost, Lull or hold (R255, R327). -/
def outputsSafe (s : State) : State := refreshBalls (refreshChans s)

/-- R62, R255: Lull reaches the edge units' lull_safe channels, or has left them. -/
def edgeLull (on : Bool) (s : State) : State :=
  outputsSafe (s.forEach (List.range 6) (fun c s => s.setB (EDG_STATUS.lull c) on))

/-! ### Ownership -/

/-- R319, R320: edge 0 of a hand-over.  `serial` is the level a serial owner drives on this edge. -/
def ownerDecision (n : Fin 192) (serial : Option Bool) (s : State) : State :=
  let w := wantedOwner s n
  let l := starvedOn s n w
  -- starved is raised on the first edge of a function's starvation
  let s := s.when (l.any (fun o => !(s.ballOf n).starving.contains o)) (·.raise PIN_EVENTS.starved)
  let s := (s.setB (PIN_OWNER.starved n) (!l.isEmpty)).modBall n (fun h => { h with starving := l })
  if w == s.get (PIN_OWNER.index n) || !s.is PIN_STATUS.applied then s
  else
    let d := padDrive s n serial
    let old := s.get (PIN_OWNER.owner n)
    -- the old owner's input freezes at its value on this edge
    let s := s.when (old != 0 && old != 1) (setFnInput old (fnInput s old))
    let s := s.modBall n (fun h => { h with hold := d })
    let s := (s.set (PIN_OWNER.owner n) (if w == 7 then 0 else candOf s n w)).set (PIN_OWNER.index n) w
    refreshFrom d n ((s.set (PIN_OWNER.phase n) 1).raise PIN_EVENTS.owner_change)

/-- The meaning of OWNER_DECISION. -/
def execOwnerDecision (n : Fin 192) (serial : Option Bool) (s : State) : Outcome := .next (inCore (ownerDecision n serial) s)

/-- Table PIN-5, flag 1, edge 2: the ball goes to its safe level. -/
def safeInterval (n : Fin 192) (s : State) : State :=
  if s.get (PIN_OWNER.phase n) == 1 && s.is (PIN_PADCFG.safe_change n) then
    refreshFrom (padDrive s n none) n (s.set (PIN_OWNER.phase n) 2)
  else s

/-- The meaning of SAFE_INTERVAL_START. -/
def execSafeIntervalStart (n : Fin 192) (s : State) : Outcome := .next (inCore (safeInterval n) s)

/-- Table PIN-5: the takeover edge; the new owner drives, and its input follows the filtered input. -/
def takeoverEdge (n : Fin 192) (s : State) : State :=
  let ph := s.get (PIN_OWNER.phase n)
  if (ph == 1 && !s.is (PIN_PADCFG.safe_change n)) || ph == 2 then
    let d := padDrive s n none
    let s := s.set (PIN_OWNER.phase n) 0
    let o := s.get (PIN_OWNER.owner n)
    let s := s.when (o != 0 && o != 1) (setFnInput o (bankBit s (GPIO_IN (n / 24)) n))
    refreshFrom d n s
  else s

/-- The meaning of TAKEOVER. -/
def execTakeover (n : Fin 192) (s : State) : Outcome := .next (inCore (takeoverEdge n) s)

/-! ### GPIO -/

/-- The writers of the GPIO output and event registers: every master but the switch. -/
def gpioWriter : Master → Bool
  | .switch => false
  | _ => true

/-- R323, R326: a write that changes GPIO_OUT; `bypass` is the output-override command. -/
def gpioOut (bypass : Bool) (b : Nat) (mask : Nat) (f : Nat → Nat → Nat) (s : State) : State :=
  let voted := s.regN (GPIO_VOTED b)
  let hit := mask &&& 0xFFFFFF
  let s := s.when (!bypass && (hit &&& voted) != 0) (·.raise PIN_EVENTS.voted_write)
  let m := if bypass then hit else hit &&& (0xFFFFFF ^^^ (voted &&& 0xFFFFFF))
  s.setN (GPIO_OUT b) (f (s.regN (GPIO_OUT b)) m)

/-- Sets the bits of a mask. -/
def orBits (x m : Nat) : Nat := x ||| m
/-- Clears the bits of a 24-bit mask. -/
def clrBits (x m : Nat) : Nat := x &&& (0xFFFFFF ^^^ m)
/-- Inverts the bits of a mask. -/
def tglBits (x m : Nat) : Nat := x ^^^ m

/-- GPIO_SET, GPIO_CLR, GPIO_TGL as a master writes them. -/
def gpioWrite (m : Master) (b : Nat) (v : Word) (f : Nat → Nat → Nat) (s : State) : State :=
  if gpioWriter m then gpioOut false b v.toNat f s else s

/-- The meaning of GPIO_SET. -/
def execGpioSet (m : Master) (b : Fin 8) (v : Word) (s : State) : Outcome := .next (inCore (gpioWrite m b v orBits) s)
/-- The meaning of GPIO_CLR. -/
def execGpioClr (m : Master) (b : Fin 8) (v : Word) (s : State) : Outcome := .next (inCore (gpioWrite m b v clrBits) s)
/-- The meaning of GPIO_TGL. -/
def execGpioTgl (m : Master) (b : Fin 8) (v : Word) (s : State) : Outcome := .next (inCore (gpioWrite m b v tglBits) s)

/-- R326: a write of GPIO_DIR keeps the voted bits as outputs. -/
def gpioDir (bypass : Bool) (b : Nat) (v : Word) (s : State) : State :=
  let voted := s.regN (GPIO_VOTED b) &&& 0xFFFFFF
  let x := v.toNat &&& 0xFFFFFF
  let s := s.when (!bypass && (voted &&& x) != voted) (·.raise PIN_EVENTS.voted_write)
  s.setN (GPIO_DIR b) (if bypass then x else x ||| voted)

/-- The meaning of GPIO_DIR. -/
def execGpioDir (m : Master) (b : Fin 8) (v : Word) (s : State) : Outcome :=
  .next (inCore (fun s => if gpioWriter m then gpioDir false b v s else s) s)

/-- R324: the level of a ball that nothing outside drives: what its own pad drives, else what its pull gives it; the level of a
keeper that has never been driven, and with pulls off, is free. -/
def ownLevel (s : State) (n : Nat) : Bool :=
  match padDrive s n none with
  | some b => b
  | none =>
    let free := s.freeNat % 2 == 1
    match (if s.pwr.balls.isNone then 0 else s.get (PIN_PULL.pull n)) with
    | 1 => true
    | 2 => false
    | 3 => (s.ballOf n).last.getD free
    | _ => free
/-- R324: a bus keeper takes the level that the ball has while driven. -/
def keeperNote (n : Nat) (level : Bool) (s : State) : State :=
  s.when (s.get (PIN_PULL.pull n) == 3) (·.modBall n (fun h => { h with last := some level }))
/-- R324: what the pads drive now, noted by the bus keepers; a serial owner's level is not known. -/
def keeperCycle (s : State) : State :=
  s.forEach ((List.range 192).filter (fun n => s.get (PIN_PULL.pull n) == 3)) (fun n s =>
    match padDrive s n none with
    | none => s
    | some b =>
      let known := s.get (PIN_OWNER.owner n) < 0x70 || s.is (PIN_OWNER.safe n)
      s.modBall n (fun h => { h with last := if known then some b else none }))

/-- R324, R325: a ball's filtered input takes the level that its outside drives, or, with none outside, its own, first shown by
the synchronised input at TT `t0`. -/
def inputChange (n : Fin 192) (outside : Option Bool) (t0 : Nat) (s : State) : State :=
  let level := outside.getD (ownLevel s n)
  let s := (outside.elim s.drawn (fun b => keeperNote n b s))
  let b := n.val / 24
  let k := n.val % 24
  if bankBit s (GPIO_IN b) n == level || s.is (PIN_BANK_STAT.mismatch b) ||
      !s.due (t0 + 100 * s.get (PIN_PADCFG.filter n)) then s
  else
    let en := if level then GPIO_RISE_EN b else GPIO_FALL_EN b
    let s := s.setB ⟨GPIO_IN b, k, 1⟩ level
    let s := s.when (bankBit s en n) (·.raise ⟨GPIO_EVENTS b, k, 1⟩)
    let o := s.get (PIN_OWNER.owner n)
    s.when (o != 0 && o != 1 && s.get (PIN_OWNER.phase n) == 0) (setFnInput o level)

/-- The meaning of INPUT_CHANGE. -/
def execInputChange (n : Fin 192) (level : Option Bool) (t0 : Nat) (s : State) : Outcome := .next (inCore (inputChange n level t0) s)

/-- R315: a bank's supply is measured, in every state with AON power: absent, 3.3 V or 1.8 V. In mismatch its inputs read 0 at once, without events (log 135). -/
def supplyMeasure (b : Fin 8) (absent v18 : Bool) (s : State) : State :=
  let bad := absent || s.pwr.balls.any (fun v => v18 != bitN v b)
  let was := s.is (PIN_BANK_STAT.mismatch b)
  let s := ((s.setB (PIN_BANK_STAT.mismatch b) bad).setB (PIN_BANK_STAT.measured b) (v18 && !absent)).setB
    (PIN_BANK_STAT.absent b) absent
  let s := s.setB ⟨PIN_STATUS, 8 + b, 1⟩ bad
  let s := s.when bad (fun s => (s.setN (GPIO_IN b) 0).forEach (List.range 24) (fun k s =>
    let n := 24 * b.val + k
    let o := s.get (PIN_OWNER.owner n)
    s.when (o != 0 && o != 1 && s.get (PIN_OWNER.phase n) == 0) (setFnInput o false)))
  let s := s.when (bad && !was) (fun s =>
    (s.raise PIN_EVENTS.supply_mismatch).fault 0x29 b (s.reg (PIN_BANK_STAT b)))
  s

/-- The meaning of SUPPLY_MEASURE. -/
def execSupplyMeasure (b : Fin 8) (absent v18 : Bool) (s : State) : Outcome := .next (supplyMeasure b absent v18 s)

/-- R330: tamper input `x` is armed, and has been at its armed level for the filter time. -/
def tamperTrips (s : State) (x : Fin 2) (level : Bool) (cycles : Nat) : Bool :=
  s.is ⟨PIN_TAMPER, x, 1⟩ && level == s.is ⟨PIN_TAMPER, 2 + x, 1⟩ && max 1 (s.get PIN_TAMPER.filter) ≤ cycles
/-- R330: a tamper input has been at a level for `cycles`. -/
def tamperTrip (x : Fin 2) (level : Bool) (cycles : Nat) (s : State) : State :=
  let trips := tamperTrips s x level cycles
  let s := s.setB ⟨PIN_TAMPER_STAT, x, 1⟩ level
  if trips then
    let s := (s.raise ⟨PIN_TAMPER_STAT, 2 + x, 1⟩).bump PIN_TAMPER_STAT.trips
    let s := s.raise ⟨PIN_EVENTS, 4 + x, 1⟩
    -- the records of one edge in the order of their codes (R418)
    (vaultWipe (1 + x) s).fault 0x28 x 0
  else s

/-- R315: the Balls and safe levels section is applied: candidates, pad configuration and supplies. -/
def applyBalls (b : List Byte) (s : State) : State :=
  let s := s.forEach (List.range 192) (fun n s =>
    let s := s.setN (PIN_CAND n) (u8 (section_ b 5) (8 + 8 * n) + 256 * ballByte b n 1 + 65536 * ballByte b n 2 +
      16777216 * ballByte b n 3)
    s.setN (PIN_PADCFG n) (ballByte b n 4 + 4 * ballByte b n 5 + 16 * ballByte b n 6 + 4096 * ballByte b n 7))
  let volts := ((List.range 8).map (fun k => bank18Of b k * 2 ^ k)).sum
  let s := s.setN PIN_SUPPLY volts
  let s := s.forEach (List.range 6) (fun c s =>
    s.setN (EDG_SAFE_LVL c) ((List.range 16).map (fun k => edgeSafeOf b c k * 4 ^ k)).sum)
  let s := { s with
    ball := s.ball.map (fun (h : BallH) => ({ h with aon := none } : BallH))
    pwr := { s.pwr with balls := some volts } }
  outputsSafe (s.raise PIN_STATUS.applied)

/-- What the AON latches of the pads hold once the blocks behind them are away: each ball's safe level (R342, R354; Table PIN-7). -/
def padLatches (s : State) : Vector BallH 192 :=
  s.ball.mapIdx (fun n (_ : BallH) =>
    let d := padDrive s n none
    { BallH.reset with aon := some (if s.pwr.balls.isNone then none else if s.is (PIN_OWNER.safe n) then d else safeFrom s n d) })

/-- Table PIN-7, rung 3: the balls stay at their safe levels over the reset of the PIN block, with what code 3 holds. -/
def ballsHeld (s : State) : State :=
  s.when s.pwr.balls.isSome (·.forEach (List.range 192) (fun n => (·.raise (PIN_OWNER.safe n))))

end Sys2Proof.Machine
end

