-- ==== Sys2Proof/Machine/Adc.lean ====
section
/-!
DEFINITION. Sys2Proof/Machine/Adc.lean: the converter pairs (R214 to R238): enabling and disabling, triggers, runs, the
result and stream mailboxes, and plausibility.
-/
namespace Sys2Proof.Machine

/-- Changes the hidden state of converter x of pair c. -/
def State.modAdc (s : State) (c x : Nat) (f : AdcH → AdcH) : State := { s with adc := updAt s.adc (2 * c + x) f }
/-- The hidden state of converter x of pair c. -/
def State.adcOf (s : State) (c x : Nat) : AdcH := atD s.adc (2 * c + x) AdcH.reset

/-- Converter states (Table ADC-6). -/
def adcDISABLED : Nat := 0
def adcIDLE : Nat := 1
def adcRUNNING : Nat := 2
def adcDISABLING : Nat := 3

/-- Whether the pair is linked (R226). -/
def adcLinked (s : State) (c : Nat) : Bool := s.is (ADC_PAIR_CTRL.linked c)
/-- The converter whose enable, start and policy fields govern converter x. -/
def adcGov (s : State) (c x : Nat) : Nat := if adcLinked s c then 0 else x
/-- The converters that one trigger of converter x starts. -/
def adcSet (s : State) (c x : Nat) : List Nat := if adcLinked s c then [0, 1] else [x]
/-- A converter's state. -/
def adcState (s : State) (c x : Nat) : Nat := s.get (ADC_STAT.state c x)
/-- Shows a converter's state in ADC_STAT and ADC_PAIR_STATUS. -/
def adcTo (c x st : Nat) (s : State) : State :=
  (s.set (ADC_STAT.state c x) st).set ⟨ADC_PAIR_STATUS c, 4 * x, 3⟩ st
/-- Raises the event of converter x whose CcA flag is at bit b. -/
def adcRaise (c x b : Nat) (s : State) : State := s.raise ⟨ADC_EVENTS c, b + x, 1⟩

/-- N at the start of a run (Table ADC-1, R215): in a glide, that of the faster of its two modes. -/
def adcDivider (s : State) : Nat :=
  let k := if s.is CLK_STATUS.glide then max s.clk.glideFrom s.clk.glideTo
    else match s.get CLK_STATUS.mode with
      | 1 => 750000
      | 3 => 300000
      | _ => 375000
  if 750000 ≤ k then 20 else if 375000 ≤ k then 10 else 8

/-- Sample times in converter clocks (Table ADC-2). -/
def sampleClocks (code : Nat) : Nat :=
  match code with
  | 0 => 5
  | 1 => 9
  | 2 => 17
  | 3 => 33
  | 4 => 49
  | 5 => 65
  | 6 => 97
  | _ => 129

/-- R218: code and clip of an input in units of VREF / 2^24 at a gain code. -/
def adcCode (vin : Int) (gain : Nat) : Nat × Bool :=
  let v := vin * (2 ^ gain : Int)
  if v < 0 then (0, false)
  else if (2 ^ 24 : Int) ≤ v then (4095, true)
  else (min 4095 ((v * 4096 + 2 ^ 23) / 2 ^ 24).toNat, false)

/-! ### Triggers -/

/-- Edge 0 of Table ADC-3 for one converter.  While the plausibility function gives way to another mode the run takes the new mode
(R231); while its rung 2 runs there is no comparison. -/
def adcStart (c x : Nat) (s : State) : State :=
  let run := (s.get (ADC_STAT.run c x) + 1) % 256
  let s := (adcTo c x adcRUNNING s).set (ADC_STAT.run c x) run
  let s := (s.set (ADC_STAT.entry c x) 0).setN (ADC_RUN_TT c x) s.now
  let s := s.forEach (List.range (s.get (ADC_CTRL.length c x) + 1)) (fun i s => s.set ⟨ADC_RES_LO c x i, 12, 1⟩ 0)
  let n := adcDivider s
  s.modAdc c x (fun h => { h with
    entry := 0, start := s.clk.edges + 1, divN := n, finished := false, hold := none, ha := s.is (HOST_FN_STAT.mode 4), fresh := s.disabling 4,
    mute := s.disabling 4 && (atD s.flt.next 4 none).isNone })

/-- R224: `n` triggers of converter x arrive on one edge: at most one is accepted. -/
def adcTriggers (c x n : Nat) (s : State) : State :=
  let st := adcState s c x
  if st == adcDISABLED || n == 0 then s
  else
    let lost := if st == adcIDLE then n - 1 else n
    let s := s.when (st == adcIDLE) (fun s => s.forEach (adcSet s c x) (adcStart c))
    s.when (lost != 0) (fun s => s.forEach (adcSet s c x) (fun y s =>
      (adcRaise c y 6 s).set (ADC_COUNTS.lost c y) (min 0xFFFF (s.get (ADC_COUNTS.lost c y) + lost))))

/-- R223 start mode 0: a GO, with its cmd_result. -/
def adcGo (m : Master) (c x : Nat) (s : State) : State :=
  if !supWriter m || !domOn s (domPair c) then s
  else if adcLinked s c && x == 1 then s
  else if s.get (ADC_CTRL.start c x) != 0 then s.set (ADC_STAT.cmd_result c x) 2
  else match adcState s c x with
    | 0 => s
    | 1 => adcTriggers c x 1 (s.set (ADC_STAT.cmd_result c x) 0)
    | _ => adcTriggers c x 1 (s.set (ADC_STAT.cmd_result c x) 1)

/-- The meaning of ADC_GO. -/
def execAdcGo (m : Master) (c : Fin 6) (x : Fin 2) (s : State) : Outcome := .next (adcGo m c x s)

/-- R223 start mode 1, R225: every instant of the schedule that TT has reached triggers. -/
def adcTtTrigger (c x : Nat) (s : State) : State :=
  if !domOn s (domPair c) || adcGov s c x != x || s.get (ADC_CTRL.start c x) != 1 || adcState s c x == adcDISABLED then s
  else match (s.adcOf c x).sched with
    | none => s
    | some t =>
      if !s.due t then s
      else
        let p := s.regN (ADC_PERIOD c x)
        let n := if p == 0 then 1 else (s.now - t) / p + 1
        let next := if p == 0 then none else some (t + n * p)
        (adcTriggers c x n s).modAdc c x (fun h => { h with sched := next })

/-- The meaning of ADC_TT_TRIGGER. -/
def execAdcTtTrigger (c : Fin 6) (x : Fin 2) (s : State) : Outcome := .next (adcTtTrigger c x s)

/-- A trigger of start mode `mode` reaches converter x after `n` more core edges. -/
def adcSoon (c x mode n : Nat) (s : State) : State :=
  s.modAdc c x (fun h => { h with soon := h.soon ++ [(s.clk.edges + n, mode)] })

/-- R223, R224: the triggers whose edge this is are taken at its end, so that one that comes on the edge on which a run ends starts
the next and one that comes on the edge of a disable is dropped; a voted one in another start mode is refused. -/
def adcArrive (c x : Nat) (s : State) : State :=
  let here := fun (e : Nat × Nat) => decide (e.1 ≤ s.clk.edges)
  let l := (s.adcOf c x).soon.filter here
  if l.isEmpty || !domOn s (domPair c) then s
  else
    let s := s.modAdc c x (fun h => { h with soon := h.soon.filter (fun e => !here e) })
    let voted := s.get (ADC_CTRL.start c x) == 3
    let s := s.when (!voted && l.any (fun e => e.2 == 3)) (·.raise (ADC_EVENTS.trig_refused c))
    adcTriggers c x (l.filter (fun e => e.2 != 3 || voted)).length s

/-- R223 start mode 2: the compare (kind 0) or capture (kind 1) event of channel k of the cluster; it triggers on the edge after. -/
def adcEdgeEvent (c k kind : Nat) (s : State) : State :=
  s.forEach [0, 1] (fun x s =>
    s.when (adcGov s c x == x && s.get (ADC_CTRL.start c x) == 2 && s.get (ADC_CTRL.edge_ch c x) == k &&
      s.get (ADC_CTRL.edge_kind c x) == kind && domOn s (domPair c)) (adcSoon c x 2 1))

/-- R223 start mode 3: a release at the pair with the value `v`, applied `n` core edges from now (Table VOT-4). -/
def adcVoted (c v n : Nat) (s : State) : State :=
  if !domOn s (domPair c) then s
  else s.forEach [0, 1] (fun x s => s.when (bitN v x && adcGov s c x == x) (adcSoon c x 3 n))

/-! ### Enabling and disabling -/

/-- R227, R228: the first failing check of Table ADC-7; 0 when both pass. -/
def adcCheck (s : State) (c x : Nat) : Nat :=
  let len := fun y => s.get (ADC_CTRL.length c y) + 1
  if adcLinked s c then
    if len 0 != len 1 then 1
    else if (List.range (len 0)).all (fun i =>
        (!s.is (ADC_SEQ.paired c 0 i) && !s.is (ADC_SEQ.paired c 1 i)) ||
        (s.is (ADC_SEQ.paired c 0 i) && s.is (ADC_SEQ.paired c 1 i) &&
          bitsOf (s.reg (ADC_SEQ c 0 i)) 0 9 == bitsOf (s.reg (ADC_SEQ c 1 i)) 0 9)) then 0 else 2
  else if (List.range (len x)).any (fun i => s.is (ADC_SEQ.paired c x i)) then 2 else 0

/-- R225: the first instant of a schedule armed now; none where the run starts on the edge after the enable instead. -/
def adcFirstInstant (s : State) (c x : Nat) : Option Nat :=
  let t := s.pair (ADC_START_TT_LO c x)
  let p := s.regN (ADC_PERIOD c x)
  if !s.due t then some t else if p == 0 then none else some (t + ((s.now - t) / p + 1) * p)

/-- Table ADC-6: a converter enters IDLE from DISABLED. -/
def adcEnter (c x : Nat) (s : State) : State :=
  let s := s.forEach (List.range 16) (fun i s => (s.setN (ADC_RES_LO c x i) 0).setN (ADC_RES_HI c x i) 0)
  let s := ((s.set (ADC_STAT.run c x) 0).set (ADC_STAT.cfg_code c x) 0).set (ADC_STAT.fifo_level c x) 0
  let timed := s.get (ADC_CTRL.start c (adcGov s c x)) == 1 && adcGov s c x == x
  let t := if timed then adcFirstInstant s c x else none
  let s := (adcTo c x adcIDLE s).modAdc c x (fun h => { AdcH.reset with sched := t, soon := h.soon.filter (fun e => e.2 == 3) })
  s.when (timed && t.isNone) (adcSoon c x 1 1)

/-- A converter enters DISABLED. -/
def adcOff (c x : Nat) (s : State) : State :=
  ((adcTo c x adcDISABLED s).raise (ADC_EVENTS.disabled c)).modAdc c x (fun h => { h with sched := none })

/-- R235, ABORT: the entry in progress goes on only where its hold edge has passed. -/
def adcAbandon (c x : Nat) (s : State) : State :=
  let h := s.adcOf c x
  let s := s.when (!h.finished && h.hold.isNone) (·.set (ADC_STAT.entry c x) (h.entry - 1))
  s.modAdc c x (fun h => { h with finished := h.finished || h.hold.isNone })

/-- The stop point of an ABORT: no entry in progress is left. -/
def adcStopPoint (c x : Nat) (s : State) : State :=
  if adcState s c x == adcDISABLING && s.is (ADC_CTRL.policy c (adcGov s c x)) &&
      (adcSet s c x).all (fun y => (s.adcOf c y).finished) then
    s.forEach (adcSet s c x) (fun y s => adcOff c y (s.set (ADC_STAT.end_ c y) 3))
  else s

/-- R221, R226: a write of ADC_CTRL. -/
def adcCtrlWrite (m : Master) (c x : Nat) (v : Word) (s : State) : State :=
  if !supWriter m || !domOn s (domPair c) then s
  else
    let on := bitsOf v 0 1 == 1
    let governed := adcLinked s c && x == 1
    match adcState s c x with
    | 0 =>
      -- of a linked CcB the enable, start and policy bits keep their values
      let keep : Nat := if governed then bitsOf (s.reg (ADC_CTRL c x)) 0 4 else 2 * bitsOf v 1 3
      let s := s.setN (ADC_CTRL c x) (keep + 16 * bitsOf v 4 5 + 4096 * bitsOf v 12 4)
      let s := s.set (ADC_STAT.cmd_result c x) 0
      if governed || !on then s
      else
        let code := adcCheck s c x
        if code != 0 then
          adcRaise c x 12 ((s.set (ADC_STAT.cmd_result c x) 3).set (ADC_STAT.cfg_code c x) code)
        else (s.set (ADC_CTRL.enable c x) 1).forEach (adcSet s c x) (adcEnter c)
    | st =>
      let other := bitsOf v 1 15 != bitsOf (s.reg (ADC_CTRL c x)) 1 15
      let s := s.set (ADC_STAT.cmd_result c x) (if other then 1 else 0)
      if governed || on || st == adcDISABLING then s
      else
        let s := s.set (ADC_CTRL.enable c x) 0
        if st == adcIDLE then s.forEach (adcSet s c x) (adcOff c)
        else
          let s := s.forEach (adcSet s c x) (fun y => adcTo c y adcDISABLING)
          s.when (s.is (ADC_CTRL.policy c x)) (fun s =>
            adcStopPoint c x (s.forEach (adcSet s c x) (adcAbandon c)))

/-- The meaning of ADC_ENABLE. -/
def execAdcEnable (m : Master) (c : Fin 6) (x : Fin 2) (v : Word) (s : State) : Outcome :=
  .next (adcCtrlWrite m c x (v ||| 1) s)

/-- The meaning of ADC_DISABLE. -/
def execAdcDisable (m : Master) (c : Fin 6) (x : Fin 2) (v : Word) (s : State) : Outcome :=
  .next (adcCtrlWrite m c x (v &&& ~~~1) s)

/-- R221: a write of ADC_SEQ, ADC_PERIOD or the schedule start is taken only in DISABLED. -/
def adcConfigWrite (m : Master) (c x : Nat) (write : State → State) (s : State) : State :=
  if !supWriter m then s
  else if adcState s c x == adcDISABLED then write s else s.set (ADC_STAT.cmd_result c x) 1

/-- R226: a write of ADC_PAIR_CTRL; linked is taken only while both converters are DISABLED. -/
def adcPairWrite (m : Master) (c : Nat) (v : Word) (s : State) : State :=
  if !devWriter m || s.is (ADC_PAIR_CTRL.lock c) then s
  else
    let free := adcState s c 0 == adcDISABLED && adcState s c 1 == adcDISABLED
    let s := s.when free (fun s =>
      (s.set (ADC_PAIR_CTRL.linked c) (bitsOf v 0 1)).set (ADC_PAIR_STATUS.linked c) (bitsOf v 0 1))
    s.when (bitsOf v 31 1 == 1) (·.raise (ADC_PAIR_CTRL.lock c))

/-- R215: a glide that raises the core frequency begins: the entry in progress is discarded. -/
def adcClockAbort (s : State) : State :=
  s.forEach (List.range 6) (fun c s => s.forEach [0, 1] (fun x s =>
    let st := adcState s c x
    let h := s.adcOf c x
    let s := s.when (adcIDLE < st && !h.finished) (·.set (ADC_STAT.entry c x) (h.entry - 1))
    if st == adcRUNNING then adcRaise c x 10 (adcTo c x adcIDLE (s.set (ADC_STAT.end_ c x) 4))
    else if st == adcDISABLING then adcOff c x (adcRaise c x 10 (s.set (ADC_STAT.end_ c x) 4))
    else s))

/-! ### Conversions -/

/-- The end of a core edge: its triggers are taken (R223, R224). -/
def adcTake (s : State) : State := s.forEach (List.range 12) (fun k s => adcArrive (k / 2) (k % 2) s)
/-- One core edge of the converters: the hold edge of a running one records TT and the degraded mark (Table ADC-3). -/
def adcCycle (s : State) : State :=
  { s with adc := Vector.ofFn (fun (k : Fin 12) =>
      let h := s.adc[k]
      let st := adcState s (k / 2) (k % 2)
      let e := s.get (ADC_SEQ.stime (k / 2) (k % 2) h.entry)
      if (st == adcRUNNING || st == adcDISABLING) && !h.finished && h.hold.isNone &&
          h.start + h.divN * sampleClocks e ≤ s.clk.edges && domOn s (domPair (k / 2)) then
        { h with hold := some (s.now % 2 ^ 32, s.is TT_STATUS.degraded) }
      else h) }

/-- The edge on which the entry in progress is written (Table ADC-3). -/
def adcWriteEdge (s : State) (c x : Nat) : Nat :=
  let h := s.adcOf c x
  h.start + h.divN * (sampleClocks (s.get (ADC_SEQ.stime c x h.entry)) + 13) + 1

/-- A result word (Table ADC-12). -/
def resultWord (code : Nat) (clip fail degraded : Bool) (entry x run : Nat) : Nat :=
  code + 4096 + (if clip then 16384 else 0) + (if fail then 32768 else 0) + 65536 * entry + 1048576 * x +
    (if degraded then 2097152 else 0) + 16777216 * run

/-- One result is written to its mailbox and, when selected, to the stream mailbox (R232, R234). -/
def adcWrite (c x : Nat) (code : Nat × Bool) (fail : Bool) (s : State) : State :=
  let h := s.adcOf c x
  let i := h.entry
  let t := h.hold.getD (0, false)
  let w := resultWord code.1 code.2 fail t.2 i x (s.get (ADC_STAT.run c x))
  let s := ((s.setN (ADC_RES_LO c x i) w).setN (ADC_RES_HI c x i) t.1).set (ADC_STAT.entry c x) i
  let s := s.when (s.is (ADC_SEQ.ev c x i)) (adcRaise c x 2)
  let s := s.modAdc c x (fun h => { h with finished := true, seen := h.seen.filter (fun p => p.1 != i) })
  if !s.is (ADC_SEQ.fifo c x i) then s
  else if h.fifo.length < 32 then
    (s.modAdc c x (fun h => { h with fifo := h.fifo ++ [BitVec.ofNat 32 w] })).set (ADC_STAT.fifo_level c x)
      (h.fifo.length + 1)
  else (adcRaise c x 8 s).bump (ADC_COUNTS.fifo_ovf c x)

/-- R229, R230: the plausibility verdict of a paired entry with its two codes. -/
def adcPlaus (c : Nat) (a b : Nat) (s : State) : State × Bool :=
  let h := s.adcOf c 0
  let run := s.get (ADC_STAT.run c 0)
  let mark := fun (s : State) =>
    ((s.setN (ADC_PLAUS_CODES c) (a + 65536 * b)).set (ADC_PLAUS_LAST.entry c) h.entry).set (ADC_PLAUS_LAST.run c) run
  if h.mute then (s, false)
  else if h.ha then ((mark s).raise (ADC_EVENTS.plaus_data c), false)
  else
    let s := s.progress 4
    if s.get (ADC_PLAUS_WIN.window c) < (max a b) - (min a b) then
      let s := ((mark s).bump (ADC_PLAUS_LAST.fails c)).raise (ADC_EVENTS.plaus_fail c)
      (s.fault 0x12 c (s.reg (ADC_PLAUS_CODES c)), true)
    else (s, false)

/-- Once every entry in progress is over, the run goes on to the next entry or ends (Table ADC-6, R226, R235). -/
def adcAdvance (c x : Nat) (s : State) : State :=
  let set_ := adcSet s c x
  if !set_.all (fun y => (s.adcOf c y).finished) then s
  else
    let h := s.adcOf c x
    let last := s.get (ADC_CTRL.length c x) ≤ h.entry
    let st := adcState s c x
    let abort := st == adcDISABLING && s.is (ADC_CTRL.policy c (adcGov s c x))
    if abort then adcStopPoint c x s
    else if !last then
      let start := (set_.map (fun y => adcWriteEdge s c y - 1)).foldl max 0
      s.forEach set_ (fun y s => (s.set (ADC_STAT.entry c y) (h.entry + 1)).modAdc c y (fun h => { h with
        entry := h.entry + 1, start := start, finished := false, hold := none }))
    else if st == adcDISABLING then s.forEach set_ (fun y s => adcOff c y (s.set (ADC_STAT.end_ c y) 2))
    else s.forEach set_ (fun y s => adcRaise c y 0 (adcTo c y adcIDLE (s.set (ADC_STAT.end_ c y) 1)))

/-- R217: the entry in progress of converter x is written, both of a paired entry on one edge. -/
def conversionComplete (c x : Nat) (vinA vinB : Int) (s : State) : State :=
  let h := s.adcOf c x
  let st := adcState s c x
  if !domOn s (domPair c) || !(st == adcRUNNING || st == adcDISABLING) || h.finished || s.clk.edges < adcWriteEdge s c x then s
  else
    let gain := fun y => s.get (ADC_SEQ.gain c y h.entry)
    let ra := adcCode vinA (gain 0)
    let rb := adcCode vinB (gain 1)
    if adcLinked s c && s.is (ADC_SEQ.paired c x h.entry) then
      let (s, bad) := adcPlaus c ra.1 rb.1 s
      adcAdvance c x (adcWrite c 1 rb bad (adcWrite c 0 ra bad s))
    else adcAdvance c x (adcWrite c x (if x == 0 then ra else rb) false s)

/-- The meaning of CONVERSION_COMPLETE. -/
def execConversionComplete (c : Fin 6) (x : Fin 2) (vinA vinB : Int) (s : State) : Outcome :=
  .next (conversionComplete c x vinA vinB s)

/-- R235: the plausibility function is disabled: ABORT ends the comparisons of the runs in progress. -/
def adcPlausDisable (abort : Bool) (s : State) : State :=
  { s with adc := s.adc.map (fun h => { h with mute := h.mute || abort, fresh := false }) }

/-- No run that was in progress when the function was disabled has a comparison to come. -/
def adcPlausIdle (s : State) : Bool :=
  (List.range 6).all (fun c => adcState s c 0 ≤ adcIDLE || !adcLinked s c || (s.adcOf c 0).mute || (s.adcOf c 0).fresh)

/-- R235: the ADC_PLAUS registers are reset. -/
def adcPlausReset (s : State) : State :=
  s.forEach (List.range 6) (fun c s => (s.setN (ADC_PLAUS_LAST c) 0).setN (ADC_PLAUS_CODES c) 0)

/-! ### Reads -/

/-- R234: a read of ADC_FIFO. -/
def adcFifoRead (c x : Nat) (s : State) : Word × State :=
  let h := s.adcOf c x
  match h.fifo with
  | [] => (BitVec.ofNat 32 (65536 * h.lastOut.2 + 1048576 * x + 16777216 * h.lastOut.1), s)
  | w :: rest =>
    (w, (s.modAdc c x (fun h => { h with fifo := rest, lastOut := (bitsOf w 24 8, bitsOf w 16 4) })).set
      (ADC_STAT.fifo_level c x) rest.length)

/-- The meaning of ADC_FIFO_READ: any master may read. -/
def execAdcFifoRead (_m : Master) (c : Fin 6) (x : Fin 2) (s : State) : Outcome :=
  if domOn s (domPair c) then
    let (w, s) := adcFifoRead c x s
    .next { s with data := w }
  else .next { s with data := 0 }

/-- R234: FLUSH. -/
def adcFlush (m : Master) (c x : Nat) (s : State) : State :=
  if !supWriter m || !domOn s (domPair c) then s
  else ((s.modAdc c x (fun h => { h with fifo := [] })).set (ADC_STAT.fifo_level c x) 0).set (ADC_STAT.cmd_result c x) 0

/-- The meaning of FLUSH. -/
def execFlush (m : Master) (c : Fin 6) (x : Fin 2) (s : State) : Outcome := .next (adcFlush m c x s)

/-- R232: a capture of entry mailbox i by master `id`: the pair with REPEAT computed, and the record made. -/
def adcCapture (c x i id : Nat) (s : State) : Nat × State :=
  let h := s.adcOf c x
  let rep := h.seen.contains (i, id)
  let lo := withBits (s.reg (ADC_RES_LO c x i)) 13 1 (if rep then 1 else 0)
  (lo.toNat + 2 ^ 32 * s.regN (ADC_RES_HI c x i),
    s.when (!rep) (·.modAdc c x (fun h => { h with seen := (i, id) :: h.seen })))

end Sys2Proof.Machine
end

