-- ==== Sys2Proof/Machine/Edges.lean ====
section
/-!
DEFINITION. Sys2Proof/Machine/Edges.lean: the edge units (R239 to R260): counters, compares, PWM, complementary pairs,
captures, and the states of a channel.
-/
namespace Sys2Proof.Machine

/-- Channel states (Table EDG-3). -/
def eOFF : Nat := 0
def eWAIT : Nat := 1
def eRUN : Nat := 2
def eDISABLING : Nat := 3

/-- A channel's function. -/
def chanFunc (s : State) (c k : Nat) : Nat := s.get (EDG_CH_CTRL.func c k)
/-- A channel's state. -/
def chanState (s : State) (c k : Nat) : Nat := s.get (EDG_CH_STAT.state c k)
/-- A channel's counter. -/
def chanCount (s : State) (c k : Nat) : Nat := s.regN (EDG_CNT c k)
/-- R244: whether a compare value is past at a count. -/
def past (count v : Nat) : Bool := (count + 2 ^ 32 - v % 2 ^ 32) % 2 ^ 32 < 2 ^ 31
/-- The counter of the edge channel with code 16 c + k. -/
def edgeCount (code : Nat) (s : State) : Nat := chanCount s (code / 16) (code % 16)
/-- Channel k + 1 of an even PWM channel k forms a complementary pair with it (R250). -/
def hasPartner (s : State) (c k : Nat) : Bool :=
  k % 2 == 0 && chanFunc s c k == fnPWM && chanFunc s c (k + 1) == fnPWMCOMP && chanState s c (k + 1) != eOFF

/-- What channel k's counter adds on a core edge on which TT's integer part grows by `delta`, `carry` being the wraps of the
channel below (R240). -/
def countStep (s : State) (c k delta carry : Nat) : Nat :=
  if chanState s c k == eOFF then 0
  else match s.get (EDG_CH_CTRL.src c k) with
    | 0 => delta
    | 1 =>
      let gate := fnInput s (0x10 + 16 * c + s.get (EDG_CH_CTRL.in_sel c k))
      if gate == s.is (EDG_CH_CTRL.gate_level c k) then delta else 0
    | 2 => carry
    | _ => 0
/-- The count of channel k after such an edge, before it wraps. -/
def countAfter (s : State) (c delta : Nat) : Nat → Nat
  | 0 => chanCount s c 0 + countStep s c 0 delta 0
  | k + 1 => chanCount s c (k + 1) +
      countStep s c (k + 1) delta (if s.get (EDG_CH_CTRL.src c (k + 1)) == 2 then countAfter s c delta k / 2 ^ 32 else 0)
/-- TT on the next core edge, in TT's own units. -/
def nextTt (s : State) : Nat := ((s.tt.t : Int) + s.ttAdvance.1).toNat
/-- The count a channel shows on the next core edge, which the unit knows a cycle in advance (R246). -/
def nextCount (s : State) (c k : Nat) : Nat := countAfter s c (nextTt s / 2 ^ 84 - s.now) k % 2 ^ 32
/-- R246: an instant of channel k that the unit may place now: past on the next edge when placement is fine, else past
already. -/
def placeable (s : State) (c k x : Nat) : Bool :=
  past (if s.refMode then nextCount s c k else chanCount s c k) x

/-- The channel's output level, changed at an instant the unit has placed, or on this edge: coarse (R246). -/
def setLevel (c k : Nat) (on : Bool) (placed : Option Nat) (s : State) : State :=
  ((s.setB (EDG_CH_STAT.level c k) on).setB (EDG_CH_STAT.coarse c k) placed.isNone).modEdg (16 * c + k)
    (fun h => { h with instant := placed.getD s.tt.t, movedEdge := s.clk.edges + 1 })
/-- R249: the output has made its one transition of this core cycle. -/
def movedNow (s : State) (c k : Nat) : Bool := (s.edgOf (16 * c + k)).movedEdge == s.clk.edges + 1
/-- R246: where a transition due at TT `x` falls in the cycle from `te` to `tn`: the first T_e + j × v at or after it, v being 1/8 of
an unspread clk, or the end of the cycle. -/
def placedIn (s : State) (te tn : Nat) (x : Int) : Nat :=
  let v : Int := (s.regN TT_PERIOD * 2 ^ 32 + s.regN TT_PERIOD_FINE : Nat) * 2 ^ 25
  let j := max 1 ((x - te + v - 1) / v)
  (min ((te : Int) + j * v) tn).toNat % 2 ^ 148
/-- TT at which channel k's counter is at value `x`, the counter having TT's fraction (R246). -/
def counterTt (s : State) (c k x : Nat) : Int :=
  let off : Int := if past (chanCount s c k) x then -(((chanCount s c k + 2 ^ 32 - x % 2 ^ 32) % 2 ^ 32 : Nat) : Int)
    else ((x + 2 ^ 32 - chanCount s c k) % 2 ^ 32 : Nat)
  ((s.tt.t / 2 ^ 84 * 2 ^ 84 : Nat) : Int) + off * (2 ^ 84 : Int)

/-! ### Compares -/

/-- R244, R245: an armed compare that is past fires; `step` when a TT step has passed it (R243).  Its action moves no output that a
force has moved on this edge (R249, log 145), nor one that a disable holds inactive (R258). -/
def fireCompare (c k : Nat) (step : Bool) (s : State) : State :=
  let late := (s.edgOf (16 * c + k)).late
  let te := s.tt.last
  let at_ := placedIn s te (te + (s.tt.t + 2 ^ 148 - te) % 2 ^ 148) (counterTt s c k (s.regN (EDG_CMP c k)))
  let s := (s.set (EDG_CH_STAT.armed c k) 0).setB (EDG_CH_STAT.late c k) late
  let s := s.when (chanFunc s c k == fnCOMPARE && s.get (EDG_CH_CTRL.action c k) != 0) (fun s =>
    let on := match s.get (EDG_CH_CTRL.action c k) with
      | 1 => true
      | 2 => false
      | _ => !s.is (EDG_CH_STAT.level c k)
    s.when (on != s.is (EDG_CH_STAT.level c k) && !movedNow s c k && (s.edgOf (16 * c + k)).off != 1) (setLevel c k on (if late || step || !s.refMode then none else some at_)))
  adcEdgeEvent c k 0 (s.raise ⟨EDG_EVENTS c, k, 1⟩)

/-- The compare event of a PWM cycle at B_n + EVT_OFS (R247). -/
def firePwmEvent (c k : Nat) (s : State) : State :=
  adcEdgeEvent c k 0 ((s.modEdg (16 * c + k) (fun h => { h with evtDone := true })).raise ⟨EDG_EVENTS c, k, 1⟩)

/-- COMPARE_FIRE: the compare of channel k is past; in PWM the event instant of the present cycle is. -/
def compareFire (c k : Nat) (s : State) : State :=
  let h := s.edgOf (16 * c + k)
  let f := chanFunc s c k
  if !domOn s (domCluster c) then s
  else if f == fnPWM then
    if chanState s c k != eOFF && h.started && !h.evtDone &&
        past (chanCount s c k) (h.cycle + s.regN (EDG_EVT_OFS c k)) then firePwmEvent c k s else s
  else if f != fnPWMCOMP && s.is (EDG_CH_STAT.armed c k) && h.armEdge < s.clk.edges &&
      past (chanCount s c k) (s.regN (EDG_CMP c k)) then fireCompare c k false s
  else s

/-- The meaning of COMPARE_FIRE. -/
def execCompareFire (c : Fin 6) (k : Fin 16) (s : State) : Outcome := .next (compareFire c k s)

/-- R244: arming; the old value fires first when it is past on this edge, and the new one is compared from the next. -/
def armCompare (c k : Nat) (v : Word) (s : State) : State :=
  let f := chanFunc s c k
  if f == fnPWM || f == fnPWMCOMP then s.setReg (EDG_CMP c k) v
  else
    let s := compareFire c k s
    let late := past (chanCount s c k) v.toNat
    ((s.setReg (EDG_CMP c k) v).set (EDG_CH_STAT.armed c k) 1).modEdg (16 * c + k) (fun h => { h with late := late, armEdge := s.clk.edges })

/-- Whether channel k is voted (R254). -/
def isVoted (s : State) (c k : Nat) : Bool := bitN (s.get (EDG_VOTED.voted c)) k

/-- R254: a refused write on a voted channel. -/
def votedRefuse (c k : Nat) (s : State) : State :=
  (s.set (EDG_CH_STAT.cmd_result c k) 3).raise ⟨EDG_ERR c, 16 + k, 1⟩

/-- An access of a writer to a channel of a cluster that is on. -/
def edgeWriter (m : Master) (c : Nat) (s : State) : Bool := supWriter m && domOn s (domCluster c)

/-- A command of EDG_CH_CMD that R254 refuses on a voted channel. -/
def votedCommand (bypass : Bool) (m : Master) (c k : Nat) (f : State → State) (s : State) : State :=
  if !edgeWriter m c s then s
  else if isVoted s c k && !bypass then votedRefuse c k s
  else f (s.set (EDG_CH_STAT.cmd_result c k) 0)

/-- A write of EDG_CMP (R244, R248, R254). -/
def edgCmpWrite (bypass : Bool) (m : Master) (c k : Nat) (v : Word) (s : State) : State :=
  votedCommand bypass m c k (armCompare c k v) s

/-- The meaning of EDG_CMP. -/
def execEdgCmp (m : Master) (c : Fin 6) (k : Fin 16) (v : Word) (s : State) : Outcome :=
  .next (edgCmpWrite false m c k v s)

/-- Edge command 1 (R244): arms the compare with the value EDG_CMP holds. -/
def edgArm (bypass : Bool) (m : Master) (c k : Nat) (s : State) : State :=
  votedCommand bypass m c k (armCompare c k (s.reg (EDG_CMP c k))) s
/-- Edge command 2 (R244). -/
def edgDisarm (bypass : Bool) (m : Master) (c k : Nat) (s : State) : State :=
  votedCommand bypass m c k (·.set (EDG_CH_STAT.armed c k) 0) s
/-- Edge commands 3 and 4 (R245): the level is set in COMPARE on the next edge, in every state (R257). -/
def edgForce (bypass on : Bool) (m : Master) (c k : Nat) (s : State) : State :=
  votedCommand bypass m c k (fun s => s.when (chanFunc s c k == fnCOMPARE)
    (·.modEdg (16 * c + k) (fun h => { h with force := some on }))) s

/-- The meaning of ARM. -/
def execArm (m : Master) (c : Fin 6) (k : Fin 16) (s : State) : Outcome := .next (edgArm false m c k s)
/-- The meaning of DISARM. -/
def execDisarm (m : Master) (c : Fin 6) (k : Fin 16) (s : State) : Outcome := .next (edgDisarm false m c k s)
/-- The meaning of FORCE_ACTIVE. -/
def execForceActive (m : Master) (c : Fin 6) (k : Fin 16) (s : State) : Outcome := .next (edgForce false true m c k s)
/-- The meaning of FORCE_INACTIVE. -/
def execForceInactive (m : Master) (c : Fin 6) (k : Fin 16) (s : State) : Outcome :=
  .next (edgForce false false m c k s)

/-- R241: sets a counter from TT by its source; a stopped channel is not set. -/
def syncTt (c k : Nat) (s : State) : State :=
  match s.get (EDG_CH_CTRL.src c k) with
  | 2 => s.setN (EDG_CNT c k) (s.now / 2 ^ 32)
  | 3 => s
  | _ => s.setN (EDG_CNT c k) s.now

/-- The meaning of SYNC_TT: edge command 5. -/
def execSyncTt (m : Master) (c : Fin 6) (k : Fin 16) (s : State) : Outcome :=
  .next (if edgeWriter m c s then syncTt c k (s.set (EDG_CH_STAT.cmd_result c k) 0) else s)

/-- A write of EDG_SYNC (R241). -/
def edgSync (m : Master) (c : Nat) (v : Word) (s : State) : State :=
  if edgeWriter m c s then s.forEach (List.range 16) (fun k s => s.when (bitN v.toNat k) (syncTt c k)) else s

/-- The meaning of EDG_SYNC. -/
def execEdgSync (m : Master) (c : Fin 6) (v : Word) (s : State) : Outcome := .next (edgSync m c v s)

/-- The meaning of EDG_CNT: a write of the counter (R241). -/
def execEdgCnt (m : Master) (c : Fin 6) (k : Fin 16) (v : Word) (s : State) : Outcome :=
  .next (if edgeWriter m c s then s.setReg (EDG_CNT c k) v else s)

/-- The meaning of CLR_OVR: edge command 6 (R252). -/
def execClrOvr (m : Master) (c : Fin 6) (k : Fin 16) (s : State) : Outcome :=
  .next (if edgeWriter m c s then (s.set (EDG_CH_STAT.cmd_result c k) 0).set (EDG_CH_STAT.ovr c k) 0 else s)

/-! ### PWM -/

/-- R247, R249: whether instant `t`, counted from a cycle start, lies in the active interval of a duty. -/
def inActive (per duty t : Nat) (centre : Bool) : Bool :=
  if duty < 8 then false
  else if per < duty + 8 then true
  else
    let h := if centre then (per - duty) / 2 else 0
    h ≤ t && t < h + duty

/-- A(t) of R250 for PWM channel k: the cycle that `t` lies in, with its duty. -/
def pwmA (s : State) (c k t : Nat) : Bool :=
  let h := s.edgOf (16 * c + k)
  let per := s.regN (EDG_PER c k)
  let centre := s.is (EDG_CH_CTRL.align c k)
  let since := fun (b : Nat) => (t + 2 ^ 32 - b % 2 ^ 32) % 2 ^ 32
  if past t h.next then
    -- R258: in DISABLING the output is inactive from the cycle end
    chanState s c k != eDISABLING && inActive per (if h.loaded then s.regN (EDG_ACT c k) else s.regN (EDG_CMP c k)) (since h.next) centre
  else if !h.started then false
  else if past t h.cycle then inActive per h.dCur (since h.cycle) centre
  else inActive per h.dPrev (since (h.cycle + 2 ^ 32 - per)) centre

/-- Whether `t` is at or after B_0 (R250). -/
def afterB0 (s : State) (c k t : Nat) : Bool :=
  (s.edgOf (16 * c + k)).started || past t (s.edgOf (16 * c + k)).next

/-- The waveform of channel k at `t` before short pulses are removed (R247, R250). -/
def rawWave (s : State) (c k t : Nat) : Bool :=
  let back := fun (dt : Nat) => (t + 2 ^ 32 - dt) % 2 ^ 32
  if chanFunc s c k == fnPWMCOMP then
    let dt := s.regN (EDG_DT c k) % 65536
    !pwmA s c (k - 1) t && !pwmA s c (k - 1) (back dt) && afterB0 s c (k - 1) t
  else if hasPartner s c k then pwmA s c k t && pwmA s c k (back (s.regN (EDG_DT c (k + 1)) % 65536))
  else pwmA s c k t

/-- R249: nanoseconds from `b` to `t`. -/
def elapsed (b t : Nat) : Nat := (t + 2 ^ 32 - b % 2 ^ 32) % 2 ^ 32

/-- R249: a pulse or gap that would begin at `t` lasts at least 8 ns. -/
def longEnough (s : State) (c k t : Nat) : Bool :=
  (List.range 7).all (fun j => rawWave s c k ((t + j + 1) % 2 ^ 32) == rawWave s c k t)

/-- R249: channel k's last transition was `n` ns or more before `t`, both judged by how long before the next edge they lie on the
counter of the PWM channel. -/
def settled (s : State) (c k t n : Nat) : Bool :=
  let count := nextCount s c (if chanFunc s c k == fnPWMCOMP then k - 1 else k)
  match (s.edgOf (16 * c + k)).moved with
  | none => true
  | some m => elapsed t count + n ≤ elapsed m count

/-- R249: the other output of the pair is inactive and has been for the dead time. -/
def pairClear (s : State) (c k t : Nat) : Bool :=
  let other := if chanFunc s c k == fnPWMCOMP then k - 1 else k + 1
  let dt := if chanFunc s c k == fnPWMCOMP then s.regN (EDG_DT c k) % 65536 else s.regN (EDG_DT c (k + 1)) % 65536
  if chanFunc s c k == fnPWMCOMP || hasPartner s c k then
    !s.is (EDG_CH_STAT.level c other) && settled s c other t dt
  else true

/-- Whether channel k changes its level at instant `t` (R246 to R250). -/
def transitionAt (s : State) (c k t : Nat) : Bool :=
  let w := rawWave s c k t
  let ref := if chanFunc s c k == fnPWMCOMP then k - 1 else k
  (chanFunc s c k == fnPWM || chanFunc s c k == fnPWMCOMP) && domOn s (domCluster c) && chanState s c k != eOFF &&
  chanState s c ref != eOFF && (s.edgOf (16 * c + k)).off != 1 && w != s.is (EDG_CH_STAT.level c k) && !movedNow s c k && placeable s c ref t && settled s c k t 8 && longEnough s c k t &&
  (!w || pairClear s c k t)

/-- PWM_TRANSITION at instant `t`, a counter value in ns. -/
def pwmTransition (c k t : Nat) (s : State) : State :=
  if transitionAt s c k t then
    let ref := if chanFunc s c k == fnPWMCOMP then k - 1 else k
    let at_ := placedIn s s.tt.t (nextTt s) (counterTt s c ref t)
    let fine := s.refMode && !past (chanCount s c ref) t
    (setLevel c k (rawWave s c k t) (if fine then some at_ else none) s).modEdg (16 * c + k) (fun h => { h with moved := some t })
  else s

/-- The meaning of PWM_TRANSITION. -/
def execPwmTransition (c : Fin 6) (k : Fin 16) (t : Word) (s : State) : Outcome := .next (pwmTransition c k t.toNat s)

/-- R248: the load edge of a cycle, the edge before the one on which the cycle starts; none loads while DISABLING (R258). -/
def dutyLoad (c k : Nat) (s : State) : State :=
  let h := s.edgOf (16 * c + k)
  let st := chanState s c k
  if chanFunc s c k == fnPWM && domOn s (domCluster c) && st != eOFF && st != eDISABLING && !h.loaded &&
      past (nextCount s c k) h.next then
    (s.setReg (EDG_ACT c k) (s.reg (EDG_CMP c k))).modEdg (16 * c + k) (fun h => { h with loaded := true })
  else s

/-- The meaning of DUTY_LOAD. -/
def execDutyLoad (c : Fin 6) (k : Fin 16) (s : State) : Outcome := .next (dutyLoad c k s)

/-- R255: EDG_VOTED shows a channel held by a SAFE group, as a voted channel or as the PWM_COMP partner of one. -/
def showGroupSafe (c k : Nat) (s : State) : State :=
  let partner := k % 2 == 1 && chanFunc s c k == fnPWMCOMP && (s.edgOf (16 * c + k - 1)).grpSafe
  s.setB ⟨EDG_VOTED c, 16 + k, 1⟩ ((s.edgOf (16 * c + k)).grpSafe || partner)
/-- A channel after a change of its own configuration or of its group: what holds it, and its ball. -/
def refreshOut (c k : Nat) (s : State) : State :=
  let t := refreshChan c k (showGroupSafe c k s)
  t.when (t.get (EDG_CH_STAT.safe c k) != s.get (EDG_CH_STAT.safe c k)) refreshBalls

/-- A channel enters OFF, and with a PWM channel its complementary partner (R250, R258).  One that waited to resume leaves its
safe level, for in OFF the output is undriven. -/
def chanOff (c k : Nat) (s : State) : State :=
  let one := fun (j : Nat) (s : State) =>
    ((s.set (EDG_CH_STAT.state c j) eOFF).set (EDG_CH_STAT.level c j) 0).set (EDG_CH_CTRL.enable c j) 0 |>.modEdg
      (16 * c + j) (fun h => { EdgH.reset with stages := h.stages, late := h.late, armEdge := h.armEdge, grpSafe := h.grpSafe })
  let both := hasPartner s c k
  (refreshOut c k (one k s)).when both (fun s => refreshOut c (k + 1) (one (k + 1) s))

/-- R256: a channel held at its safe level after the last condition ended resumes. -/
def resumeChan (c k : Nat) (s : State) : State :=
  if (s.edgOf (16 * c + k)).resume then
    refreshBalls (showChanSafe c k false (s.modEdg (16 * c + k) (fun h => { h with resume := false })))
  else s

/-- R247: a PWM cycle starts. -/
def cycleStart (c k : Nat) (s : State) : State :=
  let h := s.edgOf (16 * c + k)
  if !domOn s (domCluster c) || chanFunc s c k != fnPWM || chanState s c k == eOFF || !past (chanCount s c k) h.next then s
  else if chanState s c k == eDISABLING then chanOff c k s
  else
    let s := dutyLoad c k s
    let d := s.regN (EDG_ACT c k)
    let per := s.regN (EDG_PER c k)
    let forget := fun (m : Option Nat) => m.map (fun x => if elapsed x h.next < 65536 then x else (h.next + 2 ^ 32 - 65536) % 2 ^ 32)
    let s := s.modEdg (16 * c + k) (fun h => { h with
      cycle := h.next, next := (h.next + per) % 2 ^ 32, dPrev := if h.started then h.dCur else 0, dCur := d,
      started := true, loaded := false, evtDone := false, moved := forget h.moved })
    let s := s.modEdg (16 * c + k + 1) (fun g => if k % 2 == 0 then { g with moved := forget g.moved } else g)
    let s := s.set (EDG_CH_STAT.state c k) eRUN
    let s := s.when (hasPartner s c k && chanState s c (k + 1) == eWAIT) (·.set (EDG_CH_STAT.state c (k + 1)) eRUN)
    (resumeChan c k s).when (hasPartner s c k) (resumeChan c (k + 1))

/-- The meaning of CYCLE_START. -/
def execCycleStart (c : Fin 6) (k : Fin 16) (s : State) : Outcome := .next (cycleStart c k s)

/-- R247: the earliest B_n that is not past. -/
def firstCycle (s : State) (c k count : Nat) : Nat :=
  let base := s.regN (EDG_BASE c k)
  let per := s.regN (EDG_PER c k)
  if past count base then (base + (elapsed base count / per + 1) * per) % 2 ^ 32 else base

/-! ### Enabling and disabling -/

/-- Table EDG-4: the lowest failing code; 0 when every check passes. -/
def edgeCheck (s : State) (c k : Nat) : Nat :=
  let f := chanFunc s c k
  let per := s.regN (EDG_PER c k)
  let pairBad := f == fnPWMCOMP && (k % 2 == 0 || chanFunc s c (k - 1) != fnPWM)
  if f == fnPWM && (per < 64 || 0x7FFFFFFF < per) then 1
  else if f == fnPWMCOMP && !pairBad && s.regN (EDG_PER c (k - 1)) ≤ 2 * (s.regN (EDG_DT c k) % 65536) then 2
  else if f == fnPWM && per ≤ s.regN (EDG_EVT_OFS c k) then 3
  else if pairBad then 4
  else if s.get (EDG_CH_CTRL.src c k) == 2 && k == 0 then 5
  else if 5 ≤ f || s.get (EDG_CH_CTRL.cap_edge c k) == 3 then 6
  else 0

/-- Table EDG-3: a channel leaves OFF. -/
def chanEnter (c k : Nat) (s : State) : State :=
  let f := chanFunc s c k
  let s := s.when (s.get (EDG_CH_CTRL.src c k) == 0) (·.setN (EDG_CNT c k) s.now)
  let s := (s.set (EDG_CH_STAT.cfg_code c k) 0).set (EDG_CH_CTRL.enable c k) 1
  let next := if f == fnPWM then firstCycle s c k (chanCount s c k) else 0
  let old := s.edgOf (16 * c + k)
  let s := s.modEdg (16 * c + k) (fun _ => { EdgH.reset with
    next := next, resume := old.resume, late := old.late, armEdge := old.armEdge, grpSafe := old.grpSafe })
  let s := s.set (EDG_CH_STAT.cap_count c k) 0
  if f == fnPWM then s.set (EDG_CH_STAT.state c k) eWAIT
  else ((s.set (EDG_CH_STAT.state c k) eRUN).set (EDG_CH_STAT.ovr c k) 0).set (EDG_CH_STAT.late c k) 0

/-- R257, R260: a write of EDG_CH_CTRL. -/
def edgCtrlWrite (m : Master) (c k : Nat) (v : Word) (s : State) : State :=
  if !edgeWriter m c s then s
  else
    let on := bitsOf v 0 1 == 1
    let st := chanState s c k
    let other := bitsOf v 1 18 != bitsOf (s.reg (EDG_CH_CTRL c k)) 1 18
    if st == eOFF then
      let s := s.when (!s.is (EDG_CTRL.lock c)) (fun s => s.set ⟨EDG_CH_CTRL c k, 1, 18⟩ (bitsOf v 1 18))
      let s := refreshOut c k (s.set (EDG_CH_STAT.cmd_result c k) 0)
      if !on then s
      else
        let code := edgeCheck s c k
        if code != 0 then (s.set (EDG_CH_STAT.cmd_result c k) 2).set (EDG_CH_STAT.cfg_code c k) code
        else refreshOut c k (chanEnter c k s)
    else
      let s := s.set (EDG_CH_STAT.cmd_result c k) (if other then 1 else 0)
      if on then s.when (st == eDISABLING) (fun s => (s.set (EDG_CH_STAT.state c k) eRUN).set (EDG_CH_CTRL.enable c k) 1)
      else
        let s := s.set (EDG_CH_CTRL.enable c k) 0
        if st == eWAIT then chanOff c k s
        else if chanFunc s c k == fnPWM && !s.is (EDG_CH_CTRL.policy c k) then s.set (EDG_CH_STAT.state c k) eDISABLING
        else s.modEdg (16 * c + k) (fun h => { h with off := if h.off == 0 then 2 else h.off })

/-- The meaning of EDGE_ENABLE. -/
def execEdgeEnable (m : Master) (c : Fin 6) (k : Fin 16) (v : Word) (s : State) : Outcome :=
  .next (edgCtrlWrite m c k (v ||| 1) s)

/-- The meaning of EDGE_DISABLE. -/
def execEdgeDisable (m : Master) (c : Fin 6) (k : Fin 16) (v : Word) (s : State) : Outcome :=
  .next (edgCtrlWrite m c k (v &&& ~~~1) s)

/-- R257: a write of EDG_PER, EDG_BASE, EDG_EVT_OFS or EDG_DT is taken only in OFF, and never under LOCK. -/
def edgConfigWrite (m : Master) (c k : Nat) (write : State → State) (s : State) : State :=
  if !edgeWriter m c s || s.is (EDG_CTRL.lock c) then s
  else if chanState s c k == eOFF then write s else s.set (EDG_CH_STAT.cmd_result c k) 1

/-! ### Captures -/

/-- Whether the ball of edge function `code` is owned by that function (R239). -/
def inputOwned (s : State) (code : Nat) : Bool :=
  (List.range 192).any (fun n => s.get (PIN_OWNER.owner n) == code && s.get (PIN_OWNER.phase n) == 0)

/-- Twice the nominal period of the present clock in 1/16 ns (R251). -/
def twoClk16 (s : State) : Nat := 2 * (s.regN TT_PERIOD * 2 ^ 32 + s.regN TT_PERIOD_FINE) / 2 ^ 52

/-- R251 to R253: an input edge of a channel.  `cross` is the counter value of the crossing and `t0` that of the edge on
which the synchronised input first showed the new level, both in 1/16 ns. -/
def capture (c k : Nat) (falling : Bool) (cross t0 : Nat) (s : State) : State :=
  let kind := s.get (EDG_CH_CTRL.cap_edge c k)
  if !domOn s (domCluster c) || chanFunc s c k != fnCAPTURE || chanState s c k != eRUN || !(kind == 2 || (kind == 1) == falling) ||
      !inputOwned s (0x10 + 16 * c + s.get (EDG_CH_CTRL.in_sel c k)) then s
  else
    let coarse := !s.refMode
    let at16 := if coarse then (t0 + 2 ^ 36 - twoClk16 s) % 2 ^ 36 else cross % 2 ^ 36
    let new : Capture := ⟨BitVec.ofNat 32 (at16 / 16), falling, false, s.is TT_STATUS.degraded, coarse, at16 % 16⟩
    let h := s.edgOf (16 * c + k)
    let s := match h.stages with
      | [a, b] =>
        ((s.raise (EDG_CH_STAT.ovr c k)).raise ⟨EDG_ERR c, k, 1⟩).modEdg (16 * c + k)
          (fun h => { h with stages := [a, { b with ovr := true }] })
      | l => (s.modEdg (16 * c + k) (fun h => { h with stages := l ++ [new] })).set (EDG_CH_STAT.cap_count c k) (l.length + 1)
    adcEdgeEvent c k 1 (s.raise ⟨EDG_EVENTS c, 16 + k, 1⟩)

/-- The meaning of CAPTURE. -/
def execCapture (c : Fin 6) (k : Fin 16) (falling : Bool) (cross t0 : Nat) (s : State) : Outcome :=
  .next (capture c k falling cross t0 s)

/-- R252: pops the head; the value word and EDG_CAP_HI (Table EDG-9). -/
def capPop (c k : Nat) (s : State) : Word × Word × State :=
  match (s.edgOf (16 * c + k)).stages with
  | [] => (0, 0, s)
  | a :: rest =>
    let hi := 1 + (if a.falling then 2 else 0) + (if a.ovr then 4 else 0) + (if a.degraded then 8 else 0) +
      (if a.coarse then 16 else 0) + 256 * a.frac
    (a.value, BitVec.ofNat 32 hi,
      (s.modEdg (16 * c + k) (fun h => { h with stages := rest })).set (EDG_CH_STAT.cap_count c k) rest.length)

/-- The meaning of EDG_CAP_POP. -/
def execEdgCapPop (_m : Master) (c : Fin 6) (k : Fin 16) (s : State) : Outcome :=
  if domOn s (domCluster c) then
    let (v, _, s) := capPop c k s
    .next { s with data := v }
  else .next { s with data := 0 }

/-! ### Core edges and TT steps -/

/-- The counters of a cluster on one core edge on which TT's integer part grew by `delta` (R240, R242). -/
def countersCycle (c delta : Nat) (s : State) : State :=
  ((List.range 16).foldl (fun (p : State × Nat) k =>
    let (s, carry) := p
    if chanState s c k == eOFF then (s, 0)
    else
      let n := chanCount s c k + countStep s c k delta carry
      (s.setN (EDG_CNT c k) n, n / 2 ^ 32)) (s, 0)).1

/-- R248: the load edges that the edge before was. -/
def edgeLoads (s : State) : State :=
  s.forEach (List.range 6) (fun c s => s.forEach (List.range 16) (dutyLoad c))

/-- R245, R256, R258: a channel that resumes on the edge after, forces, and the two edges of a disable. -/
def chanCycle (c k : Nat) (s : State) : State :=
  let h := s.edgOf (16 * c + k)
  let f := chanFunc s c k
  let s := s.when (h.resume && f != fnPWM && f != fnPWMCOMP) (resumeChan c k)
  -- an edge on which a disable acts leaves nothing to a force (R249, R258)
  let s := match h.force with
    | none => s
    | some on => (s.when (h.off == 0 && on != s.is (EDG_CH_STAT.level c k)) (setLevel c k on none)).modEdg (16 * c + k)
        (fun h => { h with force := none })
  if h.off == 2 then
    (s.when (s.is (EDG_CH_STAT.level c k)) (setLevel c k false none)).modEdg (16 * c + k) (fun h => { h with off := 1 })
  else if h.off == 1 then chanOff c k s
  else s

/-- R62, R255: Lull reaches the lull_safe channels on edge 3 of its entry. -/
def lullReach (s : State) : State :=
  match s.clk.lullAt with
  | some e =>
    if s.clk.edges < e then s
    else ({ s with clk := { s.clk with lullAt := none } } : State).when (s.is CLK_STATUS.lull) (edgeLull true)
  | none => s

/-- One core edge of every edge unit. -/
def edgeCycle (delta : Nat) (s : State) : State :=
  let s := lullReach s
  s.forEach (List.range 6) (fun c s =>
    if !domOn s (domCluster c) then s
    else (countersCycle c delta s).forEach (List.range 16) (chanCycle c))

/-- R243: a TT step of `d` ns, TT being stepped already; a compare that the new count passes fires. -/
def edgeStep (d : Int) (s : State) : State :=
  s.forEach ((List.range 6).filter (fun c => domOn s (domCluster c))) (fun c s =>
    ((List.range 16).foldl (fun (p : State × Int) k =>
      let (s, carry) := p
      if chanState s c k == eOFF then (s, 0)
      else
        -- the step modulo 2^32, with at most one carry or borrow
        let add : Int := match s.get (EDG_CH_CTRL.src c k) with
          | 0 => d.tmod (2 ^ 32)
          | 2 => carry
          | _ => 0
        let was := chanCount s c k
        let cmp := s.regN (EDG_CMP c k)
        let n : Int := (was : Int) + add
        let s := s.setN (EDG_CNT c k) (toBits 32 n)
        let compares := chanFunc s c k != fnPWM && chanFunc s c k != fnPWMCOMP && s.is (EDG_CH_STAT.armed c k) &&
          (s.edgOf (16 * c + k)).armEdge < s.clk.edges
        let s := s.when (compares && !past was cmp && past (chanCount s c k) cmp) (fireCompare c k true)
        let s := if chanFunc s c k == fnPWM && add != 0 then
            let next := firstCycle s c k (chanCount s c k)
            -- R249: earlier transitions keep their distance in time; the end of the cycle is one
            let shift := fun (m : Option Nat) => m.map (fun x => toBits 32 (x + add))
            let cut := s.is (EDG_CH_STAT.level c k)
            let s := (s.when cut (setLevel c k false none)).modEdg (16 * c + k) (fun h => { h with
              next := next, started := false, loaded := false, moved := if cut then some (chanCount s c k) else shift h.moved })
            s.when (hasPartner s c k) (·.modEdg (16 * c + k + 1) (fun g => { g with moved := shift g.moved }))
          else s
        (s, n.fdiv (2 ^ 32 : Int))) (s, 0)).1)

/-- R254: a release of a vote group to channel k: a write of EDG_CMP, which fails where the cluster's domain is off. -/
def edgRelease (c k : Nat) (v : Word) (s : State) : State := s.when (domOn s (domCluster c)) (armCompare c k v)

/-- R254, R255: which channels are voted and which are held by a SAFE group. -/
def showVoted (c k : Nat) (voted safe : Bool) (s : State) : State :=
  let s := (s.setB ⟨EDG_VOTED c, k, 1⟩ voted).modEdg (16 * c + k) (fun h => { h with grpSafe := safe })
  s.forEach (if k % 2 == 0 then [k, k + 1] else [k]) (refreshOut c)

end Sys2Proof.Machine
end

