-- ==== Sys2Proof/Machine/Mem.lean ====
section
/-!
DEFINITION. Sys2Proof/Machine/Mem.lean: data space and its targets (R167 to R169), admission (R171 to R173), the alias
read-modify-writes, error correction, bank power states, the Vault and the MRAM controller (R174 to R191).
-/
namespace Sys2Proof.Machine

/-! ### Places -/

/-- What a data-space address reaches (Table MEM-1). -/
inductive Place where
  | dtcm (t : Nat)
  | itcm (t : Nat)
  | bank (b : Nat)
  | vault
  | mram
  | none
  deriving DecidableEq, Repr

/-- Key of tile `t`'s instruction TCM. -/
def itcmKey (t : Nat) : Nat := 0x08000000 + t * 0x80000
/-- Key of tile `t`'s data TCM. -/
def dtcmKey (t : Nat) : Nat := 0x08040000 + t * 0x80000
/-- Key of MRAM offset 0. -/
def mramKey : Nat := 0x100000000
/-- Key and size of bank `b`. -/
def bankKey (b : Nat) : Nat × Nat :=
  if b < 64 then (0x20000000 + b * 0x40000, 0x40000)
  else (0x10000000 + (b - 64) / 16 * 0x200000 + (b - 64) % 16 * 0x20000, 0x20000)

/-- The form of an address: plain, bit-set alias, bit-clear alias, with the address meant (R176). -/
def unalias (a : Nat) : Nat × Nat :=
  if 0x50000000 ≤ a && a < 0x70000000 then (1, a - 0x40000000)
  else if 0x90000000 ≤ a && a < 0xB0000000 then (2, a - 0x80000000)
  else (0, a)

/-- The place and the memory key of a plain address, for a master with its own data TCM or without one (R167, R169). -/
def place (own : Option Nat) (a : Nat) : Place × Nat :=
  if a < 0x40000 then
    match own with
    | some t => (.dtcm t, dtcmKey t + a)
    | none => (.none, 0)
  else if 0x08000000 ≤ a && a < 0x08C00000 then
    let t := (a - 0x08000000) / 0x80000
    (if (a - 0x08000000) % 0x80000 < 0x40000 then .itcm t else .dtcm t, a)
  else if 0x10000000 ≤ a && a < 0x10C00000 then (.bank (64 + (a - 0x10000000) / 0x20000), a)
  else if 0x20000000 ≤ a && a < 0x21000000 then (.bank ((a - 0x20000000) / 0x40000), a)
  else if 0x2FF00000 ≤ a && a < 0x2FF10000 then (.vault, a)
  else if 0x30000000 ≤ a && a < 0x30C00000 then (.mram, mramKey + 0x3000000 + (a - 0x30000000))
  else (.none, 0)

/-- The tile whose data TCM appears at address 0 for a master (R169). -/
def ownTile : Master → Option Nat
  | .tile t _ _ => some t
  | .tdma t _ _ => some t
  | _ => none

/-! ### Bank registers -/

/-- BANK_CTRL of bank `b`; BANK_STAT and BANK_OWNER follow. -/
def bankCtrl (b : Nat) : Nat := if b < 64 then BANK_CTRL b else CBANK_CTRL ((b - 64) / 16) ((b - 64) % 16)
/-- BANK_STAT.state. -/
def bankState (s : State) (b : Nat) : Nat := s.get ⟨bankCtrl b + 4, 0, 3⟩
/-- Sets BANK_STAT.state. -/
def bankTo (b st : Nat) (s : State) : State := s.set ⟨bankCtrl b + 4, 0, 3⟩ st
/-- Sets BANK_STAT.clamped. -/
def bankClamp (b : Nat) (on : Bool) (s : State) : State := s.setB ⟨bankCtrl b + 4, 3, 1⟩ on
/-- BANK_CTRL.woa. -/
def bankWoa (s : State) (b : Nat) : Bool := s.is ⟨bankCtrl b, 2, 1⟩
/-- The event register of bank `b`'s block: MEM or CMEM. -/
def bankEvents (b : Nat) : Nat := if b < 64 then MEM_EVENTS else CMEM_EVENTS ((b - 64) / 16)
/-- The block of a place's error and refusal registers: the address of its _ERR_ADDR. -/
def errBase (p : Place) : Nat :=
  match p with
  | .bank b => if b < 64 then MEM_ERR_ADDR else CMEM_ERR_ADDR ((b - 64) / 16)
  | _ => MEM_ERR_ADDR
/-- The bank index that a refusal's record shows: 0xFF for none (Table MEM-17). -/
def violBank (p : Place) : Nat :=
  match p with
  | .bank b => if b < 64 then b else (b - 64) % 16
  | _ => 0xFF
/-- The bank index that an error's record shows: 0xFE for the Vault. -/
def errBank (p : Place) : Nat := if p == .vault then 0xFE else violBank p

/-- Changes the memories' hidden state. -/
def State.withMem (s : State) (h : MemH) : State := { s with memh := h }
/-- Changes the memories' hidden state by a function. -/
def State.modMem (s : State) (f : MemH → MemH) : State := s.withMem (f s.memh)
/-- Changes bank `b`'s hidden state. -/
def State.modBank (s : State) (b : Nat) (f : BankH → BankH) : State :=
  s.withMem { s.memh with bank := updAt s.memh.bank b f }
/-- Bank `b`'s hidden state. -/
def State.bankOf (s : State) (b : Nat) : BankH := atD s.memh.bank b BankH.reset

/-- R179: the bank counts as off. -/
def bankOff (s : State) (b : Nat) : Bool :=
  let st := bankState s b
  st != 0 && !(st == 5 && !s.is ⟨bankCtrl b + 4, 3, 1⟩)

/-! ### Admission -/

/-- Table MEM-6: whether owner_kind and owner_index admit a master. -/
def ownerAdmits (kind index : Nat) (m : Master) : Bool :=
  match m with
  | .storekeeper => kind != 3
  | .host => kind == 0
  | .switch => kind == 3
  | .tile t _ _ => kind == 0 || (kind == 1 && index == t.val / 4) || (kind == 2 && index == t.val)
  | .tdma t _ _ => kind == 0 || (kind == 1 && index == t.val / 4) || (kind == 2 && index == t.val)
  | .cdma c _ _ => kind == 0 || (kind == 1 && index == c.val) || (kind == 2 && index / 4 == c.val)

/-- The world a bank sees a master in: 1 Vital, 2 Common, none for the Storekeeper and the switch (R171). -/
def bankWorld : Master → Option Nat
  | .tile _ v _ => some (if v then 1 else 2)
  | .tdma _ _ v => some (if v then 1 else 2)
  | .cdma _ _ v => some (if v then 1 else 2)
  | .host => some 2
  | _ => none

/-- R172: the reason bank `b` refuses a master: 0 owner_kind, 1 world. -/
def bankRefuses (s : State) (b : Nat) (m : Master) : Option Nat :=
  let kind := s.get ⟨bankCtrl b + 8, 0, 3⟩
  let index := s.get ⟨bankCtrl b + 8, 3, 5⟩
  let world := s.get ⟨bankCtrl b + 8, 8, 2⟩
  if !ownerAdmits kind index m then some 0
  else match bankWorld m with
    | none => none
    | some w => if world == 0 || world == w then none else some 1

/-- R168, R169, R172, R185: why a place refuses a master other than through its windows; `copy` is the tile a takeover
copy serves. -/
def refusal (s : State) (p : Place) (m : Master) (copy : Option Nat) : Option Nat :=
  match p with
  | .none => some 2
  | .vault => match m with
    | .storekeeper => none
    | .tile _ v sup => if v && sup then none else some 3
    | _ => some 3
  | .bank b => bankRefuses s b m
  | .mram => if m == .switch then some 0 else none
  | .itcm _ => if m == .storekeeper then none else some 0
  | .dtcm t => match m with
    | .storekeeper => none
    | .tdma u _ _ => if u.val == t then none else some 0
    | .cdma c _ _ => if t / 4 == c.val || copy == some t then none else some 0
    | .tile u _ _ => if u.val == t then none else some 0
    | _ => some 0

/-- R173: a refusal is recorded in the block's VIOL registers. -/
def recordRefusal (p : Place) (a reason : Nat) (m : Master) (write : Bool) (s : State) : State :=
  let base := errBase p
  let n := min 255 (s.get ⟨base + 12, 24, 8⟩ + 1)
  let s := s.setN (base + 8) a
  let s := s.setN (base + 12) (masterId m + (if write then 256 else 0) + 512 * reason + 65536 * violBank p + 16777216 * n)
  match p with
  | .bank b => s.raise ⟨bankEvents b, 2, 1⟩
  | _ => s.raise MEM_EVENTS.owner_violation

/-! ### Reading and writing -/

/-- A store of `n` bytes in plain, bit-set or bit-clear form (R176). -/
def memWrite (form key n v : Nat) (s : State) : State :=
  let old := s.load key n
  let ones := 2 ^ (8 * n) - 1
  s.storeN key n (match form with
    | 1 => old ||| (v &&& ones)
    | 2 => old &&& (ones ^^^ (v &&& ones))
    | _ => v)

/-! ### Uncorrectable words -/

/-- The 64-bit word that byte `key` lies in. -/
def wordKey (key : Nat) : Nat := key / 8 * 8
/-- The error that an access of `n` bytes finds: a word once found uncorrectable stays so until it is written whole (R178). -/
def eccAt (s : State) (key ecc : Nat) : Nat := if s.memh.bad.contains (wordKey key) then 2 else ecc
/-- The error that matters to a write: a plain write of a whole word of an array needs no stored word (R178). -/
def eccWrite (s : State) (p : Place) (form key n ecc : Nat) : Nat :=
  if form == 0 && n == 8 && p != .mram then 0 else eccAt s key ecc
/-- A word is found uncorrectable: what it holds, its wrong bits among them, is open (log 2). -/
def badWord (k : Nat) (s : State) : State :=
  if s.memh.bad.contains k then s
  else
    let s := (s.storeN k 4 s.freeWord.toNat).drawn
    let s := (s.storeN (k + 4) 4 s.freeWord.toNat).drawn
    s.withMem { s.memh with bad := k :: s.memh.bad }
/-- The words of an uncorrectable MRAM line (R188). -/
def badLine (key : Nat) (s : State) : State := s.forEach (List.range 4) (fun i => badWord (key / 32 * 32 + 8 * i))

/-- R174: the bank grants master `id`. -/
def granted (p : Place) (m : Master) (s : State) : State :=
  match p with
  | .bank b => s.modBank b (fun h => { h with last := masterId m })
  | _ => s

/-- Whether a conflict counter of bank `b`'s block stands at 0xFFFF. -/
def confSaturated (s : State) (b : Nat) : Bool :=
  let lo := if b < 64 then BANK_CONF 0 0 else CBANK_CONF ((b - 64) / 16) 0 0
  let hi := if b < 64 then BANK_CONF 64 0 else CBANK_CONF ((b - 64) / 16) 16 0
  s.io.any (fun e => lo ≤ e.1 && e.1 < hi && (bitsOf e.2 0 16 == 0xFFFF || bitsOf e.2 16 16 == 0xFFFF))

/-- R175: the edges on which a request of master `m` waited at a bank that was On. -/
def conflicts (p : Place) (m : Master) (waited : Nat) (s : State) : State :=
  match p with
  | .bank b =>
    let frozen := if b < 64 then s.is MEM_CTRL.conf_freeze else s.is (CMEM_CTRL.conf_freeze ((b - 64) / 16))
    let id := masterId m
    let r := if b < 64 then BANK_CONF b (id / 2) else CBANK_CONF ((b - 64) / 16) ((b - 64) % 16) (id / 2)
    let f : Fld := ⟨r, 16 * (id % 2), 16⟩
    if frozen || waited == 0 || bankState s b != 0 then s
    else
      let n := s.get f + waited
      let sat := 0xFFFF ≤ n && !confSaturated s b
      (s.set f (min n 0xFFFF)).when sat (·.raise ⟨bankEvents b, 5, 1⟩)
  | _ => s

/-- R178, R188: an access finds a corrected (1) or uncorrectable (2) word. -/
def eccEvent (p : Place) (key a : Nat) (m : Master) (write : Bool) (ecc : Nat) (s : State) : State :=
  let uncorr := fun (base bank src : Nat) (s : State) =>
    let n := min 255 (s.get ⟨base + 4, 24, 8⟩ + 1)
    let s := s.setN base a
    let s := s.setN (base + 4) (masterId m + (if write then 256 else 0) + 65536 * bank + 16777216 * n)
    s.fault 0x10 src (s.reg base)
  let mark := fun (u : Nat) (s : State) =>
    let w := (u, wordKey key)
    s.withMem { s.memh with writeback := if s.memh.writeback.contains w then s.memh.writeback else s.memh.writeback ++ [w] }
  let tcm := fun (t : Nat) (itcm : Bool) (s : State) =>
    let c := t / 4
    if ecc == 1 then (mark (if itcm then 161 + 2 * t else 162 + 2 * t) s).raise (CMEM_EVENTS.tcm_corr c)
    else
      let s := ((badWord (wordKey key) s).raise (CMEM_EVENTS.tcm_uncorr c)).setN (CMEM_TCM_ERR c) t
      let off := key - (if itcm then itcmKey t else dtcmKey t)
      let s := (s.setN (TMEM_ERR_ADDR t) (off + (if itcm then 2 ^ 31 else 0))).bump (TMEM_STATUS.uncorr t)
      let s := s.fault 0x05 t (s.reg (TMEM_ERR_ADDR t))
      -- R417: the cluster resets the tile 8 clk later
      { s with tiles := updAt s.tiles t (fun x => { x with lockup := x.lockup.orElse (fun _ => some 0) }) }
  if ecc == 0 then s
  else match p with
    | .none => s
    | .mram =>
      if ecc == 1 then (s.bump MRAM_STATUS.corr_count).raise MEM_EVENTS.mram_corr
      else
        let s := (((badLine key s).bump MRAM_STATUS.uncorr_count).raise MEM_EVENTS.mram_uncorr).setN MRAM_ERR_ADDR
          ((key - mramKey) / 32 * 32)
        s.fault 0x26 0 (s.reg MRAM_ERR_ADDR)
    | .bank b =>
      if ecc == 1 then mark b (s.raise ⟨bankEvents b, 0, 1⟩)
      else uncorr (errBase p) (errBank p) (if b < 64 then 6 else (b - 64) / 16) ((badWord (wordKey key) s).raise ⟨bankEvents b, 1, 1⟩)
    | .vault =>
      if ecc == 1 then mark 160 (s.raise MEM_EVENTS.ecc_corr)
      else uncorr MEM_ERR_ADDR 0xFE 6 ((badWord (wordKey key) s).raise MEM_EVENTS.ecc_uncorr)
    | .dtcm t => tcm t false s
    | .itcm t => tcm t true s

/-- Whether a corrected word of array `u` waits to be written back. -/
def writebackDue (s : State) (u : Nat) : Bool := s.memh.writeback.any (fun w => w.1 == u)
/-- R178: the oldest corrected word of an array is written back. -/
def eccWriteback (u : Nat) (s : State) : State :=
  if !writebackDue s u then s
  else
    let s := s.withMem { s.memh with writeback := s.memh.writeback.eraseP (fun w => w.1 == u) }
    if u < 160 then s.bump ⟨bankCtrl u + 4, 8, 8⟩
    else if u == 160 then s
    else if u % 2 == 1 then s.bump (TMEM_STATUS.itcm_corr ((u - 161) / 2))
    else s.bump (TMEM_STATUS.dtcm_corr ((u - 162) / 2))

/-- The meaning of ECC_WRITEBACK. -/
def execEccWriteback (u : Fin 209) (s : State) : Outcome := .next (inCore (eccWriteback u) s)

/-! ### The MRAM controller -/

/-- R188: the write buffer takes a write of a line, or has no room for it. -/
def mramRoom (s : State) (key : Nat) : Bool := s.memh.lines.contains ((key - mramKey) / 32) || s.memh.lines.length < 16

/-- The number of buffered lines, as MEM_STATUS shows it. -/
def showLines (s : State) : State :=
  (s.set MEM_STATUS.wbuf_lines s.memh.lines.length).setB MEM_STATUS.wbuf_busy (!s.memh.lines.isEmpty)

/-- A line enters the write buffer; one that finds it full waits for the oldest to be written. -/
def bufferLine (key : Nat) (s : State) : State :=
  let l := (key - mramKey) / 32
  let held := if s.memh.lines.length < 16 then s.memh.lines else s.memh.lines.drop 1
  showLines (s.withMem { s.memh with lines := if s.memh.lines.contains l then s.memh.lines else held ++ [l] })

/-- Octets written into the MRAM, line by line through the write buffer (R188). -/
def mramBytes (key : Nat) (l : List Byte) (s : State) : State :=
  let n := if l.isEmpty then 0 else (key + l.length - 1) / 32 - key / 32 + 1
  ((s.setBytes key l).goodMem ((key + 31) / 32 * 32) ((key + l.length) / 32 * 32)).forEach (List.range n) (fun i =>
    bufferLine (key + 32 * i))

/-- R188, R189: a refused MRAM write. -/
def mramRefused (s : State) : State := (s.bump MRAM_STATUS.refused_count).raise MEM_EVENTS.mram_refused

/-- The oldest buffered line is written to the array (R188). -/
def mramLineWrite (s : State) : State := showLines (s.withMem { s.memh with lines := s.memh.lines.drop 1 })

/-- The meaning of MRAM_LINE_WRITE. -/
def execMramLineWrite (s : State) : Outcome := .next (inCore mramLineWrite s)

/-- Writes through the controller to a place: the store itself, with the grant and the buffer. -/
def placeWrite (p : Place) (form key n v : Nat) (m : Master) (s : State) : State :=
  let s := memWrite form key n v (granted p m s)
  let s := s.when (form == 0 && n == 8) (fun s => if p == .mram then s else s.goodMem key (key + 8))
  s.when (p == .mram) (bufferLine key)

/-! ### Bank power states -/

/-- Edge 0 of Table MEM-8. -/
def bankEnter (b target : Nat) (s : State) : State :=
  let s := bankClamp b false (bankTo b 5 s)
  (s.modBank b (fun h => { h with target := target, next := none })).modMem (fun h =>
    { h with entering := (b, 0) :: h.entering.filter (fun e => e.1 != b) })

/-- R182: a wake to On starts; `next` is the low-power state to enter on its completion. -/
def bankWake (b : Nat) (next : Option Nat) (s : State) : State :=
  let s := (bankTo b 4 s).set ⟨bankCtrl b, 0, 2⟩ 0
  bankClamp b true (s.modBank b (fun h => { h with next := next, woaPend := false }))

/-- R180: who may ask for bank state `code`. -/
def bankWriter (s : State) (b code : Nat) (m : Master) : Bool :=
  match m with
  | .storekeeper => true
  | .host => code != 3
  | .tile _ v sup => v && sup && code != 3 && ownerAdmits (s.get ⟨bankCtrl b + 8, 0, 3⟩) (s.get ⟨bankCtrl b + 8, 3, 5⟩) m
  | _ => false

/-- R180: a write of BANK_CTRL.state_req and woa. -/
def bankStateReq (m : Master) (b : Nat) (v : Word) (s : State) : State :=
  let code := bitsOf v 0 2
  let st := bankState s b
  let result := fun (n : Nat) (s : State) => s.set ⟨bankCtrl b + 4, 4, 2⟩ n
  if 64 ≤ b && !domOn s (domCluster ((b - 64) / 16)) then s
  else if !bankWriter s b code m then result 1 s
  else if s.get ⟨bankCtrl b + 8, 0, 3⟩ == 3 && code != 0 then result 2 s
  else if st == 4 || st == 5 then result 3 s
  else
      let s := s.set ⟨bankCtrl b, 2, 1⟩ (bitsOf v 2 1)
      let s := (result 0 s).set ⟨bankCtrl b, 0, 2⟩ code
      if code == st then s
      else if st == 0 then bankEnter b code s
      else bankWake b (if code == 0 then none else some code) s

/-- The meaning of BANK_STATE_REQ. -/
def execBankStateReq (m : Master) (b : Fin 160) (v : Word) (s : State) : Outcome := .next (inCore (bankStateReq m b v) s)

/-- R175: every counter of a bank returns to 0. -/
def confClear (b : Nat) (s : State) : State :=
  let r := if b < 64 then BANK_CONF b 0 else CBANK_CONF ((b - 64) / 16) ((b - 64) % 16) 0
  s.resetRegs (fun a => r ≤ a && a < r + 0x200)

/-- The meaning of CONF_CLEAR: a write of BANK_CTRL.conf_clear by a writer of R180. -/
def execConfClear (m : Master) (b : Fin 160) (s : State) : Outcome :=
  .next (inCore (fun s => if bankWriter s b 0 m then confClear b s else s) s)

/-- R183: the groups' last bank has completed. -/
def deepCheck (b : Nat) (s : State) : State :=
  let s := s.withMem { s.memh with deepBanks := s.memh.deepBanks.filter (· != b) }
  if s.is MEM_STATUS.deep_hold && s.memh.deepBanks.isEmpty && s.memh.deepNext == some 20 then
    ((s.set MEM_STATUS.deep_hold 0).raise MEM_EVENTS.deep_exit_done).withMem { s.memh with deepNext := none }
  else s

/-- Table MEM-8, last edge: the requested state is entered. -/
def bankEntryDone (b : Nat) (s : State) : State :=
  if bankState s b != 5 || !s.is ⟨bankCtrl b + 4, 3, 1⟩ then s
  else
    let h := s.bankOf b
    let s := (bankTo b h.target s).set ⟨bankCtrl b, 0, 2⟩ h.target
    let s := s.withMem { s.memh with entering := s.memh.entering.filter (fun e => e.1 != b) }
    let s := s.modBank b (fun h => { h with zero := h.zero || h.target == 2 })
    let s := deepCheck b (s.raise ⟨bankEvents b, 4, 1⟩)
    s.when h.woaPend (bankWake b none)

/-- The meaning of BANK_ENTRY_DONE. -/
def execBankEntryDone (b : Fin 160) (s : State) : Outcome := .next (inCore (bankEntryDone b) s)

/-- R182: a wake completes. -/
def bankWakeDone (b : Nat) (s : State) : State :=
  if bankState s b != 4 then s
  else
    let h := s.bankOf b
    let (lo, size) := bankKey b
    let s := s.when h.zero (fun s => (s.clearMem lo (lo + size)).goodMem lo (lo + size))
    let s := bankClamp b false (bankTo b 0 s)
    let s := s.modBank b (fun h => { h with zero := false, last := 171, next := none })
    match h.next with
    | some st => bankEnter b st s
    | none => deepCheck b (s.raise ⟨bankEvents b, 4, 1⟩)

/-- The meaning of BANK_WAKE_DONE. -/
def execBankWakeDone (b : Fin 160) (s : State) : Outcome := .next (inCore (bankWakeDone b) s)

/-- R183: the next group of 8 banks leaves Deep retention for the states of the Power defaults section. -/
def deepExitGroup (s : State) : State :=
  match s.memh.deepNext with
  | none => s
  | some g =>
    if 20 ≤ g then s
    else
      let s := s.withMem { s.memh with deepNext := some (g + 1) }
      let s := s.forEach ((List.range 8).map (8 * g + ·)) (fun b s =>
        match (if 64 ≤ b && !domOn s (domCluster ((b - 64) / 16)) then 2 else bankDefault s.invB b) with
        | 2 => (bankClamp b true (bankTo b 2 s)).modBank b (fun h => { h with zero := true })
        | 1 => (bankWake b (some 1) s).modMem (fun h => { h with deepBanks := b :: h.deepBanks })
        | _ => (bankWake b none s).modMem (fun h => { h with deepBanks := b :: h.deepBanks }))
      deepCheck 160 s

/-- The meaning of DEEP_EXIT_GROUP. -/
def execDeepExitGroup (s : State) : Outcome := .next (inCore deepExitGroup s)

/-- One core edge of the entries in progress: the clamps engage on edge 3 (Table MEM-8). -/
def bankCycle (s : State) : State :=
  let s := s.forEach s.memh.entering (fun e s => s.when (e.2 == 2) (bankClamp e.1 true))
  s.withMem { s.memh with entering := s.memh.entering.map (fun e => (e.1, min 4 (e.2 + 1))) }

/-- R181, R182: an access with wake-on-access reaches a bank that is off, or one Entering, which then wakes once it is off. -/
def bankTouch (b : Nat) (s : State) : State :=
  match bankState s b with
  | 5 => s.when (bankWoa s b) (·.modBank b (fun h => { h with woaPend := true }))
  | 4 => s
  | _ => bankWake b none s

/-! ### The Vault -/

/-- The Vault counts as off (R186, R184). -/
def vaultOff (s : State) : Bool := s.is VAULT_STATUS.wiping || !domOn s 1

/-- The meaning of VAULT_WIPE: one of the causes of Table MEM-10. -/
def execVaultWipe (cause : Fin 9) (s : State) : Outcome := .next (if cause == 0 then s else vaultWipe cause s)

/-- The meaning of WIPE: a write of VAULT_CTRL.wipe. -/
def execWipe (m : Master) (s : State) : Outcome := .next (if vitalOrSk m then vaultWipe 7 s else s)

/-- R186: the clear completes. -/
def vaultWipeDone (s : State) : State :=
  if s.is VAULT_STATUS.wiping then
    (((s.clearMem 0x2FF00000 0x2FF10000).goodMem 0x2FF00000 0x2FF10000).set VAULT_STATUS.wiping 0).raise MEM_EVENTS.vault_wiped
  else s

/-- The meaning of VAULT_WIPE_DONE. -/
def execVaultWipeDone (s : State) : Outcome := .next (vaultWipeDone s)

/-! ### Off targets -/

/-- R334: on edges 0 to 2 of its entry a domain with wake-on-access keeps a new access waiting for the wake that follows. -/
def domHeld (s : State) (d : Nat) : Bool :=
  s.get (PWR_DOM_STAT.state d) == 2 && domOn s d && s.is (PWR_DOM_CTRL.woa d) && wakeable s d
/-- R181, R334: on edges 0 to 2 of an entry a new access of a bank is held pending, and one of a domain with wake-on-access. -/
def placeHeld (s : State) : Place → Bool
  | .bank b => (bankState s b == 5 && !s.is ⟨bankCtrl b + 4, 3, 1⟩) || (64 ≤ b && domHeld s (domCluster ((b - 64) / 16)))
  | .dtcm t => domHeld s (domTile t)
  | .itcm t => domHeld s (domTile t)
  | _ => false

/-- Whether a block of a tile occupies offset `o` of the tile's range (Table MEM-3). -/
def tileOccupied (o : Nat) : Bool := o < 0x2000 || o == 0x2000 || (0x4000 ≤ o && o < 0x7000) || (0x8000 ≤ o && o < 0x9000)
/-- The domain that holds an I/O block: a cluster, pair, tile or lane domain; none for blocks of the core domains, and where no
block is (R170).  A lane's domain holds its port registers (Table NET-6). -/
def ioDomain (a : Nat) : Option Nat :=
  if 0x100000 ≤ a && a < 0x700000 then
    let c := a / 0x100000 - 1
    let o := a % 0x100000
    if 0x80000 ≤ o && o < 0xC0000 then
      (if tileOccupied (o % 0x10000) then some (domTile (4 * c + (o - 0x80000) / 0x10000)) else none)
    else if 0x50000 ≤ o then none
    else if 0x20000 ≤ o && o < 0x30000 then some (domPair c)
    else some (domCluster c)
  else if PORT_CFG 0 ≤ a && a < PORT_CFG 8 then some (domLane ((a - PORT_CFG 0) / 0x400))
  else none

/-- R184: the target of a place is off; with wake-on-access, as the second component. -/
def placeOff (s : State) (p : Place) : Bool × Bool :=
  match p with
  | .bank b =>
    if 64 ≤ b && !domOn s (domCluster ((b - 64) / 16)) then (true, s.is (PWR_DOM_CTRL.woa (domCluster ((b - 64) / 16))))
    else (bankOff s b, bankWoa s b)
  | .vault => (vaultOff s, false)
  | .mram => (!domOn s 2, false)
  | .dtcm t => (!domOn s (domTile t), s.is (PWR_DOM_CTRL.woa (domTile t)) && wakeable s (domTile t))
  | .itcm t => (!domOn s (domTile t), s.is (PWR_DOM_CTRL.woa (domTile t)) && wakeable s (domTile t))
  | .none => (false, false)

/-- R184: a refusal at an off bank sets off_access. -/
def offAccess (p : Place) (s : State) : State :=
  match p with
  | .bank b => s.raise ⟨bankEvents b, 3, 1⟩
  | _ => s

end Sys2Proof.Machine
end

