-- ==== Sys2Proof/Machine/Operands.lean ====
section
/-!
DEFINITION. Sys2Proof/Machine/Operands.lean: the operand forms of tile instructions: instruction words (Tables ISA-4 to
ISA-8), register and immediate operands, effective addresses, and the checks of data and I/O addresses (R91 to R95, R119,
R120).
-/
namespace Sys2Proof.Machine

/-! ### Instruction words -/

/-- An R-format word (Table ISA-4). -/
def encR (op ga gb gc aux minor : Nat) : Word :=
  BitVec.ofNat 32 (op * 2 ^ 26 + ga * 2 ^ 22 + gb * 2 ^ 18 + gc * 2 ^ 14 + aux * 2 ^ 6 + minor)
/-- An I-format word. -/
def encI (op ga gb imm : Nat) : Word := BitVec.ofNat 32 (op * 2 ^ 26 + ga * 2 ^ 22 + gb * 2 ^ 18 + imm)
/-- A J-format word. -/
def encJ (op off : Nat) : Word := BitVec.ofNat 32 (op * 2 ^ 26 + off)

/-- R98: a word that raises EMUL. -/
def undefinedWord (w : Word) : Bool :=
  let op := bitsOf w 26 6
  let ga := bitsOf w 22 4
  let gb := bitsOf w 18 4
  let gc := bitsOf w 14 4
  let aux := bitsOf w 6 8
  let minor := bitsOf w 0 6
  let imm := bitsOf w 0 18
  let bad : Bool := match op with
    | 0x01 => 0x12 < minor || aux != 0 || (minor == 0x12 && gc != 0)
    | 0x08 => imm / 128 != 0
    | 0x09 => gb != 0
    | 0x0A => gb != 0
    | 0x0B => imm / 4096 != 0 || imm / 1024 % 4 == 3 || 32 < imm % 32 + imm / 32 % 32 + 1
    | 0x0C => imm / 64 != 0 || imm % 32 == 0
    | 0x0D => 2 < minor || ga != 0 || aux != 0
    | 0x0E => 5 < minor || ga != 0 || aux != 0 || (minor == 4 && (gb != 0 || gc != 0)) || (minor == 5 && gc != 0)
    | 0x0F => 1 < minor || ga != 0 || aux != 0
    | 0x10 => imm / 128 != 0 || gb != 0
    | 0x11 => imm / 32 != 0 || gb != 0 || 16 ≤ imm
    | 0x12 => imm / 32 != 0 || gb != 0 || 16 ≤ imm
    | 0x1B => 4 < minor || aux / 4 != 0
    | 0x1C => 2 < minor || aux / 4 != 0
    | 0x25 => gb != 0
    | 0x28 => 1 < minor || gc != 0 || aux != 0 || (minor == 0 && ga != 0)
    | 0x29 => 0x0A < minor || ga != 0 || gc != 0 || (minor != 9 && gb != 0) || (minor != 4 && aux != 0)
    | 0x2A => ga != 0 || gb != 0 || imm / 256 != 0
    | 0x2B => 2 < minor || aux != 0
    | 0x2C => 2 < minor || aux != 0
    | 0x2D => 2 < minor || aux != 0
    | 0x2E => 2 < minor || aux != 0
    | 0x2F => minor != 0 || aux != 0
    | _ => false
  op == 0 || 0x30 ≤ op || bad

/-! ### Registers of a tile -/

/-- Changes tile `t`. -/
def State.modTile (s : State) (t : Nat) (f : Tile → Tile) : State := { s with tiles := updAt s.tiles t f }
/-- Tile `t`. -/
def State.tileOf (s : State) (t : Nat) : Tile := atD s.tiles t Tile.reset

/-- WST.level: supervisor. -/
def Tile.sup (x : Tile) : Bool := x.wst.getLsbD 0
/-- WST.world: 0 Vital, 1 Common. -/
def Tile.world (x : Tile) : Nat := if x.wst.getLsbD 1 then 1 else 0
/-- WST.ie. -/
def Tile.ie (x : Tile) : Bool := x.wst.getLsbD 2
/-- WST.pri. -/
def Tile.pri (x : Tile) : Nat := bitsOf x.wst 8 5
/-- WST.lx. -/
def Tile.lx (x : Tile) : Bool := x.wst.getLsbD 19
/-- The index of a priority's sync depth: thread level is 16. -/
def priIx (p : Nat) : Nat := if p < 16 then p else 16
/-- The present sync depth. -/
def Tile.syncDepth (x : Tile) : Nat := atD x.depth (priIx x.pri) 0
/-- The index of the SP copy in use (R95). -/
def Tile.spIx (x : Tile) : Nat := 2 * x.world + (if x.sup then 1 else 0)
/-- The value of general register `i`. -/
def Tile.get (x : Tile) (i : Fin 16) : Word := if i.val == 15 then atD x.sp x.spIx 0 else atD x.g i 0
/-- Gives general register `i` a value. -/
def Tile.put (x : Tile) (i : Fin 16) (v : Word) : Tile :=
  if i.val == 15 then { x with sp := updAt x.sp x.spIx (fun _ => v) } else { x with g := updAt x.g i (fun _ => v) }
/-- Gives general register `i` of tile `t` a value. -/
def setG (t : Nat) (i : Fin 16) (v : Word) (s : State) : State := s.modTile t (·.put i v)

/-- Sign extension of an 18-bit immediate. -/
def sext18 (i : BitVec 18) : Word := i.signExtend 32
/-- Zero extension of an 18-bit immediate. -/
def zext18 (i : BitVec 18) : Word := i.zeroExtend 32

/-! ### Address checks -/

/-- How an access is answered before it is made: performed, an exception with its vector and detail, or a wait for a wake
that the access starts (R136). -/
inductive Check where
  | ok (p : Place) (form key : Nat)
  | raise (vec detail : Nat)
  | wait (p : Place)
  deriving DecidableEq, Repr

/-- A window word of the tile's world (Table INV-6). -/
def winWord (s : State) (t w i : Nat) : Nat := s.regN (EXC_WIN t w i)
/-- R119: `[a, a + n)` lies in one data window of world `w` of tile `t`. -/
def inDataWindow (s : State) (t w a n : Nat) : Bool :=
  (List.range 4).any (fun k => winWord s t w (2 * k) ≤ a && a + n ≤ winWord s t w (2 * k + 1))
/-- Whether any of `n` bytes at `a` lies in the Vault. -/
def touchesVault (a n : Nat) : Bool := a < 0x2FF10000 && 0x2FF00000 < a + n

/-- R93, R103, R119, R136, R168, R169, R172: a data access of `n` bytes at `a` by tile `t`. -/
def checkData (s : State) (t : Nat) (x : Tile) (a n : Nat) : Check :=
  if a % n != 0 then .raise 4 0
  else
    let (form, b) := unalias a
    let (p, key) := place (some t) b
    let vital := x.world == 0
    if !inDataWindow s t x.world b n then .raise 5 0
    else if touchesVault b n && !(vital && x.sup) then .raise 5 (if vital then 2 else 0)
    else if 0x40000 ≤ b && b < 0x10000000 then .raise 5 0
    else if (refusal s p (.tile ⟨t % 24, Nat.mod_lt _ (by decide)⟩ vital x.sup) none).isSome then .raise 5 0
    else
      let (off, woa) := placeOff s p
      if off then (if woa then .wait p else .raise 6 0) else .ok p form key

/-- The I/O address meant by a tile's effective address: its own-tile alias is translated (Table MEM-3). -/
def ioGlobal (t ea : Nat) : Nat := if 0xF00000 ≤ ea && ea < 0xF10000 then tileBlk t + ea % 0x10000 else ea

/-- The tile and the offset in its block, for an I/O address in a tile's block. -/
def tileBlock (a : Nat) : Option (Nat × Nat) :=
  if 0x100000 ≤ a && a < 0x700000 && 0x80000 ≤ a % 0x100000 && a % 0x100000 < 0xC0000 then
    some (4 * (a / 0x100000 - 1) + (a % 0x100000 - 0x80000) / 0x10000, a % 0x10000)
  else none

/-- R119, R120: registers that only supervisor level reaches: the tile control range, and the blocks whose chapter makes
their registers readable at supervisor level (log 35). -/
def supOnly (a : Nat) : Bool :=
  match tileBlock a with
  | some (_, o) => o < 0x2000
  | none =>
    if a < 0x100000 then
      let d := a / 0x10000
      d == 0 || d == 1 || d == 2 || d == 4 || d == 8 || d == 9 || d == 0xA || 0xC ≤ d
    else if a < 0x700000 then
      let o := a % 0x100000
      (0x40000 ≤ o && o < 0x48000) || (0x48000 ≤ o && o < 0x49000)
    else false

/-- The answer to an I/O access of a tile. -/
inductive IoCheck where
  | ok (a : Nat)
  | raise (vec detail : Nat)
  | wait (dom : Nat)
  deriving DecidableEq, Repr

/-- R94, R103, R119, R120, R136, R142: an IN or OUT at `ea` by tile `t`. -/
def checkIo (s : State) (t : Nat) (x : Tile) (ea : Nat) : IoCheck :=
  if 0x1000000 ≤ ea || ea % 4 != 0 then .raise 4 1
  else
    let a := ioGlobal t ea
    let page := (tileBlock a).any (fun p => p.1 == t && ((0x4000 ≤ p.2 && p.2 < 0x5000 && x.world == 1) ||
      (0x5000 ≤ p.2 && p.2 < 0x6000 && x.world == 0)))
    if !(winWord s t x.world 8 ≤ ea && ea < winWord s t x.world 9) then .raise 5 1
    else if !x.sup && supOnly a then .raise 5 3
    else if page then .raise 5 1
    else match ioDomain a with
      | none => .ok a
      | some d =>
        if domOn s d && !domHeld s d then .ok a
        else if s.is (PWR_DOM_CTRL.woa d) && wakeable s d then
          .wait d
        else .raise 6 1

/-- R334: an access with wake-on-access reaches a domain that is off. -/
def domTouch (d : Nat) (s : State) : State :=
  match s.get (PWR_DOM_STAT.state d) with
  | 1 => (s.set (PWR_DOM_STAT.state d) 3).set (PWR_DOM_CTRL.req d) 0
  | 2 => { s with pwr := { s.pwr with domPend := if s.pwr.domPend.contains d then s.pwr.domPend else d :: s.pwr.domPend } }
  | _ => s

/-- An access with wake-on-access reaches a place that is off or Entering (R181, R182, R334). -/
def placeTouch (p : Place) (s : State) : State :=
  match p with
  | .bank b =>
    let d := domCluster ((b - 64) / 16)
    if 64 ≤ b && (!domOn s d || domHeld s d) then domTouch d s else bankTouch b s
  | .dtcm t => domTouch (domTile t) s
  | .itcm t => domTouch (domTile t) s
  | _ => s

end Sys2Proof.Machine
end

