-- ==== Sys2Proof/Machine/Flags.lean ====
section
/-!
DEFINITION. Sys2Proof/Machine/Flags.lean: the arithmetic of tile instructions with its clamps and sticky flags (R100 to
R102, R115): each function gives the result and whether the flag of its rule is set.
-/
namespace Sys2Proof.Machine

/-- Clamps an integer to the signed 32-bit range; whether it was clamped (R100). -/
def clamp32 (i : Int) : Word × Bool :=
  if i < -(2 ^ 31) then (0x80000000, true) else if (2 ^ 31 : Int) ≤ i then (0x7FFFFFFF, true) else (BitVec.ofInt 32 i, false)

/-- ADDS: the sum clamped to the signed 32-bit range, and sat. -/
def addSat (a b : Word) : Word × Bool := clamp32 (a.toInt + b.toInt)
/-- SUBS. -/
def subSat (a b : Word) : Word × Bool := clamp32 (a.toInt - b.toInt)

/-- SATG (Table ISA-8): clamped to `n` bits, unsigned when `u`. -/
def satTo (n : Nat) (u : Bool) (v : Word) : Word × Bool :=
  let i := v.toInt
  let lo : Int := if u then 0 else -(2 ^ (n - 1))
  let hi : Int := if u then 2 ^ n - 1 else 2 ^ (n - 1) - 1
  if i < lo then (BitVec.ofInt 32 lo, true) else if hi < i then (BitVec.ofInt 32 hi, true) else (v, false)

/-- Signed set-less-than. -/
def slt (a b : Word) : Word := if a.toInt < b.toInt then 1 else 0
/-- Unsigned set-less-than. -/
def sltu (a b : Word) : Word := if a.toNat < b.toNat then 1 else 0
/-- Signed minimum and maximum. -/
def sMin (a b : Word) : Word := if a.toInt < b.toInt then a else b
def sMax (a b : Word) : Word := if a.toInt < b.toInt then b else a
/-- Unsigned minimum and maximum. -/
def uMin (a b : Word) : Word := if a.toNat < b.toNat then a else b
def uMax (a b : Word) : Word := if a.toNat < b.toNat then b else a
/-- Shift amounts come from bits [4:0] (Table ISA-6). -/
def shAmt (w : Word) : Nat := w.toNat % 32
/-- Leading zeros, 32 for 0. -/
def clz (v : Word) : Word := BitVec.ofNat 32 (((List.range 32).find? (fun k => v.getLsbD (31 - k))).getD 32)

/-- EXTU and EXTS: bits `pos + len - 1 .. pos`. -/
def extU (pos len : Nat) (v : Word) : Word := BitVec.ofNat 32 (v.toNat / 2 ^ pos % 2 ^ len)
def extS (pos len : Nat) (v : Word) : Word := BitVec.ofInt 32 (signedN len (v.toNat / 2 ^ pos))
/-- INS: bits `pos + len - 1 .. pos` of `old` replaced by bits `len - 1 .. 0` of `v`. -/
def insF (pos len : Nat) (old v : Word) : Word :=
  BitVec.ofNat 32 (old.toNat - old.toNat / 2 ^ pos % 2 ^ len * 2 ^ pos + v.toNat % 2 ^ len * 2 ^ pos)

/-! ### Multiply, accumulate, divide -/

/-- The low and high words of a 64-bit product. -/
def product64 (p : Int) : Word × Word :=
  let n := toBits 64 p
  (BitVec.ofNat 32 n, BitVec.ofNat 32 (n / 2 ^ 32))
/-- The signed value of a word's low halfword. -/
def half (w : Word) : Int := signedN 16 w.toNat

/-- The accumulator AX:AH:AL as a signed 72-bit value (R102). -/
def accOf (r : Results) : Int := signedN 72 (r.al.toNat + 2 ^ 32 * r.ah.toNat + 2 ^ 64 * (r.ax.toNat % 256))
/-- AX, AH and AL from a value modulo 2^72; AX holds bits [71:64]. -/
def setAcc (r : Results) (v : Int) : Results :=
  let n := toBits 72 v
  { r with al := BitVec.ofNat 32 n, ah := BitVec.ofNat 32 (n / 2 ^ 32), ax := BitVec.ofNat 32 (n / 2 ^ 64) }
/-- A read of AX returns bit 7 copied into [31:8] (Table ISA-2). -/
def readAx (r : Results) : Word := BitVec.ofInt 32 (signedN 8 r.ax.toNat)

/-- One accumulator operation: the registers, and whether WST.sat is set by an overflow out of 72 bits (R102). -/
def accApply (r : Results) (op : AccOp) : Results × Bool :=
  match op with
  | .add p =>
    let v := accOf r + p
    (setAcc r v, decide (v < -(2 ^ 71) ∨ (2 ^ 71 : Int) ≤ v))
  | .load v => (setAcc r v, false)
  | .part 2 v => ({ r with al := v }, false)
  | .part 3 v => ({ r with ah := v }, false)
  | .part _ v => ({ r with ax := v &&& 0xFF }, false)

/-- One multiplier operation (R105, R107). -/
def mulApply (r : Results) (op : MulOp) : Results :=
  match op with
  | .product lo hi => { r with ml := lo, mh := hi }
  | .part 0 v => { r with ml := v }
  | .part _ v => { r with mh := v }

/-- EXTA (R102): the extracted value, and sat. -/
def extractAcc (r : Results) (shift : Nat) (round : Bool) : Word × Bool :=
  let b : Int := if round && shift != 0 then 2 ^ (shift - 1) else 0
  clamp32 ((accOf r + b).fdiv (2 ^ shift : Int))

/-- R101: quotient, remainder and dv of a divide. -/
def divide (signed : Bool) (a b : Word) : Word × Word × Bool :=
  if b == 0 then (0xFFFFFFFF, a, true)
  else if signed then
    if a == 0x80000000 && b == 0xFFFFFFFF then (0x80000000, 0, true)
    else (BitVec.ofInt 32 (a.toInt.tdiv b.toInt), BitVec.ofInt 32 (a.toInt.tmod b.toInt), false)
  else (BitVec.ofNat 32 (a.toNat / b.toNat), BitVec.ofNat 32 (a.toNat % b.toNat), false)

/-! ### CRC steps (R115) -/

/-- Eight steps of a reflected CRC. -/
def crcReflected (poly crc : Nat) : Nat → Nat
  | 0 => crc
  | n + 1 => crcReflected poly (if crc % 2 == 1 then crc / 2 ^^^ poly else crc / 2) n
/-- Eight steps of CRC-16, not reflected. -/
def crc16Steps (crc : Nat) : Nat → Nat
  | 0 => crc
  | n + 1 => crc16Steps ((if crc / 2 ^ 15 % 2 == 1 then (2 * crc) ^^^ 0x1021 else 2 * crc) % 2 ^ 16) n
/-- One byte into a CRC: polynomial code 0 CRC-32C, 1 CRC-32, 2 CRC-16. -/
def crcByte (poly crc b : Nat) : Nat :=
  match poly with
  | 0 => crcReflected 0x82F63B78 (crc ^^^ b) 8
  | 1 => crcReflected 0xEDB88320 (crc ^^^ b) 8
  | _ => crc16Steps ((crc ^^^ (b * 256)) % 2 ^ 16) 8
/-- Bytes into a CRC in order. -/
def crcBytes (poly crc : Nat) (l : List Byte) : Nat := l.foldl (fun c b => crcByte poly c b.toNat) crc

end Sys2Proof.Machine
end

