-- ==== Sys2Proof/Machine/Exceptions.lean ====
section
/-!
DEFINITION. Sys2Proof/Machine/Exceptions.lean: the event controller, exception and event entry, return, the emergency stack
and lockup, gates' shared pieces, and tile resets (R109, R118, R123 to R137).
-/
namespace Sys2Proof.Machine

/-! ### The event controller -/

/-- Bit `b` of an event register ANDed with its enable register (R123). -/
def flagLevel (s : State) (ev en b : Nat) : Bool := (s.reg ev).getLsbD b && (s.reg en).getLsbD b
/-- Any enabled flag of a port's event register (Table BUS-1). -/
def anyLevel (s : State) (ev en : Nat) : Bool := (s.reg ev &&& s.reg en) != 0

/-- Bits 0 to 9 of OMT_EVENTS: levels of tile `t`'s queues and NACK FIFOs (Table VOT-14). -/
def omtLevel (s : State) (t b : Nat) : Bool :=
  if b < 8 then !(atD s.omt.rx (8 * t + b) []).isEmpty
  else if b < 10 then !(atD s.omt.nack (2 * t + (b - 8)) []).isEmpty
  else (s.reg (OMT_EVENTS t)).getLsbD b

/-- R123, Table EXC-2: whether source EV `e` is asserted at tile `t`. -/
def evLevel (s : State) (t e : Nat) : Bool :=
  let c := t / 4
  let clu := domOn s (domCluster c)
  if e < 16 then flagLevel s (EXC_EVENTS t) (EXC_EVENT_EN t) e
  else if e < 32 then (s.reg (EVC_SW t)).getLsbD (e - 16)
  else if e < 48 then flagLevel s (TDMA_EVENTS t) (TDMA_EVENT_EN t) (e - 32)
  else if e < 64 then omtLevel s t (e - 48) && (s.reg (OMT_EVENT_EN t)).getLsbD (e - 48)
  else if e < 80 then clu && flagLevel s (CMEM_EVENTS c) (CMEM_EVENT_EN c) (e - 64)
  else if e < 96 then flagLevel s MEM_EVENTS MEM_EVENT_EN (e - 80)
  else if e < 128 then clu && flagLevel s (CDMA_EVENTS c) (CDMA_EVENT_EN c) (e - 96)
  else if e < 160 then domOn s (domPair c) && flagLevel s (ADC_EVENTS c) (ADC_EVENT_EN c) (e - 128)
  else if e < 192 then clu && flagLevel s (EDG_EVENTS c) (EDG_EVENT_EN c) (e - 160)
  else if e < 224 then clu && flagLevel s (VOTE_EVENTS c) (VOTE_EVENT_EN c) (e - 192)
  else if e < 256 then false
  else if e < 272 then flagLevel s CLK_EVENTS CLK_EVENT_EN (e - 256)
  else if e < 280 then flagLevel s TT_EVENTS TT_EVENT_EN (e - 272)
  else if e < 288 then (s.reg INV_EVENTS).getLsbD (e - 280)
  else if e < 320 then flagLevel s NET_EVENTS NET_EVENT_EN (e - 288)
  else if e < 328 then anyLevel s (CAN_EVENTS (e - 320)) (CAN_EVENT_EN (e - 320))
  else if e < 330 then anyLevel s (MVB_EVENTS (e - 328)) (MVB_EVENT_EN (e - 328))
  else if e < 338 then anyLevel s (UART_EVENTS (e - 330)) (UART_EVENT_EN (e - 330))
  else if e < 342 then anyLevel s (SPI_EVENTS (e - 338)) (SPI_EVENT_EN (e - 338))
  else if e < 344 then anyLevel s (I2C_EVENTS (e - 342)) (I2C_EVENT_EN (e - 342))
  else if e < 384 then false
  else if e < 392 then s.reg (GPIO_EVENTS (e - 384)) != 0
  else if e < 398 then flagLevel s PIN_EVENTS PIN_EVENT_EN (e - 392)
  else if e < 448 then false
  else if e < 464 then flagLevel s PWR_EVENTS PWR_EVENT_EN (e - 448)
  else if e < 472 then flagLevel s BOOT_EVENTS BOOT_EVENT_EN (e - 464)
  else if e < 480 then flagLevel s HOST_EVENTS HOST_EVENT_EN (e - 472)
  else if e < 510 then flagLevel s FLT_EVENTS FLT_EVENT_EN (e - 480)
  else false

/-- The sources whose EVC_CFG has enable set; every one rests disabled, so only listed registers matter. -/
def enabledEvents (s : State) (t : Nat) : List Nat :=
  s.io.filterMap (fun e =>
    if EVC_CFG t 0 ≤ e.1 && e.1 < EVC_CFG t 512 && e.2.getLsbD 0 then some ((e.1 - EVC_CFG t 0) / 4) else none)
/-- The pending sources: asserted and enabled. -/
def pendingEvents (s : State) (t : Nat) : List Nat := (enabledEvents s t).filter (evLevel s t)
/-- The more urgent of two pending sources (R125). -/
def moreUrgent (s : State) (t : Nat) (a : Option Nat) (e : Nat) : Option Nat :=
  match a with
  | none => some e
  | some b =>
    let pa := s.get (EVC_CFG.priority t b)
    let pe := s.get (EVC_CFG.priority t e)
    if pe < pa || (pe == pa && e < b) then some e else a
/-- The most urgent of a list of sources. -/
def topEvent (s : State) (t : Nat) (l : List Nat) : Option Nat := l.foldl (moreUrgent s t) none
/-- The source that would end a WAIT or pre-empt at tile `t`, with its priority (R125, R126). -/
def urgentEvent (s : State) (t : Nat) : Option (Nat × Nat) :=
  match topEvent s t (pendingEvents s t) with
  | some e =>
    let p := s.get (EVC_CFG.priority t e)
    if p < (s.tileOf t).pri then some (e, p) else none
  | none => none

/-- EVC_PEND word `n` as world `w` reads it (Table EXC-11). -/
def readPend (s : State) (t n w : Nat) : Word :=
  ((pendingEvents s t).filter (fun e => e / 32 == n && s.get (EVC_CFG.world t e) == w)).foldl
    (fun acc e => acc ||| BitVec.ofNat 32 (2 ^ (e % 32))) 0
/-- EVC_TOP as world `w` reads it. -/
def readTop (s : State) (t w : Nat) : Word :=
  match topEvent s t ((pendingEvents s t).filter (fun e => s.get (EVC_CFG.world t e) == w)) with
  | some e => BitVec.ofNat 32 (e + 65536 * s.get (EVC_CFG.priority t e) + 2 ^ 31)
  | none => 0
/-- EXC_STATUS with the depths of the present context (Table EXC-9). -/
def readExcStatus (s : State) (t : Nat) : Word :=
  let x := s.tileOf t
  BitVec.ofNat 32 (s.get (EXC_STATUS.emerg_vital t) + 2 * s.get (EXC_STATUS.emerg_common t) + 4 * x.gates.length +
    (if x.hold != 0 then 32 else 0) + 256 * x.syncDepth + 65536 * s.get (EXC_STATUS.active t))

/-- R124: a write of EVC_CFG takes effect field by field. -/
def writeEvcCfg (m : Master) (t e : Nat) (v : Word) (s : State) : State :=
  match m with
  | .tile u vital sup =>
    if u.val != t || !sup then s
    else
      let owner := s.get (EVC_CFG.world t e)
      let owns := owner == (if vital then 0 else 1)
      let setsWorld := vital && !s.is (EXC_CTRL.evc_lock t)
      let diff := fun (f : Fld) => bitsOf v f.lo f.w != s.get f
      let foreign := (!owns && (diff (EVC_CFG.enable t e) || diff (EVC_CFG.priority t e))) ||
        (!setsWorld && diff (EVC_CFG.world t e))
      let s := s.when owns (fun s =>
        (s.set (EVC_CFG.enable t e) (bitsOf v 0 1)).set (EVC_CFG.priority t e) (bitsOf v 4 4))
      let s := s.when setsWorld (·.set (EVC_CFG.world t e) (bitsOf v 8 1))
      s.when foreign (·.raise (EXC_EVENTS.foreign_write t))
  | _ => s

/-- The meaning of EVC_CFG. -/
def execEvcCfg (m : Master) (t : Fin 24) (e : Fin 512) (v : Word) (s : State) : Outcome := .next (writeEvcCfg m t e v s)

/-- The emergency flag of world `w` of tile `t`. -/
def emergFlag (t w : Nat) : Fld := if w == 0 then EXC_STATUS.emerg_vital t else EXC_STATUS.emerg_common t

/-- A write of EXC_CTRL: evc_lock from Vital supervisor, clear_emerg for the writing world (Table EXC-10). -/
def writeExcCtrl (m : Master) (t : Nat) (v : Word) (s : State) : State :=
  match m with
  | .tile u vital sup =>
    if u.val != t || !sup then s
    else
      let s := s.when (vital && v.getLsbD 0) (·.raise (EXC_CTRL.evc_lock t))
      s.when (v.getLsbD 8) (·.set (emergFlag t (if vital then 0 else 1)) 0)
  | _ => s

/-- The meaning of CLEAR_EMERG: the write of EXC_CTRL.clear_emerg alone. -/
def execClearEmerg (m : Master) (t : Fin 24) (s : State) : Outcome := .next (writeExcCtrl m t 0x100 s)

/-! ### Operations in flight -/

/-- Writes a divide's results, but for a register that an MTS of the same edge keeps (R105, R107). -/
def writeDiv (x : Tile) : Tile :=
  match x.div with
  | none => x
  | some d =>
    let r := x.res
    let r := if d.keepQ then r else { r with qt := d.qt }
    let r := if d.keepR then r else { r with rm := d.rm }
    { x with res := r, wst := if d.dv then x.wst ||| 0x20000 else x.wst, div := none }
/-- Writes one MTS to QT (5) or RM (6). -/
def writeQr (x : Tile) (n : Nat) (v : Word) : Tile :=
  { x with res := if n == 5 then { x.res with qt := v } else { x.res with rm := v } }
/-- Writes every MTS to QT or RM in flight. -/
def writeQrs (x : Tile) : Tile := x.qrQ.foldl (fun x e => writeQr x e.2.1 e.2.2) { x with qrQ := [] }
/-- Writes one accumulator operation with its overflow flag. -/
def writeAcc (x : Tile) (op : AccOp) : Tile :=
  let (r, o) := accApply x.res op
  { x with res := r, wst := if o then x.wst ||| 0x40000 else x.wst }
/-- R109: every operation in flight completes and writes its results. -/
def drainOps (x : Tile) : Tile :=
  let x : Tile := x.mulQ.foldl (fun x e => { x with res := mulApply x.res e.2 }) { x with mulQ := [] }
  let x : Tile := x.macQ.foldl (fun x e => writeAcc x e.2) { x with macQ := [] }
  let soon : Bool := match x.div with
    | some d => d.left ≤ 1
    | none => false
  if soon then writeQrs (writeDiv x) else writeDiv (writeQrs x)

/-! ### Stores to a data TCM -/

/-- The spare that mirrors tile `t`'s checkpoint region, and the region (Table VOT-7). -/
def mirrorOf (s : State) (t : Nat) : Option (Nat × Nat × Nat) :=
  (List.range 12).findSome? (fun g =>
    let h := atD s.vote.grp g .reset
    let copying := h.phase == 3 || (h.phase == 2 && (atD s.dma (96 + 8 * (t / 4) + 7) .reset).copy == some g)
    match groupRec s.invB g, h.tiles[h.donor]?, h.spare with
    | some r, some (u, _), some sp => if copying && u == t && r.ckptBase < 0x40000 then some (sp, r.ckptBase, r.ckptLen) else none
    | _, _, _ => none)
/-- The bytes of the donor's region that a store changed are written at the spare too. -/
def mirrorStore (t off n : Nat) (s : State) : State :=
  match mirrorOf s t with
  | none => s
  | some (sp, base, len) =>
    s.forEach (List.range n) (fun i s =>
      let o := off + i
      if base ≤ o && o < base + len then s.setByte (dtcmKey sp + o) (s.byte (dtcmKey t + o)) else s)
/-- A store of tile `t` to a place, with the mirroring of a takeover. -/
def tileStore (t : Nat) (m : Master) (p : Place) (form key n v : Nat) (s : State) : State :=
  let s := placeWrite p form key n v m s
  if p == .dtcm t then mirrorStore t (key - dtcmKey t) n s else s
/-- Writes `n` bytes of a tile at a place; an uncorrectable word keeps what it holds (R178). -/
def writeData (t : Nat) (p : Place) (form key n a : Nat) (v : Word) (m : Master) (ecc : Nat) (s : State) : State :=
  let e := eccWrite s p form key n ecc
  let s := eccEvent p key a m true e s
  if e == 2 then s else tileStore t m p form key n v.toNat s

/-! ### Instruction space -/

/-- The MRAM key of offset 0 of the active slot (R364). -/
def slotKey (s : State) : Nat := mramKey + 0x1800000 * s.get MRAM_STATUS.active_slot
/-- Whether an instruction address lies in the code window. -/
def inCodeWindow (a : Nat) : Bool := 0x1000000 ≤ a && a < 0x2800000
/-- The key of the MRAM byte at a code-window address. -/
def codeKey (s : State) (a : Nat) : Nat := slotKey s + (a - 0x1000000)
/-- The word at an instruction address; none outside R92. -/
def codeWord (s : State) (t a : Nat) : Option Nat :=
  if a < 0x40000 then some (s.load (itcmKey t + a) 4)
  else if inCodeWindow a then some (s.load (codeKey s a) 4)
  else none

/-! ### Lockup -/

/-- R135: the tile locks up: causes 1 to 3 of Table EXC-10, the vector being entered. -/
def lockUp (t cause vec : Nat) (s : State) : State :=
  let s := ((s.set (EXC_LOCKUP.cause t) cause).bump (EXC_LOCKUP.count t)).set (EXC_LOCKUP.vector t) vec
  let s := s.setReg (EXC_LOCKUP_PC t) (s.tileOf t).pc
  let s := s.modTile t (fun x => { x with stopped := true, lockup := x.lockup.orElse (fun _ => some 0) })
  s.fault 0x02 t (s.reg (EXC_LOCKUP t))

/-! ### Exception and event entry -/

/-- The vector index of a cause. -/
def Cause.vec : Cause → Nat
  | .sync v _ => v
  | .event e _ => 32 + e

/-- Table EXC-5: the syndrome of a cause in the interrupted context. -/
def esrOf (x : Tile) (k : Cause) : Word :=
  let ctx := (if x.sup then 0 else 2 ^ 24) + 2 ^ 25 * x.world
  match k with
  | .sync v d => BitVec.ofNat 32 (v + 65536 * d + ctx)
  | .event e _ => BitVec.ofNat 32 (32 + e + ctx + 2 ^ 26)

/-- The place a supervisor stack frame below `sp` lies in, as the target world reaches it. -/
def framePlace (t sp : Nat) : Place × Nat := place (some t) (sp - 16)

/-- R131: the detail of STACK that the check of a stack pointer gives: 1 misaligned, 0 outside the window, 3 off. -/
def stackCheck (s : State) (t w sp : Nat) : Option Nat :=
  if sp % 8 != 0 then some 1
  else if !(winWord s t w 10 + 16 ≤ sp && sp ≤ winWord s t w 11) then some 0
  else
    let (off, woa) := placeOff s (framePlace t sp).1
    if off && !woa then some 3 else none
/-- The frame's memory is off or held in its entry, and the frame waits for it (R136, R179). -/
def stackWaits (s : State) (t w sp : Nat) : Bool :=
  let p := (framePlace t sp).1
  (stackCheck s t w sp).isNone && ((placeOff s p).1 || placeHeld s p)

/-- One word of a frame at address `a`: into memory that refuses the tile, is off or takes no writes it is not written, as no
refused access is (R173, R184, R188; log 141), nor into an uncorrectable word (R178). -/
def frameWord (t : Nat) (m : Master) (a : Nat) (v : Word) (s : State) : State :=
  let (p, key) := place (some t) a
  if (refusal s p m none).isSome || (placeOff s p).1 then s
  else if p == .mram && !s.memh.mramOpen then mramRefused s
  else writeData t p 0 key 4 a v m 0 s
/-- The frame below `sp`: EPC, WST, PROG, ESR (R131). -/
def writeFrame (t sp : Nat) (vital : Bool) (epc wst prog esr : Word) (s : State) : State :=
  let m := Master.tile ⟨t % 24, Nat.mod_lt _ (by decide)⟩ vital true
  let s := frameWord t m (sp - 4) epc s
  let s := frameWord t m (sp - 8) wst s
  let s := frameWord t m (sp - 12) prog s
  frameWord t m (sp - 16) esr s

/-- The WST of the handler (R97, R130): supervisor, world `w`, ie and pri given, sticky flags and lx 0. -/
def handlerWst (w pri : Nat) (ie : Bool) : Word :=
  BitVec.ofNat 32 (1 + 2 * w + (if ie then 4 else 0) + 256 * pri)

/-- The world a cause enters. -/
def entryWorld (s : State) (t : Nat) (x : Tile) : Cause → Nat
  | .sync _ _ => x.world
  | .event e _ => s.get (EVC_CFG.world t e)

/-- R130, R132: the records and registers of the tile on entry, SP and PC apart; `epc` is the EPC fixed. -/
def enterTile (x : Tile) (k : Cause) (w : Nat) (epc : Word) (stack : Bool) : Tile :=
  match k with
  | .sync _ _ =>
    let ix := priIx x.pri
    { x with depth := updAt x.depth ix (· + 1), wst := handlerWst w x.pri (x.ie && !stack), epc := epc }
  | .event _ p =>
    if w == x.world then
      let r : Record := ⟨x.world, x.pri, false, 0, 0, 0, Vector.replicate 15 0, .zero⟩
      { x with recs := updAt x.recs p (fun _ => some r), depth := updAt x.depth p (fun _ => 0),
               wst := handlerWst w p (x.ie && !stack), epc := epc }
    else
      let x := drainOps x
      let r : Record := ⟨x.world, x.pri, true, epc, x.wst, x.prog, x.g, x.res⟩
      { x with recs := updAt x.recs p (fun _ => some r), depth := updAt x.depth p (fun _ => 0),
               wst := handlerWst w p (x.ie && !stack), epc := 0, prog := 0, g := Vector.replicate 15 0, res := .zero }

/-- The address of entry `vec` of world `w`'s vector table (R127). -/
def vectorAt (s : State) (t w vec : Nat) : Nat := winWord s t w 12 / 8 * 8 + 8 * vec
/-- The key of the vector entry in the instruction TCM or in the code window. -/
def vectorKey (s : State) (t w vec : Nat) : Nat :=
  let a := vectorAt s t w vec
  if inCodeWindow a then codeKey s a else itcmKey t + a
/-- The vector read finds a line of the code window or a word of the instruction TCM that is uncorrectable. -/
def vectorBad (s : State) (t w vec : Nat) : Bool :=
  let a := vectorAt s t w vec
  (inCodeWindow a || a < 0x40000) && eccAt s (vectorKey s t w vec) 0 == 2
/-- R127: entry `vec` of world `w`'s vector table: the handler address and the hold window; none where the read raises
FETCH. -/
def readVector (s : State) (t w vec : Nat) : Option (Nat × Nat) :=
  let a := vectorAt s t w vec
  match codeWord s t a, codeWord s t (a + 4) with
  | some h, some d => some (h / 4 * 4, min 4096 (d % 8192))
  | _, _ => none
/-- R188: an uncorrectable line of the code window is met at address `a`. -/
def codeLineBad (a : Nat) (s : State) : State := eccEvent .mram (codeKey s a) (codeKey s a - mramKey) .switch false 2 s

/-- An uncorrectable word of the instruction TCM is met by a vector read, which returns it as stored (R178, R417). -/
def vectorTcm (t w vec : Nat) (s : State) : State :=
  let k := vectorKey s t w vec
  eccEvent (.itcm t) k k (.tile ⟨t % 24, Nat.mod_lt _ (by decide)⟩ true true) false 2 s

/-- R130 to R135: takes a cause with EPC `epc`; `bad` says that the vector read finds an uncorrectable word or line, `late` that
the frame's memory has not come on in time, which counts as a stack target that is off (log 142). -/
def takeEntry (t : Nat) (k : Cause) (epc : Word) (bad late : Bool) (s : State) : State :=
  let x := s.tileOf t
  let w := entryWorld s t x k
  let sp := (atD x.sp (2 * w + 1) 0).toNat
  let esr := esrOf x k
  let deep : Bool := match k with
    | .sync _ _ => x.syncDepth == 255
    | .event _ _ => false
  if deep then lockUp t 3 k.vec s
  else
    let fail := (stackCheck s t w sp).orElse (fun _ => if late then some 3 else none)
    if fail.isSome && s.is (emergFlag t w) then lockUp t 1 k.vec s
    else
      let vec := if fail.isSome then 10 else k.vec
      let bad := bad || vectorBad s t w vec
      let s := s.when (bad && decide (vectorAt s t w vec < 0x40000)) (vectorTcm t w vec)
      let bad := bad && inCodeWindow (vectorAt s t w vec)
      match readVector s t w vec, bad with
      | some (h, hold), false =>
        let cross := w != x.world
        let xd := if cross then drainOps x else x
        let top := if fail.isSome then winWord s t w 13 + 256 else sp
        let s := if cross then writeFrame t top (w == 0) 0 0 0 esr s else writeFrame t top (w == 0) epc xd.wst xd.prog esr s
        let s := match fail with
          | none => s
          | some d =>
            let stackEsr := esrOf x (.sync 10 d) ||| (esr &&& 0x04000000)
            let s := ((s.raise (emergFlag t w)).raise (EXC_EVENTS.stack_fault t)).fault 0x01 t esr
            s.modTile t (fun x => { x with esr := stackEsr })
        let s := match k with
          | .event _ p => s.set (EXC_STATUS.active t) (s.get (EXC_STATUS.active t) ||| 2 ^ p)
          | .sync v _ => (s.when (v == 9) (·.raise (EXC_EVENTS.gate_fault t))).when (v == 10) (·.raise (EXC_EVENTS.stack_fault t))
        s.modTile t (fun x =>
          let synd := if fail.isSome then x.esr else esr
          let x := enterTile x k w epc (fail.isSome || k.vec == 10)
          let ev : Bool := match k with
            | .event _ _ => true
            | .sync _ _ => false
          let win := if ev && fail.isNone then hold else 0
          { x with sp := updAt x.sp (2 * w + 1) (fun _ => BitVec.ofNat 32 (top - 16)), pc := BitVec.ofNat 32 h, esr := synd,
                   woa := none, waiting := false, doze := false, long := none, entry := none,
                   holdNext := if ev then win else x.holdNext,
                   holder := if ev && win != 0 then some (vec, match k with | .event _ p => p | .sync _ _ => 31) else x.holder })
      | _, _ => lockUp t 2 vec (s.when bad (codeLineBad (vectorAt s t w vec)))

/-- A decided entry: it is taken, or waits, no further instruction issuing, for a frame's memory that wakes on access or is held
(R125, R136, R179). -/
def enter (t : Nat) (k : Cause) (epc : Word) (bad : Bool) (s : State) : State :=
  let x := s.tileOf t
  let w := entryWorld s t x k
  let sp := (atD x.sp (2 * w + 1) 0).toNat
  let deep : Bool := match k with
    | .sync _ _ => x.syncDepth == 255
    | .event _ _ => false
  if stackWaits s t w sp && !deep then
    placeTouch (framePlace t sp).1 (s.modTile t (fun x =>
      { x with entry := some ⟨k, epc, bad⟩, woa := none, waiting := false, doze := false, long := none }))
  else takeEntry t k epc bad false s
/-- A waiting entry goes on, on the edge on which its frame's memory is on, or will not come on. -/
def entryGoesOn (t : Nat) (s : State) : State :=
  match (s.tileOf t).entry with
  | some e => enter t e.cause e.epc e.bad s
  | none => s

/-- A synchronous exception of the instruction `word`; TRAP gives the address of the next instruction, `next`. -/
def raiseSync (t vec detail : Nat) (word : Word) (next : Bool) (s : State) : State :=
  let x := s.tileOf t
  -- R116: the saved WST of EMUL has lx = 0
  let s := s.modTile t (fun x => { x with einst := word, wst := if vec == 2 then x.wst &&& 0xFFF7FFFF else x.wst })
  enter t (.sync vec detail) (if next then x.pc + 4 else x.pc) false s

/-- The tile is clocked, out of reset and not locked up or halted. -/
def runs (s : State) (t : Nat) : Bool :=
  let x := s.tileOf t
  domOn s (domTile t) && !x.held && !x.stopped && !x.halted && !bitN (s.get PWR_STATUS.dozing) t

/-- Whether tile `t` is at an instruction boundary where an event may be taken (R125). -/
def atBoundary (s : State) (t : Nat) : Bool :=
  let x := s.tileOf t
  runs s t && x.load.isNone && x.entry.isNone && x.holdNext == 0 && (match x.long with | some l => !l.first || x.woa.isSome | none => true)

/-- R125, R126, R134: the most urgent event is taken, or ends a WAIT. -/
def eventEntry (t : Nat) (bad : Bool) (s : State) : State :=
  let x := s.tileOf t
  match urgentEvent s t with
  | none => s
  | some (e, p) =>
    if !atBoundary s t then s
    else if !x.ie || x.hold != 0 then s.modTile t (fun x => { x with waiting := false, doze := false })
    else enter t (.event e p) x.pc bad s

/-- The meaning of EVENT_ENTRY. -/
def execEventEntry (t : Fin 24) (bad : Bool) (s : State) : Outcome := .next (eventEntry t bad s)

/-! ### Hold windows and waits -/

/-- R128: HOLD reaches 0 before the handler that loaded it returns. -/
def holdEnd (t : Nat) (s : State) : State :=
  match (s.tileOf t).holder with
  | none => s.modTile t (fun x => { x with hold := 0 })
  | some (v, _) =>
    let s := ((s.raise (EXC_EVENTS.hold_overrun t)).bump (EXC_OVERRUN.count t)).set (EXC_OVERRUN.vector t) v
    let s := s.fault 0x03 t (s.reg (EXC_OVERRUN t))
    s.modTile t (fun x => { x with hold := 0, holder := none })

/-- The meaning of HOLD_OVERRUN: the last clk of a hold window passes. -/
def execHoldOverrun (t : Fin 24) (s : State) : Outcome :=
  .next (if (s.tileOf t).hold == 1 && runs s t then holdEnd t s else s)

/-- The oldest posted write of a tile that waits for a wake fails at its target (R104, R184). -/
def postErr (t a : Nat) (s : State) : State :=
  ((s.raise (EXC_EVENTS.post_err t)).setN (EXC_POST_ADDR t) a).fault 0x04 t (BitVec.ofNat 32 a)
/-- The target of a tile's access is off. -/
def targetOff (s : State) (t : Nat) (io : Bool) (a : Nat) : Bool :=
  if io then (ioDomain (ioGlobal t a)).any (fun d => !domOn s d) else (placeOff s (place (some t) (unalias a).2).1).1
/-- R136, R184: a wake-on-access wait of a tile that is not satisfied in time: an access raises OFFLINE with detail 2, an entry
finds its stack target off (log 142), and a posted write that waits is dropped. -/
def wakeTimeout (t : Nat) (s : State) : State :=
  let x := s.tileOf t
  match x.entry, x.woa, x.kept, x.posted with
  | some e, _, _, _ =>
    let w := entryWorld s t x e.cause
    s.when (runs s t && stackWaits s t w (atD x.sp (2 * w + 1) 0).toNat) (takeEntry t e.cause e.epc e.bad true)
  | none, some (detail, word, a), _, _ =>
    let p := (place (some t) (unalias a).2).1
    s.when (runs s t && targetOff s t (detail == 1) a) (fun s => raiseSync t 6 2 word false (s.when (detail == 0) (offAccess p)))
  | none, none, true, w :: rest =>
    s.when (targetOff s t w.io w.addr) (fun s =>
      let s := if w.io then s else offAccess (place (some t) (unalias w.addr).2).1 s
      postErr t w.addr (s.modTile t (fun x => { x with posted := rest, kept := false })))
  | _, _, _, _ => s

/-! ### Tile resets -/

/-- The registers a tile reset returns to their reset values: the tile control range but for the lockup record, the windows
and the TCM records (Table EXC-7, Table MEM-12), and the tile's DMA engine (Table DMA-7). -/
def tileResetReg (t a : Nat) : Bool :=
  let b := tileBlk t
  b ≤ a && a < b + 0x10000 &&
    (let o := a - b
     (o < 0x9000 && !(o == 0x18 || o == 0x1C || (0x100 ≤ o && o < 0x180) || (0x400 ≤ o && o < 0x420)) && (o < 0x2000 || 0x8000 ≤ o)))

/-- R203: the bytes stored for the running CRC of the channel whose registers stand at `b`. -/
def crcValue (s : State) (b : Nat) : List Byte :=
  let v := s.regN (CH_CRC b)
  if s.get (CH_CTRL.crc_poly b) == 2 then [BitVec.ofNat 8 (v / 256), BitVec.ofNat 8 v] else leBytes 4 (v ^^^ 0xFFFFFFFF)
/-- R212: a channel after a reset of its tile: in IDLE, its writes in flight left to complete: data beats, one where the
destination is fixed or in I/O space (R202), or those of the CRC. -/
def dmaOrphan (s : State) (t k : Nat) (h : DmaH) : DmaH :=
  let b := tdmaCh t k
  let st := s.get (CH_STATUS.state b)
  let most := if h.dst.fixed || h.dst.io then 1 else 4
  let left := if st == 2 then most else if st == 3 || st == 4 then min most h.left else 0
  let orphan := some (2 ^ s.get (CH_CTRL.width b), !s.is (CH_CTRL.world b))
  if left == 0 || h.src.fetch || h.dst.fetch then .reset
  else if h.tail != 0 then
    if s.get (CH_CTRL.crc_op b) != 1 then .reset
    else
      let l := crcValue s b
      { DmaH.reset with dst := h.dst, left := left, tail := h.tail, ref := l.drop (l.length - h.tail), orphan := orphan }
  else { DmaH.reset with src := h.src, dst := h.dst, left := left, orphan := orphan }
/-- R118: tile `t` enters tile reset for `wait` clk at least; TCMs are kept. -/
def tileReset (t wait : Nat) (s : State) : State :=
  let s := { s with dma := (List.range 4).foldl (fun d k => updAt d (4 * t + k) (dmaOrphan s t k)) s.dma,
                    turn := updAt s.turn t (fun _ => (0, 0)) }
  let s := s.resetRegs (tileResetReg t)
  let s := s.set ⟨PWR_STATUS, 8 + t, 1⟩ 0
  let o := s.omt
  let o := { o with rx := (List.range 8).foldl (fun v k => updAt v (8 * t + k) (fun _ => [])) o.rx,
                    nack := (List.range 2).foldl (fun v k => updAt v (2 * t + k) (fun _ => [])) o.nack,
                    lost := (List.range 2).foldl (fun v k => updAt v (2 * t + k) (fun _ => false)) o.lost }
  let s := { s with omt := o }
  -- R104, R135: its posted writes complete or fail
  s.modTile t (fun x => { Tile.reset with wait := wait, pinned := x.pinned, unloaded := x.unloaded, posted := x.posted })

/-- The meaning of LOCKUP_TILE_RESET: 8 clk after a lockup or an uncorrectable TCM word (R135, R417). -/
def execLockupTileReset (t : Fin 24) (s : State) : Outcome :=
  .next (match (s.tileOf t).lockup with
    | some n => if 8 ≤ n then tileReset t 64 s else s
    | none => s)

/-- Whether a tile reset may be released: its time has passed, no vote gate or power block holds the tile, and its TCMs
are loaded. -/
def releasable (s : State) (t : Nat) : Bool :=
  let x := s.tileOf t
  x.held && x.wait == 0 && !x.pinned && !x.unloaded && domOn s (domTile t) && !s.is (PWR_DOM_CTRL.hold (domTile t)) &&
  !s.pwr.entry.any (fun e => e.2 != 0)

/-- The meaning of TILE_RESET_RELEASE. -/
def execTileResetRelease (t : Fin 24) (s : State) : Outcome :=
  .next (if releasable s t then
      -- R420: the watchdog's window starts at the release
      { s.modTile t (fun x => { x with held := false }) with flt := { s.flt with wdtL := updAt s.flt.wdtL t (fun _ => s.now) } }
    else s)

/-! ### One core edge of a tile -/

/-- R105, R107: the operations of a pipeline that are due on this edge, oldest first, and the others, one edge nearer. -/
def pipeEdge {α : Type} (q : List (Nat × α)) : List (Nat × α) × List (Nat × α) :=
  (q.filter (fun e => e.1 ≤ 1), (q.filter (fun e => 1 < e.1)).map (fun e => (e.1 - 1, e.2)))
/-- R105, R107: what is due on this edge is written: the multiplier's and the accumulator's oldest operations, MTS to QT and RM,
and a divide, which leaves a register that an MTS of the same edge names. -/
def resultsEdge (x : Tile) : Tile :=
  let (mul, mulQ) := pipeEdge x.mulQ
  let (mac, macQ) := pipeEdge x.macQ
  let (qr, qrQ) := pipeEdge x.qrQ
  let x : Tile := mul.foldl (fun x e => { x with res := mulApply x.res e.2 }) { x with mulQ := mulQ }
  let x : Tile := mac.foldl (fun x e => writeAcc x e.2) { x with macQ := macQ }
  let x : Tile := qr.foldl (fun x e => writeQr x e.2.1 e.2.2) { x with qrQ := qrQ }
  match x.div with
  | none => x
  | some d =>
    if 1 < d.left then { x with div := some { d with left := d.left - 1 } }
    else writeDiv { x with div := some { d with left := 0, keepQ := d.keepQ || qr.any (fun e => e.2.1 == 5),
                                                keepR := d.keepR || qr.any (fun e => e.2.1 == 6) } }
/-- One core edge of tile `t`: CYC, HOLD, the results that are due, a waiting entry, and reset and lockup times. -/
def tileEdge (t : Nat) (s : State) : State :=
  let x := s.tileOf t
  let s := s.modTile t (fun x => { x with wait := x.wait - 1, lockup := x.lockup.map (· + 1) })
  if !domOn s (domTile t) || x.held || bitN (s.get PWR_STATUS.dozing) t then s
  else
    let s := if x.hold == 1 then holdEnd t s else s.modTile t (fun x => { x with hold := x.hold - 1 })
    let s := s.modTile t (fun x => { resultsEdge x with cyc := x.cyc + 1 })
    s.when (runs s t) (entryGoesOn t)

end Sys2Proof.Machine
end

