-- ==== Sys2Proof/Machine/Issue.lean ====
section
/-!
DEFINITION. Sys2Proof/Machine/Issue.lean: issue of one instruction by a tile: the checks of R103 that come before its own,
the instruction cache (R92, R188), retirement, and undefined instructions.  The command says which word stands at PC.
-/
namespace Sys2Proof.Machine

/-- Lines of the set of cache line `l`: 256 sets of four. -/
def inSet (l : Nat) (k : Nat) : Bool := k % 256 == l % 256
/-- A line becomes the most recently used of its set; the least recently used of five is dropped. -/
def cacheTouch (l : Nat) (c : List Nat) : List Nat :=
  let c := l :: c.filter (· != l)
  match (c.filter (inSet l))[4]? with
  | some old => c.filter (· != old)
  | none => c
/-- The code-window line of an instruction address. -/
def lineOf (a : Nat) : Nat := (a - 0x1000000) / 32

/-- What fetching at PC gives: the instruction, a wait for a cache line, or FETCH. -/
inductive Fetch where
  | ok
  | stall
  | outside
  deriving DecidableEq, Repr

/-- R92: the fetch at tile `t`'s PC. -/
def fetchAt (s : State) (t : Nat) : Fetch :=
  let x := s.tileOf t
  let a := x.pc.toNat
  if a < 0x40000 then .ok
  else if inCodeWindow a then
    if s.is (TMEM_CTRL.icache_off t) || x.icache.contains (lineOf a) then .ok else .stall
  else .outside

/-- Tile `t` may issue: clocked, not waiting, and no load, long instruction or entry in progress. -/
def canIssue (s : State) (t : Nat) : Bool :=
  let x := s.tileOf t
  runs s t && !x.waiting && x.load.isNone && x.long.isNone && x.entry.isNone

/-- The edge of issue: HOLD is loaded for a handler's first instruction (R128) and a cache hit is counted, once for an
instruction that waits for a wake. -/
def issueEdge (t : Nat) (s : State) : State :=
  let x := s.tileOf t
  let a := x.pc.toNat
  let hit := inCodeWindow a && !s.is (TMEM_CTRL.icache_off t) && x.icache.contains (lineOf a) && x.woa.isNone
  let s := s.when hit (·.countReg (ICACHE_HITS t))
  s.modTile t (fun x =>
    { x with hold := if x.holdNext != 0 then x.holdNext else x.hold, holdNext := 0,
             icache := if hit then cacheTouch (lineOf a) x.icache else x.icache })

/-- R103, steps 1 to 3: the instruction `word` issues on tile `t`; `priv` marks a supervisor-only operation. -/
def issue (t : Nat) (word : Word) (priv : Bool) (body : Tile → State → State) (s : State) : State :=
  if !canIssue s t then s
  else match fetchAt s t with
    | .stall => s
    | .outside => raiseSync t 1 0 (s.freeWord) false (issueEdge t s.drawn)
    | .ok =>
      let s := issueEdge t s
      let x := s.tileOf t
      if undefinedWord word then raiseSync t 2 0 word false s
      else if priv && !x.sup then raiseSync t 3 0 word false s
      else body x s

/-- An instruction that may stall at issue: where its body answers none, nothing has happened on this edge. -/
def issueOr (t : Nat) (word : Word) (body : Tile → State → Option State) (s : State) : State :=
  issue t word false (fun x s' => (body x s').getD s) s

/-- The tile goes on at `pc`; lx ends with an instruction that is not a long one (R112). -/
def goTo (t : Nat) (pc : Word) (s : State) : State :=
  s.modTile t (fun x => { x with pc := pc, wst := x.wst &&& 0xFFF7FFFF, woa := none })
/-- The instruction completes and the next one follows. -/
def retire (t : Nat) (s : State) : State := goTo t ((s.tileOf t).pc + 4) s
/-- A result in a general register, with WST.sat where it was clamped (R100), and completion. -/
def result (t : Nat) (ga : Fin 16) (v : Word) (sat : Bool) (s : State) : State :=
  retire t (s.modTile t (fun x => { x.put ga v with wst := if sat then x.wst ||| 0x40000 else x.wst }))

/-- An R-format ALU instruction. -/
def aluR (t : Nat) (minor : Nat) (ga gb gc : Fin 16) (f : Word → Word → Word) (s : State) : State :=
  issue t (encR 1 ga gb gc 0 minor) false (fun x => result t ga (f (x.get gb) (x.get gc)) false) s
/-- An ALU instruction that clamps. -/
def aluSat (t : Nat) (minor : Nat) (ga gb gc : Fin 16) (f : Word → Word → Word × Bool) (s : State) : State :=
  issue t (encR 1 ga gb gc 0 minor) false (fun x =>
    let r := f (x.get gb) (x.get gc)
    result t ga r.1 r.2) s
/-- An I-format instruction over one register and an immediate. -/
def aluI (t : Nat) (op : Nat) (ga gb : Fin 16) (imm : Nat) (f : Word → Word) (s : State) : State :=
  issue t (encI op ga gb imm) false (fun x => result t ga (f (x.get gb)) false) s

/-- R178: the fetch at PC finds a word of the instruction TCM corrected (1) or uncorrectable (2) (log 128). -/
def itcmFetch (t ecc : Nat) (s : State) : State :=
  let a := (s.tileOf t).pc.toNat
  let k := itcmKey t + a
  eccEvent (.itcm t) k k (.tile ⟨t % 24, Nat.mod_lt _ (by decide)⟩ true true) false (eccAt s k ecc) s
/-- R188: the line of the fetch at PC arrives: `ecc` 1 corrected, 2 uncorrectable; 3 drops a cached line with a parity
error.  FETCH at an event handler's first instruction leaves the hold window to the FETCH handler's first (log 144). -/
def missFill (t ecc : Nat) (s : State) : State :=
  let x := s.tileOf t
  let a := x.pc.toNat
  let off := s.is (TMEM_CTRL.icache_off t)
  let held := x.icache.contains (lineOf a)
  let ecc := if ecc != 3 && inCodeWindow a then eccAt s (codeKey s a) ecc else ecc
  if !canIssue s t then s
  else if a < 0x40000 then (if ecc == 3 then s else itcmFetch t ecc s)
  else if !inCodeWindow a then s
  else if ecc == 3 then
    if held then (s.bump (TMEM_STATUS.icache_parity t)).modTile t (fun x => { x with icache := x.icache.filter (· != lineOf a) })
    else s
  else if held && !off then s
  else
    let s := s.when (!off) (·.countReg (ICACHE_MISSES t))
    let s := s.when (ecc == 1) (fun s => (s.bump MRAM_STATUS.corr_count).raise MEM_EVENTS.mram_corr)
    if ecc == 2 then
      let s := codeLineBad a s
      raiseSync t 1 1 (s.freeWord) false s.drawn
    else if off then s
    else s.modTile t (fun x => { x with icache := cacheTouch (lineOf a) x.icache })

/-- The meaning of ICACHE_MISS_FILL. -/
def execIcacheMissFill (t : Fin 24) (ecc : Fin 4) (s : State) : Outcome := .next (missFill t ecc s)

/-- The meaning of UNDEFINED_INSTRUCTION: a word that R98 does not define. -/
def execUndefinedInstruction (t : Fin 24) (w : Word) (s : State) : Outcome :=
  .next (if undefinedWord w then issue t w false (fun _ s => s) s else s)

end Sys2Proof.Machine
end

