-- ==== Sys2Proof/Machine/MulDiv.lean ====
section
/-!
DEFINITION. Sys2Proof/Machine/MulDiv.lean: the multiplier, the accumulator and the divider with their result registers, and
the special registers (R96, R97, R101, R102, R105 to R108; Tables ISA-2, ISA-7, ISA-8).
-/
namespace Sys2Proof.Machine

/-! ### Operations -/

/-- A MUL-group operation: a 64-bit product, written on edge 3 (R105). -/
def mulOp (t minor : Nat) (gb gc : Fin 16) (f : Word → Word → Int) (s : State) : State :=
  issue t (encR 0x0D 0 gb gc 0 minor) false (fun x s =>
    let p := product64 (f (x.get gb) (x.get gc))
    retire t (s.modTile t (fun x => { x with mulQ := x.mulQ ++ [(3, .product p.1 p.2)] }))) s

/-- The meaning of MUL. -/
def execMul (t : Fin 24) (gb gc : Fin 16) (s : State) : Outcome :=
  .next (mulOp t 0 gb gc (fun a b => a.toInt * b.toInt) s)
/-- The meaning of MULU. -/
def execMulu (t : Fin 24) (gb gc : Fin 16) (s : State) : Outcome :=
  .next (mulOp t 1 gb gc (fun a b => ((a.toNat * b.toNat : Nat) : Int)) s)
/-- The meaning of MUL16. -/
def execMul16 (t : Fin 24) (gb gc : Fin 16) (s : State) : Outcome :=
  .next (mulOp t 2 gb gc (fun a b => half a * half b) s)

/-- A MAC-group operation, written on edge 4 in issue order (R102, R105). -/
def macOp (t minor : Nat) (gb gc : Fin 16) (f : Word → Word → AccOp) (s : State) : State :=
  issue t (encR 0x0E 0 gb gc 0 minor) false (fun x s =>
    retire t (s.modTile t (fun y => { y with macQ := y.macQ ++ [(4, f (x.get gb) (x.get gc))] }))) s

/-- The meaning of MAC. -/
def execMac (t : Fin 24) (gb gc : Fin 16) (s : State) : Outcome :=
  .next (macOp t 0 gb gc (fun a b => .add (a.toInt * b.toInt)) s)
/-- The meaning of MACU. -/
def execMacu (t : Fin 24) (gb gc : Fin 16) (s : State) : Outcome :=
  .next (macOp t 1 gb gc (fun a b => .add ((a.toNat * b.toNat : Nat) : Int)) s)
/-- The meaning of MSU. -/
def execMsu (t : Fin 24) (gb gc : Fin 16) (s : State) : Outcome :=
  .next (macOp t 2 gb gc (fun a b => .add (-(a.toInt * b.toInt))) s)
/-- The meaning of MAC16. -/
def execMac16 (t : Fin 24) (gb gc : Fin 16) (s : State) : Outcome :=
  .next (macOp t 3 gb gc (fun a b => .add (half a * half b)) s)
/-- The meaning of CLRA. -/
def execClra (t : Fin 24) (s : State) : Outcome := .next (macOp t 4 0 0 (fun _ _ => .load 0) s)
/-- The meaning of LDA. -/
def execLda (t : Fin 24) (gb : Fin 16) (s : State) : Outcome := .next (macOp t 5 gb 0 (fun a _ => .load a.toInt) s)

/-- A DIV-group operation (R101): written on edge 34; a divide in flight is abandoned and sets early (R108). -/
def divOp (t minor : Nat) (signed : Bool) (gb gc : Fin 16) (s : State) : State :=
  issue t (encR 0x0F 0 gb gc 0 minor) false (fun x s =>
    let r := divide signed (x.get gb) (x.get gc)
    retire t (s.modTile t (fun y =>
      { y with div := some ⟨34, r.1, r.2.1, r.2.2, false, false⟩,
               wst := if y.div.isSome then y.wst ||| 0x10000 else y.wst }))) s

/-- The meaning of DIV. -/
def execDiv (t : Fin 24) (gb gc : Fin 16) (s : State) : Outcome := .next (divOp t 0 true gb gc s)
/-- The meaning of DIVU. -/
def execDivu (t : Fin 24) (gb gc : Fin 16) (s : State) : Outcome := .next (divOp t 1 false gb gc s)

/-! ### Results -/

/-- The meaning of MUL_RESULT: the oldest operation of the multiplier writes on its edge. -/
def execMulResult (t : Fin 24) (s : State) : Outcome :=
  .next (s.modTile t (fun x =>
    match x.mulQ with
    | (0, op) :: rest => { x with mulQ := rest, res := mulApply x.res op }
    | _ => x))
/-- The meaning of MAC_RESULT: the oldest accumulator operation writes on its edge. -/
def execMacResult (t : Fin 24) (s : State) : Outcome :=
  .next (s.modTile t (fun x =>
    match x.macQ with
    | (0, op) :: rest => writeAcc { x with macQ := rest } op
    | _ => x))
/-- The meaning of DIV_RESULT: the divide writes QT and RM on its edge, and dv with them. -/
def execDivResult (t : Fin 24) (s : State) : Outcome :=
  .next (s.modTile t (fun x =>
    match x.div with
    | some d => if d.left == 0 then writeDiv x else x
    | none => x))

/-! ### Reads and writes of special registers -/

/-- R106: an operation that precedes the read and writes result register `n` has not written it yet. -/
def pendingResult (x : Tile) (n : Nat) : Bool :=
  let acc : Bool := x.macQ.any (fun e => match e.2 with | .part k _ => k == n | _ => true)
  let mul : Bool := x.mulQ.any (fun e => match e.2 with | .part k _ => k == n | _ => true)
  match n with
  | 0 => mul
  | 1 => mul
  | 2 => acc
  | 3 => acc
  | 4 => acc
  | 5 => x.div.isSome || x.qrQ.any (fun e => e.2.1 == 5)
  | 6 => x.div.isSome || x.qrQ.any (fun e => e.2.1 == 6)
  | _ => false

/-- TID of tile `t` (Table ISA-2). -/
def tidOf (t : Nat) : Word := BitVec.ofNat 32 (0x24060000 + t % 32 + 32 * (t / 4) + 256 * (t % 4))

/-- The contents of special register `n`. -/
def readSpecial (t : Nat) (x : Tile) (n : Nat) : Word :=
  match n with
  | 0 => x.res.ml
  | 1 => x.res.mh
  | 2 => x.res.al
  | 3 => x.res.ah
  | 4 => readAx x.res
  | 5 => x.res.qt
  | 6 => x.res.rm
  | 7 => x.prog
  | 8 => x.wst
  | 9 => x.epc
  | 10 => x.esr
  | 11 => x.einst
  | 12 => BitVec.ofNat 32 (x.hold % 8192)
  | 13 => tidOf t
  | 14 => x.cyc
  | 15 => atD x.sp (2 * x.world) 0
  | _ => 0

/-- Registers whose access column is PRIV at user level. -/
def privSpecial (n : Nat) : Bool := n == 9 || n == 10 || n == 11 || n == 15

/-- An MTS of `v` to special register `n` (R96, R97, R107, R128). -/
def writeSpecial (n : Nat) (v : Word) (x : Tile) : Tile :=
  if n < 2 then { x with mulQ := x.mulQ ++ [(3, .part n v)] }
  else if n < 5 then { x with macQ := x.macQ ++ [(4, .part n v)] }
  else if n < 7 then { x with qrQ := x.qrQ ++ [(1, n, v)] }
  else match n with
    | 7 => if x.sup then { x with prog := v } else x
    | 8 =>
      let mask : Word := if x.sup then 0x00070004 else 0x00070000
      { x with wst := (x.wst &&& ~~~mask) ||| (v &&& mask) }
    | 9 => { x with epc := v }
    | 10 => { x with esr := v }
    | 12 => if x.sup && v == 0 then { x with hold := 0, holder := none } else x
    | 15 => { x with sp := updAt x.sp (2 * x.world) (fun _ => v) }
    | _ => x

/-- The meaning of MFS. -/
def execMfs (t : Fin 24) (ga : Fin 16) (n : Fin 32) (s : State) : Outcome :=
  let word := encI 0x11 ga 0 n
  .next (issue t word false (fun x s =>
    if privSpecial n && !x.sup then raiseSync t 3 1 word false s
    else
      let early := pendingResult x n
      let v := readSpecial t x n
      result t ga v false (s.modTile t (fun x => { x with wst := if early then x.wst ||| 0x10000 else x.wst }))) s)

/-- The meaning of MTS. -/
def execMts (t : Fin 24) (ga : Fin 16) (n : Fin 32) (s : State) : Outcome :=
  let word := encI 0x12 ga 0 n
  .next (issue t word false (fun x s =>
    if privSpecial n && !x.sup then raiseSync t 3 1 word false s
    else retire t (s.modTile t (writeSpecial n (x.get ga)))) s)

/-- The meaning of EXTA (R102, R106). -/
def execExta (t : Fin 24) (ga : Fin 16) (shift : Fin 64) (round : Bool) (s : State) : Outcome :=
  .next (issue t (encI 0x10 ga 0 (shift.val + if round then 64 else 0)) false (fun x s =>
    let r := extractAcc x.res shift round
    let early := !x.macQ.isEmpty
    result t ga r.1 r.2 (s.modTile t (fun x => { x with wst := if early then x.wst ||| 0x10000 else x.wst }))) s)

end Sys2Proof.Machine
end

