-- ==== Sys2Proof/Machine/LoadStore.lean ====
section
/-!
DEFINITION. Sys2Proof/Machine/LoadStore.lean: loads, stores, IN and OUT at issue, and the arrival of a data-space write at its
target (R93, R94, R103, R104, R136, R178, R184, R188).
-/
namespace Sys2Proof.Machine

/-- Tile `t` as a master in its present context. -/
def tileMaster (t : Nat) (x : Tile) : Master := .tile ⟨t % 24, Nat.mod_lt _ (by decide)⟩ (x.world == 0) x.sup
/-- Extends `n` bytes of loaded data to a register. -/
def extend (n : Nat) (signed : Bool) (v : Nat) : Word :=
  if signed then BitVec.ofInt 32 (signedN (8 * n) v) else BitVec.ofNat 32 (v % 2 ^ (8 * n))

/-- The data an access of `n` bytes returns: the word as stored (R178). -/
def readData (p : Place) (key n a : Nat) (m : Master) (ecc : Nat) (s : State) : Nat × State :=
  let s := eccEvent p key a m false (eccAt s key ecc) (granted p m s)
  (s.load key n, s)

/-- The access waits while its target wakes (R136). -/
def waitWake (t detail : Nat) (word : Word) (a : Nat) (touch : State → State) (s : State) : State :=
  touch (s.modTile t (fun x => { x with woa := some (detail, word, a) }))

/-- A load of `n` bytes at `ea`; none where it stalls. -/
def loadAt (t : Nat) (word : Word) (ga : Fin 16) (ea : Word) (n : Nat) (signed : Bool) (ecc : Nat) (x : Tile) (s : State) :
    Option State :=
  match checkData s t x ea.toNat n with
  | .raise v d => some (raiseSync t v d word false s)
  | .wait p => some (waitWake t 0 word ea.toNat (placeTouch p) s)
  | .ok p _ key =>
    if p == .dtcm t then
      let (v, s) := readData p key n ea.toNat (tileMaster t x) ecc s
      some (result t ga (extend n signed v) false s)
    else if !x.posted.isEmpty then none
    else some (s.modTile t (fun x => { x with load := some ⟨false, ea.toNat, n, signed, ga, word⟩, woa := none }))

/-- A store of `n` bytes at `ea`, posted outside the tile's data TCM; none where it stalls. -/
def storeAt (t : Nat) (word : Word) (v : Word) (ea : Word) (n : Nat) (ecc : Nat) (x : Tile) (s : State) : Option State :=
  match checkData s t x ea.toNat n with
  | .raise vec d => some (raiseSync t vec d word false s)
  | .wait p => some (waitWake t 0 word ea.toNat (placeTouch p) s)
  | .ok p form key =>
    if p == .dtcm t then some (retire t (writeData t p form key n ea.toNat v (tileMaster t x) ecc s))
    else if 4 ≤ x.posted.length then none
    else some (retire t (s.modTile t (fun x =>
      { x with posted := x.posted ++ [⟨false, ea.toNat, n, v, x.world == 0, x.sup, x.pri⟩] })))

/-- An I-format load. -/
def loadI (t op : Nat) (ga gb : Fin 16) (imm : BitVec 18) (n : Nat) (signed : Bool) (ecc : Nat) (s : State) : State :=
  let word := encI op ga gb imm.toNat
  issueOr t word (fun x => loadAt t word ga (x.get gb + sext18 imm) n signed ecc x) s
/-- An I-format store. -/
def storeI (t op : Nat) (ga gb : Fin 16) (imm : BitVec 18) (n : Nat) (ecc : Nat) (s : State) : State :=
  let word := encI op ga gb imm.toNat
  issueOr t word (fun x => storeAt t word (x.get ga) (x.get gb + sext18 imm) n ecc x) s
/-- An indexed load. -/
def loadX (t minor : Nat) (ga gb gc : Fin 16) (sh : Fin 4) (n : Nat) (signed : Bool) (ecc : Nat) (s : State) : State :=
  let word := encR 0x1B ga gb gc sh minor
  issueOr t word (fun x => loadAt t word ga (x.get gb + (x.get gc <<< sh.val)) n signed ecc x) s
/-- An indexed store. -/
def storeX (t minor : Nat) (ga gb gc : Fin 16) (sh : Fin 4) (n : Nat) (ecc : Nat) (s : State) : State :=
  let word := encR 0x1C ga gb gc sh minor
  issueOr t word (fun x => storeAt t word (x.get ga) (x.get gb + (x.get gc <<< sh.val)) n ecc x) s

/-- The meaning of LDW. -/
def execLdw (t : Fin 24) (ga gb : Fin 16) (imm : BitVec 18) (ecc : Fin 3) (s : State) : Outcome :=
  .next (loadI t 0x13 ga gb imm 4 false ecc s)
/-- The meaning of LDH. -/
def execLdh (t : Fin 24) (ga gb : Fin 16) (imm : BitVec 18) (ecc : Fin 3) (s : State) : Outcome :=
  .next (loadI t 0x14 ga gb imm 2 true ecc s)
/-- The meaning of LDHU. -/
def execLdhu (t : Fin 24) (ga gb : Fin 16) (imm : BitVec 18) (ecc : Fin 3) (s : State) : Outcome :=
  .next (loadI t 0x15 ga gb imm 2 false ecc s)
/-- The meaning of LDB. -/
def execLdb (t : Fin 24) (ga gb : Fin 16) (imm : BitVec 18) (ecc : Fin 3) (s : State) : Outcome :=
  .next (loadI t 0x16 ga gb imm 1 true ecc s)
/-- The meaning of LDBU. -/
def execLdbu (t : Fin 24) (ga gb : Fin 16) (imm : BitVec 18) (ecc : Fin 3) (s : State) : Outcome :=
  .next (loadI t 0x17 ga gb imm 1 false ecc s)
/-- The meaning of STW. -/
def execStw (t : Fin 24) (ga gb : Fin 16) (imm : BitVec 18) (ecc : Fin 3) (s : State) : Outcome :=
  .next (storeI t 0x18 ga gb imm 4 ecc s)
/-- The meaning of STH. -/
def execSth (t : Fin 24) (ga gb : Fin 16) (imm : BitVec 18) (ecc : Fin 3) (s : State) : Outcome :=
  .next (storeI t 0x19 ga gb imm 2 ecc s)
/-- The meaning of STB. -/
def execStb (t : Fin 24) (ga gb : Fin 16) (imm : BitVec 18) (ecc : Fin 3) (s : State) : Outcome :=
  .next (storeI t 0x1A ga gb imm 1 ecc s)
/-- The meaning of LDXW. -/
def execLdxw (t : Fin 24) (ga gb gc : Fin 16) (sh : Fin 4) (ecc : Fin 3) (s : State) : Outcome :=
  .next (loadX t 0 ga gb gc sh 4 false ecc s)
/-- The meaning of LDXH. -/
def execLdxh (t : Fin 24) (ga gb gc : Fin 16) (sh : Fin 4) (ecc : Fin 3) (s : State) : Outcome :=
  .next (loadX t 1 ga gb gc sh 2 true ecc s)
/-- The meaning of LDXHU. -/
def execLdxhu (t : Fin 24) (ga gb gc : Fin 16) (sh : Fin 4) (ecc : Fin 3) (s : State) : Outcome :=
  .next (loadX t 2 ga gb gc sh 2 false ecc s)
/-- The meaning of LDXB. -/
def execLdxb (t : Fin 24) (ga gb gc : Fin 16) (sh : Fin 4) (ecc : Fin 3) (s : State) : Outcome :=
  .next (loadX t 3 ga gb gc sh 1 true ecc s)
/-- The meaning of LDXBU. -/
def execLdxbu (t : Fin 24) (ga gb gc : Fin 16) (sh : Fin 4) (ecc : Fin 3) (s : State) : Outcome :=
  .next (loadX t 4 ga gb gc sh 1 false ecc s)
/-- The meaning of STXW. -/
def execStxw (t : Fin 24) (ga gb gc : Fin 16) (sh : Fin 4) (ecc : Fin 3) (s : State) : Outcome :=
  .next (storeX t 0 ga gb gc sh 4 ecc s)
/-- The meaning of STXH. -/
def execStxh (t : Fin 24) (ga gb gc : Fin 16) (sh : Fin 4) (ecc : Fin 3) (s : State) : Outcome :=
  .next (storeX t 1 ga gb gc sh 2 ecc s)
/-- The meaning of STXB. -/
def execStxb (t : Fin 24) (ga gb gc : Fin 16) (sh : Fin 4) (ecc : Fin 3) (s : State) : Outcome :=
  .next (storeX t 2 ga gb gc sh 1 ecc s)

/-- The meaning of IN, at issue: its data returns with LOAD_DATA_RETURN. -/
def execIn (t : Fin 24) (ga gb : Fin 16) (imm : BitVec 18) (s : State) : Outcome :=
  let word := encI 0x1D ga gb imm.toNat
  .next (issueOr t word (fun x s =>
    let ea := x.get gb + sext18 imm
    match checkIo s t x ea.toNat with
    | .raise v d => some (raiseSync t v d word false s)
    | .wait d => some (waitWake t 1 word ea.toNat (domTouch d) s)
    | .ok a =>
      if !x.posted.isEmpty then none
      else some (s.modTile t (fun x => { x with load := some ⟨true, a, 4, false, ga, word⟩, woa := none }))) s)

/-- The meaning of OUT, at issue: the write is posted. -/
def execOut (t : Fin 24) (ga gb : Fin 16) (imm : BitVec 18) (s : State) : Outcome :=
  let word := encI 0x1E ga gb imm.toNat
  .next (issueOr t word (fun x s =>
    let ea := x.get gb + sext18 imm
    match checkIo s t x ea.toNat with
    | .raise v d => some (raiseSync t v d word false s)
    | .wait d => some (waitWake t 1 word ea.toNat (domTouch d) s)
    | .ok a =>
      if 4 ≤ x.posted.length then none
      else some (retire t (s.modTile t (fun y =>
        { y with posted := y.posted ++ [⟨true, a, 4, x.get ga, x.world == 0, x.sup, x.pri⟩] })))) s)

/-! ### Arrival -/

/-- A held place of a target with wake-on-access: what waits there waits for its wake (R181, R334). -/
def heldWoa (s : State) (p : Place) : Bool := placeHeld s p && (placeOff s p).2
/-- What becomes of a write that reaches a place: done, waiting for room, or failed. -/
inductive Arrive where
  | done
  | later
  | failed
  deriving DecidableEq, Repr

/-- R173, R181, R184, R188: a data-space write of a tile reaches its target, which may have gone off, refuse it, or be Entering,
where it waits; `kept` says that it has waited there for a wake. -/
def arriveStore (t : Nat) (m : Master) (a n : Nat) (v : Word) (ecc waited : Nat) (kept : Bool) (s : State) : Arrive × State :=
  let (form, b) := unalias a
  let (p, key) := place (some t) b
  match refusal s p m none with
  | some r => (.failed, recordRefusal p a r m true s)
  | none =>
    let (off, woa) := placeOff s p
    if off && kept && woa then (.later, placeTouch p s)
    else if off then (.failed, (offAccess p s).when woa (placeTouch p))
    else if placeHeld s p then (.later, (placeTouch p s).modTile t (fun x => { x with kept := heldWoa s p }))
    else if p == .mram && !s.memh.mramOpen then (.failed, mramRefused s)
    else if p == .mram && !mramRoom s key then (.later, s)
    else
      let s := conflicts p m waited s
      if eccWrite s p form key n ecc == 2 then (.failed, eccEvent p key a m true 2 s)
      else (.done, writeData t p form key n a v m ecc s)

end Sys2Proof.Machine
end

