-- ==== Sys2Proof/Machine/Control.lean ====
section
/-!
DEFINITION. Sys2Proof/Machine/Control.lean: branches, jumps, the SYS group, and WCALL gates (R99, R103, R110, R121, R122, R126,
R133).
-/
namespace Sys2Proof.Machine

/-! ### Branches and jumps -/

/-- A branch offset in instruction words. -/
def branchTo (pc : Word) (imm : BitVec 18) : Word := pc + sext18 imm * 4

/-- A branch on two registers. -/
def branch (t op : Nat) (ga gb : Fin 16) (imm : BitVec 18) (c : Word → Word → Bool) (s : State) : State :=
  issue t (encI op ga gb imm.toNat) false (fun x =>
    goTo t (if c (x.get ga) (x.get gb) then branchTo x.pc imm else x.pc + 4)) s

/-- The meaning of BEQ. -/
def execBeq (t : Fin 24) (ga gb : Fin 16) (imm : BitVec 18) (s : State) : Outcome :=
  .next (branch t 0x1F ga gb imm (fun a b => a == b) s)
/-- The meaning of BNE. -/
def execBne (t : Fin 24) (ga gb : Fin 16) (imm : BitVec 18) (s : State) : Outcome :=
  .next (branch t 0x20 ga gb imm (fun a b => a != b) s)
/-- The meaning of BLT. -/
def execBlt (t : Fin 24) (ga gb : Fin 16) (imm : BitVec 18) (s : State) : Outcome :=
  .next (branch t 0x21 ga gb imm (fun a b => decide (a.toInt < b.toInt)) s)
/-- The meaning of BGE. -/
def execBge (t : Fin 24) (ga gb : Fin 16) (imm : BitVec 18) (s : State) : Outcome :=
  .next (branch t 0x22 ga gb imm (fun a b => decide (b.toInt ≤ a.toInt)) s)
/-- The meaning of BLTU. -/
def execBltu (t : Fin 24) (ga gb : Fin 16) (imm : BitVec 18) (s : State) : Outcome :=
  .next (branch t 0x23 ga gb imm (fun a b => decide (a.toNat < b.toNat)) s)
/-- The meaning of BGEU. -/
def execBgeu (t : Fin 24) (ga gb : Fin 16) (imm : BitVec 18) (s : State) : Outcome :=
  .next (branch t 0x24 ga gb imm (fun a b => decide (b.toNat ≤ a.toNat)) s)

/-- The meaning of DBNZ. -/
def execDbnz (t : Fin 24) (ga : Fin 16) (imm : BitVec 18) (s : State) : Outcome :=
  .next (issue t (encI 0x25 ga 0 imm.toNat) false (fun x s =>
    let v := x.get ga - 1
    goTo t (if v != 0 then branchTo x.pc imm else x.pc + 4) (setG t ga v s)) s)

/-- The meaning of J. -/
def execJ (t : Fin 24) (off : BitVec 26) (s : State) : Outcome :=
  .next (issue t (encJ 0x27 off.toNat) false (fun x => goTo t (x.pc + off.signExtend 32 * 4)) s)
/-- The meaning of JAL: LK is G14. -/
def execJal (t : Fin 24) (off : BitVec 26) (s : State) : Outcome :=
  .next (issue t (encJ 0x26 off.toNat) false (fun x s =>
    goTo t (x.pc + off.signExtend 32 * 4) (setG t 14 (x.pc + 4) s)) s)

/-- The meaning of JR. -/
def execJr (t : Fin 24) (gb : Fin 16) (s : State) : Outcome :=
  let word := encR 0x28 0 gb 0 0 0
  .next (issue t word false (fun x s =>
    let v := x.get gb
    if v.toNat % 4 != 0 then raiseSync t 4 2 word false s else goTo t v s) s)
/-- The meaning of JALR. -/
def execJalr (t : Fin 24) (ga gb : Fin 16) (s : State) : Outcome :=
  let word := encR 0x28 ga gb 0 0 1
  .next (issue t word false (fun x s =>
    let v := x.get gb
    if v.toNat % 4 != 0 then raiseSync t 4 2 word false s else goTo t v (setG t ga (x.pc + 4) s)) s)

/-! ### The SYS group -/

/-- The word of a SYS operation. -/
def encSys (minor : Nat) : Word := encR 0x29 0 0 0 0 minor

/-- The meaning of NOP. -/
def execNop (t : Fin 24) (s : State) : Outcome := .next (issue t (encSys 0) false (fun _ => retire t) s)

/-- R110: nothing of the tile is in flight. -/
def quiet (x : Tile) : Bool := x.mulQ.isEmpty && x.macQ.isEmpty && x.div.isNone && x.qrQ.isEmpty && x.posted.isEmpty

/-- The meaning of SYNC: it stalls until everything in flight has been written. -/
def execSync (t : Fin 24) (s : State) : Outcome :=
  .next (if quiet (s.tileOf t) then issue t (encSys 1) false (fun _ => retire t) s else s)

/-- The meaning of WAIT (R126, R339). -/
def execWait (t : Fin 24) (s : State) : Outcome :=
  .next (issue t (encSys 2) false (fun _ s =>
    let s := retire t s
    if (urgentEvent s t).isSome then s
    else s.modTile t (fun x => { x with waiting := true, doze := s.is ⟨PWR_DOZE_EN, t, 1⟩ })) s)

/-- The meaning of TRAP. -/
def execTrap (t : Fin 24) (n : Fin 256) (s : State) : Outcome :=
  let word := encR 0x29 0 0 0 n 4
  .next (issue t word false (fun _ => raiseSync t 7 n word true) s)

/-- The meaning of BRK: with a debugger attached to an open port the tile halts there. -/
def execBrk (t : Fin 24) (s : State) : Outcome :=
  .next (issue t (encSys 5) false (fun _ s =>
    if s.dbg then s.modTile t (fun x => { x with halted := true }) else raiseSync t 8 0 (encSys 5) false s) s)

/-- The meaning of EI. -/
def execEi (t : Fin 24) (s : State) : Outcome :=
  .next (issue t (encSys 6) true (fun _ s => retire t (s.modTile t (fun x => { x with wst := x.wst ||| 4 }))) s)
/-- The meaning of DI. -/
def execDi (t : Fin 24) (s : State) : Outcome :=
  .next (issue t (encSys 7) true (fun _ s => retire t (s.modTile t (fun x => { x with wst := x.wst &&& ~~~4#32 }))) s)

/-- The meaning of CINV. -/
def execCinv (t : Fin 24) (gb : Fin 16) (s : State) : Outcome :=
  .next (issue t (encR 0x29 0 gb 0 0 9) false (fun x s =>
    let a := (x.get gb).toNat
    retire t (s.modTile t (fun x =>
      if inCodeWindow a then { x with icache := x.icache.filter (· != lineOf a) } else x))) s)
/-- The meaning of CINVA. -/
def execCinva (t : Fin 24) (s : State) : Outcome :=
  .next (issue t (encSys 0x0A) true (fun _ s => retire t (s.modTile t (fun x => { x with icache := [] }))) s)

/-! ### Gates -/

/-- The target of gate `n` from world `w` of tile `t`. -/
def gateTarget (s : State) (t w n : Nat) : Option Nat :=
  ((gateRecords s.invB).find? (fun r => r.1 == t && r.2.1 == w && r.2.2.1 == n)).map (fun r => r.2.2.2)
/-- G8 to G14. -/
def upper (g : Vector Word 15) : Vector Word 7 := Vector.ofFn (fun i => g[i.val + 8])
/-- G0 to G7 of one file with G8 to G14 of another. -/
def withUpper (g : Vector Word 15) (h : Vector Word 7) : Vector Word 15 :=
  Vector.ofFn (fun i => if hi : 8 ≤ i.val then h[i.val - 8]'(by omega) else g[i.val])

/-- The meaning of WCALL (R121). -/
def execWcall (t : Fin 24) (n : Fin 256) (s : State) : Outcome :=
  let word := encI 0x2A 0 0 n
  .next (issue t word false (fun x s =>
    match gateTarget s t x.world n with
    | none => raiseSync t 9 0 word false s
    | some target =>
      if 4 ≤ x.gates.length then raiseSync t 9 1 word false s
      else s.modTile t (fun x =>
        let x := drainOps x
        let e : GateEntry := ⟨x.pc + 4, x.wst &&& 0xFFF7FFFF, x.syncDepth, upper x.g, x.res⟩
        { x with gates := e :: x.gates, g := withUpper x.g (Vector.replicate 7 0), res := .zero,
                 wst := handlerWst (1 - x.world) x.pri x.ie, pc := BitVec.ofNat 32 (target / 4 * 4), woa := none })) s)

/-- The meaning of WRET (R122). -/
def execWret (t : Fin 24) (s : State) : Outcome :=
  let word := encSys 8
  .next (issue t word false (fun x s =>
    match x.gates with
    | [] => raiseSync t 9 2 word false s
    | e :: rest =>
      if x.world == bitsOf e.wst 1 1 then raiseSync t 9 3 word false s
      else if x.pri != bitsOf e.wst 8 5 || x.syncDepth != e.depth then raiseSync t 9 4 word false s
      else s.modTile t (fun x =>
        { drainOps x with gates := rest, g := withUpper x.g e.g, res := e.res, wst := e.wst, pc := e.pc, woa := none })) s)

/-! ### ERET -/

/-- The new PC, PROG and WST of a return whose world and priority are given: level, ie, sticky flags and lx come from the
frame (R133). -/
def frameReturn (world pri : Nat) (pc wst prog : Word) (x : Tile) : Tile :=
  { x with pc := pc &&& 0xFFFFFFFC, prog := prog,
           wst := (wst &&& 0x000F0005) ||| BitVec.ofNat 32 (2 * world + 256 * pri) }

/-- R133: the frame at SP lies in the stack window or in the emergency stack of the present world. -/
def frameOk (s : State) (t w sp : Nat) : Bool :=
  sp % 8 == 0 && ((winWord s t w 10 ≤ sp && sp + 16 ≤ winWord s t w 11) ||
    (winWord s t w 13 ≤ sp && sp + 16 ≤ winWord s t w 13 + 256))

/-- R133: the return itself, the frame having passed its check. -/
def doReturn (t : Nat) (ecc : Nat) (x : Tile) (s : State) : State :=
  let w := x.world
  let sp := (atD x.sp (2 * w + 1) 0).toNat
  let (p, key) := framePlace t (sp + 16)
  let m := tileMaster t x
  let (_, s) := readData p key 4 sp m 0 s
  let (prog, s) := readData p (key + 4) 4 sp m 0 s
  let (wst, s) := readData p (key + 8) 4 sp m 0 s
  let (pc, s) := readData p (key + 12) 4 sp m ecc s
  let s := s.when (sp == winWord s t w 13 + 240) (·.set (emergFlag t w) 0)
  let s := s.modTile t (fun x => { x with sp := updAt x.sp (2 * w + 1) (· + 16), woa := none })
  let pc := BitVec.ofNat 32 pc
  let wst := BitVec.ofNat 32 wst
  let prog := BitVec.ofNat 32 prog
  if x.syncDepth != 0 || 16 ≤ x.pri then
    s.modTile t (fun y => frameReturn w x.pri pc wst prog { y with depth := updAt y.depth (priIx x.pri) (· - 1) })
  else
    let s := s.set (EXC_STATUS.active t) (s.get (EXC_STATUS.active t) &&& (0xFFFF ^^^ 2 ^ x.pri))
    let s := s.modTile t (fun y => { y with hold := 0, holder := none, recs := updAt y.recs x.pri (fun _ => none) })
    match atD x.recs x.pri none with
    | none => s.modTile t (frameReturn w 31 pc wst prog)
    | some r =>
      if r.cross then
        s.modTile t (fun y => { drainOps y with pc := r.pc, wst := r.wst, prog := r.prog, g := r.g, res := r.res })
      else s.modTile t (frameReturn r.world r.pri pc wst prog)

/-- The meaning of ERET: the frame's memory is checked as a load's is (R103, R136, R173), and held accesses wait (R179). -/
def execEret (t : Fin 24) (ecc : Fin 3) (s : State) : Outcome :=
  let word := encSys 3
  .next (issue t word true (fun x s' =>
    let sp := (atD x.sp (2 * x.world + 1) 0).toNat
    let gated : Bool := match x.gates with
      | e :: _ => bitsOf e.wst 8 5 == x.pri && e.depth == x.syncDepth
      | [] => false
    if gated then raiseSync t 9 4 word false s'
    else if !frameOk s' t x.world sp then raiseSync t 10 2 word false s'
    else
      let p := (framePlace t (sp + 16)).1
      let (off, woa) := placeOff s' p
      if (refusal s' p (tileMaster t x) none).isSome then raiseSync t 5 0 word false s'
      else if off then (if woa then waitWake t 0 word sp (placeTouch p) s' else raiseSync t 6 0 word false s')
      else if placeHeld s' p then placeTouch p s
      else doReturn t ecc x s') s)

end Sys2Proof.Machine
end

