-- ==== Sys2Proof/Machine/Long.lean ====
section
/-!
DEFINITION. Sys2Proof/Machine/Long.lean: the long instructions, element by element (R111 to R115; Table ISA-10).
-/
namespace Sys2Proof.Machine

/-- Kinds of long instruction: primary opcodes 0x2B to 0x2F less 0x2B. -/
def kBMOV : Nat := 0
def kBFIL : Nat := 1
def kBCRC : Nat := 2
def kBCMP : Nat := 3
def kBDOT : Nat := 4

/-- A long instruction completes with PROG as it stands (R112). -/
def longDone (t : Nat) (s : State) : State := retire t (s.modTile t (fun x => { x with long := none }))

/-- R112: a long instruction issues and is set up at element 0, or at PROG when it is resumed. -/
def longIssue (t kind minor : Nat) (ga gb gc : Fin 16) (s : State) : State :=
  let word := encR (0x2B + kind) ga gb gc 0 minor
  issue t word false (fun x s =>
    let prog : Word := if x.lx then x.prog else 0
    let s := s.modTile t (fun x => { x with prog := prog, wst := x.wst ||| 0x80000 })
    if (x.get gc).toNat ≤ prog.toNat then longDone t s
    else s.modTile t (fun x => { x with long := some ⟨kind, ga, gb, gc, minor, word, true⟩ })) s

/-- The meaning of BMOV. -/
def execBmov (t : Fin 24) (ga gb gc : Fin 16) (width : Fin 3) (s : State) : Outcome :=
  .next (longIssue t kBMOV width ga gb gc s)
/-- The meaning of BFIL. -/
def execBfil (t : Fin 24) (ga gb gc : Fin 16) (width : Fin 3) (s : State) : Outcome :=
  .next (longIssue t kBFIL width ga gb gc s)
/-- The meaning of BCRC. -/
def execBcrc (t : Fin 24) (ga gb gc : Fin 16) (poly : Fin 3) (s : State) : Outcome :=
  .next (longIssue t kBCRC poly ga gb gc s)
/-- The meaning of BCMP. -/
def execBcmp (t : Fin 24) (ga gb gc : Fin 16) (width : Fin 3) (s : State) : Outcome :=
  .next (longIssue t kBCMP width ga gb gc s)
/-- The meaning of BDOT. -/
def execBdot (t : Fin 24) (ga gb gc : Fin 16) (s : State) : Outcome := .next (longIssue t kBDOT 0 ga gb gc s)

/-- The element's accesses all pass: none; or the first address that does not pass and what it gives.  Where both would raise, the
first listed prevails: R111 does not order them (log 143). -/
def elementCheck (s : State) (t : Nat) (x : Tile) : List (Nat × Nat) → Option (Nat × Check)
  | [] => none
  | (a, n) :: rest =>
    match checkData s t x a n with
    | .ok _ _ _ => elementCheck s t x rest
    | c => some (a, c)

/-- An access of an element goes to something other than the tile's data TCM, and waits for earlier posted writes. -/
def elementFar (t : Nat) (l : List (Nat × Nat)) : Bool := l.any (fun e => (place (some t) (unalias e.1).2).1 != .dtcm t)

/-- A read of an element. -/
def elementRead (t : Nat) (x : Tile) (a n ecc waited : Nat) (s : State) : Nat × State :=
  let (p, key) := place (some t) (unalias a).2
  readData p key n a (tileMaster t x) ecc (conflicts p (tileMaster t x) waited s)

/-- The elements behind one: PROG counts it, and the instruction goes on or completes. -/
def elementEnd (t : Nat) (l : Long) (count : Nat) (s : State) : State :=
  let s := s.modTile t (fun x => { x with prog := x.prog + 1, woa := none, long := some { l with first := false } })
  if count ≤ (s.tileOf t).prog.toNat then longDone t s else s

/-- R111 to R115: one element of a long instruction; `e1`, `e2` and `waited` describe its first and second access. -/
def longElement (t e1 e2 : Nat) (waited : Nat × Nat) (s : State) : State :=
  let x := s.tileOf t
  match x.long with
  | none => s
  | some l =>
    if !runs s t || x.load.isSome then s
    else
      let w := if l.kind == kBCRC then 1 else if l.kind == kBDOT then 2 else 2 ^ l.minor
      let k := x.prog.toNat
      let count := (x.get l.gc).toNat
      let a := (x.get l.ga + BitVec.ofNat 32 (k * w)).toNat
      let b := (x.get l.gb + BitVec.ofNat 32 (k * w)).toNat
      let accesses : List (Nat × Nat) := match l.kind with
        | 0 => [(b, w), (a, w)]
        | 1 => [(a, w)]
        | 2 => [(b, 1)]
        | _ => [(a, w), (b, w)]
      match elementCheck s t x accesses with
      | some (_, .raise v d) => raiseSync t v d l.word false (s.modTile t (fun x => { x with long := none }))
      | some (ea, .wait p) => waitWake t 0 l.word ea (placeTouch p) s
      | _ =>
        let places := accesses.map (fun e => (place (some t) (unalias e.1).2).1)
        if elementFar t accesses && !x.posted.isEmpty then s
        else if places.any (placeHeld s) then s.forEach (places.filter (placeHeld s)) placeTouch
        else
          let store := fun (v : Word) (ecc waited : Nat) (s : State) =>
            let (p, key) := place (some t) (unalias a).2
            if p == .dtcm t then (Arrive.done, writeData t p (unalias a).1 key w a v (tileMaster t x) ecc s)
            else arriveStore t (tileMaster t x) a w v ecc waited false s
          let stored := fun (r : Arrive × State) (before : State) =>
            match r.1 with
            | .done => elementEnd t l count r.2
            | .later => before
            | .failed => elementEnd t l count (postErr t a r.2)
          match l.kind with
          | 0 =>
            let (v, s1) := elementRead t x b w e1 waited.1 s
            stored (store (BitVec.ofNat 32 v) e2 waited.2 s1) s
          | 1 => stored (store (x.get l.gb) e1 waited.1 s) s
          | 2 =>
            let (v, s) := elementRead t x b 1 e1 waited.1 s
            let crc := crcByte l.minor (x.get l.ga).toNat v
            let crc := if l.minor == 2 then crc % 65536 else crc
            elementEnd t l count (setG t l.ga (BitVec.ofNat 32 crc) s)
          | 3 =>
            let (v, s) := elementRead t x a w e1 waited.1 s
            let (u, s) := elementRead t x b w e2 waited.2 s
            if v != u then longDone t s else elementEnd t l count s
          | _ =>
            let (v, s) := elementRead t x a 2 e1 waited.1 s
            let (u, s) := elementRead t x b 2 e2 waited.2 s
            let s := s.modTile t (fun x => { x with macQ := x.macQ ++ [(4, .add (signedN 16 v * signedN 16 u))] })
            elementEnd t l count s

/-- The meaning of LONG_ELEMENT. -/
def execLongElement (t : Fin 24) (e1 e2 : Fin 3) (waited : Nat × Nat) (s : State) : Outcome := .next (longElement t e1 e2 waited s)

end Sys2Proof.Machine
end

