-- ==== Sys2Proof/Machine/DmaCtl.lean ====
section
/-!
DEFINITION. Sys2Proof/Machine/DmaCtl.lean: the states of the DMA channels: entry into DONE, DISABLE, and the claim of channel 7
for a takeover (R198, R209, R210).  A channel is numbered 4 t + k, or 96 + 8 c + k.
-/
namespace Sys2Proof.Machine

/-- The registers of channel `d`. -/
def chBase (d : Nat) : Nat := if d < 96 then tdmaCh (d / 4) (d % 4) else cdmaCh ((d - 96) / 8) ((d - 96) % 8)
/-- Channel states (Table DMA-2). -/
def chIDLE : Nat := 0
def chARMED : Nat := 1
def chRUNNING : Nat := 2
def chPAUSED : Nat := 3
def chDISABLING : Nat := 4
def chDONE : Nat := 5
def chHALTED : Nat := 6
def chSTOPPED : Nat := 7

/-- A channel's state. -/
def chState (s : State) (d : Nat) : Nat := s.get (CH_STATUS.state (chBase d))
/-- Puts a channel into a state. -/
def chTo (d st : Nat) (s : State) : State := s.set (CH_STATUS.state (chBase d)) st
/-- Changes a channel's hidden state. -/
def State.modDma (s : State) (d : Nat) (f : DmaH → DmaH) : State := { s with dma := updAt s.dma d f }
/-- A channel's hidden state. -/
def State.dmaOf (s : State) (d : Nat) : DmaH := atD s.dma d DmaH.reset
/-- Sets cmd_result: 0 OK, 1 BUSY, 2 FOREIGN, 3 RESERVED. -/
def chResult (d n : Nat) (s : State) : State := s.set (CH_STATUS.cmd_result (chBase d)) n
/-- The domain a channel's engine is in. -/
def chDomain (d : Nat) : Nat := if d < 96 then domTile (d / 4) else domCluster ((d - 96) / 8)

/-- Raises an event of a channel: 0 done, 1 halted (tile engines), 2 entry, 3 crc_mismatch (Table DMA-10). -/
def chRaise (d kind : Nat) (s : State) : State :=
  if d < 96 then s.raise ⟨TDMA_EVENTS (d / 4), 4 * (d % 4) + kind, 1⟩
  else
    let c := (d - 96) / 8
    let k := (d - 96) % 8
    match kind with
    | 0 => s.raise ⟨CDMA_EVENTS c, k, 1⟩
    | 2 => s.raise ⟨CDMA_EVENTS c, 8 + k, 1⟩
    | 3 => s.raise ⟨CDMA_EVENTS c, 16 + k, 1⟩
    | _ => s

/-- A channel enters DONE with an end code (Table DMA-5). -/
def chDone (d code : Nat) (s : State) : State :=
  chRaise d 0 ((chTo d chDONE s).set (CH_STATUS.end_ (chBase d)) code)

/-- The beats an engine keeps in flight for a channel, and serves in one burst (R202, R211). -/
def maxFlight (d : Nat) : Nat := if d < 96 then 4 else 8
/-- R202: the beats in flight of a channel: one where its destination is fixed or in I/O space. -/
def inFlight (s : State) (d : Nat) : Nat := if (s.dmaOf d).dst.fixed || (s.dmaOf d).dst.io then 1 else maxFlight d
/-- The end code of a DISABLE: 2 DRAINED, 3 ABORTED. -/
def endOf (drain : Bool) : Nat := if drain then 2 else 3

/-- R209, Table DMA-2: a DISABLE of a channel.  What is left until its stop point is, for DRAIN, the bytes up to the next multiple
of 256, and for ABORT the beats in flight. -/
def chDisable (d : Nat) (drain : Bool) (inflight : Nat) (s : State) : State :=
  match chState s d with
  | 1 => chDone d (endOf drain) s
  | 2 =>
    let left := if drain then 256 - s.regN (CH_DONE_BYTES (chBase d)) % 256 else inflight
    (chTo d chDISABLING s).modDma d (fun h => { h with drain := drain, left := left })
  | 3 => chDone d (endOf drain) s
  | 6 => chDone d 3 s
  | 7 => chDone d 3 s
  | _ => chResult d 1 s

/-- Channel 7 of cluster c's engine. -/
def ch7 (c : Nat) : Nat := 96 + 8 * c + 7

/-- R210: the vote gate claims channel 7. -/
def claimChannel (c : Nat) (s : State) : State :=
  let d := ch7 c
  let s := (s.raise (CH_STATUS.claimed (chBase d))).raise (CDMA_STATUS.ch7_claimed c)
  let s := s.raise (CDMA_EVENTS.claimed c)
  let st := chState s d
  if st == chRUNNING then chDisable d true 0 s
  else if st == chARMED || st == chPAUSED then chDisable d (!s.is (CH_CTRL.policy (chBase d))) 0 s
  else if st == chHALTED || st == chSTOPPED then chDone d 3 s
  else s

/-- R210: the gate's transfer starts on the first edge on which the claimed channel is in DONE or IDLE. -/
def startCopy (c g : Nat) (s : State) : State :=
  let d := ch7 c
  let st := chState s d
  if s.is (CDMA_STATUS.ch7_claimed c) && (st == chIDLE || st == chDONE) then
    let s := ((chTo d chRUNNING s).set (CH_STATUS.end_ (chBase d)) 0).setN (CH_DONE_BYTES (chBase d)) 0
    s.modDma d (fun _ => { DmaH.reset with copy := some g })
  else s

/-- R210: the channel is released to IDLE. -/
def releaseChannel (c : Nat) (s : State) : State :=
  let d := ch7 c
  if s.is (CDMA_STATUS.ch7_claimed c) then
    let s := (s.set (CH_STATUS.claimed (chBase d)) 0).set (CDMA_STATUS.ch7_claimed c) 0
    let s := (chTo d chIDLE s).modDma d (fun _ => DmaH.reset)
    s.raise (CDMA_EVENTS.released c)
  else s

end Sys2Proof.Machine
end

