-- ==== Sys2Proof/Machine/Omtas.lean ====
section
/-!
DEFINITION. Sys2Proof/Machine/Omtas.lean: roles and generations, Omtas messages, their queues, the NACK FIFOs and the Shelf
(R138 to R148).
-/
namespace Sys2Proof.Machine

/-! ### Roles -/

/-- R26: the generation after `g`. -/
def nextGen (g : Nat) : Nat := if 255 ≤ g then 1 else g + 1
/-- Advances the generation of role `r`. -/
def advanceRole (r : Nat) (s : State) : State := s.set (OMT_ROLE.gen r) (nextGen (s.get (OMT_ROLE.gen r)))
/-- The roles of the active role table. -/
def boundRoles (s : State) : List Nat := (roleRecs s.invB).map (·.id)
/-- R139: every kind-1 role bound to group `g` advances. -/
def advanceGroupRoles (g : Nat) (s : State) : State :=
  s.forEach (boundRoles s) (fun r s =>
    s.when (s.get (OMT_ROLE.kind r) == 1 && s.get (OMT_ROLE.target r) == g) (advanceRole r))
/-- R140: every kind-0 role bound to tile `t` advances and is withdrawn. -/
def withdrawRoles (t : Nat) (s : State) : State :=
  s.forEach (boundRoles s) (fun r s =>
    s.when (s.get (OMT_ROLE.kind r) == 0 && s.get (OMT_ROLE.target r) == t && !s.is (OMT_ROLE.withdrawn r))
      (fun s => (advanceRole r s).raise (OMT_ROLE.withdrawn r)))

/-! ### Vote groups, as messages see them -/

/-- Group `g`'s hidden state. -/
def State.grpOf (s : State) (g : Nat) : GrpH := atD s.vote.grp g GrpH.reset
/-- Changes group `g`'s hidden state. -/
def State.modGrp (s : State) (g : Nat) (f : GrpH → GrpH) : State :=
  { s with vote := { s.vote with grp := updAt s.vote.grp g f } }
/-- The tiles of the slots with their suspect marks, numbered. -/
def slotsOf (l : List (Nat × Bool)) : List (Nat × Nat × Bool) := (List.range l.length).zip l
/-- The current slots of a definition: those whose tile is not suspect. -/
def currentOf (l : List (Nat × Bool)) : List Nat := ((slotsOf l).filter (fun e => !e.2.2)).map (·.1)
/-- The tile of slot `k`; 24 when empty. -/
def tileIn (l : List (Nat × Bool)) (k : Nat) : Nat := ((l[k]?).map (·.1)).getD 24

/-! ### Sending -/

/-- Changes the fabric. -/
def State.modOmt (s : State) (f : OmtH → OmtH) : State := { s with omt := f s.omt }
/-- The identity of a message: sender, world, msg_id. -/
def sameMsg (a b : Msg) : Bool := a.id == b.id && a.tile == b.tile && a.world == b.world
/-- Fields of header word 0. -/
def Msg.role (m : Msg) : Nat := bitsOf m.w0 0 12
def Msg.gen (m : Msg) : Nat := bitsOf m.w0 12 8
def Msg.len (m : Msg) : Nat := bitsOf m.w0 20 7

/-- R141: the payload of `len` bytes in whole words, bytes beyond it 0. -/
def payload (len : Nat) (words : List Word) : List Word :=
  ((List.range ((len + 3) / 4)).zip words).map (fun e =>
    let keep := min 4 (len - 4 * e.1)
    BitVec.ofNat 32 (e.2.toNat % 2 ^ (8 * keep)))

/-- The next msg_id of a page (R143). -/
def takeId (t w : Nat) (s : State) : Nat × State :=
  let id := (s.get (OMT_TX_STATUS.msg_id t w) + 1) % 65536
  (id, s.set (OMT_TX_STATUS.msg_id t w) id)

/-- R143: a write to OMT_TX_GO of page `w` of tile `t`. -/
def omtSend (t w : Nat) (s : State) : State :=
  let w0 := s.reg (OMT_TX_HDR t w)
  let result := fun (n : Nat) (s : State) => s.set (OMT_TX_STATUS.result t w) n
  if (atD s.omt.tx (2 * t + w) none).isSome then result 1 s
  else if 64 < bitsOf w0 20 7 then result 2 s
  else if bitsOf w0 0 12 == 0xFFF || bitsOf w0 12 8 == 0 then result 3 s
  else
    let (id, s) := takeId t w s
    let words := (List.range 16).map (fun i => s.reg (OMT_TX_DATA t w i))
    let m : Msg := ⟨w0 &&& 0x07FFFFFF, id, t, w, s.now, payload (bitsOf w0 20 7) words⟩
    let s := s.modOmt (fun o => { o with tx := updAt o.tx (2 * t + w) (fun _ => some m) })
    (result 0 s).raise (OMT_TX_STATUS.busy t w)

/-- The meaning of OMT_TX_GO. -/
def execOmtTxGo (t : Fin 24) (w : Fin 2) (s : State) : Outcome :=
  .next (if domOn s (domTile t) then omtSend t w s else s)

/-- R143: the fabric takes the message from the page. -/
def omtTaken (t w : Nat) (s : State) : State :=
  match atD s.omt.tx (2 * t + w) none with
  | none => s
  | some m =>
    let s := s.modOmt (fun o =>
      { o with tx := updAt o.tx (2 * t + w) (fun _ => none), flights := o.flights ++ [⟨m, [], [], none⟩] })
    (s.set (OMT_TX_STATUS.busy t w) 0).raise (if w == 0 then OMT_EVENTS.tx_done_vital t else OMT_EVENTS.tx_done_common t)

/-- The meaning of OMT_TX_DONE; a domain that is off sends nothing (R337). -/
def execOmtTxDone (t : Fin 24) (w : Fin 2) (s : State) : Outcome :=
  .next (inCore (fun s => if domOn s (domTile t) then omtTaken t w s else s) s)

/-! ### The Shelf -/

/-- The lowest free index of cluster `c`'s Shelf. -/
def shelfFree (s : State) (c : Nat) : Option Nat :=
  (List.range 64).find? (fun i => !s.omt.shelf.any (fun e => e.1 == 64 * c + i))
/-- The entry `i` of cluster `c`'s Shelf. -/
def shelfAt (s : State) (c i : Nat) : Option Shelved := (s.omt.shelf.find? (fun e => e.1 == 64 * c + i)).map (·.2)

/-- R147: a NACK record enters a page's FIFO. -/
def nackIn (t w rec : Nat) (s : State) : State :=
  s.modOmt (fun o =>
    if (atD o.nack (2 * t + w) []).length < 8 then { o with nack := updAt o.nack (2 * t + w) (· ++ [rec]) }
    else { o with lost := updAt o.lost (2 * t + w) (fun _ => true) })

/-- R147: a message is shelved with a cause of Table VOT-2. -/
def shelve (m : Msg) (cause : Nat) (s : State) : State :=
  let c := m.tile / 4
  let s := s.modOmt (fun o => { o with flights := o.flights.filter (fun f => !sameMsg f.msg m) })
  match shelfFree s c with
  | some i =>
    let s := s.modOmt (fun o => { o with shelf := o.shelf ++ [(64 * c + i, ⟨m, cause, s.now % 2 ^ 32⟩)] })
    nackIn m.tile m.world (m.id + 65536 * cause + 2 ^ 19 * i) (s.raise (VOTE_EVENTS.shelf_stored c))
  | none =>
    let s := (s.bump (SHELF_STATUS.overflow c)).raise (VOTE_EVENTS.shelf_overflow c)
    nackIn m.tile m.world (m.id + 65536 * cause + 2 ^ 19 * 0x7F) s

/-! ### Arrival and delivery -/

/-- R144: the cause for which a message's role or stamp is refused now. -/
def roleCause (s : State) (m : Msg) : Option Nat :=
  let r := m.role
  if !(boundRoles s).contains r then some 2
  else if s.is (OMT_ROLE.withdrawn r) then some 3
  else if s.get (OMT_ROLE.gen r) != m.gen then some 1
  else none
/-- The receiving tile is in tile reset or off (Table VOT-2). -/
def receiverOff (s : State) (t : Nat) : Bool := t ≥ 24 || (s.tileOf t).held || !domOn s (domTile t)

/-- The receive queue a role delivers to at tile `u`. -/
def queueOf (s : State) (r u : Nat) : Nat := 8 * u + 4 * s.get (OMT_ROLE.world r) + s.get (OMT_ROLE.queue r)
/-- Slots of queue `q` reserved by group messages that have arrived and are not visible yet (R146). -/
def reserved (s : State) (q : Nat) : Nat :=
  (s.omt.flights.map (fun f =>
    let r := f.msg.role
    if s.get (OMT_ROLE.kind r) == 1 then
      let g := s.grpOf (s.get (OMT_ROLE.target r))
      (f.arrived.filter (fun k => !f.shown.contains k && queueOf s r (tileIn g.tiles k) == q)).length
    else 0)).sum
/-- Whether queue `q` has no free slot. -/
def queueFull (s : State) (q : Nat) : Bool := 8 ≤ (atD s.omt.rx q []).length + reserved s q
/-- A message enters queue `q` with its visibility instant. -/
def deliver (q vis : Nat) (m : Msg) (s : State) : State :=
  let d : Msg := { m with data := BitVec.ofNat 32 vis :: m.data }
  s.modOmt (fun o => { o with rx := updAt o.rx q (· ++ [d]) })
/-- Changes a message's flight. -/
def modFlight (m : Msg) (f : Flight → Flight) (s : State) : State :=
  s.modOmt (fun o => { o with flights := o.flights.map (fun x => if sameMsg x.msg m then f x else x) })

/-- The flight of a message and the flights sent before it. -/
def findFlight (s : State) (t w id : Nat) : Option (Flight × List Flight) :=
  let l := s.omt.flights
  match l.findIdx? (fun f => f.msg.id == id && f.msg.tile == t && f.msg.world == w) with
  | some i => (l[i]?).map (fun f => (f, l.take i))
  | none => none

/-- R144 to R146: a message reaches the router of its receiver, or of slot `k` of its group; `fabric` says that a transport
error remained after the retry. -/
def arrival (t w id k : Nat) (fabric : Bool) (s : State) : State :=
  match findFlight s t w id with
  | none => s
  | some (f, before) =>
    let m := f.msg
    let r := m.role
    if fabric then shelve m 7 s.retryFail
    else match roleCause s m with
    | some c => shelve m c s
    | none =>
      if s.get (OMT_ROLE.kind r) == 0 then
        let u := s.get (OMT_ROLE.target r)
        let q := queueOf s r u
        -- R145: messages of one sender and world to one role stay in order
        if before.any (fun b => b.msg.tile == t && b.msg.world == w && b.msg.role == r) then s
        else if receiverOff s u then shelve m 6 s
        else if queueFull s q then modFlight m (fun x => { x with since := some (x.since.getD s.now) }) s
        else deliver q 0 m (s.modOmt (fun o => { o with flights := o.flights.filter (fun x => !sameMsg x.msg m) }))
      else
        let g := s.grpOf (s.get (OMT_ROLE.target r))
        let u := tileIn g.tiles k
        if !(currentOf g.tiles).contains k || f.arrived.contains k then s
        else if m.sent + 2000 < s.now then shelve m 5 s
        else if receiverOff s u then shelve m 6 s
        else if queueFull s (queueOf s r u) then shelve m 4 s
        else modFlight m (fun x => { x with arrived := k :: x.arrived }) s

/-- The meaning of MESSAGE_ARRIVAL. -/
def execMessageArrival (t : Fin 24) (w : Fin 2) (id : Fin 65536) (k : Fin 3) (fabric : Bool) (s : State) : Outcome :=
  .next (inCore (arrival t w id k fabric) s)

/-- R144: a message held for 1 µs at a queue that is still full. -/
def queueTimeout (t w id : Nat) (s : State) : State :=
  match findFlight s t w id with
  | none => s
  | some (f, _) =>
    match f.since with
    | none => s
    | some x =>
      let r := f.msg.role
      if s.due (x + 1000) && queueFull s (queueOf s r (s.get (OMT_ROLE.target r))) then shelve f.msg 4 s else s

/-- The meaning of QUEUE_FULL. -/
def execQueueFull (t : Fin 24) (w : Fin 2) (id : Fin 65536) (s : State) : Outcome := .next (inCore (queueTimeout t w id) s)

/-- The order of group messages (R146). -/
def msgBefore (a b : Msg) : Bool :=
  decide (a.sent < b.sent) || (a.sent == b.sent && (a.tile < b.tile || (a.tile == b.tile &&
    (a.world < b.world || (a.world == b.world && a.id < b.id)))))

/-- R146: a group message becomes visible at the member in slot `k`.  A check that fails on this edge shelves it (R144), after which
no further member receives it. -/
def msgVisible (t w id k : Nat) (s : State) : State :=
  match findFlight s t w id with
  | none => s
  | some (f, _) =>
    let m := f.msg
    let r := m.role
    let gi := s.get (OMT_ROLE.target r)
    let g := s.grpOf gi
    let cur := currentOf g.tiles
    let q := queueOf s r (tileIn g.tiles k)
    let vis := m.sent + 2000 + k * (((groupRec s.invB gi).map (·.stagger)).getD 0)
    let earlier := s.omt.flights.any (fun x => msgBefore x.msg m && x.arrived.contains k && !x.shown.contains k &&
      queueOf s x.msg.role (tileIn (s.grpOf (s.get (OMT_ROLE.target x.msg.role))).tiles k) == q)
    if s.get (OMT_ROLE.kind r) != 1 || !s.due vis || f.shown.contains k || !f.arrived.contains k then s
    else match roleCause s m with
    | some c => shelve m c s
    | none =>
      if !cur.all f.arrived.contains || earlier then s
      else if receiverOff s (tileIn g.tiles k) then shelve m 6 s
      else
        let s := deliver q (vis % 2 ^ 32) m s
        let shown := k :: f.shown
        if cur.all shown.contains then
          s.modOmt (fun o => { o with flights := o.flights.filter (fun x => !sameMsg x.msg m) })
        else modFlight m (fun x => { x with shown := shown }) s

/-- The meaning of MESSAGE_VISIBLE. -/
def execMessageVisible (t : Fin 24) (w : Fin 2) (id : Fin 65536) (k : Fin 3) (s : State) : Outcome :=
  .next (inCore (msgVisible t w id k) s)

/-! ### Pops and Shelf commands -/

/-- R146: the head message of a receive queue is removed. -/
def rxPop (t w q : Nat) (s : State) : State :=
  s.modOmt (fun o => { o with rx := updAt o.rx (8 * t + 4 * w + q) (·.drop 1) })
/-- The meaning of OMT_RX_POP. -/
def execOmtRxPop (t : Fin 24) (w : Fin 2) (q : Fin 4) (s : State) : Outcome := .next (inCore (rxPop t w q) s)

/-- R147: the NACK FIFO is popped and lost ends. -/
def nackPop (t w : Nat) (s : State) : State :=
  s.modOmt (fun o => { o with nack := updAt o.nack (2 * t + w) (·.drop 1), lost := updAt o.lost (2 * t + w) (fun _ => false) })
/-- The meaning of OMT_NACK_POP. -/
def execOmtNackPop (t : Fin 24) (w : Fin 2) (s : State) : Outcome := .next (inCore (nackPop t w) s)

/-- R148: what a command of tile `t` in world `w` on entry `i` of cluster `c`'s Shelf comes to, and the entry. -/
def shelfCheck (s : State) (c i t w : Nat) (gen : Option Nat) : Nat × Option Shelved :=
  match shelfAt s c i with
  | none => (3, none)
  | some e =>
    if e.msg.tile != t || e.msg.world != w then (2, none)
    else if gen == some 0 then (1, none)
    else (0, some e)
/-- Frees an entry. -/
def shelfDrop (c i : Nat) (s : State) : State :=
  s.modOmt (fun o => { o with shelf := o.shelf.filter (fun e => e.1 != 64 * c + i) })
/-- SHELF_CMD_RESULT of tile `t`. -/
def shelfResult (c t n : Nat) (s : State) : State :=
  s.modOmt (fun o => { o with cmdResult := updAt o.cmdResult (24 * c + t) (fun _ => n) })

/-- R148: SHELF_CMD op 1. -/
def shelfResend (c i gen t w : Nat) (s : State) : State :=
  match shelfCheck s c i t w (some gen) with
  | (_, some e) =>
    let (id, s) := takeId t w (shelfDrop c i s)
    let m : Msg := { e.msg with w0 := withBits e.msg.w0 12 8 gen, id := id, sent := s.now }
    let s := s.modOmt (fun o => { o with flights := o.flights ++ [⟨m, [], [], none⟩] })
    shelfResult c t 0 (s.raise (VOTE_EVENTS.shelf_resent c))
  | (n, none) => shelfResult c t n s
/-- R148: SHELF_CMD op 2. -/
def shelfDiscard (c i t w : Nat) (s : State) : State :=
  match shelfCheck s c i t w none with
  | (_, some _) => shelfResult c t 0 (shelfDrop c i s)
  | (n, none) => shelfResult c t n s

/-- The meaning of RESEND. -/
def execResend (t : Fin 24) (w : Fin 2) (c : Fin 6) (i : Fin 64) (gen : Fin 256) (s : State) : Outcome :=
  .next (if domOn s (domCluster c) then shelfResend c i gen t w s else s)
/-- The meaning of DISCARD. -/
def execDiscard (t : Fin 24) (w : Fin 2) (c : Fin 6) (i : Fin 64) (s : State) : Outcome :=
  .next (if domOn s (domCluster c) then shelfDiscard c i t w s else s)

end Sys2Proof.Machine
end

