-- ==== Sys2Proof/Machine/Vote.lean ====
section
/-!
DEFINITION. Sys2Proof/Machine/Vote.lean: vote groups, ports and comparisons, decisions, safe state, checkpoints, suspects and
takeover (R149 to R166).  The state of a group is the same at every gate; comparisons are kept per gate.
-/
namespace Sys2Proof.Machine

/-! ### Groups -/

/-- The current slots of group `g`. -/
def currentSlots (s : State) (g : Nat) : List Nat := currentOf (s.grpOf g).tiles
/-- The cluster of the tile in slot `k`. -/
def slotCluster (l : List (Nat × Bool)) (k : Nat) : Nat := tileIn l k / 4
/-- R149: the cluster of the lead gate of a definition. -/
def leadOf (l : List (Nat × Bool)) : Option Nat := ((currentOf l)[0]?).map (slotCluster l)
/-- The clusters of a definition's member gates. -/
def memberGates (l : List (Nat × Bool)) : List Nat := ((currentOf l).map (slotCluster l)).dedup
/-- Raises a VOTE_EVENTS bit at the gates of a list. -/
def gatesRaise (gates : List Nat) (bit : Nat) (s : State) : State := s.forEach gates (fun c => (·.raise ⟨VOTE_EVENTS c, bit, 1⟩))
/-- Raises a VOTE_EVENTS bit at every member gate of a group (log 40). -/
def voteRaise (g bit : Nat) (s : State) : State := gatesRaise (memberGates (s.grpOf g).tiles) bit s
/-- The slot of tile `t` in group `g`, when it is a current member. -/
def memberSlot (s : State) (g t : Nat) : Option Nat := (currentSlots s g).find? (fun k => tileIn (s.grpOf g).tiles k == t)
/-- The groups of which tile `t` is a current member. -/
def groupsOf (s : State) (t : Nat) : List Nat := (List.range 12).filter (fun g => (memberSlot s g t).isSome)
/-- A cell of a table of tables. -/
def cell (v : Vector (Vector Nat 32) n) (i p : Nat) : Nat := atD (atD v i (Vector.replicate 32 0)) p 0
/-- Changes a cell. -/
def updCell (v : Vector (Vector Nat 32) n) (i p x : Nat) : Vector (Vector Nat 32) n := updAt v i (fun w => updAt w p (fun _ => x))
/-- Sequence tag `a` comes before `b`, modulo 2^16. -/
def tagBefore (a b : Nat) : Bool := a != b && (b + 65536 - a) % 65536 < 32768

/-! ### Port targets -/

/-- Table VOT-4: the clk from a decision to its effect at a target: 4 at an edge channel of the lead gate's cluster `lead`, else 6. -/
def reach (lead : Option Nat) (kind index : Nat) : Nat := if kind == 1 && lead == some (index / 16) then 4 else 6
/-- R155, Table VOT-4: the group does not hold a target of this kind and index: it is LIVE, or its safe action has yet to come there. -/
def targetFree (s : State) (h : GrpH) (kind index : Nat) : Bool :=
  h.live || h.safeFrom.any (fun e => s.clk.edges < e.1 + reach (some e.2) kind index)
/-- Every port in force: group, not held, kind, index, AUX (Table VOT-5). -/
def portsInForce (s : State) : List (Nat × Bool × Nat × Nat × Nat) :=
  ((List.range 12).map (fun g =>
    let h := s.grpOf g
    ((List.range 30).filter (fun p => atD h.cfg p 0 % 8 != 0)).map (fun p =>
      let kind := atD h.cfg p 0 % 8
      let index := atD h.cfg p 0 / 8 % 256
      (g, targetFree s h kind index, kind, index, atD h.aux p 0)))).flatten

/-- Whether a port of the list covers ball `n`. -/
def coversBall (n : Nat) (e : Nat × Bool × Nat × Nat × Nat) : Bool :=
  let (_, _, kind, index, aux) := e
  (kind == 2 || kind == 3) && index == n / 24 && bitN aux (n % 24)

/-- R154, R254, R255, R326, R327: which channels and balls are voted, and which are held by a SAFE group, after a change of
port configuration or of a group's state. -/
def applyVoted (s : State) : State :=
  let l := portsInForce s
  -- R327 code 3 holds what a ball drove before its condition began
  let before := fun (n : Nat) => padDrive s n none
  let s := s.forEach (List.range 96) (fun e s =>
    let c := e / 16
    let k := e % 16
    let mine := l.filter (fun p => p.2.2.1 == 1 && p.2.2.2.1 == e)
    let voted := !mine.isEmpty
    let safe := mine.any (fun p => !p.2.1)
    if isVoted s c k == voted && (s.edgOf e).grpSafe == safe then s else showVoted c k voted safe s)
  let s := s.forEach (List.range 8) (fun b s =>
    let m := l.foldl (fun m p => if (p.2.2.1 == 2 || p.2.2.1 == 3) && p.2.2.2.1 == b then m ||| (p.2.2.2.2 % 2 ^ 24) else m) 0
    if s.regN (GPIO_VOTED b) == m then s
    else (s.setN (GPIO_VOTED b) m).setN (GPIO_DIR b) (s.regN (GPIO_DIR b) ||| m))
  s.forEach (List.range 192) (fun n s =>
    let mine := l.filter (coversBall n)
    let hold := if mine.isEmpty then false else (s.ballOf n).votedHold || mine.any (fun p => !p.2.1)
    if (s.ballOf n).votedHold == hold then s else refreshFrom (before n) n (s.modBall n (fun h => { h with votedHold := hold })))

/-! ### Suspects, SAFE and takeover -/

/-- R154: a configuration vote ends without taking effect. -/
def cfgFail (g p : Nat) (aux : Bool) (s : State) : State :=
  voteRaise g 8 (s.modGrp g (fun h => { h with cfgVotes := h.cfgVotes.filter (fun v => !(v.port == p && v.aux == aux)) }))

/-- R154: a configuration vote is judged once every current member has voted: its value takes effect, or nothing changes. -/
def cfgJudge (g p : Nat) (aux : Bool) (s : State) : State :=
  let mine := fun (x : CfgVote) => x.port == p && x.aux == aux
  match (s.grpOf g).cfgVotes.find? mine with
  | none => s
  | some x =>
    let cur := currentSlots s g
    match cur.filterMap (fun j => (x.vals.find? (fun e => e.1 == j)).map (·.2)) with
    | [] => s
    | v :: rest =>
      if rest.length + 1 < cur.length then s
      else if rest.any (· != v) || (!aux && 6 ≤ v.toNat % 8) then cfgFail g p aux s
      else
        let s := s.modGrp g (fun h => { h with cfgVotes := h.cfgVotes.filter (fun y => !mine y) })
        let s := s.modGrp g (fun h =>
          if aux then { h with aux := updAt h.aux p (fun _ => v.toNat) }
          else { h with cfg := updAt h.cfg p (fun _ => v.toNat % 2048) })
        applyVoted s
/-- R154, R158: the configuration votes of a group after slot `k` has left it. -/
def cfgLeave (g k : Nat) (s : State) : State :=
  let skew := ((groupRec s.invB g).map (·.skew)).getD 0
  s.forEach (s.grpOf g).cfgVotes (fun x s =>
    if x.first + skew < s.now then cfgFail g x.port x.aux s
    else
      let y := { x with vals := x.vals.filter (fun e => e.1 != k) }
      cfgJudge g x.port x.aux (s.modGrp g (fun h => { h with cfgVotes := h.cfgVotes.map (fun z => if z == x then y else z) })))

/-- A takeover fails with a cause of R162. -/
def takeoverFailed (g cause : Nat) (s : State) : State :=
  let s := s.modGrp g (fun h => { h with tkCause := cause })
  (voteRaise g 7 s).fault 0x16 g (BitVec.ofNat 32 cause)

/-- The cluster of the donor of group `g`'s takeover. -/
def donorCluster (s : State) (g : Nat) : Nat := slotCluster (s.grpOf g).tiles (s.grpOf g).donor

/-- The groups other than `g` whose takeover has its donor in cluster `c`. -/
def sharers (s : State) (g c : Nat) : List Nat :=
  (List.range 12).filter (fun o => o != g && (s.grpOf o).phase != 0 && donorCluster s o == c)
/-- R210: the copy of a takeover that waits for channel 7 of cluster `c` starts where the channel is free. -/
def nextCopy (c : Nat) (s : State) : State :=
  match (List.range 12).find? (fun g => (s.grpOf g).phase == 2 && donorCluster s g == c && (s.dmaOf (ch7 c)).copy.isNone) with
  | some g => startCopy c g s
  | none => s
/-- R210: group `g`'s claim of channel 7 ends.  Where another takeover has its donor in the cluster the channel stays claimed for it,
and only `g`'s own copy stops (log 147). -/
def releaseClaim (g : Nat) (s : State) : State :=
  let c := donorCluster s g
  if (sharers s g c).isEmpty then releaseChannel c s
  else if (s.dmaOf (ch7 c)).copy == some g then (chTo (ch7 c) chIDLE s).modDma (ch7 c) (fun _ => DmaH.reset)
  else s

/-- R162: a takeover is abandoned. -/
def abandon (g cause : Nat) (s : State) : State :=
  if (s.grpOf g).phase == 0 then s
  else
    let c := donorCluster s g
    let s := (releaseClaim g s).modGrp g (fun h => { h with phase := 0, joinSlot := 0, spare := none })
    nextCopy c ((takeoverFailed g cause s).progress 9)

/-- R160: tile `t` may be the spare of group `g`. -/
def spareOk (s : State) (g t : Nat) : Bool :=
  let h := s.grpOf g
  t < 24 && ((groupRec s.invB g).any (fun r => (poolTiles s.invB r.pool).contains t)) &&
  !s.vote.suspects.contains t && (groupsOf s t).isEmpty &&
  !((List.range 12).any (fun o => (s.grpOf o).phase != 0 && (s.grpOf o).spare == some t)) &&
  !(currentOf h.tiles).any (fun k => slotCluster h.tiles k == t / 4)

/-- A tile held in tile reset by a vote gate. -/
def pinTile (t : Nat) (s : State) : State := (tileReset t 0 s).modTile t (fun x => { x with pinned := true })

/-- Phase 1 with a chosen spare: it is held in reset and channel 7 of the donor's cluster is claimed.  takeover_cause shows `cause`:
NONE, or DONOR_LOST of the takeover that this one follows at once (R162; log 131). -/
def takeoverBegin (g slot spare cause : Nat) (s : State) : State :=
  let donor := ((currentSlots s g)[0]?).getD 0
  let s := s.modGrp g (fun h => { h with phase := 1, joinSlot := slot, spare := some spare, donor := donor, tkCause := cause })
  let s := (voteRaise g 5 (pinTile spare s)).progress 9
  let c := donorCluster s g
  -- a channel that another takeover has claimed already goes on for that one (log 147)
  if (sharers s g c).isEmpty then claimChannel c s else s.raise (CDMA_EVENTS.claimed c)

/-- R160: a new suspect in slot `slot` starts a takeover in HW mode where the group has a pool.  After the loss of a donor
(`again`) one starts only if a spare qualifies, and DONOR_LOST stays shown (R162). -/
def takeoverStart (g slot : Nat) (again : Bool) (s : State) : State :=
  match groupRec s.invB g with
  | none => s
  | some r =>
    if s.ha 9 || s.disabling 9 || r.pool == 0xFF || (s.grpOf g).phase != 0 then s
    else match ((poolTiles s.invB r.pool).filter (spareOk s g)).min? with
    | none => s.when (!again) (takeoverFailed g 1)
    | some t =>
      if (currentSlots s g).isEmpty then s.when (!again) (takeoverFailed g 1)
      else takeoverBegin g slot t (if again then 3 else 0) s

/-- R155, R156: group `g` enters SAFE, but for its fault record: no tag decided so far is released any more, and the safe action is
on its way to the targets (Table VOT-4). -/
def safeEntry (g cause : Nat) (s : State) : State :=
  let s := s.modGrp g (fun h =>
    { h with live := false, safeCause := cause, cmps := h.cmps.map (fun c => { c with live := false })
             safeFrom := some (s.clk.edges, (leadOf h.tiles).getD 6) })
  abandon g 2 (voteRaise g 1 s)
/-- R155: the groups of a list enter SAFE on one edge, each with its cause; a SAFE group keeps its own.  Their records come in the
order of their codes (R418). -/
def enterSafeAll (l : List (Nat × Nat)) (s : State) : State :=
  let l := l.filter (fun e => (s.grpOf e.1).live)
  let s := s.forEach l (fun e => safeEntry e.1 e.2)
  s.forEach l (fun e s => s.fault 0x17 e.1 (BitVec.ofNat 32 e.2))
/-- R155: group `g` enters SAFE. -/
def enterSafe (g cause : Nat) (s : State) : State := enterSafeAll [(g, cause)] s

/-- R139, R140, R158: tile `t` of group `g` is marked suspect: it is withdrawn from every role and pool and held in tile reset. -/
def brandTile (g t : Nat) (s : State) : State :=
  let s := { s with vote := { s.vote with suspects := t :: s.vote.suspects } }
  let s := withdrawRoles t (advanceGroupRoles g s)
  pinTile t (s.fault 0x14 t (BitVec.ofNat 32 g))

/-- R158: slot `k` leaves the group: its writes are discarded, its gate's comparisons too where that gate has no member left, and
a tile that had only just joined does not leave its reset. -/
def leaveGroup (g k : Nat) (s : State) : State :=
  s.modGrp g (fun h =>
    let t := tileIn h.tiles k
    let tiles := h.tiles.set k (t, true)
    let gates := memberGates tiles
    let kept := fun (c : Cmp) => c.old.any (·.apart) || gates.contains c.gate
    let left := fun (c : Cmp) =>
      if c.old.any (·.apart) then c
      else { c with third := c.third && c.agree.contains k,
                    writes := if c.decided then c.writes else c.writes.filter (fun w => w.slot != k) }
    let open_ := fun (v : Verdict) => gates.contains v.gate
    { h with tiles := tiles, cmps := (h.cmps.filter kept).map left,
             transit := h.transit.filter (fun e => e.2.2.2.slot != k && gates.contains e.1),
             own := h.own.filter open_, lead := h.lead.filter open_, bufs := h.bufs.filter (fun b => b.2.1 != k),
             joined := if h.joined == some t then none else h.joined })

/-- R158 to R160: the tile of slot `k` of group `g` is marked suspect. -/
def markSuspect (g k : Nat) (s : State) : State :=
  let h := s.grpOf g
  if !(currentOf h.tiles).contains k then s
  else
    let t := tileIn h.tiles k
    let was := (currentOf h.tiles).length
    let restart := h.phase != 0 && h.donor == k
    let slot := if restart then h.joinSlot else k
    -- the records of one edge in the order of their codes (R418)
    let s := brandTile g t (voteRaise g 4 s)
    let s := (if restart then abandon g 3 else id) s
    let s := cfgLeave g k (leaveGroup g k s)
    let safe := was == 2 && (s.grpOf g).live
    let s := takeoverStart g slot restart (s.when safe (safeEntry g 5))
    s.when safe (·.fault 0x17 g 5)
/-- R37, R158: tile `t` is marked suspect by a comparison whose definition, with the member gates `gates`, is no longer the group's:
in whatever group it is a member of now, else as a tile alone, with the event at the gates that judged it. -/
def markTile (g t : Nat) (gates : List Nat) (s : State) : State :=
  match groupsOf s t with
  | [] => if 24 ≤ t || s.vote.suspects.contains t then s else brandTile g t (gatesRaise gates 4 s)
  | l => s.forEach l (fun o s => match memberSlot s o t with
    | some k => markSuspect o k s
    | none => s)

/-- R149, R150: gate `m`, which compares the group from now on, goes on from the state of gate `n` (log 131). -/
def adoptGate (g n m : Nat) (s : State) : State :=
  s.modGrp g (fun h =>
    if n == m then h
    else
      let moved := fun (l : List Cmp) => l.map (fun c => { c with gate := m })
      { h with cmps := h.cmps.filter (·.gate != m) ++ moved (h.cmps.filter (fun c => c.gate == n && !c.old.any (·.apart))),
               transit := h.transit.filter (·.1 != m) ++ (h.transit.filter (·.1 == n)).map (fun e => (m, e.2)),
               own := h.own.filter (·.gate != m), lead := h.lead.filter (·.gate != m),
               next := updAt h.next m (fun _ => atD h.next n (Vector.replicate 32 0)) })

/-- R161: the join, with the counters recorded at the agreeing members' marks. -/
def join (g : Nat) (seqs : List Nat) (s : State) : State :=
  let h := s.grpOf g
  match h.spare with
  | none => s
  | some t =>
    let c := donorCluster s g
    let s := (releaseClaim g s).progress 9
    let s := adoptGate g ((leadOf h.tiles).getD (t / 4)) (t / 4) s
    let s := s.modGrp g (fun h =>
      { h with tiles := h.tiles.set h.joinSlot (t, false), phase := 0, joinSlot := 0, joined := some t,
               seq := updAt h.seq h.joinSlot (fun _ => Vector.ofFn (fun i => (seqs[i.val]?).getD 0)) })
    let s := s.modTile t (fun x => { x with wait := 8 })
    let s := voteRaise g 6 (advanceGroupRoles g s)
    nextCopy c (s.forEach (memberGates (s.grpOf g).tiles) (fun c => (·.bump (VOTE_COUNTS.takeovers c))))

/-- The meaning of SPARE_RELEASE: 8 clk after the join. -/
def execSpareRelease (g : Fin 12) (s : State) : Outcome :=
  .next (inCore (fun s => match (s.grpOf g).joined with
    | none => s
    | some t =>
      if (s.tileOf t).wait != 0 || (s.tileOf t).unloaded then s
      else
        let s := s.modGrp g (fun h => { h with joined := none })
        let s := s.modTile t (fun x => { x with pinned := false, held := false })
        (s.raise (OMT_EVENTS.ckpt_due t)).raise (OMT_EVENTS.join t)) s)

/-! ### Comparisons -/

/-- Whether a comparison stands apart from the group's present tags (R37). -/
def Cmp.apart (c : Cmp) : Bool := c.old.any (·.apart)
/-- The definition a comparison is judged by (R37): tiles, skew_ns, checksum.  A tile that has become suspect since is no member of
an old definition either. -/
def cmpDef (s : State) (g : Nat) (c : Cmp) : GrpDef :=
  let h := s.grpOf g
  match c.old with
  | some d => if d.apart then { d with tiles := d.tiles.map (fun e => (e.1, e.2 || s.vote.suspects.contains e.1)) }
              else { d with tiles := h.tiles }
  | none => ⟨h.tiles, ((groupRec s.invB g).map (·.skew)).getD 0, ((groupRec s.invB g).map (·.checksum)).getD false, false⟩
/-- What a write is compared by: its value, or for a mark also the member's counters (R157). -/
def voteKey (d : GrpDef) (p : Nat) (w : VoteW) : Word × List Nat :=
  if p == 30 then (if d.checksum then w.value else 0, w.seqs) else (w.value, [])
/-- The comparison of a tag that arriving writes join. -/
def findCmp (h : GrpH) (c p t : Nat) : Option Cmp :=
  h.cmps.find? (fun x => x.gate == c && x.port == p && x.tag == t && !x.apart)
/-- Two records of one comparison. -/
def sameCmp (a b : Cmp) : Bool := a.gate == b.gate && a.port == b.port && a.tag == b.tag && a.old == b.old
/-- A comparison's record replaced; it goes when its tag has been passed and no write is awaited. -/
def putCmp (g : Nat) (c : Cmp) (s : State) : State :=
  s.modGrp g (fun h =>
    if c.retired && c.decided && !c.third then { h with cmps := h.cmps.filter (fun x => !sameCmp x c) }
    else { h with cmps := h.cmps.map (fun x => if sameCmp x c then c else x) })
/-- The finalize instant (R152). -/
def finalAt (d : GrpDef) (c : Cmp) : Nat := c.start + d.skew + 500

/-- A decision record in VOTE_LAST at the member gates of the comparison's definition, with its event and count (R37, R153, R163;
Table VOT-17). -/
def recordDecision (g : Nat) (c : Cmp) (cause : Nat) (s : State) : State :=
  let present := (c.writes.map (fun w => 2 ^ w.slot)).sum
  let id := g + 16 * c.port + 512 * cause + 4096 * present + 65536 * c.tag
  let val := fun k => ((c.writes.find? (fun w => w.slot == k)).map (·.value)).getD 0
  let tiles := (cmpDef s g c).tiles
  let s := s.forEach (memberGates tiles) (fun n s =>
    let s := s.setN (VOTE_LAST_ID n) id
    let s := s.forEach [0, 1, 2] (fun k s => s.setReg (VOTE_LAST_V n k) (val k))
    let s := s.setN (VOTE_LAST_TT n) s.now
    if cause == 4 then s else s.bump (VOTE_COUNTS.disagreements n))
  let gates := memberGates tiles
  if cause == 4 then gatesRaise gates 12 s
  else (gatesRaise gates 0 s).fault 0x13 ((leadOf tiles).getD 0) (BitVec.ofNat 32 id)

/-- The first value that two of the writes share, with the slots that wrote it. -/
def majority (d : GrpDef) (p : Nat) (ws : List VoteW) : Option (VoteW × List Nat) :=
  ws.findSome? (fun w =>
    let same := ws.filter (fun v => voteKey d p v == voteKey d p w)
    if 2 ≤ same.length then some (w, same.map (·.slot)) else none)

/-- Whether an earlier tag of the port is stopped at the gate, so that this one waits (R163). -/
def portStopped (h : GrpH) (c : Cmp) : Bool :=
  h.cmps.any (fun x => x.gate == c.gate && x.port == c.port && x.stopped && tagBefore x.tag c.tag && x.apart == c.apart)

/-- The lead's verdict goes to the other member gates; another gate's own verdict is kept (R150).  A comparison of a definition
that is no longer the group's has no gates left to agree with.  The first verdict on a tag takes the place of what is left of an
earlier comparison of that tag. -/
def noteVerdict (g : Nat) (c : Cmp) (code : Nat) (v : Word) (s : State) : State :=
  let h := s.grpOf g
  let lead := leadOf h.tiles
  let third := code == 2 || code == 3 || code == 5
  let kept := fun (x : Verdict) => third || !(x.port == c.port && x.tag == c.tag)
  if c.apart then s
  else if lead == some c.gate then
    s.modGrp g (fun h =>
      { h with lead := h.lead.filter kept ++ ((memberGates h.tiles).filter (· != c.gate)).map (fun n => ⟨n, c.port, c.tag, code, v⟩) })
  else s.modGrp g (fun h => { h with own := h.own.filter (fun x => x.gate != c.gate || kept x) ++ [⟨c.gate, c.port, c.tag, code, v⟩] })

/-- The tile in slot `k` of a comparison's definition is marked suspect (R153). -/
def markSlot (g : Nat) (c : Cmp) (k : Nat) (s : State) : State :=
  let tiles := (cmpDef s g c).tiles
  if c.apart then markTile g (tileIn tiles k) (memberGates tiles) s else markSuspect g k s

/-- Table VOT-3: the third slot `k` of a decided comparison: its write equal (code 5), differing (2) or missing (3). -/
def thirdDecided (g : Nat) (c : Cmp) (k code : Nat) (s : State) : State :=
  let lead := leadOf (cmpDef s g c).tiles == some c.gate
  let s := (noteVerdict g c code (BitVec.ofNat 32 k) (putCmp g { c with third := false } s)).progress 3
  if code == 5 || !lead then s else markSlot g c k (recordDecision g c (code - 1) s)

/-- R153, Table VOT-3, R163: a comparison is decided as far as its writes fix it. -/
def evalCmp (g : Nat) (c : Cmp) (s : State) : State :=
  let d := cmpDef s g c
  let cur := currentOf d.tiles
  let n := cur.length
  let ws := c.writes.filter (fun w => cur.contains w.slot)
  let lead := leadOf d.tiles == some c.gate
  if c.decided then
    if !c.third then s
    else match cur.find? (fun k => !c.agree.contains k) with
    | none => putCmp g { c with third := false } s
    | some k =>
      match ws.find? (fun w => w.slot == k), ws.find? (fun w => c.agree.contains w.slot) with
      | some w, some v => thirdDecided g c k (if voteKey d c.port w == voteKey d c.port v then 5 else 2) s
      | _, _ => s.when c.final (thirdDecided g c k 3)
  else if portStopped (s.grpOf g) c then s
  else
    let full := n != 0 && ws.length == n
    let c := { c with members := cur, live := (s.grpOf g).live }
    -- R157: of a mark whose presence alone is compared, the verdict carries no value
    let release := fun (w : VoteW) (agree : List Nat) (s : State) =>
      let v := if c.port == 30 && !d.checksum then 0 else w.value
      let third := cur.any (fun k => !agree.contains k)
      (noteVerdict g c 0 v (putCmp g { c with decided := true, value := some v, agree := agree, third := third } s)).progress 3
    if s.ha 3 then
      let agreed := full && ws.all (fun w => ws.all (fun v => voteKey d c.port w == voteKey d c.port v))
      match agreed, ws with
      | true, w :: _ => release w cur s
      | _, _ =>
        if !full && !c.final then s
        else
          let s := (noteVerdict g c 4 0 (putCmp g { c with decided := true, stopped := true, third := false } s)).progress 3
          s.when lead (recordDecision g c 4)
    else match majority d c.port ws with
    | some (w, agree) => release w agree s
    | none =>
      if (2 ≤ n && ws.length == n) || c.final then
        let many := 2 ≤ ws.length
        let s := (noteVerdict g c 1 0 (putCmp g { c with decided := true, value := none, third := false } s)).progress 3
        if lead then enterSafe g (if many then 1 else 2) (recordDecision g c (if many then 3 else 2) s) else s
      else s

/-! ### Release -/

/-- `v` as `n` octets, the most significant first. -/
def beBytes (n v : Nat) : List Byte := (leBytes n v).reverse
/-- The trailer of Table VOT-8, as at the release. -/
def voteTrailer (s : State) (g : Nat) (c : Cmp) : List Byte :=
  let h := s.grpOf g
  let kind := ((groupRec s.invB g).map (·.kind)).getD 0
  let tile := fun (k : Nat) => ((h.tiles[k]?).map (·.1)).getD 0xFF
  let slots := (c.agree.map (2 ^ ·)).sum + 8 * (c.members.map (2 ^ ·)).sum
  let flags := c.port + (if s.is TT_STATUS.degraded then 32 else 0) + (if h.phase != 0 then 64 else 0) + (if c.byHost then 128 else 0)
  beBytes 1 1 ++ beBytes 1 (g + 16 * kind) ++ beBytes 1 slots ++ beBytes 1 flags ++
    beBytes 1 (tile 0) ++ beBytes 1 (tile 1) ++ beBytes 1 (tile 2) ++ beBytes 1 0 ++ beBytes 2 (u16 s.invB 0x40) ++ beBytes 2 c.tag ++
    beBytes 4 (s.regN INV_EPOCH) ++ fingerprint s.invB ++ beBytes 4 s.now
/-- R165: a voted frame is agreed; in Frost it is dropped (R156). -/
def releaseFrame (g : Nat) (c : Cmp) (v : Word) (s : State) : State :=
  if s.frost then voteRaise g 13 s
  else s.modGrp g (fun h => { h with frames := h.frames ++ [⟨c.port, c.tag, v, (c.agree.min?).getD 0, voteTrailer s g c⟩] })

/-- R254, R326, Table VOT-4: a released value is applied at its target.  At an edge channel of a cluster that is off it fails: it is
repeated once, and a second failure is a fail report (R166, Table HOST-9; log 148). -/
def outArrive (o : VoteOut) (s : State) : State :=
  let gpio := fun (f : Nat → Nat → Nat) =>
    let s := s.setN (GPIO_OUT o.index) (f (s.regN (GPIO_OUT o.index)) (o.value.toNat % 2 ^ 24 &&& o.mask))
    -- R327: the first release after LIVE ends the hold of the balls its mask covers
    s.forEach ((List.range 24).filter (bitN o.mask)) (fun k s =>
      let n := 24 * o.index + k
      if (s.ballOf n).votedHold then refreshBall n (s.modBall n (fun b => { b with votedHold := false })) else s)
  match o.kind with
  | 2 => gpio orBits
  | 3 => gpio clrBits
  | _ =>
    if domOn s (domCluster (o.index / 16)) then edgRelease (o.index / 16) (o.index % 16) o.value s
    else if o.again then s.retryFail
    else { s with vote := { s.vote with outs := s.vote.outs ++ [{ o with due := s.clk.edges + 750, again := true }] } }

/-- One core edge of the vote gates: releases and safe actions reach their targets (Table VOT-4). -/
def voteCycle (s : State) : State :=
  let now := fun (o : VoteOut) => decide (o.due ≤ s.clk.edges)
  let l := s.vote.outs.filter now
  let s := s.when (!l.isEmpty) (fun s =>
    ({ s with vote := { s.vote with outs := s.vote.outs.filter (fun o => !now o) } } : State).forEach l outArrive)
  if s.vote.grp.all (fun h => h.safeFrom.isNone) then s
  else
    let here := s.vote.grp.any (fun h => h.safeFrom.any (fun e => e.1 + 4 == s.clk.edges || e.1 + 6 ≤ s.clk.edges))
    let arrived := fun (h : GrpH) => h.safeFrom.any (fun e => decide (e.1 + 6 ≤ s.clk.edges))
    let s := { s with vote := { s.vote with grp := s.vote.grp.map (fun h => if arrived h then { h with safeFrom := none } else h) } }
    s.when here applyVoted

/-- Table VOT-5: a value is released to the target of port `p`, and reaches it on the edge of Table VOT-4. -/
def releaseTo (g : Nat) (c : Cmp) (v : Word) (s : State) : State :=
  let h := s.grpOf g
  let kind := atD h.cfg c.port 0 % 8
  let index := atD h.cfg c.port 0 / 8 % 256
  let aux := atD h.aux c.port 0
  let s := s.when (1 ≤ kind && kind ≤ 5) (·.modGrp g (fun h => { h with released := updAt h.released c.port (fun _ => c.tag) }))
  let out : VoteOut := ⟨s.clk.edges + reach (leadOf h.tiles) kind index, kind, index, v, aux % 2 ^ 24, false⟩
  let send := fun (s : State) => ({ s with vote := { s.vote with outs := s.vote.outs ++ [out] } } : State)
  match kind with
  | 1 => if index < 96 then send s else s
  | 2 => if index < 8 then send s else s
  | 3 => if index < 8 then send s else s
  | 4 => if index < 6 then adcVoted index v.toNat (if leadOf h.tiles == some index then 4 else 6) s else s
  | 5 => releaseFrame g c v s
  | _ => s

/-- R157, Table VOT-7: an agreed mark. -/
def markAgreed (g : Nat) (c : Cmp) (s : State) : State :=
  let s := s.modGrp g (fun h => { h with ckpt := c.tag })
  let seqs := ((c.writes.find? (fun w => c.agree.contains w.slot)).map (·.seqs)).getD []
  match (s.grpOf g).phase with
  | 1 => startCopy (donorCluster s g) g ((s.modGrp g (fun h => { h with phase := 2 })).progress 9)
  | 3 => join g seqs s
  | _ => s

/-- Table VOT-6: an agreed control code. -/
def controlAgreed (g : Nat) (v : Word) (s : State) : State :=
  if v == 1 || v == 2 || v == 3 then s.modGrp g (fun h => { h with ctl := h.ctl ++ [v.toNat] }) else voteRaise g 14 s

/-- R153, R155, R156: the outcome of the next tag of a port takes effect; nothing is released in SAFE, nor a value decided
there. -/
def passTag (g : Nat) (c : Cmp) (s : State) : State :=
  match c.value with
  | none => s
  | some v =>
    if c.port == 30 then markAgreed g c s
    else if c.port == 31 then controlAgreed g v s
    else if c.live && (s.grpOf g).live then releaseTo g c v s
    else s

/-- The tags of a port at a gate are passed in order as far as they are decided. -/
def flushPort (g n p : Nat) : Nat → State → State
  | 0, s => s
  | fuel + 1, s =>
    let h := s.grpOf g
    let tag := cell h.next n p
    match findCmp h n p tag with
    | none => s
    | some c =>
      if !c.decided || c.stopped then s
      else
        let s := s.modGrp g (fun h => { h with next := updCell h.next n p ((tag + 1) % 65536) })
        let s := putCmp g { c with retired := true } s
        let h := s.grpOf g
        let first := leadOf h.tiles == some n && !tagBefore tag (atD h.rel p 0)
        let s := s.when first (fun s =>
          passTag g c (s.modGrp g (fun h => { h with rel := updAt h.rel p (fun _ => (tag + 1) % 65536) })))
        flushPort g n p fuel s

/-- R37: the comparisons that stand apart are passed in the order of their tags, each by the lead of its own definition. -/
def flushApart (g : Nat) : Nat → State → State
  | 0, s => s
  | fuel + 1, s =>
    let l := (s.grpOf g).cmps.filter (fun c => c.apart && !c.retired)
    let first := fun (c : Cmp) => !l.any (fun x => x.gate == c.gate && x.port == c.port && tagBefore x.tag c.tag)
    match l.find? (fun c => c.decided && !c.stopped && first c) with
    | none => s
    | some c =>
      let s := putCmp g { c with retired := true } s
      flushApart g fuel (s.when (leadOf (cmpDef s g c).tiles == some c.gate) (passTag g c))

/-- What is decided is passed, at every gate and port. -/
def flushAll (g : Nat) (s : State) : State :=
  let l := (s.grpOf g).cmps
  let s := s.when (l.any (·.apart)) (flushApart g l.length)
  s.forEach ((l.map (fun c => (c.gate, c.port))).dedup) (fun e => flushPort g e.1 e.2 6)

/-- Every open comparison of a group is judged. -/
def judgeAll (g : Nat) (s : State) : State :=
  s.forEach (s.grpOf g).cmps (fun c s =>
    match (s.grpOf g).cmps.find? (fun x => sameCmp x c) with
    | some x => evalCmp g x s
    | none => s)
/-- Judged again as long as that makes a new suspect, whose leaving may decide what was judged before it. -/
def judgeOn (g : Nat) : Nat → State → State
  | 0, s => s
  | fuel + 1, s =>
    let t := judgeAll g s
    if t.vote.suspects.length == s.vote.suspects.length then t else judgeOn g fuel t
/-- R153: every open comparison of a group is judged after a change of members or of a window, and those of the groups that lose a
member by it.  A group has at most three suspects. -/
def settle (g : Nat) (s : State) : State :=
  let t := flushAll g (judgeOn g 4 s)
  if t.vote.suspects.length == s.vote.suspects.length then t
  else t.forEach ((List.range 12).filter (fun o => o != g && (t.grpOf o).tiles != (s.grpOf o).tiles)) (fun o s =>
    flushAll o (judgeOn o 4 s))

/-! ### Vote writes -/

/-- R152: whether a write with `tag` would open a fifth comparison of port `p` at gate `n`. -/
def overruns (h : GrpH) (n p tag : Nat) : Bool :=
  (findCmp h n p tag).isNone &&
    4 ≤ (h.cmps.filter (fun c => c.gate == n && c.port == p && !c.apart && (!c.decided || c.third || c.stopped))).length

/-- R152: the write joins a comparison: S moves back to an earlier stamp, and the write counts inside the window. -/
def joinCmp (g : Nat) (c : Cmp) (w : VoteW) (s : State) : State :=
  let d := cmpDef s g c
  let c := { c with start := min c.start w.stamp }
  let counts := w.stamp ≤ c.start + d.skew && !s.due (finalAt d c) && !c.final && !c.writes.any (fun x => x.slot == w.slot)
  settle g (putCmp g (if counts then { c with writes := c.writes ++ [w] } else c) s)

/-- R152: a write reaches gate `n`, opens or joins its comparison, and may decide it. -/
def arrive (g n p tag : Nat) (w : VoteW) (s : State) : State :=
  let h := s.grpOf g
  if !(currentOf h.tiles).contains w.slot then s
  else if (findCmp h n p tag).isNone && tagBefore tag (cell h.next n p) then s
  else if overruns h n p tag then s.raise (VOTE_EVENTS.port_overrun n)
  else
    let fresh : Cmp := ⟨n, p, tag, w.stamp, [], false, none, [], false, false, false, [], false, false, false, none⟩
    match findCmp h n p tag with
    | some c => joinCmp g c w s
    | none => joinCmp g fresh w (s.modGrp g (fun h => { h with cmps := h.cmps ++ [fresh] }))

/-- R37: a write in flight since before an epoch reset the counters joins the comparison of its tag that is still open; without one
it is discarded, for its tag is no tag of the present counters (log 66). -/
def strayArrive (g n p tag : Nat) (w : VoteW) (s : State) : State :=
  match (s.grpOf g).cmps.find? (fun c => c.apart && c.gate == n && c.port == p && c.tag == tag) with
  | some c => joinCmp g c w s
  | none => s

/-- R151, R152: a vote write of tile `t` at its own gate; the answer says whether it was refused there. -/
def voteWrite (t g p : Nat) (v : Word) (s : State) : Bool × State :=
  let n := t / 4
  match memberSlot s g t with
  | none => (false, s.raise (VOTE_EVENTS.foreign_write n))
  | some k =>
    let h := s.grpOf g
    let tag := cell h.seq k p
    if overruns h n p tag then (true, s.raise (VOTE_EVENTS.port_overrun n))
    else
      let s := s.modGrp g (fun h => { h with seq := updCell h.seq k p ((tag + 1) % 65536) })
      let seqs := if p == 30 then (atD (s.grpOf g).seq k (Vector.replicate 32 0)).toList else []
      let w : VoteW := ⟨k, v, s.now, seqs⟩
      let s := s.modGrp g (fun h =>
        { h with transit := h.transit ++ ((memberGates h.tiles).filter (· != n)).map (fun m => (m, p, tag, w)) })
      (false, arrive g n p tag w s)

/-- The meaning of VOTE_WRITE: an OUT to VOTE_PORT_DATA of the tile's own gate; a refused write fails under R104. -/
def execVoteWrite (t : Fin 24) (g : Fin 12) (p : Fin 32) (v : Word) (s : State) : Outcome :=
  .next (if !domOn s (domCluster (t / 4)) then s
    else match voteWrite t g p v s with
    | (true, s) => postErr t (VOTE_PORT_DATA (t / 4) g p) s
    | (false, s) => s)

/-- The meaning of VOTE_WRITE_ARRIVAL: the write of slot `k` with a tag reaches gate `c`. -/
def execVoteWriteArrival (g : Fin 12) (c : Fin 6) (p : Fin 32) (tag : Fin 65536) (k : Fin 3) (s : State) : Outcome :=
  let hit := fun (e : Nat × Nat × Nat × VoteW) => e.1 == c.val && e.2.1 == p.val && e.2.2.1 == tag.val && e.2.2.2.slot == k.val
  .next (inCore (fun s => match (s.grpOf g).transit.find? hit with
    | some e => arrive g c p tag e.2.2.2 (s.modGrp g (fun h => { h with transit := h.transit.filter (fun x => !hit x) }))
    | none => match (s.grpOf g).strays.find? hit with
      | none => s
      | some e => strayArrive g c p tag e.2.2.2 (s.modGrp g (fun h => { h with strays := h.strays.filter (fun x => !hit x) }))) s)

/-- R153: the finalize instant of a comparison at gate `c`; while HA mode has stopped the port, later tags wait. -/
def finalize (g n p tag : Nat) (s : State) : State :=
  let h := s.grpOf g
  match h.cmps.find? (fun x => x.gate == n && x.port == p && x.tag == tag && !x.final && s.due (finalAt (cmpDef s g x) x)) with
  | none => s
  | some c => if !c.decided && portStopped h c then s else settle g (putCmp g { c with final := true } s)

/-- The meaning of FINALIZE. -/
def execFinalize (g : Fin 12) (c : Fin 6) (p : Fin 32) (tag : Fin 65536) (s : State) : Outcome :=
  .next (inCore (finalize g c p tag) s)

/-- R150: the lead's verdict is compared with gate `n`'s own.  A gate that has no verdict on the third slot, because that slot's tile
has left the group meanwhile, has none that differs; one that had judged the third write equal has. -/
def verdictReceive (g n p tag : Nat) (s : State) : State :=
  let hit := fun (v : Verdict) => v.gate == n && v.port == p && v.tag == tag
  match (s.grpOf g).lead.find? hit, (s.grpOf g).own.find? hit with
  | some a, some b =>
    let s := s.modGrp g (fun h => { h with lead := h.lead.erase a, own := h.own.erase b })
    if a == b then s
    else
      let s := (s.raise (VOTE_EVENTS.gate_diverge n)).bump (VOTE_COUNTS.divergences n)
      enterSafe g 4 (s.fault 0x15 n (BitVec.ofNat 32 g))
  | some a, none =>
    if (a.code == 2 || a.code == 3 || a.code == 5) && !(currentSlots s g).contains a.value.toNat then
      s.modGrp g (fun h => { h with lead := h.lead.erase a })
    else s
  | none, _ => s

/-- The meaning of VERDICT_RECEIVE. -/
def execVerdictReceive (g : Fin 12) (c : Fin 6) (p : Fin 32) (tag : Fin 65536) (s : State) : Outcome :=
  .next (inCore (verdictReceive g c p tag) s)

/-! ### Port configuration -/

/-- R154: tile `t` in world `w` writes VOTE_PORT_CFG, or VOTE_PORT_AUX. -/
def cfgWrite (t g p : Nat) (aux : Bool) (w : Nat) (v : Word) (s : State) : State :=
  match memberSlot s g t, groupRec s.invB g with
  | some k, some r =>
    let h := s.grpOf g
    if h.locked || (!aux && 30 ≤ p) then s
    else if aux && atD h.cfg p 0 % 8 == 5 then
      s.modGrp g (fun h =>
        { h with bufs := (p, k, v.toNat, w) :: h.bufs.filter (fun b => !(b.1 == p && b.2.1 == k)) })
    else
      let mine := fun (x : CfgVote) => x.port == p && x.aux == aux
      let late := h.cfgVotes.any (fun x => mine x && x.first + r.skew < s.now)
      let s := s.when late (cfgFail g p aux)
      let x := ((s.grpOf g).cfgVotes.find? mine).getD ⟨p, aux, s.now, []⟩
      let x := { x with vals := (k, v) :: x.vals.filter (fun e => e.1 != k) }
      cfgJudge g p aux (s.modGrp g (fun h => { h with cfgVotes := x :: h.cfgVotes.filter (fun y => !mine y) }))
  | _, _ => s

/-- The meaning of VOTE_PORT_CFG: a member's write of VOTE_PORT_CFG, or of VOTE_PORT_AUX, in world `w`. -/
def execVotePortCfg (t : Fin 24) (g : Fin 12) (p : Fin 32) (aux : Bool) (w : Fin 2) (v : Word) (s : State) : Outcome :=
  .next (if domOn s (domCluster (t / 4)) then cfgWrite t g p aux w v s else s)

/-- The meaning of CFG_VOTE_TIMEOUT. -/
def execCfgVoteTimeout (g : Fin 12) (p : Fin 32) (aux : Bool) (s : State) : Outcome :=
  let skew := ((groupRec s.invB g).map (·.skew)).getD 0
  .next (inCore (fun s => if (s.grpOf g).cfgVotes.any (fun x => x.port == p && x.aux == aux && x.first + skew < s.now) then
    cfgFail g p aux s else s) s)

/-! ### Control codes -/

/-- Takes an agreed control code from the head of the group's list. -/
def takeCtl (g code : Nat) (s : State) : Option State :=
  match (s.grpOf g).ctl with
  | c :: rest => if c == code then some (s.modGrp g (fun h => { h with ctl := rest })) else none
  | [] => none

/-- R156: whether a release is allowed. -/
def releaseAllowed (s : State) (g : Nat) : Bool :=
  2 ≤ (currentSlots s g).length && (s.grpOf g).phase == 0 &&
    !(((groupRec s.invB g).map (·.lullSafe)).getD false && s.is CLK_STATUS.lull)

/-- R156: the group becomes LIVE, or the release is refused. -/
def release (g : Nat) (s : State) : State :=
  if (s.grpOf g).live then s
  else if releaseAllowed s g then voteRaise g 2 (applyVoted (s.modGrp g (fun h => { h with live := true, safeFrom := none })))
  else voteRaise g 3 s

/-- The meaning of RELEASE. -/
def execRelease (g : Fin 12) (s : State) : Outcome :=
  .next (inCore (fun s => match takeCtl g 1 s with
    | some s => release g s
    | none => s) s)
/-- The meaning of LOCK. -/
def execLock (g : Fin 12) (s : State) : Outcome :=
  .next (inCore (fun s => match takeCtl g 2 s with
    | some s => s.modGrp g (fun h => { h with locked := true })
    | none => s) s)
/-- The meaning of GO_SAFE. -/
def execGoSafe (g : Fin 12) (s : State) : Outcome :=
  .next (inCore (fun s => match takeCtl g 3 s with
    | some s => enterSafe g 6 s
    | none => s) s)

/-! ### Checkpoints, faults of members, the copy -/

/-- R157: ckpt_due at the member in slot `k`. -/
def ckptDue (g k : Nat) (s : State) : State :=
  match groupRec s.invB g with
  | none => s
  | some r =>
    let period := r.ckptPeriodUs * 1000
    let c := (s.now - k * r.stagger) / period * period
    let h := s.grpOf g
    if period == 0 || c ≤ atD h.ckptRaised k 0 || !(currentOf h.tiles).contains k then s
    else
      (s.modGrp g (fun h => { h with ckptRaised := updAt h.ckptRaised k (fun _ => c) })).raise (OMT_EVENTS.ckpt_due (tileIn h.tiles k))

/-- The meaning of CKPT_DUE. -/
def execCkptDue (g : Fin 12) (k : Fin 3) (s : State) : Outcome := .next (inCore (ckptDue g k) s)

/-- R159: the cluster reports tile `t` locked up, reset by something other than the gate, or off. -/
def memberFault (t : Nat) (s : State) : State :=
  let x := s.tileOf t
  let off := !domOn s (domTile t) || !domOn s (domCluster (t / 4))
  if !(x.lockup.isSome || (x.held && !x.pinned) || off) then s
  else
    let s := s.forEach (groupsOf s t) (fun g s =>
      match memberSlot s g t with
      | some k => settle g (markSuspect g k s)
      | none => s)
    -- Table VOT-9: a spare that is lost ends its takeover, and an off domain withdraws its tile's roles
    let s := s.when off (withdrawRoles t)
    s.when off (fun s => s.forEach (List.range 12) (fun g s =>
      if (s.grpOf g).phase != 0 && (s.grpOf g).spare == some t then abandon g 1 s else s))

/-- The meaning of MEMBER_FAULT_REPORT. -/
def execMemberFaultReport (t : Fin 24) (s : State) : Outcome := .next (inCore (memberFault t) s)

/-- R160, R210: the copy completes; the donor's region is at the spare. -/
def copyComplete (g : Nat) (s : State) : State :=
  let h := s.grpOf g
  match groupRec s.invB g, h.spare with
  | some r, some sp =>
    let d := ch7 (donorCluster s g)
    let inTcm := r.ckptBase + r.ckptLen ≤ 0x40000
    if h.phase != 2 || (inTcm && (s.dmaOf d).copy != some g) then s
    else
      let donor := tileIn h.tiles h.donor
      let s := s.when inTcm (·.setBytes (dtcmKey sp + r.ckptBase) (s.bytes (dtcmKey donor + r.ckptBase) r.ckptLen))
      let s := s.when ((s.dmaOf d).copy == some g) (fun s => (chDone d 1 s).modDma d (fun h => { h with copy := none }))
      nextCopy (donorCluster s g) ((s.modGrp g (fun h => { h with phase := 3 })).progress 9)
  | _, _ => s

/-- The meaning of COPY_COMPLETE. -/
def execCopyComplete (g : Fin 12) (s : State) : Outcome := .next (inCore (copyComplete g) s)

/-! ### HA mode -/

/-- R163: the stopped comparisons of a port and tag, at every gate, go on with the outcome given. -/
def unstop (g p tag : Nat) (f : Cmp → Cmp) (s : State) : State :=
  s.modGrp g (fun h => { h with cmps := h.cmps.map (fun c =>
    if c.port == p && c.tag == tag && c.stopped then f { c with stopped := false } else c) })

/-- R163: no verdict within 10 ms of the finalize instant. -/
def hostTimeout (g p : Nat) (s : State) : State :=
  match (s.grpOf g).cmps.find? (fun c => c.port == p && c.stopped) with
  | none => s
  | some c =>
    if !s.due (finalAt (cmpDef s g c) c + 10000000) then s
    else settle g (enterSafe g 9 (unstop g c.port c.tag id s))

/-- The meaning of HOST_TIMEOUT. -/
def execHostTimeout (g : Fin 12) (p : Fin 32) (s : State) : Outcome := .next (inCore (hostTimeout g p) s)

/-- R163: a write of VOTE_VERDICT by the output-override command; the answer says whether it matched a stopped port. -/
def verdictWrite (g : Nat) (v : Word) (s : State) : Bool × State :=
  let action := bitsOf v 0 2
  let r := bitsOf v 2 2
  let k := bitsOf v 4 2
  match (s.grpOf g).cmps.find? (fun c => c.port == bitsOf v 6 5 && c.tag == bitsOf v 16 16 && c.stopped) with
  | none => (false, s)
  | some c =>
    (true,
      if action == 0 then s
      else if action == 3 then settle g (enterSafe g 6 (unstop g c.port c.tag id s))
      else
        let val := (c.writes.find? (fun w => w.slot == r)).map (·.value)
        let live := (s.grpOf g).live
        -- the value is released before the suspect is marked, which may put the group SAFE (R159)
        let s := flushAll g (unstop g c.port c.tag (fun x => { x with value := val, agree := [r], live := live, byHost := true }) s)
        settle g (s.when (action == 2) (markSlot g c k)))

/-- R164: a write of VOTE_TAKEOVER by the host in HA mode. -/
def takeoverWrite (g : Nat) (v : Word) (s : State) : State :=
  let spare := bitsOf v 0 8
  let slot := bitsOf v 8 2
  let h := s.grpOf g
  if !s.ha 9 || h.tiles.isEmpty then s
  else if h.phase == 0 && slot < h.tiles.length && !(currentOf h.tiles).contains slot && !(currentOf h.tiles).isEmpty &&
      spareOk s g spare then takeoverBegin g slot spare 0 s
  else takeoverFailed g 7 s

/-! ### Lull, the split entries, conditions -/

/-- Table CLK-7, edge 1: groups with lull_policy 1 go SAFE. -/
def voteLull (s : State) : State :=
  enterSafeAll (((groupRecs s.invB).filter (·.lullSafe)).map (fun r => (r.group, 3))) s

/-- The counters of a group return to 0 (R151), with its comparisons and writes in flight discarded. -/
def resetCounters (g : Nat) (s : State) : State :=
  s.modGrp g (fun h =>
    { h with seq := GrpH.reset.seq, cmps := [], transit := [], strays := [], next := GrpH.reset.next, rel := GrpH.reset.rel,
             own := [], lead := [], cfgVotes := [], ctl := [] })

/-- Vote comparison is disabled under ABORT: open comparisons are discarded. -/
def voteAbort (s : State) : State :=
  s.forEach (List.range 12) (fun g s => s.modGrp g (fun h =>
    let floor := fun (p : Nat) => ((currentOf h.tiles).map (fun k => cell h.seq k p)).foldl (fun a b => if tagBefore b a then b else a)
      (cell h.seq (((currentOf h.tiles)[0]?).getD 0) p)
    { h with cmps := [], transit := [], strays := [], own := [], lead := [], next := Vector.replicate 6 (Vector.ofFn (fun p => floor p.val)),
             rel := Vector.ofFn (fun p => floor p.val) }))
/-- Vote comparison is idle: no comparison is open. -/
def voteIdle (s : State) : Bool := (List.range 12).all (fun g => (s.grpOf g).cmps.isEmpty && (s.grpOf g).transit.isEmpty)
/-- Rung 2 of vote comparison: every group SAFE, counters 0, takeovers abandoned (Table VOT-9). -/
def voteReinit (s : State) : State :=
  let l := (groupRecs s.invB).map (·.group)
  -- the counters are reset and the takeovers abandoned whether or not a group was SAFE already
  enterSafeAll (l.map (fun g => (g, 8))) (s.forEach l (fun g s => abandon g 2 (resetCounters g s)))
/-- Spare takeover is disabled under ABORT: every takeover is abandoned with cause RUNG. -/
def takeoverAbort (s : State) : State := s.forEach (List.range 12) (fun g => abandon g 6)
/-- No takeover has a copy in progress. -/
def takeoverIdle (s : State) : Bool := (List.range 12).all (fun g => (s.grpOf g).phase < 2)

/-- A group as the inventory defines it, SAFE with a cause. -/
def newGroup (s : State) (r : GroupRec) (cause : Nat) : GrpH :=
  let last := fun (k : Nat) => if r.ckptPeriodUs == 0 then 0
    else (s.now - k * r.stagger) / (r.ckptPeriodUs * 1000) * (r.ckptPeriodUs * 1000)
  { GrpH.reset with tiles := r.member.map (fun t => (t, s.vote.suspects.contains t)), safeCause := cause,
                    ckptRaised := Vector.ofFn (fun k => last k.val) }

/-- The role table at reset takes each record's base_gen (R139); at an epoch generations advance under R37. -/
def applyRoles (old new : List Byte) (epoch : Bool) (s : State) : State :=
  let was := fun (r : Nat) => (roleRec old r)
  let gens := s.vote.gens
  let gone := (roleRecs old).filter (fun o => !(roleRecs new).any (fun n => n.id == o.id))
  let s := s.forEach gone (fun o s =>
    let gen := s.get (OMT_ROLE.gen o.id)
    let s := s.setReg (OMT_ROLE o.id) 0
    { s with vote := { s.vote with gens := (o.id, gen) :: s.vote.gens.filter (fun e => e.1 != o.id) } })
  s.forEach (roleRecs new) (fun n s =>
    let last := match was n.id with
      | some _ => s.get (OMT_ROLE.gen n.id)
      | none => ((gens.find? (fun e => e.1 == n.id)).map (·.2)).getD 0
    let same := match was n.id with
      | some o => o.kind == n.kind && o.target == n.target && o.world == n.world && o.queue == n.queue
      | none => false
    let gen := if !epoch then n.baseGen else if same then last else nextGen last
    s.setN (OMT_ROLE n.id) (gen + 256 * n.kind + 512 * n.target + 16384 * n.world + 32768 * n.queue))

/-- The group and role sections take effect at the end of boot (R139, R155). -/
def applyVote (b : List Byte) (s : State) : State :=
  let s := applyRoles [] b false { s with vote := VoteH.reset }
  applyVoted (s.forEach (groupRecs b) (fun r s => s.modGrp r.group (fun _ => newGroup s r 0)))

/-- R37: the open comparisons of group `g` go on apart from the new counters, by the definition `d` where they have none of their
own yet. -/
def apartOf (s : State) (g : Nat) (d : GrpDef) : List Cmp :=
  (s.grpOf g).cmps.map (fun c =>
    let d := c.old.elim d (fun o => { o with tiles := if o.apart then o.tiles else d.tiles, apart := true })
    { c with old := some d })

/-- R37, R162: the takeover of a group that is SAFE already goes on under the record `r` if its slot and its donor are still there (log
146); that of a LIVE group ends with its entry into SAFE. -/
def takeoverFits (s : State) (h : GrpH) (o r : GroupRec) : Bool :=
  let tiles := r.member.map (fun t => (t, s.vote.suspects.contains t))
  h.live || (o.kind == r.kind && o.member == r.member) ||
    (tileIn tiles h.donor == tileIn h.tiles h.donor && (currentOf tiles).contains h.donor &&
      !(currentOf tiles).contains h.joinSlot && h.joinSlot < tiles.length)

/-- R37: the group and role sections of `old` are replaced by those of `new`, which is active already; the answer says
whether a takeover was dropped. -/
def epochVote (old new : List Byte) (s : State) : Bool × State :=
  let dropped := (List.range 12).filter (fun g =>
    let h := s.grpOf g
    h.phase != 0 && !(match groupRec old g, groupRec new g, h.spare with
      | some o, some r, some t => (poolTiles new r.pool).contains t && takeoverFits s h o r
      | _, _, _ => false))
  let s := s.forEach dropped (fun g => abandon g 5)
  let s := s.forEach (List.range 12) (fun g s =>
    let h := s.grpOf g
    match groupRec old g, groupRec new g with
    | none, none => s
    | none, some r => s.modGrp g (fun _ => newGroup s r 7)
    | some o, none =>
      let s := abandon g 2 s
      let l := apartOf s g ⟨(s.grpOf g).tiles, o.skew, o.checksum, true⟩
      s.modGrp g (fun h => { GrpH.reset with cmps := l, strays := h.strays ++ h.transit })
    | some o, some r =>
      let keep : GrpDef := ⟨h.tiles, o.skew, o.checksum, false⟩
      if o.kind == r.kind && o.member == r.member then
        if o.skew == r.skew && o.checksum == r.checksum then s
        else s.modGrp g (fun h => { h with cmps := h.cmps.map (fun c => { c with old := c.old.orElse (fun _ => some keep) }) })
      else
        let l := apartOf s g { keep with apart := true }
        let strays := h.strays ++ h.transit
        let s := enterSafe g 7 (resetCounters g s)
        let h := s.grpOf g
        let n := newGroup s r h.safeCause
        let n := { n with phase := h.phase, joinSlot := h.joinSlot, spare := h.spare, donor := h.donor, safeFrom := h.safeFrom }
        let n := { n with locked := h.locked, cfg := h.cfg, aux := h.aux, bufs := h.bufs }
        let n := { n with released := h.released, tkCause := h.tkCause, ckpt := h.ckpt, joined := h.joined, frames := h.frames }
        s.modGrp g (fun _ => { n with cmps := l.map (fun c => { c with live := false }), strays := strays }))
  (!dropped.isEmpty, applyVoted (applyRoles old new true s))

end Sys2Proof.Machine
end

