-- ==== Sys2Proof/Machine/Clock.lean ====
section
/-!
DEFINITION. Sys2Proof/Machine/Clock.lean: the meanings of the rows of "One clock": the watch check, the clock monitor, the
choice of source, the reference switch, glides, Lull and clock-fault hold (R46 to R72, R445).
-/
namespace Sys2Proof.Machine

/-- Codes of CLK_STATUS.mode. -/
def mSTART : Nat := 0
def mREF : Nat := 1
def mRING : Nat := 2
def mLULL : Nat := 3
/-- The source code that stands for none. -/
def noSource : Nat := 0xFE
/-- Stands for the watch oscillator as the new source of a switch (R59). -/
def watchOsc : Nat := 0xFF

/-- Changes the clock's hidden state. -/
def State.withClk (s : State) (c : ClkH) : State := { s with clk := c }

/-- The priority list in force: ref_list, or the boot list the same registers then show (R55). -/
def refList (s : State) : List Nat :=
  (List.range (min 12 (s.get CLK_REF_CFG.ref_count))).map
    (fun k => bitsOf (s.reg (0x020018 + 4 * (k / 4))) (8 * (k % 4)) 8)

/-- Nominal edges of a source in one gate of 1 ms, in sixteenths (Table CLK-1); none for an absent REFIN. -/
def nominal16 (s : State) (src : Nat) : Option Nat :=
  if src < 8 then
    match s.get (PORT_CFG.line_mode src) with
    | 2 => some 2500000
    | 3 => some 2578125
    | _ => some 2000000
  else if src == 8 then
    match s.get CLK_REF_CFG.refin_freq with
    | 0 => some 400000
    | 1 => some 1600000
    | 2 => some 2000000
    | 3 => some 2500000
    | _ => none
  else if src == 9 then some 1600000
  else some 4000000

/-- P of Table TT-1 in units of 2^-56 ns, for a clock mode outside a glide. -/
def nominalP (s : State) (mode : Nat) : Nat :=
  if mode == mREF then 0x0155555555555555
  else if mode == mLULL then
    (if s.is CLK_PERIOD_MEAS.valid then s.get CLK_PERIOD_MEAS.period * 2 ^ 40 else 0x0355555555555555)
  else if mode == mRING then
    ((0x02AAAAAAAAAAAAAA : Int) * (1000000 - signedN 16 s.clk.estAtLoss) / 1000000).toNat
  else 0x02AAAAAAAAAAAAAA

/-- Loads P, integer part and fraction (R74). -/
def State.setP (s : State) (p : Nat) : State := (s.setN TT_PERIOD (p / 2 ^ 32)).setN TT_PERIOD_FINE p

/-- P at step `k` of a glide from `f` to `t` kHz: 64 equal steps of frequency (R49, Table TT-1, log 31). -/
def glideP (f t k : Nat) : Nat :=
  let fk : Int := (f : Int) + ((t : Int) - f) * k / 64
  2 ^ 56 * 1000000 / fk.toNat

/-- R76: TT_STATUS.clock_degraded and degraded follow the clock block's mark and the servo's state. -/
def State.refreshDegraded (s : State) : State :=
  let c := s.is CLK_STATUS.degraded
  let st := s.get TT_STATUS.state
  let d := c || st == 0 || st == 1 || st == 3
  let s := s.when (s.is TT_STATUS.degraded != d) (·.raise TT_EVENTS.degraded_change)
  (s.setB TT_STATUS.clock_degraded c).setB TT_STATUS.degraded d

/-- R80: the selected source is the recovered clock of the slave port's lane. -/
def phaseOnly (s : State) : Bool := s.get CLK_STATUS.selected < 8 && s.get CLK_STATUS.selected == s.get TT_STATUS.slave_port
/-- TT_STATUS.phase_only follows R80; on the edge on which HW mode becomes phase-only in REF mode, P becomes the nominal REF value. -/
def showPhase (s : State) : State :=
  let enters := phaseOnly s && !s.is TT_STATUS.phase_only && !s.ha 1 && s.get CLK_STATUS.mode == mREF && !s.is CLK_STATUS.glide
  (s.setB TT_STATUS.phase_only (phaseOnly s)).when enters (·.setP (nominalP s mREF))

/-- The trim reference is lost: the ring keeps its trim and counts as PROVEN (R52). -/
def trimLost (s : State) : State :=
  if 2 ≤ s.get CLK_RING.state then
    let s := s.withClk { s.clk with estAtLoss := s.get CLK_RING.error_ppm, acq := 0 }
    (s.set CLK_RING.state 1).set CLK_RING.error_ppm 0
  else s

/-- A lane, REFIN or HREF has become selected: a PROVEN ring starts to acquire (Table CLK-2). A TRIMMED ring stays TRIMMED when
the loop goes from one reference to another, for which the table has no row (log 118, DESIGN CHOICE). -/
def ringFollow (s : State) : State :=
  if s.get CLK_RING.state == 1 && s.get CLK_STATUS.selected < 0x0A then
    (s.set CLK_RING.state 2).withClk { s.clk with acq := 10 }
  else s

/-- A source enters FAILED (Table CLK-3). -/
def failSource (i cause : Nat) (s : State) : State :=
  if s.get (CLK_SRC_STAT.state i) == 1 || s.get (CLK_SRC_STAT.state i) == 2 then
    let sel := s.is (CLK_SRC_STAT.selected i)
    let s := ((s.set (CLK_SRC_STAT.state i) 3).set (CLK_SRC_STAT.fail_cause i) cause).set (CLK_SRC_STAT.pass_count i) 0
    let s := s.withClk { s.clk with
      noEdge := updAt s.clk.noEdge i (fun _ => 0), sinceFail := updAt s.clk.sinceFail i (fun _ => 0),
      held := updAt s.clk.held i (fun _ => false), failedNow := s.clk.failedNow || sel }
    let s := (s.raise CLK_EVENTS.ref_fail).fault 0x20 i (BitVec.ofNat 32 cause)
    s.when (sel && i < 0x0A) trimLost
  else s

/-- A source enters PROVEN (Table CLK-3). -/
def proveSource (i : Nat) (s : State) : State :=
  let s := s.set (CLK_SRC_STAT.state i) 2
  let s := s.withClk { s.clk with provenAt := updAt s.clk.provenAt i (fun _ => s.now) }
  s.raise CLK_EVENTS.ref_proven

/-- Whether a source may be chosen: PROVEN, and not waiting for its first gate after a ring restart (R66). -/
def selectable (s : State) (i : Nat) : Bool := s.get (CLK_SRC_STAT.state i) == 2 && !atD s.clk.held i false

/-- The highest-priority listed source that may be chosen. -/
def bestSource (s : State) : Option Nat := (refList s).find? (selectable s)

/-- Counts watch cycles: the power-on tick count and the watchdog backstops (R421). -/
def watchPass (n : Nat) (s : State) : State :=
  let s := s.setPair DRZ_TICK_LO (s.pair DRZ_TICK_LO + n)
  { s with flt := { s.flt with backstop := Vector.ofFn (fun (t : Fin 24) =>
      if (s.tiles[t]).held then s.flt.backstop[t] else s.flt.backstop[t] - n) } }

/-- R66: the ring fails a watch check and restarts in UNPROVEN. -/
def ringRestart (s : State) : State :=
  let s := trimLost s
  let s := (s.set CLK_RING.state 0).raise CLK_EVENTS.ring_fail
  s.withClk { s.clk with
    held := Vector.ofFn (fun (i : Fin 11) => s.get (CLK_SRC_STAT.state i) == 2), firstGate := false }

/-- R51: a watch check of 64 watch cycles ends with `count` ring cycles. -/
def watchCheck (count : Nat) (s : State) : State :=
  let s := watchPass 64 s
  if 1600 ≤ count && count ≤ 2400 then
    let s := s.withClk { s.clk with passed := true }
    let s := s.when (s.get CLK_RING.state == 0) (fun s =>
      let s := (s.set CLK_RING.state 1).withClk { s.clk with firstGate := true, lullRing := false }
      ringFollow s)
    -- R67: in hold, rung 3 follows the pass in HW and HA mode alike
    s.when (s.clk.hold != 0) (·.rungDue 3 0 3)
  else ringRestart s

/-- One source's judgement at the end of a gate (R53, R54): `edges` counted and the lane's lock, by the ring's state and error at
the gate. A lane has no link where its port is disabled, its clock recovery reports loss of lock, its domain is off, or its link has
gone down since the last gate (R262); a link that has never come up is none of these, or a node without a board reference could
not prove a lane (R69; log 149, DEDUCED). A REFIN whose count identifies no nominal frequency fails in PROVING with the cause of a
missing edge, for which R53 names no test (log 150, DESIGN CHOICE). -/
def judgeSource (ring : Nat) (est : Int) (i edges : Nat) (link : Bool) (s : State) : State :=
  let noLink := i < 8 && (s.get (PORT_CFG.role i) == 0 || !link || !domOn s (domLane i) || atD s.clk.linkDown i false)
  let nom : Int := (nominal16 s i).getD 0
  let dev : Int := 16 * edges * 1000000 - nom * (1000000 - (if ring == 3 then est else 0))
  let cause : Nat :=
    if noLink then 4
    else if (nominal16 s i).isNone then 1
    else if ring == 3 && nom * 200 < dev.natAbs then 2
    else if (ring == 1 || ring == 2) && nom * 150000 < dev.natAbs then 3
    else 0
  -- an edge count exists only where the source is present
  let s := s.when (ring != 0 && nom != 0) (fun s =>
    s.set (CLK_SRC_STAT.deviation_ppm i) (toBits 16 (clampS 16 (dev.tdiv nom))))
  let s := s.withClk { s.clk with sinceFail := updAt s.clk.sinceFail i (· + 1) }
  let s := s.withClk { s.clk with noEdge := updAt s.clk.noEdge i (fun n => if edges == 0 then n + 1 else 0) }
  match s.get (CLK_SRC_STAT.state i) with
  | 0 => s.when (edges != 0 && !noLink) (fun s => (s.set (CLK_SRC_STAT.state i) 1).set (CLK_SRC_STAT.pass_count i) 0)
  | 1 =>
    if ring == 0 then s
    else if cause != 0 then failSource i cause s
    else
      let s := s.set (CLK_SRC_STAT.pass_count i) (min 8 (s.get (CLK_SRC_STAT.pass_count i) + 1))
      s.when (s.get (CLK_SRC_STAT.pass_count i) == 8) (proveSource i)
  | 2 =>
    if ring == 0 then s
    else if cause != 0 then failSource i (if atD s.clk.held i false then 6 else cause) s
    else
      let s := s.set (CLK_SRC_STAT.pass_count i) (min 8 (s.get (CLK_SRC_STAT.pass_count i) + 1))
      s.withClk { s.clk with held := updAt s.clk.held i (fun _ => false) }
  | _ =>
    if 16 ≤ atD s.clk.noEdge i 0 then s.set (CLK_SRC_STAT.state i) 0
    else s.when (16 ≤ atD s.clk.sinceFail i 0 && edges != 0 && !noLink) (fun s =>
      (s.set (CLK_SRC_STAT.state i) 1).set (CLK_SRC_STAT.pass_count i) 0)

/-- R52: the ring's search or tracking at a gate, with the code and error the device arrives at. The search settles one bit of
the code per gate, the highest first; where its 10th gate ends with more than 0.05 % the ring stays ACQUIRING and every
later gate tests again, on which the spec is silent (log 119, DESIGN CHOICE). In TRIMMED the error is within 0.05 % (R50), the
code moves by at most one step, and the fine part takes up that step but for at most 2 ppm. -/
def ringGate (trim est : Nat) (s : State) : State :=
  let old := s.get CLK_RING.trim
  match s.get CLK_RING.state with
  | 2 =>
    let bit := s.clk.acq - 1
    let new := if s.clk.acq == 0 then old else old - old / 2 ^ bit % 2 * 2 ^ bit + trim / 2 ^ bit % 2 * 2 ^ bit
    let s := (s.set CLK_RING.trim new).withClk { s.clk with acq := s.clk.acq - 1 }
    if s.clk.acq == 0 && (signedN 16 est).natAbs ≤ 500 then
      ((s.set CLK_RING.state 3).set CLK_RING.error_ppm est).raise CLK_EVENTS.ring_trimmed
    else s
  | 3 =>
    let new := if trim ≤ old + 1 && old ≤ trim + 1 then trim else old
    let err := max (-500) (min 500 (signedN 16 est))
    let move := max (-2) (min 2 (-err))
    let s := s.withClk { s.clk with fine := s.clk.fine + move - (Config.ringCode new - Config.ringCode old) }
    (s.set CLK_RING.trim new).set CLK_RING.error_ppm (toBits 16 err)
  | _ => s

/-- R71 step 3: the coarse count of a gate identifies REFIN's frequency for the boot list: the code of Table INV-4 whose nominal
count is the nearest, within 15 % (log 38). -/
def identifyRefin (edges : Nat) (s : State) : State :=
  let near := fun (n : Nat) => ((edges : Int) - n).natAbs
  let codes := [(0, 25000), (1, 100000), (2, 125000), (3, 156250)].filter (fun e => near e.2 * 100 ≤ 15 * e.2)
  match codes.find? (fun e => codes.all (fun f => near e.2 ≤ near f.2)) with
  | some (c, _) =>
    if s.is CLK_STATUS.boot_list && s.get CLK_REF_CFG.refin_freq == 0xFF && s.get CLK_RING.state != 0 then
      (s.set CLK_REF_CFG.refin_freq c).withClk { s.clk with bootRefin := c }
    else s
  | none => s

/-- R53: the monitor's judgement at the end of a gate: per source the edges counted, the lanes' links, the watch cycles
counted, and the ring's trim code and error as the device sets them. R68 is raised by the second of consecutive bad gates and not again by the
third and later ones, on which it is silent (log 151, DESIGN CHOICE). -/
def monitorGate (edges : Vector Nat 11) (links : BitVec 8) (watch trim est : Nat) (s : State) : State :=
  let ring := s.get CLK_RING.state
  let s := identifyRefin edges[8] s
  let ringErr := signedN 16 (s.get CLK_RING.error_ppm)
  let s := s.forEach (List.finRange 11) (fun i => judgeSource ring ringErr i edges[i] (links.getLsbD i))
  let s := ringGate trim est s
  let wbad := ring == 3 && (watch < 7520 || 8480 < watch)
  let s := s.withClk { s.clk with
    gates := s.clk.gates + 1, firstGate := false, linkDown := Vector.replicate 8 false, watchBad := if wbad then s.clk.watchBad + 1 else 0 }
  s.when (wbad && s.clk.watchBad == 2) (fun s => (s.raise CLK_EVENTS.watch_fail).fault 0x24 0 0)

/-- The meaning of MONITOR_GATE; in clock-fault hold only the missing-edge tests and watch checks go on (Table CLK-8). -/
def execMonitorGate (edges : Vector Nat 11) (links : BitVec 8) (watch trim est : Nat) (s : State) : Outcome :=
  .next (if s.clk.hold == 0 then monitorGate edges links watch trim est s else s)

/-- The meaning of MISSING_EDGE (R53). -/
def execMissingEdge (src : Fin 11) (s : State) : Outcome := .next (failSource src 1 s)

/-- Records a switch or a Lull entry in CLK_LAST_SWITCH. -/
def lastSwitch (src dst cause : Nat) (s : State) : State :=
  s.setN CLK_LAST_SWITCH (src + 256 * dst + 65536 * cause)

/-- R69: while a lane, REFIN or HREF is selected, the transmit loop of every lane that is on locks to it. -/
def lanesLock (s : State) : State :=
  s.when (s.get CLK_STATUS.selected < 0x0A) (fun s => s.withClk { s.clk with
    txLocked := Vector.ofFn (fun (p : Fin 8) => s.clk.txLocked[p] || domOn s (domLane p)) })

/-- R58: a switch starts; the loop's control is held. In START the old source is the ring; only from Lull there is none. -/
def startSwitch (dst cause : Nat) (s : State) : State :=
  let m := s.get CLK_STATUS.mode
  let sel := s.get CLK_STATUS.selected
  let old := if m == mLULL then noSource else if m == mSTART then 0x0A else sel
  let s := (lastSwitch (if m == mSTART then noSource else old) dst cause (lanesLock s)).raise CLK_STATUS.switching
  s.withClk { s.clk with switch := some ⟨old, dst, cause, false⟩ }

/-- A source is no longer in use by the loop. -/
def deselect (s : State) : State :=
  s.forEach (List.range 11) (fun i s => s.set (CLK_SRC_STAT.selected i) 0)

/-- A glide begins towards mode `m` (R49). One that begins while another runs starts from the nominal frequency of the mode, not
from the step reached, on which the spec is silent (log 117, DESIGN CHOICE). -/
def startGlide (src dst m : Nat) (s : State) : State :=
  let s := (s.raise CLK_STATUS.glide).set CLK_STATUS.spread_active 0
  let s := s.raise CLK_STATUS.degraded
  let s := s.withClk { s.clk with glideLeft := 8192, glideFrom := src, glideTo := dst, glideMode := m, divD := 256 }
  (s.setP (glideP src dst 0)).refreshDegraded

/-- The nominal core frequency of a mode in kHz (Table CLK-1). -/
def modeKHz (m : Nat) : Nat := if m == mREF then 750000 else if m == mLULL then 300000 else 375000

/-- R62: entry to Lull, edges 0 to 2 of Table CLK-7. -/
def lullEntry (s : State) : State :=
  let m := s.get CLK_STATUS.mode
  let sel := s.get CLK_STATUS.selected
  let s := trimLost (deselect (lanesLock s))
  let s := ((lastSwitch sel noSource 4 s).setPair CLK_SWITCH_TT_LO s.now).bump CLK_COUNTS.switches
  let s := showPhase (((s.raise CLK_STATUS.lull).set CLK_STATUS.mode mLULL).set CLK_STATUS.selected noSource)
  -- the records of one edge are written in ascending code order (R418): those of the groups that go SAFE come first
  let s := (voteLull (s.raise CLK_EVENTS.lull_enter)).fault 0x22 0 0
  let s := s.setN CLK_PERIOD_MEAS 0
  let s := startGlide (modeKHz m) (modeKHz mLULL) mLULL s
  s.withClk { s.clk with lullAt := some (s.clk.edges + 3) }

/-- R55, R445: what the loop does on a decision edge. With the ring UNPROVEN a selected source that is PROVEN and no longer listed
counts as a failed one, so that Lull is entered under R66 (log 152, DESIGN CHOICE). -/
def sourceDecision (s : State) : State :=
  let m := s.get CLK_STATUS.mode
  let sel := s.get CLK_STATUS.selected
  let s1 := s.withClk { s.clk with failedNow := false }
  if s.is CLK_STATUS.switching || s.clk.hold != 0 then s
  else if m == mSTART then
    match (refList s).find? (fun i => i != 0x0A && selectable s i) with
    | some i => startSwitch i 5 s1
    | none => s1
  else if m != mLULL && (refList s).contains sel && s.get (CLK_SRC_STAT.state sel) == 2 then s1
  else if m != mLULL && s.get CLK_RING.state == 0 then
    let s := lullEntry s1
    (s.raise CLK_EVENTS.hold_verdict).withClk { s.clk with lullRing := true }
  else match bestSource s with
    | some i => startSwitch i (if m == mLULL then 3 else if (refList s).contains sel then 0 else 5) s1
    | none => if m == mLULL then s1 else lullEntry s1

/-- The meaning of SOURCE_DECISION. -/
def execSourceDecision (s : State) : Outcome := .next (sourceDecision s)

/-- The sources ahead of the one in use that have stayed PROVEN for the hold-off (R55), since the last change of split entry 0
(R57). The milliseconds are counted in train time, on which the spec is silent (log 120, DESIGN CHOICE). -/
def heldOff (s : State) : Option Nat :=
  let sel := s.get CLK_STATUS.selected
  let ms := s.get CLK_CTRL.revert_holdoff_ms
  if ms == 0 then none
  else ((refList s).takeWhile (· != sel)).find? (fun i =>
    selectable s i && s.due (max (atD s.clk.provenAt i 0) s.clk.holdFrom + ms * 1000000))

/-- R55: the hold-off of a higher-priority source ends. -/
def revertHoldoff (s : State) : State :=
  let sel := s.get CLK_STATUS.selected
  let m := s.get CLK_STATUS.mode
  if s.ha 0 || s.is CLK_STATUS.switching || !(m == mREF || m == mRING) || s.get (CLK_SRC_STAT.state sel) != 2 then s
  else match heldOff s with
    | some i => startSwitch i 1 s
    | none => s

/-- The meaning of REVERT_HOLDOFF. -/
def execRevertHoldoff (s : State) : Outcome := .next (revertHoldoff s)

/-- R56: the result of a CLK_SELECT write, in the order of its codes. -/
def selectResult (src : Nat) (s : State) : Nat :=
  if !s.ha 0 then 3
  else if s.is CLK_STATUS.switching || s.is CLK_STATUS.glide || s.clk.failedNow || s.get CLK_STATUS.mode == mSTART then 4
  else if !(refList s).contains src then 2
  else if s.get CLK_STATUS.selected == src then 5
  else if !selectable s src then 1
  else 0

/-- R56: a write of CLK_SELECT. -/
def clkSelect (m : Master) (v : Word) (s : State) : State :=
  if !devWriter m then s
  else
    let src := bitsOf v 0 8
    let r := selectResult src s
    (s.set CLK_STATUS.select_result r).when (r == 0) (startSwitch src 2)

/-- The meaning of CLK_SELECT. -/
def execClkSelect (m : Master) (v : Word) (s : State) : Outcome := .next (inCore (clkSelect m v) s)

/-- R58, R59: the new gate opens and realigns the feedback divider. -/
def switchDone (s : State) : State :=
  match s.clk.switch with
  | none => s
  | some w =>
    let m := s.get CLK_STATUS.mode
    if w.dst == watchOsc then (s.set CLK_STATUS.switching 0).withClk { s.clk with switch := none } else
    let s := (deselect s).set CLK_STATUS.selected w.dst
    let s := (s.set (CLK_SRC_STAT.selected w.dst) 1).set CLK_STATUS.switching 0
    let s := ((s.setPair CLK_SWITCH_TT_LO s.now).bump CLK_COUNTS.switches).raise CLK_EVENTS.switched
    let s := (s.withClk { s.clk with switch := none }).progress 0
    let s := if w.dst == 0x0A then trimLost s else lanesLock (ringFollow s)
    -- R57: a target that has failed meanwhile is lost from this edge on
    let lost := s.get (CLK_SRC_STAT.state w.dst) != 2
    let s := showPhase (s.when lost (fun s => trimLost (s.withClk { s.clk with failedNow := true })))
    let m' := if w.dst == 0x0A then mRING else mREF
    if m == m' then s
    else
      let s := s.set CLK_STATUS.mode m'
      let up := modeKHz m < modeKHz m'
      -- R215: a glide up ends a conversion run in progress
      (startGlide (modeKHz m) (modeKHz m') m' s).when up adcClockAbort

/-- The meaning of REFERENCE_SWITCH_DONE. -/
def execReferenceSwitchDone (s : State) : Outcome := .next (switchDone s)

/-- R58, R59: edge 4 finds no falling edge of the old source. Only the switch that leaves Lull has none; that of clock-fault hold has
the core clock as its old source, from Lull too (log 122). -/
def deadswitch (s : State) : State :=
  match s.clk.switch with
  | none => s
  | some w =>
    if w.dead || (w.src == noSource && w.dst != watchOsc) then s
    else
      let s := (s.raise CLK_LAST_SWITCH.deadswitch).bump CLK_COUNTS.deadswitches
      let s := (s.raise CLK_EVENTS.deadswitch).fault 0x21 w.src (s.reg CLK_LAST_SWITCH)
      s.withClk { s.clk with switch := some { w with dead := true } }

/-- The meaning of DEADSWITCH. -/
def execDeadswitch (s : State) : Outcome := .next (deadswitch s)

/-- Spread starts over from the first cycle of a profile (R60). -/
def spreadStart (s : State) : State :=
  let on := s.get CLK_STATUS.mode == mREF && s.get CLK_REF_CFG.spread_depth != 0
  (s.setB CLK_STATUS.spread_active on).withClk
    { s.clk with acc := 0, prof := 0, lfsr := 0x7FFF, segFrom := 0, segTo := 0, divD := 256 }

/-- R49, R64, R65: a glide ends. -/
def glideEnd (s : State) : State :=
  if s.is CLK_STATUS.glide && s.clk.glideLeft == 0 then
    let m := s.clk.glideMode
    let s := (s.set CLK_STATUS.glide 0).progress 0
    let s := s.when (m != mLULL && s.is CLK_STATUS.lull) (fun s =>
      edgeLull false ((s.set CLK_STATUS.lull 0).raise CLK_EVENTS.lull_exit))
    let s := s.setB CLK_STATUS.degraded (m != mREF)
    (spreadStart (s.setP (nominalP s m))).refreshDegraded
  else s

/-- The meaning of GLIDE_END. -/
def execGlideEnd (s : State) : Outcome := .next (glideEnd s)

/-- R63: the core period measured over 4096 core cycles, in units of 2^-16 ns. -/
def periodMeasure (period : BitVec 24) (s : State) : State :=
  if s.get CLK_STATUS.mode == mLULL && !s.is CLK_STATUS.glide && s.get CLK_RING.state != 0 then
    let s := (s.set CLK_PERIOD_MEAS.period period.toNat).raise CLK_PERIOD_MEAS.valid
    s.setP (nominalP s mLULL)
  else s

/-- The meaning of PERIOD_MEASURE. -/
def execPeriodMeasure (period : BitVec 24) (s : State) : Outcome := .next (periodMeasure period s)

/-- R67: a further 100 ms pass without a passed watch check; the ladder takes rung 4 in either mode, within R413's limit. -/
def holdTimeout (s : State) : State := s.when (s.clk.hold != 0 && s.get CLK_RING.state == 0) (·.rung4 0 3)

/-- The meaning of HOLD_TIMEOUT. -/
def execHoldTimeout (s : State) : Outcome := .next (holdTimeout s)

/-- R53: the loop reports loss of lock; the third report within 1000 gates fails the selected source. -/
def lossOfLock (s : State) : State :=
  let sel := s.get CLK_STATUS.selected
  if sel == noSource then s.raise CLK_EVENTS.loop_slip
  else
    let s := s.raise CLK_EVENTS.loop_slip
    let slips := (sel, s.clk.gates) :: s.clk.slips.filter (fun g => s.clk.gates < g.2 + 1000)
    let s := s.withClk { s.clk with slips := slips }
    s.when (3 ≤ (slips.filter (·.1 == sel)).length && s.get CLK_RING.state != 0) (fun s =>
      failSource sel 5 (s.withClk { s.clk with slips := slips.filter (·.1 != sel) }))

/-- The meaning of LOOP_LOSS_OF_LOCK. -/
def execLoopLossOfLock (s : State) : Outcome := .next (lossOfLock s)

/-! ### The spread modulator and one core cycle (R60, R61) -/

/-- Profile lengths (Table CLK-6). -/
def profileM (rate : Nat) : Nat :=
  match rate with
  | 0 => 31250
  | 1 => 25000
  | 2 => 18750
  | 3 => 15625
  | 4 => 12500
  | 5 => 10000
  | 6 => 7500
  | _ => 6250

/-- The excursion E in units of 2^-16, rounded down (R60). -/
def excursion (depth : Nat) : Nat := 256 * 65536 * depth / (800 - depth)

/-- One step of the register x^15 + x^14 + 1 (R60, log 32). -/
def lfsrStep (x : Nat) : Nat := (2 * x + (x / 2 ^ 14 + x / 2 ^ 13) % 2) % 2 ^ 15

/-- R60: one core cycle of the modulator: sets the cycle's D. E × w(i) is rounded down to the accumulator's 16 bits of fraction,
which R60 says of E only (log 121, DESIGN CHOICE). -/
def spreadCycle (s : State) : State :=
  if s.is CLK_STATUS.spread_active then
    let m := profileM (s.get CLK_REF_CFG.spread_rate)
    let e := excursion (s.get CLK_REF_CFG.spread_depth)
    let i := s.clk.prof
    let random := s.is CLK_REF_CFG.spread_profile
    let seg := min 15 (i / (m / 16))
    let j := i - seg * (m / 16)
    let len := if seg == 15 then m - 15 * (m / 16) else m / 16
    let c := if random && j == 0 then
        let x := lfsrStep s.clk.lfsr
        { s.clk with lfsr := x, segFrom := s.clk.segTo, segTo := x % 16 }
      else s.clk
    -- T(i) − 256 in units of 2^-16
    let w : Nat := if random then
        e * (c.segFrom * len + c.segTo * (j + 1) - c.segFrom * (j + 1)) / (15 * len)
      else e * (m - (2 * (i : Int) - m).natAbs) / m
    let acc := c.acc + w % 65536
    s.withClk { c with
      divD := 256 + w / 65536 + (if 65536 ≤ acc then 1 else 0), acc := acc % 65536, prof := if i + 1 == m then 0 else i + 1 }
  else s.withClk { s.clk with divD := 256 }

/-- One core cycle of a glide: the period follows the 64 steps, each on its 128 cycles (R49). -/
def glideCycle (s : State) : State :=
  if s.is CLK_STATUS.glide && s.clk.glideLeft != 0 then
    let left := s.clk.glideLeft - 1
    let s := s.withClk { s.clk with glideLeft := left }
    s.setP (glideP s.clk.glideFrom s.clk.glideTo ((8192 - left) / 128))
  else s

end Sys2Proof.Machine
end

