-- ==== Sys2Proof/Machine/TrainTime.lean ====
section
/-!
DEFINITION. Sys2Proof/Machine/TrainTime.lean: the time base, the servo, steps and slews, latches, write stages and SNAP
units of "Train time" (R73 to R90).
-/
namespace Sys2Proof.Machine

/-- Changes the time base's hidden state. -/
def State.withTt (s : State) (t : TtH) : State := { s with tt := t }

/-- Units of 2^-84 ns in 2^-8 ns. -/
def slewUnit : Nat := 2 ^ 76

/-- TT_SLEW_LEFT and TT_STATUS.slewing show the slew left (R81). -/
def showSlew (s : State) : State :=
  (s.setN TT_SLEW_LEFT (toBits 32 (clampS 32 (s.tt.slew.tdiv slewUnit)))).setB TT_STATUS.slewing (s.tt.slew != 0)

/-- R81: starts a slew that removes `a` units of 2^-8 ns, in place of any other; `host` says whose rate it runs at. -/
def startSlew (a : Int) (host : Bool) (s : State) : State :=
  showSlew (s.withTt { s.tt with slew := a * slewUnit, slewHost := host })

/-- A slew at slew_max (R83). -/
def slewMax (a : Int) (s : State) : State := startSlew a false s

/-- R78: the time stamp of an instant `k` eighths of the present cycle after its edge, in units of 2^-8 ns. It is taken at the
balls, so that no lane latency is in it. -/
def stampAt (s : State) (k : Nat) : Int := ((s.tt.t + s.ttInc * k / 8) / slewUnit : Nat)
/-- The time stamp of that instant in whole ns. -/
def stampNs (s : State) (k : Nat) : Nat := (s.tt.t + s.ttInc * k / 8) / 2 ^ 84
/-- R78: the time stamp of a message sent now, whose place in the cycle the spec leaves open. -/
def stampSent (s : State) : Int × State := (stampAt s (s.freeNat % 8), s.drawn)

/-- R74, R81: one core edge adds inc + s to TT. -/
def ttCycle (s : State) : State :=
  let (adv, slew) := s.ttAdvance
  let moved := slew != s.tt.slew
  let s := s.withTt { s.tt with t := (((s.tt.t : Int) + adv) % (2 ^ 148 : Int)).toNat, slew := slew, last := s.tt.t }
  s.when moved showSlew

/-- R82: adds whole nanoseconds to TT on one edge and clears any slew. The instant of the last Sync moves with TT, so that the
intervals of R83 are counted from it as time passes (log 153, DEDUCED). -/
def stepTt (d : Int) (s : State) : State :=
  let t := ((s.tt.t : Int) + d * (2 ^ 84 : Int)) % (2 ^ 148 : Int)
  let s := edgeStep d (s.withTt { s.tt with
    t := t.toNat, slew := 0, lastSync := (((s.tt.lastSync : Int) + d) % (2 ^ 64 : Int)).toNat })
  (showSlew s).raise TT_EVENTS.step_taken

/-- A step is permitted while Frost holds or TT has never been synchronised (R82). -/
def stepPermitted (s : State) : Bool := s.frost || !s.is TT_STATUS.ever_synced

/-- TT_STATUS.step_permitted follows R82. -/
def showPermit (s : State) : State := s.setB TT_STATUS.step_permitted (stepPermitted s)

/-- R83: a step by −offset, the fraction below 1 ns being removed by a slew that starts on the step edge. -/
def stepByOffset (off : Int) (s : State) : State :=
  let ns := off.tdiv 256
  let s := stepTt (-ns) s
  s.when (off - ns * 256 != 0) (slewMax (off - ns * 256))

/-- Table TT-2, state ACQUIRE: what a Sync of this offset does. Half an odd offset is rounded toward zero (log 124, DESIGN
CHOICE). -/
def servoAcquire (off : Int) (s : State) : State :=
  let thr := s.get TT_CTRL.step_threshold_us * 256000
  let s := s.set TT_STATUS.state 1
  if thr < off.natAbs then
    let s := s.withTt { s.tt with good := 0 }
    if stepPermitted s then stepByOffset off s else (slewMax off s).raise TT_EVENTS.step_far
  else
    let good := if off.natAbs ≤ s.get TT_CTRL.lock_ns * 256 then s.tt.good + 1 else 0
    let s := slewMax (off.tdiv 2) (s.withTt { s.tt with good := good, bad := 0 })
    s.when (4 ≤ good) (fun s => (s.set TT_STATUS.state 2).raise TT_EVENTS.locked)

/-- Table TT-2: what an applied Sync does to the servo in HW mode. The first Sync, taken in FREE, is none of the four of ACQUIRE's last
row, on which R83 is silent (log 154, DESIGN CHOICE). -/
def servoSync (off : Int) (s : State) : State :=
  match s.get TT_STATUS.state with
  | 0 =>
    let s := s.withTt { s.tt with good := 0, bad := 0 }
    let s := if stepPermitted s then stepByOffset off s else (slewMax off s).raise TT_EVENTS.step_far
    s.set TT_STATUS.state 1
  | 2 =>
    if off.natAbs ≤ s.get TT_CTRL.lock_ns * 256 then
      slewMax (off.tdiv 2) (s.withTt { s.tt with bad := 0 })
    else if s.tt.bad == 0 then slewMax (off.tdiv 2) (s.withTt { s.tt with bad := 1 })
    else servoAcquire off ((s.withTt { s.tt with good := 0, bad := 0 }).raise TT_EVENTS.unlocked)
  | 3 => servoAcquire off (s.withTt { s.tt with good := 0, bad := 0 })
  | 4 => s
  | _ => servoAcquire off s

/-- R80: HW mode's P after a Sync: nominal in phase-only mode, else scaled by the mean of the last 8 rateRatios. -/
def servoPeriod (s : State) : State :=
  let m := s.get CLK_STATUS.mode
  if !(m == mREF || m == mRING) || s.is CLK_STATUS.glide then s
  else if s.is TT_STATUS.phase_only then s.setP (nominalP s mREF)
  else
    let n : Int := s.tt.ratios.length
    let p : Int := nominalP s m
    s.setP ((p * (n * 2 ^ 41 + s.tt.ratios.sum)) / (n * 2 ^ 41)).toNat

/-- R79: offset of a Sync in units of 2^-8 ns. -/
def syncOffset (rx origin corr : Int) (port : Nat) (s : State) : Int :=
  rx - (origin * 256 + corr + s.regN (TT_PORT_DELAY port) + signedN 32 (s.regN (TT_PORT_ASYM port)))

/-- R80, R84: rateRatio − 1 to the grandmaster in units of 2^-41: the sender's, with the neighborRateRatio of the slave port;
exactly 0 in phase-only mode (log 126). -/
def rateRatio (port : Nat) (cum : Int) (s : State) : Int := if phaseOnly s then 0 else cum + (atD s.net.port port PortH.reset).nrr

/-- R79 to R84: a Sync received on the slave port, its message timestamp point `eighth` eighths after the present edge.  `corr` in
units of 2^-8 ns, `origin` in ns, `cum` the sender's rateRatio − 1 in units of 2^-41, `interval` the announced sync interval in
ns. -/
def syncReceive (port : Fin 8) (eighth : Fin 8) (origin corr cum : Int) (interval seqId : Nat) (s : State) : State :=
  if s.get TT_STATUS.slave_port != port.val || s.tt.gm || s.regN (TT_PORT_DELAY port) == 0xFFFFFFFF ||
      (!s.ha 1 && s.get TT_STATUS.state == 4) || !live s then s
  else
    let rx := stampAt s eighth
    let ratio := rateRatio port cum s
    let off := syncOffset rx origin corr port s
    let s := s.setN TT_OFFSET (toBits 32 (clampS 32 off))
    let s := s.setN TT_RATE (toBits 32 (clampS 32 (ratio / 512)))
    let s := ((s.set TT_SYNC.sequence_id seqId).set TT_SYNC.port port).bump TT_SYNC.count
    let s := (s.withTt { s.tt with
      ratios := (ratio :: s.tt.ratios).take 8, interval := interval, lastSync := s.now,
      relay := some ⟨port, rx, origin * 256, corr, ratio⟩ }).progress 1
    -- Table TT-7: ever_synced rises with any Sync applied in HW mode
    if s.ha 1 then s.withTt { s.tt with good := 0, bad := 0 }
    else showPermit ((servoPeriod (servoSync off s)).raise TT_STATUS.ever_synced).refreshDegraded

/-- The meaning of SYNC_RECEIVE. -/
def execSyncReceive (port : Fin 8) (eighth : Fin 8) (origin corr cum : Int) (interval seqId : Nat) (s : State) : Outcome :=
  .next (syncReceive port eighth origin corr cum interval seqId s)

/-- R84: what the Follow_Up of a Sync sent at `tx` carries: the origin, the correction and rateRatio − 1; the grandmaster's own TT,
or the Sync applied last with the delay of its link and the residence time (log 126). -/
def followUp (tx : Int) (s : State) : List Int :=
  match s.tt.gm, s.tt.relay with
  | false, some r =>
    let link := s.regN (TT_PORT_DELAY r.port) + signedN 32 (s.regN (TT_PORT_ASYM r.port))
    [r.origin, r.corr + link + (tx - r.rx) * (2 ^ 41 + r.ratio) / 2 ^ 41, r.ratio]
  | _, _ => [tx / 256 * 256, tx % 256, 0]

/-- R83: no Sync applied for three sync intervals. -/
def syncTimeout (s : State) : State :=
  let st := s.get TT_STATUS.state
  if live s && !s.ha 1 && (st == 1 || st == 2) && s.due (s.tt.lastSync + 3 * s.tt.interval) then
    let s := ((s.set TT_STATUS.state 3).raise TT_EVENTS.holdover).when (st == 2) (·.raise TT_EVENTS.unlocked)
    (s.fault 0x25 (s.get TT_STATUS.slave_port) (s.reg TT_OFFSET)).refreshDegraded
  else s

/-- The meaning of SYNC_TIMEOUT. -/
def execSyncTimeout (s : State) : Outcome := .next (syncTimeout s)

/-- GRANDMASTER_CHANGE (R83): best-master selection makes this node grandmaster, or ends that. -/
def grandmasterChange (gm : Bool) (s : State) : State :=
  if gm == s.tt.gm then s
  else
    let s := (s.withTt { s.tt with gm := gm }).raise TT_EVENTS.grandmaster
    let s := if s.ha 1 then s
      else if gm then
        let s := s.when (s.get TT_STATUS.state == 2) (·.raise TT_EVENTS.unlocked)
        let s := showSlew (s.withTt { s.tt with slew := 0 })
        let s := if s.is CLK_STATUS.glide then s else s.setP (nominalP s (s.get CLK_STATUS.mode))
        s.set TT_STATUS.state 4
      else (s.set TT_STATUS.state 1).withTt { s.tt with good := 0, bad := 0 }
    s.refreshDegraded

/-- R81, R84: a write of TT_SLEW_AMOUNT. -/
def ttSlewAmount (m : Master) (v : Word) (s : State) : State :=
  if devWriter m && s.ha 1 && live s then startSlew v.toInt true s else s

/-- The meaning of TT_SLEW_AMOUNT. -/
def execTtSlewAmount (m : Master) (v : Word) (s : State) : Outcome := .next (ttSlewAmount m v s)

/-- R82, R84: a committed step request, with the result in TT_STEP_STATUS; in HW mode the written value is ignored. -/
def ttStep (m : Master) (amount : BitVec 64) (s : State) : State :=
  if !devWriter m || !live s then s
  else if !s.ha 1 then s.set TT_STEP_STATUS.result 2
  else
    let s := s.setPair TT_STEP_LO amount.toNat
    if !stepPermitted s then (s.set TT_STEP_STATUS.result 1).raise TT_EVENTS.step_far
    else stepTt amount.toInt (s.set TT_STEP_STATUS.result 0)

/-- The meaning of TT_STEP. -/
def execTtStep (m : Master) (amount : BitVec 64) (s : State) : Outcome := .next (ttStep m amount s)

/-- R84, Table TT-9: a write of TT_CTRL.ha_state; the servo takes it in HA mode only, and codes 5 to 7 leave the field. -/
def haStateWrite (m : Master) (code : BitVec 3) (s : State) : State :=
  if !devWriter m || s.is TT_CTRL.lock || !s.ha 1 || 5 ≤ code.toNat || !live s then s
  else
    let old := s.get TT_STATUS.state
    let s := (s.set TT_CTRL.ha_state code.toNat).set TT_STATUS.state code.toNat
    let s := s.withTt { s.tt with good := 0, bad := 0 }
    let s := s.when (code != 0) (·.raise TT_STATUS.ever_synced)
    let s := s.when (old != 2 && code == 2) (·.raise TT_EVENTS.locked)
    let s := s.when (old == 2 && code != 2) (·.raise TT_EVENTS.unlocked)
    let s := s.when (old != 3 && code == 3) (·.raise TT_EVENTS.holdover)
    let s := s.when ((old == 4) != (code == 4)) (·.raise TT_EVENTS.grandmaster)
    (showPermit s).refreshDegraded

/-- The meaning of HA_STATE_WRITE. -/
def execHaStateWrite (m : Master) (code : BitVec 3) (s : State) : Outcome := .next (haStateWrite m code s)

/-- The counter of the edge channel with code 16c + k, as a capture sees it (R89). -/
def channelCounter (code : Nat) (s : State) : Nat := edgeCount code s

/-- R89: a write of TT_SNAP_CTRL: valid source codes take effect, and go starts a capture. -/
def snapWrite (m : Master) (n : Fin 4) (v : Word) (s : State) : State :=
  if !devWriter m || !live s then s
  else
    let a := bitsOf v 8 8
    let b := bitsOf v 0 8
    let s := s.when (a ≤ 0x5F || a == 0xFF) (·.set (TT_SNAP_CTRL.src_a n) a)
    let s := s.when (b ≤ 0x5F) (·.set (TT_SNAP_CTRL.src_b n) b)
    s.when (bitsOf v 16 1 == 1 && !s.tt.snap[n]) (fun s =>
      let s := (s.raise (TT_SNAP_CTRL.go n)).set (TT_SNAP_CTRL.done n) 0
      s.withTt { s.tt with snap := s.tt.snap.set n true })

/-- The meaning of SNAP_GO. -/
def execSnapGo (m : Master) (n : Fin 4) (v : Word) (s : State) : Outcome := .next (snapWrite m n v s)

/-- R89: the capture, on the edge after go reached the block. -/
def snapCapture (n : Fin 4) (s : State) : State :=
  if s.tt.snap[n] then
    let a := s.get (TT_SNAP_CTRL.src_a n)
    let s := if a == 0xFF then s.setPair (TT_SNAP_A_LO n) s.now else s.setPair (TT_SNAP_A_LO n) (channelCounter a s)
    let s := s.setN (TT_SNAP_B n) (channelCounter (s.get (TT_SNAP_CTRL.src_b n)) s)
    let s := ((s.set (TT_SNAP_CTRL.go n) 0).raise (TT_SNAP_CTRL.done n)).raise TT_EVENTS.snap_done
    s.withTt { s.tt with snap := s.tt.snap.set n false }
  else s

/-! ### Latches and write stages (R85 to R88) -/

/-- The reader's latch. -/
def latchOf (s : State) (r : Reader) : Option Latch := (s.tt.latches.find? (·.1 == r)).map (·.2)
/-- Fills or empties the reader's latch. -/
def setLatch (r : Reader) (l : Option Latch) (s : State) : State :=
  let rest := s.tt.latches.filter (·.1 != r)
  s.withTt { s.tt with latches := match l with
    | some x => (r, x) :: rest
    | none => rest }
/-- The reader's write stage. -/
def stageOf (s : State) (r : Reader) : Option Stage := (s.tt.stages.find? (·.1 == r)).map (·.2)
/-- Fills or empties the reader's write stage. -/
def setStage (r : Reader) (x : Option Stage) (s : State) : State :=
  let rest := s.tt.stages.filter (·.1 != r)
  s.withTt { s.tt with stages := match x with
    | some y => (r, y) :: rest
    | none => rest }

/-- Table TT-4: a read of one half of pair `lo` whose present value is `now`; the value returned, and the state after.
`fresh` tells whether the read captured the pair. -/
def latchRead (r : Reader) (lo : Nat) (hi : Bool) (now : Nat) (s : State) : Word × Bool × State :=
  let half := fun (v : Nat) => BitVec.ofNat 32 (if hi then v / 2 ^ 32 else v)
  match latchOf s r with
  | some l =>
    if l.pair == lo then
      if l.hiFirst == hi then (half l.value, false, s) else (half l.value, false, setLatch r none s)
    else (half now, true, setLatch r (some ⟨lo, now, hi, s.frac, 0⟩) s)
  | none => (half now, true, setLatch r (some ⟨lo, now, hi, s.frac, 0⟩) s)

/-- TT_NOW_FRAC: the captured fraction while the latch holds TT_NOW, else the present one (R86). -/
def fracRead (r : Reader) (s : State) : Word :=
  match latchOf s r with
  | some l => BitVec.ofNat 32 (if l.pair == TT_NOW_LO then l.frac else s.frac)
  | none => BitVec.ofNat 32 s.frac

/-- R87: a full latch empties 64 counted clk after its capture. -/
def latchExpiry (r : Reader) (s : State) : State :=
  match latchOf s r with
  | some l => if 64 ≤ l.age then setLatch r none s else s
  | none => s

/-- The meaning of LATCH_EXPIRY. -/
def execLatchExpiry (r : Reader) (s : State) : Outcome := .next (inCore (latchExpiry r) s)

/-- R88: an uncommitted write stage expires after 64 counted clk. -/
def stageExpiry (r : Reader) (s : State) : State :=
  match stageOf s r with
  | some x => if 64 ≤ x.age then setStage r none s else s
  | none => s

/-- The meaning of STAGE_EXPIRY. -/
def execStageExpiry (r : Reader) (s : State) : Outcome := .next (inCore (stageExpiry r) s)

/-- R88: a write of the _LO half stores it in the reader's stage. -/
def stageWrite (r : Reader) (lo : Nat) (v : Word) (s : State) : State := setStage r (some ⟨lo, v, 0⟩) s

/-- R88: the 64-bit value a write of the _HI half commits, and the state with the stage emptied. -/
def stageCommit (r : Reader) (lo : Nat) (v : Word) (s : State) : Nat × State :=
  let low := match stageOf s r with
    | some x => if x.pair == lo then x.value.toNat else s.regN lo
    | none => s.regN lo
  (low + 2 ^ 32 * v.toNat, setStage r none s)

/-- R87: one edge of the expiry counts: every reader that `counts` ages its latch and its stage. -/
def ageLatches (counts : Reader → Bool) (s : State) : State :=
  s.withTt { s.tt with
    latches := s.tt.latches.map (fun p => if counts p.1 then (p.1, { p.2 with age := p.2.age + 1 }) else p)
    stages := s.tt.stages.map (fun p => if counts p.1 then (p.1, { p.2 with age := p.2.age + 1 }) else p) }

end Sys2Proof.Machine
end

