-- ==== Sys2Proof/Machine/Net.lean ====
section
/-!
DEFINITION. Sys2Proof/Machine/Net.lean: the switch: classification, the forwarding database, stream filters, meters, frame
replication and elimination, queues, gates and transmission, tile rings, service frames and TTDP (R261 to R282, R284 to R295).
-/
namespace Sys2Proof.Machine

/-! ### Octets in network order -/

/-- The number that octets spell, the first the most significant. -/
def beN (l : List Byte) : Nat := l.foldl (fun n b => 256 * n + b.toNat) 0
/-- `n` octets from `o` as a number. -/
def beAt (l : List Byte) (o n : Nat) : Nat := beN (slice l o n)

/-! ### Ports -/

/-- Changes the switch's hidden state. -/
def State.modNet (s : State) (f : NetH → NetH) : State := { s with net := f s.net }
/-- Port `p`'s hidden state. -/
def State.portOf (s : State) (p : Nat) : PortH := atD s.net.port p PortH.reset
/-- Changes port `p`'s hidden state. -/
def State.modPort (s : State) (p : Nat) (f : PortH → PortH) : State := s.modNet (fun n => { n with port := updAt n.port p f })
/-- The data rate of lane port `p` in Mbit/s (Table NET-10). -/
def portRate (s : State) (p : Nat) : Nat :=
  match s.get (PORT_STATUS.speed p) with
  | 1 => 10
  | 2 => 100
  | 3 => 1000
  | 4 => 2500
  | 5 => 10000
  | _ => 0
/-- Whether port `p` can carry frames: an internal port, or a lane port with link. -/
def portUp (s : State) (p : Nat) : Bool := p == 8 || p == 9 || (p < 8 && s.is (PORT_STATUS.link p))
/-- The lane ports of role 1 to 3 whose link is up (R289). -/
def servicePorts (s : State) : List Nat :=
  (List.range 8).filter (fun p => portUp s p && 1 ≤ s.get (PORT_CFG.role p) && s.get (PORT_CFG.role p) ≤ 3)
/-- NET_MAC: the base address (R264). -/
def macBase (s : State) : Nat := s.regN NET_MAC_LO + 2 ^ 32 * s.get NET_MAC_HI.mac_hi
/-- The class of a priority code point (R265). -/
def pcpClass (s : State) (pcp : Nat) : Nat := bitsOf (s.reg NET_PCP_MAP) (3 * pcp) 3
/-- NET_STATUS as read: links, Frost, the learning mode and the free cells are shown from where they are held. -/
def cellsOf (f : NetFrame) : Nat := (f.len + 255) / 256
/-- Every frame that a queue or a transmission holds. -/
def heldFrames (s : State) : List NetFrame :=
  (s.net.port.toList.map (fun h => h.queues.toList.flatten ++ (match h.tx with
    | some (.frame f _) => [f]
    | _ => []))).flatten
/-- The cells of the buffer in use: a frame held at several ports occupies its cells once (R272). -/
def usedCells (s : State) : Nat :=
  ((heldFrames s).foldl (fun (p : List Nat × Nat) f => if p.1.contains f.id then p else (f.id :: p.1, p.2 + cellsOf f)) ([], 0)).2
/-- The cells of the buffer (R272). -/
def totalCells (s : State) : Nat := 4096 * s.get NET_BUF_CFG.buf_mib
/-- NET_STATUS as a read shows it. -/
def netStatus (s : State) : Word :=
  let links := ((List.range 8).map (fun p => if s.is (PORT_STATUS.link p) then 2 ^ p else 0)).sum
  BitVec.ofNat 32 (links + (if s.frost then 256 else 0) + (if s.ha 2 then 512 else 0) +
    65536 * min 0xFFFF (totalCells s - usedCells s))

/-! ### Frames -/

/-- A frame taken apart (R263, R265, R280): addresses, C-tag, R-tag, and EtherType with payload. -/
structure Parsed where
  dst : Nat
  src : Nat
  tci : Option Nat
  rtag : Option Nat
  body : List Byte
  deriving DecidableEq, Repr

/-- The octets from the destination address to the end of the payload, without the FCS, taken apart. -/
def parseFrame (d : List Byte) : Parsed :=
  let r := d.drop 12
  let tci := if beAt r 0 2 == 0x8100 then some (beAt r 2 2) else none
  let r := if tci.isSome then r.drop 4 else r
  let rt := if beAt r 0 2 == 0xF1C1 then some (beAt r 4 2) else none
  let r := if rt.isSome then r.drop 6 else r
  ⟨beAt d 0 6, beAt d 6 6, tci, rt, r⟩
/-- A second C-tag or R-tag (R263). -/
def Parsed.overTagged (x : Parsed) : Bool :=
  let e := beAt x.body 0 2
  (x.tci.isSome && e == 0x8100) || (x.rtag.isSome && (e == 0xF1C1 || e == 0x8100))
/-- VID and PCP of a frame on port `p` (R265). -/
def vidPcp (s : State) (p : Nat) (x : Parsed) : Nat × Nat :=
  match x.tci with
  | some t => if t % 4096 != 0 then (t % 4096, t / 8192) else (s.get (PORT_CFG.pvid p), t / 8192)
  | none => (s.get (PORT_CFG.pvid p), s.get (PORT_CTRL.defpri p))
/-- A group address. -/
def isGroup (mac : Nat) : Bool := mac / 2 ^ 40 % 2 == 1
/-- The broadcast address. -/
def broadcast : Nat := 0xFFFFFFFFFFFF
/-- The destination of beacons and boot-status frames (R289). -/
def beaconDst : Nat := 0x03554C000001

/-- The drop-eligible indicator of a frame's C-tag, kept where the frame leaves tagged (R268). -/
def Parsed.dei (x : Parsed) : Bool := x.tci.any (fun t => t / 4096 % 2 == 1)
/-- The octets of a frame as port `q` sends them (R268, R280, R282): tagged unless the VLAN entry says otherwise; octets to be sent
as they stand are (R285, R288). -/
def wireOf (s : State) (q : Nat) (f : NetFrame) : List Byte :=
  if let some d := f.raw then d else
  let tag := f.vid != 0 && !bitN (s.get (VLAN_ENTRY.untag f.vid)) q
  beBytes 6 f.dst ++ beBytes 6 f.src ++ (if tag then beBytes 2 0x8100 ++ beBytes 2 (8192 * f.pcp + (if f.dei then 4096 else 0) + f.vid) else []) ++
    (match f.rtag with
      | some n => if bitN f.decap q then [] else beBytes 2 0xF1C1 ++ beBytes 2 0 ++ beBytes 2 n
      | none => []) ++ f.body
/-- A frame's length on the wire at port `q`, FCS included, padded to 64 octets. -/
def wireLen (s : State) (q : Nat) (f : NetFrame) : Nat := max 64 ((wireOf s q f).length + 4)

/-! ### The forwarding database (R267 to R271) -/

/-- The set of a (MAC, VID) pair: the low 11 bits of a CRC-16 (R267). -/
def fdbSet (mac vid : Nat) : Nat :=
  ((beBytes 6 mac ++ beBytes 2 vid).foldl (fun c b => crc16Steps (c ^^^ (b.toNat * 256)) 8) 0xFFFF) % 2048
/-- The entry of a (MAC, VID) pair. -/
def fdbFind (s : State) (mac vid : Nat) : Option FdbEntry := s.net.fdb.find? (fun e => e.mac == mac && e.vid == vid)
/-- The lowest invalid way of a set. -/
def freeWay (s : State) (set : Nat) : Option Nat :=
  (List.range 4).find? (fun w => !s.net.fdb.any (fun e => e.set == set && e.way == w))
/-- Puts an entry into the database in place of the pair's entry. -/
def fdbPut (e : FdbEntry) (s : State) : State :=
  s.modNet (fun n => { n with fdb := e :: n.fdb.filter (fun x => !(x.mac == e.mac && x.vid == e.vid)) })
/-- An FDB flush is running (R271). -/
def flushing (s : State) : Bool :=
  match s.net.cmd with
  | some c => c.op == 4 || c.op == 5
  | none => false

/-- R270: a notification is queued in place of an insertion or a change of port. -/
def notify (mac vid p : Nat) (s : State) : State :=
  if s.net.learn.contains (mac, vid, p) then s
  else if 256 ≤ s.net.learn.length then s.raise NET_EVENTS.learn_lost
  else (s.modNet (fun n => { n with learn := n.learn ++ [(mac, vid, p)] })).raise NET_EVENTS.learn_notify

/-- R269, R270: the source address of a good frame of a lane port is learned. -/
def learnSource (mac vid p : Nat) (s : State) : State :=
  -- R271: on the edge of a command on the same pair the command wins
  let onCmd := s.net.lastCmd == some (mac, vid, s.clk.edges)
  if flushing s || s.disabling 2 || onCmd then s
  else match fdbFind s mac vid with
    | some e =>
      if e.fixed then s
      else if e.ports == 2 ^ p then fdbPut { e with last := s.now } s
      else if s.ha 2 then notify mac vid p s
      else fdbPut { e with last := s.now, ports := 2 ^ p } s
    | none =>
      if s.ha 2 then notify mac vid p s
      else match freeWay s (fdbSet mac vid) with
        | some w => fdbPut ⟨fdbSet mac vid, w, mac, vid, 2 ^ p, false, s.now⟩ s
        | none => s.raise NET_EVENTS.learn_full

/-- R271: an FDB command is written. -/
def fdbStart (m : Master) (op port : Nat) (s : State) : State :=
  if !devWriter m then s
  else if s.net.cmd.isSome then s.set NET_FDB_RESULT.result 3
  else
    let c : FdbCmd := ⟨op, s.regN NET_FDB_MAC_LO + 2 ^ 32 * s.get NET_FDB_MAC_HI.mac_hi, s.get NET_FDB_MAC_HI.vid,
      s.get NET_FDB_PORTS.ports, s.is NET_FDB_PORTS.static_, port⟩
    (s.modNet (fun n => { n with cmd := some c })).raise NET_FDB_RESULT.busy

/-- The meaning of LOOKUP. -/
def execLookup (m : Master) (s : State) : Outcome := .next (inCore (fdbStart m 1 0) s)
/-- The meaning of INSERT. -/
def execInsert (m : Master) (s : State) : Outcome := .next (inCore (fdbStart m 2 0) s)
/-- The meaning of DELETE. -/
def execDelete (m : Master) (s : State) : Outcome := .next (inCore (fdbStart m 3 0) s)
/-- The meaning of FLUSH_DYNAMIC. -/
def execFlushDynamic (m : Master) (s : State) : Outcome := .next (inCore (fdbStart m 4 0) s)
/-- The meaning of FLUSH_PORT. -/
def execFlushPort (m : Master) (p : Fin 16) (s : State) : Outcome := .next (inCore (fdbStart m 5 p) s)

/-- What an FDB command does to the database, and its result: 0 OK, 1 NOT_FOUND, 2 FULL. -/
def fdbApply (c : FdbCmd) (s : State) : Nat × State :=
  match c.op with
  | 1 => match fdbFind s c.mac c.vid with
    | some e => (0, s.setN NET_FDB_PORTS (e.ports + (if e.fixed then 65536 else 0) + 131072))
    | none => (1, s.set NET_FDB_PORTS.valid 0)
  | 2 => match fdbFind s c.mac c.vid with
    | some e => (0, fdbPut { e with ports := c.ports, fixed := c.fixed, last := s.now } s)
    | none => match freeWay s (fdbSet c.mac c.vid) with
      | some w => (0, fdbPut ⟨fdbSet c.mac c.vid, w, c.mac, c.vid, c.ports, c.fixed, s.now⟩ s)
      | none => (2, s)
  | 3 => match fdbFind s c.mac c.vid with
    | some _ => (0, s.modNet (fun n => { n with fdb := n.fdb.filter (fun x => !(x.mac == c.mac && x.vid == c.vid)) }))
    | none => (1, s)
  | 4 => (0, s.modNet (fun n => { n with fdb := n.fdb.filter (·.fixed) }))
  | _ => (0, s.modNet (fun n => { n with fdb := n.fdb.filter (fun x => !bitN x.ports c.port) }))

/-- R271: the flush of a disabled learning function begins once no command runs and no notification is pending. -/
def flushStart (s : State) : State :=
  if s.net.flushDue && s.net.cmd.isNone && s.net.learn.isEmpty then
    (s.modNet (fun n => { n with flushDue := false, cmd := some ⟨4, 0, 0, 0, false, 0⟩ })).raise NET_FDB_RESULT.busy
  else s
/-- R271: the command in progress completes. -/
def fdbDone (s : State) : State :=
  match s.net.cmd with
  | none => s
  | some c =>
    let (r, s) := fdbApply c s
    let s := (s.modNet (fun n => { n with cmd := none, lastCmd := if c.op ≤ 3 then some (c.mac, c.vid, s.clk.edges) else n.lastCmd }))
    flushStart (((s.setN NET_FDB_RESULT r).raise NET_EVENTS.fdb_done).progress 2)
/-- The meaning of FDB_DONE. -/
def execFdbDone (s : State) : Outcome := .next (inCore fdbDone s)

/-- R269: a dynamic entry not refreshed for age_s is removed. -/
def fdbAge (set way : Nat) (s : State) : State :=
  let age := s.get NET_CTRL.age_s * 1000000000
  s.modNet (fun n => { n with fdb := n.fdb.filter (fun e =>
    !(e.set == set && e.way == way && !e.fixed && age != 0 && e.last + age ≤ s.now)) })
/-- The meaning of FDB_AGEING. -/
def execFdbAgeing (set : Fin 2048) (way : Fin 4) (s : State) : Outcome := .next (inCore (fdbAge set way) s)

/-- The notification at the head of the queue as NET_LEARN shows it; 0 when the queue is empty. -/
def learnHead (s : State) : Nat :=
  match s.net.learn with
  | (mac, vid, p) :: _ => mac + 2 ^ 48 * vid + 2 ^ 60 * p
  | [] => 0
/-- Capturing NET_LEARN removes the notification (R270). -/
def learnPop (s : State) : State := flushStart ((s.modNet (fun n => { n with learn := n.learn.drop 1 })).progress 2)
/-- A read of one half of NET_LEARN: the value returned and the state after. -/
def learnRead (r : Reader) (hi : Bool) (s : State) : Word × State :=
  let (v, captured, s') := latchRead r NET_LEARN_LO hi (learnHead s) s
  (v, if captured then learnPop s' else s')
/-- The meaning of LEARN_NOTIFY_READ. -/
def execLearnNotifyRead (r : Reader) (hi : Bool) (s : State) : Outcome :=
  .next (inCore (fun s =>
    let (v, s) := learnRead r hi s
    { s with data := v }) s)

/-- R271: switch learning is disabled: under DRAIN an insertion in progress completes and the notifications pending are read first,
under ABORT both are discarded; any other command in progress completes; then FLUSH_DYNAMIC runs. -/
def learnDisable (abort : Bool) (s : State) : State :=
  let s := s.when abort (·.modNet (fun n => { n with cmd := n.cmd.filter (·.op != 2), learn := [] }))
  flushStart (s.modNet (fun n => { n with flushDue := true }))
/-- Switch learning is idle: the flush has ended. -/
def learnIdle (s : State) : Bool := s.net.cmd.isNone && !s.net.flushDue
/-- Rung 2 of switch learning: the notifications are emptied (Table NET-6). -/
def learnReinit (s : State) : State := s.modNet (fun n => { n with learn := [], fdb := n.fdb.filter (·.fixed), flushDue := false })

/-! ### Streams, filters and meters (R277 to R279) -/

/-- The stream handle of a frame: the lowest matching entry. -/
def streamOf (s : State) (p : Nat) (x : Parsed) (vid : Nat) : Option Nat :=
  (List.range 128).find? (fun i =>
    let mac := s.regN (STREAM_ID0 i) + 2 ^ 32 * s.get (STREAM_ID1.mac_hi i)
    s.is (STREAM_ID1.valid i) && bitN (s.get (STREAM_ID2.ports i)) p && s.get (STREAM_ID1.vid i) == vid &&
      mac == (if s.is (STREAM_ID1.source i) then x.src else x.dst))

/-- Units of a meter's buckets in one octet. -/
def tokenUnit : Nat := 8000000

/-- R279: the buckets of meter `m` filled to the present TT. -/
def meterFill (m : Nat) (s : State) : Nat × Nat :=
  let capG := s.regN (METER_CBS m) * tokenUnit
  let capY := s.regN (METER_EBS m) * tokenUnit
  match atD s.net.meter m none with
  | none => (capG, capY)
  | some (g, y, last) =>
    let d := s.now - last
    let g' := g + s.regN (METER_CIR m) * d
    let spill := if s.is (METER4.cf m) then g' - capG else 0
    (min capG g', min capY (y + s.regN (METER_EIR m) * d + spill))

/-- R279: a frame of `n` octets at meter `m`; the answer says whether it passes. -/
def meterFrame (m n : Nat) (s : State) : Bool × State :=
  let (g, y) := meterFill m s
  let need := n * tokenUnit
  let keep := fun (g y : Nat) (s : State) => s.modNet (fun h => { h with meter := updAt h.meter m (fun _ => some (g, y, s.now)) })
  let allRed := s.is (METER4.mark_red m)
  if !allRed && need ≤ g then (true, (keep (g - need) y s).countReg (METER_GREEN m))
  else if !allRed && need ≤ y then (!s.is (METER4.drop_yellow m), (keep g (y - need) s).countReg (METER_YELLOW m))
  else
    let s := ((keep g y s).countReg (METER_RED m)).raise NET_EVENTS.meter_drop
    (false, s.when (s.is (METER4.mark_red_enable m)) (·.raise (METER4.mark_red m)))

/-- R278: the stream filter of handle `i` on a frame of `sdu` octets and length `n`; whether it passes. -/
def streamFilter (i sdu n : Nat) (s : State) : Bool × State :=
  let s := s.countReg (SFILT_MATCHED i)
  let drop := fun (s : State) => (false, s.countReg (SFILT_DROPPED i))
  if s.is (SFILT0.blocked i) then drop s
  else if s.get (SFILT0.max_sdu i) != 0 && s.get (SFILT0.max_sdu i) < sdu then
    drop ((s.raise NET_EVENTS.sdu_drop).when (s.is (SFILT0.block_oversize i)) (·.raise (SFILT0.blocked i)))
  else
    let m := s.get (SFILT0.meter i)
    if m == 0xFF || 64 ≤ m then (true, s.countReg (SFILT_PASSED i))
    else match meterFrame m n s with
      | (true, s) => (true, s.countReg (SFILT_PASSED i))
      | (false, s) => drop s

/-! ### Replication and elimination (R280 to R282) -/

/-- R281: the generation function of a handle: the number the frame takes, and the replicate mask. -/
def frerGenerate (handle : Nat) (rtag : Option Nat) (s : State) : Option Nat × Nat × State :=
  match (List.range 64).find? (fun g => s.is (FRER_GEN0.valid g) && s.get (FRER_GEN0.handle g) == handle) with
  | none => (rtag, 0, s)
  | some g =>
    let mask := s.get (FRER_GEN0.replicate g)
    match rtag with
    | some n => (some n, mask, s)
    | none => (some (s.get (FRER_GEN1.next_seq g)), mask, s.count (FRER_GEN1.next_seq g))

/-- R282: recovery function `r` on a sequence number: whether the frame passes.  "Within h" takes in a distance of h (log 133). -/
def frerRecover (r : Nat) (rtag : Option Nat) (s : State) : Bool × State :=
  let discard := fun (s : State) => (false, s.countReg (FRER_REC_DISC r))
  let h := s.get (FRER_REC0.history r) + 1
  let x := atD s.net.frer r ⟨none, 0⟩
  let pass := fun (n : Nat) (seen : List Nat) (s : State) =>
    (true, ((s.modNet (fun k => { k with frer := updAt k.frer r (fun _ => ⟨some seen, s.now⟩) })).set (FRER_REC1.last_seq r) n).countReg
      (FRER_REC_PASSED r))
  match rtag, x.seen with
  | none, _ => discard s
  | some n, none => pass n [n] s
  | some n, some seen =>
    let last := s.get (FRER_REC1.last_seq r)
    let up := (n + 65536 - last) % 65536
    let ahead := up != 0 && up < 32768
    let dist := if ahead then up else (last + 65536 - n) % 65536
    if h < dist then discard (s.raise NET_EVENTS.frer_rogue)
    else if seen.contains n then discard s
    else
      let top := if ahead then n else last
      pass top ((n :: seen).filter (fun q => (top + 65536 - q) % 65536 ≤ h)) s

/-- R282: every recovery function of a handle on a frame bound for `ports`; the ports left, and the mask of those at which the
R-tag is removed. -/
def frerEliminate (handle : Nat) (rtag : Option Nat) (ports : List Nat) (s : State) : List Nat × Nat × State :=
  (List.range 64).foldl (fun (acc : List Nat × Nat × State) r =>
    let (ports, decap, s) := acc
    let mask := (Config.recoveryPorts r).toNat
    if s.is (FRER_REC0.valid r) && s.get (FRER_REC0.handle r) == handle && ports.any (bitN mask) then
      match frerRecover r rtag s with
      | (true, s) => (ports, if s.is (FRER_REC0.decap r) then decap ||| mask else decap, s)
      | (false, s) => (ports.filter (fun q => !bitN mask q), decap, s)
    else acc) (ports, 0, s)

/-- R282: no frame has passed for reset_ms. -/
def frerReset (r : Nat) (s : State) : State :=
  let x := atD s.net.frer r ⟨none, 0⟩
  if x.seen.isSome && s.is (FRER_REC0.valid r) && s.due (x.last + s.get (FRER_REC0.reset_ms r) * 1000000) then
    (s.modNet (fun k => { k with frer := updAt k.frer r (fun x => { x with seen := none }) })).raise NET_EVENTS.frer_reset
  else s
/-- The meaning of FRER_RESET. -/
def execFrerReset (r : Fin 64) (s : State) : Outcome := .next (inCore (frerReset r) s)

/-! ### Queues (R268, R272) -/

/-- R268: the ports a frame is forwarded to by its destination, before the egress checks. -/
def forwardPorts (s : State) (p dst vid : Nat) : List Nat :=
  let members := (List.range 10).filter (bitN (s.get (VLAN_ENTRY.member vid)))
  let dest := match fdbFind s dst vid with
    | some e => (List.range 10).filter (bitN e.ports)
    | none => if isGroup dst && dst != broadcast && !s.is NET_CTRL.mc_flood then [] else members
  dest.filter (· != p)
/-- A role-3 port forwards only while etb_fwd is 1 (R285). -/
def forwards (s : State) (q : Nat) : Bool :=
  portUp s q && !(q < 8 && s.get (PORT_CFG.role q) == 3 && !s.is (PORT_CTRL.etb_fwd q))

/-- R285: a TTDP frame, by NET_TTDP_DA and NET_TTDP_ETYPE. -/
def isTtdp (s : State) (x : Parsed) : Bool :=
  x.dst == s.regN NET_TTDP_DA_LO + 2 ^ 32 * s.get NET_TTDP_DA_HI.da_hi && beAt x.body 0 2 == s.get NET_TTDP_ETYPE.etype
/-- Whether a frame may leave at port `q`: a TTDP frame is exempt from etb_fwd (R285). -/
def mayLeave (s : State) (x : Parsed) (q : Nat) : Bool := forwards s q || (portUp s q && isTtdp s x)

/-- The frame lies outside the cells: one of the Storekeeper's own while no section has given the switch a buffer, so that the
boot-status frames and responses of R290 and R291 leave in recovery too (log 155). -/
def bufferless (s : State) (f : NetFrame) : Bool := f.ing == 9 && f.raw.isSome && totalCells s == 0
/-- R272: a frame enters the queue of a class at port `q`, or is dropped for that port. -/
def enqueue (q cls : Nat) (f : NetFrame) (s : State) : State :=
  let c := cellsOf f
  let mine := ((s.portOf q).queues.toList.flatten.map cellsOf).sum
  let known := (heldFrames s).any (·.id == f.id)
  if s.get (PORT_QLIM.cells q) < mine + c || (!known && !bufferless s f && totalCells s < usedCells s + c) then
    (s.raise NET_EVENTS.tail_drop).countReg (PORT_TAIL_DROP q)
  else
    let s := s.modPort q (fun h => { h with queues := updAt h.queues (cls % 8) (· ++ [f]) })
    s.when ((totalCells s - usedCells s) * 16 < totalCells s) (·.raise NET_EVENTS.buf_low)

/-- R44, R292: the trailer of a voted frame is compared with the manifest. -/
def checkTrailer (body : List Byte) (s : State) : State :=
  let t := body.drop (body.length - 32)
  if 32 ≤ body.length && beAt t 0 1 == 1 then
    let node := beAt t 8 2
    let ok := (peerRecs s.invB).any (fun r => r.node == node && r.fp == slice t 16 12)
    if ok then s
    else
      let s := s.setN BEACON_TRAILER_MISMATCH (min 0xFFFFFFFF (s.regN BEACON_TRAILER_MISMATCH + 1))
      (s.raise NET_EVENTS.trailer_mismatch).fault 0x2C 0 (BitVec.ofNat 32 node)
  else s

/-- The transmissions begun by cut-through at `ports` end with the FCS inverted (R274). -/
def stomp (ports : List Nat) (s : State) : State :=
  s.forEach ports (fun q s => match (s.portOf q).tx with
    | some (.frame g false) =>
      ((s.raise NET_EVENTS.stomp).countReg (PORT_STOMP q)).modPort q (fun h => { h with tx := some (.stomped g) })
    | _ => s)

/-- R265 to R282: a frame that may be forwarded goes to its egress ports; `cls` gives a class other than that of its PCP, and
`cut` the ports it has reached by cut-through already, where a frame that is dropped after all is stomped (log 134). -/
def forwardFrame (p : Nat) (x : Parsed) (len : Nat) (cls : Option Nat) (cut : List Nat) (s : State) : State :=
  let (vid, pcp) := vidPcp s p x
  if !bitN (s.get (VLAN_ENTRY.member vid)) p then stomp cut (s.countReg (PORT_DROP p))
  else
    let handle := streamOf s p x vid
    let s := match handle with
      | some i => s.when (s.is (STREAM_ID1.voted i) && p < 8) (checkTrailer x.body)
      | none => s
    let (ok, s) := match handle with
      | some i => streamFilter i (12 + x.body.length) len s
      | none => (true, s)
    if !ok then stomp cut s
    else
      let (rtag, mask, s) := match handle with
        | some i => frerGenerate i x.rtag s
        | none => (x.rtag, 0, s)
      let dest := if mask != 0 then (List.range 10).filter (bitN mask) else forwardPorts s p x.dst vid
      let dest := dest.filter (fun q => bitN (s.get (VLAN_ENTRY.member vid)) q && mayLeave s x q)
      let (dest, decap, gone, s) := match handle with
        | some i =>
          let (keep, decap, s) := frerEliminate i rtag (dest ++ cut.filter (fun q => !dest.contains q)) s
          (dest.filter keep.contains, decap, cut.filter (fun q => !keep.contains q), s)
        | none => (dest, 0, [], s)
      let s := stomp gone s
      let f : NetFrame := ⟨s.net.nextId, x.dst, x.src, vid, pcp, rtag, x.body, len, p, decap, none, x.dei⟩
      let s := s.modNet (fun n => { n with nextId := n.nextId + 1 })
      let s := s.forEach (dest.filter (fun q => !cut.contains q)) (fun q => enqueue q (cls.getD (pcpClass s pcp)) f)
      -- a port reached by cut-through now holds the whole frame
      s.forEach cut (fun q s => s.modPort q (fun h => { h with tx := match h.tx with
        | some (.frame g false) => some (.frame { f with id := g.id } true)
        | t => t }))

/-- A frame of the Storekeeper's own enters at port 9 and goes to port `q` with a VLAN tag or none, padded to 64 octets with its FCS,
in the class of NET_SVC_CFG (R287, R288, R291). -/
def sendService (q : Nat) (tag : Option Nat) (dst : Nat) (body : List Byte) (s : State) : State :=
  let body := body ++ List.replicate (48 - (if tag.isSome then 4 else 0) - body.length) 0
  let d := beBytes 6 dst ++ beBytes 6 (macBase s) ++ (match tag with
    | some t => beBytes 2 0x8100 ++ beBytes 2 t
    | none => []) ++ body
  let vid := tag.getD 0 % 4096
  let f : NetFrame := ⟨s.net.nextId, dst, macBase s, vid, tag.getD 0 / 8192, none, body, d.length + 4, 9, 0, some d, false⟩
  enqueue q (pcpClass s (s.get NET_SVC_CFG.pcp)) f
    ((s.modNet (fun n => { n with nextId := n.nextId + 1 })).countReg (PORT_RX_FRAMES 9))

/-! ### Reception -/

/-- R287, R291: an accepted command frame leaves by port 9 and is queued for the Storekeeper, or is dropped. -/
def commandFrame (p : Nat) (x : Parsed) (s : State) : State :=
  let l := beAt x.body 4 2
  let waiting := (s.host.jobs.filter (·.frame.isSome)).length
  if 8 ≤ waiting then s.raise NET_EVENTS.cmd_drop
  else
    let job : CmdJob := ⟨some (p, x.src, x.tci), slice x.body 6 l⟩
    let s := s.countReg (PORT_TX_FRAMES 9)
    ({ s with host := { s.host with jobs := s.host.jobs ++ [job] } }).raise NET_EVENTS.cmd_rx
/-- R291: whether a frame on port `p` is a command frame. -/
def isCommand (s : State) (p : Nat) (x : Parsed) : Bool :=
  let l := beAt x.body 4 2
  p < 8 && s.is (PORT_CFG.cmd p) && x.dst == macBase s && beAt x.body 0 2 == 0x88B5 && beAt x.body 2 1 == 3 &&
    beAt x.body 3 1 == 1 && 1 ≤ l && l ≤ 1496 && l + 6 ≤ x.body.length
/-- R285: a TTDP HELLO by NET_TTDP_DA and NET_TTDP_ETYPE on a role-3 port. -/
def isHello (s : State) (p : Nat) (x : Parsed) : Bool :=
  p < 8 && s.get (PORT_CFG.role p) == 3 && isTtdp s x
/-- A frame is passed to port 9, unless its ingress port is no member of its VID (R265). -/
def trapFrame (p : Nat) (x : Parsed) (len : Nat) (s : State) : State :=
  let (vid, pcp) := vidPcp s p x
  let f : NetFrame := ⟨s.net.nextId, x.dst, x.src, vid, pcp, x.rtag, x.body, len, p, 0, none, x.dei⟩
  if !bitN (s.get (VLAN_ENTRY.member vid)) p then s.countReg (PORT_DROP p)
  else enqueue 9 (pcpClass s pcp) f (s.modNet (fun n => { n with nextId := n.nextId + 1 }))

/-- R263: the limits of a frame of `d` octets before the FCS. -/
def netFrameOk (d : List Byte) (fcs : Bool) : Bool := fcs && 64 ≤ d.length + 4 && d.length + 4 ≤ 1528 && !(parseFrame d).overTagged

/-- A PAUSE frame (R263). -/
def isPause (x : Parsed) : Bool := beAt x.body 0 4 == 0x88080001
/-- R266: a destination that is never forwarded. -/
def isReserved (x : Parsed) : Bool := x.dst / 16 == 0x0180C200000
/-- R262 to R293: where a good frame of lane port `p` goes. -/
def dispatchFrame (p : Nat) (x : Parsed) (len : Nat) (cut : List Nat) (s : State) : State :=
  if isCommand s p x then commandFrame p x s
  else if beAt x.body 0 2 == 0x88F7 && isReserved x then s
  else if s.frost then s.raise NET_EVENTS.frost_drop
  else if isPause x then stomp cut (s.countReg (PORT_DROP p))
  else if isHello s p x then
    let s := (s.setN (PORT_TTDP_LAST p) s.now).raise NET_EVENTS.ttdp_rx
    trapFrame p x len (s.modPort p (fun h => { h with hello := s.now }))
  else if isReserved x then
    if s.is NET_CTRL.trap_l2 then trapFrame p x len s else s.countReg (PORT_DROP p)
  else if !forwards s p then stomp cut (s.countReg (PORT_DROP p))
  else forwardFrame p x len none cut s

/-- R262 to R293: a frame has been received whole on lane port `p`.  Its source is learned (R269) after the lookup, which sees the
database as it was before this edge (R267). -/
def frameReceive (p : Nat) (d : List Byte) (fcs : Bool) (s : State) : State :=
  if !portUp s p then s
  else
    let cut := (s.portOf p).cutTo
    let clear := fun (s : State) => s.modPort p (fun h => { h with cutTo := [] })
    if !netFrameOk d fcs then clear (stomp cut (s.countReg (PORT_RX_ERR p)))
    else
      let x := parseFrame d
      let s := clear (s.countReg (PORT_RX_FRAMES p))
      learnSource x.src (vidPcp s p x).1 p (dispatchFrame p x (d.length + 4) cut s)
/-- The meaning of FRAME_RECEIVE. -/
def execFrameReceive (p : Fin 8) (d : List Byte) (fcs : Bool) (s : State) : Outcome := .next (inCore (frameReceive p d fcs) s)

/-! ### Gates and transmission (R273 to R276) -/

/-- The instant's place in a cycle: the entry that holds, and the ns left of it. -/
def entryAt : List (Nat × Nat) → Nat → Nat → Nat × Nat
  | [], i, _ => (i, 0)
  | (_, n) :: rest, i, o => if o < n then (i, n - o) else entryAt rest (i + 1) (o - n)
/-- The ns from the cycle start of a schedule to the present TT (R29). -/
def cyclePos (c : Sched) (now : Nat) : Nat := (now + c.cycle - c.offset % c.cycle) % c.cycle
/-- The first cycle start at or after an instant (R29). -/
def schedStart (c : Sched) (t : Nat) : Nat := let o := cyclePos c t; if o == 0 then t else t + c.cycle - o

/-- R275, R37: the schedule entry in force at port `p` takes effect. -/
def gateEntry (p : Nat) (s : State) : State :=
  let h := s.portOf p
  let s := match h.next with
    | some (n, t) => if s.due t then s.modPort p (fun h => { h with sched := n, next := none }) else s
    | none => s
  match (s.portOf p).sched with
  | none => ((s.set (PORT_STATUS.gates p) 0xFF).set (PORT_STATUS.entry p) 0).set (PORT_STATUS.scheduled p) 0
  | some c =>
    let (i, _) := entryAt c.entries 0 (cyclePos c s.now)
    let gates := ((c.entries[i]?).map (·.1)).getD 0
    ((s.set (PORT_STATUS.gates p) gates).set (PORT_STATUS.entry p) i).raise (PORT_STATUS.scheduled p)
/-- R275: on each core edge the entry in force takes effect at every port that has a schedule or awaits one. -/
def gateCycle (s : State) : State :=
  s.forEach (List.range 8) (fun p s => s.when ((s.portOf p).sched.isSome || (s.portOf p).next.isSome) (gateEntry p))
/-- The meaning of GATE_ENTRY. -/
def execGateEntry (p : Fin 8) (s : State) : Outcome := .next (inCore (gateEntry p) s)

/-- The ns from the start of the entries `l` to the first that closes gate `t`; none where none does. -/
def closesAfter (t : Nat) : List (Nat × Nat) → Option Nat
  | [] => none
  | (g, n) :: rest => if bitN g t then (closesAfter t rest).map (· + n) else some 0

/-- R276: the ns until gate `t` of port `p` next closes; none: it stays open. -/
def untilClose (s : State) (p t : Nat) : Option Nat :=
  let now := match (s.portOf p).sched with
    | none => none
    | some c =>
      let (i, left) := entryAt c.entries 0 (cyclePos c s.now)
      (closesAfter t (c.entries.drop (i + 1) ++ c.entries)).map (· + left)
  match (s.portOf p).next with
  | none => now
  | some (n, start) =>
    -- R37: from its start the schedule of the epoch holds in place of the one in force
    let left := start - s.now
    if now.any (· < left) then now else n.bind (fun c => (closesAfter t c.entries).map (· + left))
/-- R276: whether a frame of `n` octets passes the guard band of gate `t` at port `p`; the present ns counts from its start. -/
def guardBand (s : State) (p t n : Nat) : Bool :=
  match untilClose s p t with
  | none => true
  | some left => (n + 20) * 8000 * 2 ^ 84 ≤ (left * 2 ^ 84 - s.tt.t % 2 ^ 84) * portRate s p
/-- Whether gate `t` of port `p` is open; ports 8 and 9 have no gates. -/
def gateOpen (s : State) (p t : Nat) : Bool := 8 ≤ p || bitN (s.get (PORT_STATUS.gates p)) t

/-- R273: the frame port `p` sends next: class and frame. -/
def selectFrame (s : State) (p : Nat) : Option (Nat × NetFrame) :=
  ((List.range 8).reverse.filterMap (fun t =>
    match atD (s.portOf p).queues t [] with
    | f :: _ => if gateOpen s p t && (8 ≤ p || guardBand s p t (wireLen s p f)) then some (t, f) else none
    | [] => none)).head?

/-- R273: on an idle line a waiting gPTP message is sent, else the highest class that may.  R294: a read of the frame from the
buffer that meets a transport error is done once more; where that fails too (`unread`) the frame is lost (log 156). -/
def transmitSelect (p : Nat) (unread : Bool) (s : State) : State :=
  let h := s.portOf p
  if h.tx.isSome || !portUp s p then s
  else match h.gq with
    | m :: rest =>
      let (t, s) := stampSent s
      -- R78, R84: the stamp of a Sync or of a Pdelay_Resp goes into its Follow_Up, that of a Pdelay_Req is t1
      let fill := fun (x : Gptp) =>
        if x.seq == m.seq && m.kind == 0 && x.kind == 1 then { x with times := followUp t s }
        else if x.seq == m.seq && m.kind == 3 && x.kind == 4 then { x with times := [t] }
        else x
      s.modPort p (fun h =>
        { h with gq := rest.map fill, tx := some (.gptp m), t1 := if m.kind == 2 then some t else h.t1 })
    | [] => match selectFrame s p with
      | none => s
      | some (t, f) =>
        let s := s.modPort p (fun h => { h with queues := updAt h.queues t (·.drop 1) })
        if unread then (s.countReg (PORT_DROP p)).retryFail
        else s.modPort p (fun h => { h with tx := some (.frame f true) })
/-- The meaning of TRANSMIT_SELECT; the mark says that both reads of the frame from the buffer met a transport error (R294). -/
def execTransmitSelect (p : Fin 10 × Bool) (s : State) : Outcome := .next (inCore (transmitSelect p.1 p.2) s)

/-- R274: after 64 octets of a frame the switch decides, for each egress port, on cut-through. -/
def frameHeader (p : Nat) (d : List Byte) (s : State) : State :=
  let x := parseFrame d
  let (vid, pcp) := vidPcp s p x
  if s.frost || !s.is (PORT_CFG.cut_through p) || !forwards s p || !(s.portOf p).cutTo.isEmpty || isCommand s p x || isHello s p x ||
      isReserved x || isPause x || x.overTagged || !bitN (s.get (VLAN_ENTRY.member vid)) p then s
  else
    let handle := streamOf s p x vid
    let plain := match handle with
      | some i => s.get (SFILT0.max_sdu i) == 0 && !s.is (SFILT0.blocked i)
      | none => true
    let cls := pcpClass s pcp
    let (rtag, mask) := match handle with
      | some i => ((frerGenerate i x.rtag s).1, (frerGenerate i x.rtag s).2.1)
      | none => (x.rtag, 0)
    let dest := if mask != 0 then (List.range 10).filter (bitN mask) else forwardPorts s p x.dst vid
    let dest := match handle with
      | some i => (frerEliminate i rtag dest s).1
      | none => dest
    let ok := fun (q : Nat) => plain && q < 8 && bitN (s.get (VLAN_ENTRY.member vid)) q && mayLeave s x q &&
      portRate s q ≤ portRate s p && (s.portOf q).tx.isNone && (s.portOf q).gq.isEmpty &&
      (List.range 8).all (fun t => t < cls || (atD (s.portOf q).queues t []).isEmpty) && gateOpen s q cls && guardBand s q cls 1528
    let cut := dest.filter ok
    let f : NetFrame := ⟨s.net.nextId, x.dst, x.src, vid, pcp, x.rtag, x.body, d.length, p, 0, none, x.dei⟩
    let s := s.modNet (fun n => { n with nextId := n.nextId + 1 })
    (s.forEach cut (fun q s => s.modPort q (fun h => { h with tx := some (.frame f false) }))).modPort p (fun h => { h with cutTo := cut })
/-- The meaning of FRAME_HEADER_RECEIVE. -/
def execFrameHeaderReceive (p : Fin 8) (d : List Byte) (s : State) : Outcome :=
  .next (inCore (fun s => if portUp s p then frameHeader p d s else s) s)

/-! ### Port 8: the tiles' rings (R286) -/

/-- Whether `n` bytes at `a` lie in tile `t`'s data TCM and in a data window of world `w`. -/
def ringReach (s : State) (t w a n : Nat) : Bool := a + n ≤ 0x40000 && inDataWindow s t w a n
/-- The address of descriptor `i` of a ring. -/
def descAt (base i : Nat) : Nat := base + 8 * i
/-- The tile is told that a descriptor has been processed (R286). -/
def descEnd (t : Nat) (s : State) : State := (s.raise ⟨NET_RING_PEND, t, 1⟩).raise NET_EVENTS.ring
/-- Marks a descriptor returned: its length, flags without own, and the tile told. -/
def descReturn (t a len cls flags : Nat) (s : State) : State :=
  let k := dtcmKey t + a
  descEnd t (((s.storeN (k + 4) 2 len).storeN (k + 6) 1 cls).storeN (k + 7) 1 flags)

/-- R286: a frame of `d` octets from port `ing` goes into tile `t`'s receive ring. -/
def ringDeliver (t ing : Nat) (d : List Byte) (s : State) : State :=
  let w := s.get (NET_TRING_CFG.world t)
  let size := 2 ^ s.get (NET_TRING_CFG.log2 t)
  let head := s.get (NET_TRING_HEADS.rx t)
  let a := descAt (s.regN (NET_TRING_RX_BASE t)) head
  let k := dtcmKey t + a
  let owned := ringReach s t w a 8 && bitN (s.load (k + 7) 1) 0
  let posted := head != s.get (NET_TRING_RX_TAIL.tail t) % size
  if !s.is (NET_TRING_CFG.enable t) || !domOn s (domTile t) then s.countReg (NET_TRING_DROP t)
  else if !ringReach s t w a 8 && posted then
    -- the descriptor itself cannot be reached: it is ended, and nothing is moved
    descEnd t (s.set (NET_TRING_HEADS.rx t) ((head + 1) % size))
  else if !owned || !posted then s.countReg (NET_TRING_DROP t)
  else
    let buf := s.load k 4
    let room := s.load (k + 4) 2
    let n := min room d.length
    let s := s.set (NET_TRING_HEADS.rx t) ((head + 1) % size)
    if !ringReach s t w buf n then descReturn t a room ing 2 s
    else descReturn t a n ing (if room < d.length then 4 else 0) (s.setBytes (dtcmKey t + buf) (d.take n))

/-- Port 8 delivers a frame (R286). -/
def tileDeliver (f : NetFrame) (s : State) : State :=
  let d := wireOf s 8 f
  let base := macBase s
  if base + 1 ≤ f.dst && f.dst < base + 25 then ringDeliver (f.dst - base - 1) f.ing d s
  else s.forEach ((List.range 24).filter (fun t => s.is (NET_TRING_CFG.enable t) && s.is (NET_TRING_CFG.mc t)))
    (fun t => ringDeliver t f.ing d)

/-- Port 9 delivers a frame: those addressed to base + 25 go to the host's receive queue of 16 KiB (R287, R396). -/
def hostDeliver (f : NetFrame) (s : State) : State :=
  let d := wireOf s 9 f
  if f.dst != macBase s + 25 then s
  else if 16384 < (s.host.rx.map (·.length)).sum + d.length then s.raise HOST_EVENTS.fq_drop
  else ({ s with host := { s.host with rx := s.host.rx ++ [d] } }).raise HOST_EVENTS.fq_rx

/-- A copy of frame `id` waits or is sent at some port. -/
def inSwitch (s : State) (id : Nat) : Bool :=
  (List.range 10).any (fun p =>
    (s.portOf p).queues.toList.any (fun q => q.any (·.id == id)) ||
      (match (s.portOf p).tx with
        | some (.frame f _) => f.id == id
        | _ => false))
/-- R276: a transmission on port `p` ends. -/
def transmitDone (p : Nat) (s : State) : State :=
  match (s.portOf p).tx with
  | some (.frame f true) =>
    let d := wireOf s p f
    let s := (s.modPort p (fun h => { h with tx := none, sent := d, sentBad := false })).countReg (PORT_TX_FRAMES p)
    let s := s.when (s.host.txId == some f.id && !inSwitch s f.id) (fun s =>
      { s.raise HOST_EVENTS.fq_tx_done with host := { s.host with txId := none } })
    if p == 8 then tileDeliver f s else if p == 9 then hostDeliver f s else s
  | some (.stomped f) => s.modPort p (fun h => { h with tx := none, sent := wireOf s p f, sentBad := true })
  | some (.gptp m) => (s.modPort p (fun h => { h with tx := none, gsent := some m })).countReg (PORT_TX_FRAMES p)
  | _ => s
/-- The meaning of TRANSMIT_DONE. -/
def execTransmitDone (p : Fin 10) (s : State) : Outcome := .next (inCore (transmitDone p) s)

/-- From time N of an entry the switch has stopped and the lanes are in electrical idle (Table PWR-5). -/
def netStopped (s : State) : Bool := s.pwr.entry.any (fun e => e.2 != 0)
/-- A frame of `d` octets before padding enters the switch at internal port `p` (R286, R287, R292); PAUSE and the addresses that
are never forwarded are kept from the other ports (R263, R266). -/
def internalFrame (p : Nat) (d : List Byte) (cls : Option Nat) (s : State) : State :=
  let d := d ++ List.replicate (60 - d.length) 0
  let x := parseFrame d
  if s.frost then s.raise NET_EVENTS.frost_drop
  else if !netFrameOk d true then s.countReg (PORT_RX_ERR p)
  else
    let s := s.countReg (PORT_RX_FRAMES p)
    if isPause x || netStopped s then s.countReg (PORT_DROP p)
    else if beAt x.body 0 2 == 0x88F7 && isReserved x then s
    else if isReserved x then
      if p == 8 && s.is NET_CTRL.trap_l2 then trapFrame p x (d.length + 4) s else s.countReg (PORT_DROP p)
    else forwardFrame p x (d.length + 4) cls [] s

/-- R286: the switch takes one transmit descriptor of tile `t`'s ring.  R294: a read of the frame that meets a transport error is
done once more; where that fails too, for descriptor `unread`, the descriptor ends with err (log 156). -/
def ringSend (t : Nat) (unread : Option Nat) (s : State) : State :=
  let w := s.get (NET_TRING_CFG.world t)
  let size := 2 ^ s.get (NET_TRING_CFG.log2 t)
  let head := s.get (NET_TRING_HEADS.tx t)
  let a := descAt (s.regN (NET_TRING_TX_BASE t)) head
  let k := dtcmKey t + a
  if head == s.get (NET_TRING_TX_TAIL.tail t) % size then s
  else if !ringReach s t w a 8 then descEnd t (s.set (NET_TRING_HEADS.tx t) ((head + 1) % size))
  else if !bitN (s.load (k + 7) 1) 0 then s
  else
    let buf := s.load k 4
    let n := s.load (k + 4) 2
    let cls := s.load (k + 6) 1
    let s := s.set (NET_TRING_HEADS.tx t) ((head + 1) % size)
    if s.frost || n < 14 || 1514 < n || !ringReach s t w buf n then descReturn t a n cls 2 s
    else if unread == some head then descReturn t a n cls 2 s.retryFail
    else descReturn t a n cls 0 (internalFrame 8 (s.bytes (dtcmKey t + buf) n) (some (cls % 8)) s)

/-- Who writes tile `t`'s ring registers. -/
def ringWriter (t : Nat) : Master → Bool
  | .tile u _ sup => u.val == t && sup
  | .storekeeper => true
  | .host => true
  | _ => false

/-- R286: a write of the transmit tail hands the descriptors up to it to port 8. -/
def txDoorbell (m : Master) (t : Nat) (v : Word) (unread : Option Nat) (s : State) : State :=
  if !ringWriter t m then s
  else
    let s := s.set (NET_TRING_TX_TAIL.tail t) (bitsOf v 0 7)
    if s.is (NET_TRING_CFG.enable t) && domOn s (domTile t) then
      s.forEach (List.range (2 ^ s.get (NET_TRING_CFG.log2 t))) (fun _ => ringSend t unread)
    else s
/-- The meaning of TX_DOORBELL; the mark names a descriptor whose frame met a transport error at both reads (R294). -/
def execTxDoorbell (m : Master) (t : Fin 24 × Option (Fin 128)) (v : Word) (s : State) : Outcome :=
  .next (inCore (txDoorbell m t.1 v (t.2.map (·.val))) s)
/-- R286: a write of the receive tail posts descriptors. -/
def rxTail (m : Master) (t : Nat) (v : Word) (s : State) : State :=
  if ringWriter t m then s.set (NET_TRING_RX_TAIL.tail t) (bitsOf v 0 7) else s
/-- The meaning of RX_TAIL. -/
def execRxTail (m : Master) (t : Fin 24) (v : Word) (s : State) : Outcome := .next (inCore (rxTail m t v) s)

/-- A write of NET_TRING_CFG: other than enable 0 only while enable is 0; the world is that of the write (R286). -/
def ringCfg (m : Master) (t : Nat) (v : Word) (s : State) : State :=
  if !ringWriter t m then s
  else if !s.is (NET_TRING_CFG.enable t) then
    let on := bitsOf v 3 1 == 1
    let s := s.setN (NET_TRING_CFG t) (bitsOf v 0 5 + 32 * (if on then (if masterVital m then 0 else 1) else s.get (NET_TRING_CFG.world t)))
    s.when on (·.setN (NET_TRING_HEADS t) 0)
  else s.when (bitsOf v 3 1 == 0) (·.set (NET_TRING_CFG.enable t) 0)

/-! ### Voted frames (R165, R292) -/

/-- CRC-32C of a byte string (R165). -/
def crc32c (l : List Byte) : Nat := (l.foldl (fun c b => crcReflected 0x82F63B78 (c ^^^ b.toNat) 8) 0xFFFFFFFF) ^^^ 0xFFFFFFFF

/-- R165: the internal tile port reads the agreeing member's buffer and sends the frame or drops it; where the read met a transport
error, and so did the one that R294 has follow it (`unread`), the frame is dropped (log 156). -/
def votedFrameRead (g : Nat) (unread : Bool) (s : State) : State :=
  match (s.grpOf g).frames with
  | [] => s
  | f :: rest =>
    let s := s.modGrp g (fun h => { h with frames := rest })
    let h := s.grpOf g
    let t := ((h.tiles[f.slot]?).map (·.1)).getD 24
    let (a, w) := ((h.bufs.find? (fun b => b.1 == f.port && b.2.1 == f.slot)).map (fun b => (b.2.2.1, b.2.2.2))).getD (0, 0)
    let l := s.load (dtcmKey t + a) 2
    let k := dtcmKey t + a
    let cls := atD h.cfg f.port 0 / 8 % 8
    if unread then voteRaise g 13 s.retryFail
    else if 24 ≤ t || 0x40000 < a + 2 || !domOn s (domTile t) || l < 14 || 1482 < l || !ringReach s t w a (l + 2) ||
        crc32c (s.bytes k (l + 2)) != f.value.toNat then voteRaise g 13 s
    else internalFrame 8 (s.bytes (k + 2) l ++ f.trailer) (some cls) s
/-- The meaning of VOTED_FRAME_READ; the mark says that both reads of the frame met a transport error (R294). -/
def execVotedFrameRead (g : Fin 12 × Bool) (s : State) : Outcome := .next (inCore (votedFrameRead g.1 g.2) s)

/-! ### Links, TTDP and boot status -/

/-- The speed code of a lane port with link, by its line mode (Table NET-2): of SGMII that of the partner's control word. -/
def lineSpeed (mode speed : Nat) : Option Nat :=
  match mode with
  | 0 => some 3
  | 1 => if 1 ≤ speed && speed ≤ 3 then some speed else none
  | 2 => some 4
  | 3 => some 5
  | _ => none
/-- R261, R262: a lane port's link changes. -/
def linkChange (p : Nat) (up : Bool) (speed : Nat) (s : State) : State :=
  let s := lanesLock s
  let rate := lineSpeed (s.get (PORT_CFG.line_mode p)) speed
  let speed := rate.getD 0
  let up := up && rate.isSome && s.get (PORT_CFG.role p) != 0 && domOn s (domLane p) && atD s.clk.txLocked p false &&
    !netStopped s
  if s.is (PORT_STATUS.link p) == up then s.when up (·.set (PORT_STATUS.speed p) speed)
  else
    let s := (s.setB (PORT_STATUS.link p) up).set (PORT_STATUS.speed p) (if up then speed else 0)
    let s := s.when (!up) (fun s =>
      -- R274: what this port's frame had begun by cut-through ends with the FCS inverted
      let s := stomp (s.portOf p).cutTo s
      let s := s.forEach (List.range 8) (fun q => (·.modPort q (fun h => { h with cutTo := h.cutTo.filter (· != p) })))
      let s := s.modPort p (fun h => { h with tx := none, gq := [], cutTo := [], ann := none, t1 := none })
      (s.withClk { s.clk with linkDown := updAt s.clk.linkDown p (fun _ => true) }).set (PORT_STATUS.as_capable p) 0)
    s.raise NET_EVENTS.link_change

/-- R285: the HELLO template of each role-3 port is sent. -/
def helloSend (s : State) : State :=
  let period := s.get NET_TTDP_CFG.period_ms * 1000000
  if period == 0 || s.frost || !s.due (s.net.helloSent + period) then s
  else
    let s := s.modNet (fun n => { n with helloSent := s.now })
    s.forEach ((List.range 8).filter (fun p => s.get (PORT_CFG.role p) == 3 && portUp s p)) (fun p s =>
      let n := min 512 (s.regN (PORT_TTDP_LEN p))
      let d := ((List.range 128).map (fun w => leBytes 4 (s.regN (PORT_TTDP_TPL p w)))).flatten.take n
      let x := parseFrame d
      let (vid, pcp) := vidPcp s p x
      let f : NetFrame := ⟨s.net.nextId, x.dst, x.src, if x.tci.isSome then vid else 0, pcp, x.rtag, x.body, n + 4, 9, 0, some d, false⟩
      enqueue p (pcpClass s pcp) f (s.modNet (fun n => { n with nextId := n.nextId + 1 })))
/-- The meaning of TTDP_HELLO_SEND. -/
def execTtdpHelloSend (s : State) : Outcome := .next (inCore helloSend s)

/-- R285: a role-3 port has received no HELLO for timeout_ms. -/
def ttdpTimeout (p : Nat) (s : State) : State :=
  let n := s.get NET_TTDP_CFG.timeout_ms * 1000000
  if n != 0 && s.get (PORT_CFG.role p) == 3 && s.due ((s.portOf p).hello + n) then
    (s.modPort p (fun h => { h with hello := s.now })).raise NET_EVENTS.ttdp_timeout
  else s
/-- The meaning of TTDP_TIMEOUT. -/
def execTtdpTimeout (p : Fin 8) (s : State) : Outcome := .next (inCore (ttdpTimeout p) s)

/-- R288: a service frame on port `p`, with the tag of NET_SVC_CFG. -/
def serviceFrame (p dst : Nat) (payload : List Byte) (s : State) : State :=
  let vid := s.get NET_SVC_CFG.vid
  let tag := if vid == 0 then none else some (8192 * s.get NET_SVC_CFG.pcp + vid)
  sendService p tag dst (beBytes 2 0x88B5 ++ payload) s

/-- R290: the boot-status payload. -/
def bootStatusBody (s : State) : List Byte :=
  let slot := if s.get BOOT_STATUS.stage < 3 || 0xE ≤ s.get BOOT_STATUS.stage then 0xFF else s.get BOOT_STATUS.slot
  beBytes 1 2 ++ beBytes 1 1 ++ beBytes 1 (s.get BOOT_STATUS.stage) ++ beBytes 1 (s.get BOOT_STATUS.lc) ++ beBytes 1 slot ++
    beBytes 1 (s.get BOOT_STATUS.result) ++ beBytes 2 0 ++ beBytes 8 s.now ++ beBytes 4 (Config.deviceId.toNat % 2 ^ 32)
/-- R290: until Thaw a boot-status frame is sent at the instants that are multiples of 10 ms, once at each: on the first edge with TT
at or after it (R77). -/
def bootStatusSend (s : State) : State :=
  let k := s.now / 10000000
  if !s.frost || s.net.bootSent == k + 1 || (k * 10000000 ≤ s.tt.last / 2 ^ 84 && k * 10000000 != s.now) then s
  else (s.modNet (fun n => { n with bootSent := k + 1 })).forEach (servicePorts s) (fun p => serviceFrame p beaconDst (bootStatusBody s))
/-- The meaning of BOOT_STATUS_SEND. -/
def execBootStatusSend (s : State) : Outcome := .next (inCore bootStatusSend s)

/-! ### The inventory and resets -/

/-- PORT_CFG of port `p` as its record gives it (Tables INV-10, NET-7). -/
def portCfgOf (b : List Byte) (p : Nat) : Nat :=
  portByte b p 0 + 16 * portByte b p 1 + 256 * (portByte b p 4 % 8) + 65536 * (portPvid b p % 4096)
/-- The Port roles section and the buffer size take effect (R25, R71, R272). -/
def applyPorts (b : List Byte) (s : State) : State :=
  let s := s.forEach (List.range 10) (fun p => (·.setN (PORT_CFG p) (portCfgOf b p)))
  s.forEach (List.range 8) (fun p s =>
    let s := s.when (!s.is (PORT_STATUS.scheduled p)) (·.set (PORT_STATUS.gates p) 0xFF)
    -- R262: a port with role 0 never has link, were it one that rung 3 kept
    s.when (s.get (PORT_CFG.role p) == 0) (linkChange p false 0))
/-- The Switch schedules section takes effect at the end of boot (R275). -/
def applyScheds (b : List Byte) (s : State) : State :=
  s.forEach (List.range 8) (fun p s => gateEntry p (s.modPort p (fun h => { h with sched := schedOf b p, next := none })))
/-- R37: a schedule that changes starts at its first cycle start at or after the tick. -/
def epochScheds (new : List Byte) (s : State) : State :=
  s.forEach (List.range 8) (fun p s =>
    let n := schedOf new p
    if (s.portOf p).sched == n then s.modPort p (fun h => { h with next := none })
    else
      let at_ := match n with
        | some c => schedStart c s.now
        | none => s.now
      gateEntry p (s.modPort p (fun h => { h with next := some (n, at_) })))
/-- Whether I/O address `a` is a register of the NET block. -/
def inNet (a : Nat) : Bool := 0xC0000 ≤ a && a < 0x100000
/-- Rung 3 (Table NET-6): queues and FDB emptied, registers reset except NET_MAC, links kept. -/
def netReset (s : State) : State :=
  let links := (List.range 8).map (fun p => (s.get (PORT_STATUS.link p), s.get (PORT_STATUS.speed p)))
  let s := s.resetRegs (fun a => inNet a && a != NET_MAC_LO && a != NET_MAC_HI)
  let s := { s with net := NetH.reset }
  s.forEach (links.zipIdx) (fun e s => (s.set (PORT_STATUS.link e.2) e.1.1).set (PORT_STATUS.speed e.2) e.1.2)
/-- The switch stops forwarding and the lanes go to electrical idle (Table PWR-5, R67). -/
def netStop (s : State) : State :=
  let s := s.forEach (List.range 8) (fun p => linkChange p false 0)
  s.forEach (List.range 10) (fun p s => s.modPort p (fun h => { h with queues := Vector.replicate 8 [], gq := [], tx := none }))

/-- R67: entry to clock-fault hold: outputs at their safe levels, links down, the host port silent, and the switch to the watch
oscillator under R59. -/
def clockFaultHold (s : State) : State :=
  let atPor := s.get CLK_STATUS.mode == mSTART && !s.clk.passed
  if s.clk.hold == 0 && s.get CLK_RING.state == 0 && (atPor || s.clk.lullRing) then
    let s := s.forEach (List.range 8) (fun p => linkChange p false 0)
    let s := outputsSafe (s.withClk { s.clk with
      hold := if atPor then 1 else 2, switch := some ⟨if atPor then 0x0A else noSource, watchOsc, 0, false⟩ })
    let s := (s.set HOST_STATUS.pcie_link 0).raise CLK_STATUS.switching
    let s := ((s.raise CLK_HOLD_RECORD.hold_entered).setB CLK_HOLD_RECORD.at_power_on atPor).bump CLK_HOLD_RECORD.holds
    s.fault 0x23 0 (s.reg CLK_HOLD_RECORD)
  else s

/-- The meaning of CLOCK_FAULT_HOLD. -/
def execClockFaultHold (s : State) : Outcome := .next (clockFaultHold s)

end Sys2Proof.Machine
end

