-- ==== Sys2Proof/Machine/Gptp.lean ====
section
/-!
DEFINITION. Sys2Proof/Machine/Gptp.lean: the wire side of the time servo: best-master selection, Announce, Sync and Pdelay on
the lane ports (R78, R79, R84, R262, R283).
-/
namespace Sys2Proof.Machine

/-- The clockIdentity formed from the base address (R264). -/
def clockId (s : State) : Nat := let m := macBase s; m / 2 ^ 24 * 2 ^ 40 + 0xFFFE * 2 ^ 24 + m % 2 ^ 24
/-- Whether port `p` takes part in gPTP with link. -/
def gptpOn (s : State) (p : Nat) : Bool := s.is (PORT_CFG.gptp p) && portUp s p
/-- Priority vector `a` is better than `b`: its first differing component is lower. -/
def better : List Nat → List Nat → Bool
  | [], _ => false
  | _ :: _, [] => false
  | a :: x, b :: y => decide (a < b) || (a == b && better x y)
/-- This node's own vector; none where priority1 is 255 (R283). -/
def ownVector (s : State) : Option (List Nat) :=
  let id := clockId s
  if s.get NET_GPTP_CFG.priority1 == 255 then none
  else some [s.get NET_GPTP_CFG.priority1, s.get NET_GPTP_CFG.clock_class, s.get NET_GPTP_QUAL.clock_accuracy,
    s.get NET_GPTP_QUAL.variance, s.get NET_GPTP_CFG.priority2, id, 0, id, 0]
/-- A vector received at port `p`, one step further. -/
def stepped (v : List Nat) (p : Nat) : List Nat := v.take 6 ++ [v.getD 6 0 + 1] ++ v.drop 7 ++ [p]
/-- The best of the vectors, with the port each came from; 8 stands for this node. -/
def bestVector : List (Nat × List Nat) → Option (Nat × List Nat)
  | [] => none
  | x :: rest => match bestVector rest with
    | none => some x
    | some y => if better y.2 x.2 then some y else some x

/-- R283: port states, the slave port, the grandmaster and the servo after a change that selection depends on. -/
def gptpSelect (s : State) : State :=
  let usable := fun (p : Nat) => gptpOn s p && s.is (PORT_STATUS.as_capable p)
  let heard := (List.range 8).filterMap (fun p => if usable p then (s.portOf p).ann.map (fun a => (p, stepped a.vec p)) else none)
  let best := bestVector ((match ownVector s with
    | some v => [(8, v ++ [8])]
    | none => []) ++ heard)
  let ext := s.is NET_GPTP_CFG.ext_port_cfg
  let stateOf := fun (p : Nat) =>
    if !usable p then 0
    else if ext then s.get (PORT_CTRL.ext_state p)
    else match best with
      | none => 1
      | some (q, v) =>
        if q == p then 2
        else
          let mine := v.take 7 ++ [clockId s, p + 1]
          match (s.portOf p).ann with
          | none => 1
          | some a => if better a.vec mine then 3 else 1
  let states := (List.range 8).map stateOf
  let changed := (List.range 8).any (fun p => s.get (PORT_STATUS.gptp_state p) != states.getD p 0)
  let slave := ((List.range 8).find? (fun p => states.getD p 0 == 2)).getD 0xF
  let gm := if ext then slave == 0xF else match best with
    | some (q, _) => q == 8
    | none => false
  let s := s.forEach (List.range 8) (fun p => (·.set (PORT_STATUS.gptp_state p) (states.getD p 0)))
  let s := s.when changed (·.raise NET_EVENTS.gptp_state)
  let s := showPhase (s.set TT_STATUS.slave_port slave)
  let s := match best with
    | some (_, v) => s.setPair NET_GPTP_GM_LO (v.getD 5 0)
    | none => s.setPair NET_GPTP_GM_LO 0
  grandmasterChange gm s

/-- The meaning of LINK_CHANGE. -/
def execLinkChange (p : Fin 8) (up : Bool) (speed : Fin 6) (s : State) : Outcome := .next (gptpSelect (linkChange p up speed s))

/-- R283: a received Announce: priority1, class, accuracy, variance, priority2, grandmaster, stepsRemoved, sender and port, and
the announce interval in ns. -/
def announceReceive (p : Nat) (vec : List Nat) (interval : Nat) (s : State) : State :=
  if !gptpOn s p || vec.getD 7 0 == clockId s || 255 ≤ vec.getD 6 0 then s
  else gptpSelect (s.modPort p (fun h => { h with ann := some ⟨vec, s.now, interval⟩ }))
/-- The meaning of ANNOUNCE_RECEIVE. -/
def execAnnounceReceive (p : Fin 8) (vec : Vector Nat 9) (interval : Nat) (s : State) : Outcome :=
  .next (inCore (announceReceive p vec.toList interval) s)

/-- R283: no Announce for announceReceiptTimeout (3) intervals. -/
def announceTimeout (p : Nat) (s : State) : State :=
  match (s.portOf p).ann with
  | some a => if s.due (a.tt + 3 * a.interval) then gptpSelect (s.modPort p (fun h => { h with ann := none })) else s
  | none => s
/-- The meaning of ANNOUNCE_RECEIPT_TIMEOUT. -/
def execAnnounceReceiptTimeout (p : Fin 8) (s : State) : Outcome := .next (inCore (announceTimeout p) s)

/-- A gPTP message waits for the frame in progress to end (R273). -/
def gptpQueue (p kind seq : Nat) (times : List Int) (s : State) : State :=
  s.modPort p (fun h => { h with gq := h.gq ++ [⟨kind, seq, s.now, times⟩] })
/-- The next sequence number of a kind at port `p`: 0 Sync, 1 Pdelay_Req, 2 Announce. -/
def gptpSeq (p k : Nat) (s : State) : Nat × State :=
  (atD (s.portOf p).seqs k 0, s.modPort p (fun h => { h with seqs := updAt h.seqs k (fun n => (n + 1) % 65536) }))

/-- The interval of a kind of NET_GPTP_INT in ns: 0 Sync, 1 Pdelay_Req, 2 Announce (R283). -/
def gptpInterval (s : State) (k : Nat) : Nat :=
  let e := signedN 4 (s.regN NET_GPTP_INT / 16 ^ k)
  if e < 0 then 1000000000 / 2 ^ e.natAbs else 1000000000 * 2 ^ e.natAbs
/-- R283: the interval since the last message of kind `k` at port `p` has passed. -/
def gptpDue (s : State) (p k : Nat) : Bool :=
  let at_ := atD (s.portOf p).nextAt k 0
  s.due at_ || s.now + gptpInterval s k < at_
/-- The next interval of kind `k` begins. -/
def gptpSent (p k : Nat) (s : State) : State :=
  s.modPort p (fun h => { h with nextAt := updAt h.nextAt k (fun _ => s.now + gptpInterval s k) })

/-- R283, R84: a master port sends a two-step Sync with its Follow_Up at its interval: the grandmaster its own time, and any other
node once it has a Sync to relay. While the TT servo function disables, no exchange starts (R90). -/
def syncSend (p : Nat) (s : State) : State :=
  if !s.disabling 1 && gptpOn s p && s.get (PORT_STATUS.gptp_state p) == 1 && gptpDue s p 0 && (s.tt.gm || s.tt.relay.isSome) then
    let (n, s) := gptpSeq p 0 (gptpSent p 0 s)
    gptpQueue p 1 n [] (gptpQueue p 0 n [] s)
  else s
/-- The meaning of SYNC_SEND. -/
def execSyncSend (p : Fin 8) (s : State) : Outcome := .next (inCore (syncSend p) s)
/-- R283: a master port sends an Announce at its interval. -/
def announceSend (p : Nat) (s : State) : State :=
  if gptpOn s p && s.get (PORT_STATUS.gptp_state p) == 1 && gptpDue s p 2 then
    let (n, s) := gptpSeq p 2 (gptpSent p 2 s)
    gptpQueue p 5 n [] s
  else s
/-- The meaning of ANNOUNCE_SEND. -/
def execAnnounceSend (p : Fin 8) (s : State) : Outcome := .next (inCore (announceSend p) s)
/-- R283: a gPTP port sends Pdelay_Req at its interval, or again where its exchange is in progress (Table TT-5, rung 1). While the
TT servo function disables, no exchange starts; one in progress is still repeated until it completes (R90). -/
def pdelayReqSend (p : Nat) (s : State) : State :=
  if !gptpOn s p || !((gptpDue s p 1 && !s.disabling 1) || (s.portOf p).t1.isSome) then s
  else
    let (n, s) := gptpSeq p 1 (gptpSent p 1 s)
    gptpQueue p 2 n [] s
/-- The meaning of PDELAY_REQ_SEND. -/
def execPdelayReqSend (p : Fin 8) (s : State) : Outcome := .next (inCore (pdelayReqSend p) s)
/-- R84: a Pdelay_Req received `eighth` eighths after the present edge is answered by hardware in either mode. -/
def pdelayReq (p eighth seq : Nat) (s : State) : State :=
  if gptpOn s p then gptpQueue p 4 seq [] (gptpQueue p 3 seq [stampAt s eighth] s) else s
/-- The meaning of PDELAY_REQ. -/
def execPdelayReq (at_ : Fin 8 × Fin 8) (seq : Fin 65536) (s : State) : Outcome := .next (inCore (pdelayReq at_.1 at_.2 seq) s)

/-- R84, R283: a Pdelay exchange completes: t2 and t3 come with the answer in units of 2^-8 ns, t1 and t4 are the stamps of the
request sent and of the answer's arrival `eighth` eighths after the present edge.  An answer with another sequence number than that
of the last request has no effect (log 126). -/
def pdelayResp (p eighth seq : Nat) (t2 t3 : Int) (s : State) : State :=
  match (s.portOf p).t1 with
  | none => s
  | some t1 =>
  if !gptpOn s p || (seq + 1) % 65536 != atD (s.portOf p).seqs 1 0 then s
  else
    let t4 := stampAt s eighth
    -- neighborRateRatio from this exchange and the one before, 1 while there is none
    let (n3, n4) : Int × Int := match (s.portOf p).pdelay with
      | some (a, b) => if b < t4 && a < t3 then (t3 - a, t4 - b) else (1, 1)
      | none => (1, 1)
    let d := ((t4 - t1) * n3 - (t3 - t2) * n4) / (2 * n4)
    let d := (max 0 (min d 0xFFFFFFFE)).toNat
    let s := (s.setN (TT_PORT_DELAY p) d).modPort p (fun h =>
      { h with pdelay := some (t3, t4), t1 := none, nrr := n3 * 2 ^ 41 / n4 - 2 ^ 41 })
    -- neighborPropDelayThresh is 800 ns
    gptpSelect (s.setB (PORT_STATUS.as_capable p) (d ≤ 800 * 256))
/-- The meaning of PDELAY_RESP_RECEIVE. -/
def execPdelayRespReceive (p : Fin 8) (eighth : Fin 8) (seq : Fin 65536) (t2 t3 : Int) (s : State) : Outcome :=
  .next (inCore (pdelayResp p eighth seq t2 t3) s)

end Sys2Proof.Machine
end

