-- ==== Sys2Proof/Machine/Bus.lean ====
section
/-!
DEFINITION. Sys2Proof/Machine/Bus.lean: the CAN controllers, MVB ports, UARTs, SPI and I2C controllers (R296 to R313).
Units are numbered: CAN 0 to 7, MVB 8 and 9, UART 10 to 17, SPI 18 to 21, I2C 22 and 23.
-/
namespace Sys2Proof.Machine

/-! ### Common (R296 to R301) -/

/-- The address of unit `u`'s X_CTRL (Table BUS-1). -/
def busBase (u : Nat) : Nat :=
  if u < 8 then CAN_CTRL u else if u < 10 then MVB_CTRL (u - 8) else if u < 18 then UART_CTRL (u - 10)
  else if u < 22 then SPI_CTRL (u - 18) else I2C_CTRL (u - 22)
/-- X_STATUS.state: 0 OFF, 1 RUN, 2 DISABLING. -/
def busState (s : State) (u : Nat) : Nat := s.get ⟨busBase u + 4, 0, 2⟩
/-- Sets X_STATUS.state. -/
def busTo (u st : Nat) (s : State) : State := s.set ⟨busBase u + 4, 0, 2⟩ st
/-- Raises bit `b` of X_EVENTS. -/
def busRaise (u b : Nat) (s : State) : State := s.raise ⟨busBase u + 8, b, 1⟩
/-- R297: who writes the registers. -/
def busWriter : Master → Bool
  | .tile _ _ sup => sup
  | .switch => false
  | _ => true
/-- X_CTRL.policy: ABORT. -/
def busAbort (s : State) (u : Nat) : Bool := s.is ⟨busBase u, 1, 1⟩
/-- R299: the CAN and MVB controllers hold. -/
def busClockHold (s : State) : Bool :=
  s.get CLK_STATUS.mode == mSTART || (s.get CLK_STATUS.mode == mLULL && !s.is CLK_PERIOD_MEAS.valid)
/-- A controller may transmit (R299, R300). -/
def busSends (s : State) (u : Nat) : Bool := busState s u != 0 && !s.frost && !(u < 10 && busClockHold s)

/-- Changes CAN controller `n`'s hidden state. -/
def State.modCan (s : State) (n : Nat) (f : CanH → CanH) : State := { s with bus := { s.bus with can := updAt s.bus.can n f } }
/-- CAN controller `n`'s hidden state. -/
def State.canOf (s : State) (n : Nat) : CanH := atD s.bus.can n CanH.reset
/-- Changes MVB port `m`'s hidden state. -/
def State.modMvb (s : State) (m : Nat) (f : MvbH → MvbH) : State := { s with bus := { s.bus with mvb := updAt s.bus.mvb m f } }
/-- MVB port `m`'s hidden state. -/
def State.mvbOf (s : State) (m : Nat) : MvbH := atD s.bus.mvb m MvbH.reset
/-- Changes the hidden state of unit `u`, a UART, SPI or I2C controller. -/
def State.modSer (s : State) (u : Nat) (f : SerH → SerH) : State := { s with bus := { s.bus with ser := updAt s.bus.ser (u - 10) f } }
/-- The hidden state of unit `u`, a UART, SPI or I2C controller. -/
def State.serOf (s : State) (u : Nat) : SerH := atD s.bus.ser (u - 10) SerH.reset
/-- The entries a transmit or receive FIFO of unit `u` holds: UART 64, SPI 32, I2C 16 (R310 to R312). -/
def fifoDepth (u : Nat) : Nat := if u < 18 then 64 else if u < 22 then 32 else 16

/-- The fill level of a FIFO, which the pace sources 0x30 to 0x4F use (R301). -/
def busLevel (s : State) (u : Nat) (rx : Bool) : Nat :=
  if u < 8 then (if rx then (s.canOf u).rx.length else 0)
  else if u < 10 then 0
  else if rx then (s.serOf u).rx.length else (s.serOf u).tx.length

/-- X_STATUS as a read shows it. -/
def busStatus (s : State) (u : Nat) : Word :=
  let v := s.reg (busBase u + 4)
  let v := withBits v 2 1 (if s.frost then 1 else 0)
  let v := if u < 10 then withBits v 4 1 (if busClockHold s then 1 else 0) else v
  let rx := busLevel s u true
  let tx := busLevel s u false
  if u < 10 then v
  else if u < 18 then withBits (withBits v 4 9 rx) 13 8 tx
  else if u < 22 then
    withBits (withBits (withBits v 4 7 rx) 11 7 tx) 18 1 (if busState s u != 0 && !s.is (SPI_CTRL.target (u - 18)) && tx != 0 && !s.frost then 1 else 0)
  else withBits (withBits (withBits v 5 5 rx) 10 5 tx) 4 1 (if ((s.serOf u).xfer.isSome && !s.frost) || (s.serOf u).stretch.isSome then 1 else 0)

/-- The configuration check of R298: R303 for CAN, and the ranges of R310 to R312. -/
def busCheck (s : State) (u : Nat) : Bool :=
  if u < 8 then
    let tq := s.get (CAN_NBT_TQ.tq u)
    let t1 := s.get (CAN_NBT_SEG.tseg1 u)
    let t2 := s.get (CAN_NBT_SEG.tseg2 u)
    let sj := s.get (CAN_NBT_SEG.sjw u)
    let dq := s.get (CAN_DBT_TQ.tq u)
    let d1 := s.get (CAN_DBT_SEG.tseg1 u)
    let d2 := s.get (CAN_DBT_SEG.tseg2 u)
    let ds := s.get (CAN_DBT_SEG.sjw u)
    200 ≤ tq && 200 ≤ dq && 2 ≤ t1 && 1 ≤ t2 && 1 ≤ sj && sj ≤ t2 && 1 ≤ d1 && 1 ≤ d2 && 1 ≤ ds && ds ≤ d2 &&
      16000 ≤ (1 + t1 + t2) * tq && 2000 ≤ (1 + d1 + d2) * dq
  else if u < 10 then true
  else if u < 18 then 1600 ≤ s.get (UART_BIT.bit (u - 10)) && s.get (UART_CTRL.bits (u - 10)) ≤ 4 && s.get (UART_CTRL.parity (u - 10)) ≤ 2
  else if u < 22 then 160 ≤ s.get (SPI_SCK.half (u - 18)) && 3 ≤ s.get (SPI_CTRL.bits (u - 18))
  else s.get (I2C_CTRL.speed (u - 22)) ≤ 2

/-- The FIFOs of unit `u` are emptied. -/
def busEmpty (u : Nat) (s : State) : State :=
  if u < 8 then (s.modCan u (fun _ => CanH.reset)).setN (CAN_TX_PEND u) 0
  else if u < 10 then s.modMvb (u - 8) (fun h => { h with reply := none, sink := [], admin := none })
  else s.modSer u (fun _ => SerH.reset)

/-- The fields of X_CTRL other than enable, written in OFF (R297). -/
def busFields (u : Nat) (v : Word) (s : State) : State :=
  let r := busBase u
  let mask := ((regRow r).map (·.rw)).getD 0
  s.setReg r (withBits (v &&& BitVec.ofNat 32 mask) 0 1 (s.get ⟨r, 0, 1⟩))

/-- R298: a write of X_CTRL with enable 1. -/
def busEnable (m : Master) (u : Nat) (v : Word) (s : State) : State :=
  if !busWriter m || busState s u != 0 then s
  else
    let s := busFields u v s
    if busCheck s u then ((busTo u 1 (busEmpty u s)).set ⟨busBase u + 4, 3, 1⟩ 0).set ⟨busBase u, 0, 1⟩ 1
    else s.set ⟨busBase u + 4, 3, 1⟩ 1
/-- The meaning of BUS_ENABLE. -/
def execBusEnable (m : Master) (u : Fin 24) (v : Word) (s : State) : Outcome := .next (inCore (busEnable m u v) s)

/-- The buffers a CAN controller has pending. -/
def canPending (s : State) (n : Nat) : List Nat := (List.range 16).filter (bitN (s.regN (CAN_TX_PEND n)))

/-- auto_reply of buffer `b` (Table BUS-2). -/
def canAuto (n b : Nat) : Fld := ⟨CAN_TXB n b 1, 6, 1⟩
/-- The arbitration value of a buffer: its identifier as sent, base frames before extended ones of the same base, data before
remote. -/
def canArb (s : State) (n b : Nat) : Nat :=
  let w := s.reg (CAN_TXB n b 0)
  let id := bitsOf w 0 29
  let ide := bitsOf w 29 1
  let rtr := bitsOf w 30 1
  -- base identifier, then SRR or RTR, IDE, extension, RTR
  id / 2 ^ 18 * 2 ^ 21 + (if ide == 1 then 2 ^ 20 + 2 ^ 19 + id % 2 ^ 18 * 2 + rtr else rtr * 2 ^ 20)
/-- R304, R306: the buffer that enters arbitration next; those answered automatically only for a remote frame. -/
def canChosen (s : State) (n : Nat) : Option Nat :=
  let l := (canPending s n).filter (fun b => !s.is (canAuto n b) || (s.canOf n).replies.contains b)
  l.foldl (fun best b => match best with
    | none => some b
    | some a => if canArb s n b < canArb s n a then some b else best) none
/-- R304: the buffer chosen now enters arbitration, if the bus is idle; none does while the controller may not send. -/
def canPick (n : Nat) (s : State) : State :=
  if busSends s n && !s.is (CAN_CTRL.monitor n) && s.get (CAN_STATUS.fault n) != 2 then
    s.modCan n (fun h => { h with wire := (h.wire ++ (canChosen s n).toList).dedup })
  else s
/-- R304: at bus-idle the choice is made again. -/
def canIdle (n : Nat) (s : State) : State := canPick n (s.modCan n (fun h => { h with wire := [] }))
/-- Whether the frame of buffer `b` may be on the wire: chosen at a bus-idle before (a hold lets it complete, R299), or now. -/
def canOnWire (s : State) (n b : Nat) : Bool :=
  (canPending s n).contains b && ((s.canOf n).wire.contains b || (busSends s n && canChosen s n == some b))

/-- R298: a write of X_CTRL with enable 0; `wire` is the entry on the wire: the buffer of a CAN controller, any number of another
one. -/
def busDisable (m : Master) (u : Nat) (v : Word) (wire : Option Nat) (s : State) : State :=
  if !busWriter m then s
  else if busState s u == 0 then busFields u v s
  else if busState s u != 1 then s
  else
    let s := (busTo u 2 s).set ⟨busBase u, 0, 1⟩ 0
    let left := fun (n : Nat) (s : State) => s.set ⟨busBase u + 4, 24, 8⟩ (min n 255)
    if !busAbort s u then left 0 s
    else if u < 8 then
      let keep := (canPending s u).filter (fun b => some b == wire && canOnWire s u b)
      let gone := (canPending s u).length - keep.length
      left gone ((s.setN (CAN_TX_PEND u) ((keep.map (2 ^ ·)).sum)).modCan u (fun h => { h with
        wire := keep, replies := h.replies.filter keep.contains, cancel := keep }))
    else if u < 10 then
      if wire.isSome then left 0 s
      else left (if (s.mvbOf (u - 8)).reply.isSome then 1 else 0) (s.modMvb (u - 8) (fun h => { h with reply := none }))
    else
      let h := s.serOf u
      -- on the wire of an I2C bus is a byte of the FIFO only in a write
      let writes := u < 22 || h.xfer.any (fun x => bitsOf x 10 1 == 0)
      let keep := if wire.isSome && writes then h.tx.take 1 else []
      left (h.tx.length - keep.length) (s.modSer u (fun h => { h with tx := keep, xfer := if wire.isSome then h.xfer else none }))
/-- The meaning of BUS_DISABLE. -/
def execBusDisable (m : Master) (u : Fin 24) (v : Word) (wire : Option (Fin 16)) (s : State) : Outcome :=
  .next (inCore (busDisable m u v (wire.map (·.val))) s)

/-- Nothing is left for a disabling unit to send: everything queued under DRAIN, what was on the wire under ABORT. -/
def busIdle (s : State) (u : Nat) : Bool :=
  if u < 8 then (canPending s u).all (fun b => s.is (canAuto u b) && !(s.canOf u).replies.contains b)
  else if u < 10 then (s.mvbOf (u - 8)).reply.isNone && (s.mvbOf (u - 8)).admin.isNone
  else ((s.serOf u).tx.isEmpty || (22 ≤ u && busAbort s u)) && (s.serOf u).xfer.isNone
/-- R298: a disabling controller reaches OFF; its receive FIFO keeps its contents, and the buffers that only a remote frame would
have sent are discarded too. -/
def busStop (u : Nat) (s : State) : State :=
  if busState s u == 2 && busIdle s u then
    let s := busTo u 0 s
    if u < 8 then
      (s.set ⟨busBase u + 4, 24, 8⟩ (min 255 (s.get ⟨busBase u + 4, 24, 8⟩ + (canPending s u).length))).setN (CAN_TX_PEND u) 0
    else if u < 10 then s
    else s.modSer u (fun h => { h with tx := [], xfer := none, stretch := none, cs := false })
  else s
/-- The meaning of BUS_STOP. -/
def execBusStop (u : Fin 24) (s : State) : Outcome := .next (inCore (busStop u) s)

/-- R301: a push into a receive FIFO of unit `u`. -/
def rxPush (u : Nat) (w : Word) (s : State) : State :=
  let ovf := if u < 22 then 2 else 6
  let ev := if u < 22 then 0 else 3
  if fifoDepth u ≤ (s.serOf u).rx.length then busRaise u ovf s
  else busRaise u ev (s.modSer u (fun h => { h with rx := h.rx ++ [w] }))
/-- R301: a read of unit `u`'s receive FIFO register: the value and the state after. -/
def rxFifoPop (u : Nat) (s : State) : Word × State :=
  if u < 8 then
    match (s.canOf u).rx with
    | [] => (0, s)
    | w :: rest =>
      let frames := match (s.canOf u).frames with
        | n :: more => if n ≤ 1 then more else (n - 1) :: more
        | [] => []
      (w, s.modCan u (fun h => { h with rx := rest, frames := frames }))
  else if u < 10 then (0, s)
  else match (s.serOf u).rx with
    | [] => (0, s)
    | w :: rest => (if 18 ≤ u && u < 22 then w else w ||| BitVec.ofNat 32 (2 ^ 31), s.modSer u (fun h => { h with rx := rest }))
/-- The meaning of RX_FIFO_POP. -/
def execRxFifoPop (u : Fin 24) (s : State) : Outcome :=
  .next (inCore (fun s =>
    let (v, s) := rxFifoPop u s
    { s with data := v }) s)

/-- R310: with rs485 the direction output becomes active before the first character, unless it still is. -/
def uartDe (u : Nat) (s : State) : State :=
  s.when (u < 18 && (s.serOf u).tx.isEmpty && (s.serOf u).deEnd ≤ s.now) (·.modSer u (fun h => { h with deFrom := s.now }))
/-- R301: a write of unit `u`'s transmit FIFO register; a controller that ABORT is stopping takes nothing more to send (R298). -/
def txFifoWrite (m : Master) (u : Nat) (v : Word) (s : State) : State :=
  if !busWriter m || u < 10 || (busState s u == 2 && busAbort s u) then s
  else
    let w := if u < 18 then BitVec.ofNat 32 (bitsOf v 0 9) else if u < 22 then v else BitVec.ofNat 32 (bitsOf v 0 8)
    let h := s.serOf u
    -- R312: the byte a stretching target waits for is sent at once
    if 22 ≤ u && h.stretch.isSome then s.modSer u (fun h => { h with stretch := none })
    else if fifoDepth u ≤ h.tx.length then busRaise u (if u < 22 then 3 else 7) s
    else (uartDe u s).modSer u (fun h => { h with tx := h.tx ++ [w] })
/-- The meaning of TX_FIFO_WRITE. -/
def execTxFifoWrite (m : Master) (u : Fin 24) (v : Word) (s : State) : Outcome := .next (inCore (txFifoWrite m u v) s)

/-! ### CAN FD (R302 to R306) -/

/-- R304: a write of CAN_TX_REQ. -/
def canTxReq (m : Master) (n : Nat) (v : Word) (s : State) : State :=
  if busWriter m && busState s n == 1 then canPick n ((canPick n s).setN (CAN_TX_PEND n) (s.regN (CAN_TX_PEND n) ||| bitsOf v 0 16)) else s
/-- The meaning of CAN_TX_REQ. -/
def execCanTxReq (m : Master) (n : Fin 8) (v : Word) (s : State) : Outcome := .next (inCore (canTxReq m n v) s)
/-- R304: a write of CAN_TX_CANCEL; `wire` is the buffer whose frame is on the wire. -/
def canTxCancel (m : Master) (n : Nat) (v : Word) (wire : Option Nat) (s : State) : State :=
  if !busWriter m then s
  else
    let ask := (List.range 16).filter (bitN (bitsOf v 0 16))
    let busy := fun (b : Nat) => some b == wire && canOnWire s n b
    let now := ask.filter (fun b => !busy b)
    let later := ask.filter busy
    let s := canPick n s
    let s := s.setN (CAN_TX_PEND n) (((canPending s n).filter (fun b => !now.contains b)).map (2 ^ ·)).sum
    canPick n (s.modCan n (fun h => { h with cancel := h.cancel ++ later, replies := h.replies.filter (fun b => !now.contains b) }))
/-- The meaning of CAN_TX_CANCEL. -/
def execCanTxCancel (m : Master) (n : Fin 8) (v : Word) (wire : Option (Fin 16)) (s : State) : Outcome :=
  .next (inCore (canTxCancel m n v (wire.map (·.val))) s)

/-- Fault confinement after new counts (R302). -/
def canFault (n tec rec : Nat) (s : State) : State :=
  let old := s.get (CAN_STATUS.fault n)
  let new := if 256 ≤ tec then 2 else if 128 ≤ tec || 128 ≤ rec then 1 else 0
  let s := ((s.set (CAN_STATUS.tec n) (min tec 255)).set (CAN_STATUS.rec n) (min rec 255)).set (CAN_STATUS.fault n) new
  (s.when (new == 1 && old != 1) (busRaise n 2)).when (new == 2 && old != 2) (busRaise n 3)

/-- The words a frame's data occupies. -/
def canDataWords (w1 : Word) : Nat := (bitsOf w1 16 7 + 3) / 4
/-- The data length of a dlc (R302). -/
def dlcLen (dlc : Nat) (fd : Bool) : Nat :=
  if !fd then min dlc 8 else ([0, 1, 2, 3, 4, 5, 6, 7, 8, 12, 16, 20, 24, 32, 48, 64][dlc]?).getD 64

/-- The identifier word of a frame in the formats of R302: there are no remote frames in FD format. -/
def canPlain (w0 : Word) : Word := if bitsOf w0 31 1 == 1 then withBits w0 30 1 0 else w0
/-- A frame with an error has been heard (R302). -/
def canError (n : Nat) (s : State) : State := busRaise n 5 s
/-- R305, R306: a frame is received whole: its identifier word, its dlc with brs and esi, the TT of its start, its data.  With
fd_enable 0 a frame in FD format is an error to the controller (log 157). -/
def canReceive (n : Nat) (w0 w1 : Word) (start : Word) (data : List Word) (s : State) : State :=
  let w0 := canPlain w0
  if bitsOf w0 31 1 == 1 && !s.is (CAN_CTRL.fd_enable n) then canError n s
  else
    let len := if bitsOf w0 30 1 == 1 then 0 else dlcLen (bitsOf w1 0 4) (bitsOf w0 31 1 == 1)
    let key := bitsOf w0 0 30
    let hit := (List.range 32).find? (fun f => s.is (CAN_FILTER.valid n f) &&
      (key &&& s.get (CAN_MASK.mask n f)) == (bitsOf (s.reg (CAN_FILTER n f)) 0 30 &&& s.get (CAN_MASK.mask n f)))
    let s := match hit with
      | none => s
      | some f =>
        let words := [w0, BitVec.ofNat 32 (bitsOf w1 0 6 + 256 * f + 65536 * len), start] ++ data.take ((len + 3) / 4)
        if 1216 < (s.canOf n).rx.length + words.length then busRaise n 4 s
        else busRaise n 0 (s.modCan n (fun h => { h with rx := h.rx ++ words, frames := h.frames ++ [words.length] }))
    -- a Classical remote frame is answered from the buffers with auto_reply
    if bitsOf w0 30 1 == 1 && bitsOf w0 31 1 == 0 && !s.frost && !s.is (CAN_CTRL.monitor n) then
      let bs := (canPending s n).filter (fun b => s.is (canAuto n b) && bitsOf (s.reg (CAN_TXB n b 0)) 0 30 == key)
      s.modCan n (fun h => { h with replies := (h.replies ++ bs).dedup })
    else s
/-- A frame ends on the bus of a controller that is on and not bus-off, with the receive error count it leaves; one with an error has
no data. -/
def canHeard (n : Nat) (w0 w1 start : Word) (data : Option (List Word)) (rec : Nat) (s : State) : State :=
  if busState s n == 0 || s.get (CAN_STATUS.fault n) == 2 then s
  else
    let s := match data with
      | some d => canReceive n w0 w1 start d s
      | none => canError n s
    canIdle n (canFault n (s.get (CAN_STATUS.tec n)) rec s)
/-- The meaning of CAN_FRAME_RECEIVE; without data the frame met an error (R302). -/
def execCanFrameReceive (n : Fin 8) (w0 w1 start : Word) (data : Option (List Word)) (rec : Fin 256) (s : State) : Outcome :=
  .next (inCore (canHeard n w0 w1 start data rec) s)
/-- The identifier word and the second word of buffer `b` as it is sent: with fd_enable 0 in Classical format, and with brs_enable 0
without bit-rate switching (log 157). -/
def canSent (s : State) (n b : Nat) : Word × Word :=
  let w0 := canPlain (s.reg (CAN_TXB n b 0))
  let w1 := s.reg (CAN_TXB n b 1)
  (if s.is (CAN_CTRL.fd_enable n) then w0 else withBits w0 31 1 0,
   if s.is (CAN_CTRL.fd_enable n) && s.is (CAN_CTRL.brs_enable n) then w1 else withBits w1 4 1 0)

/-- R304: the frame of buffer `b` ends: 0 success, 1 arbitration loss, 2 error; with the counts it leaves and the measured
transmitter delay; `start` is TT[31:0] of its start of frame. -/
def canFrameEnd (n b result tec rec delay : Nat) (start : Word) (s : State) : State :=
  if busState s n == 0 || s.frost || s.is (CAN_CTRL.monitor n) || !canOnWire s n b || s.get (CAN_STATUS.fault n) == 2 then s
  else
    let auto_ := s.is (canAuto n b)
    let (w0, w1) := canSent s n b
    let s := canFault n tec rec s
    let s := s.when (s.is (CAN_TDC.tdc_en n) && bitsOf w1 4 1 == 1 && bitsOf w0 31 1 == 1) (·.set (CAN_TDC.delay_ns n) delay)
    let drop := fun (s : State) => s.setN (CAN_TX_PEND n) (((canPending s n).filter (· != b)).map (2 ^ ·)).sum
    let cancelled := (s.canOf n).cancel.contains b
    let s := s.modCan n (fun h => { h with
      cancel := h.cancel.filter (· != b), replies := if result == 0 then h.replies.filter (· != b) else h.replies })
    canIdle n <| if result == 0 then
      let s := s.when (s.is (CAN_CTRL.loopback n)) (canReceive n w0 w1 start
        ((List.range 16).map (fun w => s.reg (CAN_TXB n b (w + 2)))))
      if auto_ then (busRaise n 6 s).when cancelled drop else busRaise n 1 (drop s)
    else (s.when (result == 2) (busRaise n 5)).when (cancelled || s.is (CAN_CTRL.no_retx n)) drop
/-- The meaning of CAN_FRAME_END. -/
def execCanFrameEnd (n : Fin 8) (b : Fin 16) (result : Fin 3) (tec : Fin 257) (rec : Fin 256) (at_ : Fin 65536 × Word) (s : State) : Outcome :=
  .next (inCore (canFrameEnd n b result tec rec at_.1 at_.2) s)

/-- R302: bus-off recovery after 128 occurrences of 11 recessive bits. -/
def busOffRecovery (n : Nat) (s : State) : State :=
  if s.get (CAN_STATUS.fault n) == 2 && busState s n != 0 then canIdle n (busRaise n 7 (canFault n 0 0 s)) else s
/-- The meaning of BUS_OFF_RECOVERY. -/
def execBusOffRecovery (n : Fin 8) (s : State) : Outcome := .next (inCore (busOffRecovery n) s)

/-- R304: a write of a transmit buffer word; writes to a pending buffer are ignored. -/
def canTxbWrite (m : Master) (n b w : Nat) (v : Word) (s : State) : State :=
  if busWriter m && !(canPending s n).contains b then
    let s := s.setReg (CAN_TXB n b w) (if w == 1 then v &&& 0x7F else v)
    -- the length is read only and follows dlc and fdf
    s.set ⟨CAN_TXB n b 1, 16, 7⟩ (dlcLen (s.get ⟨CAN_TXB n b 1, 0, 4⟩) (s.is ⟨CAN_TXB n b 0, 31, 1⟩))
  else s

/-! ### MVB (R307 to R309) -/

/-- The 32-bit words of a port's data by its F_code: 16 bits to 256 bits. -/
def mvbWords (f : Nat) : Nat := max 1 (2 ^ f / 2)
/-- A committed word of port `p`. -/
def mvbWord (s : State) (m p w : Nat) : Word := (lookup (s.mvbOf m).data (8 * p + w)).getD 0
/-- The committed words of port `p`. -/
def mvbData (s : State) (m p : Nat) : List Word :=
  (List.range (mvbWords (s.get (MVB_PORT_CFG.f_code m p)))).map (mvbWord s m p)
/-- Commits words to port `p`. -/
def mvbCommit (m p : Nat) (ws : List Word) (s : State) : State :=
  s.modMvb m (fun h => { h with data := ws.zipIdx.foldl (fun d e => store d (8 * p + e.2) e.1 0) h.data })

/-- A line of port `m` is enabled: A, or B (R307). -/
def mvbLineOn (s : State) (m : Nat) (line : Bool) : Bool := if line then s.is (MVB_CTRL.line_b_en m) else s.is (MVB_CTRL.line_a_en m)
/-- R307, R308: a master frame is heard; `line` is the line chosen, one that is enabled, and the reply's words are those committed
now. -/
def mvbMasterFrame (m addr f : Nat) (line : Bool) (s : State) : State :=
  if busState s (8 + m) == 0 || !mvbLineOn s m line then s
  else
    let s := s.when (s.is (MVB_STATUS.line m) != line) (busRaise (8 + m) 3)
    let s := s.setB (MVB_STATUS.line m) line
    let mine := fun (dir : Nat) => (List.range 256).filter (fun p =>
      s.get (MVB_PORT_CFG.dir m p) == dir && s.get (MVB_PORT_CFG.address m p) == addr && s.get (MVB_PORT_CFG.f_code m p) == f)
    let reply := if !busSends s (8 + m) then none
      else if f ≤ 4 then ((mine 1)[0]?).map (fun p => (p, mvbData s m p))
      else if f == 15 && addr == s.get (MVB_CTRL.address m) then some (256, [s.reg (MVB_DEV_STATUS m)])
      else none
    s.modMvb m (fun h => { h with reply := reply, sink := if f ≤ 4 then mine 2 else [] })
/-- The meaning of MVB_MASTER_FRAME. -/
def execMvbMasterFrame (m : Fin 2) (addr : Fin 4096) (f : Fin 16) (line : Bool) (s : State) : Outcome :=
  .next (inCore (mvbMasterFrame m addr f line) s)

/-- R308: the preloaded slave frame is sent; in a hold or under Frost that came after the master frame it is not (R299, R300). -/
def mvbSlaveReply (m : Nat) (s : State) : State :=
  match (s.mvbOf m).reply with
  | none => s
  | some (p, _) => if !busSends s (8 + m) then s.modMvb m (fun h => { h with reply := none }) else busRaise (8 + m) (if p == 256 then 6 else 1) (s.modMvb m (fun h => { h with reply := none }))
/-- The meaning of MVB_SLAVE_REPLY. -/
def execMvbSlaveReply (m : Fin 2) (s : State) : Outcome := .next (inCore (mvbSlaveReply m) s)

/-- R309: an administrator's master frame is answered by a slave frame with a line error; its end raises admin_done (log 158). -/
def mvbAdminError (m : Nat) (s : State) : State :=
  s.when (s.mvbOf m).admin.isSome (fun s =>
    busRaise (8 + m) 4 ((s.modMvb m (fun h => { h with admin := none })).set (MVB_ADMIN_RESULT.result m) 2))
/-- R308: a slave frame for the sink ports of the last master frame; `ok` is false for a frame with a line error. -/
def mvbSinkReceive (m : Nat) (ws : List Word) (ok : Bool) (s : State) : State :=
  if busState s (8 + m) == 0 then s
  else if !ok then mvbAdminError m (busRaise (8 + m) 2 (s.modMvb m (fun h => { h with sink := [] })))
  else
    let ps := (s.mvbOf m).sink.filter (fun p => mvbWords (s.get (MVB_PORT_CFG.f_code m p)) == ws.length)
    let s := s.modMvb m (fun h => { h with sink := [] })
    s.forEach ps (fun p s =>
      let s := mvbCommit m p ws s
      let s := (s.setN (MVB_PORT_STAT m p) 65536).modMvb m (fun h => { h with sunk := store h.sunk p (s.now + 1) 0 })
      s.when (s.is (MVB_PORT_CFG.ev m p)) (busRaise (8 + m) 0))
/-- The meaning of MVB_SINK_RECEIVE. -/
def execMvbSinkReceive (m : Fin 2) (ws : List Word) (ok : Bool) (s : State) : Outcome := .next (inCore (mvbSinkReceive m ws ok) s)

/-- R308: a write of word `w` of a source port: staged, and committed with the others by the last word. -/
def mvbDataWrite (mas : Master) (m p w : Nat) (v : Word) (s : State) : State :=
  if !busWriter mas || s.get (MVB_PORT_CFG.dir m p) != 1 then s
  else
    let n := mvbWords (s.get (MVB_PORT_CFG.f_code m p))
    let s := s.modMvb m (fun h => { h with staged := store h.staged (8 * p + w) v 0 })
    if w + 1 == n then mvbCommit m p ((List.range n).map (fun k => (lookup (s.mvbOf m).staged (8 * p + k)).getD 0)) s else s
/-- The meaning of MVB_SOURCE_COMMIT. -/
def execMvbSourceCommit (mas : Master) (m : Fin 2) (p : Fin 256) (v : Word) (s : State) : Outcome :=
  .next (inCore (fun s => mvbDataWrite mas m p (mvbWords (s.get (MVB_PORT_CFG.f_code m p)) - 1) v s) s)

/-- R308: a read of word `w` of port `p`: the value, and the state with the reader's latch after it. -/
def mvbDataRead (r : Reader) (m p w : Nat) (s : State) : Word × State :=
  let n := mvbWords (s.get (MVB_PORT_CFG.f_code m p))
  if s.get (MVB_PORT_CFG.dir m p) != 2 then (mvbWord s m p w, s)
  else
    let others := (s.mvbOf m).latches.filter (fun l => l.1 != r)
    let put := fun (l : List (Reader × Nat × List Word × Nat)) (s : State) => s.modMvb m (fun h => { h with latches := l })
    if w == 0 then
      let ws := mvbData s m p
      ((ws[0]?).getD 0, put (if n == 1 then others else (r, p, ws, 0) :: others) s)
    else match (s.mvbOf m).latches.find? (fun l => l.1 == r && l.2.1 == p) with
      | some l => ((l.2.2.1[w]?).getD 0, if w + 1 == n then put others s else s)
      | none => (mvbWord s m p w, s)
/-- The meaning of MVB_SINK_READ. -/
def execMvbSinkRead (r : Reader) (m : Fin 2) (p : Fin 256) (s : State) : Outcome :=
  .next (inCore (fun s =>
    let (v, s) := mvbDataRead r m p 0 s
    { s with data := v }) s)
/-- R308: a port latch not emptied empties 64 clk after its capture. -/
def mvbLatchExpiry (r : Reader) (m : Nat) (s : State) : State :=
  s.modMvb m (fun h => { h with latches := h.latches.filter (fun l => !(l.1 == r && 64 ≤ l.2.2.2)) })
/-- The meaning of MVB_PORT_LATCH_EXPIRY. -/
def execMvbPortLatchExpiry (r : Reader) (m : Fin 2) (s : State) : Outcome := .next (inCore (mvbLatchExpiry r m) s)
/-- One edge of the port latches' expiry counts. -/
def mvbCycle (s : State) : State :=
  { s with bus := { s.bus with mvb := s.bus.mvb.map (fun h => { h with
    latches := h.latches.map (fun l => (l.1, l.2.1, l.2.2.1, l.2.2.2 + 1)) }) } }
/-- MVB_PORT_STAT as a read shows it: the age in ms, saturating. -/
def mvbPortStat (s : State) (m p : Nat) : Word :=
  match lookup (s.mvbOf m).sunk p with
  | some t => BitVec.ofNat 32 (65536 + min 0xFFFF ((s.now + 1 - t) / 1000000))
  | none => s.reg (MVB_PORT_STAT m p)

/-- R309: a write of MVB_ADMIN_CMD. -/
def mvbAdminCmd (mas : Master) (m : Nat) (v : Word) (s : State) : State :=
  if !busWriter mas || !s.is (MVB_CTRL.admin m) || busState s (8 + m) != 1 || !busSends s (8 + m) then s
  else if (s.mvbOf m).admin.isSome then s.set (MVB_ADMIN_RESULT.result m) 3
  else
    -- the port answers its own master frame like any other device, on the line it has chosen where that is enabled
    let line := s.is (MVB_STATUS.line m)
    let s := mvbMasterFrame m (bitsOf v 0 12) (bitsOf v 12 4) (if mvbLineOn s m line then line else !line) s
    s.modMvb m (fun h => { h with admin := some s.now })
/-- The meaning of MVB_ADMIN_CMD. -/
def execMvbAdminCmd (mas : Master) (m : Fin 2) (v : Word) (s : State) : Outcome := .next (inCore (mvbAdminCmd mas m v) s)
/-- The last TT at which a slave frame answers the administrator's master frame: 43 µs after that was sent (R309). -/
def mvbAdminEnd (s : State) (m : Nat) : Option Nat := (s.mvbOf m).admin.map (· + 43000)
/-- R309: no slave frame within 43 µs. -/
def mvbAdminTimeout (m : Nat) (s : State) : State :=
  if (mvbAdminEnd s m).any (· < s.now) then
    busRaise (8 + m) 5 ((s.modMvb m (fun h => { h with admin := none, sink := [] })).set (MVB_ADMIN_RESULT.result m) 1)
  else s
/-- The meaning of MVB_ADMIN_TIMEOUT. -/
def execMvbAdminTimeout (m : Fin 2) (s : State) : Outcome := .next (inCore (mvbAdminTimeout m) s)
/-- R309: a slave frame answers the administrator's master frame. -/
def mvbAdminReply (m : Nat) (ws : List Word) (s : State) : State :=
  if (mvbAdminEnd s m).any (s.now ≤ ·) then
    let s := s.forEach (ws.take 8).zipIdx (fun e => (·.setReg (MVB_ADMIN_DATA m e.2) e.1))
    busRaise (8 + m) 4 ((s.modMvb m (fun h => { h with admin := none })).set (MVB_ADMIN_RESULT.result m) 0)
  else s
/-- The meaning of MVB_ADMIN_REPLY. -/
def execMvbAdminReply (m : Fin 2) (ws : List Word) (s : State) : Outcome := .next (inCore (mvbAdminReply m ws) s)

/-! ### UART, SPI and I2C (R310 to R312) -/

/-- R310: a character has been received, with its error marks. -/
def uartReceive (n : Nat) (c : BitVec 9) (parity framing brk : Bool) (s : State) : State :=
  let u := 10 + n
  if busState s u == 0 then s
  else
    let bits := s.get (UART_CTRL.bits n) + 5
    let w := BitVec.ofNat 32 (c.toNat % 2 ^ bits + (if parity then 512 else 0) + (if framing then 1024 else 0) + (if brk then 2048 else 0))
    let s := (rxPush u w s).modSer u (fun h => { h with heard := true })
    ((s.when framing (busRaise u 4)).when parity (busRaise u 5)).when brk (busRaise u 6)
/-- R310: with rs485 the start bit comes lead_ns after the direction output. -/
def uartLed (s : State) (n : Nat) : Bool :=
  !s.is (UART_CTRL.rs485 n) || s.due ((s.serOf (10 + n)).deFrom + s.get (UART_DE.lead_ns n))
/-- R310: the character at the head of the transmit FIFO has been sent; after the last one the direction output stays active for
lag_ns. -/
def uartSent (n : Nat) (s : State) : State :=
  let u := 10 + n
  match (s.serOf u).tx with
  | [] => s
  | c :: rest =>
    if !busSends s u || !uartLed s n then s
    else
      let s := s.modSer u (fun h => { h with tx := rest, deEnd := if rest.isEmpty then s.now + s.get (UART_DE.lag_ns n) else h.deEnd })
      let s := s.when rest.isEmpty (busRaise u 1)
      s.when (s.is (UART_CTRL.loopback n)) (uartReceive n (BitVec.ofNat 9 c.toNat) false false false)
/-- The meaning of UART_CHARACTER. -/
def execUartCharacter (n : Fin 8) (sent : Bool) (c : BitVec 9) (parity framing brk : Bool) (s : State) : Outcome :=
  .next (inCore (fun s => if sent then uartSent n s else uartReceive n c parity framing brk s) s)
/-- R310: the line has been idle for 2 character times after a received character. -/
def uartIdle (n : Nat) (s : State) : State :=
  if busState s (10 + n) == 0 || !(s.serOf (10 + n)).heard then s
  else busRaise (10 + n) 7 (s.modSer (10 + n) (fun h => { h with heard := false }))
/-- The meaning of UART_IDLE. -/
def execUartIdle (n : Fin 8) (s : State) : Outcome := .next (inCore (uartIdle n) s)

/-- R311: a word transfer completes with the word received; `last`: a target's chip select ends with it. -/
def spiWord (n : Nat) (w : Word) (last : Bool) (s : State) : State :=
  let u := 18 + n
  let bits := s.get (SPI_CTRL.bits n) + 1
  let h := s.serOf u
  let got := BitVec.ofNat 32 (w.toNat % 2 ^ bits)
  let emptied := fun (s : State) => s.when (h.tx.length == 1) (busRaise u 1)
  if busState s u == 0 then s
  else if s.is (SPI_CTRL.target n) then
    let s := if s.frost then s else if h.tx.isEmpty then busRaise u 4 s else emptied (s.modSer u (fun h => { h with tx := h.tx.drop 1 }))
    (rxPush u got s).when last (busRaise u 5)
  else if h.tx.isEmpty || !busSends s u then s
  else
    let cs := s.is (SPI_CTRL.cs_hold n) && 2 ≤ h.tx.length
    let s := emptied (s.modSer u (fun h => { h with tx := h.tx.drop 1, cs := cs }))
    (rxPush u got s).when (!cs) (busRaise u 5)
/-- The meaning of SPI_WORD. -/
def execSpiWord (n : Fin 4) (w : Word) (last : Bool) (s : State) : Outcome := .next (inCore (spiWord n w last) s)

/-- R312: a write of I2C_CMD starts a controller transfer; one written in Frost starts at Thaw (R300). -/
def i2cCmd (m : Master) (n : Nat) (v : Word) (s : State) : State :=
  let u := 22 + n
  -- under DRAIN the bytes queued are still to be sent (R298)
  let open_ := busState s u == 1 || (busState s u == 2 && !busAbort s u && !(s.serOf u).tx.isEmpty)
  if busWriter m && open_ && !s.is (I2C_CTRL.target n) && (s.serOf u).xfer.isNone then
    s.modSer u (fun h => { h with xfer := some v })
  else s
/-- The meaning of I2C_CMD. -/
def execI2cCmd (m : Master) (n : Fin 2) (v : Word) (s : State) : Outcome := .next (inCore (i2cCmd m n v) s)

/-- R312: the transfer ends: 0 complete, 1 NACKed, 2 arbitration lost; `sent` bytes written, `got` bytes read. -/
def i2cDone (n result sent : Nat) (got : List Byte) (s : State) : State :=
  let u := 22 + n
  match (s.serOf u).xfer with
  | none => s
  | some v =>
    if s.frost then s
    else
    let count := bitsOf v 12 5 + 1
    let s := s.modSer u (fun h => { h with xfer := none })
    let s := if bitsOf v 10 1 == 1 then s.forEach (got.take count) (fun b => rxPush u (BitVec.ofNat 32 b.toNat))
      else s.modSer u (fun h => { h with tx := h.tx.drop (if result == 0 then count else min sent count) })
    busRaise u result s
/-- The meaning of I2C_TRANSFER_DONE. -/
def execI2cTransferDone (n : Fin 2) (result : Fin 3) (sent : Fin 33) (got : List Byte) (s : State) : Outcome :=
  .next (inCore (i2cDone n result sent got) s)

/-- R312: an outside controller addresses the target, to write bytes to it or to read a byte; in Frost nothing is sent (R300). -/
def i2cTarget (n : Nat) (read : Bool) (got : List Byte) (s : State) : State :=
  let u := 22 + n
  if busState s u == 0 || !s.is (I2C_CTRL.target n) then s
  else
    let s := busRaise u 4 s
    if !read then s.forEach got (fun b => rxPush u (BitVec.ofNat 32 b.toNat))
    else if s.frost then s
    else match (s.serOf u).tx with
      | [] => s.modSer u (fun h => { h with stretch := some s.now })
      | _ :: rest => s.modSer u (fun h => { h with tx := rest })
/-- The meaning of I2C_TARGET_REQUEST. -/
def execI2cTargetRequest (n : Fin 2) (read : Bool) (got : List Byte) (s : State) : Outcome := .next (inCore (i2cTarget n read got) s)

/-- R312: a target has stretched SCL for stretch_us. -/
def stretchTimeout (n : Nat) (s : State) : State :=
  let u := 22 + n
  match (s.serOf u).stretch with
  | none => s
  | some t => if s.due (t + s.get (I2C_STRETCH.stretch_us n) * 1000) then busRaise u 5 (s.modSer u (fun h => { h with stretch := none })) else s
/-- The meaning of STRETCH_TIMEOUT. -/
def execStretchTimeout (n : Fin 2) (s : State) : Outcome := .next (inCore (stretchTimeout n) s)

/-- Rung 3, rung 4 and power-on: OFF, emptied, all reset (Table BUS-4). -/
def busReset (s : State) : State := { (s.resetRegs (fun a => 0x60000 ≤ a && a < 0x80000)) with bus := BusH.reset }

end Sys2Proof.Machine
end

