-- ==== Sys2Proof/Machine/Slots.lean ====
section
/-!
DEFINITION. Sys2Proof/Machine/Slots.lean: fuses, protected records, image slots and their checks (R357 to R371), the
measurement chain (R368), and the copy of TCM images (R336, R372).
-/
namespace Sys2Proof.Machine

/-- Changes the Storekeeper's hidden state. -/
def State.modBoot (s : State) (f : BootH → BootH) : State := { s with boot := f s.boot }

/-! ### Fuses -/

/-- R358: the state of image-key slot `k`: 0 EMPTY, 1 VALID, 2 REVOKED. -/
def keyState (s : State) (k : Nat) : Nat :=
  let e := atD s.boot.keys k ([], false, false)
  if e.2.2 then 2 else if e.2.1 then 1 else 0
/-- R357: fuses are blown only while SUPWARN_N is high. -/
def fusesAllowed (s : State) : Bool := !s.is PWR_STATUS.supwarn

/-! ### Protected records -/

/-- Ids of the protected records (Table BOOT-3; R404, R413, R419). -/
def recACTIVE (x : Nat) : Nat := 1 + x
def recLAST_GOOD : Nat := 3
def recBIND (x : Nat) : Nat := 4 + x
def recMIN_VERSION : Nat := 6
def recBOOT_MODE : Nat := 7
def recRECOVERY_PORTS : Nat := 8
def recADVANCE : Nat := 9
def recCOUNTER (k : Nat) : Nat := 0x10 + k
def recLADDER : Nat := 0x18
def recFAULT_TRAIL : Nat := 0x19

/-- R360: the 16-byte head of a copy; its numbers lie least significant byte first (PRESUMED, log 159). -/
def recHead (c : RecCopy) : List Byte := leBytes 2 c.id ++ leBytes 2 c.body.length ++ leBytes 4 c.seq ++ leBytes 4 c.crc ++ leBytes 4 0
/-- R360: the copies of a record that are valid: those whose head has the CRC-32C of their body. -/
def recCopies (s : State) (id : Nat) : List RecCopy := s.boot.recs.filter (fun c => c.id == id && c.crc == crc32c c.body)
/-- R360: record_fallback where a record read now has one valid copy only. -/
def recFallback (ids : List Nat) (s : State) : State :=
  s.when (ids.any (fun i => (recCopies s i).length == 1)) (·.raise BOOT_EVENTS.record_fallback)
/-- R360: the copy with the higher sequence, modulo 2^32. -/
def newestCopy (l : List RecCopy) : Option RecCopy :=
  l.foldl (fun a c => match a with
    | none => some c
    | some b => if (c.seq + 2 ^ 32 - b.seq) % 2 ^ 32 < 2 ^ 31 then some c else some b) none
/-- R360: the body of a record; none when it is absent. -/
def readRecord (s : State) (id : Nat) : Option (List Byte) := (newestCopy (recCopies s id)).map (·.body)
/-- R360: a write overwrites the other copy with sequence + 1. -/
def writeRecord (id : Nat) (body : List Byte) (s : State) : State :=
  let old := newestCopy (recCopies s id)
  let copy := (old.map (fun c => 1 - c.copy)).getD 0
  let seq := (old.map (fun c => (c.seq + 1) % 2 ^ 32)).getD 1
  s.modBoot (fun b => { b with recs := ⟨id, copy, seq, body, crc32c body⟩ :: b.recs.filter (fun c => !(c.id == id && c.copy == copy)) })
/-- A record reads as absent from now on. -/
def clearRecord (id : Nat) (s : State) : State := s.modBoot (fun b => { b with recs := b.recs.filter (·.id != id) })
/-- Whether the MRAM takes writes of records (R188, R404). -/
def recordsWritable (s : State) : Bool := s.memh.mramOpen

/-- The active flag of slot `x` (0 A, 1 B). -/
def activeFlag (s : State) (x : Nat) : Bool := ((readRecord s (recACTIVE x)).getD []).getD 0 0 == 1
/-- MIN_VERSION. -/
def minVersion (s : State) : Nat := ((readRecord s recMIN_VERSION).map (fun b => u32 b 0)).getD 0
/-- R367: the roll-back floor. -/
def rollbackFloor (s : State) : Nat := max (s.boot.ctr * 2 ^ 24) (minVersion s)

/-- R361: the key that wraps the command keys. -/
def wrappingKey : List Byte := Config.hmac256 Config.deviceKey [0x57, 0x52, 0x41, 0x50]
/-- R359: the regions of the Storekeeper store (Table BOOT-2): offset, size, and the octets from its start that the model holds; it
holds none of the working data, whose contents the spec does not give, and the order within a region is its own (log 160). -/
def storeRegions (s : State) : List (Nat × Nat × List Byte) :=
  let kept := match s.boot.persist with
    | some (b, m) => b ++ m
    | none => []
  [(0x000000, 0x0C0000, s.bytes (mramKey + 0x3C00000) 0xC0000), (0x0C0000, 0x040000, []),
    (0x100000, 0x040000, s.inv.active), (0x140000, 0x040000, s.inv.shadow), (0x180000, 0x040000, s.inv.fallback),
    (0x1C0000, 0x040000, kept), (0x200000, 0x010000, (s.boot.wrapped.toList.filterMap id).flatten), (0x210000, 0x0F0000, [])]

/-! ### Slots -/

/-- The memory key of slot `x`. -/
def slotBase (x : Nat) : Nat := mramKey + 0x1800000 * x
/-- The manifest area of slot `x`. -/
def manifestOf (s : State) (x : Nat) : List Byte := s.bytes (slotBase x) 0x8000
/-- The header fields of a manifest (Table BOOT-6). -/
def manPart (m : List Byte) : Nat := u32 m 0x08
def manVersion (m : List Byte) : Nat := u32 m 0x0C
def manMinVersion (m : List Byte) : Nat := u32 m 0x10
def manSig (m : List Byte) : Nat := u32 m 0x14
def manKey (m : List Byte) : Nat := u8 m 0x18
def manKeys (m : List Byte) : Nat := u8 m 0x19
def manImages (m : List Byte) : Nat := u16 m 0x1A
/-- R368: the slot measurement. -/
def slotMeasure (m : List Byte) : List Byte := Config.sha384 (m.take (manSig m))
/-- The firmware of slot `x`. -/
def firmwareOf (s : State) (x : Nat) : List Byte :=
  let m := manifestOf s x
  s.bytes (slotBase x + u32 m 0x20) (u32 m 0x24)
/-- The inventory area of slot `x`, as long as its header says. -/
def slotInventory (s : State) (x : Nat) : List Byte :=
  let a := slotBase x + 0x100000
  s.bytes a (min 0x40000 (max 0x80 (s.load (a + 8) 4)))

/-- An image entry (Table BOOT-7). -/
structure ImageEntry where
  kind : Nat
  mask : Nat
  src : Nat
  len : Nat
  dest : Nat
  digest : List Byte
  deriving DecidableEq, Repr
/-- Entry `k` of a manifest's image table. -/
def imageEntry (m : List Byte) (k : Nat) : ImageEntry :=
  let o := 0x100 + 2704 * manKeys m + 64 * k
  ⟨u8 m o, u32 m o / 256, u32 m (o + 4), u32 m (o + 8), u32 m (o + 12), slice m (o + 16) 48⟩
/-- Every image entry. -/
def imageEntries (m : List Byte) : List ImageEntry := (List.range (manImages m)).map (imageEntry m)
/-- The bytes an entry of slot `x` names. -/
def imageBytes (s : State) (x : Nat) (e : ImageEntry) : List Byte := s.bytes (slotBase x + e.src) e.len
/-- The key record of image-key slot `k` (R365). -/
def manKeyRecord (m : List Byte) (k : Nat) : Option (List Byte) :=
  ((List.range (manKeys m)).map (fun i => slice m (0x100 + 2704 * i) 2704)).find? (fun r => u8 r 0 == k)
/-- R366: the key record of slot `k`, when it is valid. -/
def validKeyRecord (s : State) (m : List Byte) (k : Nat) : Option (List Byte) :=
  match manKeyRecord m k with
  | none => none
  | some r => if keyState s k == 1 && (Config.sha384 (slice r 16 2688)).take 32 == (atD s.boot.keys k ([], false, false)).1 then some r
    else none

/-- Whether an entry lies within its areas (R367 step 2). -/
def imageOk (e : ImageEntry) : Bool :=
  1 ≤ e.kind && e.kind ≤ 3 && e.src % 32 == 0 && 0x140000 ≤ e.src && e.src + e.len ≤ 0x1800000 && e.len % 4 == 0 &&
  (if e.kind == 3 then e.mask == 0 && e.dest == 0
   else e.len ≤ 262144 && e.dest % 4 == 0 && e.dest + e.len ≤ 0x40000)
/-- Whether two TCM entries write the same bytes of one tile. -/
def imagesMeet (a b : ImageEntry) : Bool :=
  a.kind == b.kind && a.kind != 3 && (a.mask &&& b.mask) != 0 && a.dest < b.dest + b.len && b.dest < a.dest + a.len
/-- No two TCM entries of a list write the same bytes of one tile. -/
def imagesApart : List ImageEntry → Bool
  | [] => true
  | e :: rest => !rest.any (imagesMeet e) && imagesApart rest

/-- Part codes of the earlier members (Table SCO-1). -/
def isEarlier (part : Nat) : Bool := part == 0x0101 || part == 0x0401 || part == 0x1203

/-- The signature block's format: R17's for a Horsor manifest, R370's for an earlier member's. -/
def sigBlockOk (m : List Byte) : Bool :=
  let so := manSig m
  let early := isEarlier (manPart m)
  u8 m so < 8 && zeros m (so + 1) 3 && u32 m (so + 4) == 96 && zeros m (so + 12) 4 &&
  u32 m (so + 8) == (if early then 0 else 4627) && (early || zeros m (so + 16 + 96 + 4627) 13) &&
  so + (if early then 112 else 4752) ≤ 0x8000

/-- R367, steps 1 and 2. -/
def manFormatOk (m : List Byte) : Bool :=
  u32 m 0 == 0x4D534C55 && u16 m 4 == 1 && u16 m 6 == 0x100 && (manPart m == 0x2406 || isEarlier (manPart m)) &&
  1 ≤ manKeys m && manKeys m ≤ 8 && 1 ≤ manImages m && manImages m ≤ 64 && manVersion m != 0 &&
  manSig m == align16 (0x100 + 2704 * manKeys m + 64 * manImages m) && manSig m ≤ 0x8000 &&
  u32 m 0x20 % 4096 == 0 && 0x8000 ≤ u32 m 0x20 && u32 m 0x20 + u32 m 0x24 ≤ 0x100000 && u32 m 0x24 % 4 == 0 &&
  u32 m 0x24 ≤ 786432 && zeros m 0x1C 4 && zeros m 0x2C 4 && zeros m 0x70 144 &&
  (List.range (manKeys m)).all (fun i => zeros m (0x100 + 2704 * i + 1) 15) &&
  zeros m (0x100 + 2704 * manKeys m + 64 * manImages m) (manSig m - (0x100 + 2704 * manKeys m + 64 * manImages m)) &&
  (imageEntries m).all imageOk && imagesApart (imageEntries m) && sigBlockOk m

/-- R370: the bind tag of a slot whose manifest is `m`. -/
def bindTag (m : List Byte) : List Byte :=
  Config.hmac256 Config.deviceKey ([0x42, 0x49, 0x4E, 0x44] ++ slotMeasure m ++ leBytes 4 (manVersion m))
/-- Whether the bind record of slot `x` is valid for its manifest. -/
def slotBound (s : State) (x : Nat) : Bool := readRecord s (recBIND x) == some (bindTag (manifestOf s x))

/-- R367, R370: the manifest check of slot `x`; `bind` says whether R370's bind step is made, `mram` whether an MRAM line read
is uncorrectable.  The answer is a code of Table BOOT-9. -/
def checkManifest (s : State) (x : Nat) (bind mram : Bool) : Nat :=
  let m := manifestOf s x
  let k := manKey m
  let sig := slice m (manSig m) 4752
  let signed := m.take (manSig m)
  if !manFormatOk m then 0x01
  else if keyState s k == 0 then 0x02
  else if keyState s k == 2 then 0x03
  else match validKeyRecord s m k with
    | none => 0x04
    | some r =>
      let early := isEarlier (manPart m)
      let ok := if early then Config.ecdsaVerify (slice r 16 96) (Config.sha384 signed) (slice sig 16 96)
        else signaturesOk s.boot.lc r signed sig
      if !ok then 0x05
      else if early && bind && !slotBound s x then 0x07
      else if 2 ≤ s.boot.lc && s.boot.lc ≤ 4 && manVersion m < rollbackFloor s then 0x06
      else if mram then 0x0B
      else 0

/-- The context of R33's checks for slot `x`'s inventory, or for a staged one of a given total length. -/
def invCtx (s : State) (x : Nat) (total : Option Nat) : InvCtx :=
  { lc := s.boot.lc, keyState := keyState s, keyRecord := validKeyRecord s (manifestOf s x),
    idLow := Config.deviceId.toNat % 2 ^ 32, total := total }

/-- R369: the digests and the inventory of slot `x`: a code of Table BOOT-9 and its detail. -/
def checkContents (s : State) (x : Nat) : Nat × Nat :=
  let m := manifestOf s x
  if Config.sha384 (firmwareOf s x) != slice m 0x30 48 then (0x08, 0)
  else
    let (code, _, _) := checkInventory (slotInventory s x) (invCtx s x none)
    if code != 0 then (0x09, code)
    else match (imageEntries m).findIdx? (fun e => Config.sha384 (imageBytes s x e) != e.digest) with
      | some i => (0x0A, i)
      | none => (0, 0)

/-- R370, R371, R378 step 1: every check of a slot, without the exclusion mask. -/
def checkSlot (s : State) (x : Nat) (bind mram : Bool) : Nat × Nat :=
  let c := checkManifest s x bind mram
  if c != 0 then (c, 0) else checkContents s x

/-- A 48-byte value as shown in 12 words. -/
def show48 (a : Nat) (v : List Byte) (s : State) : State :=
  s.forEach (List.range 12) (fun w => (·.setN (a + 4 * w) (u32 v (4 * w))))

/-! ### Loading TCMs -/

/-- The TCM entries of a manifest that name tile `t`. -/
def entriesFor (m : List Byte) (t : Nat) : List ImageEntry := (imageEntries m).filter (fun e => e.kind != 3 && bitN e.mask t)
/-- The key a TCM entry is loaded at in tile `t`. -/
def tcmDest (t : Nat) (e : ImageEntry) : Nat := (if e.kind == 1 then itcmKey t else dtcmKey t) + e.dest
/-- Copies one TCM entry of slot `x` into tile `t`. -/
def loadEntry (x t : Nat) (e : ImageEntry) (s : State) : State := s.setBytes (tcmDest t e) (imageBytes s x e)
/-- Copies every TCM entry of slot `x` that names tile `t`; the tile may be released when each matches its digest. -/
def loadTile (x t : Nat) (s : State) : State :=
  let es := entriesFor (manifestOf s x) t
  let ok := !es.isEmpty && es.all (fun e => Config.sha384 (imageBytes s x e) == e.digest)
  let s := s.forEach es (loadEntry x t)
  let s := s.forEach es (fun e s => s.goodMem (tcmDest t e) (tcmDest t e + e.len))
  s.modTile t (fun y => { y with unloaded := !ok })

end Sys2Proof.Machine
end

