-- ==== Sys2Proof/Machine/Apply.lean ====
section
/-!
DEFINITION. Sys2Proof/Machine/Apply.lean: how each section of an inventory takes effect (R13, R24, R35 to R37, R45, R71, R183),
and how a power domain comes up again (R335, R336).
-/
namespace Sys2Proof.Machine

/-- A value is loaded into a register where `p` admits its address. -/
def loadReg (p : Nat → Bool) (a v : Nat) (s : State) : State := s.when (p a) (·.setN a v)

/-! ### Fixed sections -/

/-- R71 step 4: the Clock section takes the place of the boot list. -/
def applyClock (b : List Byte) (s : State) : State :=
  let c := section_ b 1
  let s := s.setN CLK_REF_CFG (u8 c 0 + 256 * u8 c 1 + 65536 * u8 c 2 + 2 ^ 24 * u8 c 3 + 2 ^ 28 * u8 c 4)
  let s := s.setN CLK_REF_LIST0 (u32 c 8)
  let s := (s.setN (CLK_REF_LIST12 0) (u32 c 12)).setN (CLK_REF_LIST12 1) (u32 c 16)
  let s := s.set CLK_STATUS.boot_list 0
  s.when (s.get CLK_STATUS.mode == mREF && !s.is CLK_STATUS.glide) spreadStart
/-- R71 step 5: the monitor returns to the boot list. -/
def bootList (s : State) : State :=
  let s := s.resetRegs (fun a => CLK_REF_CFG ≤ a && a ≤ CLK_REF_LIST12 1)
  (s.set CLK_REF_CFG.refin_freq s.clk.bootRefin).set CLK_STATUS.boot_list 1

/-- The bank records and the switch buffer's size (R21). -/
def applyMemory (b : List Byte) (p : Nat → Bool) (s : State) : State :=
  let s := s.forEach (List.range 160) (fun i s =>
    let (kind, index, world) := bankRecord b i
    loadReg p (bankCtrl i + 8) (kind + 8 * index + 256 * world + (if bankCellar b i then 1024 else 0)) s)
  loadReg p NET_BUF_CFG (switchBufMib b) s
/-- The windows of every tile (Table INV-6). -/
def applyWorlds (b : List Byte) (p : Nat → Bool) (s : State) : State :=
  s.forEach (List.range 24) (fun t s => s.forEach (List.range 2) (fun w s => s.forEach (List.range 14) (fun i =>
    loadReg p (EXC_WIN t w i) (worldWord b t w i))))
/-- The safe levels of edge channels. -/
def applyEdgeSafe (b : List Byte) (p : Nat → Bool) (s : State) : State :=
  s.forEach (List.range 6) (fun c => loadReg p (EDG_SAFE_LVL c) ((List.range 16).map (fun k => edgeSafeOf b c k * 4 ^ k)).sum)
/-- The port records (Table INV-10). -/
def applyPortRecs (b : List Byte) (p : Nat → Bool) (s : State) : State :=
  s.forEach (List.range 10) (fun q => loadReg p (PORT_CFG q) (portCfgOf b q))
/-- The INV registers of the addresses that `p` admits are loaded again. -/
def reloadInv (p : Nat → Bool) (s : State) : State :=
  if s.hasInv then applyPortRecs s.invB p (applyEdgeSafe s.invB p (applyWorlds s.invB p (applyMemory s.invB p s))) else s

/-! ### Power domains -/

/-- R182, R183: a bank leaves a low-power state for its default. -/
def bankToDefault (b : Nat) (s : State) : State :=
  match bankDefault s.invB b with
  | 2 => ((bankClamp b true (bankTo b 2 s)).set ⟨bankCtrl b, 0, 2⟩ 2).modBank b (fun h => { h with zero := true })
  | 1 => bankWake b (some 1) s
  | _ => bankWake b none s

/-- The I/O addresses of a power domain's registers (Table MEM-3). -/
def domRegs (d a : Nat) : Bool :=
  if 9 ≤ d && d < 33 then tileBlk (d - 9) ≤ a && a < tileBlk (d - 9) + 0x10000
  else if 33 ≤ d && d < 39 then cluBlk (d - 33) + 0x20000 ≤ a && a < cluBlk (d - 33) + 0x30000
  else if 3 ≤ d && d < 9 then
    cluBlk (d - 3) + 0x10000 ≤ a && a < cluBlk (d - 3) + 0x80000 && !(cluBlk (d - 3) + 0x20000 ≤ a && a < cluBlk (d - 3) + 0x30000)
  else 39 ≤ d && d < 47 && PORT_CFG (d - 39) ≤ a && a < PORT_CFG (d - 38)

/-- What is inside a domain after its supply has been away: memories zero, registers and state at reset (R335, R336). -/
def domFresh (d : Nat) (s : State) : State :=
  let s := reloadInv (domRegs d) (s.resetRegs (domRegs d))
  if 9 ≤ d && d < 33 then
    let t := d - 9
    let s := ((tileReset t 0 s).clearMem (itcmKey t) (itcmKey t + 0x80000)).goodMem (itcmKey t) (itcmKey t + 0x80000)
    let s := s.forEach (List.range 4) (fun k s => s.modDma (4 * t + k) (fun _ => DmaH.reset))
    let s := reloadInv (domRegs d) s
    s.modTile t (fun x => { x with unloaded := true, posted := [] })
  else if 33 ≤ d && d < 39 then
    (s.modAdc (d - 33) 0 (fun _ => AdcH.reset)).modAdc (d - 33) 1 (fun _ => AdcH.reset)
  else if 3 ≤ d && d < 9 then
    let c := d - 3
    let s := s.clearMem (0x10000000 + c * 0x200000) (0x10000000 + (c + 1) * 0x200000)
    let s := s.goodMem (0x10000000 + c * 0x200000) (0x10000000 + (c + 1) * 0x200000)
    let s := s.forEach (List.range 8) (fun k s => s.modDma (96 + 8 * c + k) (fun _ => DmaH.reset))
    let s := { s with turn := updAt s.turn (24 + c) (fun _ => (0, 0)) }
    let s := s.forEach (List.range 16) (fun k s => s.modEdg (16 * c + k) (fun _ => EdgH.reset))
    let s := s.modOmt (fun o => { o with
      shelf := o.shelf.filter (fun e => e.1 / 64 != c),
      cmdResult := Vector.ofFn (fun i => if i.val / 24 == c then 0 else o.cmdResult[i]) })
    let s := s.forEach (List.range 12) (fun g s => s.modGrp g (fun h =>
      { h with
               cmps := h.cmps.filter (·.gate != c), transit := h.transit.filter (fun e => e.1 != c),
               strays := h.strays.filter (fun e => e.1 != c),
               own := h.own.filter (·.gate != c), lead := h.lead.filter (·.gate != c) }))
    s.forEach (List.range 16) (fun k s => bankClamp (64 + 16 * c + k) true <| bankTo (64 + 16 * c + k) 2
      (s.modBank (64 + 16 * c + k) (fun h => { h with zero := true, next := none, woaPend := false })))
  -- the gates of a lane's port are shown from the present schedule (R275)
  else if 39 ≤ d then gateEntry (d - 39) s
  else s

/-- A domain counts as off from its clamp edge: outputs at their safe levels, no Omtas sends, a lane without a link (R337). -/
def domClamp (d : Nat) (s : State) : State :=
  let s := s.raise (PWR_DOM_STAT.clamped d)
  if 39 ≤ d then gptpSelect (linkChange (d - 39) false 0 s)
  else if 9 ≤ d && d < 33 then
    s.modOmt (fun o => { o with tx := updAt (updAt o.tx (2 * (d - 9)) (fun _ => none)) (2 * (d - 9) + 1) (fun _ => none) })
  else if 3 ≤ d && d < 9 then outputsSafe s
  else s

/-- The domains inside a cluster domain, and the domain itself (R333). -/
def domMembers (d : Nat) : List Nat :=
  if 3 ≤ d && d < 9 then (List.range 4).map (fun k => 9 + 4 * (d - 3) + k) ++ [33 + (d - 3), d] else [d]

/-- R24, R355: every domain takes its state of the Power defaults section. -/
def applyPower (b : List Byte) (s : State) : State :=
  s.forEach ((List.range 44).map (· + 3)) (fun d s =>
    let code := domDefault b d
    let off := code != 0 || !wakeable s d
    let s := (s.setB (PWR_DOM_CTRL.req d) (code != 0)).setB (PWR_DOM_CTRL.woa d) (code == 2)
    if off then s.when (s.get (PWR_DOM_STAT.state d) != 1) (fun s => (domClamp d s).set (PWR_DOM_STAT.state d) 1)
    else
      let s := s.when (s.get (PWR_DOM_STAT.state d) != 0) (domFresh d)
      (s.set (PWR_DOM_STAT.state d) 0).set (PWR_DOM_STAT.clamped d) 0)
/-- R183: the banks' leave from Deep retention starts. -/
def applyBanks (b : List Byte) (s : State) : State :=
  let s := s.forEach (List.range 160) (fun i => (·.set ⟨bankCtrl i, 0, 2⟩ (bankDefault b i)))
  (s.raise MEM_STATUS.deep_hold).modMem (fun h => { h with deepNext := some 0, deepBanks := [] })

/-! ### Live sections -/

/-- The active inventory's identity: version, fingerprint and the slot of its key (Tables INV-17, BOOT-16). -/
def showActive (s : State) : State :=
  let b := s.invB
  let f := fingerprint b
  let s := (s.setN INV_VERSION (invVersionOf b)).set BOOT_KEYS.inventory_key (keySlotOf b)
  s.forEach (List.range 3) (fun w => (·.setN (INV_FP w) (u32 f (4 * w))))
/-- R45: the BEACON peer registers follow the manifest that has become active; this node's record agrees. The clearing raises no
peer_change, on which R43 and R45 are silent (log 116, DESIGN CHOICE). -/
def applyManifest (b : List Byte) (s : State) : State :=
  let p := section_ b 0x15
  let s := s.setN INV_CFG (u16 p 2 % 1024 + 65536 * (u16 p 4 % 1024))
  let s := s.resetRegs (fun a => BEACON_PEER_STAT 0 ≤ a && a < BEACON_PEER_STAT 64)
  let s := { s with inv := { s.inv with lastBeacon := [] } }
  s.forEach ((peerRecs b).zipIdx) (fun e s => s.when (bitN e.1.flags 1) (·.set (BEACON_PEER_STAT.state e.2) 1))
/-- The split table at the end of boot: modes and policies; entry 6 is the BOOT_MODE record's (R30, R376). -/
def applySplit (b : List Byte) (s : State) : State :=
  s.forEach (List.range 11) (fun f s =>
    let v := splitByte b f
    let mode := if f == 6 then ((readRecord s recBOOT_MODE).getD []).getD 0 0 |>.toNat else v
    (s.set (HOST_FN_STAT.mode f) mode).set (HOST_FN_STAT.policy f) (v / 2))

/-- The full inventory of a boot takes effect; its Clock and Port roles sections already have (R71, R372). -/
def applyInventory (b : List Byte) (s : State) : State :=
  let s := showActive { s with inv := { s.inv with active := b } }
  let s := applyWorlds b (fun _ => true) (applyMemory b (fun _ => true) s)
  let s := applyBalls b (applyPower b (applyBanks b s))
  let s := applySplit b (applyVote b s)
  let s := { s with pwr := { s.pwr with rstout := false } }
  gptpSelect (applyManifest b (applyScheds b s))

end Sys2Proof.Machine
end

