-- ==== Sys2Proof/Machine/Power.lean ====
section
/-!
DEFINITION. Sys2Proof/Machine/Power.lean: power domains, Doze, entry to Drizzle and Cellar, the Drizzle cycle, waking, and the
reset and supply signals (R333 to R356).
-/
namespace Sys2Proof.Machine

/-- Changes the power block's hidden state. -/
def State.modPwr (s : State) (f : PwrH → PwrH) : State := { s with pwr := f s.pwr }

/-- PWR_STATUS as read: Run, Doze or Entering in its low bits (R338). -/
def readPwrStatus (s : State) : Word :=
  let st := if s.pwr.entry.isSome then 2 else if s.get PWR_STATUS.dozing != 0 then 1 else 0
  withBits (s.reg PWR_STATUS) 0 2 st

/-! ### Domain changes -/

/-- Edge 0 of R335: a domain starts to go Off; a tile enters tile reset, and its posted writes go on (R104). -/
def domEnter (d : Nat) (s : State) : State :=
  let s := (s.set (PWR_DOM_STAT.state d) 2).modPwr (fun p => { p with entering := (d, 0) :: p.entering.filter (fun e => e.1 != d) })
  s.when (9 ≤ d && d < 33) (tileReset (d - 9) 0)
/-- R333, R335: a domain goes Off, with the domains inside it that are not Off yet. -/
def domGoOff (d : Nat) (s : State) : State :=
  s.forEach ((domMembers d).filter (fun x => s.get (PWR_DOM_STAT.state x) == 0 || s.get (PWR_DOM_STAT.state x) == 3)) domEnter
/-- A wake of a domain starts (R334, R335). -/
def domWake (d : Nat) (s : State) : State :=
  ((s.set (PWR_DOM_STAT.state d) 3).set (PWR_DOM_CTRL.req d) 0).modPwr (fun p => { p with domPend := p.domPend.filter (· != d) })

/-- R334: why a request is refused though its writer is allowed. -/
def domRefused (s : State) (m : Master) (d : Nat) (off : Bool) : Bool :=
  let own := match m with
    | .tile t _ _ => d == domTile t || d == domCluster (t / 4)
    | _ => false
  d < 3 || (off && own) || (!off && !wakeable s d) || (off && 39 ≤ d && s.get CLK_STATUS.selected == d - 39)

/-- R334: a write of PWR_DOM_CTRL. -/
def domainRequest (m : Master) (d : Nat) (v : Word) (s : State) : State :=
  let off := v.getLsbD 0
  let st := s.get (PWR_DOM_STAT.state d)
  let result := fun (n : Nat) (s : State) => s.set (PWR_DOM_STAT.req_result d) n
  if !devWriter m then (result 1 s).raise PWR_EVENTS.dom_refused
  else if st == 2 || st == 3 then result 3 s
  else if domRefused s m d off then (result 2 s).raise PWR_EVENTS.dom_refused
  else
    let s := ((result 0 s).setB (PWR_DOM_CTRL.req d) off).setB (PWR_DOM_CTRL.woa d) (v.getLsbD 1)
    let s := s.when (9 ≤ d && d < 33) (·.setB (PWR_DOM_CTRL.hold d) (v.getLsbD 2))
    if off && st == 0 then domGoOff d s
    else if !off && st == 1 then domWake d s
    else s

/-- The meaning of DOMAIN_REQUEST. -/
def execDomainRequest (m : Master) (d : Fin 47) (v : Word) (s : State) : Outcome := .next (inCore (domainRequest m d v) s)

/-- One core edge of the domains Entering: the clamps engage on edge 3 (R335). -/
def domCycle (s : State) : State :=
  let s := s.forEach s.pwr.entering (fun e s => s.when (e.2 == 2) (domClamp e.1))
  s.modPwr (fun p => { p with entering := p.entering.map (fun e => (e.1, min 4 (e.2 + 1))) })

/-- R335 step 3: the supply of a domain is removed; a wake that waits starts (R334). -/
def domOffDone (d : Nat) (s : State) : State :=
  if s.get (PWR_DOM_STAT.state d) != 2 || !s.is (PWR_DOM_STAT.clamped d) then s
  else
    let ms := domMembers d
    let s := s.forEach ms (fun x s => (s.set (PWR_DOM_STAT.state x) 1).raise (PWR_DOM_STAT.clamped x))
    let s := s.modPwr (fun p => { p with entering := p.entering.filter (fun e => !ms.contains e.1) })
    let s := s.raise PWR_EVENTS.dom_done
    let s := s.forEach (ms.filter (fun x => s.pwr.domPend.contains x && wakeable s x)) domWake
    s.modPwr (fun p => { p with domPend := p.domPend.filter (fun x => !ms.contains x) })

/-- The meaning of DOMAIN_OFF_DONE. -/
def execDomainOffDone (d : Fin 47) (s : State) : Outcome := .next (inCore (domOffDone d) s)

/-- R335: a wake completes. -/
def domWakeDone (d : Nat) (s : State) : State :=
  let up := (domParent d).all (fun c => s.get (PWR_DOM_STAT.state (domCluster c)) == 0)
  if s.get (PWR_DOM_STAT.state d) != 3 || !up then s
  else
    let s := ((domFresh d s).set (PWR_DOM_STAT.state d) 0).set (PWR_DOM_STAT.clamped d) 0
    let s := s.raise PWR_EVENTS.dom_done
    if 3 ≤ d && d < 9 then
      outputsSafe (applyVoted (s.forEach ((List.range 16).map (fun k => 64 + 16 * (d - 3) + k)) bankToDefault))
    else s

/-- The meaning of DOMAIN_WAKE_DONE. -/
def execDomainWakeDone (d : Fin 47) (s : State) : Outcome := .next (inCore (domWakeDone d) s)

/-- The meaning of TILE_RELOAD_DONE (R336). -/
def execTileReloadDone (t : Fin 24) (s : State) : Outcome :=
  .next (if domOn s (domTile t) && (s.tileOf t).held && (s.tileOf t).unloaded && 6 ≤ s.get BOOT_STATUS.stage &&
      s.get BOOT_STATUS.stage ≤ 9 then loadTile (s.get MRAM_STATUS.active_slot) t s else s)

/-! ### Doze -/

/-- R339: the operations in flight have been written and the posted writes are done: the tile's clock stops. -/
def dozeEntry (t : Nat) (s : State) : State :=
  let x := s.tileOf t
  if x.waiting && x.doze && runs s t && x.posted.isEmpty && x.load.isNone && (urgentEvent s t).isNone then
    (s.modTile t drainOps).raise ⟨PWR_STATUS, 8 + t, 1⟩
  else s

/-- The meaning of DOZE_ENTRY. -/
def execDozeEntry (t : Fin 24) (s : State) : Outcome := .next (inCore (dozeEntry t) s)

/-- R340: the clock restarts on the edge on which a source that would end the WAIT arrives. -/
def execDozeWake (t : Fin 24) (s : State) : Outcome :=
  .next (inCore (fun s => if s.is ⟨PWR_STATUS, 8 + t, 1⟩ && (urgentEvent s t).isSome then s.set ⟨PWR_STATUS, 8 + t, 1⟩ 0 else s) s)

/-! ### Entry to Drizzle and Cellar -/

/-- The wake sources that a state can use (Table PWR-7). -/
def wakeMask (cellar : Bool) : Nat := if cellar then 0x3FFC else 0x3FFF

/-- Table PWR-4: the code of a request that an allowed writer makes. -/
def entryResult (s : State) (cellar : Bool) : Nat :=
  if !cellar && (5 < s.get DRZ_CFG.pair || s.regN DRZ_PERIOD < 80000) then 2
  else if s.get PWR_WAKE_EN.enable &&& wakeMask cellar == 0 then 3
  else if s.frost || s.pwr.entry.isSome || s.is PWR_STATUS.supwarn || s.get INV_STATE.state != 0 then 4
  else 0

/-- R341, R342 time 0: a write of PWR_CMD op 1 or 2. -/
def entryStart (m : Master) (cellar : Bool) (s : State) : State :=
  if !coreOn s then s
  else
    let r := if devWriter m then entryResult s cellar else 1
    let s := s.set PWR_CMD_RESULT.result r
    if r != 0 then s
    else
      let s := (s.modPwr (fun p => { p with entry := some (cellar, 0), entryAt := s.now, wakes := 0 })).raise PWR_EVENTS.notice
      let s := (s.set PWR_WAKE_REC.cause 0).set PWR_WAKE_REC.cellar 0
      s.setB DRZ_CFG.ha (s.ha 7)

/-- The meaning of DRIZZLE. -/
def execDrizzle (m : Master) (s : State) : Outcome := .next (entryStart m false s)
/-- The meaning of CELLAR. -/
def execCellar (m : Master) (s : State) : Outcome := .next (entryStart m true s)

/-- R343: an entry in its notice window is cancelled. -/
def entryCancel (s : State) : State :=
  ((s.modPwr (fun p => { p with entry := none, wakes := 0 })).set PWR_CMD_RESULT.result 5).raise PWR_EVENTS.wake_cancel

/-- The meaning of CANCEL: a write of PWR_CMD op 3. -/
def execCancel (m : Master) (s : State) : Outcome :=
  .next (if !coreOn s then s
    else if !devWriter m then s.set PWR_CMD_RESULT.result 1
    else if s.pwr.entry.any (fun e => e.2 == 0) then entryCancel s else s)

/-- Table PWR-5: the instant N + `us` µs of an entry, in train time (log 167, DESIGN CHOICE). -/
def entryInstant (s : State) (us : Nat) : Nat := s.pwr.entryAt + 1000 * (min 1000 (s.get PWR_CTRL.notice_us) + us)
/-- Moves an entry on from step `n` of Table PWR-5, which is due at N + `us` µs. -/
def entryStep (n us : Nat) (f : State → State) (s : State) : State :=
  match s.pwr.entry with
  | some (c, k) =>
    if k == n && s.due (entryInstant s us) then f (s.modPwr (fun p => { p with entry := some (c, n + 1) })) else s
  | none => s

/-- The meaning of NOTICE_END: time N of Table PWR-5. -/
def execNoticeEnd (s : State) : Outcome :=
  .next (inCore (entryStep 0 0 (fun s =>
    let s := s.forEach (List.range 24) (fun t => tileReset t 0)
    let s := s.forEach (List.range 144) (fun d => chDisable d false 0)
    (netStop s).modPwr (fun p => { p with rstout := true }))) s)

/-- The meaning of MRAM_FLUSH_POINT: N + 10 µs. -/
def execMramFlushPoint (s : State) : Outcome :=
  .next (inCore (fun s => entryStep 1 10 (fun s => showLines (s.modMem (fun h => { h with lines := [], mramOpen := false }))) s) s)

/-- The meaning of DOMAIN_SHUTDOWN_POINT: N + 40 µs. -/
def execDomainShutdownPoint (s : State) : Outcome :=
  .next (inCore (fun s => entryStep 2 40 (fun s =>
    let s := s.forEach (List.range 160) (fun b s =>
      let target := if bankCellar s.invB b then 1 else 2
      if bankState s b == 0 then bankEnter b target s
      else if bankState s b == 5 then s.modBank b (fun h => { h with target := target })
      else (bankClamp b true (bankTo b target s)).modBank b (fun h => { h with zero := h.zero || target == 2, next := none }))
    s.forEach ((List.range 6).map domCluster ++ (List.range 8).map domLane) domGoOff) s) s)

/-- The memory key's bank holds its contents across Drizzle and Cellar, or the key is the MRAM's (R344). -/
def keptKey (s : State) (k : Nat) : Bool :=
  mramKey ≤ k ||
    (match place none k with
      | (.bank b, _) => bankCellar s.invB b && !(s.bankOf b).zero
      | _ => false)
/-- The AON registers: power control, CLK_HOLD_RECORD, the tamper registers, FLT_SELFTEST and the ladder's counts (R344; Tables
FLT-7, HOST-11), and what the AON supply measurement shows (R315). -/
def aonReg (a : Nat) : Bool :=
  a == PWR_WAKE_EN || a == PWR_WAKE_REC || a == PWR_WAKE_TIMER || (DRZ_CFG ≤ a && a < 0x11000) || a == CLK_HOLD_RECORD ||
  a == PIN_TAMPER || a == PIN_TAMPER_STAT || (PIN_BANK_STAT 0 ≤ a && a ≤ PIN_BANK_STAT 7) || a == FLT_SELFTEST || a == LADDER_STATUS || a == LADDER_CFG1 || a == LADDER_LAST

/-- What is left of the device after the supplies of all but AON are away: the registers `regs`, the memory `keys`, and the fuses,
the store and the records. -/
def afterLoss (regs keys : Nat → Bool) (s : State) : State :=
  { State.reset with
    io := s.io.filter (fun e => regs e.1)
    mem := s.mem.filter (fun e => keys e.1)
    fresh := s.fresh
    pending := s.pending
    data := s.data
    flt := { FltH.reset with resetOpen := s.flt.resetOpen }
    boot := { BootH.reset with
      lc := s.boot.lc, keys := s.boot.keys, ctr := s.boot.ctr, recs := s.boot.recs, wrapped := s.boot.wrapped,
      persist := s.boot.persist, excl := s.boot.excl } }

/-- N + 150 µs of Table PWR-5: the core domains go Off and the state becomes Drizzle or Cellar (R344). -/
def lowPowerEntered (cellar : Bool) (s : State) : State :=
  let latched := padLatches s
  let mismatch := s.reg PIN_STATUS &&& 0xFF00
  let volts := s.pwr.balls
  let banks := (List.range 160).map (fun b => bankCellar s.invB b && bankState s b != 2 && bankState s b != 3)
  let wakes := s.pwr.wakes
  let tick := s.pair DRZ_TICK_LO
  let locked := s.clk.txLocked
  let s := afterLoss aonReg (keptKey s) s
  let s := s.withClk { s.clk with txLocked := locked }
  let s := { s.setReg PIN_STATUS mismatch with ball := latched }
  let s := s.forEach (banks.zipIdx) (fun e s =>
    (bankClamp e.2 true (bankTo e.2 (if e.1 then 1 else 2) s)).modBank e.2 (fun h => { h with zero := !e.1 }))
  let s := s.forEach (List.range 47) (fun d s => (s.set (PWR_DOM_STAT.state d) 1).raise (PWR_DOM_STAT.clamped d))
  let s := s.set DRZ_CYCLES.cycles 0
  s.modPwr (fun p => { p with low := some cellar, lowFrom := tick, lastTick := tick, por := false, wakes := wakes, balls := volts })

/-! ### Waking -/

/-- The device has started to wake on this watch edge (R350). -/
def wakingNow (s : State) : Bool :=
  s.pwr.woke && s.pwr.low.isNone && s.get BOOT_STATUS.stage == 0 && !s.boot.warm && s.boot.resetTick == s.pair DRZ_TICK_LO
/-- R351: the device wakes with the sources asserting, and the boot starts as at power-on; a source that asserts on the watch edge
of the decision is recorded too (R350). -/
def startWake (cause : Nat) (s : State) : State :=
  match s.pwr.low with
  | none => s.when (wakingNow s) (fun s => s.set PWR_WAKE_REC.cause (s.get PWR_WAKE_REC.cause ||| cause))
  | some cellar =>
    -- what the blocks without power would have shown since the entry is lost (R344)
    let s := s.resetRegs (fun a => !aonReg a && (a == PIN_EVENTS || a == VAULT_STATUS || a / 0x10000 == 8 || a / 0x10000 == 9))
    let s := { s with flt := { FltH.reset with resetOpen := s.flt.resetOpen } }
    let s := ((s.set PWR_WAKE_REC.cause cause).setB PWR_WAKE_REC.cellar cellar).bump PWR_WAKE_REC.wakes
    let s := s.forEach (List.range 3) (fun d s => (s.set (PWR_DOM_STAT.state d) 0).set (PWR_DOM_STAT.clamped d) 0)
    let s := s.modPwr (fun p => { p with low := none, cycle := none, wakes := 0, rstout := true, woke := true })
    s.modBoot (fun b => { b with resetTick := s.pair DRZ_TICK_LO })

/-- The meaning of LOW_POWER_ENTRY_DONE; a wake source that asserted after the notice window starts the exit (R343). -/
def execLowPowerEntryDone (s : State) : Outcome :=
  .next (inCore (fun s => match s.pwr.entry with
    | some (c, 3) =>
      if s.due (entryInstant s 150) then
        let s := lowPowerEntered c s
        s.when (s.pwr.wakes != 0) (startWake s.pwr.wakes)
      else s
    | _ => s) s)

/-- R343, R350: wake sources assert on a watch edge. -/
def wakeAssert (src : Nat) (s : State) : State :=
  let cellar := match s.pwr.entry with
    | some (c, _) => c
    | none => s.pwr.low.getD (s.is PWR_WAKE_REC.cellar)
  let w := (src &&& s.get PWR_WAKE_EN.enable &&& wakeMask cellar) ||| s.pwr.wakes
  if w == 0 then s
  else match s.pwr.entry with
    | some (_, 0) => entryCancel s
    | some _ => s.modPwr (fun p => { p with wakes := w })
    | none => startWake w s

/-- The meaning of WAKE: the conditions of the tamper, host, PERST_N and lane sources on a watch edge. -/
def execWake (src : BitVec 14) (s : State) : Outcome :=
  .next (if s.pwr.por || s.pwr.pwrc then s else wakeAssert (src.toNat &&& 0x3FF8) s)

/-- The meaning of TAMPER_TRIP: a trip is a wake source too (Table PWR-7). -/
def execTamperTrip (x : Fin 2) (level : Bool) (cycles : Nat) (s : State) : Outcome :=
  .next ((tamperTrip x level cycles s).when (tamperTrips s x level cycles && !s.pwr.por && !s.pwr.pwrc) (wakeAssert 8))

/-- The meaning of WAKE_TIMER: PWR_WAKE_TIMER ms of 8000 watch cycles have passed since the entry completed. -/
def execWakeTimer (s : State) : Outcome :=
  let now := wakingNow s
  .next (if (s.pwr.low.isNone && !now) || s.regN PWR_WAKE_TIMER == 0 then s
    else
      let at_ := s.pwr.lowFrom + 8000 * s.regN PWR_WAKE_TIMER
      let s := s.setPair DRZ_TICK_LO (max at_ (s.pair DRZ_TICK_LO))
      wakeAssert 4 (s.when now (·.modBoot (fun b => { b with resetTick := s.pair DRZ_TICK_LO }))))

/-! ### The Drizzle cycle -/

/-- R345: a period tick falls: the pair and the ring are powered. -/
def drizzleTick (s : State) : State :=
  if s.pwr.low != some false || s.pwr.cycle.isSome then s
  else
    let at_ := s.pwr.lastTick + s.regN DRZ_PERIOD
    let s := (s.setPair DRZ_TICK_LO (max at_ (s.pair DRZ_TICK_LO))).count DRZ_CYCLES.cycles
    s.modPwr (fun p => { p with lastTick := at_, cycle := some 0, checked := false, crossed := false })

/-- The meaning of DRIZZLE_TICK. -/
def execDrizzleTick (s : State) : Outcome := .next (drizzleTick s)

/-- R51, R346: a watch check of a Drizzle cycle ends. The checks go on until the ring goes off; where one fails after the first, the
cycle ends with it, of which R346 speaks for a cycle's check as a whole: what has been converted stays, and the failure counts
(log 168, DESIGN CHOICE). -/
def drizzleCheck (count : Nat) (s : State) : State :=
  let s := s.setPair DRZ_TICK_LO (s.pair DRZ_TICK_LO + 64)
  if 1600 ≤ count && count ≤ 2400 then s.modPwr (fun p => { p with checked := true, fails := 0 })
  else
    let none_ := s.pwr.cycle == some 0
    let s := (s.bump DRZ_CYCLES.ring_fails).modPwr (fun p =>
      { p with cycle := none, fails := p.fails + 1, counts := if none_ then Vector.replicate 8 0 else p.counts })
    if s.pwr.fails == 3 then startWake (0x4000 ||| s.pwr.wakes) s else s.when (s.pwr.wakes != 0) (startWake s.pwr.wakes)

/-- The meaning of WATCH_CHECK (R51); in a Drizzle cycle, R346. -/
def execWatchCheck (count : Nat) (s : State) : Outcome :=
  .next (if s.pwr.por || s.pwr.pwrc then s
    else if s.pwr.low.isSome then (if s.pwr.cycle.isSome then drizzleCheck count s else s)
    else watchCheck count s)

/-- R349: a result word is pushed to the history. -/
def histPush (w : Nat) (s : State) : State :=
  let n := s.get DRZ_HIST_LEVEL.level
  let o := s.get DRZ_HIST_LEVEL.oldest
  if n < 64 then (s.setN (DRZ_HIST ((o + n) % 64)) w).set DRZ_HIST_LEVEL.level (n + 1)
  else if s.is DRZ_CFG.ha then s
  else (s.setN (DRZ_HIST o) w).set DRZ_HIST_LEVEL.oldest (o + 1)

/-- R347, R348: the result of the cycle's next entry is judged and pushed. -/
def drizzleResult (vin : Int) (s : State) : State :=
  match s.pwr.cycle with
  | none => s
  | some i =>
    if !s.pwr.checked || s.get DRZ_CFG.length < i then s
    else
      let (code, clip) := adcCode vin (s.get (DRZ_SEQ.gain i))
      let ha := s.is DRZ_CFG.ha
      let low := s.is (DRZ_SEQ.wake_low i) && code < s.get (DRZ_WIN.low i)
      let high := s.is (DRZ_SEQ.wake_high i) && s.get (DRZ_WIN.high i) < code
      let n := if ha then atD s.pwr.counts i 0 else if low || high then atD s.pwr.counts i 0 + 1 else 0
      let s := histPush (code + (if !ha && (low || high) then 4096 else 0) + (if clip then 8192 else 0) + 65536 * i +
        2 ^ 24 * (s.get DRZ_CYCLES.cycles % 256)) s
      let s := s.modPwr (fun p => { p with cycle := some (i + 1), counts := updAt p.counts i (fun _ => n) })
      if !ha && (low || high) && n == max 1 (s.get (DRZ_SEQ.count i)) && !s.pwr.crossed then
        let s := s.setN DRZ_WAKE_DATA (i + (if low then 0 else 8) + 65536 * code)
        s.modPwr (fun p => { p with crossed := true, wakes := p.wakes ||| (s.get PWR_WAKE_EN.enable &&& 1) })
      else s

/-- The meaning of DRIZZLE_RESULT: the input of the entry in units of VREF / 2^24. -/
def execDrizzleResult (vin : Int) (s : State) : Outcome := .next (drizzleResult vin s)

/-- R345, R348: after the last result the pair and the ring go off, and a wake that was decided starts. -/
def drizzleCycleEnd (s : State) : State :=
  match s.pwr.cycle with
  | none => s
  | some i =>
    if !s.pwr.checked || i ≤ s.get DRZ_CFG.length then s
    else
      let short := s.is DRZ_CFG.ha && 64 - s.get DRZ_HIST_LEVEL.level < s.get DRZ_CFG.length + 1
      let s := s.modPwr (fun p =>
        { p with cycle := none, wakes := p.wakes ||| (if short then s.get PWR_WAKE_EN.enable &&& 2 else 0) })
      s.when (s.pwr.wakes != 0) (startWake s.pwr.wakes)

/-- The meaning of DRIZZLE_CYCLE_END. -/
def execDrizzleCycleEnd (s : State) : Outcome := .next (drizzleCycleEnd s)

/-- The meaning of HIST_CLEAR: a write of DRZ_CFG.hist_clear. -/
def execHistClear (m : Master) (s : State) : Outcome :=
  .next (if devWriter m && coreOn s && s.pwr.entry.isNone then
      (s.setN DRZ_HIST_LEVEL 0).resetRegs (fun a => DRZ_HIST 0 ≤ a && a ≤ DRZ_HIST 63)
    else s)

/-- Rung 2 of the Drizzle compare function (Table PWR-8). -/
def drizzleReinit (s : State) : State := (s.setN DRZ_WAKE_DATA 0).modPwr (fun p => { p with counts := Vector.replicate 8 0 })

/-! ### Reset and supply signals -/

/-- The meaning of POWER_ON_RESET: PORST_N low or a supply monitor (R352). -/
def execPowerOnReset (s : State) : Outcome :=
  let s := afterLoss (· == FLT_SELFTEST) (fun k => mramKey ≤ k) s
  let s := s.modBoot (fun b => { b with excl := Vector.replicate 2 false })
  .next { s with flt := FltH.reset }

/-- The meaning of POWER_ON_RESET_RELEASE: the watch oscillator and the ring start (R71). -/
def execPowerOnResetRelease (s : State) : Outcome := .next (s.modPwr (fun p => { p with por := false }))

/-- The meaning of SUPWARN: SUPWARN_N has been low for 2 watch cycles (R188, R353). -/
def execSupwarn (s : State) : Outcome :=
  .next (if !powered s || s.is PWR_STATUS.supwarn then s
    else ((((s.modMem (fun h => { h with mramOpen := false })).raise PWR_STATUS.supwarn).raise PWR_EVENTS.supply_warn).fault
      0x2A 0 0))

/-- The meaning of SUPWARN_RELEASE: the input has been high for 2 watch cycles (R353). -/
def execSupwarnRelease (s : State) : Outcome :=
  .next (if !s.is PWR_STATUS.supwarn then s
    else (s.modMem (fun h => { h with mramOpen := !s.pwr.entry.any (fun e => 2 ≤ e.2) })).set PWR_STATUS.supwarn 0)

end Sys2Proof.Machine
end

