-- ==== Sys2Proof/Machine/Fns.lean ====
section
/-!
DEFINITION. Sys2Proof/Machine/Fns.lean: the functions of the split table: how each is disabled, when it is idle and what its rung 2
resets; changes of mode (R37, R408); rung 2 and the Squall counts (R409 to R412).
-/
namespace Sys2Proof.Machine

/-- Channels whose transfers use the CRC engines; a takeover copy has no CRC (R210). -/
def crcChannels (s : State) : List Nat :=
  (List.range 144).filter (fun d => s.is (CH_CTRL.crc_op (chBase d)) && (s.dmaOf d).copy.isNone)
/-- R209: a channel is disabled by its function; how many of its beats are in flight the spec leaves open (log 2). -/
def crcDisable (abort : Bool) (d : Nat) (s : State) : State :=
  let st := chState s d
  if st == chRUNNING || st == chARMED || st == chPAUSED || st == chHALTED || st == chSTOPPED then
    chDisable d (!abort) (min (s.freeNat % 9) (inFlight s d)) s.drawn
  else s

/-- Staging returns to IDLE and what was staged is discarded (Table INV-16, R409). What INV_EPOCH_TT, INV_STAGE_VERSION and
INV_STAGE_FP read then is not stated: they return to 0 (log 113, DESIGN CHOICE). -/
def stagingIdle (s : State) : State :=
  let s := { s with inv := { s.inv with shadow := [], total := 0, digest := [], persist := false, armedEpoch := 0 } }
  let s := s.resetRegs (fun a => a == INV_EPOCH_TT_LO || a == INV_EPOCH_TT_HI || (INV_STAGE_VERSION ≤ a && a < INV_STATUS))
  (s.set INV_STATE.state 0).progress 8

/-- The message belongs to an exchange that this node began: a Sync, its Follow_Up or a Pdelay_Req (R90). -/
def ownExchange (m : Gptp) : Bool := m.kind ≤ 2
/-- R408 step 1: function `f` starts to finish under a policy. -/
def fnDisable (f : Nat) (abort reinit : Bool) (s : State) : State :=
  match f with
  -- R57: a running revert hold-off is cancelled, and starts again
  | 0 => s.withClk { s.clk with holdFrom := s.now }
  -- R90: ABORT drops the Sync and Pdelay exchanges in progress, queued messages included
  | 1 => s.when abort (fun s => s.forEach (List.range 8) (fun p s =>
      s.modPort p (fun h => { h with t1 := none, gq := h.gq.filter (fun m => !ownExchange m) })))
  | 2 => learnDisable abort s
  | 3 => s.when abort voteAbort
  | 4 => adcPlausDisable abort s
  | 5 => s.forEach (crcChannels s) (crcDisable abort)
  | 8 => s.when (abort && reinit && s.get INV_STATE.state ≤ 4) stagingIdle
  | 9 => s.when abort takeoverAbort
  | _ => s

/-- R408 step 2: the block of function `f` reports itself idle. -/
def fnIdle (f : Nat) (s : State) : Bool :=
  match f with
  | 0 => !s.is CLK_STATUS.switching
  | 1 => (List.range 8).all (fun p => (s.portOf p).t1.isNone && !(s.portOf p).gq.any ownExchange &&
      (match (s.portOf p).tx with
        | some (.gptp m) => !ownExchange m
        | _ => true))
  | 2 => learnIdle s
  | 3 => voteIdle s
  | 4 => adcPlausIdle s
  | 5 => (crcChannels s).all (fun d => chState s d == chIDLE || chState s d == chDONE)
  | 8 => !atD s.flt.reinit 8 false || s.get INV_STATE.state != 2 && s.get INV_STATE.state < 5
  | 9 => takeoverIdle s
  | _ => true

/-- Table CLK-8: a non-selected source that is not ABSENT restarts in PROVING. -/
def sourcesProving (s : State) : State :=
  s.forEach (List.range 11) (fun i s =>
    if s.is (CLK_SRC_STAT.selected i) || s.get (CLK_SRC_STAT.state i) == 0 then s
    else ((s.set (CLK_SRC_STAT.state i) 1).set (CLK_SRC_STAT.pass_count i) 0).withClk
      { s.clk with noEdge := updAt s.clk.noEdge i (fun _ => 0), held := updAt s.clk.held i (fun _ => false) })
/-- Table TT-5: the servo starts over: FREE where TT was never synchronised, also after the rung 3 that ends clock-fault hold, of
which the table's hold row says ACQUIRE and its rung 3 row FREE (log 166, DESIGN CHOICE). -/
def servoRestart (s : State) : State :=
  let s := s.withTt { s.tt with slew := 0, good := 0, bad := 0, ratios := [] }
  (showSlew (s.set TT_STATUS.state (if s.is TT_STATUS.ever_synced then 1 else 0))).refreshDegraded
/-- R376: a fresh nonce is drawn, and the wait for a verdict starts: one accepted before no longer counts. -/
def drawNonce (s : State) : State :=
  let s := s.forEach (List.range 4) (fun i s => (s.setReg (BOOT_NONCE i) s.freeWord).drawn)
  (s.raise BOOT_STATUS.verdict_wait).modBoot (fun b => { b with timedOut := false, verdict := false })
/-- Rung 2 of boot verification before Thaw: a new nonce, and the wait restarts (R376). -/
def newNonce (s : State) : State := s.when (s.get BOOT_STATUS.stage == 8) drawNonce

/-- R409: rung 2 resets the block of function `f` as its chapter gives. -/
def fnReset (f : Nat) (s : State) : State :=
  match f with
  | 0 => sourcesProving (s.resetRegs (fun a => a == CLK_EVENTS || a == CLK_COUNTS || a == CLK_LAST_SWITCH))
  | 1 => servoRestart (s.resetRegs (fun a => a == TT_EVENTS || a == TT_SYNC))
  | 2 => learnReinit s
  | 3 => voteReinit s
  | 4 => adcPlausReset s
  | 5 => s.forEach (crcChannels s) (fun d s => s.modDma d (fun h => { h with tail := 0, ref := [] }))
  | 6 => newNonce s
  | 7 => drizzleReinit s
  | 8 => s.when (s.get INV_STATE.state ≤ 4) stagingIdle
  | 10 => s.forEach (List.range 11) (fun f s => (s.set (HOST_FN_COUNT.fails f) 0).set (HOST_FN_COUNT.reinits f) 0)
  | _ => s

/-- R37, R406, R408: the setting of function `f` changes to a split-table byte; `override` says whether by a command. Where `f` is
already DISABLING, on which R37 is silent, the disable goes on as it was begun, under the old policy (log 165, DESIGN CHOICE). -/
def fnChange (f v : Nat) (override : Bool) (s : State) : State :=
  let mode := v % 2
  let policy := v / 2 % 2
  if s.get (HOST_FN_STAT.mode f) == mode && (s.get (HOST_FN_STAT.policy f) == policy || !override) then
    s.set (HOST_FN_STAT.policy f) policy
  else
    let was := s.disabling f
    let old := s.get (HOST_FN_STAT.mode f)
    let s := (s.set (HOST_FN_STAT.mode f) mode).set (HOST_FN_STAT.policy f) policy
    let s := (s.setB (HOST_FN_STAT.override f) override).set (HOST_FN_STAT.state f) 1
    let s := { s with flt := { s.flt with next := updAt s.flt.next f (fun o => some (o.getD old)) } }
    if was then s else fnDisable f (policy == 1) false s

/-- R408, R409: a disabling function whose block is idle takes its new mode, or is reset, and is ENABLED again. -/
def functionIdle (f : Nat) (s : State) : State :=
  if !s.disabling f || !fnIdle f s then s
  else
    let re := atD s.flt.reinit f false
    let changed := (atD s.flt.next f none).isSome
    let s := s.when (re || (changed && (f == 4 || f == 5 || f == 7))) (fnReset f)
    let s := { s with flt := { s.flt with reinit := updAt s.flt.reinit f (fun _ => false), next := updAt s.flt.next f (fun _ => none) } }
    (((s.set (HOST_FN_STAT.state f) 0).raise HOST_EVENTS.fn_idle).progress f).progress 10

/-- The meaning of FUNCTION_IDLE. -/
def execFunctionIdle (f : Fin 11) (s : State) : Outcome := .next (inCore (functionIdle f) s)

/-- LADDER_LAST shows a rung taken (R410): the register's rung code, the function and the cause; no cause code is given for
the rungs of R374, R383 and R384 (4 here), so theirs is free (log 2). -/
def rungTaken (code fn cause : Nat) (s : State) : State :=
  let (cause, s) := if cause < 4 then (cause, s) else (s.freeNat % 4, s.drawn)
  let s := ((s.set LADDER_LAST.rung code).set LADDER_LAST.function fn).set LADDER_LAST.cause cause
  (s.bump LADDER_LAST.count).raise HOST_EVENTS.rung

/-- R409, R410: rung 2 on function `f`. -/
def reInit (f cause : Nat) (s : State) : State :=
  let s := rungTaken 1 f cause s
  let s := { s with flt := { s.flt with due2 := updAt s.flt.due2 f (fun _ => false), reinit := updAt s.flt.reinit f (fun _ => true) } }
  let s := s.bump (HOST_FN_COUNT.total f)
  let s := if s.disabling f then s
    else fnDisable f (s.is (HOST_FN_STAT.policy f)) true (s.set (HOST_FN_STAT.state f) 1)
  let n := s.get (HOST_FN_COUNT.reinits f) + 1
  let s := (s.set (HOST_FN_COUNT.reinits f) n).when (n == 1) (fun s =>
    { s with flt := { s.flt with reinitOpen := updAt s.flt.reinitOpen f (fun _ => s.now) } })
  if max 1 (s.get LADDER_CFG0.reinit_limit) ≤ n then
    ((s.set (HOST_FN_COUNT.reinits f) 0).raise HOST_EVENTS.squall).rung3Counted f 0
  else s

/-- The meaning of RE_INIT: a rung 2 that has fallen due on a function is taken, where no higher rung is due (R412). -/
def execReInit (f : Fin 11) (s : State) : Outcome :=
  .next (if atD s.flt.due2 f false && s.flt.due.isNone then reInit f 0 s else s)

/-- R410: the windows of the Squall counts: 0 to 10 fails of f, 11 to 21 re-inits of f - 11, 22 resets. -/
def windowClose (n : Nat) (s : State) : State :=
  if n < 11 then
    s.when (s.due (atD s.flt.failOpen n 0 + s.get LADDER_CFG0.fail_window_ms * 1000000)) (·.set (HOST_FN_COUNT.fails n) 0)
  else if n < 22 then
    s.when (s.due (atD s.flt.reinitOpen (n - 11) 0 + s.get LADDER_CFG1.reinit_window_s * 1000000000))
      (·.set (HOST_FN_COUNT.reinits (n - 11)) 0)
  else
    s.when (s.flt.resetOpen + s.get LADDER_CFG1.reset_window_s * 8000000 ≤ s.pair DRZ_TICK_LO) (·.set LADDER_STATUS.resets 0)

/-- The meaning of SQUALL_WINDOW_CLOSE. -/
def execSquallWindowClose (n : Fin 23) (s : State) : Outcome := .next (inCore (windowClose n) s)

end Sys2Proof.Machine
end

