-- ==== Sys2Proof/Machine/Staging.lean ====
section
/-!
DEFINITION. Sys2Proof/Machine/Staging.lean: staging, the epoch and its revert, and the beacons (R33 to R45, R289, R402).
-/
namespace Sys2Proof.Machine

/-- Changes the inventory's hidden state. -/
def State.modInv (s : State) (f : InvH → InvH) : State := { s with inv := f s.inv }
/-- A staging command ends with a code of Table INV-15. -/
def invResult (code : Nat) (s : State) : Nat × State := (code, (s.set INV_STATUS.code code).setReg INV_DETAIL 0)

/-! ### Staging commands (R35) -/

/-- R35: the stage command. -/
def stageBegin (persist : Bool) (total : Nat) (digest : List Byte) (s : State) : Nat × State :=
  if s.get INV_STATE.state != 0 then invResult invBusy s
  else if total == 0 || 262144 < total then invResult invBadFormat s
  else
    let s := s.modInv (fun h => { h with shadow := [], total := total, digest := digest, persist := persist })
    invResult invOk ((s.set INV_STATE.state 1).progress 8)
/-- The meaning of STAGE_BEGIN. -/
def execStageBegin (persist : Bool) (total : BitVec 32) (digest : List Byte) (s : State) : Outcome :=
  .next (stageBegin persist total.toNat digest s).2

/-- R402: inventory octets; false with nothing written where the command ends with SESSION. -/
def stageData (offset : Nat) (d : List Byte) (s : State) : Bool × State :=
  let n := s.inv.shadow.length
  if s.get INV_STATE.state != 1 || offset != n || s.inv.total < n + d.length then (false, s)
  else
    let s := (s.modInv (fun h => { h with shadow := h.shadow ++ d })).progress 8
    (true, s.when (n + d.length == s.inv.total) (·.set INV_STATE.state 2))
/-- The meaning of STAGE_DATA. -/
def execStageData (offset : BitVec 32) (d : List Byte) (s : State) : Outcome := .next (stageData offset.toNat d s).2

/-- R33, R34, R402: the result of the checks of a staged inventory: code, section, record. -/
def verifyStaged (s : State) : Nat × Nat × Nat :=
  if Config.sha384 s.inv.shadow != s.inv.digest then (invBadFormat, 0, 0)
  else checkStaged s.inv.shadow s.inv.active (invCtx s (s.get BOOT_STATUS.slot) (some s.inv.total))

/-- R33: the verification of a staged inventory ends. -/
def verifyDone (s : State) : State :=
  if s.get INV_STATE.state != 2 then s
  else
    let (code, sec, rec_) := verifyStaged s
    if code != 0 then
      let s := (stagingIdle s).raise INV_EVENTS.load_failed
      ((s.set INV_STATUS.code code).set INV_DETAIL.section sec).set INV_DETAIL.record rec_
    else
      let b := s.inv.shadow
      let f := fingerprint b
      let s := s.setN INV_STAGE_VERSION (invVersionOf b)
      let s := s.forEach (List.range 3) (fun w => (·.setN (INV_STAGE_FP w) (u32 f (4 * w))))
      (((invResult invOk s).2.set INV_STATE.state 3).raise INV_EVENTS.staged).progress 8
/-- The meaning of INVENTORY_VERIFY_DONE. -/
def execInventoryVerifyDone (s : State) : Outcome := .next (verifyDone s)

/-- The code of an arm command in STAGED (Table INV-15). Where several apply the spec gives no order: EPOCH_TOO_SOON, then
EPOCH_MISALIGNED, then EPOCH_NUMBER (log 114, DESIGN CHOICE). -/
def armCode (epoch instant : Nat) (s : State) : Nat :=
  if instant < s.now + 20000000 then invEpochTooSoon
  else if instant % 10000000 != 0 || s.now + 3600000000000 < instant then invEpochMisaligned
  else if epoch ≤ s.regN INV_EPOCH then invEpochNumber
  else invOk
/-- R35: the arm command. -/
def stageArm (epoch instant : Nat) (s : State) : Nat × State :=
  let st := s.get INV_STATE.state
  if st < 3 then invResult invNothingStaged s
  else if st != 3 then invResult invBusy s
  else
    let code := armCode epoch instant s
    if code != 0 then invResult code s
    else
      let s := (s.modInv (fun h => { h with armedEpoch := epoch })).setPair INV_EPOCH_TT_LO instant
      invResult invOk ((s.set INV_STATE.state 4).progress 8)
/-- The meaning of STAGE_ARM. -/
def execStageArm (epoch : BitVec 32) (instant : BitVec 64) (s : State) : Outcome :=
  .next (stageArm epoch.toNat instant.toNat s).2

/-- R35: the cancel command. -/
def stageCancel (s : State) : Nat × State :=
  let st := s.get INV_STATE.state
  if st < 3 then invResult invNothingStaged s
  else if 4 < st then invResult invBusy s
  else invResult invOk (stagingIdle s)
/-- The meaning of STAGE_CANCEL. -/
def execStageCancel (s : State) : Outcome := .next (stageCancel s).2

/-! ### The epoch (R36 to R42) -/

/-- R38: the revert instant R and the decision instant D of the epoch being checked. -/
def revertInstant (s : State) : Nat := s.inv.tickE + revertDelayMs s.invB * 1000000
/-- R38: the decision instant. -/
def decisionInstant (s : State) : Nat := revertInstant s - 500000

/-- Epoch switching is in HA mode; the mode of the new inventory governs from the tick on (R37). -/
def haEpoch (s : State) : Bool := s.is (HOST_FN_STAT.mode 8)

/-- R41: a revert command. -/
def revertCommand (s : State) : Nat × State :=
  if s.get INV_STATE.state == 5 && haEpoch s && s.now < revertInstant s then
    invResult invOk ((s.modInv (fun h => { h with revertAsked := true })).set INV_STATE.state 6)
  else invResult invBusy s
/-- The meaning of REVERT. -/
def execRevert (s : State) : Outcome := .next (revertCommand s).2

/-- R36, R37: inventory `b` takes the place of the active one with all that its live sections govern, as epoch `n`. -/
def switchTo (b : List Byte) (n : Nat) (s : State) : State :=
  let old := s.invB
  let s := s.modInv (fun h => { h with active := b, arrivals := [], sendRevert := false, revertAsked := false })
  let s := showActive (s.modInv (fun h => { h with lateAt := none }))
  let s := s.setN INV_EPOCH n
  let (dropped, s) := epochVote old b s
  let s := epochScheds b (s.when dropped (·.raise INV_EVENTS.takeover_dropped))
  let s := s.forEach (List.range 11) (fun f s =>
    (s.when (f != 6) (fnChange f (splitByte b f) false)).set (HOST_FN_STAT.override f) 0)
  applyManifest b (s.set INV_STATE.split_override 0)

/-- R36: the epoch tick. -/
def epochTick (s : State) : State :=
  let e := s.pair INV_EPOCH_TT_LO
  if s.get INV_STATE.state != 4 || !s.due e then s
  else
    let old := s.invB
    let s := s.setB INV_STATE.degraded_epoch (s.is TT_STATUS.degraded)
    let s := switchTo s.inv.shadow s.inv.armedEpoch s
    let s := s.modInv (fun h => { h with fallback := old, shadow := [], tickE := e, confirmed := none, discardAt := none })
    ((((s.raise INV_STATE.fallback_held).set INV_STATE.state 5).raise INV_EVENTS.switched)).progress 8
/-- The meaning of EPOCH_TICK. -/
def execEpochTick (s : State) : Outcome := .next (inCore epochTick s)

/-- From now on the fallback copy is of no use to a check; when it is discarded is free (R40, log 115). -/
def State.retireFallback (s : State) : State := (s.modInv (fun h => { h with discardAt := some s.freeNat })).drawn
/-- R40: the fallback copy is discarded at its instant, unless a late revert waits for it. -/
def fallbackDiscard (s : State) : State :=
  match s.inv.discardAt with
  | some t =>
    if s.due t && s.inv.lateAt.isNone then
      (s.modInv (fun h => { h with fallback := [], discardAt := none })).set INV_STATE.fallback_held 0
    else s
  | none => s

/-- R39, R40: the fallback copy is restored as the next epoch, and the copy that was active takes its place (R36). -/
def restoreFallback (s : State) : State :=
  let n := s.regN INV_EPOCH
  let old := s.invB
  let s := switchTo s.inv.fallback (n + 1) s
  let s := (s.modInv (fun h => { h with fallback := old, confirmed := none })).retireFallback
  (s.raise INV_EVENTS.reverted).fault 0x2B 0 (BitVec.ofNat 32 n)

/-- A beacon is sent with the TT `tt`; `extra` marks one outside the regular offset (R37, R289, Table NET-5). -/
def sendBeacon (tt : Nat) (extra : Bool) (s : State) : State :=
  let m := manifestOf s (s.get BOOT_STATUS.slot)
  let flags := (if s.inv.sendRevert then 1 else 0) + (if s.is TT_STATUS.degraded then 2 else 0) + (if extra then 4 else 0)
  let body := beBytes 1 1 ++ beBytes 1 1 ++ beBytes 2 (u16 s.invB 0x40) ++ fingerprint s.invB ++ beBytes 4 (s.regN INV_EPOCH) ++
    beBytes 1 (s.get BOOT_STATUS.slot) ++ beBytes 1 flags ++ beBytes 2 0 ++ beBytes 4 (manVersion m) ++ beBytes 8 tt ++ beBytes 10 0
  if s.frost || !s.hasInv then s else s.forEach (servicePorts s) (fun p => serviceFrame p beaconDst body)

/-- R38: the node decides to revert. -/
def decideRevert (atD : Bool) (s : State) : State :=
  let s := ((s.set INV_STATE.state 6).raise INV_EVENTS.revert_sent).progress 8
  if atD then sendBeacon s.now true (s.modInv (fun h => { h with sendRevert := true })) else s

/-- R38: participant peer `i` has been heard in [E, D] with the new epoch number and the expected fingerprint. -/
def peerHeard (s : State) (i : Nat) (r : PeerRec) : Bool :=
  s.inv.arrivals.any (fun a => a.peer == i && s.inv.tickE ≤ a.tt && a.tt ≤ decisionInstant s && a.epoch == s.regN INV_EPOCH &&
    a.fp == r.fp)
/-- R38: the check at the decision instant. -/
def revertDecision (s : State) : State :=
  if s.get INV_STATE.state != 5 || haEpoch s || !s.due (decisionInstant s) then s
  else
    let bad := (peerRecs s.invB).zipIdx.any (fun e => bitN e.1.flags 0 && !bitN e.1.flags 1 && !peerHeard s e.2 e.1)
    if bad then decideRevert true s else s
/-- The meaning of REVERT_DECISION. -/
def execRevertDecision (s : State) : Outcome := .next (inCore revertDecision s)

/-- R381: a confirmed inventory is persisted. -/
def persistWrite (s : State) : State :=
  let m := slotMeasure (manifestOf s (s.get BOOT_STATUS.slot))
  (s.modBoot (fun b => { b with persist := some (s.invB, m) })).raise INV_STATE.persist_pending
/-- R38: at R the new inventory is confirmed; the fallback copy stays for R40 until it is discarded (log 115). -/
def revertInstantReached (s : State) : State :=
  let r := revertInstant s
  if s.get INV_STATE.state != 5 || !s.due r then s
  else
    let s := s.when s.inv.persist persistWrite
    let s := s.when (recordsWritable s) (writeRecord recBOOT_MODE [BitVec.ofNat 8 (splitByte s.invB 6 % 2)])
    let e := (s.regN INV_EPOCH, r, revertDelayMs s.invB * 1000000)
    stagingIdle (s.modInv (fun h => { h with confirmed := some e, sendRevert := false })).retireFallback
/-- The meaning of REVERT_INSTANT. -/
def execRevertInstant (s : State) : Outcome := .next (inCore revertInstantReached s)

/-- R39: the revert tick. -/
def revertTick (s : State) : State :=
  if s.get INV_STATE.state != 6 || !s.due (revertInstant s) then s else restoreFallback (stagingIdle s)
/-- The meaning of REVERT_TICK. -/
def execRevertTick (s : State) : Outcome := .next (inCore revertTick s)

/-- R40: the tick of a late revert, of the epoch confirmed last. -/
def lateRevertTick (s : State) : State :=
  match s.inv.lateAt, s.inv.confirmed with
  | some t, some (n, _, _) =>
    if s.due t && n == s.regN INV_EPOCH && s.is INV_STATE.fallback_held then
      (restoreFallback s).raise INV_EVENTS.late_revert
    else s
  | _, _ => s
/-- The meaning of LATE_REVERT_TICK. -/
def execLateRevertTick (s : State) : Outcome := .next (inCore lateRevertTick s)

/-! ### Beacons (R37, R43, R45, R289) -/

/-- R37: the last beacon instant at or before TT. -/
def beaconInstant (s : State) : Nat :=
  let off := beaconOffset s.invB * 10000
  s.now - (s.now + 10000000 - off % 10000000) % 10000000
/-- R293: the first beacon is that of the first beacon instant after the Thaw edge. -/
def beaconDue (s : State) : State :=
  if s.flt.stableFrom.all (fun thaw => thaw < beaconInstant s) then sendBeacon (beaconInstant s) false s else s
/-- The meaning of BEACON_SEND. -/
def execBeaconSend (s : State) : Outcome := .next (inCore beaconDue s)

/-- The state of peer record `i` becomes `n` (R43). -/
def peerTo (i n : Nat) (s : State) : State :=
  if s.get (BEACON_PEER_STAT.state i) == n then s
  else (s.set (BEACON_PEER_STAT.state i) n).raise INV_EVENTS.peer_change

/-- R43: what a beacon shows of its peer. -/
def showBeacon (i : Nat) (r : PeerRec) (fp : List Byte) (epoch flags tt : Nat) (s : State) : State :=
  let st := if fp != r.fp then 2 else if epoch == s.regN INV_EPOCH then 1 else 3
  let s := ((s.setN (BEACON_PEER_FP0 i) (u32 fp 0)).setN (BEACON_PEER_FP1 i) (u32 fp 4)).setN (BEACON_PEER_FP2 i) (u32 fp 8)
  let s := (s.setB (BEACON_PEER_STAT.degraded i) (bitN flags 1)).modInv (fun h =>
    { h with lastBeacon := (i, tt) :: h.lastBeacon.filter (fun e => e.1 != i) })
  peerTo i st s

/-- R38, R41: a beacon that arrives during the check of an epoch. -/
def checkBeacon (i : Nat) (fp : List Byte) (epoch flags tt : Nat) (s : State) : State :=
  let st := s.get INV_STATE.state
  if st != 5 && st != 6 then s
  else
    let s := s.modInv (fun h => { h with arrivals := ⟨i, tt, epoch, fp⟩ :: h.arrivals })
    if bitN flags 0 && epoch == s.regN INV_EPOCH && tt < revertInstant s then
      (s.raise (BEACON_PEER_STAT.revert_seen i)).when (st == 5 && !haEpoch s) (decideRevert false)
    else s
/-- R40: a beacon with REVERT set for the epoch confirmed last arrives after R. In HA mode, on which R40 is silent where R41 bars
the revert, it has no effect and raises nothing (log 164, DESIGN CHOICE). -/
def lateBeacon (epoch flags tt : Nat) (s : State) : State :=
  match s.inv.confirmed with
  | some (n, r, d) =>
    if bitN flags 0 && epoch == n && n == s.regN INV_EPOCH && r < tt && !haEpoch s then
      if s.is INV_STATE.fallback_held then s.modInv (fun h => { h with lateAt := some (r + d) })
      else s.raise INV_EVENTS.late_revert
    else s
  | none => s

/-- R43, R289: a beacon is received `eighth` eighths after the present edge; its arrival TT is the receive timestamp of R78. -/
def beaconReceive (mac : Nat) (fp : List Byte) (epoch flags eighth : Nat) (s : State) : State :=
  let tt := stampNs s eighth
  match (peerRecs s.invB).zipIdx.find? (fun e => e.1.mac == beBytes 6 mac) with
  | none => s
  | some (r, i) =>
    if s.frost || bitN r.flags 1 || mac == macBase s then s
    else lateBeacon epoch flags tt (checkBeacon i fp epoch flags tt (showBeacon i r fp epoch flags tt s))
/-- The meaning of BEACON_RECEIVE. -/
def execBeaconReceive (mac : BitVec 48) (fp : List Byte) (epoch : BitVec 32) (flags : BitVec 8) (eighth : Fin 8) (s : State) :
    Outcome :=
  .next (inCore (beaconReceive mac.toNat fp epoch.toNat flags.toNat eighth) s)

/-- R43: no beacon has arrived from peer `i` for 30 ms. -/
def peerMissing (i : Nat) (s : State) : State :=
  match lookup s.inv.lastBeacon i with
  | some t => if s.due (t + 30000000) then peerTo i 0 s else s
  | none => s
/-- The meaning of PEER_MISSING. -/
def execPeerMissing (p : Fin 64) (s : State) : Outcome := .next (inCore (peerMissing p) s)

end Sys2Proof.Machine
end

