-- ==== Sys2Proof/Machine/Boot.lean ====
section
/-!
DEFINITION. Sys2Proof/Machine/Boot.lean: the stages of the boot, Frost and Thaw, the records after Thaw, the recovery loader's start,
life-cycle changes and provisioning (R357 to R387, R405, R423).
-/
namespace Sys2Proof.Machine

/-! ### What the BOOT registers show -/

/-- The slot whose image runs, from its choice to the next reset. -/
def bootedSlot (s : State) : Option Nat :=
  if 3 ≤ s.get BOOT_STATUS.stage && s.get BOOT_STATUS.stage ≤ 9 then some (s.get BOOT_STATUS.slot) else none
/-- BOOT_SLOT_x and BOOT_VER_x, but for the last check's result (Table BOOT-16). -/
def showSlot (x : Nat) (s : State) : State :=
  let m := manifestOf s x
  let s := (s.setN (BOOT_VER x) (manVersion m)).set (BOOT_SLOT.key_slot x) (manKey m)
  let s := (s.setB (BOOT_SLOT.active x) (activeFlag s x)).setB (BOOT_SLOT.excluded x) (atD s.boot.excl x false)
  let s := (s.setB (BOOT_SLOT.bound x) (slotBound s x)).setB (BOOT_SLOT.last_good x) (readRecord s recLAST_GOOD == some (slotMeasure m))
  s.setB (BOOT_SLOT.booted x) (bootedSlot s == some x)
/-- The registers that show fuses and records. -/
def showRecords (s : State) : State :=
  let target := ((readRecord s recADVANCE).map (fun b => u8 b 0)).getD 0
  let s := ((s.setN BOOT_FLOOR (rollbackFloor s)).setN BOOT_FUSE_CTR (s.boot.ctr + 256 * target)).setN BOOT_MINVER (minVersion s)
  let s := s.set BOOT_KEYS.state ((List.range 8).map (fun k => keyState s k * 4 ^ k)).sum
  s.set LADDER_STATUS.rung4 (((readRecord s recLADDER).map (fun b => u8 b 0)).getD 0)
/-- Both. -/
def showBoot (s : State) : State := showSlot 1 (showSlot 0 (showRecords s))

/-- A failure is recorded in BOOT_FAIL and BOOT_STATUS. -/
def bootFail (x code detail : Nat) (s : State) : State :=
  let s := (s.set BOOT_FAIL.result code).set BOOT_FAIL.stage (s.get BOOT_STATUS.stage)
  ((s.set BOOT_FAIL.slot x).set BOOT_FAIL.detail detail).bump BOOT_FAIL.count
/-- The last check of slot `x` ended with `code`. -/
def slotChecked (x code : Nat) (s : State) : State :=
  (s.setB (BOOT_SLOT.good x) (code == 0)).set (BOOT_SLOT.result x) code

/-- R374: a check after SLOT_SELECT has failed. -/
def slotBad (code detail : Nat) (s : State) : State :=
  let x := s.get BOOT_STATUS.slot
  let s := s.modBoot (fun b => { b with excl := updAt b.excl x (fun _ => true) })
  let s := showSlot x (slotChecked x code ((bootFail x code detail s).set BOOT_STATUS.result code))
  ((s.raise BOOT_EVENTS.slot_bad).fault 0x2D x (s.reg BOOT_FAIL)).rungDue 3 0 4

/-- Whether the Storekeeper works on stage `n` of the boot: no reset is due, and the clock is not held (R67, R375). After rung 3 it
starts at RECORDS (Table BOOT-14), with BOOT_STATUS at its reset value until then (R393; log 105). -/
def inStage (s : State) (n : Nat) : Bool :=
  (if s.boot.warm && s.get BOOT_STATUS.stage == 0 then n == 1 else s.get BOOT_STATUS.stage == n) && skRuns s && s.flt.due.isNone
/-- Moves on to a stage. -/
def toStage (n : Nat) (s : State) : State := s.set BOOT_STATUS.stage n
/-- R188: the Storekeeper reads an uncorrectable MRAM line. -/
def mramLineBad (off : Nat) (s : State) : State := eccEvent .mram (mramKey + off) off .storekeeper false 2 s

/-! ### ROM_START and RECORDS -/

/-- R372: the ring is proven and the loop has locked in START. -/
def romStart (s : State) : State :=
  if !inStage s 0 || s.get CLK_RING.state == 0 then s
  else
    -- R264: the base address comes from the Storekeeper store
    let s := (s.setN NET_MAC_LO (32 * Config.macBase.toNat)).set NET_MAC_HI.mac_hi (Config.macBase.toNat / 2 ^ 27)
    -- Table TT-1: the periods of START are degraded; TT_STATUS shows it and the permitted step from now on (R76, R82)
    toStage 1 (showPermit ((s.raise CLK_STATUS.degraded).refreshDegraded))
/-- The meaning of ROM_START. -/
def execRomStart (s : State) : Outcome := .next (romStart s)

/-- R183: every bank enters Deep retention; those of the Cellar map keep their contents where they had them. -/
def banksDeep (s : State) : MemH :=
  let keep := fun (b : Nat) => bankCellar s.invB b && bankState s b != 2
  { MemH.reset with
    bank := Vector.ofFn (fun (b : Fin 160) => ({ BankH.reset with zero := !keep b || (s.bankOf b).zero } : BankH))
    lines := s.memh.lines, mramOpen := s.memh.mramOpen, bad := s.memh.bad }
/-- R423: the requested self-test over every bank, every TCM and the Vault; March C− leaves zeros, with valid check bits.  A bank not
under test is in Deep retention (R183), so all are in it after the last. -/
def selfTest (fails : List (Nat × Nat)) (s : State) : State :=
  if !s.is FLT_SELFTEST.req then s
  else
    let s := (s.clearMem 0 mramKey).withMem (banksDeep s)
    let s := (s.goodMem 0 mramKey).forEach (List.range 160) (fun b s => bankClamp b true (bankTo b 3 s))
    let s := ((s.set FLT_SELFTEST.req 0).raise FLT_SELFTEST.done).setB FLT_SELFTEST.pass (fails.all (fun e => e.2 == 0))
    let s := s.set FLT_SELFTEST.failed (min 0xFFFF (fails.map (·.2)).sum)
    let s := s.forEach (fails.filter (fun e => e.2 != 0)) (fun e s => s.fault 0x32 e.1 (BitVec.ofNat 32 e.2))
    s.raise FLT_EVENTS.selftest_done

/-- R361: the command keys are unwrapped into the Vault. -/
def restoreKeys (s : State) : State :=
  (s.modBoot (fun b => { b with cmdKeys := b.wrapped.map (fun w => w.bind (Config.aesUnwrap wrappingKey)) })).raise
    VAULT_STATUS.restored
/-- The ceiling in COUNTER_k (R404). -/
def ceiling (s : State) (k : Nat) : Nat := ((readRecord s (recCOUNTER k)).map (fun b => u32 b 0 + 2 ^ 32 * u32 b 4)).getD 0
/-- R405: the last accepted counters resume from the records. -/
def resumeCounters (s : State) : State := s.forEach (List.range 4) (fun k s => s.setPair (CMD_CTR_LO k) (ceiling s k))

/-- The ports of the RECOVERY_PORTS record; L0 as 1000BASE-X with command frames accepted where it is absent (Table BOOT-3). -/
def applyRecoveryPorts (s : State) : State :=
  let s := s.forEach (List.range 8) (fun p => (·.set (PORT_STATUS.gates p) 0xFF))
  match readRecord s recRECOVERY_PORTS with
  | some b => s.forEach (List.range 10) (fun p => (·.setN (PORT_CFG p) (u8 b (8 * p) + 16 * u8 b (8 * p + 1) +
      256 * (u8 b (8 * p + 4) % 8) + 65536 * (u16 b (8 * p + 2) % 4096))))
  | none => s.setN (PORT_CFG 0) (1 + 256 * 4 + 65536)
/-- R383: the recovery loader starts, or the boot halts when no image key could ever sign a commit. -/
def enterRecovery (code : Nat) (s : State) : State :=
  let s := (s.set BOOT_STATUS.result code).raise BOOT_STATUS.recovery
  let halted := s.boot.lc != 0 && (List.range 8).all (fun k => keyState s k != 1)
  applyRecoveryPorts (toStage (if halted then 0xF else 0xE) s)

/-- BOOT_STATUS.debug in a life-cycle state as the boot fixes it (R362, R363). -/
def debugOf (lc : Nat) : Nat := if lc ≤ 1 then 3 else if lc == 2 || lc == 4 then 1 else 0

/-- Stage RECORDS (R372, R360, R361, R405). -/
def records (bad : List (Nat × Nat)) (fails : List (Nat × Nat)) (s : State) : State :=
  if !inStage s 1 then s
  else
    let s := selfTest fails (toStage 1 (s.modBoot (fun b => { b with warm := false })))
    let s := s.modBoot (fun b => { b with recs := b.recs.filter (fun c => !bad.contains (c.id, c.copy)) })
    let s := recFallback (s.boot.recs.map (·.id)) s
    let lc := s.boot.lc
    let s := ((s.set BOOT_STATUS.lc lc).set BOOT_STATUS.debug (debugOf lc)).setB BOOT_STATUS.ha
      (((readRecord s recBOOT_MODE).getD []).getD 0 0 == 1)
    let s := { resumeCounters (showRecords s) with dbg := s.dbg && lc ≤ 1 }
    if lc == 5 then (s.set BOOT_STATUS.result 0x10) |> toStage 0xF
    else
      let s := restoreKeys s
      if lc == 0 then enterRecovery 0x10 s else toStage 2 s
/-- The meaning of RECORDS. -/
def execRecords (bad : List (Fin 65536 × Fin 2)) (fails : List (Fin 256 × Fin 65536)) (s : State) : Outcome :=
  .next (records (bad.map (fun e => (e.1.val, e.2.val))) (fails.map (fun e => (e.1.val, e.2.val))) s)

/-! ### SLOT_SELECT to MEASURE -/

/-- R373: the choice among the slots whose checks gave these codes. -/
def chooseSlot (s : State) (a b : Nat) : Option Nat :=
  let good := readRecord s recLAST_GOOD
  if a != 0 && b != 0 then none
  else if b != 0 then some 0
  else if a != 0 then some 1
  else match activeFlag s 0, activeFlag s 1 with
    | true, false => some 0
    | false, true => some 1
    | true, true =>
      if good == some (slotMeasure (manifestOf s 0)) then some 0
      else if good == some (slotMeasure (manifestOf s 1)) then some 1
      else some 0
    | false, false => some 0
/-- Value `i` of the measurement chain is complete (R368). -/
def chainPush (i : Nat) (v : List Byte) (s : State) : State :=
  show48 (BOOT_MEAS i 0) v (s.modBoot (fun b => { b with chain := b.chain ++ [v] }))
/-- The last value of the chain. -/
def chainLast (s : State) : List Byte := s.boot.chain.getLastD []

/-- The check of slot `x` at SLOT_SELECT: the manifest check, then the exclusion mask (R367, R373). -/
def selectCheck (bad : List Nat) (s : State) (x : Nat) : Nat :=
  let c := checkManifest s x true (bad.any (fun o => 0x1800000 * x ≤ o && o < 0x1800000 * x + 0x8000))
  if c == 0 && atD s.boot.excl x false then 0x0E else c
/-- Stage SLOT_SELECT. -/
def slotSelect (bad : List Nat) (s : State) : State :=
  if !inStage s 2 then s
  else
    let s := recFallback [recACTIVE 0, recACTIVE 1, recLAST_GOOD, recMIN_VERSION, recBIND 0, recBIND 1] (s.forEach bad mramLineBad)
    let a := selectCheck bad s 0
    let b := selectCheck bad s 1
    let s := slotChecked 1 b (slotChecked 0 a s)
    match chooseSlot s a b with
    | none => showBoot (enterRecovery 0x0F s)
    | some x =>
      let m := manifestOf s x
      let s := ((s.set BOOT_STATUS.slot x).set MRAM_STATUS.active_slot x).set BOOT_STATUS.result 0
      let s := (show48 (BOOT_SLOT_MEAS 0) (slotMeasure m) s).set BOOT_KEYS.manifest_key (manKey m)
      showBoot (toStage 3 (chainPush 0 (Config.sha384 (List.replicate 48 0 ++ slotMeasure m)) s))
/-- The meaning of SLOT_SELECT. -/
def execSlotSelect (bad : List (BitVec 26)) (s : State) : Outcome := .next (slotSelect (bad.map (·.toNat)) s)

/-- A stage of the chosen slot: an uncorrectable line makes the slot bad, and otherwise `f` runs. -/
def bootStage (n : Nat) (bad : Option (BitVec 26)) (f : State → State) (s : State) : State :=
  if !inStage s n then s
  else match bad with
    | some off => slotBad 0x0B 0 (mramLineBad off.toNat s)
    | none => f s

/-- Stage FIRMWARE: the copy to the execution region of the store (Table BOOT-2), through the MRAM's write buffer; it waits while the
MRAM takes no writes (R188, log 161). -/
def firmware (s : State) : State :=
  let x := s.get BOOT_STATUS.slot
  let fw := firmwareOf s x
  if !recordsWritable s then s
  else
  let s := mramBytes (mramKey + 0x3C00000) fw s
  if Config.sha384 fw != slice (manifestOf s x) 0x30 48 then slotBad 0x08 0 s
  else toStage 4 (chainPush 1 (Config.sha384 (chainLast s ++ Config.sha384 fw)) s)
/-- The meaning of FIRMWARE. -/
def execFirmware (bad : Option (BitVec 26)) (s : State) : Outcome := .next (bootStage 3 bad firmware s)

/-- Stage PERSIST (R381); it waits while the MRAM takes no writes (R188, log 161). -/
def persist (s : State) : State :=
  if !recordsWritable s then s
  else
  let x := s.get BOOT_STATUS.slot
  let s' := (toStage 5 s).modBoot (fun b => { b with persist := none })
  match s.boot.persist with
  | some (b, m) =>
    if m == slotMeasure (manifestOf s x) && (checkInventory b (invCtx s x none)).1 == 0 then
      (mramBytes (slotBase x + 0x100000) b s').raise BOOT_STATUS.persisted
    else s'
  | none => s'
/-- The meaning of PERSIST. -/
def execPersist (s : State) : Outcome := .next (if inStage s 4 then persist s else s)

/-- The body of section `id` is there and matches its digest. -/
def sectionProven (b : List Byte) (id : Nat) : Bool :=
  (dirEntries b).any (fun d => d.id == id && Config.sha384 (slice b d.offset d.length) == d.digest)
/-- Stage INVENTORY (R71, R372, R369). -/
def inventory (s : State) : State :=
  let x := s.get BOOT_STATUS.slot
  let b := slotInventory s x
  let early := sectionProven b 1 && sectionProven b 7
  let s := s.when early (fun s => applyPorts b (applyClock b s))
  let (code, _, _) := checkInventory b (invCtx s x none)
  if code != 0 then slotBad 0x09 code (s.when early bootList)
  else
    let s := applyInventory b s
    let s := s.when (recordsWritable s) (fun s => writeRecord recRECOVERY_PORTS (section_ b 7)
      (writeRecord recBOOT_MODE [BitVec.ofNat 8 (splitByte b 6 % 2)] s))
    toStage 6 (chainPush 2 (Config.sha384 (chainLast s ++ Config.sha384 (signedBytes b))) s)
/-- The meaning of INVENTORY. -/
def execInventory (bad : Option (BitVec 26)) (s : State) : Outcome := .next (bootStage 5 bad inventory s)

/-- The first entry of a kind that `p` admits whose bytes do not match its digest. -/
def badEntry (s : State) (p : ImageEntry → Bool) : Option Nat :=
  let x := s.get BOOT_STATUS.slot
  (imageEntries (manifestOf s x)).findIdx? (fun e => p e && Config.sha384 (imageBytes s x e) != e.digest)
/-- Stage TILE_LOAD: the tiles that have power are loaded. -/
def tileLoad (s : State) : State :=
  let x := s.get BOOT_STATUS.slot
  let s := s.forEach ((List.range 24).filter (fun t => domOn s (domTile t))) (loadTile x)
  match badEntry s (fun e => e.kind != 3) with
  | some i => slotBad 0x0A i s
  | none => toStage 7 s
/-- The meaning of TILE_LOAD. -/
def execTileLoad (bad : Option (BitVec 26)) (s : State) : Outcome := .next (bootStage 6 bad tileLoad s)

/-- Stage MEASURE; in HA mode stage VERDICT follows (R368, R376). -/
def measure (s : State) : State :=
  let x := s.get BOOT_STATUS.slot
  if s.boot.chain.length != 3 then s
  else match badEntry s (fun e => e.kind == 3) with
    | some i => slotBad 0x0A i s
    | none =>
      let ds := (imageEntries (manifestOf s x)).map (fun e => Config.sha384 (imageBytes s x e))
      let s := (chainPush 3 (Config.sha384 (chainLast s ++ Config.sha384 ds.flatten)) s).modBoot (fun b => { b with digests := ds })
      if s.is BOOT_STATUS.ha then (toStage 8 (drawNonce s)).raise BOOT_EVENTS.verdict_needed else s
/-- The meaning of MEASURE. -/
def execMeasure (bad : Option (BitVec 26)) (s : State) : Outcome := .next (bootStage 7 bad measure s)

/-- R376: no verdict within 1 s. -/
def verdictTimeout (s : State) : State :=
  if !inStage s 8 || s.boot.verdict || s.boot.timedOut then s
  else
    let s := (bootFail (s.get BOOT_STATUS.slot) 0x0D 0 s).set BOOT_STATUS.result 0x0D
    s.modBoot (fun b => { b with timedOut := true })
/-- The meaning of VERDICT_TIMEOUT. -/
def execVerdictTimeout (s : State) : Outcome := .next (verdictTimeout s)

/-! ### Thaw -/

/-- R375: every condition of Thaw but the gate holds. -/
def thawReady (s : State) : Bool :=
  s.frost && s.boot.chain.length == 4 && (inStage s 7 && !s.is BOOT_STATUS.ha || inStage s 8 && s.boot.verdict) &&
  s.is PIN_STATUS.applied && !s.is MEM_STATUS.deep_hold
/-- R445: START ends on the Thaw edge in RING mode, where the listed ring is the only PROVEN source. -/
def endStart (s : State) : State :=
  let l := refList s
  if s.get CLK_STATUS.mode != mSTART || l.any (fun i => i != 0x0A && selectable s i) || !l.contains 0x0A || !selectable s 0x0A then s
  else
    let s := ((lastSwitch noSource 0x0A 5 s).set CLK_STATUS.mode mRING).set CLK_STATUS.selected 0x0A
    let s := (s.raise (CLK_SRC_STAT.selected 0x0A)).raise CLK_STATUS.degraded
    (s.setP (nominalP s mRING)).refreshDegraded
/-- R375: the Thaw edge. -/
def thaw (s : State) : State :=
  if !thawReady s || (s.is BOOT_CTRL.thaw_gate && !s.boot.go) then s
  else
    let us := (s.pair DRZ_TICK_LO - s.boot.resetTick) / 8
    let s := ((toStage 9 s).set BOOT_STATUS.frost 0).setN BOOT_THAW_US (min us 0xFFFFFFFF)
    let s := s.when s.pwr.woke (·.raise PWR_EVENTS.woke)
    let s := (s.modPwr (fun p => { p with woke := false })).modBoot (fun b => { b with post := true })
    let s := { s with flt := { s.flt with stableFrom := some s.now } }
    outputsSafe (showPermit ((endStart s).raise BOOT_EVENTS.thawed))
/-- The meaning of THAW. -/
def execThaw (s : State) : Outcome := .next (thaw s)

/-- R375: a write of BOOT_CTRL.thaw_go. -/
def thawGo (m : Master) (s : State) : State :=
  let may := match m with
    | .storekeeper => false
    | _ => devWriter m
  if may && thawReady s then s.modBoot (fun b => { b with go := true }) else s
/-- The meaning of THAW_GO. -/
def execThawGo (m : Master) (s : State) : Outcome := .next (thawGo m s)

/-- R379 step 3: the roll-back counter advances to the target of a record that names the booted slot. -/
def advanceCounter (m : List Byte) (s : State) : State :=
  match readRecord s recADVANCE with
  | none => s
  | some b =>
    if b.drop 1 != m then clearRecord recADVANCE s
    else if s.boot.ctr < u8 b 0 then
      (clearRecord recADVANCE (s.modBoot (fun h => { h with ctr := u8 b 0 }))).raise BOOT_EVENTS.fuse_done
    else s
/-- R379: the records after Thaw. -/
def postThaw (s : State) : State :=
  if !s.boot.post || !recordsWritable s then s
  else
    let x := s.get BOOT_STATUS.slot
    let m := manifestOf s x
    let s := recFallback [recACTIVE 0, recACTIVE 1, recMIN_VERSION, recADVANCE] s
    let s := writeRecord recLAST_GOOD (slotMeasure m) s
    let s := s.when (!activeFlag s x) (writeRecord (recACTIVE x) [1])
    let s := s.when (activeFlag s (1 - x)) (writeRecord (recACTIVE (1 - x)) [0])
    let s := s.when (fusesAllowed s) (advanceCounter (slotMeasure m))
    let s := s.when (minVersion s < manMinVersion m) (writeRecord recMIN_VERSION (leBytes 4 (manMinVersion m)))
    let s := writeRecord recBOOT_MODE [BitVec.ofNat 8 (splitByte s.invB 6 % 2)] s
    showBoot (s.modBoot (fun b => { b with post := false, excl := Vector.replicate 2 false }))
/-- The meaning of POST_THAW_RECORDS. -/
def execPostThawRecords (s : State) : Outcome := .next (postThaw s)

/-! ### Life-cycle and provisioning -/

/-- Table BOOT-12 but for its preconditions. -/
def transition (a b : Nat) : Bool :=
  a == 0 && b == 1 || a == 1 && b == 2 || a == 2 && b == 3 || (a == 2 || a == 3) && b == 4 || a != 5 && b == 5
/-- The precondition of a transition (Table BOOT-12). -/
def transitionMet (s : State) (b : Nat) : Bool :=
  let keyed := (List.range 8).any (fun k => keyState s k == 1)
  let x := s.get BOOT_STATUS.slot
  let m := manifestOf s x
  let signed := match validKeyRecord s m (manKey m) with
    | some r => signaturesOk 3 r (m.take (manSig m)) (slice m (manSig m) 4752)
    | none => false
  if b == 1 then keyed
  else if b == 2 then keyed && (List.range 4).any (fun k => (atD s.boot.wrapped k none).isSome)
  else if b == 3 then (bootedSlot s).isSome && (signed || slotBound s x)
  else true
/-- R384: a life-cycle change that has been accepted; until its rung 3 the Storekeeper answers BUSY (R387).  Its overwriting for Scrap
goes on in the array whatever the supply: it began with SUPWARN_N high (log 161). -/
def changeLifecycle (b : Nat) (s : State) : State :=
  let s := vaultWipe 6 ((s.modBoot (fun h => { h with lc := b })).set BOOT_STATUS.lc b)
  let s := s.when (s.get BOOT_STATUS.debug == 2) (fun s => { s.set BOOT_STATUS.debug 1 with dbg := false })
  let s := s.when (b == 5) (fun s =>
    let s := (s.clearMem mramKey (mramKey + 0x3000000)).clearMem (mramKey + 0x3C00000) (mramKey + 0x4000000)
    s.modBoot (fun h => { h with recs := [], wrapped := Vector.replicate 4 none, persist := none }))
  (s.modBoot (fun h => { h with busy := true })).rungDue 3 0 4
/-- R384: a life-cycle change to state `b`; the answer is a code of Table BOOT-13. -/
def lifecycle (b : Nat) (blown : Bool) (s : State) : Nat × State :=
  if s.boot.busy then (7, s)
  else if !transition s.boot.lc b then (3, s)
  else if !transitionMet s b then (4, s)
  else if !fusesAllowed s then (6, s)
  else if !blown then (5, s)
  else (0, changeLifecycle b s)

/-- R386: a provisioning request ends; its data reads 0. -/
def provDone (r : Nat × State) : State :=
  (r.2.set BOOT_PROV_RESULT.result r.1).resetRegs (fun a => BOOT_PROV_DATA 0 ≤ a && a ≤ BOOT_PROV_DATA 7)
/-- R386: a provisioning request, in Blank and Factory from the host. -/
def provision (m : Master) (f : State → Nat × State) (s : State) : State :=
  if !coreOn s then s else provDone (if m != .host || 1 < s.boot.lc then (9, s) else if s.boot.busy then (7, s) else f s)
/-- The 32 bytes of BOOT_PROV_DATA. -/
def provData (s : State) : List Byte := ((List.range 8).map (fun w => leBytes 4 (s.regN (BOOT_PROV_DATA w)))).flatten

/-- The meaning of PROGRAM_IMAGE_KEY. -/
def execProgramImageKey (m : Master) (k : Fin 8) (blown : Bool) (s : State) : Outcome :=
  .next (provision m (fun s =>
    if keyState s k != 0 then (8, s)
    else if !fusesAllowed s then (6, s)
    else if !blown then (5, s)
    else (0, showRecords (s.modBoot (fun b => { b with keys := updAt b.keys k (fun e => (provData s, true, e.2.2)) })))) s)
/-- The meaning of INSTALL_COMMAND_KEY. -/
def execInstallCommandKey (m : Master) (k : Fin 4) (s : State) : Outcome :=
  .next (provision m (fun s =>
    let key := provData s
    let s := s.modBoot (fun b => { b with
      cmdKeys := updAt b.cmdKeys k (fun _ => some key), wrapped := updAt b.wrapped k (fun _ => some (Config.aesWrap wrappingKey key)) })
    (0, s.when (recordsWritable s) (writeRecord (recCOUNTER k) (leBytes 16 0)))) s)
/-- R386: INSTALL_COMMAND_KEY for a key slot that the Vault does not have; the spec gives no code, and the model answers
PRECONDITION (log 162). -/
def execInstallNoSlot (m : Master) (s : State) : Outcome := .next (provision m (fun s => (4, s)) s)
/-- The meaning of ENTER_FACTORY. -/
def execEnterFactory (m : Master) (blown : Bool) (s : State) : Outcome :=
  .next (provision m (fun s => if s.boot.lc != 0 then (3, s) else lifecycle 1 blown s) s)

end Sys2Proof.Machine
end

