-- ==== Sys2Proof/Machine/Host.lean ====
section
/-!
DEFINITION. Sys2Proof/Machine/Host.lean: critical and data commands, the mailbox, the host frame queues and MSI-X (R376 to R407,
R395, R396).  The functions that answer a number answer the command's detail code.
-/
namespace Sys2Proof.Machine

/-- Changes the host port's hidden state. -/
def State.modHost (s : State) (f : HostH → HostH) : State := { s with host := f s.host }

/-! ### The commands' effects -/

/-- R409, R411, R412: the LADDER command. -/
def ladderCommand (rung f : Nat) (s : State) : Nat × State :=
  if s.flt.due.any (fun d => 3 ≤ d.1) then (0, s)
  else if rung == 2 then
    if 10 < f then (1, s)
    else if atD s.flt.reinit f false then (2, s)
    else (0, reInit f 1 s)
  else if f != 0xFF then (1, s)
  else if rung == 3 then (0, s.rung3Counted 0 1)
  else if rung == 4 then (0, s.rungDue 4 0 1)
  else (1, s)
/-- The meaning of LADDER. -/
def execLadder (rung f : BitVec 8) (s : State) : Outcome := .next (ladderCommand rung.toNat f.toNat s).2

/-- R377: a slot write opens on the slot not in use. -/
def slotOpen (x : Nat) (s : State) : Nat × State :=
  if s.boot.busy then (7, s)
  else if 1 < x then (1, s)
  else if bootedSlot s == some x then (8, s)
  else (0, s.modHost (fun h => { h with slotOpen := some x }))
/-- The meaning of SLOT_OPEN. -/
def execSlotOpen (x : BitVec 8) (s : State) : Outcome := .next (slotOpen x.toNat s).2

/-- R189: writes to slot `x` are refused: it is the active slot, and a tile is out of reset. -/
def codeLocked (s : State) (x : Nat) : Bool := s.get MRAM_STATUS.active_slot == x && s.tiles.toList.any (fun y => !y.held)
/-- Image octets are written into slot `x`; the MRAM refuses them under the supply warning (R188), and in the active slot while a
tile is out of reset (R189). -/
def slotWrite (x off : Nat) (d : List Byte) (s : State) : State :=
  if recordsWritable s && !codeLocked s x then mramBytes (slotBase x + off) d s else mramRefused s
/-- R377, R402: image octets for the open slot; the answer says whether a session takes them. -/
def slotData (off : Nat) (d : List Byte) (s : State) : Bool × State :=
  match s.host.slotOpen with
  | none => (false, s)
  | some x =>
    if s.boot.busy || off % 4 != 0 || d.length % 4 != 0 || 0x1800000 < off + d.length then (false, s)
    else
      let s := s.when (recordsWritable s && activeFlag s x) (writeRecord (recACTIVE x) [0])
      let s := s.when (recordsWritable s) (clearRecord (recBIND x))
      (true, showSlot x (slotWrite x off d s))
/-- The meaning of SLOT_DATA. -/
def execSlotData (off : BitVec 32) (d : List Byte) (s : State) : Outcome := .next (slotData off.toNat d s).2

/-- R378 step 1, R371: every check of slot `x`; BIND writes the bind record between. -/
def activationCheck (x : Nat) (bind : Bool) (bad : Option (BitVec 26)) (s : State) : Nat × Nat × State :=
  let mram := bad.any (fun o => 0x1800000 * x ≤ o.toNat && o.toNat < 0x1800000 * (x + 1))
  let s := match bad with
    | some o => mramLineBad o.toNat s
    | none => s
  let (c, d) := if bind then checkSlot s x false mram else (0, 0)
  if c != 0 then (c, d, s)
  else
    let s := s.when bind (writeRecord (recBIND x) (bindTag (manifestOf s x)))
    let (c, d) := checkSlot s x true mram
    (c, d, s)
/-- R378: the activation of slot `x`. -/
def slotActivate (x : Nat) (adv bind : Bool) (bad : Option (BitVec 26)) (s : State) : Nat × State :=
  if s.boot.busy then (7, s)
  else
  let s := s.modHost (fun h => { h with slotOpen := none })
  if 1 < x then (1, s)
  else if bootedSlot s == some x && activeFlag s x then (0, s)
  else if !recordsWritable s then (6, s)
  else
    let (c, d, s) := activationCheck x bind bad s
    let s := slotChecked x c s
    if c != 0 then (1, showBoot (bootFail x c d s))
    else
      let m := manifestOf s x
      let s := writeRecord (recACTIVE (1 - x)) [0] (writeRecord (recACTIVE x) [1] s)
      let s := s.when adv (writeRecord recADVANCE (BitVec.ofNat 8 (manVersion m / 2 ^ 24) :: slotMeasure m))
      let s := s.when (bootedSlot s != some x) (fun s =>
        (s.modBoot (fun b => { b with persist := none })).set INV_STATE.persist_pending 0)
      (0, showBoot (s.raise BOOT_EVENTS.activated))
/-- The meaning of SLOT_ACTIVATE. -/
def execSlotActivate (x : BitVec 8) (adv bind : Bool) (bad : Option (BitVec 26)) (s : State) : Outcome :=
  .next (slotActivate x.toNat adv bind bad s).2

/-- R382: the revocation of image-key slot `k`. -/
def keyRevoke (k : Nat) (blown : Bool) (s : State) : Nat × State :=
  let m := manifestOf s (s.get BOOT_STATUS.slot)
  if s.boot.busy then (7, s)
  else if 7 < k then (1, s)
  else if (bootedSlot s).isSome && k == manKey m || s.hasInv && k == keySlotOf s.invB then (2, s)
  else if keyState s k == 2 then (0, s)
  else if !fusesAllowed s then (6, s)
  else if !blown then (5, s)
  else
    let s := s.modBoot (fun b => { b with keys := updAt b.keys k (fun e => (e.1, e.2.1, true)) })
    (0, (showRecords s).raise BOOT_EVENTS.revoked)
/-- The meaning of KEY_REVOKE. -/
def execKeyRevoke (k : BitVec 8) (blown : Bool) (s : State) : Outcome := .next (keyRevoke k.toNat blown s).2

/-- The meaning of LIFECYCLE. -/
def execLifecycle (b : BitVec 8) (blown : Bool) (s : State) : Outcome := .next (lifecycle b.toNat blown s).2

/-- R385: the debug unlock. -/
def debugUnlock (s : State) : Nat × State :=
  if s.boot.busy then (7, s)
  else if s.boot.lc == 2 || s.boot.lc == 4 then (0, (s.set BOOT_STATUS.debug 2).raise BOOT_EVENTS.debug_unlocked)
  else if s.boot.lc == 1 then (0, s)
  else (3, s)
/-- The meaning of DEBUG_UNLOCK. -/
def execDebugUnlock (s : State) : Outcome := .next (debugUnlock s).2

/-- R406: an override of a split-table entry. -/
def splitOverride (f v : Nat) (s : State) : Nat × State :=
  if f == 6 || 10 < f || 3 < v then (1, s)
  else if s.get (HOST_FN_STAT.mode f) == v % 2 && s.get (HOST_FN_STAT.policy f) == v / 2 then (0, s)
  else (0, fnChange f v true (s.raise INV_STATE.split_override))
/-- The meaning of SPLIT_OVERRIDE. -/
def execSplitOverride (f v : BitVec 8) (s : State) : Outcome := .next (splitOverride f.toNat v.toNat s).2

/-- R163, R407: OUTPUT_OVERRIDE kind 1. -/
def verdictOverride (g : Nat) (v : Word) (s : State) : Nat × State :=
  let (ok, s) := verdictWrite g v s
  (if ok then 0 else 1, s)
/-- The meaning of VERDICT_OVERRIDE. -/
def execVerdictOverride (g : Fin 12) (v : Word) (s : State) : Outcome := .next (verdictOverride g v s).2

/-- R407: OUTPUT_OVERRIDE kind 2. -/
def edgeOverride (e op : Nat) (v : Word) (s : State) : Nat × State :=
  let c := e / 16
  let k := e % 16
  if 96 ≤ e || 4 < op || !domOn s (domCluster c) || chanState s c k == eOFF then (1, s)
  else (0,
    if op == 0 then edgCmpWrite true .host c k v s
    else if op == 1 then edgArm true .host c k s
    else if op == 2 then edgDisarm true .host c k s
    else edgForce true (op == 3) .host c k s)
/-- The meaning of EDGE_OVERRIDE. -/
def execEdgeOverride (e : Fin 96) (op : BitVec 8) (v : Word) (s : State) : Outcome := .next (edgeOverride e op.toNat v s).2

/-- R407: OUTPUT_OVERRIDE kind 3. -/
def gpioOverride (b op : Nat) (v : Word) (s : State) : Nat × State :=
  let mask := v.toNat % 2 ^ 24
  if 7 < b || 3 < op then (1, s)
  else (0,
    if op == 0 then gpioOut true b mask orBits s
    else if op == 1 then gpioOut true b mask clrBits s
    else if op == 2 then gpioOut true b mask tglBits s
    else gpioDir true b (BitVec.ofNat 32 mask) s)
/-- The meaning of GPIO_OVERRIDE. -/
def execGpioOverride (b : Fin 8) (op : BitVec 8) (v : Word) (s : State) : Outcome := .next (gpioOverride b op.toNat v s).2

/-- The present nonce. -/
def nonceBytes (s : State) : List Byte := ((List.range 4).map (fun i => leBytes 4 (s.regN (BOOT_NONCE i)))).flatten
/-- R376: a verdict. -/
def bootVerdict (nonce h3 : List Byte) (v : Nat) (s : State) : Nat × State :=
  if s.boot.busy then (7, s)
  else if !inStage s 8 || s.boot.verdict || nonce != nonceBytes s || h3 != chainLast s then (1, s)
  else if v == 1 then
    (0, ((s.modBoot (fun b => { b with verdict := true })).set BOOT_STATUS.verdict_wait 0).progress 6)
  else if v == 2 then (0, (slotBad 0x0C 0 (s.set BOOT_STATUS.verdict_wait 0)).modBoot (fun b => { b with busy := true }))
  else (1, s)
/-- The meaning of BOOT_VERDICT. -/
def execBootVerdict (nonce h3 : List Byte) (v : BitVec 8) (s : State) : Outcome := .next (bootVerdict nonce h3 v.toNat s).2

/-- R399: the body of the answer to STATUS_QUERY. -/
def statusBody (s : State) : List Byte :=
  ((List.range 4).map (fun k => beBytes 8 (s.pair (CMD_CTR_LO k)))).flatten ++ beBytes 4 (s.regN BOOT_STATUS) ++
    beBytes 4 (s.regN INV_STATE)
/-- The meaning of STATUS_QUERY: it changes nothing; COMMAND_EXECUTE writes its answer. -/
def execStatusQuery (s : State) : Outcome := .next s

/-- R383: image octets for the recovery loader. -/
def recoveryWrite (x off : Nat) (d : List Byte) (s : State) : Nat × State :=
  if s.boot.busy then (7, s)
  else if !inStage s 0xE || 1 < x || 0x1800000 < off + d.length then (1, s) else (0, slotWrite x off d s)
/-- The meaning of RECOVERY_WRITE. -/
def execRecoveryWrite (x : BitVec 8) (off : BitVec 32) (d : List Byte) (s : State) : Outcome :=
  .next (recoveryWrite x.toNat off.toNat d s).2

/-- R383: a commit of slot `x`. -/
def recoveryCommit (x : Nat) (bad : Option (BitVec 26)) (s : State) : Nat × State :=
  if s.boot.busy then (7, s)
  else if !inStage s 0xE || 1 < x || !recordsWritable s then (1, s)
  else
    let (c, d, s) := activationCheck x false bad s
    let s := slotChecked x c s
    if c != 0 then (c, showBoot ((bootFail x c d s).set BOOT_STATUS.result c))
    else
      let s := writeRecord (recACTIVE (1 - x)) [0] (writeRecord (recACTIVE x) [1] s)
      let s := s.modBoot (fun b => { b with excl := Vector.replicate 2 false, busy := true })
      (0, (showBoot s).rungDue 3 0 4)
/-- The meaning of RECOVERY_COMMIT. -/
def execRecoveryCommit (x : BitVec 8) (bad : Option (BitVec 26)) (s : State) : Outcome := .next (recoveryCommit x.toNat bad s).2

/-! ### COMMAND_EXECUTE -/

/-- The opcodes of Table HOST-5. -/
def opcodes : List Nat :=
  [0x0001, 0x0010, 0x0011, 0x0012, 0x0013, 0x0020, 0x0021, 0x0030, 0x0031, 0x0032, 0x0040, 0x0050, 0x0060, 0x8001, 0x8002, 0x8003,
   0x8004, 0x8005]
/-- The body of an opcode has its length and its reserved octets are 0 (Tables HOST-5, HOST-7). -/
def bodyOk (op : Nat) (b : List Byte) : Bool :=
  let n := b.length
  if op == 0x0001 || op == 0x0021 || op == 0x0040 then n == 4 && zeros b 2 2
  else if op == 0x0010 then n == 56 && zeros b 1 3
  else if op == 0x0011 then n == 12
  else if op == 0x0012 || op == 0x0013 || op == 0x0032 || op == 0x8003 then n == 0
  else if op == 0x0020 || op == 0x0030 || op == 0x0031 || op == 0x8005 then n == 4 && zeros b 1 3
  else if op == 0x0050 then
    n == 12 && zeros b 8 4 && (if u8 b 0 == 1 then zeros b 2 2 else zeros b 3 1)
  else if op == 0x0060 then n == 68 && zeros b 65 3
  else if op == 0x8001 then 4 ≤ n
  else if op == 0x8002 then 4 ≤ n && n % 4 == 0
  else if op == 0x8004 then 8 ≤ n && zeros b 1 3
  else true
/-- R397, R400 step 1: the format of a command. -/
def commandOk (d : List Byte) : Bool :=
  let l := beAt d 4 2
  let op := beAt d 2 2
  48 ≤ d.length && d.length ≤ 1496 && d.length == 48 + l && u8 d 0 == 1 && zeros d 6 2 && zeros d 28 4 &&
  bodyOk op (slice d 32 l) && (op < 0x8000 || u8 d 1 == 0xFF && zeros d 8 8 && zeros d (32 + l) 16)
/-- R362: the device stands in Scrap, where the Storekeeper answers reads of its identity only. -/
def scrapped (s : State) : Bool := s.get BOOT_STATUS.stage == 0xF && s.boot.lc == 5
/-- R400 step 5: the opcode is permitted in the present stage. -/
def permitted (op : Nat) (s : State) : Bool :=
  if op == 0x8003 then !scrapped s
  else if op == 0x0060 then s.get BOOT_STATUS.stage == 8
  else if op == 0x8004 || op == 0x8005 then s.get BOOT_STATUS.stage == 0xE
  else !s.frost
/-- R400 steps 1 to 3 and 4.1 to 4.4: a code of Table HOST-6. -/
def commandCheck (d : List Byte) (s : State) : Nat :=
  let op := beAt d 2 2
  let k := u8 d 1
  if !commandOk d then 1
  else if beAt d 16 8 != Config.deviceId.toNat then 2
  else if !opcodes.contains op then 3
  else if 0x8000 ≤ op then 0
  else match atD s.boot.cmdKeys k none with
    | none => 4
    | some key =>
      if !s.is VAULT_STATUS.restored then 4
      else if s.hasInv && !bitN (u8 (section_ s.invB 4) 2) k then 5
      else if Config.cmac key (d.take (d.length - 16)) != d.drop (d.length - 16) then 6
      else if beAt d 8 8 ≤ s.pair (CMD_CTR_LO k) then 7
      else 0
/-- R404: the ceiling is written ahead of a counter that exceeds it; the answer says whether the counter can be recorded. -/
def recordCounter (k c : Nat) (recOk : Bool) (s : State) : Bool × State :=
  if c ≤ ceiling s k then (true, s)
  else if !recordsWritable s || !recOk then (false, s)
  else (true, writeRecord (recCOUNTER k) (leBytes 8 (min (c + 0x1000) (2 ^ 64 - 1)) ++ leBytes 8 0) s)

/-- R402, R399: the effect of an opcode: result, detail, body of the answer. -/
def runCommand (op : Nat) (b : List Byte) (blown : Bool) (bad : Option (BitVec 26)) (s : State) : Nat × Nat × List Byte × State :=
  let plain := fun (r : Nat × State) => (0, r.1, ([] : List Byte), r.2)
  let session := fun (r : Bool × State) => (if r.1 then 0 else 0xA, 0, ([] : List Byte), r.2)
  let word := fun (o : Nat) => BitVec.ofNat 32 (beAt b o 4)
  if op == 0x0001 then plain (ladderCommand (u8 b 0) (u8 b 1) s)
  else if op == 0x0010 then plain (stageBegin (bitN (u8 b 0) 0) (beAt b 4 4) (slice b 8 48) s)
  else if op == 0x0011 then plain (stageArm (beAt b 0 4) (beAt b 4 8) s)
  else if op == 0x0012 then plain (stageCancel s)
  else if op == 0x0013 then plain (revertCommand s)
  else if op == 0x0020 then plain (slotOpen (u8 b 0) s)
  else if op == 0x0021 then plain (slotActivate (u8 b 0) (bitN (u8 b 1) 0) (bitN (u8 b 1) 1) bad s)
  else if op == 0x0030 then plain (keyRevoke (u8 b 0) blown s)
  else if op == 0x0031 then plain (lifecycle (u8 b 0) blown s)
  else if op == 0x0032 then plain (debugUnlock s)
  else if op == 0x0040 then plain (splitOverride (u8 b 0) (u8 b 1) s)
  else if op == 0x0050 then
    if u8 b 0 == 1 && u8 b 1 < 12 then plain (verdictOverride (u8 b 1) (word 4) s)
    else if u8 b 0 == 2 then plain (edgeOverride (u8 b 1) (u8 b 2) (word 4) s)
    else if u8 b 0 == 3 then plain (gpioOverride (u8 b 1) (u8 b 2) (word 4) s)
    else (0, 1, [], s)
  else if op == 0x0060 then plain (bootVerdict (slice b 0 16) (slice b 16 48) (u8 b 64) s)
  else if op == 0x8001 then session (stageData (beAt b 0 4) (b.drop 4) s)
  else if op == 0x8002 then session (slotData (beAt b 0 4) (b.drop 4) s)
  else if op == 0x8003 then (0, 0, statusBody s, s)
  else if op == 0x8004 then plain (recoveryWrite (u8 b 0) (beAt b 4 4) (b.drop 8) s)
  else plain (recoveryCommit (u8 b 0) bad s)

/-- R397, R398: the answer to a command. -/
def response (d body : List Byte) (result detail : Nat) (s : State) : List Byte :=
  -- a command shorter than its header has zeros for the octets it lacks (log 163)
  let d := d ++ List.replicate (32 - d.length) 0
  let h := [1] ++ slice d 1 3 ++ beBytes 2 body.length ++ beBytes 1 result ++ beBytes 1 detail ++ slice d 8 8 ++
    beBytes 8 Config.deviceId.toNat ++ slice d 24 4 ++ beBytes 4 (s.now % 2 ^ 32)
  let tagged := beAt d 2 2 < 0x8000 && (result == 0 || 7 ≤ result)
  let tag := if tagged then Config.cmac ((atD s.boot.cmdKeys (u8 d 1) none).getD []) (h ++ body) else List.replicate 16 0
  h ++ body ++ tag
/-- R398: the answer goes to the mailbox, or in a frame to the sender of the command frame (R291). -/
def respond (job : CmdJob) (r : List Byte) (result detail : Nat) (s : State) : State :=
  match job.frame with
  | none =>
    let s := s.forEach (List.range ((r.length + 3) / 4)) (fun w => (·.setN (HOST_CMD_BUF w) (u32 r (4 * w))))
    (((s.set HOST_CMD_STATUS.state 3).set HOST_CMD_STATUS.result result).set HOST_CMD_STATUS.detail detail).raise
      HOST_EVENTS.cmd_done
  | some (p, src, tag) =>
    let body := beBytes 2 0x88B5 ++ beBytes 1 4 ++ beBytes 1 1 ++ beBytes 2 r.length ++ r
    sendService p tag src body s

/-- R400: command `d` is checked and executed: result, detail, body of the answer. -/
def runChecked (d : List Byte) (recOk blown : Bool) (bad : Option (BitVec 26)) (s : State) : Nat × Nat × List Byte × State :=
  let op := beAt d 2 2
  let k := u8 d 1
  let c := commandCheck d s
  if c != 0 then (c, 0, [], s)
  else
    let (ok, s) := if op < 0x8000 then recordCounter k (beAt d 8 8) recOk s else (true, s)
    if !ok then (8, 0, [], s)
    else if !permitted op s then (9, 0, [], s)
    else
      let s := s.when (op < 0x8000) (·.setPair (CMD_CTR_LO k) (beAt d 8 8))
      runCommand op (slice d 32 (beAt d 4 2)) blown bad s

/-- R400, R401: the next command of the Storekeeper's queue. -/
def commandExecute (recOk blown : Bool) (bad : Option (BitVec 26)) (s : State) : State :=
  match s.host.jobs with
  | [] => s
  | job :: rest =>
    if !skRuns s || s.get BOOT_STATUS.stage == 0 then s
    else
      let (result, detail, body, s) := runChecked job.data recOk blown bad (s.modHost (fun h => { h with jobs := rest }))
      respond job (response job.data body result detail s) result detail s
/-- The meaning of COMMAND_EXECUTE. -/
def execCommandExecute (recOk blown : Bool) (bad : Option (BitVec 26)) (s : State) : Outcome :=
  .next (commandExecute recOk blown bad s)

/-! ### The mailbox and the frame queues -/

/-- The bytes of HOST_CMD_BUF. -/
def mailbox (s : State) (n : Nat) : List Byte :=
  (((List.range ((n + 3) / 4)).map (fun w => leBytes 4 (s.regN (HOST_CMD_BUF w)))).flatten).take n
/-- The mailbox waits for the Storekeeper or runs. -/
def mailboxBusy (s : State) : Bool := s.get HOST_CMD_STATUS.state == 1 || s.get HOST_CMD_STATUS.state == 2
/-- R401: a write of HOST_CMD_DOORBELL. -/
def doorbell (m : Master) (v : Word) (s : State) : State :=
  if m != .host then s
  else if mailboxBusy s then s.raise HOST_CMD_STATUS.refused
  else
    let n := bitsOf v 0 11
    let job : CmdJob := ⟨none, mailbox s (min 1496 n) ++ List.replicate (n - 1496) 0⟩
    ((s.set HOST_CMD_STATUS.state 1).set HOST_CMD_STATUS.refused 0).modHost (fun h => { h with jobs := h.jobs ++ [job] })
/-- R401: the Storekeeper runs the mailbox's command from when it has come to the head of the queue. -/
def mailboxRun (s : State) : State :=
  let head := s.host.jobs.head?.any (·.frame.isNone)
  s.when (head && s.get HOST_CMD_STATUS.state == 1 && skRuns s && s.get BOOT_STATUS.stage != 0) (·.set HOST_CMD_STATUS.state 2)
/-- The meaning of HOST_CMD_DOORBELL. -/
def execHostCmdDoorbell (m : Master) (v : Word) (s : State) : Outcome := .next (inCore (doorbell m v) s)

/-- R396: the host's frame has not yet left. -/
def fqBusy (s : State) : Bool := s.host.txId.any (inSwitch s)
/-- R396: a write of HOST_FQ_TX_DATA. -/
def fqTxData (m : Master) (v : Word) (s : State) : State :=
  if m == .host then s.modHost (fun h => { h with tx := h.tx ++ [v] }) else s
/-- R396: a write of HOST_FQ_TX_GO. -/
def fqTxGo (m : Master) (v : Word) (s : State) : State :=
  let n := bitsOf v 0 11
  if m != .host || fqBusy s || n < 14 || 1514 < n then s
  else
    let d := ((s.host.tx.map (fun (w : Word) => leBytes 4 w.toNat)).flatten ++ List.replicate n 0).take n
    let id := s.net.nextId
    let s := internalFrame 9 d (some 7) (s.modHost (fun h => { h with tx := [], txId := some id }))
    if inSwitch s id then s else (s.raise HOST_EVENTS.fq_tx_done).modHost (fun h => { h with txId := none })
/-- The meaning of HOST_FQ_TX_GO. -/
def execHostFqTxGo (m : Master) (v : Word) (s : State) : Outcome := .next (inCore (fqTxGo m v) s)

/-- The words of a frame, byte 4w in bits 7 to 0 of word w. -/
def frameWords (d : List Byte) : List Word := (List.range ((d.length + 3) / 4)).map (fun w => BitVec.ofNat 32 (u32 d (4 * w)))
/-- R396: a read of HOST_FQ_RX_LEN starts the head frame. -/
def fqRxLen (s : State) : Word × State :=
  match s.host.rx with
  | [] => (0, s)
  | d :: rest => (BitVec.ofNat 32 d.length, s.modHost (fun h => { h with rx := rest, reading := frameWords d }))
/-- The meaning of HOST_FQ_RX_LEN. -/
def execHostFqRxLen (s : State) : Outcome :=
  .next (inCore (fun s => let (w, s) := fqRxLen s; { s with data := w }) s)
/-- R396: a read of HOST_FQ_RX_DATA pops one word. -/
def fqRxData (s : State) : Word × State :=
  (s.host.reading.headD 0, s.modHost (fun h => { h with reading := h.reading.drop 1 }))
/-- The meaning of HOST_FQ_RX_DATA. -/
def execHostFqRxData (s : State) : Outcome :=
  .next (inCore (fun s => let (w, s) := fqRxData s; { s with data := w }) s)
/-- HOST_FQ_STATUS as read. -/
def readFqStatus (s : State) : Word := BitVec.ofNat 32 ((if fqBusy s then 1 else 0) + 256 * min 255 s.host.rx.length)

/-! ### PCIe and MSI-X -/

/-- Vector `v` is masked. -/
def msixMasked (s : State) (v : Nat) : Bool := (atD s.host.msix (4 * v + 3) 0).getLsbD 0
/-- A message of vector `v` is sent, or its pending bit set (R395): masked, with MSI-X masked or disabled, or in D3hot (log 102); no
message leaves without a link. -/
def msixFire (v : Nat) (s : State) : State :=
  if msixMasked s v || s.host.msixMask || !s.host.msixOn || s.host.d3hot then
    s.modHost (fun h => { h with irq := updAt h.irq v (fun e => (e.1, true)) })
  else s.modHost (fun h =>
    { h with irq := updAt h.irq v (fun e => (e.1, false)), msgs := updAt h.msgs v (· + (if s.is HOST_STATUS.pcie_link then 1 else 0)) })
/-- R395: vector `v` follows the level of its source. -/
def msixEdge (v : Nat) (s : State) : State :=
  let sel := s.reg (HOST_IRQ_SEL v)
  let level := sel.getLsbD 15 && evLevel s (bitsOf sel 9 5) (bitsOf sel 0 9)
  let old := (atD s.host.irq v (false, false)).1
  let s := s.modHost (fun h => { h with irq := updAt h.irq v (fun e => (level, e.2)) })
  s.when (level && !old) (msixFire v)
/-- The meaning of MSI_X_MESSAGE. -/
def execMsiXMessage (v : Fin 16) (s : State) : Outcome := .next (inCore (msixEdge v) s)

/-- R393: the link is down, and the PCIe core is reset. -/
def pcieReset (s : State) : State :=
  let s := ((s.set HOST_STATUS.pcie_link 0).set HOST_STATUS.width 0).set HOST_STATUS.rate 0
  s.modHost (fun h => { h with
    irq := HostH.reset.irq, msix := HostH.reset.msix, msixOn := false, msixMask := false, d3hot := false })
/-- The meaning of PERST_N. -/
def execPerstN (s : State) : Outcome := .next ((pcieReset s).modHost (fun h => { h with perst := true }))
/-- The meaning of PERST_N_RELEASE: the link trains again, where the core domain works. -/
def execPerstNRelease (width : Fin 3) (rate : Fin 4) (s : State) : Outcome :=
  let s := s.modHost (fun h => { h with perst := false })
  .next (if !coreOn s || width.val == 0 || rate.val == 0 then s
    else ((s.raise HOST_STATUS.pcie_link).set HOST_STATUS.width width).set HOST_STATUS.rate rate)

/-- R390: a read of HOST_ACC_ADDR re-arms the record. -/
def accAddrRead (m : Master) (s : State) : Word × State :=
  let w := s.reg HOST_ACC_ADDR
  (w, if supWriter m then s.modHost (fun h => { h with accHeld := false }) else s)
/-- The meaning of HOST_ACC_ADDR_READ. -/
def execHostAccAddrRead (m : Master) (s : State) : Outcome :=
  .next (inCore (fun s => let (w, s) := accAddrRead m s; { s with data := w }) s)

end Sys2Proof.Machine
end

