-- ==== Sys2Proof/Machine/Faults.lean ====
section
/-!
DEFINITION. Sys2Proof/Machine/Faults.lean: rungs 3 and 4 of the ladder and what each block keeps over them, stable runs, the fault
log, the tile watchdogs and the progress watchdogs (R402 to R428 and every chapter's table of conditions).
-/
namespace Sys2Proof.Machine

/-! ### Rung 3 -/

/-- The bits of the register at `a` that keep their value through rung 3 (Tables CLK-8, TT-5, PIN-7, MEM-12, PWR-8, NET-6, HOST-10,
FLT-6, BOOT-14); the INV fields wait for the inventory section that loads them again (log 105). -/
def rung3Keeps (a : Nat) : Word :=
  let errors := fun (base : Nat) => a == base + 0x14 || a == base + 0x1C
  if aonReg a || inNet a || a == CLK_STATUS || a == CLK_RING || a == TT_PERIOD ||
      a == TT_PERIOD_FINE || (List.range 8).any (fun p => a == TT_PORT_ASYM p) || a == PIN_SUPPLY ||
      (PIN_CAND 0 ≤ a && a < PIN_CAND 192 && (a % 16 == 0 || a % 16 == 4)) ||
      (List.range 8).any (fun b => a == GPIO_IN b) || (List.range 6).any (fun c => a == EDG_SAFE_LVL c) || a == FLT_STATUS ||
      FLT_LOG 0 0 ≤ a && a ≤ FLT_LOG 63 3 || a == HOST_STATUS then 0xFFFFFFFF
  else if a == BOOT_FAIL || errors 0x40000 || (List.range 6).any (fun c => errors (cluBlk c + 0x40000)) then 0xFF000000
  -- the state of each source stays, not its cause of failure and deviation (Table CLK-8)
  else if CLK_SRC_STAT 0 ≤ a && a ≤ CLK_SRC_STAT 10 then 0xFF
  else if a == VAULT_STATUS then 3
  -- what the AON supply measurement shows (R315)
  else if a == PIN_STATUS then 0xFF00
  else if a == PWR_STATUS then BitVec.ofNat 32 (2 ^ PWR_STATUS.supwarn.lo)
  else if a == TT_STATUS then BitVec.ofNat 32 (2 ^ TT_STATUS.ever_synced.lo)
  else 0
/-- Every register keeps the bits of `mask` and takes its reset value in the others. -/
def maskRegs (mask : Nat → Word) (s : State) : State :=
  { s with io := s.io.filterMap (fun e =>
      let w := (e.2 &&& mask e.1) ||| (ioReset e.1 &&& ~~~mask e.1)
      if w == ioReset e.1 then none else some (e.1, w)) }

/-- The state of the blocks of every chapter after a warm reset (R372, R409). A reference switch in progress is dropped and the old
selection stays, on which Table CLK-8 and R57 are silent (log 169, DESIGN CHOICE). -/
def warmReset (s : State) : State :=
  let held := s.clk.hold != 0
  -- Frost and safe levels from the reset edge
  let s := outputsSafe ((s.raise BOOT_STATUS.frost).set BOOT_STATUS.stage 1)
  -- domains that are off come back empty
  let s := s.forEach ((List.range 44).map (· + 3)) (fun d s => s.when (s.get (PWR_DOM_STAT.state d) != 0) (domFresh d))
  let memh := banksDeep s
  let s := maskRegs rung3Keeps (netReset s)
  let p := { PwrH.reset with
    lastTick := s.pwr.lastTick, lowFrom := s.pwr.lowFrom, por := false, woke := s.pwr.woke,
    balls := s.pwr.balls }
  let f := { FltH.reset with seq := s.flt.seq, resetOpen := s.flt.resetOpen, progress := Vector.replicate 11 s.now }
  let h := { HostH.reset with
    perst := s.host.perst, irq := s.host.irq, msix := s.host.msix, msgs := s.host.msgs,
    msixOn := s.host.msixOn, msixMask := s.host.msixMask, d3hot := s.host.d3hot }
  let b := { s.boot with
    chain := [], loaded := [], digests := [], verdict := false, go := false, post := false, timedOut := false,
    busy := false, warm := true }
  let s := { s with
    inv := .reset, flt := f, memh := memh, omt := .reset, vote := .reset, pwr := p, dbg := false, host := h, bus := .reset, boot := b
    tt := { TtH.reset with t := s.tt.t }
    edg := Vector.replicate 96 .reset
    ball := s.ball.map (fun (x : BallH) => ({ BallH.reset with keep := x.keep } : BallH))
    tiles := Vector.replicate 24 .reset
    adc := Vector.replicate 12 .reset
    dma := Vector.replicate 144 .reset
    turn := Vector.replicate 30 (0, 0) }
  -- Table PIN-7: the balls are at their safe levels, and the channels show the state that Frost gives them
  let s := outputsSafe (ballsHeld s)
  let s := s.modBoot (fun b => { b with resetTick := s.pair DRZ_TICK_LO })
  let s := sourcesProving (s.withClk { s.clk with
    hold := 0, lullRing := false, failedNow := false, switch := none,
    lullAt := if s.is CLK_STATUS.lull && !held then some s.clk.edges else none })
  let s := (bootList (s.set CLK_STATUS.switching 0)).set CLK_STATUS.select_result 0
  -- R67: after a hold the clock starts again from the ring
  let s := s.when held (fun s =>
    let s := (((s.set CLK_STATUS.mode mSTART).set CLK_STATUS.selected noSource).set CLK_STATUS.lull 0).set CLK_STATUS.glide 0
    (s.raise CLK_STATUS.degraded).setP (nominalP s mSTART))
  -- R60: the modulator follows the boot list's depth, unless a glide ends first
  let s := s.when (!s.is CLK_STATUS.glide) spreadStart
  showLines (showPermit (servoRestart s))

/-- R419: the eight newest records go into FAULT_TRAIL before rung 3 or 4. -/
def writeTrail (s : State) : State :=
  s.when (recordsWritable s) (writeRecord recFAULT_TRAIL (s.newestRecords 8 ++ List.replicate (128 - (s.newestRecords 8).length) 0))

/-- R409: rung 3. -/
def deviceReset (fn cause : Nat) (s : State) : State := warmReset (rungTaken 2 fn cause (writeTrail s))

/-- The meaning of DEVICE_RESET: a rung 3 that is due is taken. -/
def execDeviceReset (s : State) : Outcome :=
  .next (match s.flt.due with
    | some (3, fn, cause) => if s.pwr.pwrc || s.pwr.por then s else deviceReset fn cause s
    | _ => s)

/-! ### Rung 4 -/

/-- R354, R413: rung 4: as power-on reset, but the ladder's AON record of it, with the balls latched at their safe levels, and every
block other than AON held in reset until power-on reset comes (log 170). -/
def powerCycle (fn cause : Nat) (s : State) : State :=
  let n := ((readRecord s recLADDER).map (fun b => u8 b 0)).getD 0
  let s := writeTrail (s.when (recordsWritable s) (writeRecord recLADDER [BitVec.ofNat 8 (min 255 (n + 1))]))
  let s := rungTaken 3 fn cause s
  let latches := padLatches (outputsSafe (s.raise BOOT_STATUS.frost))
  let s := afterLoss (fun a => a == FLT_SELFTEST || a == LADDER_LAST) (fun k => mramKey ≤ k) s
  let s := s.modBoot (fun b => { b with excl := Vector.replicate 2 false })
  { s with flt := FltH.reset, ball := latches, pwr := { PwrH.reset with por := false, pwrc := true } }

/-- The meaning of POWER_CYCLE: a rung 4 that is due is taken. -/
def execPowerCycle (s : State) : Outcome :=
  .next (match s.flt.due with
    | some (4, fn, cause) => if s.pwr.pwrc || s.pwr.por then s else powerCycle fn cause s
    | _ => s)

/-- R413: 60 s of TT after a Thaw without rung 3 or 4. -/
def stableRun (s : State) : State :=
  match s.flt.stableFrom with
  | none => s
  | some t =>
    if !s.due (t + 60000000000) || !recordsWritable s then s
    else
      let s := ((clearRecord recLADDER s).set LADDER_STATUS.rung4 0).set LADDER_STATUS.exhausted 0
      { s with flt := { s.flt with stableFrom := none } }
/-- The meaning of STABLE_RUN. -/
def execStableRun (s : State) : Outcome := .next (stableRun s)

/-! ### The log and the watchdogs -/

/-- The meaning of CLEAR_LOG: a write of FLT_CTRL.clear_log, ignored once LOCK is 1. -/
def execClearLog (m : Master) (s : State) : Outcome :=
  .next (inCore (fun s => if devWriter m && !s.is FLT_CTRL.lock then (s.set FLT_STATUS.level 0).set FLT_STATUS.next 0 else s) s)

/-- L of tile `t`'s watchdog takes the present TT. -/
def wdtFrom (t : Nat) (s : State) : State := { s with flt := { s.flt with wdtL := updAt s.flt.wdtL t (fun _ => s.now) } }
/-- The backstop of tile `t` is loaded. -/
def wdtReload (t : Nat) (s : State) : State :=
  { s with flt := { s.flt with backstop := updAt s.flt.backstop t (fun _ => 1024 * s.get (WDT_BACKSTOP.backstop t)) } }
/-- The event of a watchdog fault of tile `t`. -/
def wdtEvent (t : Nat) (s : State) : State := s.raise ⟨FLT_EVENTS, t, 1⟩
/-- R420: the action of a watchdog fault. -/
def wdtAction (t : Nat) (s : State) : State :=
  match s.get (WDT_CFG.action t) with
  | 1 => s.modTile t (fun x => { x with lockup := x.lockup.orElse (fun _ => some 0) })
  | 2 => s.rung3Counted 0 2
  | _ => s
/-- The instants at which the window of tile `t` opens and closes. -/
def wdtWindow (s : State) (t : Nat) : Nat × Nat :=
  let l := atD s.flt.wdtL t 0
  (l + s.get (WDT_CFG.open_us t) * 1000, l + s.get (WDT_CFG.close_us t) * 16000)

/-- R420: a service of tile `t`'s watchdog. -/
def wdtService (m : Master) (t : Nat) (v : Word) (s : State) : State :=
  let own := match m with
    | .tile u vital sup => u.val == t && vital && sup
    | _ => false
  let (lo, hi) := wdtWindow s t
  if !own || !s.is (WDT_CFG.enable t) then s
  else if v != 0x5AC3 then wdtAction t (wdtEvent t ((s.bump (WDT_STAT.bad t)).fault 0x08 t v))
  else if s.now < lo then
    wdtAction t (wdtEvent t (((wdtFrom t s).bump (WDT_STAT.early t)).fault 0x06 t (BitVec.ofNat 32 s.now)))
  else if s.now ≤ hi then wdtReload t (wdtFrom t s)
  else s
/-- The meaning of WDT_SERVICE. -/
def execWdtService (m : Master) (t : Fin 24) (v : Word) (s : State) : Outcome := .next (inCore (wdtService m t v) s)

/-- R420: the window closes without a service. -/
def wdtLate (t : Nat) (s : State) : State :=
  if !s.is (WDT_CFG.enable t) || (s.tileOf t).held || !s.due (wdtWindow s t).2 then s
  else wdtAction t (wdtEvent t (((wdtFrom t s).bump (WDT_STAT.late t)).fault 0x07 t 0))
/-- The meaning of WDT_LATE. -/
def execWdtLate (t : Fin 24) (s : State) : Outcome := .next (inCore (wdtLate t) s)

/-- R421: the backstop of tile `t` reaches 0; only a backstop of 0 is off, whatever WDT_CFG.enable says. -/
def wdtBackstop (t : Nat) (s : State) : State :=
  if s.get (WDT_BACKSTOP.backstop t) == 0 || (s.tileOf t).held || atD s.flt.backstop t 1 != 0 then s
  else (wdtReload t (wdtEvent t ((s.bump (WDT_STAT.backstop t)).fault 0x30 t 0))).rung3Counted 0 2
/-- The meaning of WDT_BACKSTOP. -/
def execWdtBackstop (t : Fin 24) (s : State) : Outcome := .next (wdtBackstop t s)

/-- Table FLT-3: function `f` is busy. -/
def fnBusy (s : State) (f : Nat) : Bool :=
  match f with
  | 0 => s.is CLK_STATUS.switching || s.is CLK_STATUS.glide
  | 1 => s.get TT_STATUS.slave_port < 8
  | 2 => s.net.cmd.isSome || (s.ha 2 && !s.net.learn.isEmpty)
  | 3 => (List.range 12).any (fun g => (s.grpOf g).cmps.any (fun c => !c.decided))
  | 4 => (List.range 6).any (fun c => adcLinked s c && adcState s c 0 == adcRUNNING && (s.adcOf c 0).hold.isSome)
  | 5 => (crcChannels s).any (fun d => chState s d == chRUNNING)
  | 6 => s.get BOOT_STATUS.stage == 8
  | 8 => s.get INV_STATE.state == 1 || s.get INV_STATE.state == 2
  | 9 => (List.range 12).any (fun g => (s.grpOf g).phase != 0)
  | 10 => s.flt.reinit.any id
  | _ => false
/-- FWD_STAT as read. -/
def readFwdStat (s : State) (f : Nat) : Word := withBits (s.reg (FWD_STAT f)) 0 1 (if fnBusy s f then 1 else 0)
/-- R422: the progress watchdog of function `f` reaches its timeout. -/
def fnStall (f : Nat) (s : State) : State :=
  let us := s.get (FWD_CFG.timeout_us f)
  if us == 0 || !fnBusy s f || !s.due (atD s.flt.progress f 0 + us * 1000) then s
  else
    let s := (s.bump (FWD_STAT.stalls f)).raise FLT_EVENTS.fn_stall
    ((s.fault 0x2E f (readFwdStat s f)).failReport f).progress f
/-- The meaning of FN_STALL. -/
def execFnStall (f : Fin 11) (s : State) : Outcome := .next (inCore (fnStall f) s)
/-- R422: the progress watchdog of a function that is not busy does not count. -/
def fnWatch (s : State) : State := s.forEach ((List.range 11).filter (fun f => !fnBusy s f)) (fun f => (·.progress f))

/-- The meaning of VOTE_TAKEOVER: a write of VOTE_TAKEOVER by the host (R164). -/
def execVoteTakeover (m : Master) (g : Fin 12) (v : Word) (s : State) : Outcome :=
  .next (inCore (fun s => if m == .host then takeoverWrite g v s else s) s)

end Sys2Proof.Machine
end

