-- ==== Sys2Proof/Machine/Dma.lean ====
section
/-!
DEFINITION. Sys2Proof/Machine/Dma.lean: the data movers apart from their accesses: commands and register gates (R193, R198, R206,
R207, R209), pacing (R199 to R201), list entries (R196, R197), the CRC (R203 to R205) and bus errors (R206, R207).
-/
namespace Sys2Proof.Machine

/-! ### Channels as masters, and who may write them -/

/-- The owner world is Vital (R192). -/
def chVital (s : State) (d : Nat) : Bool := !s.is (CH_CTRL.world (chBase d))
/-- A channel as a master, in its owner world. -/
def chMaster (s : State) (d : Nat) : Master :=
  if d < 96 then .tdma ⟨d / 4 % 24, Nat.mod_lt _ (by decide)⟩ ⟨d % 4, Nat.mod_lt _ (by decide)⟩ (chVital s d)
  else .cdma ⟨(d - 96) / 8 % 6, Nat.mod_lt _ (by decide)⟩ ⟨(d - 96) % 8, Nat.mod_lt _ (by decide)⟩ (chVital s d)
/-- The channel's own latch and write stage (R85). -/
def chReader (d : Nat) : Reader :=
  if d < 96 then .tdma ⟨d / 4 % 24, Nat.mod_lt _ (by decide)⟩ ⟨d % 4, Nat.mod_lt _ (by decide)⟩
  else .cdma ⟨(d - 96) / 8 % 6, Nat.mod_lt _ (by decide)⟩ ⟨(d - 96) % 8, Nat.mod_lt _ (by decide)⟩
/-- The cluster of a channel's engine. -/
def chCluster (d : Nat) : Nat := if d < 96 then d / 16 else (d - 96) / 8
/-- R193: who writes an engine's registers. -/
def engineWriter (d : Nat) : Master → Bool
  | .tile t _ sup => sup && (if d < 96 then t.val == d / 4 else t.val / 4 == (d - 96) / 8)
  | .storekeeper => true
  | .host => true
  | _ => false
/-- The channel is in IDLE or DONE. -/
def chFree (s : State) (d : Nat) : Bool := chState s d == chIDLE || chState s d == chDONE
/-- R193: a writer of the other world than the owner's. -/
def chForeign (s : State) (d : Nat) : Master → Bool
  | .tile _ v _ => v != chVital s d
  | _ => false
/-- R193, R210: a command or register write reaches the channel, or is ignored with or without a cmd_result. -/
def chAdmit (m : Master) (d : Nat) (f : State → State) (s : State) : State :=
  if !domOn s (chDomain d) || !engineWriter d m then s
  else if s.is (CH_STATUS.claimed (chBase d)) then chResult d 3 s
  else if !chFree s d && chForeign s d m then chResult d 2 s
  else f s
/-- R198: a register write is accepted in IDLE and DONE. -/
def chWrite (m : Master) (d : Nat) (f : State → State) (s : State) : State :=
  chAdmit m d (fun s => if chFree s d then f s else chResult d 1 s) s

/-! ### Pacing -/

/-- Table DMA-3: the code is a pace source of the engine. -/
def paceValid (d src : Nat) : Bool :=
  src ≤ 1 || src == 0x10 || src == 0x11 || (0x12 ≤ src && src ≤ 0x21) || (0x30 ≤ src && src < 0x48) ||
    (96 ≤ d && 0x48 ≤ src && src < 0x50)
/-- A pace source's fill level and the entries it can hold. -/
def paceFill (s : State) (d src : Nat) : Nat × Nat :=
  let c := chCluster d
  if src == 1 then (s.get (CH_LEVEL.level (chBase d)), 0xFFFF)
  else if src < 0x12 then ((s.adcOf c (src - 0x10)).fifo.length, 32)
  else if src < 0x22 then ((s.edgOf (16 * c + (src - 0x12))).stages.length, 2)
  else if src < 0x38 then (busLevel s (10 + (src - 0x30)) true, 64)
  else if src < 0x40 then (busLevel s (10 + (src - 0x38)) false, 64)
  else if src < 0x44 then (busLevel s (18 + (src - 0x40)) true, 32)
  else if src < 0x48 then (busLevel s (18 + (src - 0x44)) false, 32)
  else (busLevel s (src - 0x48) true, 1216)
/-- R200: the pace latch after an edge, `issued` beats not yet being reflected in the level. -/
def paceNext (s : State) (d issued : Nat) : Bool :=
  let b := chBase d
  let (fill, room) := paceFill s d (s.get (CH_PACE.source b))
  let lvl := (if s.is (CH_PACE.sense b) then room - fill else fill) - issued
  let latch := s.is (CH_STATUS.pace_latch b) || decide (s.get (CH_PACE.high b) ≤ lvl)
  latch && !decide (lvl ≤ s.get (CH_PACE.low b))
/-- The channel is paced. -/
def paced (s : State) (d : Nat) : Bool := s.is (CH_PACE.source (chBase d))

/-! ### The CRC -/

/-- The bytes a CRC takes: 4, or 2 for CRC-16. -/
def crcSize (s : State) (d : Nat) : Nat := if s.get (CH_CTRL.crc_poly (chBase d)) == 2 then 2 else 4
/-- R203: the bytes stored for the running value. -/
def crcStored (s : State) (d : Nat) : List Byte := crcValue s (chBase d)
/-- R203: the running value at the start of a transfer. -/
def crcStart (d : Nat) (s : State) : State :=
  let b := chBase d
  let ones := if s.get (CH_CTRL.crc_poly b) == 2 then 0xFFFF else 0xFFFFFFFF
  if !s.is (CH_CTRL.crc_op b) then s
  else s.setN (CH_CRC b) (if s.is (CH_CTRL.crc_continue b) then s.regN (CH_CRC b) &&& ones else ones)
/-- R203: the bytes of a counted beat enter the CRC. -/
def crcBeat (d : Nat) (skip : Bool) (l : List Byte) (s : State) : State :=
  let b := chBase d
  if !s.is (CH_CTRL.crc_op b) then s
  else (s.when (!skip) (fun s => s.setN (CH_CRC b) (crcBytes (s.get (CH_CTRL.crc_poly b)) (s.regN (CH_CRC b)) l))).progress 5

/-! ### Ends -/

/-- R210: channel 7 enters DONE, and a copy that waits for it starts. -/
def chEnd (d code : Nat) (s : State) : State :=
  let s := chDone d code s
  match (List.range 12).find? (fun g =>
    (s.grpOf g).phase == 2 && ch7 (donorCluster s g) == d && (s.dmaOf d).copy.isNone) with
  | some g => startCopy (donorCluster s g) g s
  | none => s

/-- A transfer whose last beat has completed, with its CRC stored or read, ends (R203 to R205). -/
def chComplete (d : Nat) (s : State) : State :=
  let h := s.dmaOf d
  let b := chBase d
  let op := s.get (CH_CTRL.crc_op b)
  if op == 0 then chDone d 1 s
  else if h.ha then chDone d 1 (s.raise (CH_STATUS.crc_held b))
  else if op == 2 && h.ref != crcStored s d then chRaise d 3 (chDone d 7 s)
  else chDone d 1 s
/-- A side has bytes to move. -/
def Side.ready (x : Side) : Bool := x.rem != 0
/-- R197, R203, R204: what follows once both sides have ended, or one of them with bytes left on the other. -/
def chSettle (d : Nat) (s : State) : State :=
  let h := s.dmaOf d
  let b := chBase d
  let st := chState s d
  if st != chRUNNING && st != chPAUSED then s
  else if h.src.ended && h.dst.ended then
    let op := s.get (CH_CTRL.crc_op b)
    if op == 0 || (op == 1 && h.ha) then chComplete d s else s.modDma d (fun h => { h with tail := crcSize s d, ref := [] })
  else if (h.src.ended && h.dst.ready) || (h.dst.ended && h.src.ready) then chEnd d 6 s
  else s

/-! ### Commands -/

/-- A side as a GO leaves it: direct, or about to fetch its first entry. -/
def sideStart (list : Bool) (addr len : Nat) (fixed io : Bool) : Side :=
  if list then { Side.zero with entry := addr, fetch := true }
  else { Side.zero with addr := addr, rem := len, fixed := fixed, io := io, last := true, ended := len == 0 }
/-- R195, R200, R201: what a GO checks. -/
def goAligned (s : State) (d : Nat) : Bool :=
  let b := chBase d
  let w := 2 ^ s.get (CH_CTRL.width b)
  let side := fun (mode : Nat) (io : Bool) (a : Nat) => match mode with
    | 0 => a % w == 0 && s.get (CH_LEN.len b) % w == 0 && (!io || (w == 4 && decide (a < 0x1000000)))
    | 1 => a % 8 == 0
    | _ => false
  let src := s.get (CH_PACE.source b)
  side (s.get (CH_CTRL.src_mode b)) (s.is (CH_CTRL.src_io b)) (s.regN (CH_SRC b)) &&
    side (s.get (CH_CTRL.dst_mode b)) (s.is (CH_CTRL.dst_io b)) (s.regN (CH_DST b)) &&
    paceValid d src && (src == 0 || decide (s.get (CH_PACE.low b) < s.get (CH_PACE.high b))) &&
    s.get (CH_CTRL.start b) != 3 && s.get (CH_CTRL.crc_op b) != 3 && s.get (CH_CTRL.crc_poly b) != 3
/-- R199: the start condition is met; a paced channel with start 0 or 1 waits for its latch. -/
def chBegin (d : Nat) (s : State) : State :=
  chSettle d (chTo d (if paced s d && !s.is (CH_STATUS.pace_latch (chBase d)) then chPAUSED else chRUNNING) s)
/-- R192: the owner world that a GO fixes: 0 Vital, 1 Common. -/
def goWorld : Master → Nat
  | .tile _ v _ => if v then 0 else 1
  | .host => 1
  | _ => 0
/-- R198: a GO in IDLE or DONE. -/
def chGo (m : Master) (d : Nat) (s : State) : State :=
  let b := chBase d
  let stopped := 96 ≤ d && s.is (CDMA_STATUS.stopped ((d - 96) / 8))
  if !chFree s d || stopped then chResult d 1 s
  else
    let s := chResult d 0 s
    if !goAligned s d then chDone d 4 s
    else
      let s := s.set (CH_CTRL.world b) (goWorld m)
      let s := ((s.set (CH_STATUS.pace_latch b) 0).set (CH_STATUS.end_ b) 0).set (CH_STATUS.crc_held b) 0
      let s := crcStart d ((s.setN (CH_DONE_BYTES b) 0).setN (CH_DONE_ENTRIES b) 0)
      let srcList := s.get (CH_CTRL.src_mode b) == 1
      let dstList := s.get (CH_CTRL.dst_mode b) == 1
      let s := s.setN (CH_POS b) (if srcList then s.regN (CH_SRC b) else if dstList then s.regN (CH_DST b) else 0)
      let len := s.get (CH_LEN.len b)
      let src := sideStart srcList (s.regN (CH_SRC b)) len (s.is (CH_CTRL.src_fixed b)) (s.is (CH_CTRL.src_io b))
      let dst := sideStart dstList (s.regN (CH_DST b)) len (s.is (CH_CTRL.dst_fixed b)) (s.is (CH_CTRL.dst_io b))
      let s := s.modDma d (fun _ => { DmaH.reset with src := src, dst := dst, ha := s.ha 5 })
      if s.get (CH_CTRL.start b) == 0 then chBegin d s else chTo d chARMED s

/-- R209: a DISABLE under CH_CTRL.policy, with the beats in flight. -/
def chDisableCmd (d inflight : Nat) (s : State) : State :=
  let st := chState s d
  if st == chIDLE || st == chDISABLING || st == chDONE then chResult d 1 s
  else chDisable d (!s.is (CH_CTRL.policy (chBase d))) inflight (chResult d 0 s)
/-- R206: a RESUME reissues the failed beat or fetch. -/
def chResume (d : Nat) (s : State) : State :=
  if chState s d == chHALTED then chTo d chRUNNING (chResult d 0 s) else chResult d 1 s
/-- A CLEAR. -/
def chClear (d : Nat) (s : State) : State :=
  if chState s d == chDONE then chTo d chIDLE (chResult d 0 s) else chResult d 1 s
/-- R207: every STOPPED channel returns to the state held before. -/
def engineRestart (c : Nat) (s : State) : State :=
  if !s.is (CDMA_STATUS.stopped c) then s
  else
    let s := s.set (CDMA_STATUS.stopped c) 0
    s.forEach ((List.range 8).map (96 + 8 * c + ·)) (fun d s => if chState s d == chSTOPPED then chTo d (s.dmaOf d).was s else s)
/-- A write of CH_CMD. -/
def chCommand (m : Master) (d : Nat) (v : Word) (inflight : Nat) (s : State) : State :=
  match bitsOf v 0 3 with
  | 1 => chAdmit m d (chGo m d) s
  | 2 => chAdmit m d (chDisableCmd d (min inflight (inFlight s d))) s
  | 3 => chAdmit m d (chResume d) s
  | 4 => chAdmit m d (chClear d) s
  | _ => s
/-- A write of CDMA_CMD. -/
def engineCommand (m : Master) (c : Nat) (v : Word) (s : State) : State :=
  if domOn s (domCluster c) && engineWriter (96 + 8 * c) m && v.getLsbD 0 then engineRestart c s else s
/-- R201: a write of CH_LEVEL adds to the level. -/
def chLevel (m : Master) (d : Nat) (v : Word) (s : State) : State :=
  let f := CH_LEVEL.level (chBase d)
  chAdmit m d (fun s => s.set f (min 0xFFFF (s.get f + bitsOf v 0 16))) s

/-- The meaning of DMA_GO. -/
def execDmaGo (m : Master) (d : Fin 144) (s : State) : Outcome := .next (chCommand m d 1 0 s)
/-- The meaning of DISABLE. -/
def execDisable (m : Master) (d : Fin 144) (inflight : Fin 9) (s : State) : Outcome := .next (chCommand m d 2 inflight s)
/-- The meaning of RESUME. -/
def execResume (m : Master) (d : Fin 144) (s : State) : Outcome := .next (chCommand m d 3 0 s)
/-- The meaning of CLEAR. -/
def execClear (m : Master) (d : Fin 144) (s : State) : Outcome := .next (chCommand m d 4 0 s)
/-- The meaning of RESTART. -/
def execRestart (m : Master) (c : Fin 6) (s : State) : Outcome := .next (engineCommand m c 1 s)
/-- The meaning of CH_LEVEL. -/
def execChLevel (m : Master) (d : Fin 144) (v : Word) (s : State) : Outcome := .next (chLevel m d v s)

/-! ### Start and pace -/

/-- R200: the pace latch is evaluated; the channel starts (R199), pauses or goes on. -/
def paceEdge (d issued : Nat) (s : State) : State :=
  let b := chBase d
  let st := chState s d
  let n := min issued (inFlight s d)
  if !paced s d || st == chIDLE || st == chDONE || !domOn s (chDomain d) then s
  else
    let latch := paceNext s d n
    let fell := s.is (CH_STATUS.pace_latch b) && !latch
    let s := s.setB (CH_STATUS.pace_latch b) latch
    -- a beat already issued completes
    let s := s.when (latch || fell) (·.modDma d (fun h => { h with issued := if latch then 0 else n }))
    if st == chARMED && s.get (CH_CTRL.start b) == 2 && latch then chBegin d s
    else if st == chRUNNING && !latch && (s.dmaOf d).copy.isNone then
      (chTo d chPAUSED s).modDma d (fun h => { h with left := n })
    else if st == chPAUSED && latch then chTo d chRUNNING s
    else s
/-- The meaning of PACE_LATCH. -/
def execPaceLatch (d : Fin 144) (issued : Fin 9) (s : State) : Outcome := .next (paceEdge d issued s)
/-- R199: an ARMED channel's start condition. -/
def channelStart (d : Nat) (s : State) : State :=
  let b := chBase d
  if chState s d != chARMED || !domOn s (chDomain d) then s
  else if s.get (CH_CTRL.start b) == 1 then (if s.due (s.pair (CH_START_TT_LO b)) then chBegin d s else s)
  else paceEdge d 0 s
/-- The meaning of CHANNEL_START. -/
def execChannelStart (d : Fin 144) (s : State) : Outcome := .next (channelStart d s)
/-- R209: the stop point of a DISABLING channel; a DRAIN also ends where one side has no bytes left (log 130), and an ABORT, which
fetches no entry, where an entry has no beat left. -/
def stopPoint (d : Nat) (s : State) : State :=
  let h := s.dmaOf d
  let w := 2 ^ s.get (CH_CTRL.width (chBase d))
  let spent := h.tail == 0 && (h.src.rem < w || h.dst.rem < w)
  if chState s d != chDISABLING || !domOn s (chDomain d) then s
  else if h.left == 0 || (if h.drain then h.src.ended || h.dst.ended else spent) then chEnd d (endOf h.drain) s
  else s
/-- The meaning of DISABLE_STOP_POINT. -/
def execDisableStopPoint (d : Fin 144) (s : State) : Outcome := .next (stopPoint d s)

/-! ### Bus errors -/

/-- R206, R207: a beat or list fetch ends in a bus error (Table DMA-6). -/
def busError (d a : Nat) (write list : Bool) (cause : Nat) (s : State) : State :=
  let b := chBase d
  let st := chState s d
  -- R418: of the faults of one edge the lower code comes first
  let retried := fun (s : State) => s.when (cause == 7) (·.retryFail)
  let s := s.modDma d (fun h => { h with woa := false })
  if d < 96 then
    if st == chRUNNING || st == chPAUSED || st == chDISABLING then
      let s := (chTo d chHALTED s).setN (CH_ERR_ADDR b) a
      let s := s.setN (CH_ERR_INFO b) ((if write then 1 else 0) + (if list then 2 else 0) + 4 * cause)
      retried ((chRaise d 1 s).fault 0x09 (d / 4) (BitVec.ofNat 32 a))
    else retried s
  else
    let c := (d - 96) / 8
    let copy := (s.dmaOf (ch7 c)).copy
    let first := !s.is (CDMA_STATUS.stopped c)
    let s := s.bump (CDMA_STATUS.errors c)
    let s := s.when (st == chDISABLING) (·.modDma d (fun h => { h with left := 0 }))
    -- R210: an error during a takeover copy abandons it, also where the engine had stopped before
    let copyFails := fun (s : State) => match copy with
      | some g => abandon g 4 s
      | none => s
    if !first then copyFails (retried s)
    else
      let s := (s.setN (CDMA_ERR_ADDR c) a).raise (CDMA_STATUS.stopped c)
      let s := s.forEach ((List.range 8).map (96 + 8 * c + ·)) (fun e s =>
        let st := chState s e
        if st == chARMED || st == chRUNNING || st == chPAUSED then
          (chTo e chSTOPPED s).modDma e (fun h => { h with was := st, left := 0 })
        else s)
      copyFails (retried ((s.raise (CDMA_EVENTS.engine_stop c)).fault 0x11 c (BitVec.ofNat 32 a)))

/-! ### Lists -/

/-- NOCRC, EVENT, CH_POS and CH_DONE_ENTRIES follow the source, or the destination when only it is a list (R197). -/
def listSide (s : State) (d : Nat) (dst : Bool) : Bool :=
  let b := chBase d
  if dst then s.get (CH_CTRL.dst_mode b) == 1 && s.get (CH_CTRL.src_mode b) != 1 else s.get (CH_CTRL.src_mode b) == 1
/-- An entry of the list side has completed. -/
def entryDone (d : Nat) (dst event : Bool) (s : State) : State :=
  if listSide s d dst then ((s.countReg (CH_DONE_ENTRIES (chBase d))).when event (chRaise d 2)) else s
/-- One side of a channel. -/
def DmaH.side (h : DmaH) (dst : Bool) : Side := if dst then h.dst else h.src
/-- Gives one side of a channel a value. -/
def setSide (d : Nat) (dst : Bool) (x : Side) (s : State) : State :=
  s.modDma d (fun h => if dst then { h with dst := x } else { h with src := x })
/-- CH_POS shows the entry the list side stands on. -/
def showPos (d : Nat) (dst : Bool) (s : State) : State :=
  s.when (listSide s d dst) (·.setN (CH_POS (chBase d)) ((s.dmaOf d).side dst).entry)
/-- R196, R197: the fetched entry is walked. -/
def walkEntry (d : Nat) (dst : Bool) (w0 w1 : Nat) (s : State) : State :=
  let x := (s.dmaOf d).side dst
  let w := 2 ^ s.get (CH_CTRL.width (chBase d))
  let len := w1 % 2 ^ 24
  let last := bitN w1 24
  let link := bitN w1 25
  let io := bitN w1 27
  let event := bitN w1 28
  if w1 / 2 ^ 30 != 0 || (link && (last || len != 0 || w0 % 8 != 0)) then chEnd d 5 s
  else if link then showPos d dst (setSide d dst { x with entry := w0 } s)
  else if len == 0 then
    let s := entryDone d dst event s
    if last then chSettle d (setSide d dst { x with fetch := false, ended := true } s)
    else showPos d dst (setSide d dst { x with entry := x.entry + 8 } s)
  else if w0 % w != 0 || len % w != 0 || (io && (w != 4 || 0x1000000 ≤ w0)) then chEnd d 4 s
  else
    let y : Side := { x with addr := w0, rem := len, fixed := bitN w1 26, io := io, last := last, event := event }
    chSettle d (setSide d dst { y with nocrc := bitN w1 29, fetch := false } s)
/-- A side moves on by one beat of `w` bytes. -/
def sideStep (w : Nat) (x : Side) : Side :=
  let y := { x with rem := x.rem - w, addr := if x.fixed then x.addr else x.addr + w }
  if y.rem != 0 then y
  else if x.last then { y with ended := true }
  else { y with fetch := true, entry := x.entry + 8 }
/-- One side after a counted beat, with the end of its entry. -/
def sideBeat (d : Nat) (dst : Bool) (w : Nat) (s : State) : State :=
  let x := (s.dmaOf d).side dst
  let y := sideStep w x
  let s := (setSide d dst y s).when (y.rem == 0) (entryDone d dst x.event)
  s.when y.fetch (showPos d dst)

/-! ### Addresses -/

/-- How a data-space access of a channel is answered: performed, a bus error with its cause, or a wait for a wake. -/
inductive DmaCheck where
  | ok (p : Place) (form key : Nat)
  | err (cause : Nat)
  | wait (p : Place)
  deriving DecidableEq, Repr

/-- R194, R168, R169, R172, R184, R185, R188: a data-space access of `n` bytes; a refusal's reason is the second component. -/
def dmaData (s : State) (d a n : Nat) (write : Bool) : DmaCheck × Option (Place × Nat) :=
  let m := chMaster s d
  let (form, b) := unalias a
  let (p, key) := place (ownTile m) b
  let world := if chVital s d then 0 else 1
  if touchesVault b n then (.err 6, some (.vault, 3))
  else if d < 96 && !inDataWindow s (d / 4) world b n then (.err 1, none)
  else if d < 96 && 0x08000000 ≤ b && b < 0x08C00000 then (.err 1, some (p, 0))
  else match refusal s p m none with
    | some 2 => (.err 2, some (p, 2))
    | some r => (.err 1, some (p, r))
    | none =>
      if write && p == .mram && !s.memh.mramOpen then (.err 3, none)
      else if placeHeld s p then (.wait p, none)
      else
        let (off, woa) := placeOff s p
        if off then (if woa then .wait p else .err 3, none) else (.ok p form key, none)

end Sys2Proof.Machine
end

