-- ==== Sys2Proof/Machine/IoView.lean ====
section
/-!
DEFINITION. Sys2Proof/Machine/IoView.lean: reads of I/O registers: what a read shows of state that no register holds itself, wide
pairs (R85 to R87), and reads that pop a queue.
-/
namespace Sys2Proof.Machine

/-- Index and offset of an address in a table of `n` entries of `stride` bytes from `base`. -/
def tab (a base stride n : Nat) : Option (Nat × Nat) :=
  if base ≤ a && a < base + stride * n then some ((a - base) / stride, (a - base) % stride) else none
/-- A DMA channel is admitted by a block's supervisor level as a supervisor access of its owner world (R194, log 60); where a block
names tiles, no channel is one. -/
def ioMaster : Master → Master
  | .tdma t _ v => .tile t v true
  | .cdma c _ v => .tile ⟨4 * c.val, by omega⟩ v true
  | m => m
/-- The Storekeeper and the host. -/
def skOrHost (m : Master) : Bool := m == .storekeeper || m == .host
/-- The reading master of R85 that a master is now: a tile reads at its present priority. -/
def readerOf (s : State) : Master → Reader
  | .tile t _ _ => .tile t ⟨min 16 (priIx (s.tileOf t).pri), by omega⟩
  | .tdma t k _ => .tdma t k
  | .cdma c k _ => .cdma c k
  | .host => .host
  | _ => .storekeeper

/-! ### Views -/

/-- A Bool as a bit. -/
def bit (b : Bool) : Nat := if b then 1 else 0
/-- BEACON_SUMMARY and BEACON_PEER_STAT.age (Table INV-23); the age of a peer that has sent no beacon since the registers were
cleared, on which R45 is silent, reads 0 (log 171, DESIGN CHOICE). -/
def beaconView (s : State) (a : Nat) : Word :=
  let n := min 64 (peerRecs s.invB).length
  let inState := fun (l : List Nat) => ((List.range n).filter (fun p => l.contains (s.get (BEACON_PEER_STAT.state p)))).length
  if a == BEACON_SUMMARY then BitVec.ofNat 32 (inState [1] + 256 * inState [2, 3] + 65536 * inState [0] + 16777216 * n)
  else match tab a (BEACON_PEER_STAT 0) 16 64 with
    | some (p, 0) =>
      let age := match lookup s.inv.lastBeacon p with
        | some t => min 255 ((s.now - t) / 10000000)
        | none => 0
      withBits (s.reg a) 8 8 age
    | _ => s.reg a
/-- X_STATUS, the receive levels and the MVB port states. -/
def busView (s : State) (a : Nat) : Word :=
  let status := (List.range 24).find? (fun u => busBase u + 4 == a)
  match status with
  | some u => busStatus s u
  | none =>
    match (List.range 8).find? (fun n => CAN_RX_LEVEL n == a) with
    | some n => BitVec.ofNat 32 ((s.canOf n).rx.length + 65536 * min 63 (s.canOf n).frames.length)
    | none =>
    match (List.range 8).find? (fun n => CAN_TX_REQ n == a), (List.range 8).find? (fun n => CAN_TX_CANCEL n == a) with
    | some n, _ => s.reg (CAN_TX_PEND n)
    | _, some n => BitVec.ofNat 32 ((canPending s n).filter ((s.canOf n).cancel.contains ·) |>.map (2 ^ ·)).sum
    | none, none =>
      match (List.range 2).findSome? (fun m => (tab a (MVB_PORT_STAT m 0) 4 256).map (fun e => (m, e.1))) with
      | some (m, p) => mvbPortStat s m p
      | none => s.reg a
/-- Device-level registers. -/
def devView (s : State) (a : Nat) : Word :=
  match a / 0x10000 with
  | 0x0 =>
    -- Scrap: the Storekeeper answers reads of the identity only (R362; log 172)
    if scrapped s && a != BOOT_ID_LO && a != BOOT_ID_HI && a != BOOT_PART then 0
    else if a == BOOT_ID_LO then Config.deviceId.truncate 32
    else if a == BOOT_ID_HI then (Config.deviceId >>> 32).truncate 32
    else s.reg a
  | 0x1 => if a == PWR_STATUS then readPwrStatus s else s.reg a
  | 0x2 => match tab a (CLK_SRC_STAT 0) 4 11 with
    | some (i, _) => withBits (s.reg a) 2 1 (bit ((refList s).contains i))
    | none => s.reg a
  | 0x4 => if a == MRAM_STATUS then withBits (s.reg a) 1 1 (bit (s.tiles.toList.any (fun x => !x.held))) else s.reg a
  | 0x5 => if a == PIN_STATUS then withBits (s.reg a) 0 1 (bit s.frost) else s.reg a
  | 0x6 => busView s a
  | 0x7 => busView s a
  | 0x8 =>
    if a == LADDER_STATUS then withBits (s.reg a) 16 1 (bit (s.ha 10))
    else if a == HOST_FQ_STATUS then readFqStatus s
    else if a == HOST_STATUS then withBits (s.reg a) 5 1 (bit s.host.spiActive)
    else s.reg a
  | 0x9 => match tab a (FWD_CFG 0) 8 11 with
    | some (f, 4) => readFwdStat s f
    | _ => s.reg a
  | 0xA => if 0xA1000 ≤ a then beaconView s a else s.reg a
  | 0xC => if a == NET_STATUS then netStatus s else s.reg a
  | _ => s.reg a

/-- Group `g`'s registers at a gate (Table VOT-17). -/
def grpView (s : State) (g o : Nat) : Word :=
  let h := s.grpOf g
  let slots := slotsOf h.tiles
  let bitsBy := fun (p : Nat × Nat × Bool → Bool) => ((slots.filter p).map (fun e => 2 ^ e.1)).sum
  match o with
  | 0x00 => BitVec.ofNat 32 (bit h.live + 2 * bitsBy (fun e => !e.2.2) + 16 * bitsBy (fun e => e.2.2) + 256 * h.phase +
      1024 * h.joinSlot + 4096 * h.safeCause + 65536 * h.tkCause + 2 ^ 20 * bit h.locked)
  | 0x04 =>
    let slot := fun (k : Nat) => ((h.tiles[k]?).map (·.1)).getD 0xFF
    BitVec.ofNat 32 (slot 0 + 256 * slot 1 + 65536 * slot 2 + 16777216 * (h.spare.getD 0xFF))
  | 0x08 => match groupRec s.invB g with
    | some r => BitVec.ofNat 32 (r.kind + 4 * bit r.lullSafe + 8 * bit r.checksum + 16 * r.pool)
    | none => 0
  | 0x0C => BitVec.ofNat 32 (((groupRec s.invB g).map (·.stagger)).getD 0)
  | 0x10 => BitVec.ofNat 32 (((groupRec s.invB g).map (·.skew)).getD 0)
  | 0x14 => BitVec.ofNat 32 h.ckpt
  | _ => 0
/-- A vote gate's registers (Tables VOT-15 to VOT-18). -/
def voteView (m : Master) (s : State) (c a : Nat) : Word :=
  let o := a - (cluBlk c + 0x48000)
  if o == 0 then
    let mask := fun (p : Nat → Bool) => (((List.range 12).filter p).map (2 ^ ·)).sum
    BitVec.ofNat 32 (mask (fun g => leadOf (s.grpOf g).tiles == some c) +
      65536 * mask (fun g => (memberGates (s.grpOf g).tiles).contains c))
  else match tab o 0x100 0x20 12 with
    | some (g, r) => grpView s g r
    | none => match tab o 0x1000 0x10 384 with
      | some (e, r) =>
        let g := e / 32
        let p := e % 32
        let h := s.grpOf g
        let own := match m with
          | .tile t _ _ => memberSlot s g t
          | _ => none
        let aux := match own with
          | some k => if atD h.cfg p 0 % 8 == 5 then (h.bufs.find? (fun (b : Nat × Nat × Nat × Nat) => b.1 == p && b.2.1 == k)).map (fun (b : Nat × Nat × Nat × Nat) => b.2.2.1) else none
          | none => none
        match r with
        | 4 => BitVec.ofNat 32 (if p < 30 then atD h.cfg p 0 else 0)
        | 8 => BitVec.ofNat 32 (aux.getD (atD h.aux p 0))
        | 12 => BitVec.ofNat 32 (((own.map (fun k => cell h.seq k p)).getD 0) + 65536 * atD h.released p 0)
        | _ => 0
      | none => s.reg a
/-- A header word of a message (Table VOT-1). -/
def msgHeader (x : Msg) (vis : Word) : Nat → Word
  | 0 => x.w0
  | 1 => BitVec.ofNat 32 (x.id + 65536 * x.tile + 2 ^ 21 * x.world)
  | 2 => BitVec.ofNat 32 x.sent
  | _ => vis
/-- R141: the visibility word of a shelved message: of a group's, V of R146, the instant of slot 0, since the one entry stands for
every slot (log 173, DESIGN CHOICE). -/
def shelfVis (s : State) (x : Msg) : Word := if s.get (OMT_ROLE.kind x.role) == 1 then BitVec.ofNat 32 (x.sent + 2000) else 0
/-- A Shelf's registers (Tables VOT-19, VOT-20). -/
def shelfView (m : Master) (s : State) (c a : Nat) : Word :=
  let o := a - (cluBlk c + 0x4C000)
  if o == 0 then withBits (s.reg a) 0 7 (((List.range 64).filter (fun i => (shelfAt s c i).isSome)).length)
  else if o == 8 then
    match m with
    | .tile t _ _ => BitVec.ofNat 32 (atD s.omt.cmdResult (24 * c + t) 0)
    | _ => 0
  else match tab o 0x400 0x80 64 with
    | none => s.reg a
    | some (i, r) =>
      match shelfAt s c i with
      | none => 0
      | some e =>
        let mine := match m with
          | .tile t v _ => t.val == e.msg.tile && (e.msg.world == 0) == v
          | _ => skOrHost m
        if !mine then 0
        else if r == 0 then BitVec.ofNat 32 (e.cause + 8 * e.msg.tile + 256 * e.msg.world + 2 ^ 31)
        else if r == 4 then BitVec.ofNat 32 e.tt
        else if 0x10 ≤ r && r < 0x20 then msgHeader e.msg (shelfVis s e.msg) ((r - 0x10) / 4)
        else if 0x40 ≤ r then (e.msg.data[(r - 0x40) / 4]?).getD 0
        else 0
/-- The channels of an engine that are busy, from channel number `d` on. -/
def busyMask (s : State) (d n : Nat) : Nat := (((List.range n).filter (fun k => !chFree s (d + k))).map (2 ^ ·)).sum
/-- Cluster blocks outside the tiles. -/
def clusterView (m : Master) (s : State) (c a : Nat) : Word :=
  let o := a % 0x100000
  if a == CDMA_STATUS c then withBits (s.reg a) 0 8 (busyMask s (96 + 8 * c) 8)
  else if a == ADC_PAIR_STATUS c then withBits (s.reg a) 9 1 (bit (s.ha 4))
  else if a == EDG_STATUS c then withBits (s.reg a) 16 1 (bit s.frost)
  else if a == ADC_CTRL c 1 && s.is (ADC_PAIR_CTRL.linked c) then withBits (s.reg a) 0 4 (bitsOf (s.reg (ADC_CTRL c 0)) 0 4)
  else if 0x48000 ≤ o && o < 0x4C000 then voteView m s c a
  else if 0x4C000 ≤ o && o < 0x50000 then shelfView m s c a
  else s.reg a

/-- A tile page's registers (Tables VOT-12, VOT-13); `w` is its world. -/
def pageView (s : State) (t w a : Nat) : Word :=
  let o := a % 0x1000
  if o == 0xC then
    let l := atD s.omt.nack (2 * t + w) []
    BitVec.ofNat 32 (l.headD 0 + 2 ^ 26 * l.length + 2 ^ 30 * bit (atD s.omt.lost (2 * t + w) false) + 2 ^ 31 * bit (!l.isEmpty))
  else match tab o 0x100 0x80 4 with
    | none => s.reg a
    | some (q, r) =>
      let l := atD s.omt.rx (8 * t + 4 * w + q) []
      if r == 0x10 then BitVec.ofNat 32 l.length
      else match l.head? with
        | none => 0
        | some x =>
          if r < 0x10 then msgHeader x ((x.data[0]?).getD 0) (r / 4)
          else if 0x40 ≤ r then (x.data[(r - 0x40) / 4 + 1]?).getD 0
          else 0
/-- A tile's registers as master `m` reads them (R120, R142). -/
def tileView (m : Master) (s : State) (t a : Nat) : Word :=
  let o := a % 0x10000
  let own : Option Bool := match m with
    | .tile u v _ => if u.val == t then some v else none
    | _ => none
  let world := if own == some false then 1 else 0
  if o < 0x2000 then
    let reads := match m with
      | .tile u _ sup => u.val == t && sup
      | .storekeeper => true
      | _ => false
    if !reads then 0
    else if a == EXC_STATUS t then readExcStatus s t
    else match tab a (EVC_PEND t 0) 4 16 with
      | some (n, _) => readPend s t n world
      | none => if a == EVC_TOP t then readTop s t world else s.reg a
  else if a == EVC_SW_SET t then s.reg (EVC_SW t)
  else if 0x4000 ≤ o && o < 0x6000 then
    if own == some (decide (o < 0x5000)) then pageView s t ((o - 0x4000) / 0x1000) a else 0
  else if a == OMT_EVENTS t then
    (List.range 10).foldl (fun v b => withBits v b 1 (bit (omtLevel s t b))) (s.reg a)
  else if a == TDMA_STATUS t then withBits (s.reg a) 0 4 (busyMask s (4 * t) 4)
  else s.reg a

/-- What register `a` shows master `m`. -/
def ioView (m : Master) (s : State) (a : Nat) : Word :=
  if a < 0x100000 then devView s a
  else if a < 0x700000 then
    match tileBlock a with
    | some (t, _) => tileView m s t a
    | none => clusterView m s (a / 0x100000 - 1) a
  else 0

/-! ### Wide pairs -/

/-- The 64-bit values read through the latches: the address of the _LO half, and whether `a` is the _HI half (R85, R86). -/
def widePair (a : Nat) : Option (Nat × Bool) :=
  let lo := [INV_EPOCH_TT_LO, CLK_SWITCH_TT_LO, TT_NOW_LO, TT_STEP_LO, DRZ_TICK_LO, BOOT_ID_LO, NET_GPTP_GM_LO, NET_LEARN_LO]
  match lo.find? (fun x => a == x || a == x + 4) with
  | some x => some (x, a == x + 4)
  | none =>
    let inTab := fun (base stride n : Nat) => match tab a base stride n with
      | some (i, 0) => some (base + stride * i, false)
      | some (i, 4) => some (base + stride * i, true)
      | _ => none
    if a < 0x100000 then (inTab (CMD_CTR_LO 0) 8 4).orElse (fun _ => inTab (FLT_LOG 0 1) 16 64)
    else if a < 0x700000 then
      let c := a / 0x100000 - 1
      match tileBlock a with
      | some (t, _) => inTab (CH_START_TT_LO (tdmaCh t 0)) 0x80 4
      | none =>
        let first := (inTab (CH_START_TT_LO (cdmaCh c 0)) 0x80 8).orElse (fun _ => inTab (ADC_START_TT_LO c 0) 0x100 2)
        let second := first.orElse (fun _ => inTab (EDG_CAP_LO c 0) 0x40 16)
        second.orElse (fun _ => (List.range 2).findSome? (fun x => inTab (ADC_RES_LO c x 0) 8 16))
    else none
/-- The writable wide pairs (R88). -/
def wideWritable (lo : Nat) : Bool :=
  lo == TT_STEP_LO || (0x100000 ≤ lo && match tileBlock lo with
    | some _ => true
    | none => lo % 0x100000 < 0x20000 || lo == ADC_START_TT_LO (lo / 0x100000 - 1) 0 || lo == ADC_START_TT_LO (lo / 0x100000 - 1) 1)
/-- A read of one half of a pair through the reader's latch; a capture has the effects its block gives it (R232, R252, R270). -/
def wideRead (m : Master) (r : Reader) (lo : Nat) (hi : Bool) (s : State) : Word × State :=
  let c := lo / 0x100000 - 1
  let res := if lo < 0x100000 || (tileBlock lo).isSome then none
    else (List.range 2).findSome? (fun x => (tab lo (ADC_RES_LO c x 0) 8 16).map (fun e => (x, e.1)))
  let cap := if lo < 0x100000 || (tileBlock lo).isSome then none else tab lo (EDG_CAP_LO c 0) 0x40 16
  if lo == NET_LEARN_LO then learnRead r hi s
  else match res, cap with
    | some (x, i), _ =>
      let (v, s') := adcCapture c x i (masterId m) s
      let (w, fresh, _) := latchRead r lo hi v s
      let s := if fresh then s' else s
      (w, (latchRead r lo hi v s).2.2)
    | none, some (k, _) =>
      let (v, h, s') := capPop c k s
      let value := v.toNat + 2 ^ 32 * h.toNat
      let (w, fresh, _) := latchRead r lo hi value s
      let s := if fresh then s' else s
      (w, (latchRead r lo hi value s).2.2)
    | none, none =>
      let now := if lo == TT_NOW_LO then s.now else (ioView m s lo).toNat + 2 ^ 32 * (ioView m s (lo + 4)).toNat
      let (w, _, s) := latchRead r lo hi now s
      (w, s)

/-! ### Reads -/

/-- The unit of a serial controller whose receive register is at `a`. -/
def rxUnit (a : Nat) : Option Nat :=
  (List.range 24).find? (fun u =>
    if u < 8 then a == CAN_RX_DATA u
    else if u < 10 then false
    else if u < 18 then a == UART_RX (u - 10)
    else if u < 22 then a == SPI_RX (u - 18)
    else a == I2C_RX (u - 22))
/-- A read of register `a` by master `m`: the word, and the state with what the read pops or captures. -/
def ioRead (m : Master) (a : Nat) (s : State) : Word × State :=
  let r := readerOf s m
  if a == TT_NOW_FRAC then (fracRead r s, s)
  else match widePair a with
    | some (lo, hi) => wideRead m r lo hi s
    | none =>
      if a == HOST_FQ_RX_LEN then fqRxLen s
      else if a == HOST_FQ_RX_DATA then fqRxData s
      else if a == HOST_ACC_ADDR then accAddrRead (ioMaster m) s
      else if 0x60000 ≤ a && a < 0x80000 then
        match rxUnit a with
        | some u => rxFifoPop u s
        | none =>
          match (List.range 2).findSome? (fun n => (tab a (MVB_PORT_DATA n 0 0) 4 2048).map (fun e => (n, e.1))) with
          | some (n, e) => mvbDataRead r n (e / 8) (e % 8) s
          | none => (ioView m s a, s)
      else if 0x100000 ≤ a && a < 0x700000 && (tileBlock a).isNone then
        let c := a / 0x100000 - 1
        if a == ADC_FIFO c 0 then adcFifoRead c 0 s
        else if a == ADC_FIFO c 1 then adcFifoRead c 1 s
        else match tab a (EDG_CAP_POP c 0) 0x40 16 with
          | some (k, 0) => let (v, _, s) := capPop c k s; (v, s)
          | _ => (ioView m s a, s)
      else (ioView m s a, s)

end Sys2Proof.Machine
end

