-- ==== Sys2Proof/Machine/IoWrite.lean ====
section
/-!
DEFINITION. Sys2Proof/Machine/IoWrite.lean: writes of I/O registers: the access types of Table SCO-4 with LOCK (R6 to R9), each block's
writers, and the registers whose write is a command of the block.
-/
namespace Sys2Proof.Machine

/-- The state an outcome goes on in. -/
def onward (o : Outcome) (s : State) : State :=
  match o with
  | .next t => t
  | _ => s
/-- Vital supervisor and the host. -/
def vitalOrHost : Master → Bool
  | .tile _ v sup => v && sup
  | .host => true
  | _ => false
/-- Tile `t` at supervisor level. -/
def tileSup (t : Nat) : Master → Bool
  | .tile u _ sup => u.val == t && sup
  | _ => false

/-! ### Access types -/

/-- R6 to R9: a write under the register's access types; RWL bits are taken while LOCK is 0. -/
def typedWrite (a : Nat) (v : Word) (s : State) : State :=
  let (rows, o, lock) := blockRows a
  match rows.find? (·.covers o) with
  | none => s
  | some r =>
    let locked := lock != 0 && (s.reg lock).getLsbD 31
    let rw := BitVec.ofNat 32 (if locked then r.rw else r.rw ||| r.rwl)
    let old := s.reg a
    s.setReg a ((((old &&& ~~~rw) ||| (v &&& rw)) &&& ~~~(v &&& BitVec.ofNat 32 r.w1c)) ||| (v &&& BitVec.ofNat 32 r.w1s))

/-- R297, Table SCO-4: who writes register `a`, by the writer rules of its block. -/
def regWriter (m : Master) (a : Nat) : Bool :=
  let e := ioMaster m
  if a < 0x100000 then
    match a / 0x10000 with
    | 0x0 => if BOOT_PROV_CMD ≤ a then m == .host else vitalOrHost e
    | 0x1 => if a == PWR_DOZE_EN then supWriter e else devWriter e
    | 0x5 =>
      if a == PIN_TAMPER || a == PIN_TAMPER_STAT then m == .storekeeper
      else if 0x50100 ≤ a && a < 0x50300 then gpioWriter e
      else devWriter e
    | 0x6 => busWriter m
    | 0x7 => busWriter m
    | 0x8 =>
      if a == HOST_EVENTS || a == HOST_EVENT_EN || a == HOST_CTRL || a == LADDER_CFG0 || a == LADDER_CFG1 then vitalOrHost e
      else m == .host
    | 0x9 => match tab a (WDT_CFG 0) 16 24 with
      | some (t, 4) => m == .tile ⟨t % 24, Nat.mod_lt _ (by decide)⟩ true true
      | _ => devWriter e
    | 0xC =>
      if a == NET_MAC_LO || a == NET_MAC_HI then m == .storekeeper
      else if a == NET_RING_PEND then supWriter m
      else match tab a (NET_TRING_TX_BASE 0) 0x20 24 with
        | some (t, _) => ringWriter t m
        | none => devWriter e
    | _ => devWriter e
  else if a < 0x700000 then
    match tileBlock a with
    | some (t, o) =>
      if o < 0x2000 then tileSup t m
      else if a == EVC_SW_SET t then true
      else if o < 0x6000 then (match m with | .tile u _ _ => u.val == t | _ => false)
      else if o < 0x8000 then tileSup t m
      else engineWriter (4 * t) m
    | none =>
      let c := a / 0x100000 - 1
      let o := a % 0x100000
      let inCluster := match m with
        | .tile t _ sup => t.val / 4 == c && sup
        | _ => skOrHost m
      if o < 0x20000 then inCluster
      else if o < 0x30000 then (if a == ADC_PAIR_CTRL c || a == ADC_PLAUS_WIN c then devWriter e else supWriter e)
      else if o < 0x40000 then supWriter e
      else if o < 0x48000 then (match tab a (CBANK_CTRL c 0) 16 16 with | some _ => supWriter e | none => devWriter e)
      else if o < 0x49000 then
        (match tab a (VOTE_GRP_STATUS c 0) 0x20 12 with | some (_, 0x1C) => m == .host | some _ => false | none => inCluster)
      else if o < 0x50000 then (match m with | .tile t _ _ => o ≥ 0x4C000 || t.val / 4 == c | _ => false)
      else false
  else true
/-- A write of an admitted master under the register's access types. -/
def plainWrite (m : Master) (a : Nat) (v : Word) (s : State) : State := if regWriter m a then typedWrite a v s else s
/-- A write of one half of a writable wide pair: the stage (R88), and on _HI the committed value. -/
def wideWrite (m : Master) (a : Nat) (v : Word) (commit : Nat → State → State) (s : State) : State :=
  match widePair a with
  | some (lo, false) => stageWrite (readerOf s m) lo v s
  | some (lo, true) =>
    let (x, s) := stageCommit (readerOf s m) lo v s
    commit x s
  | none => s

/-- The write stages of two readers change places. -/
def swapStages (p q : Reader) (s : State) : State :=
  s.withTt { s.tt with stages := s.tt.stages.map (fun e => (if e.1 == p then q else if e.1 == q then p else e.1, e.2)) }

/-! ### Device blocks -/

/-- A write of BOOT_PROV_CMD; whether the fuses read back blown is open (log 2). -/
def provWrite (m : Master) (v : Word) (s : State) : State :=
  let i := bitsOf v 8 3
  let blown := s.freeNat % 2 == 1
  match bitsOf v 0 3 with
  | 1 => onward (execProgramImageKey m ⟨i % 8, Nat.mod_lt _ (by decide)⟩ blown s.drawn) s
  | 2 => if i < 4 then onward (execInstallCommandKey m ⟨i % 4, Nat.mod_lt _ (by decide)⟩ s) s else onward (execInstallNoSlot m s) s
  | 3 => onward (execEnterFactory m blown s.drawn) s
  | _ => s
/-- Writes of the BOOT block. -/
def bootWrite (m : Master) (a : Nat) (v : Word) (s : State) : State :=
  if scrapped s then s
  else if a == BOOT_PROV_CMD then provWrite m v s
  else if BOOT_PROV_DATA 0 ≤ a && a ≤ BOOT_PROV_DATA 7 then (if s.boot.lc ≤ 1 then plainWrite m a v s else s)
  else if a == BOOT_CTRL then
    let keep := if s.frost then v else withBits v 0 1 (s.get BOOT_CTRL.thaw_gate)
    let s := plainWrite m a keep s
    if v.getLsbD 1 then thawGo (ioMaster m) s else s
  else plainWrite m a v s
/-- Writes of the power block. -/
def pwrWrite (m : Master) (a : Nat) (v : Word) (s : State) : State :=
  let e := ioMaster m
  let frozen := s.pwr.entry.isSome && (a == PWR_WAKE_EN || (DRZ_CFG ≤ a && a < 0x11000))
  if !coreOn s then s
  else if a == PWR_CMD then
    match bitsOf v 0 2 with
    | 1 => entryStart e false s
    | 2 => entryStart e true s
    | 3 => onward (execCancel e s) s
    | _ => s
  else if frozen then s
  else if a == DRZ_CFG then
    let s := plainWrite m a v s
    if v.getLsbD 8 then onward (execHistClear e s) s else s
  else if a == PWR_DOZE_EN then
    if devWriter e then typedWrite a v s
    else match m with
      | .tile t _ true => s.set ⟨PWR_DOZE_EN, t, 1⟩ (bit (v.getLsbD t))
      | _ => s
  else match tab a (PWR_DOM_CTRL 0) 4 47 with
    | some (d, _) => domainRequest e d v s
    | none => plainWrite m a v s
/-- Writes of the TT block. -/
def ttWrite (m : Master) (a : Nat) (v : Word) (s : State) : State :=
  let e := ioMaster m
  if a == TT_CTRL then
    let s := haStateWrite e (v.extractLsb' 28 3) s
    plainWrite m a (withBits v 28 3 (s.get TT_CTRL.ha_state)) s
  else if a == TT_PERIOD || a == TT_PERIOD_FINE || a == TT_SLEW_RATE then (if s.ha 1 then plainWrite m a v s else s)
  else if a == TT_SLEW_AMOUNT then ttSlewAmount e v s
  else if a == TT_STEP_LO || a == TT_STEP_HI then
    (if devWriter e then wideWrite m a v (fun x => ttStep e (BitVec.ofNat 64 x)) s else s)
  else match tab a (TT_SNAP_CTRL 0) 16 4 with
    | some (n, 0) => snapWrite e ⟨n % 4, Nat.mod_lt _ (by decide)⟩ v s
    | _ => plainWrite m a v s
/-- A write of a bank's BANK_CTRL. -/
def bankCtrlWrite (m : Master) (b : Nat) (v : Word) (s : State) : State :=
  let s := bankStateReq m b v s
  if v.getLsbD 3 && bankWriter s b 0 m then confClear b s else s
/-- Writes of the MEM block. -/
def memRegWrite (m : Master) (a : Nat) (v : Word) (s : State) : State :=
  match tab a (BANK_CTRL 0) 16 64 with
  | some (b, 0) => bankCtrlWrite (ioMaster m) b v s
  | _ =>
    if a == VAULT_CTRL then (if v.getLsbD 0 then onward (execWipe (ioMaster m) s) s else s) else plainWrite m a v s
/-- Writes of the PIN block. -/
def pinWrite (m : Master) (a : Nat) (v : Word) (s : State) : State :=
  let e := ioMaster m
  match tab a (GPIO_IN 0) 0x40 8 with
  | some (b, 0x08) => gpioWrite e b v orBits s
  | some (b, 0x0C) => gpioWrite e b v clrBits s
  | some (b, 0x10) => gpioWrite e b v tglBits s
  | some (b, 0x14) => if gpioWriter e then gpioDir false b v s else s
  | _ => plainWrite m a v s
/-- The serial or fieldbus unit an address belongs to, with the offset in its block. -/
def busUnit (a : Nat) : Option (Nat × Nat) :=
  if a < 0x60000 then none
  else if a < 0x68000 then some ((a - 0x60000) / 0x1000, a % 0x1000)
  else if a < 0x70000 then some (8 + (a - 0x68000) / 0x4000, a % 0x4000)
  else if a < 0x72000 then some (10 + (a - 0x70000) / 0x400, a % 0x400)
  else if 0x74000 ≤ a && a < 0x75000 then some (18 + (a - 0x74000) / 0x400, a % 0x400)
  else if 0x76000 ≤ a && a < 0x76800 then some (22 + (a - 0x76000) / 0x400, a % 0x400)
  else none
/-- What is on the wire of a controller when a register write disables or cancels, which no state of the block tells (log 2). -/
def freeWire (s : State) : Option Nat := if s.freeNat % 2 == 0 then none else some (s.freeNat / 2 % 16)
/-- Writes of the fieldbus and serial blocks. -/
def busWrite (m : Master) (a : Nat) (v : Word) (s : State) : State :=
  match busUnit a with
  | none => s
  | some (u, o) =>
    if o == 0 then (if v.getLsbD 0 then busEnable m u v s else busDisable m u v (freeWire s) s.drawn)
    else if u < 8 then
      if o == 0x24 then canTxReq m u v s
      else if o == 0x28 then canTxCancel m u v (freeWire s) s.drawn
      else match tab o 0x400 0x50 16 with
        | some (b, w) => canTxbWrite m u b (w / 4) v s
        | none => plainWrite m a v s
    else if u < 10 then
      if o == 0x14 then mvbAdminCmd m (u - 8) v s
      else match tab o 0x1000 4 2048 with
        | some (e, _) => mvbDataWrite m (u - 8) (e / 8) (e % 8) v s
        | none => plainWrite m a v s
    else if u < 22 then (if o == 0x18 then txFifoWrite m u v s else plainWrite m a v s)
    else if o == 0x14 then txFifoWrite m u v s
    else if o == 0x10 then i2cCmd m (u - 22) v s
    else plainWrite m a v s
/-- Writes of the host block. -/
def hostWrite (m : Master) (a : Nat) (v : Word) (s : State) : State :=
  if a == HOST_CMD_DOORBELL then doorbell m v s
  else if a == HOST_FQ_TX_GO then fqTxGo m v s
  else if a == HOST_FQ_TX_DATA then fqTxData m v s
  else if HOST_CMD_BUF 0 ≤ a && mailboxBusy s then s
  else plainWrite m a v s
/-- Writes of the fault block. -/
def fltWrite (m : Master) (a : Nat) (v : Word) (s : State) : State :=
  let e := ioMaster m
  if a == FLT_CTRL then
    plainWrite m a v (if v.getLsbD 0 then onward (execClearLog e s) s else s)
  else match tab a (WDT_CFG 0) 16 24 with
    | some (t, 0) =>
      if !devWriter e || s.is (WDT_CFG.enable t) then s
      else
        let s := typedWrite a v s
        if v.getLsbD 0 then wdtFrom t s else s
    | some (t, 4) => wdtService m t v s
    | some (t, 12) => if s.is (WDT_CFG.enable t) || !devWriter e then s else wdtReload t (typedWrite a v s)
    | _ => plainWrite m a v s
/-- Writes of the NET block. -/
def netWrite (m : Master) (a : Nat) (v : Word) (s : State) : State :=
  let e := ioMaster m
  if a == NET_FDB_CMD then
    let op := bitsOf v 0 3
    if 1 ≤ op && op ≤ 5 then fdbStart e op (bitsOf v 8 4) s else s
  else if a == NET_RING_PEND then
    match m with
    | .tile t _ true => typedWrite a (v &&& BitVec.ofNat 32 (2 ^ t.val)) s
    | _ => if skOrHost m then typedWrite a v s else s
  else match tab a (NET_TRING_TX_BASE 0) 0x20 24 with
    | some (t, 0x08) => ringCfg m t v s
    | some (t, 0x0C) => txDoorbell m t v none s
    | some (t, 0x10) => rxTail m t v s
    | _ =>
      let s := plainWrite m a v s
      if a == NET_GPTP_CFG || a == NET_GPTP_QUAL || (tab a (PORT_CTRL 0) 0x400 10).any (fun p => p.2 == 0) then gptpSelect s else s
/-- Writes of device-level blocks. -/
def devWrite (m : Master) (a : Nat) (v : Word) (s : State) : State :=
  match a / 0x10000 with
  | 0x0 => bootWrite m a v s
  | 0x1 => pwrWrite m a v s
  | 0x2 => if a == CLK_SELECT then clkSelect (ioMaster m) v s else plainWrite m a v s
  | 0x3 => ttWrite m a v s
  | 0x4 => memRegWrite m a v s
  | 0x5 => pinWrite m a v s
  | 0x6 => busWrite m a v s
  | 0x7 => busWrite m a v s
  | 0x8 => hostWrite m a v s
  | 0x9 => fltWrite m a v s
  | 0xA => plainWrite m a v s
  | 0xB => s
  | _ => netWrite m a v s

/-! ### Cluster and tile blocks -/

/-- Writes of the registers of DMA channel `d` at offset `o`; the beats in flight at a DISABLE are open (log 2). -/
def chanWrite (m : Master) (d o : Nat) (v : Word) (s : State) : State :=
  let a := chBase d + o
  match o with
  | 0x04 => chCommand m d v (s.freeNat % (maxFlight d + 1)) s.drawn
  | 0x1C => chLevel m d v s
  | 0x20 => if engineWriter d m then wideWrite m a v (fun _ s => s) s else s
  | 0x24 => if engineWriter d m then wideWrite m a v (fun x => chWrite m d (·.setPair (chBase d + 0x20) x)) s else s
  | _ => if o ∈ [0x00, 0x0C, 0x10, 0x14, 0x18, 0x2C] then chWrite m d (typedWrite a v) s else s
/-- Writes of a converter pair's block. -/
def adcRegWrite (m : Master) (c a : Nat) (v : Word) (s : State) : State :=
  let e := ioMaster m
  if !domOn s (domPair c) then s
  else if a == ADC_PAIR_CTRL c then adcPairWrite e c v s
  else match tab a (ADC_CTRL c 0) 0x100 2 with
    | some (x, 0x00) => adcCtrlWrite e c x v s
    | some (x, 0x04) =>
      (match bitsOf v 0 2 with
      | 1 => adcGo e c x s
      | 2 => adcFlush e c x s
      | _ => s)
    | some (_, 0x10) => if supWriter e then wideWrite m a v (fun _ s => s) s else s
    | some (x, 0x14) =>
      if supWriter e then wideWrite m a v (fun n => adcConfigWrite e c x (·.setPair (ADC_START_TT_LO c x) n)) s else s
    | some (x, o) => if o == 0x0C || (0x40 ≤ o && o < 0x80) then adcConfigWrite e c x (typedWrite a v) s else s
    | none => plainWrite m a v s
/-- Writes of an edge unit. -/
def edgRegWrite (m : Master) (c a : Nat) (v : Word) (s : State) : State :=
  let e := ioMaster m
  if a == EDG_SYNC c then edgSync e c v s
  else match tab a (EDG_CH_CTRL c 0) 0x40 16 with
    | some (k, 0x00) => edgCtrlWrite e c k v s
    | some (k, 0x04) =>
      let kk : Fin 16 := ⟨k % 16, Nat.mod_lt _ (by decide)⟩
      let cc : Fin 6 := ⟨c % 6, Nat.mod_lt _ (by decide)⟩
      (match bitsOf v 0 3 with
      | 1 => edgArm false e c k s
      | 2 => edgDisarm false e c k s
      | 3 => edgForce false true e c k s
      | 4 => edgForce false false e c k s
      | 5 => onward (execSyncTt e cc kk s) s
      | 6 => onward (execClrOvr e cc kk s) s
      | _ => s)
    | some (k, 0x0C) => if edgeWriter e c s then s.setReg (EDG_CNT c k) v else s
    | some (k, 0x10) => edgCmpWrite false e c k v s
    | some (k, o) => if o == 0x14 || o == 0x18 || o == 0x1C || o == 0x20 then edgConfigWrite e c k (typedWrite a v) s else s
    | none => plainWrite m a v s
/-- Writes of a vote gate; the answer says whether the gate refused a vote write (R152). -/
def voteRegWrite (m : Master) (c a : Nat) (v : Word) (s : State) : Bool × State :=
  match tab a (VOTE_PORT_DATA c 0 0) 0x10 384 with
  | some (e, r) =>
    (match m with
    | .tile t vital _ =>
      if t.val / 4 != c then (false, s)
      else
        let w := if vital then 0 else 1
        match r with
        | 0 => voteWrite t (e / 32) (e % 32) v s
        | 4 => (false, cfgWrite t (e / 32) (e % 32) false w v s)
        | 8 => (false, cfgWrite t (e / 32) (e % 32) true w v s)
        | _ => (false, s)
    | _ => (false, s))
  | none => match tab a (VOTE_GRP_STATUS c 0) 0x20 12 with
    | some (g, 0x1C) => (false, if m == .host then takeoverWrite g v s else s)
    | some _ => (false, s)
    | none => (false, plainWrite m a v s)
/-- A write of SHELF_CMD. -/
def shelfCmdWrite (m : Master) (c : Nat) (v : Word) (s : State) : State :=
  match m with
  | .tile t vital _ =>
    let w := if vital then 0 else 1
    (match bitsOf v 6 2 with
    | 1 => shelfResend c (bitsOf v 0 6) (bitsOf v 8 8) t w s
    | 2 => shelfDiscard c (bitsOf v 0 6) t w s
    | _ => s)
  | _ => s
/-- Writes of cluster blocks outside the tiles. -/
def clusterWrite (m : Master) (c a : Nat) (v : Word) (s : State) : Bool × State :=
  let o := a % 0x100000
  if !domOn s (domCluster c) then (false, s)
  else if o < 0x20000 then
    (false, match tab o 0x10100 0x80 8 with
      | some (k, r) => chanWrite m (96 + 8 * c + k) r v s
      | none => if a == CDMA_CMD c then engineCommand m c v s else plainWrite m a v s)
  else if o < 0x30000 then (false, adcRegWrite m c a v s)
  else if o < 0x40000 then (false, edgRegWrite m c a v s)
  else if o < 0x48000 then
    (false, match tab a (CBANK_CTRL c 0) 16 16 with
      | some (b, 0) => bankCtrlWrite (ioMaster m) (64 + 16 * c + b) v s
      | _ => plainWrite m a v s)
  else if o < 0x4C000 then voteRegWrite m c a v s
  else if a == SHELF_CMD c then (false, shelfCmdWrite m c v s)
  else (false, s)
/-- R124: the bits of OMT_EVENTS and OMT_EVENT_EN whose event world `w` owns. -/
def omtOwned (s : State) (t w : Nat) : Word :=
  BitVec.ofNat 32 ((((List.range 14).filter (fun b => s.get (EVC_CFG.world t (48 + b)) == w)).map (2 ^ ·)).sum)
/-- Writes of a tile's block. -/
def tileWrite (m : Master) (t a : Nat) (v : Word) (s : State) : State :=
  let o := a % 0x10000
  if !domOn s (domTile t) then s
  else if o < 0x2000 then
    if !tileSup t m then s
    else if a == EXC_CTRL t then writeExcCtrl m t v s
    else if a == TMEM_CTRL t then
      let s := typedWrite a v s
      if v.getLsbD 0 then ((s.setN (TMEM_STATUS t) 0).setN (ICACHE_HITS t) 0).setN (ICACHE_MISSES t) 0 else s
    else match tab a (EVC_CFG t 0) 4 512 with
      | some (e, _) => writeEvcCfg m t e v s
      | none => typedWrite a v s
  else if a == EVC_SW_SET t then s.setReg (EVC_SW t) (s.reg (EVC_SW t) ||| (v &&& 0xFFFF))
  else if 0x4000 ≤ o && o < 0x6000 then
    match m with
    | .tile u vital _ =>
      let w := (o - 0x4000) / 0x1000
      if u.val != t || vital != (w == 0) then s
      else
        let p := o % 0x1000
        if p == 0x004 then omtSend t w s
        else if p == 0x010 then nackPop t w s
        else match tab p 0x100 0x80 4 with
          | some (q, 0x14) => rxPop t w q s
          | some _ => s
          | none => typedWrite a v s
    | _ => s
  else if a == OMT_EVENTS t || a == OMT_EVENT_EN t then
    match m with
    | .tile u vital true =>
      if u.val != t then s
      else
        let mine := omtOwned s t (if vital then 0 else 1)
        if a == OMT_EVENTS t then typedWrite a (v &&& mine) s else typedWrite a ((v &&& mine) ||| (s.reg a &&& ~~~mine)) s
    | _ => s
  else match tab o 0x8100 0x80 4 with
    | some (k, r) => chanWrite m (4 * t + k) r v s
    | none => plainWrite m a v s

/-- A write of register `a` by master `m`; the answer says whether the target refused it with an error of its own (R152). -/
def ioWrite (m : Master) (a : Nat) (v : Word) (s : State) : Bool × State :=
  if a < 0x100000 then (false, devWrite m a v s)
  else if a < 0x700000 then
    match tileBlock a with
    | some (t, _) => (false, tileWrite m t a v s)
    | none => clusterWrite m (a / 0x100000 - 1) a v s
  else (false, s)
/-- R85, R88: a tile's write, issued at priority `pri`, uses the write stage of that priority. -/
def ioWriteAt (m : Master) (pri a : Nat) (v : Word) (s : State) : Bool × State :=
  match m with
  | .tile t _ _ =>
    let p := Reader.tile t ⟨min 16 (priIx pri), by omega⟩
    let q := readerOf s m
    if p == q then ioWrite m a v s
    else
      let r := ioWrite m a v (swapStages p q s)
      (r.1, swapStages p q r.2)
  | _ => ioWrite m a v s

end Sys2Proof.Machine
end

