-- ==== Sys2Proof/Machine/Beats.lean ====
section
/-!
DEFINITION. Sys2Proof/Machine/Beats.lean: the accesses of the data movers: beats, list fetches, the CRC's own beats and the takeover copy
(R194, R195, R197, R202 to R207, R210).
-/
namespace Sys2Proof.Machine

/-- What becomes of one access of a channel: done with its bytes, a bus error at an address with its cause, or a wait for its
target. -/
inductive DmaAcc where
  | done (l : List Byte) (s : State)
  | err (a cause : Nat) (s : State)
  | wait (s : State)

/-- R194, R184, R201: an I/O access of a channel. -/
def dmaIo (s : State) (d ea : Nat) : IoCheck :=
  let a := if d < 96 then ioGlobal (d / 4) ea else ea
  let w := if chVital s d then 0 else 1
  let range := (tileBlock a).any (fun p => p.2 < 0x2000)
  if 0x1000000 ≤ ea then .raise 2 0
  else if d < 96 && (range || !(winWord s (d / 4) w 8 ≤ ea && ea < winWord s (d / 4) w 9)) then .raise 1 0
  else match ioDomain a with
    | none => .ok a
    | some x => if domOn s x && !domHeld s x then .ok a else if s.is (PWR_DOM_CTRL.woa x) && wakeable s x then .wait x else .raise 3 0
/-- A refusal or an off target that the target's block records (R173, R184). -/
def dmaRefused (d a cause : Nat) (write : Bool) (rec : Option (Place × Nat)) (s : State) : State :=
  match rec with
  | some (p, r) => recordRefusal p a r (chMaster s d) write s
  | none =>
    let p := (place (ownTile (chMaster s d)) (unalias a).2).1
    if cause != 3 && cause != 4 then s else if p == .mram && write then mramRefused s else offAccess p s
/-- A read of `n` bytes. -/
def dmaRead (d a n : Nat) (io : Bool) (ecc waited : Nat) (fab : Bool) (s : State) : DmaAcc :=
  let m := chMaster s d
  if fab then .err a 7 s
  else if io then
    match dmaIo s d a with
    | .raise c _ => .err a c s
    | .wait x => .wait (domTouch x s)
    | .ok g => let (v, s) := ioRead m g s; .done (leBytes 4 v.toNat) s
  else
    let (c, rec) := dmaData s d a n false
    match c with
    | .err cause => .err a cause (dmaRefused d a cause false rec s)
    | .wait p => .wait (placeTouch p s)
    | .ok p _ key =>
      let ecc := eccAt s key ecc
      let (v, s) := readData p key n a m ecc (conflicts p m waited s)
      if ecc == 2 then .err a 5 s else .done (leBytes n v) s
/-- A write of bytes. -/
def dmaWrite (d a : Nat) (l : List Byte) (io : Bool) (ecc waited : Nat) (fab : Bool) (s : State) : DmaAcc :=
  let m := chMaster s d
  let v := u32 l 0 + 2 ^ 32 * u32 l 4
  if fab then .err a 7 s
  else if io then
    match dmaIo s d a with
    | .raise c _ => .err a c s
    | .wait x => .wait (domTouch x s)
    | .ok g =>
      match ioWrite m g (BitVec.ofNat 32 v) s with
      | (true, s) => .err a 1 s
      | (false, s) => .done l s
  else
    let (c, rec) := dmaData s d a l.length true
    match c with
    | .err cause => .err a cause (dmaRefused d a cause true rec s)
    | .wait p => .wait (placeTouch p s)
    | .ok p form key =>
      if p == .mram && !mramRoom s key then .wait s
      else
        let ecc := eccWrite s p form key l.length ecc
        let s := eccEvent p key a m true ecc (conflicts p m waited s)
        if ecc == 2 then .err a 5 s
        else if d < 96 then .done l (tileStore (d / 4) m p form key l.length v s)
        else .done l (placeWrite p form key l.length v m s)

/-! ### Beats -/

/-- R202, R207: beats in flight that are not counted, whose writes have taken effect already; a cluster engine counts their
errors. -/
def lateBeats (d w : Nat) : Nat → Side → Side → State → State
  | 0, _, _, s => s
  | n + 1, x, y, s =>
    let failed := fun (s : State) => s.when (96 ≤ d) (·.bump (CDMA_STATUS.errors ((d - 96) / 8)))
    if x.rem < w || y.rem < w then s
    else match dmaRead d x.addr w x.io 0 0 false s with
      | .done l s1 =>
        (match dmaWrite d y.addr l y.io 0 0 false s1 with
        | .done _ s2 => lateBeats d w n (sideStep w x) (sideStep w y) s2
        | .err _ _ s2 => lateBeats d w n (sideStep w x) (sideStep w y) (failed s2)
        | .wait _ => s1)
      | .err _ _ s1 => lateBeats d w n (sideStep w x) (sideStep w y) (failed s1)
      | .wait _ => s
/-- The channel waits for an access with wake-on-access. -/
def waitBeat (d : Nat) (s : State) : State := s.modDma d (fun h => { h with woa := true })
/-- R201: a completed beat of a channel paced by source 0x01 subtracts 1 from its level. -/
def levelBeat (d : Nat) (s : State) : State :=
  let f := CH_LEVEL.level (chBase d)
  s.when (s.get (CH_PACE.source (chBase d)) == 1) (fun s => s.set f (s.get f - 1))
/-- R202, R203, R201: a data beat of `w` bytes is counted. -/
def countBeat (d w : Nat) (l : List Byte) (s : State) : State :=
  let b := chBase d
  let h := s.dmaOf d
  let skip := if listSide s d false then h.src.nocrc else listSide s d true && h.dst.nocrc
  let s := s.setN (CH_DONE_BYTES b) (s.regN (CH_DONE_BYTES b) + w)
  let s := crcBeat d skip l s
  let s := levelBeat d s
  let used := if chState s d == chDISABLING && h.drain then w else 1
  let s := s.modDma d (fun h => { h with left := h.left - used, issued := h.issued - 1, woa := false })
  chSettle d (sideBeat d true w (sideBeat d false w s))
/-- R202 to R207: a data beat. -/
def dataBeat (d eccR eccW waitR waitW fab late : Nat) (s : State) : State :=
  let h := s.dmaOf d
  let w := 2 ^ s.get (CH_CTRL.width (chBase d))
  let behind := fun (s : State) => lateBeats d w (min late (inFlight s d - 1)) (sideStep w h.src) (sideStep w h.dst) s
  if h.src.rem < w || h.dst.rem < w then s
  -- R195: a side that advances past I/O space
  else if (h.src.io && 0x1000000 ≤ h.src.addr) || (h.dst.io && 0x1000000 ≤ h.dst.addr) then chEnd d 4 s
  else match dmaRead d h.src.addr w h.src.io eccR waitR (fab == 1) s with
    | .wait s => waitBeat d s
    | .err a c s => busError d a false false c (behind s)
    | .done l s1 =>
      match dmaWrite d h.dst.addr l h.dst.io eccW waitW (fab == 2) s1 with
      | .wait _ =>
        (match dmaWrite d h.dst.addr l h.dst.io eccW waitW false s with
        | .wait s => waitBeat d s
        | _ => waitBeat d s)
      | .err a c s => busError d a true false c (behind s)
      | .done _ s => countBeat d w l s
/-- R203, R204: a beat that stores the CRC or reads its reference. -/
def crcTailBeat (d eccR eccW waitR waitW fab : Nat) (s : State) : State :=
  let b := chBase d
  let h := s.dmaOf d
  let n := min (2 ^ s.get (CH_CTRL.width b)) h.tail
  let move := fun (x : Side) => if x.fixed then x else { x with addr := x.addr + n }
  let ended := fun (s : State) => s.when (h.tail == n) (chComplete d)
  if s.get (CH_CTRL.crc_op b) == 1 then
    let l := ((crcStored s d).drop (crcSize s d - h.tail)).take n
    match dmaWrite d h.dst.addr l h.dst.io eccW waitW (fab == 2) s with
    | .wait s => waitBeat d s
    | .err a c s => busError d a true false c s
    | .done _ s => ended ((levelBeat d s).modDma d (fun h => { h with dst := move h.dst, tail := h.tail - n, woa := false }))
  else
    match dmaRead d h.src.addr n h.src.io eccR waitR (fab == 1) s with
    | .wait s => waitBeat d s
    | .err a c s => busError d a false false c s
    | .done l s =>
      let s := (levelBeat d s).modDma d (fun h => { h with src := move h.src, tail := h.tail - n, ref := h.ref ++ l.take n, woa := false })
      ended (s.setN (CH_CRC_REF b) (u32 (s.dmaOf d).ref 0))
/-- R210: a beat of the takeover copy of group `g`. -/
def copyBeat (d g eccR eccW fab : Nat) (s : State) : State :=
  let h := s.grpOf g
  match groupRec s.invB g, h.spare with
  | some r, some sp =>
    let donor := tileIn h.tiles h.donor
    if 0x40000 < r.ckptBase + r.ckptLen then copyComplete g s
    else
      let o := r.ckptBase + (s.dmaOf d).src.addr
      let n := min 8 (r.ckptLen - (s.dmaOf d).src.addr)
      let m := chMaster s d
      let a := dtcmKey donor + o
      let z := dtcmKey sp + o
      let off := fun (t : Nat) => !domOn s (domTile t)
      let s1 := eccEvent (.dtcm donor) a a m false eccR s
      let s2 := eccEvent (.dtcm sp) z z m true eccW s1
      if fab == 1 || off donor then busError d a false false (if fab == 1 then 7 else 3) s
      else if eccR == 2 then busError d a false false 5 s1
      else if fab == 2 || off sp then busError d z true false (if fab == 2 then 7 else 3) s1
      else if eccW == 2 then busError d z true false 5 s2
      else
        let s := s2.setBytes z (s2.bytes a n)
        let s := s.setN (CH_DONE_BYTES (chBase d)) (s.regN (CH_DONE_BYTES (chBase d)) + n)
        let s := s.modDma d (fun h => { h with src := { h.src with addr := h.src.addr + n } })
        if r.ckptLen ≤ (s.dmaOf d).src.addr then copyComplete g s else s
  | _, _ => s
/-- Whether a beat of the channel may be issued or is in flight (R198, R200, R209). -/
def mayBeat (s : State) (d : Nat) : Bool :=
  let h := s.dmaOf d
  let st := chState s d
  let open_ := !paced s d || s.is (CH_STATUS.pace_latch (chBase d))
  domOn s (chDomain d) && ((st == chRUNNING && open_) || (st == chPAUSED && h.left != 0) ||
    (st == chDISABLING && h.left != 0 && (!h.drain || open_ || h.issued != 0)))
/-! ### Turns -/

/-- The engine of a channel, and its channels. -/
def engineOf (d : Nat) : Nat := if d < 96 then d / 4 else 24 + (d - 96) / 8
def engineChans (d : Nat) : Nat × Nat := if d < 96 then (d / 4 * 4, 4) else (96 + (d - 96) / 8 * 8, 8)
/-- A channel issues beats: not only completing those in flight. -/
def issues (s : State) (d : Nat) : Bool := chState s d == chRUNNING || (chState s d == chDISABLING && (s.dmaOf d).drain)
/-- A channel has a beat ready. -/
def beatReady (s : State) (d : Nat) : Bool :=
  let h := s.dmaOf d
  let w := 2 ^ s.get (CH_CTRL.width (chBase d))
  issues s d && mayBeat s d && !h.woa && (h.copy.isSome || h.tail != 0 || (w ≤ h.src.rem && w ≤ h.dst.rem))
/-- R211: the engine's channels are served in rotation, one burst each (log 129). -/
def inTurn (s : State) (d : Nat) : Bool :=
  let (k, n) := atD s.turn (engineOf d) (0, 0)
  let (base, count) := engineChans d
  if n < maxFlight d && (base + k == d || beatReady s (base + k)) then base + k == d
  else ((List.range count).map (fun i => base + (k + 1 + i) % count)).find? (fun e => e == d || beatReady s e) == some d
/-- The channel takes a place in its burst. -/
def takeTurn (d : Nat) (s : State) : State :=
  let (base, _) := engineChans d
  { s with turn := updAt s.turn (engineOf d) (fun e =>
      if base + e.1 == d && e.2 < maxFlight d then (e.1, e.2 + 1) else (d - base, 1)) }
/-- R212: a beat that was in flight when the engine's tile was reset: its write completes, and it is not counted. -/
def orphanBeat (d : Nat) (s : State) : State :=
  let h := s.dmaOf d
  match h.orphan with
  | none => s
  | some (w, vital) =>
    let f := CH_CTRL.world (chBase d)
    let world := s.is f
    let s := s.setB f (!vital)
    if h.tail == 0 then
      ((lateBeats d w 1 h.src h.dst s).setB f world).modDma d (fun h =>
        if h.left ≤ 1 then DmaH.reset else { h with src := sideStep w h.src, dst := sideStep w h.dst, left := h.left - 1 })
    else
      let n := min w h.tail
      let s := match dmaWrite d h.dst.addr (h.ref.take n) h.dst.io 0 0 false s with
        | .done _ s => s
        | .err _ _ s => s
        | .wait s => s
      (s.setB f world).modDma d (fun h =>
        if h.left ≤ 1 || h.tail ≤ n then DmaH.reset
        else { h with dst := (if h.dst.fixed then h.dst else { h.dst with addr := h.dst.addr + n }), tail := h.tail - n, ref := h.ref.drop n,
                      left := h.left - 1 })
/-- A beat completes; `fab` says whether its read (1) or its write (2) failed twice in transport. -/
def beatComplete (d eccR eccW waitR waitW fab late : Nat) (s : State) : State :=
  let h := s.dmaOf d
  let st := chState s d
  if !domOn s (chDomain d) then s
  else if h.orphan.isSome then orphanBeat d s
  else match h.copy with
    | some g => if st == chRUNNING && inTurn s d then copyBeat d g eccR eccW fab (takeTurn d s) else s
    | none =>
      -- R207: errors of a stopped channel's beats in flight, `late` behind its first uncounted one, are counted
      if st == chSTOPPED then
        if fab != 0 || eccR == 2 || eccW == 2 then s.bump (CDMA_STATUS.errors ((d - 96) / 8))
        else if h.was != chRUNNING then s
        else lateBeats d (2 ^ s.get (CH_CTRL.width (chBase d))) (min (late + 1) (inFlight s d)) h.src h.dst s
      else if !mayBeat s d || (issues s d && !inTurn s d) then s
      else
        let s := s.when (issues s d) (takeTurn d)
        if h.tail == 0 then dataBeat d eccR eccW waitR waitW fab late s
        else if st == chDISABLING then s.modDma d (fun h => { h with left := h.left - 1 })
        else crcTailBeat d eccR eccW waitR waitW fab s
/-- The meaning of BEAT_COMPLETE. -/
def execBeatComplete (d : Fin 144) (eccR eccW : Fin 3) (waitR waitW : BitVec 16) (fab : Fin 3) (late : Fin 9) (s : State) : Outcome :=
  .next (beatComplete d eccR eccW waitR.toNat waitW.toNat fab late s)

/-! ### List fetches -/

/-- R197: an entry fetch completes. -/
def listFetch (d : Nat) (dst : Bool) (ecc waited : Nat) (fab : Bool) (s : State) : State :=
  let h := s.dmaOf d
  let st := chState s d
  let x := h.side dst
  if !domOn s (chDomain d) || !x.fetch || !(st == chRUNNING || (st == chDISABLING && h.drain)) then s
  else match dmaRead d x.entry 8 false ecc waited fab s with
    | .wait s => waitBeat d s
    | .err a c s => busError d a false true c s
    | .done l s => walkEntry d dst (u32 l 0) (u32 l 4) (s.modDma d (fun h => { h with woa := false }))
/-- The meaning of LIST_FETCH. -/
def execListFetch (d : Fin 144) (dst : Bool) (ecc : Fin 3) (waited : BitVec 16) (fab : Bool) (s : State) : Outcome :=
  .next (listFetch d dst ecc waited.toNat fab s)

/-- R184, Table DMA-6: the target of a waiting beat or fetch has not woken in time. -/
def chWakeTimeout (d : Nat) (s : State) : State :=
  let h := s.dmaOf d
  let fetch := if h.src.fetch then some h.src.entry else if h.dst.fetch then some h.dst.entry else none
  let off := fun (a : Nat) (io : Bool) => if io then (ioDomain (if d < 96 then ioGlobal (d / 4) a else a)).any (fun x => !domOn s x)
    else (placeOff s (place (ownTile (chMaster s d)) (unalias a).2).1).1
  let fails := fun (a : Nat) (io write fetch : Bool) => busError d a write fetch 4 (s.when (!io) (dmaRefused d a 4 write none))
  if !h.woa then s
  else match fetch with
    | some a => if off a false then fails a false false true else s
    | none =>
      if off h.src.addr h.src.io then fails h.src.addr h.src.io false false
      else if off h.dst.addr h.dst.io then fails h.dst.addr h.dst.io true false
      else s

end Sys2Proof.Machine
end

