-- ==== Sys2Proof/Machine/Access.lean ====
section
/-!
DEFINITION. Sys2Proof/Machine/Access.lean: accesses that complete: register writes and wide pairs (R6, R85 to R88), a tile's loads and
posted writes (R104), wake timeouts (R136, R184), and the host's accesses over PCIe, the host SPI and the debug port (R363, R390 to
R394).
-/
namespace Sys2Proof.Machine

/-! ### Registers -/

/-- The meaning of REGISTER_WRITE. -/
def execRegisterWrite (m : Master) (a : BitVec 24) (v : Word) (s : State) : Outcome :=
  .next (if coreOn s then (ioWrite m a.toNat v s).2 else s)
/-- The meaning of WIDE_PAIR_READ: the reading master's latch, at a tile that of its present priority. -/
def execWidePairRead (m : Master) (a : BitVec 24) (s : State) : Outcome :=
  if coreOn s && (widePair a.toNat).isSome then
    let (w, s) := ioRead m a.toNat s
    .next { s with data := w }
  else .next s
/-- A write of one half of a writable wide pair. -/
def halfWrite (m : Master) (a : Nat) (hi : Bool) (v : Word) (s : State) : State :=
  match widePair a with
  | some (lo, h) => if coreOn s && wideWritable lo && h == hi then (ioWrite m a v s).2 else s
  | none => s
/-- The meaning of WRITE_STAGE. -/
def execWriteStage (m : Master) (a : BitVec 24) (v : Word) (s : State) : Outcome := .next (halfWrite m a.toNat false v s)
/-- The meaning of WIDE_PAIR_COMMIT. -/
def execWidePairCommit (m : Master) (a : BitVec 24) (v : Word) (s : State) : Outcome := .next (halfWrite m a.toNat true v s)

/-! ### Tiles -/

/-- R104: the data of a load or IN returns. -/
def loadReturn (t ecc waited : Nat) (s : State) : State :=
  let x := s.tileOf t
  match x.load with
  | none => s
  | some l =>
    let m := tileMaster t x
    if !domOn s (domTile t) || x.held then s
    else
      let gone := fun (s : State) => s.modTile t (fun x => { x with load := none })
      let (p, key) := place (some t) (unalias l.addr).2
      let (off, woa) := if l.io then ((ioDomain l.addr).any (fun d => !domOn s d),
          (ioDomain l.addr).any (fun d => s.is (PWR_DOM_CTRL.woa d) && wakeable s d)) else placeOff s p
      -- R136, R181: the target has gone off since the issue, or is entering a low-power state
      if off then
        if woa then
          waitWake t (bit l.io) l.word l.addr (if l.io then (((ioDomain l.addr).map domTouch).getD id) else placeTouch p) (gone s)
        else raiseSync t 6 (bit l.io) l.word false (gone (if l.io then s else offAccess p s))
      else if !l.io && placeHeld s p then placeTouch p s
      else if l.io && (ioDomain l.addr).any (domHeld s) then (((ioDomain l.addr).map domTouch).getD id) s
      else
        let (v, s) := if l.io then let (w, s) := ioRead m l.addr s; (w.toNat, s)
          else readData p key l.bytes l.addr m ecc (conflicts p m waited s)
        result t l.ga (extend l.bytes l.signed v) false (gone s)
/-- The meaning of LOAD_DATA_RETURN. -/
def execLoadDataReturn (t : Fin 24) (ecc : Fin 3) (waited : BitVec 16) (s : State) : Outcome :=
  .next (loadReturn t ecc waited.toNat s)
/-- R104, R184: the oldest posted write of a tile completes at its target or fails there; `fab` says that it failed twice in
transport. -/
def postedComplete (t ecc waited : Nat) (fab : Bool) (s : State) : State :=
  match (s.tileOf t).posted with
  | [] => s
  | w :: rest =>
    let m : Master := .tile ⟨t % 24, Nat.mod_lt _ (by decide)⟩ w.vital w.sup
    let gone := fun (s : State) => s.modTile t (fun x => { x with posted := rest, kept := false })
    let kept := (s.tileOf t).kept
    let touch := ((ioDomain w.addr).map domTouch).getD id
    if fab then postErr t w.addr (gone s).retryFail
    else if w.io then
      if (ioDomain w.addr).any (domHeld s) then touch (s.modTile t (fun x => { x with kept := true }))
      else if (ioDomain w.addr).any (fun d => !domOn s d) then
        if kept && (ioDomain w.addr).any (fun d => s.is (PWR_DOM_CTRL.woa d) && wakeable s d) then touch s
        else postErr t w.addr (gone s)
      else match ioWriteAt m w.pri w.addr w.value (gone s) with
        | (true, s) => postErr t w.addr s
        | (false, s) => s
    else match arriveStore t m w.addr w.bytes w.value ecc waited kept s with
      | (.later, s) => s
      | (.done, s) => gone s
      | (.failed, s) => postErr t w.addr (gone s)
/-- The meaning of POSTED_WRITE_COMPLETE. -/
def execPostedWriteComplete (t : Fin 24) (ecc : Fin 3) (waited : BitVec 16) (fab : Bool) (s : State) : Outcome :=
  .next (postedComplete t ecc waited.toNat fab s)
/-- The meaning of WAKE_TIMEOUT, at a tile or a DMA channel that waits. -/
def execWakeTimeout (m : Master) (s : State) : Outcome :=
  .next (match m with
    | .tile t _ _ => wakeTimeout t s
    | .tdma t k _ => chWakeTimeout (4 * t + k) s
    | .cdma c k _ => chWakeTimeout (96 + 8 * c + k) s
    | _ => s)

/-! ### The host queue -/

/-- Statuses of Table HOST-1. -/
def hOK : Nat := 0
def hDENIED : Nat := 1
def hOFFLINE : Nat := 2
def hECC : Nat := 3
def hALIGN : Nat := 4
def hFABRIC : Nat := 5

/-- How a host access ends: with a status, a word and the state, or waiting for a wake. -/
inductive HostEnd where
  | ended (status : Nat) (v : Word) (s : State)
  | waits (s : State)

/-- The target block's writer rules refuse the host's write of register `a`; R120 and R142 ignore it instead, and R9 where no
register is. -/
def hostDenied (a : Nat) : Bool :=
  (regRow a).isSome && match tileBlock a with
  | some (_, o) => 0x6000 ≤ o && !regWriter .host a
  | none => !regWriter .host a
/-- An I/O access of the host; `e` is 0, or 3 for a transport error that remained, 4 for a wake not complete in time. -/
def hostIo (write : Bool) (a n : Nat) (v : Word) (e : Nat) (s : State) : HostEnd :=
  if n != 4 || a % 4 != 0 then .ended hALIGN 0 s
  else if 0x1000000 ≤ a then .ended hDENIED 0 s
  else
    let off := (ioDomain a).any (fun d => !domOn s d || domHeld s d)
    let woa := (ioDomain a).any (fun d => s.is (PWR_DOM_CTRL.woa d) && wakeable s d)
    if e == 3 then .ended hFABRIC 0 s.retryFail
    else if off then
      (if woa && e != 4 then .waits (((ioDomain a).map (fun d => domTouch d s)).getD s) else .ended hOFFLINE 0 s)
    else if write then
      if hostDenied a then .ended hDENIED 0 s
      else match ioWrite .host a v s with
        | (true, s) => .ended hDENIED 0 s
        | (false, s) => .ended hOK 0 s
    else let (w, s) := ioRead .host a s; .ended hOK w s
/-- A data-space access of the host; `e` adds 1 for a corrected and 2 for an uncorrectable word. -/
def hostData (write : Bool) (a n : Nat) (v : Word) (e waited : Nat) (s : State) : HostEnd :=
  let (form, b) := unalias a
  let (p, key) := place none b
  let m : Master := .host
  let ecc := if e ≤ 2 then e else 0
  if n != 1 && n != 2 && n != 4 || a % n != 0 then .ended hALIGN 0 s
  else if e == 3 then .ended hFABRIC 0 s.retryFail
  else match refusal s p m none with
    | some r => .ended hDENIED 0 (recordRefusal p a r m write s)
    | none =>
      let (off, woa) := placeOff s p
      if write && p == .mram && !s.memh.mramOpen then .ended hOFFLINE 0 (mramRefused s)
      else if off then (if woa && e != 4 then .waits (placeTouch p s) else .ended hOFFLINE 0 (offAccess p s))
      else if placeHeld s p then .waits (placeTouch p s)
      else if write then
        if p == .mram && !mramRoom s key then .waits s
        else
          let ecc := eccWrite s p form key n ecc
          let s := eccEvent p key a m true ecc (conflicts p m waited s)
          if ecc == 2 then .ended hECC 0 s else .ended hOK 0 (placeWrite p form key n v.toNat m s)
      else
        let ecc := eccAt s key ecc
        let (x, s) := readData p key n a m ecc (conflicts p m waited s)
        if ecc == 2 then .ended hECC 0 s else .ended hOK (BitVec.ofNat 32 x) s
/-- R390: the record of a failed access. -/
def hostFailed (path write data : Bool) (a status : Nat) (s : State) : State :=
  let n := min 255 (s.get HOST_ACC_STAT.count + 1)
  let s := if s.host.accHeld then s
    else ((s.setN HOST_ACC_STAT (status + 8 * bit path + 16 * bit write + 32 * bit data)).setN HOST_ACC_ADDR a).modHost
      (fun h => { h with accHeld := true })
  (s.set HOST_ACC_STAT.count n).raise HOST_EVENTS.acc_err
/-- An access of the host queue: its status, none where it waits for a wake, with the word read in `data`. -/
def hostAccess (path write data : Bool) (a n : Nat) (v : Word) (e waited : Nat) (s : State) : Option Nat × State :=
  match (if data then hostData write a n v e waited s else hostIo write a n v e s) with
  | .waits s => (none, s)
  | .ended status w s =>
    let s := { s with data := w }
    (some status, if status == hOK then s else hostFailed path write data a status s)

/-- `n` bytes of a word, from byte `o` on. -/
def subWord (w : Word) (o n : Nat) : Word := BitVec.ofNat 32 (w.toNat / 2 ^ (8 * o) % 2 ^ (8 * n))
/-- The word `w` with `n` bytes of `v` from byte `o` on. -/
def mergeWord (w : Word) (o n : Nat) (v : Word) : Word :=
  BitVec.ofNat 32 (w.toNat % 2 ^ (8 * o) + 2 ^ (8 * o) * (v.toNat % 2 ^ (8 * n)) + w.toNat / 2 ^ (8 * (o + n)) * 2 ^ (8 * (o + n)))
/-- Word `o / 4` of BAR4: the MSI-X table, and the pending bits (Table HOST-2). -/
def msixRead (s : State) (o : Nat) : Word :=
  if o < 0x100 then atD s.host.msix (o / 4) 0
  else if o / 4 * 4 == 0x800 then BitVec.ofNat 32 (((List.range 16).filter (fun v => (atD s.host.irq v (false, false)).2)).map (2 ^ ·)).sum
  else 0
/-- A write of `n` bytes of the MSI-X table; a vector unmasked with its pending bit set sends its message. -/
def msixWrite (o n : Nat) (v : Word) (s : State) : State :=
  if 0x100 ≤ o then s
  else
    let v := mergeWord (msixRead s o) (o % 4) n v
    let s := s.modHost (fun h => { h with msix := updAt h.msix (o / 4) (fun _ => if o / 4 % 4 == 3 then v &&& 1 else v) })
    let vec := o / 16
    if o / 4 % 4 == 3 && !v.getLsbD 0 && (atD s.host.irq vec (false, false)).2 then msixFire vec s else s
/-- Word `o / 4` of the PCIe core's configuration space (Table HOST-2). The places of the fields in their words are PCI's (log 102,
PRESUMED), and a word of which the table says nothing is open. -/
def configRead (s : State) (o : Nat) : Word :=
  let w := Config.pcieWord (o / 4)
  if o / 4 == 0 then withBits w 16 16 0x2406
  else if o / 4 == 2 then withBits w 16 16 0x0880
  else if o / 4 == Config.msixCap / 4 then withBits (withBits (withBits w 16 11 15) 30 1 (bit s.host.msixMask)) 31 1 (bit s.host.msixOn)
  else if o / 4 == Config.pmCap / 4 + 1 then withBits w 0 2 (if s.host.d3hot then 3 else 0)
  else w
/-- Every vector with its pending bit set sends its message, where nothing masks it any more. -/
def msixRelease (s : State) : State :=
  s.forEach ((List.range 16).filter (fun v => (atD s.host.irq v (false, false)).2)) msixFire
/-- A write of `n` bytes of configuration space: the MSI-X enable and function mask, and the power state, D0 or D3hot. -/
def configWrite (o n : Nat) (v : Word) (s : State) : State :=
  let w := mergeWord (configRead s o) (o % 4) n v
  if o / 4 == 0 || o / 4 == 2 then s
  else if o / 4 == Config.msixCap / 4 then
    msixRelease (s.modHost (fun h => { h with msixMask := w.getLsbD 30, msixOn := w.getLsbD 31 }))
  else if o / 4 == Config.pmCap / 4 + 1 then
    match bitsOf w 0 2 with
    | 0 => msixRelease (s.modHost (fun h => { h with d3hot := false }))
    | 3 => s.modHost (fun h => { h with d3hot := true })
    | _ => s
  else s
/-- The meaning of HOST_ACCESS over PCIe: BAR0, BAR2 or BAR4, not answered in D3hot, or configuration space (R392, R393). -/
def execHostAccess (bar : Fin 4) (write : Bool) (x : BitVec 24) (n : Fin 5) (v : Word) (e : Fin 5) (waited : BitVec 16) (s : State) :
    Outcome :=
  .next (
    if !coreOn s || s.host.perst || !s.is HOST_STATUS.pcie_link then s
    else
      let data := bar == 1
      let a := if data then s.get HOST_DWIN.base * 2 ^ 24 + x.toNat else x.toNat
      if bar == 3 then
        if write then configWrite x.toNat n v s else { s with data := subWord (configRead s x.toNat) (x.toNat % 4) n }
      else if s.host.d3hot then s
      else if s.get BOOT_STATUS.stage == 0 then { hostFailed false write data a hOFFLINE s with data := 0 }
      else if bar == 2 then
        if write then msixWrite x.toNat n v s else { s with data := subWord (msixRead s x.toNat) (x.toNat % 4) n }
      else (hostAccess false write data a n v e waited.toNat s).2)

/-- The answer of a host-SPI word: in a read its status and the word, in a write the first status of the burst that is not OK. -/
def spiAnswer (write : Bool) (status : Nat) (s : State) : State :=
  s.modHost (fun h =>
    if write then { h with spiEnd := h.spiEnd.map (fun e => if e == hOK then status else e) }
    else { h with spiWords := h.spiWords ++ [(status, s.data)] })
/-- R394: the words of a host-SPI burst in order; one that waits for a wake ends the transaction, and a write so ended answers
nothing. -/
def spiBurst (write data : Bool) : Nat → List Word → List (Fin 5 × BitVec 16) → Nat → State → State
  | _, _, _, 0, s => s
  | a, ws, es, n + 1, s =>
    let (e, waited) := es.headD (0, 0)
    match hostAccess true write data a 4 (ws.headD 0) e.val waited.toNat s with
    | (none, s) => s.modHost (fun h => { h with spiEnd := none })
    | (some status, s) => spiBurst write data (a + 4) ws.tail es.tail n (spiAnswer write status s)
/-- R394: a transaction of `n` words from the fall of HCS_N to its rise; `ends` says that the end of a write is reached. -/
def spiRun (write data ends : Bool) (a : Nat) (ws : List Word) (es : List (Fin 5 × BitVec 16)) (n : Nat) (s : State) : State :=
  if n == 0 then s
  else
    let s := s.modHost (fun h => { h with spiActive := true, spiWords := [], spiEnd := if write && ends then some hOK else none })
    (spiBurst write data a ws es n s).modHost (fun h => { h with spiActive := false })
/-- The meaning of HOST_SPI_TRANSACTION: opcode, start address, the words clocked before HCS_N rises, the words written, and how
each word's access fares and waits. -/
def execHostSpiTransaction (op : BitVec 8) (a : Word) (n : Fin 257) (ws : List Word) (es : List (Fin 5 × BitVec 16)) (s : State) :
    Outcome :=
  .next (
    if !coreOn s then s
    else match op.toNat with
      | 0x10 => spiRun false false false a.toNat ws es n s
      | 0x11 => spiRun false true false a.toNat ws es n s
      | 0x20 => spiRun true false (ws.length ≤ n) a.toNat ws es (min n ws.length) s
      | 0x21 => spiRun true true (ws.length ≤ n) a.toNat ws es (min n ws.length) s
      | _ => s)

/-- R363: what the debug port never reaches: the BOOT block, but for provisioning in Blank and Factory. -/
def debugDenied (s : State) (a : Nat) : Bool := a < 0x10000 && !(BOOT_PROV_CMD ≤ a && s.boot.lc ≤ 1)
/-- The meaning of DEBUG_ACCESS. -/
def execDebugAccess (write data : Bool) (a : Word) (n : Fin 5) (v : Word) (e : Fin 5) (waited : BitVec 16) (s : State) : Outcome :=
  .next (
    if !coreOn s || s.get BOOT_STATUS.debug < 2 then s
    else
      let s := { s with dbg := true }
      if !data && debugDenied s a.toNat then { s with data := 0 }
      else match (if data then hostData write a.toNat n v e waited.toNat s else hostIo write a.toNat n v e s) with
        | .waits s => s
        | .ended _ w s => { s with data := w })

end Sys2Proof.Machine
end

