-- ==== Sys2Proof/Machine/Alu.lean ====
section
/-!
DEFINITION. Sys2Proof/Machine/Alu.lean: the arithmetic, logic, shift and bit-field instructions (Tables ISA-5, ISA-6, ISA-8; R99,
R100).
-/
namespace Sys2Proof.Machine

/-- The meaning of ADD (minor 0x00). -/
def execAdd (t : Fin 24) (ga gb gc : Fin 16) (s : State) : Outcome := .next (aluR t 0 ga gb gc (· + ·) s)
/-- The meaning of SUB (minor 0x01). -/
def execSub (t : Fin 24) (ga gb gc : Fin 16) (s : State) : Outcome := .next (aluR t 1 ga gb gc (· - ·) s)
/-- The meaning of AND (minor 0x02). -/
def execAnd (t : Fin 24) (ga gb gc : Fin 16) (s : State) : Outcome := .next (aluR t 2 ga gb gc (· &&& ·) s)
/-- The meaning of OR (minor 0x03). -/
def execOr (t : Fin 24) (ga gb gc : Fin 16) (s : State) : Outcome := .next (aluR t 3 ga gb gc (· ||| ·) s)
/-- The meaning of XOR (minor 0x04). -/
def execXor (t : Fin 24) (ga gb gc : Fin 16) (s : State) : Outcome := .next (aluR t 4 ga gb gc (· ^^^ ·) s)
/-- The meaning of ANDN (minor 0x05). -/
def execAndn (t : Fin 24) (ga gb gc : Fin 16) (s : State) : Outcome := .next (aluR t 5 ga gb gc (fun a b => a &&& ~~~b) s)
/-- The meaning of SLT (minor 0x06). -/
def execSlt (t : Fin 24) (ga gb gc : Fin 16) (s : State) : Outcome := .next (aluR t 6 ga gb gc slt s)
/-- The meaning of SLTU (minor 0x07). -/
def execSltu (t : Fin 24) (ga gb gc : Fin 16) (s : State) : Outcome := .next (aluR t 7 ga gb gc sltu s)
/-- The meaning of SHL (minor 0x08). -/
def execShl (t : Fin 24) (ga gb gc : Fin 16) (s : State) : Outcome := .next (aluR t 8 ga gb gc (fun a b => a <<< shAmt b) s)
/-- The meaning of SHR (minor 0x09). -/
def execShr (t : Fin 24) (ga gb gc : Fin 16) (s : State) : Outcome := .next (aluR t 9 ga gb gc (fun a b => a >>> shAmt b) s)
/-- The meaning of SAR (minor 0x0A). -/
def execSar (t : Fin 24) (ga gb gc : Fin 16) (s : State) : Outcome := .next (aluR t 10 ga gb gc (fun a b => a.sshiftRight (shAmt b)) s)
/-- The meaning of ROR (minor 0x0B). -/
def execRor (t : Fin 24) (ga gb gc : Fin 16) (s : State) : Outcome := .next (aluR t 11 ga gb gc (fun a b => a.rotateRight (shAmt b)) s)
/-- The meaning of MIN (minor 0x0C). -/
def execMin (t : Fin 24) (ga gb gc : Fin 16) (s : State) : Outcome := .next (aluR t 12 ga gb gc sMin s)
/-- The meaning of MAX (minor 0x0D). -/
def execMax (t : Fin 24) (ga gb gc : Fin 16) (s : State) : Outcome := .next (aluR t 13 ga gb gc sMax s)
/-- The meaning of MINU (minor 0x0E). -/
def execMinu (t : Fin 24) (ga gb gc : Fin 16) (s : State) : Outcome := .next (aluR t 14 ga gb gc uMin s)
/-- The meaning of MAXU (minor 0x0F). -/
def execMaxu (t : Fin 24) (ga gb gc : Fin 16) (s : State) : Outcome := .next (aluR t 15 ga gb gc uMax s)
/-- The meaning of ADDS (minor 0x10). -/
def execAdds (t : Fin 24) (ga gb gc : Fin 16) (s : State) : Outcome := .next (aluSat t 16 ga gb gc addSat s)
/-- The meaning of SUBS (minor 0x11). -/
def execSubs (t : Fin 24) (ga gb gc : Fin 16) (s : State) : Outcome := .next (aluSat t 17 ga gb gc subSat s)
/-- The meaning of CLZ (minor 0x12). -/
def execClz (t : Fin 24) (ga gb : Fin 16) (s : State) : Outcome := .next (aluR t 18 ga gb 0 (fun a _ => clz a) s)

/-- The meaning of ADDI. -/
def execAddi (t : Fin 24) (ga gb : Fin 16) (imm : BitVec 18) (s : State) : Outcome :=
  .next (aluI t 2 ga gb imm.toNat (· + sext18 imm) s)
/-- The meaning of ANDI. -/
def execAndi (t : Fin 24) (ga gb : Fin 16) (imm : BitVec 18) (s : State) : Outcome :=
  .next (aluI t 3 ga gb imm.toNat (· &&& zext18 imm) s)
/-- The meaning of ORI. -/
def execOri (t : Fin 24) (ga gb : Fin 16) (imm : BitVec 18) (s : State) : Outcome :=
  .next (aluI t 4 ga gb imm.toNat (· ||| zext18 imm) s)
/-- The meaning of XORI. -/
def execXori (t : Fin 24) (ga gb : Fin 16) (imm : BitVec 18) (s : State) : Outcome :=
  .next (aluI t 5 ga gb imm.toNat (· ^^^ zext18 imm) s)
/-- The meaning of SLTI. -/
def execSlti (t : Fin 24) (ga gb : Fin 16) (imm : BitVec 18) (s : State) : Outcome :=
  .next (aluI t 6 ga gb imm.toNat (slt · (sext18 imm)) s)
/-- The meaning of SLTUI. -/
def execSltui (t : Fin 24) (ga gb : Fin 16) (imm : BitVec 18) (s : State) : Outcome :=
  .next (aluI t 7 ga gb imm.toNat (sltu · (sext18 imm)) s)
/-- The meaning of SHI_SHL (kind 0). -/
def execShiShl (t : Fin 24) (ga gb : Fin 16) (n : Fin 32) (s : State) : Outcome :=
  .next (aluI t 8 ga gb (n.val + 0) (· <<< n.val) s)
/-- The meaning of SHI_SHR (kind 1). -/
def execShiShr (t : Fin 24) (ga gb : Fin 16) (n : Fin 32) (s : State) : Outcome :=
  .next (aluI t 8 ga gb (n.val + 32) (· >>> n.val) s)
/-- The meaning of SHI_SAR (kind 2). -/
def execShiSar (t : Fin 24) (ga gb : Fin 16) (n : Fin 32) (s : State) : Outcome :=
  .next (aluI t 8 ga gb (n.val + 64) (·.sshiftRight n.val) s)
/-- The meaning of SHI_ROR (kind 3). -/
def execShiRor (t : Fin 24) (ga gb : Fin 16) (n : Fin 32) (s : State) : Outcome :=
  .next (aluI t 8 ga gb (n.val + 96) (·.rotateRight n.val) s)
/-- The meaning of LUI. -/
def execLui (t : Fin 24) (ga : Fin 16) (imm : BitVec 18) (s : State) : Outcome :=
  .next (aluI t 9 ga 0 imm.toNat (fun _ => zext18 imm <<< 14) s)
/-- The meaning of APC. -/
def execApc (t : Fin 24) (ga : Fin 16) (imm : BitVec 18) (s : State) : Outcome :=
  .next (issue t (encI 0x0A ga 0 imm.toNat) false (fun x => result t ga (x.pc + sext18 imm * 4) false) s)

/-- The meaning of EXTU (BITF kind 0); `len` is the length less one. -/
def execExtu (t : Fin 24) (ga gb : Fin 16) (pos len : Fin 32) (s : State) : Outcome :=
  .next (aluI t 0x0B ga gb (pos.val + 32 * len.val + 0) (extU pos (len.val + 1)) s)
/-- The meaning of EXTS (BITF kind 1); `len` is the length less one. -/
def execExts (t : Fin 24) (ga gb : Fin 16) (pos len : Fin 32) (s : State) : Outcome :=
  .next (aluI t 0x0B ga gb (pos.val + 32 * len.val + 1024) (extS pos (len.val + 1)) s)
/-- The meaning of INS (BITF kind 2). -/
def execIns (t : Fin 24) (ga gb : Fin 16) (pos len : Fin 32) (s : State) : Outcome :=
  .next (issue t (encI 0x0B ga gb (pos.val + 32 * len.val + 2048)) false
    (fun x => result t ga (insF pos (len.val + 1) (x.get ga) (x.get gb)) false) s)
/-- The meaning of SATG; n = 0 is reserved. -/
def execSatg (t : Fin 24) (ga gb : Fin 16) (n : Fin 32) (u : Bool) (s : State) : Outcome :=
  .next (issue t (encI 0x0C ga gb (n.val + if u then 32 else 0)) false (fun x =>
    let r := satTo n u (x.get gb)
    result t ga r.1 r.2) s)

end Sys2Proof.Machine
end

