-- ==== Sys2Proof/Machine/Dispatch.lean ====
section
/-!
DEFINITION. Sys2Proof/Machine/Dispatch.lean: one arm per command, each one call of its meaning.
-/
namespace Sys2Proof.Machine

/-- The meaning of a command, on everything but the queue. -/
def exec (i : Instr) (s : State) : Host.Outcome State Fault Refusal :=
  match i with
  | .registerWrite m a v => Sys2Proof.Machine.execRegisterWrite m a v s
  | .widePairRead m a => Sys2Proof.Machine.execWidePairRead m a s
  | .latchExpiry r => Sys2Proof.Machine.execLatchExpiry r s
  | .writeStage m a v => Sys2Proof.Machine.execWriteStage m a v s
  | .widePairCommit m a v => Sys2Proof.Machine.execWidePairCommit m a v s
  | .stageExpiry r => Sys2Proof.Machine.execStageExpiry r s
  | .stageBegin persist total digest => Sys2Proof.Machine.execStageBegin persist total digest s
  | .stageData offset d => Sys2Proof.Machine.execStageData offset d s
  | .inventoryVerifyDone => Sys2Proof.Machine.execInventoryVerifyDone s
  | .stageArm epoch instant => Sys2Proof.Machine.execStageArm epoch instant s
  | .stageCancel => Sys2Proof.Machine.execStageCancel s
  | .revert => Sys2Proof.Machine.execRevert s
  | .epochTick => Sys2Proof.Machine.execEpochTick s
  | .revertDecision => Sys2Proof.Machine.execRevertDecision s
  | .revertInstant => Sys2Proof.Machine.execRevertInstant s
  | .revertTick => Sys2Proof.Machine.execRevertTick s
  | .lateRevertTick => Sys2Proof.Machine.execLateRevertTick s
  | .beaconSend => Sys2Proof.Machine.execBeaconSend s
  | .beaconReceive mac fp epoch flags eighth => Sys2Proof.Machine.execBeaconReceive mac fp epoch flags eighth s
  | .peerMissing p => Sys2Proof.Machine.execPeerMissing p s
  | .watchCheck count => Sys2Proof.Machine.execWatchCheck count s
  | .monitorGate edges links watch trim est => Sys2Proof.Machine.execMonitorGate edges links watch trim est s
  | .missingEdge src => Sys2Proof.Machine.execMissingEdge src s
  | .sourceDecision => Sys2Proof.Machine.execSourceDecision s
  | .revertHoldoff => Sys2Proof.Machine.execRevertHoldoff s
  | .clkSelect m v => Sys2Proof.Machine.execClkSelect m v s
  | .referenceSwitchDone => Sys2Proof.Machine.execReferenceSwitchDone s
  | .deadswitch => Sys2Proof.Machine.execDeadswitch s
  | .glideEnd => Sys2Proof.Machine.execGlideEnd s
  | .periodMeasure period => Sys2Proof.Machine.execPeriodMeasure period s
  | .clockFaultHold => Sys2Proof.Machine.execClockFaultHold s
  | .holdTimeout => Sys2Proof.Machine.execHoldTimeout s
  | .syncReceive port eighth origin corr cum interval seqId => Sys2Proof.Machine.execSyncReceive port eighth origin corr cum interval seqId s
  | .syncTimeout => Sys2Proof.Machine.execSyncTimeout s
  | .announceReceive p vec interval => Sys2Proof.Machine.execAnnounceReceive p vec interval s
  | .announceReceiptTimeout p => Sys2Proof.Machine.execAnnounceReceiptTimeout p s
  | .syncSend p => Sys2Proof.Machine.execSyncSend p s
  | .pdelayReqSend p => Sys2Proof.Machine.execPdelayReqSend p s
  | .pdelayReq at_ seq => Sys2Proof.Machine.execPdelayReq at_ seq s
  | .pdelayRespReceive p eighth seq t2 t3 => Sys2Proof.Machine.execPdelayRespReceive p eighth seq t2 t3 s
  | .ttSlewAmount m v => Sys2Proof.Machine.execTtSlewAmount m v s
  | .ttStep m amount => Sys2Proof.Machine.execTtStep m amount s
  | .haStateWrite m code => Sys2Proof.Machine.execHaStateWrite m code s
  | .snapGo m n v => Sys2Proof.Machine.execSnapGo m n v s
  | .add t ga gb gc => Sys2Proof.Machine.execAdd t ga gb gc s
  | .sub t ga gb gc => Sys2Proof.Machine.execSub t ga gb gc s
  | .and t ga gb gc => Sys2Proof.Machine.execAnd t ga gb gc s
  | .or t ga gb gc => Sys2Proof.Machine.execOr t ga gb gc s
  | .xor t ga gb gc => Sys2Proof.Machine.execXor t ga gb gc s
  | .andn t ga gb gc => Sys2Proof.Machine.execAndn t ga gb gc s
  | .slt t ga gb gc => Sys2Proof.Machine.execSlt t ga gb gc s
  | .sltu t ga gb gc => Sys2Proof.Machine.execSltu t ga gb gc s
  | .shl t ga gb gc => Sys2Proof.Machine.execShl t ga gb gc s
  | .shr t ga gb gc => Sys2Proof.Machine.execShr t ga gb gc s
  | .sar t ga gb gc => Sys2Proof.Machine.execSar t ga gb gc s
  | .ror t ga gb gc => Sys2Proof.Machine.execRor t ga gb gc s
  | .min t ga gb gc => Sys2Proof.Machine.execMin t ga gb gc s
  | .max t ga gb gc => Sys2Proof.Machine.execMax t ga gb gc s
  | .minu t ga gb gc => Sys2Proof.Machine.execMinu t ga gb gc s
  | .maxu t ga gb gc => Sys2Proof.Machine.execMaxu t ga gb gc s
  | .adds t ga gb gc => Sys2Proof.Machine.execAdds t ga gb gc s
  | .subs t ga gb gc => Sys2Proof.Machine.execSubs t ga gb gc s
  | .clz t ga gb => Sys2Proof.Machine.execClz t ga gb s
  | .addi t ga gb imm => Sys2Proof.Machine.execAddi t ga gb imm s
  | .andi t ga gb imm => Sys2Proof.Machine.execAndi t ga gb imm s
  | .ori t ga gb imm => Sys2Proof.Machine.execOri t ga gb imm s
  | .xori t ga gb imm => Sys2Proof.Machine.execXori t ga gb imm s
  | .slti t ga gb imm => Sys2Proof.Machine.execSlti t ga gb imm s
  | .sltui t ga gb imm => Sys2Proof.Machine.execSltui t ga gb imm s
  | .shiShl t ga gb n => Sys2Proof.Machine.execShiShl t ga gb n s
  | .shiShr t ga gb n => Sys2Proof.Machine.execShiShr t ga gb n s
  | .shiSar t ga gb n => Sys2Proof.Machine.execShiSar t ga gb n s
  | .shiRor t ga gb n => Sys2Proof.Machine.execShiRor t ga gb n s
  | .lui t ga imm => Sys2Proof.Machine.execLui t ga imm s
  | .apc t ga imm => Sys2Proof.Machine.execApc t ga imm s
  | .extu t ga gb pos len => Sys2Proof.Machine.execExtu t ga gb pos len s
  | .exts t ga gb pos len => Sys2Proof.Machine.execExts t ga gb pos len s
  | .ins t ga gb pos len => Sys2Proof.Machine.execIns t ga gb pos len s
  | .satg t ga gb n u => Sys2Proof.Machine.execSatg t ga gb n u s
  | .mul t gb gc => Sys2Proof.Machine.execMul t gb gc s
  | .mulu t gb gc => Sys2Proof.Machine.execMulu t gb gc s
  | .mul16 t gb gc => Sys2Proof.Machine.execMul16 t gb gc s
  | .mac t gb gc => Sys2Proof.Machine.execMac t gb gc s
  | .macu t gb gc => Sys2Proof.Machine.execMacu t gb gc s
  | .msu t gb gc => Sys2Proof.Machine.execMsu t gb gc s
  | .mac16 t gb gc => Sys2Proof.Machine.execMac16 t gb gc s
  | .clra t => Sys2Proof.Machine.execClra t s
  | .lda t gb => Sys2Proof.Machine.execLda t gb s
  | .div t gb gc => Sys2Proof.Machine.execDiv t gb gc s
  | .divu t gb gc => Sys2Proof.Machine.execDivu t gb gc s
  | .mulResult t => Sys2Proof.Machine.execMulResult t s
  | .macResult t => Sys2Proof.Machine.execMacResult t s
  | .divResult t => Sys2Proof.Machine.execDivResult t s
  | .exta t ga shift round => Sys2Proof.Machine.execExta t ga shift round s
  | .mfs t ga n => Sys2Proof.Machine.execMfs t ga n s
  | .mts t ga n => Sys2Proof.Machine.execMts t ga n s
  | .ldw t ga gb imm ecc => Sys2Proof.Machine.execLdw t ga gb imm ecc s
  | .ldh t ga gb imm ecc => Sys2Proof.Machine.execLdh t ga gb imm ecc s
  | .ldhu t ga gb imm ecc => Sys2Proof.Machine.execLdhu t ga gb imm ecc s
  | .ldb t ga gb imm ecc => Sys2Proof.Machine.execLdb t ga gb imm ecc s
  | .ldbu t ga gb imm ecc => Sys2Proof.Machine.execLdbu t ga gb imm ecc s
  | .stw t ga gb imm ecc => Sys2Proof.Machine.execStw t ga gb imm ecc s
  | .sth t ga gb imm ecc => Sys2Proof.Machine.execSth t ga gb imm ecc s
  | .stb t ga gb imm ecc => Sys2Proof.Machine.execStb t ga gb imm ecc s
  | .ldxw t ga gb gc sh ecc => Sys2Proof.Machine.execLdxw t ga gb gc sh ecc s
  | .ldxh t ga gb gc sh ecc => Sys2Proof.Machine.execLdxh t ga gb gc sh ecc s
  | .ldxhu t ga gb gc sh ecc => Sys2Proof.Machine.execLdxhu t ga gb gc sh ecc s
  | .ldxb t ga gb gc sh ecc => Sys2Proof.Machine.execLdxb t ga gb gc sh ecc s
  | .ldxbu t ga gb gc sh ecc => Sys2Proof.Machine.execLdxbu t ga gb gc sh ecc s
  | .stxw t ga gb gc sh ecc => Sys2Proof.Machine.execStxw t ga gb gc sh ecc s
  | .stxh t ga gb gc sh ecc => Sys2Proof.Machine.execStxh t ga gb gc sh ecc s
  | .stxb t ga gb gc sh ecc => Sys2Proof.Machine.execStxb t ga gb gc sh ecc s
  | .inp t ga gb imm => Sys2Proof.Machine.execIn t ga gb imm s
  | .out t ga gb imm => Sys2Proof.Machine.execOut t ga gb imm s
  | .loadDataReturn t ecc waited => Sys2Proof.Machine.execLoadDataReturn t ecc waited s
  | .postedWriteComplete t ecc waited fab => Sys2Proof.Machine.execPostedWriteComplete t ecc waited fab s
  | .beq t ga gb imm => Sys2Proof.Machine.execBeq t ga gb imm s
  | .bne t ga gb imm => Sys2Proof.Machine.execBne t ga gb imm s
  | .blt t ga gb imm => Sys2Proof.Machine.execBlt t ga gb imm s
  | .bge t ga gb imm => Sys2Proof.Machine.execBge t ga gb imm s
  | .bltu t ga gb imm => Sys2Proof.Machine.execBltu t ga gb imm s
  | .bgeu t ga gb imm => Sys2Proof.Machine.execBgeu t ga gb imm s
  | .dbnz t ga imm => Sys2Proof.Machine.execDbnz t ga imm s
  | .jal t off => Sys2Proof.Machine.execJal t off s
  | .j t off => Sys2Proof.Machine.execJ t off s
  | .jr t gb => Sys2Proof.Machine.execJr t gb s
  | .jalr t ga gb => Sys2Proof.Machine.execJalr t ga gb s
  | .nop t => Sys2Proof.Machine.execNop t s
  | .sync t => Sys2Proof.Machine.execSync t s
  | .wait t => Sys2Proof.Machine.execWait t s
  | .eret t ecc => Sys2Proof.Machine.execEret t ecc s
  | .trap t n => Sys2Proof.Machine.execTrap t n s
  | .brk t => Sys2Proof.Machine.execBrk t s
  | .ei t => Sys2Proof.Machine.execEi t s
  | .di t => Sys2Proof.Machine.execDi t s
  | .wcall t n => Sys2Proof.Machine.execWcall t n s
  | .wret t => Sys2Proof.Machine.execWret t s
  | .cinv t gb => Sys2Proof.Machine.execCinv t gb s
  | .cinva t => Sys2Proof.Machine.execCinva t s
  | .bmov t ga gb gc width => Sys2Proof.Machine.execBmov t ga gb gc width s
  | .bfil t ga gb gc width => Sys2Proof.Machine.execBfil t ga gb gc width s
  | .bcrc t ga gb gc poly => Sys2Proof.Machine.execBcrc t ga gb gc poly s
  | .bcmp t ga gb gc width => Sys2Proof.Machine.execBcmp t ga gb gc width s
  | .bdot t ga gb gc => Sys2Proof.Machine.execBdot t ga gb gc s
  | .longElement t e1 e2 waited => Sys2Proof.Machine.execLongElement t e1 e2 waited s
  | .icacheMissFill t ecc => Sys2Proof.Machine.execIcacheMissFill t ecc s
  | .eventEntry t bad => Sys2Proof.Machine.execEventEntry t bad s
  | .lockupTileReset t => Sys2Proof.Machine.execLockupTileReset t s
  | .tileResetRelease t => Sys2Proof.Machine.execTileResetRelease t s
  | .holdOverrun t => Sys2Proof.Machine.execHoldOverrun t s
  | .wakeTimeout m => Sys2Proof.Machine.execWakeTimeout m s
  | .evcCfg m t e v => Sys2Proof.Machine.execEvcCfg m t e v s
  | .clearEmerg m t => Sys2Proof.Machine.execClearEmerg m t s
  | .omtTxGo t w => Sys2Proof.Machine.execOmtTxGo t w s
  | .messageArrival t w id k fabric => Sys2Proof.Machine.execMessageArrival t w id k fabric s
  | .queueFull t w id => Sys2Proof.Machine.execQueueFull t w id s
  | .messageVisible t w id k => Sys2Proof.Machine.execMessageVisible t w id k s
  | .omtRxPop t w q => Sys2Proof.Machine.execOmtRxPop t w q s
  | .omtNackPop t w => Sys2Proof.Machine.execOmtNackPop t w s
  | .resend t w c n gen => Sys2Proof.Machine.execResend t w c n gen s
  | .discard t w c n => Sys2Proof.Machine.execDiscard t w c n s
  | .voteWrite t g p v => Sys2Proof.Machine.execVoteWrite t g p v s
  | .voteWriteArrival g c p tag k => Sys2Proof.Machine.execVoteWriteArrival g c p tag k s
  | .finalize g c p tag => Sys2Proof.Machine.execFinalize g c p tag s
  | .verdictReceive g c p tag => Sys2Proof.Machine.execVerdictReceive g c p tag s
  | .votePortCfg t g p aux w v => Sys2Proof.Machine.execVotePortCfg t g p aux w v s
  | .cfgVoteTimeout g p aux => Sys2Proof.Machine.execCfgVoteTimeout g p aux s
  | .release g => Sys2Proof.Machine.execRelease g s
  | .lock g => Sys2Proof.Machine.execLock g s
  | .goSafe g => Sys2Proof.Machine.execGoSafe g s
  | .ckptDue g k => Sys2Proof.Machine.execCkptDue g k s
  | .memberFaultReport t => Sys2Proof.Machine.execMemberFaultReport t s
  | .copyComplete g => Sys2Proof.Machine.execCopyComplete g s
  | .spareRelease g => Sys2Proof.Machine.execSpareRelease g s
  | .hostTimeout g p => Sys2Proof.Machine.execHostTimeout g p s
  | .voteTakeover m g v => Sys2Proof.Machine.execVoteTakeover m g v s
  | .votedFrameRead g => Sys2Proof.Machine.execVotedFrameRead g s
  | .bankStateReq m b v => Sys2Proof.Machine.execBankStateReq m b v s
  | .bankEntryDone b => Sys2Proof.Machine.execBankEntryDone b s
  | .bankWakeDone b => Sys2Proof.Machine.execBankWakeDone b s
  | .confClear m b => Sys2Proof.Machine.execConfClear m b s
  | .deepExitGroup => Sys2Proof.Machine.execDeepExitGroup s
  | .eccWriteback u => Sys2Proof.Machine.execEccWriteback u s
  | .vaultWipe cause => Sys2Proof.Machine.execVaultWipe cause s
  | .vaultWipeDone => Sys2Proof.Machine.execVaultWipeDone s
  | .wipe m => Sys2Proof.Machine.execWipe m s
  | .mramLineWrite => Sys2Proof.Machine.execMramLineWrite s
  | .dmaGo m d => Sys2Proof.Machine.execDmaGo m d s
  | .disable m d inflight => Sys2Proof.Machine.execDisable m d inflight s
  | .resume m d => Sys2Proof.Machine.execResume m d s
  | .clear m d => Sys2Proof.Machine.execClear m d s
  | .restart m c => Sys2Proof.Machine.execRestart m c s
  | .channelStart d => Sys2Proof.Machine.execChannelStart d s
  | .paceLatch d issued => Sys2Proof.Machine.execPaceLatch d issued s
  | .chLevel m d v => Sys2Proof.Machine.execChLevel m d v s
  | .listFetch d dst ecc waited fab => Sys2Proof.Machine.execListFetch d dst ecc waited fab s
  | .beatComplete d eccR eccW waitR waitW fab late => Sys2Proof.Machine.execBeatComplete d eccR eccW waitR waitW fab late s
  | .disableStopPoint d => Sys2Proof.Machine.execDisableStopPoint d s
  | .adcEnable m c x v => Sys2Proof.Machine.execAdcEnable m c x v s
  | .adcDisable m c x v => Sys2Proof.Machine.execAdcDisable m c x v s
  | .adcGo m c x => Sys2Proof.Machine.execAdcGo m c x s
  | .flush m c x => Sys2Proof.Machine.execFlush m c x s
  | .adcTtTrigger c x => Sys2Proof.Machine.execAdcTtTrigger c x s
  | .conversionComplete c x vinA vinB => Sys2Proof.Machine.execConversionComplete c x vinA vinB s
  | .adcFifoRead m c x => Sys2Proof.Machine.execAdcFifoRead m c x s
  | .edgeEnable m c k v => Sys2Proof.Machine.execEdgeEnable m c k v s
  | .edgeDisable m c k v => Sys2Proof.Machine.execEdgeDisable m c k v s
  | .arm m c k => Sys2Proof.Machine.execArm m c k s
  | .disarm m c k => Sys2Proof.Machine.execDisarm m c k s
  | .forceActive m c k => Sys2Proof.Machine.execForceActive m c k s
  | .forceInactive m c k => Sys2Proof.Machine.execForceInactive m c k s
  | .syncTt m c k => Sys2Proof.Machine.execSyncTt m c k s
  | .clrOvr m c k => Sys2Proof.Machine.execClrOvr m c k s
  | .edgCmp m c k v => Sys2Proof.Machine.execEdgCmp m c k v s
  | .edgCnt m c k v => Sys2Proof.Machine.execEdgCnt m c k v s
  | .edgSync m c v => Sys2Proof.Machine.execEdgSync m c v s
  | .compareFire c k => Sys2Proof.Machine.execCompareFire c k s
  | .dutyLoad c k => Sys2Proof.Machine.execDutyLoad c k s
  | .cycleStart c k => Sys2Proof.Machine.execCycleStart c k s
  | .pwmTransition c k t => Sys2Proof.Machine.execPwmTransition c k t s
  | .capture c k falling cross t0 => Sys2Proof.Machine.execCapture c k falling cross t0 s
  | .edgCapPop m c k => Sys2Proof.Machine.execEdgCapPop m c k s
  | .frameHeaderReceive p d => Sys2Proof.Machine.execFrameHeaderReceive p d s
  | .frameReceive p d fcs => Sys2Proof.Machine.execFrameReceive p d fcs s
  | .transmitSelect p => Sys2Proof.Machine.execTransmitSelect p s
  | .transmitDone p => Sys2Proof.Machine.execTransmitDone p s
  | .gateEntry p => Sys2Proof.Machine.execGateEntry p s
  | .fdbAgeing set way => Sys2Proof.Machine.execFdbAgeing set way s
  | .lookup m => Sys2Proof.Machine.execLookup m s
  | .insert m => Sys2Proof.Machine.execInsert m s
  | .delete m => Sys2Proof.Machine.execDelete m s
  | .flushDynamic m => Sys2Proof.Machine.execFlushDynamic m s
  | .flushPort m p => Sys2Proof.Machine.execFlushPort m p s
  | .fdbDone => Sys2Proof.Machine.execFdbDone s
  | .learnNotifyRead r hi => Sys2Proof.Machine.execLearnNotifyRead r hi s
  | .linkChange p up speed => Sys2Proof.Machine.execLinkChange p up speed s
  | .frerReset r => Sys2Proof.Machine.execFrerReset r s
  | .ttdpHelloSend => Sys2Proof.Machine.execTtdpHelloSend s
  | .ttdpTimeout p => Sys2Proof.Machine.execTtdpTimeout p s
  | .bootStatusSend => Sys2Proof.Machine.execBootStatusSend s
  | .txDoorbell m t v => Sys2Proof.Machine.execTxDoorbell m t v s
  | .rxTail m t v => Sys2Proof.Machine.execRxTail m t v s
  | .busEnable m u v => Sys2Proof.Machine.execBusEnable m u v s
  | .busDisable m u v wire => Sys2Proof.Machine.execBusDisable m u v wire s
  | .busStop u => Sys2Proof.Machine.execBusStop u s
  | .rxFifoPop u => Sys2Proof.Machine.execRxFifoPop u s
  | .txFifoWrite m u v => Sys2Proof.Machine.execTxFifoWrite m u v s
  | .canTxReq m n v => Sys2Proof.Machine.execCanTxReq m n v s
  | .canTxCancel m n v wire => Sys2Proof.Machine.execCanTxCancel m n v wire s
  | .canFrameReceive n w0 w1 start data rec => Sys2Proof.Machine.execCanFrameReceive n w0 w1 start data rec s
  | .canFrameEnd n b result tec rec at_ => Sys2Proof.Machine.execCanFrameEnd n b result tec rec at_ s
  | .busOffRecovery n => Sys2Proof.Machine.execBusOffRecovery n s
  | .mvbMasterFrame m addr f line => Sys2Proof.Machine.execMvbMasterFrame m addr f line s
  | .mvbSlaveReply m => Sys2Proof.Machine.execMvbSlaveReply m s
  | .mvbSinkReceive m ws ok => Sys2Proof.Machine.execMvbSinkReceive m ws ok s
  | .mvbSourceCommit mas m p v => Sys2Proof.Machine.execMvbSourceCommit mas m p v s
  | .mvbSinkRead r m p => Sys2Proof.Machine.execMvbSinkRead r m p s
  | .mvbAdminCmd mas m v => Sys2Proof.Machine.execMvbAdminCmd mas m v s
  | .mvbAdminTimeout m => Sys2Proof.Machine.execMvbAdminTimeout m s
  | .uartCharacter n sent c parity framing brk => Sys2Proof.Machine.execUartCharacter n sent c parity framing brk s
  | .uartIdle n => Sys2Proof.Machine.execUartIdle n s
  | .spiWord n w last => Sys2Proof.Machine.execSpiWord n w last s
  | .i2cCmd m n v => Sys2Proof.Machine.execI2cCmd m n v s
  | .i2cTransferDone n result sent got => Sys2Proof.Machine.execI2cTransferDone n result sent got s
  | .stretchTimeout n => Sys2Proof.Machine.execStretchTimeout n s
  | .ownerDecision n serial => Sys2Proof.Machine.execOwnerDecision n serial s
  | .takeover n => Sys2Proof.Machine.execTakeover n s
  | .safeIntervalStart n => Sys2Proof.Machine.execSafeIntervalStart n s
  | .gpioSet m b v => Sys2Proof.Machine.execGpioSet m b v s
  | .gpioClr m b v => Sys2Proof.Machine.execGpioClr m b v s
  | .gpioTgl m b v => Sys2Proof.Machine.execGpioTgl m b v s
  | .gpioDir m b v => Sys2Proof.Machine.execGpioDir m b v s
  | .inputChange n level t0 => Sys2Proof.Machine.execInputChange n level t0 s
  | .supplyMeasure b absent v18 => Sys2Proof.Machine.execSupplyMeasure b absent v18 s
  | .tamperTrip x level cycles => Sys2Proof.Machine.execTamperTrip x level cycles s
  | .domainRequest m d v => Sys2Proof.Machine.execDomainRequest m d v s
  | .domainOffDone d => Sys2Proof.Machine.execDomainOffDone d s
  | .domainWakeDone d => Sys2Proof.Machine.execDomainWakeDone d s
  | .tileReloadDone t => Sys2Proof.Machine.execTileReloadDone t s
  | .dozeEntry t => Sys2Proof.Machine.execDozeEntry t s
  | .dozeWake t => Sys2Proof.Machine.execDozeWake t s
  | .drizzle m => Sys2Proof.Machine.execDrizzle m s
  | .cellar m => Sys2Proof.Machine.execCellar m s
  | .cancel m => Sys2Proof.Machine.execCancel m s
  | .noticeEnd => Sys2Proof.Machine.execNoticeEnd s
  | .mramFlushPoint => Sys2Proof.Machine.execMramFlushPoint s
  | .domainShutdownPoint => Sys2Proof.Machine.execDomainShutdownPoint s
  | .lowPowerEntryDone => Sys2Proof.Machine.execLowPowerEntryDone s
  | .drizzleTick => Sys2Proof.Machine.execDrizzleTick s
  | .drizzleResult vin => Sys2Proof.Machine.execDrizzleResult vin s
  | .drizzleCycleEnd => Sys2Proof.Machine.execDrizzleCycleEnd s
  | .wakeTimer => Sys2Proof.Machine.execWakeTimer s
  | .wake src => Sys2Proof.Machine.execWake src s
  | .histClear m => Sys2Proof.Machine.execHistClear m s
  | .powerOnReset => Sys2Proof.Machine.execPowerOnReset s
  | .powerOnResetRelease => Sys2Proof.Machine.execPowerOnResetRelease s
  | .supwarn => Sys2Proof.Machine.execSupwarn s
  | .romStart => Sys2Proof.Machine.execRomStart s
  | .records bad fails => Sys2Proof.Machine.execRecords bad fails s
  | .slotSelect bad => Sys2Proof.Machine.execSlotSelect bad s
  | .firmware bad => Sys2Proof.Machine.execFirmware bad s
  | .persist => Sys2Proof.Machine.execPersist s
  | .inventory bad => Sys2Proof.Machine.execInventory bad s
  | .tileLoad bad => Sys2Proof.Machine.execTileLoad bad s
  | .measure bad => Sys2Proof.Machine.execMeasure bad s
  | .verdictTimeout => Sys2Proof.Machine.execVerdictTimeout s
  | .thaw => Sys2Proof.Machine.execThaw s
  | .postThawRecords => Sys2Proof.Machine.execPostThawRecords s
  | .thawGo m => Sys2Proof.Machine.execThawGo m s
  | .programImageKey m k blown => Sys2Proof.Machine.execProgramImageKey m k blown s
  | .installCommandKey m k => Sys2Proof.Machine.execInstallCommandKey m k s
  | .enterFactory m blown => Sys2Proof.Machine.execEnterFactory m blown s
  | .hostAccess bar write x n v e waited => Sys2Proof.Machine.execHostAccess bar write x n v e waited s
  | .hostSpiTransaction op a n ws es => Sys2Proof.Machine.execHostSpiTransaction op a n ws es s
  | .perstN => Sys2Proof.Machine.execPerstN s
  | .msiXMessage v => Sys2Proof.Machine.execMsiXMessage v s
  | .hostFqTxGo m v => Sys2Proof.Machine.execHostFqTxGo m v s
  | .hostFqRxLen => Sys2Proof.Machine.execHostFqRxLen s
  | .hostCmdDoorbell m v => Sys2Proof.Machine.execHostCmdDoorbell m v s
  | .commandExecute recOk blown bad => Sys2Proof.Machine.execCommandExecute recOk blown bad s
  | .ladder rung f => Sys2Proof.Machine.execLadder rung f s
  | .slotOpen x => Sys2Proof.Machine.execSlotOpen x s
  | .slotData off d => Sys2Proof.Machine.execSlotData off d s
  | .slotActivate x adv bind bad => Sys2Proof.Machine.execSlotActivate x adv bind bad s
  | .keyRevoke k blown => Sys2Proof.Machine.execKeyRevoke k blown s
  | .lifecycle b blown => Sys2Proof.Machine.execLifecycle b blown s
  | .debugUnlock => Sys2Proof.Machine.execDebugUnlock s
  | .splitOverride f v => Sys2Proof.Machine.execSplitOverride f v s
  | .verdictOverride g v => Sys2Proof.Machine.execVerdictOverride g v s
  | .edgeOverride e op v => Sys2Proof.Machine.execEdgeOverride e op v s
  | .gpioOverride b op v => Sys2Proof.Machine.execGpioOverride b op v s
  | .bootVerdict nonce h3 v => Sys2Proof.Machine.execBootVerdict nonce h3 v s
  | .statusQuery => Sys2Proof.Machine.execStatusQuery s
  | .recoveryWrite x off d => Sys2Proof.Machine.execRecoveryWrite x off d s
  | .recoveryCommit x bad => Sys2Proof.Machine.execRecoveryCommit x bad s
  | .reInit f => Sys2Proof.Machine.execReInit f s
  | .functionIdle f => Sys2Proof.Machine.execFunctionIdle f s
  | .deviceReset => Sys2Proof.Machine.execDeviceReset s
  | .powerCycle => Sys2Proof.Machine.execPowerCycle s
  | .squallWindowClose n => Sys2Proof.Machine.execSquallWindowClose n s
  | .stableRun => Sys2Proof.Machine.execStableRun s
  | .clearLog m => Sys2Proof.Machine.execClearLog m s
  | .wdtService m t v => Sys2Proof.Machine.execWdtService m t v s
  | .wdtLate t => Sys2Proof.Machine.execWdtLate t s
  | .wdtBackstop t => Sys2Proof.Machine.execWdtBackstop t s
  | .fnStall f => Sys2Proof.Machine.execFnStall f s
  | .undefinedInstruction t w => Sys2Proof.Machine.execUndefinedInstruction t w s
  | .announceSend p => Sys2Proof.Machine.execAnnounceSend p s
  | .supwarnRelease => Sys2Proof.Machine.execSupwarnRelease s
  | .perstNRelease width rate => Sys2Proof.Machine.execPerstNRelease width rate s
  | .loopLossOfLock => Sys2Proof.Machine.execLoopLossOfLock s
  | .mvbPortLatchExpiry r m => Sys2Proof.Machine.execMvbPortLatchExpiry r m s
  | .mvbAdminReply m ws => Sys2Proof.Machine.execMvbAdminReply m ws s
  | .omtTxDone t w => Sys2Proof.Machine.execOmtTxDone t w s
  | .hostFqRxData => Sys2Proof.Machine.execHostFqRxData s
  | .hostAccAddrRead m => Sys2Proof.Machine.execHostAccAddrRead m s
  | .debugAccess write data a n v e waited => Sys2Proof.Machine.execDebugAccess write data a n v e waited s
  | .i2cTargetRequest n read got => Sys2Proof.Machine.execI2cTargetRequest n read got s

end Sys2Proof.Machine
end

