-- ==== Sys2Proof/Machine/Tick.lean ====
section
/-!
DEFINITION. Sys2Proof/Machine/Tick.lean: one edge of the core clock, with what happens on it whatever is commanded (log 10): train time
(R74), the spread and the glide (R49, R60), edge-unit counters (R240), converters, captures, expiry counts, bank and domain entries,
released outputs and safe actions, and each tile's pipelines.
-/
namespace Sys2Proof.Machine

/-- The core clock has edges: the core domain is on, the ring or a reference drives it, and it is not held (R48, R67). -/
def clocked (s : State) : Bool :=
  coreOn s && !(s.get CLK_STATUS.mode == mSTART && s.get CLK_RING.state == 0)
/-- R87: a tile's expiry counts advance on edges on which the tile executes at their priority; other readers' on every edge. -/
def readerCounts (s : State) : Reader → Bool
  | .tile t p => runs s t && !(s.tileOf t).held && priIx (s.tileOf t).pri == p.val
  | _ => true
/-- One edge of the core clock. -/
def tick (s : State) : State :=
  if !clocked s then s
  else
    let before := s.now
    let s := edgeLoads (adcTake s)
    let s := ttCycle (s.withClk { s.clk with edges := s.clk.edges + 1 })
    let s := keeperCycle (voteCycle (edgeCycle ((s.now + 2 ^ 64 - before) % 2 ^ 64) s))
    let s := glideCycle (spreadCycle s)
    let s := snapCapture 3 (snapCapture 2 (snapCapture 1 (snapCapture 0 (adcCycle s))))
    let s := mvbCycle (ageLatches (readerCounts s) s)
    let s := domCycle (bankCycle s)
    mailboxRun (fnWatch (gateCycle <| fallbackDiscard (s.forEach (List.range 24) tileEdge)))

end Sys2Proof.Machine
end

