-- ==== Sys2Proof/Safety.lean ====
section
/-!
DEFINITION. Sys2Proof/Safety.lean: the terms the claims are stated in: what it is for a command to complete, what a step leaves
unchanged, the invariant of the machine, and when a tile may issue an instruction.
-/
namespace Sys2Proof.Machine

/-- Command `c` completes at `s`: it answers a next state, and `P` holds of that state. -/
def Completes (c : Instr) (s : State) (P : State → Prop) : Prop := ∃ t, exec c s = .next t ∧ P t

/-- Only the registers at the listed addresses may differ between `s` and `t`. -/
def OnlyRegs (l : List Nat) (s t : State) : Prop := ∀ a, a ∉ l → t.reg a = s.reg a

/-- `t` is `s` but for registers, of which only those at the listed addresses may differ. -/
def RegsOnly (l : List Nat) (s t : State) : Prop := OnlyRegs l s t ∧ { t with io := s.io } = s

/-- The invariant of the machine: its two sparse maps are in canonical form. -/
def Inv (s : State) : Prop := Regs.wf s.io ∧ Memory.wf s.mem

/-! ### Tiles -/

/-- Tile `t` issues on this edge and fetches the word at its PC (R92, R104, R126). -/
def Ready (s : State) (t : Nat) : Prop := canIssue s t = true ∧ fetchAt s t = .ok

/-- A tile on the edge of issue: a handler's hold window is loaded for its first instruction (R128). -/
def edged (x : Tile) : Tile := { x with hold := if x.holdNext != 0 then x.holdNext else x.hold, holdNext := 0 }

/-- The instruction completes: PC moves on by 4, and lx ends (R112). -/
def done (x : Tile) : Tile := { x with pc := x.pc + 4, wst := x.wst &&& 0xFFF7FFFF, woa := none }

/-- The instruction completes with `v` in general register `g`. -/
def wrote (g : Fin 16) (v : Word) (x : Tile) : Tile := done (x.put g v)

/-- WST.sat is set where `b` holds (R100, R102). -/
def satIf (b : Bool) (x : Tile) : Tile := { x with wst := if b then x.wst ||| 0x40000 else x.wst }

/-- The instruction completes and goes on at `pc`. -/
def jumped (pc : Word) (x : Tile) : Tile := { x with pc := pc, wst := x.wst &&& 0xFFF7FFFF, woa := none }

/-- A tile but for the lines its instruction cache holds. -/
def Tile.bare (x : Tile) : Tile := { x with icache := [] }

/-- From `s` to `s'` tile `t` alone changes, as `f` says from its edge of issue, but for the order of its cache lines and the
count of cache hits. -/
def TileStep (t : Nat) (f : Tile → Tile) (s s' : State) : Prop :=
  (s'.tileOf t).bare = (f (edged (s.tileOf t))).bare ∧
  (∀ u, u ≠ t → s'.tileOf u = s.tileOf u) ∧ OnlyRegs [ICACHE_HITS t] s s' ∧ { s' with io := s.io, tiles := s.tiles } = s

/-- Instruction `c` of tile `t` completes with the effect `f` on its tile and no other. -/
def Runs (c : Instr) (t : Nat) (f : Tile → Tile) (s : State) : Prop := Completes c s (TileStep t f s)

/-! ### Exception entry and return -/

/-- The supervisor stack pointer of the tile's present world (R95). -/
def Tile.ssp (x : Tile) : Nat := (atD x.sp (2 * x.world + 1) 0).toNat

/-- The supervisor stack of tile `t`'s world `w` at `sp` takes a frame (R131), lies in its own data TCM, which no power transition
holds and whose words there are good, and no spare mirrors the tile. -/
def StackReady (s : State) (t w sp : Nat) : Prop :=
  stackCheck s t w sp = none ∧ 16 ≤ sp ∧ sp ≤ 0x40000 ∧ domOn s (domTile t) = true ∧ domHeld s (domTile t) = false ∧
  wordKey (dtcmKey t + (sp - 16)) ∉ s.memh.bad ∧ wordKey (dtcmKey t + (sp - 8)) ∉ s.memh.bad ∧ mirrorOf s t = none

/-- The frame of R131 stands at offset `a` of tile `t`'s data TCM, and every byte outside it is as in `s`. -/
def FrameAt (t a : Nat) (epc wst prog esr : Word) (s s' : State) : Prop :=
  s'.load (dtcmKey t + a + 12) 4 = epc.toNat ∧ s'.load (dtcmKey t + a + 8) 4 = wst.toNat ∧
  s'.load (dtcmKey t + a + 4) 4 = prog.toNat ∧ s'.load (dtcmKey t + a) 4 = esr.toNat ∧
  ∀ k, (k < dtcmKey t + a ∨ dtcmKey t + a + 16 ≤ k) → s'.byte k = s.byte k

/-- A synchronous exception `vec` with detail `detail` of the instruction `word` may enter at tile `t`: the depth is not full, the
stack takes the frame, and the vector entry can be read and lies in no line found uncorrectable (R127, R130, R131). -/
def CanEnter (t vec : Nat) (s : State) : Prop :=
  let x := s.tileOf t
  x.syncDepth ≠ 255 ∧ StackReady s t x.world x.ssp ∧ (readVector s t x.world vec).isSome ∧ vectorBad s t x.world vec = false

/-- Tile `t` has entered synchronous exception `vec` (R130, R131; Tables EXC-3 to EXC-5): PC at its vector's handler, EPC, ESR and
EINST as given, supervisor level of the same world and priority with ie kept (clear for STACK) and the sticky flags clear, the frame written and SP
below it, the sync depth one more, and general registers, result registers and other tiles as before. -/
def Entered (t vec detail : Nat) (word epc : Word) (s s' : State) : Prop :=
  let x := s.tileOf t
  let y := s'.tileOf t
  let w := x.world
  let old : Word := if vec = 2 then x.wst &&& 0xFFF7FFFF else x.wst
  let esr : Word := BitVec.ofNat 32 (vec + 65536 * detail + (if x.sup then 0 else 2 ^ 24) + 2 ^ 25 * w)
  (∃ h hold, readVector s t w vec = some (h, hold) ∧ y.pc = BitVec.ofNat 32 h) ∧
  y.epc = epc ∧ y.esr = esr ∧ y.einst = word ∧
  y.wst = BitVec.ofNat 32 (1 + 2 * w + (if x.ie = true ∧ vec ≠ 10 then 4 else 0) + 256 * x.pri) ∧
  y.sp = updAt x.sp (2 * w + 1) (· - 16) ∧ y.depth = updAt x.depth (priIx x.pri) (· + 1) ∧
  y.g = x.g ∧ y.res = x.res ∧ y.prog = x.prog ∧ y.gates = x.gates ∧ y.recs = x.recs ∧
  FrameAt t (x.ssp - 16) epc old x.prog esr s s' ∧ (∀ u, u ≠ t → s'.tileOf u = s.tileOf u)

/-- The word at offset `off` of tile `t`'s data TCM has been found uncorrectable: what it holds is open from now on, and every
other byte is as in `s` (R178). -/
def LeftBad (t off : Nat) (s s' : State) : Prop :=
  wordKey (dtcmKey t + off) ∈ s'.memh.bad ∧ ∀ k, wordKey k ≠ wordKey (dtcmKey t + off) → s'.byte k = s.byte k

/-- Load `c`, by its error-correction operand, from the tile's own data TCM: with a good or a corrected word it writes `v` into
general register `g` and completes; a corrected word is noted for its cluster; an uncorrectable one is recorded, logged and
resets the tile (R178, R417). -/
def LoadsFromTcm (c : Fin 3 → Instr) (t : Fin 24) (g : Fin 16) (off : Nat) (v : Word) (s : State) : Prop :=
  Runs (c 0) t (wrote g v) s ∧
  Completes (c 1) s (fun s' => (s'.tileOf t).get g = v ∧ (s'.tileOf t).pc = (s.tileOf t).pc + 4 ∧
    s'.get (CMEM_EVENTS.tcm_corr (t / 4)) = 1 ∧ s'.mem = s.mem) ∧
  Completes (c 2) s (fun s' => s'.get (CMEM_EVENTS.tcm_uncorr (t / 4)) = 1 ∧ s'.regN (TMEM_ERR_ADDR t) = off ∧
    s'.get (TMEM_STATUS.uncorr t) = Nat.min (s.get (TMEM_STATUS.uncorr t) + 1) 255 ∧ (s'.tileOf t).lockup.isSome ∧
    LeftBad t off s s')

/-- Store `c` into the tile's own data TCM at offset `off`: with a good word the `n` bytes there become the low bytes of `v`, every
other byte stays but for the copy in a spare that mirrors the tile (R159), and the instruction completes; into an uncorrectable
word nothing is stored. -/
def StoresToTcm (c : Fin 3 → Instr) (t : Fin 24) (off n : Nat) (v : Word) (s : State) : Prop :=
  Completes (c 0) s (fun s' => s'.load (dtcmKey t + off) n = v.toNat % 2 ^ (8 * n) ∧
    (∀ k, (k < dtcmKey t + off ∨ dtcmKey t + off + n ≤ k) →
      (∀ sp base len, mirrorOf s t = some (sp, base, len) → k < dtcmKey sp + off ∨ dtcmKey sp + off + n ≤ k) → s'.byte k = s.byte k) ∧
    TileStep t done s { s' with mem := s.mem }) ∧
  Completes (c 1) s (fun s' => s'.load (dtcmKey t + off) n = v.toNat % 2 ^ (8 * n) ∧ (s'.tileOf t).pc = (s.tileOf t).pc + 4 ∧
    s'.get (CMEM_EVENTS.tcm_corr (t / 4)) = 1) ∧
  Completes (c 2) s (fun s' => LeftBad t off s s' ∧ s'.get (CMEM_EVENTS.tcm_uncorr (t / 4)) = 1 ∧ (s'.tileOf t).lockup.isSome)

end Sys2Proof.Machine
end

