-- ==== Sys2Proof/Certificates/Slice0/Obligations.lean ====
section
/-!
DEFINITION. Sys2Proof/Certificates/Slice0/Obligations.lean: the statements for the provers.  Each docstring says what its
statement claims and which rules of the spec it rests on.
-/
open Sys2Proof
open Sys2Proof.Machine

/-- A tile that may issue completes each ALU instruction of Table ISA-6 with the result the table gives in G[ga] (SP
banked by world and level), PC + 4, lx cleared, WST.sat set where ADDS or SUBS clamps, and nothing else changed: no
other register of the tile, no other tile, no memory, no I/O register but the tile's cache-hit count. (R99, R100, Table
ISA-6) -/
def Obligations.AluRegisterFormsCompute : Prop :=
  ∀ (s : State) (t : Fin 24) (ga gb gc : Fin 16), Ready s t →
    let a := (s.tileOf t).get gb
    let b := (s.tileOf t).get gc
    let sum : Int := a.toInt + b.toInt
    let dif : Int := a.toInt - b.toInt
    let clampTo : Int → Word := fun i => BitVec.ofInt 32 (max (-2147483648) (min 2147483647 i))
    let clamps : Int → Bool := fun i => decide (i < -2147483648 ∨ 2147483647 < i)
    Runs (.add t ga gb gc) t (wrote ga (a + b)) s ∧
    Runs (.sub t ga gb gc) t (wrote ga (a - b)) s ∧
    Runs (.and t ga gb gc) t (wrote ga (a &&& b)) s ∧
    Runs (.or t ga gb gc) t (wrote ga (a ||| b)) s ∧
    Runs (.xor t ga gb gc) t (wrote ga (a ^^^ b)) s ∧
    Runs (.andn t ga gb gc) t (wrote ga (a &&& ~~~b)) s ∧
    Runs (.slt t ga gb gc) t (wrote ga (if a.slt b then 1 else 0)) s ∧
    Runs (.sltu t ga gb gc) t (wrote ga (if a.ult b then 1 else 0)) s ∧
    Runs (.shl t ga gb gc) t (wrote ga (a <<< (b.toNat % 32))) s ∧
    Runs (.shr t ga gb gc) t (wrote ga (a >>> (b.toNat % 32))) s ∧
    Runs (.sar t ga gb gc) t (wrote ga (a.sshiftRight (b.toNat % 32))) s ∧
    Runs (.ror t ga gb gc) t (wrote ga (a.rotateRight (b.toNat % 32))) s ∧
    Runs (.min t ga gb gc) t (wrote ga (if a.sle b then a else b)) s ∧
    Runs (.max t ga gb gc) t (wrote ga (if a.sle b then b else a)) s ∧
    Runs (.minu t ga gb gc) t (wrote ga (if a.ule b then a else b)) s ∧
    Runs (.maxu t ga gb gc) t (wrote ga (if a.ule b then b else a)) s ∧
    Runs (.adds t ga gb gc) t (fun x => satIf (clamps sum) (wrote ga (clampTo sum) x)) s ∧
    Runs (.subs t ga gb gc) t (fun x => satIf (clamps dif) (wrote ga (clampTo dif) x)) s ∧
    Runs (.clz t ga gb) t (wrote ga (BitVec.ofNat 32 (if a = 0 then 32 else 31 - a.toNat.log2))) s

/-- A tile that may issue completes ADDI, ANDI, ORI, XORI, SLTI, SLTUI, the four SHI shifts, LUI and APC with the result
of Tables ISA-5 and ISA-8 in G[ga], PC + 4 and lx cleared, and nothing else changed. (R99, R100, Table ISA-5, Table
ISA-8) -/
def Obligations.ImmediateFormsCompute : Prop :=
  ∀ (s : State) (t : Fin 24) (ga gb : Fin 16) (imm : BitVec 18) (n : Fin 32), Ready s t →
    let a := (s.tileOf t).get gb
    let sx : Word := imm.signExtend 32
    let zx : Word := imm.zeroExtend 32
    Runs (.addi t ga gb imm) t (wrote ga (a + sx)) s ∧
    Runs (.andi t ga gb imm) t (wrote ga (a &&& zx)) s ∧
    Runs (.ori t ga gb imm) t (wrote ga (a ||| zx)) s ∧
    Runs (.xori t ga gb imm) t (wrote ga (a ^^^ zx)) s ∧
    Runs (.slti t ga gb imm) t (wrote ga (if a.slt sx then 1 else 0)) s ∧
    Runs (.sltui t ga gb imm) t (wrote ga (if a.ult sx then 1 else 0)) s ∧
    Runs (.shiShl t ga gb n) t (wrote ga (a <<< n.val)) s ∧
    Runs (.shiShr t ga gb n) t (wrote ga (a >>> n.val)) s ∧
    Runs (.shiSar t ga gb n) t (wrote ga (a.sshiftRight n.val)) s ∧
    Runs (.shiRor t ga gb n) t (wrote ga (a.rotateRight n.val)) s ∧
    Runs (.lui t ga imm) t (wrote ga (zx <<< 14)) s ∧
    Runs (.apc t ga imm) t (wrote ga ((s.tileOf t).pc + sx * 4)) s

/-- For pos + len at most 32 a tile that may issue completes EXTU, EXTS and INS with the bit field of Table ISA-8 in
G[ga]; for n from 1 to 31 it completes SATG with G[gb] clamped to the signed or unsigned range of n bits and WST.sat set
by the clamp; nothing else changes. The words of the reserved forms (pos + len over 32, n = 0) are undefined words of
R98. (R99, R100, Table ISA-8) -/
def Obligations.BitFieldFormsCompute : Prop :=
  (∀ (s : State) (t : Fin 24) (ga gb : Fin 16) (pos len : Fin 32), Ready s t → pos.val + len.val + 1 ≤ 32 →
    let a := (s.tileOf t).get gb
    let old := (s.tileOf t).get ga
    let field : Nat := a.toNat / 2 ^ pos.val % 2 ^ (len.val + 1)
    Runs (.extu t ga gb pos len) t (wrote ga (BitVec.ofNat 32 field)) s ∧
    Runs (.exts t ga gb pos len) t
      (wrote ga (BitVec.ofInt 32 (if field < 2 ^ len.val then (field : Int) else (field : Int) - 2 ^ (len.val + 1)))) s ∧
    ∃ v : Word, Runs (.ins t ga gb pos len) t (wrote ga v) s ∧
      ∀ i, i < 32 → v.getLsbD i =
        if pos.val ≤ i ∧ i < pos.val + len.val + 1 then a.getLsbD (i - pos.val) else old.getLsbD i) ∧
  (∀ (s : State) (t : Fin 24) (ga gb : Fin 16) (n : Fin 32) (u : Bool), Ready s t → n.val ≠ 0 →
    let i : Int := ((s.tileOf t).get gb).toInt
    let lo : Int := if u then 0 else -(2 ^ (n.val - 1))
    let hi : Int := if u then 2 ^ n.val - 1 else 2 ^ (n.val - 1) - 1
    Runs (.satg t ga gb n u) t (fun x => satIf (decide (i < lo ∨ hi < i)) (wrote ga (BitVec.ofInt 32 (max lo (min hi i))) x)) s) ∧
  (∀ (ga gb : Fin 16) (pos len : Fin 32) (kind : Fin 3), 32 < pos.val + len.val + 1 →
    undefinedWord (encI 0x0B ga gb (pos.val + 32 * len.val + 1024 * kind.val)) = true) ∧
  (∀ (ga gb : Fin 16) (u : Bool), undefinedWord (encI 0x0C ga gb (if u then 32 else 0)) = true)

/-- A tile that may issue completes MUL, MULU, MUL16, MAC, MACU, MSU, MAC16, CLRA, LDA, DIV and DIVU with PC + 4 and lx
cleared; the product, the accumulator operation or the quotient and remainder of Table ISA-7 and R101 enters its
pipeline with 3, 4 or 34 edges to go, WST.early is set where a divide in flight is abandoned, and nothing else changes.
(R99, R101, R102, R105, R108, Table ISA-7) -/
def Obligations.MultiplyDivideIssue : Prop :=
  ∀ (s : State) (t : Fin 24) (gb gc : Fin 16), Ready s t →
    let a := (s.tileOf t).get gb
    let b := (s.tileOf t).get gc
    let lowS : Word → Int := fun w => (w.extractLsb' 0 16).toInt
    let words : Int → MulOp := fun p => .product (BitVec.ofInt 32 p) ((BitVec.ofInt 64 p).extractLsb' 32 32)
    let mulq : Int → Tile → Tile := fun p x => done { x with mulQ := x.mulQ ++ [(3, words p)] }
    let macq : AccOp → Tile → Tile := fun o x => done { x with macQ := x.macQ ++ [(4, o)] }
    let divq : Word → Word → Bool → Tile → Tile := fun q r dv x =>
      done { x with div := some ⟨34, q, r, dv, false, false⟩, wst := if x.div.isSome then x.wst ||| 0x10000 else x.wst }
    Runs (.mul t gb gc) t (mulq (a.toInt * b.toInt)) s ∧
    Runs (.mulu t gb gc) t (mulq (a.toNat * b.toNat : Nat)) s ∧
    Runs (.mul16 t gb gc) t (mulq (lowS a * lowS b)) s ∧
    Runs (.mac t gb gc) t (macq (.add (a.toInt * b.toInt))) s ∧
    Runs (.macu t gb gc) t (macq (.add (a.toNat * b.toNat : Nat))) s ∧
    Runs (.msu t gb gc) t (macq (.add (-(a.toInt * b.toInt)))) s ∧
    Runs (.mac16 t gb gc) t (macq (.add (lowS a * lowS b))) s ∧
    Runs (.clra t) t (macq (.load 0)) s ∧
    Runs (.lda t gb) t (macq (.load a.toInt)) s ∧
    Runs (.divu t gb gc) t
      (if b = 0 then divq 0xFFFFFFFF a true else divq (a.udiv b) (a.umod b) false) s ∧
    Runs (.div t gb gc) t
      (if b = 0 then divq 0xFFFFFFFF a true
       else if a = 0x80000000 ∧ b = 0xFFFFFFFF then divq 0x80000000 0 true
       else divq (a.sdiv b) (a.srem b) false) s

/-- An operation in flight is written on the core edge on which it is due; the commands below write one whose edges have all
passed. The oldest multiplier operation of a tile completes: a product writes ML and MH, an MTS its half. The
oldest accumulator operation completes: a sum writes AX, AH and AL with the 72-bit sum modulo 2^72 and sets WST.sat on a
signed overflow out of 72 bits, LDA and CLRA their value, an MTS its register, AX taking 8 bits. A divide completes: QT
and RM are written, but for one that an MTS of the same edge keeps, and WST.dv is set where R101 says so. The operation
leaves its pipeline, and no other tile, register or memory changes; where none is due, nothing does. (R101, R102, R105,
R107, Table ISA-2) -/
def Obligations.ResultsReachTheirRegisters : Prop :=
  (∀ (s : State) (t : Fin 24) (lo hi : Word) (rest : List (Nat × MulOp)), (s.tileOf t).mulQ = (0, .product lo hi) :: rest →
    Completes (.mulResult t) s (fun s' =>
      s' = s.modTile t (fun x => { x with mulQ := rest, res := { x.res with ml := lo, mh := hi } }))) ∧
  (∀ (s : State) (t : Fin 24) (n : Nat) (v : Word) (rest : List (Nat × MulOp)), n < 2 → (s.tileOf t).mulQ = (0, .part n v) :: rest →
    Completes (.mulResult t) s (fun s' => s' = s.modTile t (fun x =>
      { x with mulQ := rest, res := if n = 0 then { x.res with ml := v } else { x.res with mh := v } }))) ∧
  (∀ (s : State) (t : Fin 24), (s.tileOf t).mulQ.head?.all (fun e => e.1 ≠ 0) = true → exec (.mulResult t) s = .next s) ∧
  (∀ (s : State) (t : Fin 24) (p : Int) (rest : List (Nat × AccOp)), (s.tileOf t).macQ = (0, .add p) :: rest →
    Completes (.macResult t) s (fun s' =>
      let x := s.tileOf t
      let y := s'.tileOf t
      let sum := accOf x.res + p
      y.macQ = rest ∧
      accOf y.res = Int.bmod sum (2 ^ 72) ∧
      y.wst = (if sum < -(2 ^ 71) ∨ 2 ^ 71 ≤ sum then x.wst ||| 0x40000 else x.wst) ∧
      { y with macQ := x.macQ, wst := x.wst, res := { y.res with al := x.res.al, ah := x.res.ah, ax := x.res.ax } } = x ∧
      (∀ u, u ≠ t.val → s'.tileOf u = s.tileOf u) ∧ { s' with tiles := s.tiles } = s)) ∧
  (∀ (s : State) (t : Fin 24) (v : Int) (rest : List (Nat × AccOp)), (s.tileOf t).macQ = (0, .load v) :: rest →
    Completes (.macResult t) s (fun s' =>
      let x := s.tileOf t
      let y := s'.tileOf t
      y.macQ = rest ∧ accOf y.res = Int.bmod v (2 ^ 72) ∧ y.wst = x.wst ∧
      { y with macQ := x.macQ, res := { y.res with al := x.res.al, ah := x.res.ah, ax := x.res.ax } } = x ∧
      (∀ u, u ≠ t.val → s'.tileOf u = s.tileOf u) ∧ { s' with tiles := s.tiles } = s)) ∧
  (∀ (s : State) (t : Fin 24) (n : Nat) (v : Word) (rest : List (Nat × AccOp)), 2 ≤ n → n < 5 →
    (s.tileOf t).macQ = (0, .part n v) :: rest →
    Completes (.macResult t) s (fun s' => s' = s.modTile t (fun x =>
      { x with macQ := rest, res := if n = 2 then { x.res with al := v } else if n = 3 then { x.res with ah := v }
                                    else { x.res with ax := (v.extractLsb' 0 8).zeroExtend 32 } }))) ∧
  (∀ (s : State) (t : Fin 24), (s.tileOf t).macQ.head?.all (fun e => e.1 ≠ 0) = true → exec (.macResult t) s = .next s) ∧
  (∀ (s : State) (t : Fin 24) (q r : Word) (dv keepQ keepR : Bool), (s.tileOf t).div = some ⟨0, q, r, dv, keepQ, keepR⟩ →
    Completes (.divResult t) s (fun s' => s' = s.modTile t (fun x =>
      { x with div := none,
               res := { x.res with qt := if keepQ then x.res.qt else q, rm := if keepR then x.res.rm else r },
               wst := if dv then x.wst ||| 0x20000 else x.wst }))) ∧
  (∀ (s : State) (t : Fin 24), (s.tileOf t).div.all (fun d => d.left ≠ 0) = true → exec (.divResult t) s = .next s) ∧
  (∀ x : Tile,
    let y := resultsEdge x
    (∀ lo hi rest, x.mulQ = (1, .product lo hi) :: rest → (∀ e ∈ rest, 1 < e.1) →
      y.mulQ = rest.map (fun e => (e.1 - 1, e.2)) ∧ y.res.ml = lo ∧ y.res.mh = hi) ∧
    ((∀ e ∈ x.mulQ, 1 < e.1) → y.res.ml = x.res.ml ∧ y.res.mh = x.res.mh) ∧
    (∀ p rest, x.macQ = (1, .add p) :: rest → (∀ e ∈ rest, 1 < e.1) →
      y.macQ = rest.map (fun e => (e.1 - 1, e.2)) ∧ accOf y.res = Int.bmod (accOf x.res + p) (2 ^ 72)) ∧
    ((∀ e ∈ x.macQ, 1 < e.1) → accOf y.res = accOf x.res) ∧
    (∀ d, x.div = some d → 1 < d.left → y.div = some { d with left := d.left - 1 }) ∧
    (∀ d, x.div = some d → d.left ≤ 1 → x.qrQ = [] → y.div = none ∧ y.res.qt = (if d.keepQ then x.res.qt else d.qt) ∧
      y.res.rm = (if d.keepR then x.res.rm else d.rm)))

/-- A tile that may issue completes each branch at PC + 4 or, where its condition on the two registers holds, at PC +
sext(imm18) × 4; DBNZ writes the decremented counter first; J and JAL go to PC + sext(off26) × 4, JR and JALR to G[gb]
as read before the write when its bits [1:0] are 0; JAL and JALR write PC + 4 into LK or G[ga]. lx is cleared and
nothing else changes. (R99, R103, Table ISA-5, Table ISA-7) -/
def Obligations.BranchesAndJumps : Prop :=
  ∀ (s : State) (t : Fin 24) (ga gb : Fin 16) (imm : BitVec 18) (off : BitVec 26), Ready s t →
    let a := (s.tileOf t).get ga
    let b := (s.tileOf t).get gb
    let pc := (s.tileOf t).pc
    let far : Word := pc + imm.signExtend 32 * 4
    let to26 : Word := pc + off.signExtend 32 * 4
    Runs (.beq t ga gb imm) t (jumped (if a = b then far else pc + 4)) s ∧
    Runs (.bne t ga gb imm) t (jumped (if a ≠ b then far else pc + 4)) s ∧
    Runs (.blt t ga gb imm) t (jumped (if a.slt b then far else pc + 4)) s ∧
    Runs (.bge t ga gb imm) t (jumped (if b.sle a then far else pc + 4)) s ∧
    Runs (.bltu t ga gb imm) t (jumped (if a.ult b then far else pc + 4)) s ∧
    Runs (.bgeu t ga gb imm) t (jumped (if b.ule a then far else pc + 4)) s ∧
    Runs (.dbnz t ga imm) t (fun x => jumped (if a ≠ 1 then far else pc + 4) (x.put ga (a - 1))) s ∧
    Runs (.j t off) t (jumped to26) s ∧
    Runs (.jal t off) t (fun x => jumped to26 (x.put 14 (pc + 4))) s ∧
    (b.extractLsb' 0 2 = 0 → Runs (.jr t gb) t (jumped b) s) ∧
    (b.extractLsb' 0 2 = 0 → Runs (.jalr t ga gb) t (fun x => jumped b (x.put ga (pc + 4))) s)

/-- A tile that may issue reads each special register 0 to 15 with the contents Table ISA-2 gives (AX sign-extended from
bit 7, HOLD its low 13 bits, TID by the tile's place), WST.early set where an operation in flight writes that register;
it writes each as R96, R97 and R107 say, RO registers ignored; EXTA gives floor((acc + b) / 2^shift) clamped to 32 bits
with WST.sat. PRIV registers are read and written at supervisor level; numbers 16 to 31 are undefined words. (R96, R97,
R102, R106, R107, R128, Table ISA-2, Table ISA-3, Table ISA-8) -/
def Obligations.SpecialRegistersReadAndWritten : Prop :=
  (∀ (s : State) (t : Fin 24) (ga : Fin 16) (n : Fin 32), Ready s t → n.val < 16 →
    (privSpecial n = true → (s.tileOf t).sup = true) →
    let x := edged (s.tileOf t)
    let tid : Word := BitVec.ofNat 32 (0x24060000 + 256 * (t.val % 4) + 32 * (t.val / 4) + t.val)
    let contents : List Word := [x.res.ml, x.res.mh, x.res.al, x.res.ah, (x.res.ax.extractLsb' 0 8).signExtend 32, x.res.qt,
      x.res.rm, x.prog, x.wst, x.epc, x.esr, x.einst, BitVec.ofNat 32 (x.hold % 8192), tid, x.cyc, atD x.sp (2 * x.world) 0]
    Runs (.mfs t ga n) t (fun x => wrote ga (contents.getD n 0)
      { x with wst := if pendingResult x n then x.wst ||| 0x10000 else x.wst }) s) ∧
  (∀ (s : State) (t : Fin 24) (ga : Fin 16) (n : Fin 32), Ready s t → n.val < 16 →
    (privSpecial n = true → (s.tileOf t).sup = true) →
    let v := (s.tileOf t).get ga
    let sup := (s.tileOf t).sup
    let user : Word := if sup then 0x00070004 else 0x00070000
    let writes : List (Tile → Tile) := [
      fun x => { x with mulQ := x.mulQ ++ [(3, .part 0 v)] }, fun x => { x with mulQ := x.mulQ ++ [(3, .part 1 v)] },
      fun x => { x with macQ := x.macQ ++ [(4, .part 2 v)] }, fun x => { x with macQ := x.macQ ++ [(4, .part 3 v)] },
      fun x => { x with macQ := x.macQ ++ [(4, .part 4 v)] }, fun x => { x with qrQ := x.qrQ ++ [(1, 5, v)] },
      fun x => { x with qrQ := x.qrQ ++ [(1, 6, v)] }, fun x => if sup then { x with prog := v } else x,
      fun x => { x with wst := (x.wst &&& ~~~user) ||| (v &&& user) }, fun x => { x with epc := v }, fun x => { x with esr := v },
      id, fun x => if sup && v == 0 then { x with hold := 0, holder := none } else x, id, id,
      fun x => { x with sp := updAt x.sp (2 * x.world) (fun _ => v) }]
    Runs (.mts t ga n) t (fun x => done ((writes.getD n id) x)) s) ∧
  (∀ (s : State) (t : Fin 24) (ga : Fin 16) (shift : Fin 64) (round : Bool), Ready s t →
    let acc := accOf (s.tileOf t).res
    let v : Int := (acc + if round ∧ 0 < shift.val then 2 ^ (shift.val - 1) else 0) / 2 ^ shift.val
    Runs (.exta t ga shift round) t (fun x =>
      satIf (decide (v < -2147483648 ∨ 2147483647 < v)) (wrote ga (BitVec.ofInt 32 (max (-2147483648) (min 2147483647 v)))
        { x with wst := if x.macQ.isEmpty then x.wst else x.wst ||| 0x10000 })) s) ∧
  (∀ (ga : Fin 16) (n : Fin 32), 16 ≤ n.val → undefinedWord (encI 0x11 ga 0 n) = true ∧ undefinedWord (encI 0x12 ga 0 n) = true)

/-- Where the effective address is a multiple of the size, lies in a data window of the tile's world and in its own data
TCM, in a word not yet found uncorrectable, a tile that may issue completes each I-format and each indexed load with the
little-endian bytes there, zero- or sign-extended, in G[ga], nothing else changed; a corrected word is noted, and one
found uncorrectable is recorded and logged, what it holds being open from then on (log 2). (R93, R99, R119, R178, Table
ISA-5, Table ISA-7) -/
def Obligations.LoadsFromTheDataTcm : Prop :=
  ∀ (s : State) (t : Fin 24) (ga gb gc : Fin 16) (imm : BitVec 18) (sh : Fin 4), Ready s t →
    let x := s.tileOf t
    let fits : Nat → Nat → Prop := fun a n => a % n = 0 ∧ a + n ≤ 0x40000 ∧ inDataWindow s t x.world a n = true ∧
      wordKey (dtcmKey t + a) ∉ s.memh.bad
    let le : Nat → Nat → Nat := fun a n => s.load (dtcmKey t + a) n
    let word : Nat → Word := fun a => BitVec.ofNat 32 (le a 4)
    let sh16 : Nat → Word := fun a => (BitVec.ofNat 16 (le a 2)).signExtend 32
    let zh16 : Nat → Word := fun a => BitVec.ofNat 32 (le a 2)
    let sb8 : Nat → Word := fun a => (BitVec.ofNat 8 (le a 1)).signExtend 32
    let zb8 : Nat → Word := fun a => BitVec.ofNat 32 (le a 1)
    let ea := (x.get gb + imm.signExtend 32).toNat
    let ix := (x.get gb + x.get gc <<< sh.val).toNat
    (fits ea 4 → LoadsFromTcm (.ldw t ga gb imm) t ga ea (word ea) s) ∧
    (fits ea 2 → LoadsFromTcm (.ldh t ga gb imm) t ga ea (sh16 ea) s) ∧
    (fits ea 2 → LoadsFromTcm (.ldhu t ga gb imm) t ga ea (zh16 ea) s) ∧
    (fits ea 1 → LoadsFromTcm (.ldb t ga gb imm) t ga ea (sb8 ea) s) ∧
    (fits ea 1 → LoadsFromTcm (.ldbu t ga gb imm) t ga ea (zb8 ea) s) ∧
    (fits ix 4 → LoadsFromTcm (.ldxw t ga gb gc sh) t ga ix (word ix) s) ∧
    (fits ix 2 → LoadsFromTcm (.ldxh t ga gb gc sh) t ga ix (sh16 ix) s) ∧
    (fits ix 2 → LoadsFromTcm (.ldxhu t ga gb gc sh) t ga ix (zh16 ix) s) ∧
    (fits ix 1 → LoadsFromTcm (.ldxb t ga gb gc sh) t ga ix (sb8 ix) s) ∧
    (fits ix 1 → LoadsFromTcm (.ldxbu t ga gb gc sh) t ga ix (zb8 ix) s)

/-- Where the effective address is a multiple of the size, lies in a data window of the tile's world and in its own data
TCM, a tile that may issue completes STW, STH, STB and the indexed stores: the low bytes of G[ga] stand there,
little-endian, and every byte outside the store is unchanged but for its copy in a spare that mirrors the tile; a word
found uncorrectable takes nothing. (R93, R99, R119, R178, Table ISA-5, Table ISA-7) -/
def Obligations.StoresToTheDataTcm : Prop :=
  ∀ (s : State) (t : Fin 24) (ga gb gc : Fin 16) (imm : BitVec 18) (sh : Fin 4), Ready s t →
    let x := s.tileOf t
    let fits : Nat → Nat → Prop := fun a n => a % n = 0 ∧ a + n ≤ 0x40000 ∧ inDataWindow s t x.world a n = true ∧
      wordKey (dtcmKey t + a) ∉ s.memh.bad
    let v := x.get ga
    let ea := (x.get gb + imm.signExtend 32).toNat
    let ix := (x.get gb + x.get gc <<< sh.val).toNat
    (fits ea 4 → StoresToTcm (.stw t ga gb imm) t ea 4 v s) ∧
    (fits ea 2 → StoresToTcm (.sth t ga gb imm) t ea 2 v s) ∧
    (fits ea 1 → StoresToTcm (.stb t ga gb imm) t ea 1 v s) ∧
    (fits ix 4 → StoresToTcm (.stxw t ga gb gc sh) t ix 4 v s) ∧
    (fits ix 2 → StoresToTcm (.stxh t ga gb gc sh) t ix 2 v s) ∧
    (fits ix 1 → StoresToTcm (.stxb t ga gb gc sh) t ix 1 v s)

/-- A load or IN that its checks pass is started once no posted write is left, with PC unmoved until its data returns; a
store or OUT is posted, in order, while fewer than four are, and completes; with four posted, or for a load with any,
the instruction stalls and nothing changes. (R94, R104, R119, R120) -/
def Obligations.FarAccessesArePosted : Prop :=
  ∀ (s : State) (t : Fin 24) (ga gb : Fin 16) (imm : BitVec 18) (ecc : Fin 3), Ready s t →
    let x := s.tileOf t
    let ea := (x.get gb + imm.signExtend 32).toNat
    let far : Nat → Prop := fun n => ∃ p form key, checkData s t x ea n = .ok p form key ∧ p ≠ .dtcm t
    let post : Bool → Nat → Nat → Tile → Tile := fun io a n y =>
      done { y with posted := y.posted ++ [⟨io, a, n, x.get ga, x.world == 0, x.sup, x.pri⟩] }
    let started : Nat → Bool → Nat → Nat → Bool → Tile → Tile := fun op io a n signed y =>
      { y with load := some ⟨io, a, n, signed, ga, encI op ga gb imm.toNat⟩, woa := none }
    (far 4 → x.posted = [] → Runs (.ldw t ga gb imm ecc) t (started 0x13 false ea 4 false) s) ∧
    (far 2 → x.posted = [] → Runs (.ldh t ga gb imm ecc) t (started 0x14 false ea 2 true) s) ∧
    (far 1 → x.posted = [] → Runs (.ldbu t ga gb imm ecc) t (started 0x17 false ea 1 false) s) ∧
    (far 4 → x.posted ≠ [] → exec (.ldw t ga gb imm ecc) s = .next s) ∧
    (far 4 → x.posted.length < 4 → Runs (.stw t ga gb imm ecc) t (post false ea 4) s) ∧
    (far 2 → x.posted.length < 4 → Runs (.sth t ga gb imm ecc) t (post false ea 2) s) ∧
    (far 1 → x.posted.length < 4 → Runs (.stb t ga gb imm ecc) t (post false ea 1) s) ∧
    (far 4 → 4 ≤ x.posted.length → exec (.stw t ga gb imm ecc) s = .next s) ∧
    (∀ a, checkIo s t x ea = .ok a →
      (x.posted = [] → Runs (.inp t ga gb imm) t (started 0x1D true a 4 false) s) ∧
      (x.posted ≠ [] → exec (.inp t ga gb imm) s = .next s) ∧
      (x.posted.length < 4 → Runs (.out t ga gb imm) t (post true a 4) s) ∧
      (4 ≤ x.posted.length → exec (.out t ga gb imm) s = .next s))

/-- A load in progress from a device bank that is On and returns a good word completes: the extended bytes go into its
register, the load ends and PC moves on. The oldest posted write to a bank that is On and admits the tile stores its
bytes there, into a word not found uncorrectable, leaves the queue, and leaves every other byte as it was; a posted
write that failed twice in transport is dropped and raises POST_ERR with its address. (R104, R174, R178) -/
def Obligations.LoadsReturnAndPostedWritesArrive : Prop :=
  (∀ (s : State) (t : Fin 24) (l : Load) (b key : Nat), (s.tileOf t).load = some l → domOn s (domTile t) = true →
    (s.tileOf t).held = false → l.io = false → place (some t) (unalias l.addr).2 = (.bank b, key) → b < 64 →
    bankState s b = 0 → wordKey key ∉ s.memh.bad → Completes (.loadDataReturn t 0 0) s (fun s' =>
      let v : Word := if l.signed then BitVec.ofInt 32 (signedN (8 * l.bytes) (s.load key l.bytes))
        else BitVec.ofNat 32 (s.load key l.bytes % 2 ^ (8 * l.bytes))
      s'.tileOf t = wrote l.ga v { s.tileOf t with load := none } ∧ s'.mem = s.mem ∧ s'.io = s.io)) ∧
  (∀ (s : State) (t : Fin 24) (w : Posted) (rest : List Posted) (b key : Nat), (s.tileOf t).posted = w :: rest → w.io = false →
    unalias w.addr = (0, w.addr) → place (some t) w.addr = (.bank b, key) → b < 64 →
    bankRefuses s b (.tile t w.vital w.sup) = none → bankState s b = 0 → wordKey key ∉ s.memh.bad →
    Completes (.postedWriteComplete t 0 0 false) s (fun s' =>
      s'.load key w.bytes = w.value.toNat % 2 ^ (8 * w.bytes) ∧
      (∀ k, (k < key ∨ key + w.bytes ≤ k) → s'.byte k = s.byte k) ∧
      s'.tileOf t = { s.tileOf t with posted := rest } ∧ s'.io = s.io)) ∧
  (∀ (s : State) (t : Fin 24) (w : Posted) (rest : List Posted) (ecc : Fin 3) (waited : BitVec 16),
    (s.tileOf t).posted = w :: rest →
    Completes (.postedWriteComplete t ecc waited true) s (fun s' =>
      s'.get (EXC_EVENTS.post_err t) = 1 ∧ s'.reg (EXC_POST_ADDR t) = BitVec.ofNat 32 w.addr ∧
      (s'.tileOf t).posted = rest ∧ s'.mem = s.mem))

/-- NOP only moves PC on; SYNC does once nothing of the tile is in flight and stalls before; EI and DI set and clear
WST.ie at supervisor level; WAIT stops issue where no event is pending, with Doze noted where it is enabled; CINV drops
the cache line of a code-window address and CINVA, at supervisor level, every line. (R99, R109, R110, R126, Table ISA-7)
-/
def Obligations.SystemGroupRuns : Prop :=
  (∀ (s : State) (t : Fin 24), Ready s t → Runs (.nop t) t done s) ∧
  (∀ (s : State) (t : Fin 24), Ready s t →
    let x := s.tileOf t
    let idle := x.mulQ = [] ∧ x.macQ = [] ∧ x.div = none ∧ x.qrQ = [] ∧ x.posted = []
    (idle → Runs (.sync t) t done s) ∧ (¬ idle → exec (.sync t) s = .next s)) ∧
  (∀ (s : State) (t : Fin 24), Ready s t → (s.tileOf t).sup = true →
    Runs (.ei t) t (fun x => done { x with wst := x.wst ||| 4 }) s ∧
    Runs (.di t) t (fun x => done { x with wst := x.wst &&& 0xFFFFFFFB }) s ∧
    Completes (.cinva t) s (fun s' => (s'.tileOf t).icache = [] ∧ TileStep t done s s')) ∧
  (∀ (s : State) (t : Fin 24), Ready s t → urgentEvent s t = none →
    Runs (.wait t) t (fun x => { done x with waiting := true, doze := s.is ⟨PWR_DOZE_EN, t, 1⟩ }) s) ∧
  (∀ (s : State) (t : Fin 24) (gb : Fin 16), Ready s t →
    let a := ((s.tileOf t).get gb).toNat
    Completes (.cinv t gb) s (fun s' => TileStep t done s s' ∧
      (0x1000000 ≤ a → a < 0x2800000 → (a - 0x1000000) / 32 ∉ (s'.tileOf t).icache)))

/-- A long instruction issues with PROG 0, or with PROG as it stands when lx is 1, sets lx and, with its count not
reached, stands in progress; with the count reached it completes with lx cleared. An element of BFIL stores the fill
value, of BMOV the source bytes, at its place, its words being good; PROG counts it and the last one completes the
instruction. One of BCRC puts the next CRC of its polynomial into G[ga]; one of BDOT sends the product of two signed
halfwords to the accumulator; one of BCMP whose two values differ completes with PROG at it. No element changes G[gb] or
G[gc]. (R99, R111, R112, R113, R115, Table ISA-10) -/
def Obligations.LongInstructionsRun : Prop :=
  (∀ (s : State) (t : Fin 24) (ga gb gc : Fin 16) (w : Fin 3), Ready s t →
    let x := s.tileOf t
    let from_ : Word := if x.lx then x.prog else 0
    let begun : Nat → Nat → Tile → Tile := fun kind minor y =>
      if (x.get gc).toNat ≤ from_.toNat then done { y with prog := from_, wst := y.wst ||| 0x80000, long := none }
      else { y with prog := from_, wst := y.wst ||| 0x80000,
                    long := some ⟨kind, ga, gb, gc, minor, encR (0x2B + kind) ga gb gc 0 minor, true⟩ }
    Runs (.bmov t ga gb gc w) t (begun 0 w) s ∧ Runs (.bfil t ga gb gc w) t (begun 1 w) s ∧
    Runs (.bcrc t ga gb gc w) t (begun 2 w) s ∧ Runs (.bcmp t ga gb gc w) t (begun 3 w) s ∧
    Runs (.bdot t ga gb gc) t (begun 4 0) s) ∧
  (∀ (s : State) (t : Fin 24) (l : Long) (a n : Nat), runs s t = true → (s.tileOf t).long = some l → (s.tileOf t).load = none →
    l.kind ≤ 1 → l.minor ≤ 2 → n = 2 ^ l.minor → mirrorOf s t = none → domHeld s (domTile t) = false →
    let x := s.tileOf t
    a = (x.get l.ga + BitVec.ofNat 32 (x.prog.toNat * n)).toNat →
    let b := (x.get l.gb + BitVec.ofNat 32 (x.prog.toNat * n)).toNat
    let good : Nat → Prop := fun o => o % n = 0 ∧ o + n ≤ 0x40000 ∧ inDataWindow s t x.world o n = true ∧
      wordKey (dtcmKey t + o) ∉ s.memh.bad
    good a → (l.kind = 0 → good b) →
    Completes (.longElement t 0 0 (0, 0)) s (fun s' =>
      s'.load (dtcmKey t + a) n =
        (if l.kind = 0 then s.load (dtcmKey t + b) n else (x.get l.gb).toNat % 2 ^ (8 * n)) ∧
      (∀ k, (k < dtcmKey t + a ∨ dtcmKey t + a + n ≤ k) → s'.byte k = s.byte k) ∧
      (s'.tileOf t).prog = x.prog + 1 ∧
      ((s'.tileOf t).long = none ↔ (x.get l.gc).toNat ≤ (x.prog + 1).toNat) ∧
      (∀ g, (s'.tileOf t).get g = x.get g) ∧ s'.io = s.io ∧ (∀ u, u ≠ t.val → s'.tileOf u = s.tileOf u))) ∧
  (∀ (s : State) (t : Fin 24) (l : Long), runs s t = true → (s.tileOf t).long = some l → (s.tileOf t).load = none →
    2 ≤ l.kind → l.kind ≤ 4 → l.minor ≤ 2 → domHeld s (domTile t) = false →
    let x := s.tileOf t
    let n : Nat := if l.kind = 2 then 1 else if l.kind = 4 then 2 else 2 ^ l.minor
    let a := (x.get l.ga + BitVec.ofNat 32 (x.prog.toNat * n)).toNat
    let b := (x.get l.gb + BitVec.ofNat 32 (x.prog.toNat * n)).toNat
    let good : Nat → Prop := fun o => o % n = 0 ∧ o + n ≤ 0x40000 ∧ inDataWindow s t x.world o n = true ∧
      wordKey (dtcmKey t + o) ∉ s.memh.bad
    let va := s.load (dtcmKey t + a) n
    let vb := s.load (dtcmKey t + b) n
    let signed : Nat → Int := fun v => if v < 0x8000 then (v : Int) else (v : Int) - 0x10000
    let crc : Nat → Nat → Nat := fun c v =>
      if l.minor = 2 then (List.range 8).foldl (fun c _ => (if c / 2 ^ 15 % 2 = 1 then (2 * c) ^^^ 0x1021 else 2 * c) % 2 ^ 16)
        ((c ^^^ (v * 256)) % 2 ^ 16)
      else (List.range 8).foldl (fun c _ => if c % 2 = 1 then (c / 2) ^^^ (if l.minor = 0 then 0x82F63B78 else 0xEDB88320) else c / 2)
        (c ^^^ v)
    (l.kind ≠ 2 → good a) → good b →
    Completes (.longElement t 0 0 (0, 0)) s (fun s' =>
      let y := s'.tileOf t
      s'.mem = s.mem ∧ s'.io = s.io ∧ (∀ u, u ≠ t.val → s'.tileOf u = s.tileOf u) ∧
      (∀ g, g ≠ l.ga ∨ l.kind ≠ 2 → y.get g = x.get g) ∧
      (l.kind = 2 → y.get l.ga = BitVec.ofNat 32 (crc (x.get l.ga).toNat vb)) ∧
      (l.kind ≠ 4 → y.macQ = x.macQ) ∧ (l.kind = 4 → y.macQ = x.macQ ++ [(4, .add (signed va * signed vb))]) ∧
      (l.kind = 3 ∧ va ≠ vb → y.prog = x.prog ∧ y.long = none ∧ y.pc = x.pc + 4 ∧ y.lx = false) ∧
      (l.kind ≠ 3 ∨ va = vb → y.prog = x.prog + 1 ∧ (y.long = none ↔ (x.get l.gc).toNat ≤ (x.prog + 1).toNat))))

/-- With a stack that takes the frame and a readable vector entry: TRAP enters vector 7 with its number and EPC at the
next instruction; BRK without a debugger enters vector 8 and with one halts the tile; an undefined word enters EMUL, a
supervisor-only operation at user level PRIV, and a misaligned JR or JALR ALIGN, the JALR's write of G[ga] not done,
each with EPC at the instruction and EINST its word. (R98, R99, R103, R116, R127, R130, R131, Table EXC-4, Table EXC-5)
-/
def Obligations.TrapsEnterTheirHandlers : Prop :=
  ∀ (s : State) (t : Fin 24), Ready s t →
    let x := s.tileOf t
    (∀ n : Fin 256, CanEnter t 7 s → Completes (.trap t n) s (Entered t 7 n (encR 0x29 0 0 0 n 4) (x.pc + 4) s)) ∧
    (s.dbg = false → CanEnter t 8 s → Completes (.brk t) s (Entered t 8 0 (encR 0x29 0 0 0 0 5) x.pc s)) ∧
    (s.dbg = true → Runs (.brk t) t (fun x => { x with halted := true }) s) ∧
    (∀ w : Word, undefinedWord w = true → CanEnter t 2 s → Completes (.undefinedInstruction t w) s (Entered t 2 0 w x.pc s)) ∧
    (x.sup = false → CanEnter t 3 s →
      Completes (.ei t) s (Entered t 3 0 (encR 0x29 0 0 0 0 6) x.pc s) ∧
      Completes (.di t) s (Entered t 3 0 (encR 0x29 0 0 0 0 7) x.pc s) ∧
      Completes (.cinva t) s (Entered t 3 0 (encR 0x29 0 0 0 0 10) x.pc s) ∧
      Completes (.eret t 0) s (Entered t 3 0 (encR 0x29 0 0 0 0 3) x.pc s) ∧
      ∀ (ga : Fin 16) (n : Fin 32), n.val ∈ [9, 10, 11, 15] →
        Completes (.mfs t ga n) s (Entered t 3 1 (encI 0x11 ga 0 n) x.pc s) ∧
        Completes (.mts t ga n) s (Entered t 3 1 (encI 0x12 ga 0 n) x.pc s)) ∧
    (∀ gb : Fin 16, CanEnter t 4 s → (x.get gb).toNat % 4 ≠ 0 →
      Completes (.jr t gb) s (Entered t 4 2 (encR 0x28 0 gb 0 0 0) x.pc s) ∧
      ∀ ga : Fin 16, Completes (.jalr t ga gb) s (fun s' => Entered t 4 2 (encR 0x28 ga gb 0 0 1) x.pc s s' ∧
        (s'.tileOf t).g = x.g))

/-- The effective address of IN and OUT is G[gb] + sext(imm18) modulo 2^32. With bits 31 to 24 and 1 to 0 of it 0 no
ALIGN is raised, and where the other checks pass the access starts at it; otherwise the instruction enters the ALIGN
exception. So do every I-format and indexed load and store of 32 bits at an address that is no multiple of 4, and of 16
bits at an odd one. (R94) -/
def Obligations.MisalignedAccessesRaiseAlign : Prop :=
  ∀ (s : State) (t : Fin 24), Ready s t →
    let x := s.tileOf t
    let aligns : Instr → Nat → Word → Prop := fun c detail word => Completes c s (Entered t 4 detail word x.pc s)
    (∀ (ga gb : Fin 16) (imm : BitVec 18),
      let ea := x.get gb + imm.signExtend 32
      let good : Prop := ea.extractLsb' 24 8 = 0 ∧ ea.extractLsb' 0 2 = 0
      (good → (∀ v d, checkIo s t x ea.toNat = .raise v d → v ≠ 4) ∧ ∀ a, checkIo s t x ea.toNat = .ok a → a = ioGlobal t ea.toNat ∧
        (x.posted = [] → Runs (.inp t ga gb imm) t (fun y =>
          { y with load := some ⟨true, a, 4, false, ga, encI 0x1D ga gb imm.toNat⟩, woa := none }) s) ∧
        (x.posted.length < 4 → Runs (.out t ga gb imm) t (fun y =>
          done { y with posted := y.posted ++ [⟨true, a, 4, x.get ga, x.world == 0, x.sup, x.pri⟩] }) s)) ∧
      (¬ good → CanEnter t 4 s → aligns (.inp t ga gb imm) 1 (encI 0x1D ga gb imm.toNat) ∧
        aligns (.out t ga gb imm) 1 (encI 0x1E ga gb imm.toNat))) ∧
    (∀ (ga gb : Fin 16) (imm : BitVec 18) (ecc : Fin 3), CanEnter t 4 s →
      let ea := (x.get gb + imm.signExtend 32).toNat
      (ea % 4 ≠ 0 → aligns (.ldw t ga gb imm ecc) 0 (encI 0x13 ga gb imm.toNat) ∧ aligns (.stw t ga gb imm ecc) 0 (encI 0x18 ga gb imm.toNat)) ∧
      (ea % 2 ≠ 0 → aligns (.ldh t ga gb imm ecc) 0 (encI 0x14 ga gb imm.toNat) ∧ aligns (.ldhu t ga gb imm ecc) 0 (encI 0x15 ga gb imm.toNat) ∧
        aligns (.sth t ga gb imm ecc) 0 (encI 0x19 ga gb imm.toNat))) ∧
    (∀ (ga gb gc : Fin 16) (sh : Fin 4) (ecc : Fin 3), CanEnter t 4 s →
      let ea := (x.get gb + (x.get gc <<< sh.val)).toNat
      (ea % 4 ≠ 0 → aligns (.ldxw t ga gb gc sh ecc) 0 (encR 0x1B ga gb gc sh 0) ∧ aligns (.stxw t ga gb gc sh ecc) 0 (encR 0x1C ga gb gc sh 0)) ∧
      (ea % 2 ≠ 0 → aligns (.ldxh t ga gb gc sh ecc) 0 (encR 0x1B ga gb gc sh 1) ∧ aligns (.ldxhu t ga gb gc sh ecc) 0 (encR 0x1B ga gb gc sh 2) ∧
        aligns (.stxh t ga gb gc sh ecc) 0 (encR 0x1C ga gb gc sh 1)))

/-- At supervisor level, with the frame at SP in the stack window and in the data TCM and no gate entry of this context,
ERET adds 16 to SP and takes PC (bits [1:0] cleared), PROG, and level, ie, the sticky flags and lx from the frame. With
a sync depth it keeps world and priority and lowers the depth; without one it goes back to the world and priority that
the record of its priority holds, ends the hold window, clears the record and EXC_STATUS.active of the priority; where
that record is of another world, PC, WST, PROG, G0 to G14 and the result registers come back from the record. At thread
level world and priority stay. With a gate entry of this context ERET raises GATE, with SP in no stack STACK. Memory
stays. (R133, Table EXC-9) -/
def Obligations.ReturnsFromExceptions : Prop :=
  ∀ (s : State) (t : Fin 24), Ready s t →
    let x := s.tileOf t
    let w := x.world
    let sp := x.ssp
    let f : Nat → Word := fun i => BitVec.ofNat 32 (s.load (dtcmKey t + sp + 4 * i) 4)
    let back : Nat → Nat → Word := fun w' p => ((f 2) &&& 0x000F0005) ||| BitVec.ofNat 32 (2 * w' + 256 * p)
    let word := encR 0x29 0 0 0 0 3
    let takes : Prop := x.gates = [] ∧ frameOk s t w sp = true ∧ sp + 16 ≤ 0x40000 ∧ domHeld s (domTile t) = false ∧
      wordKey (dtcmKey t + sp) ∉ s.memh.bad ∧ wordKey (dtcmKey t + sp + 8) ∉ s.memh.bad
    x.sup = true →
    (∀ e rest, x.gates = e :: rest → bitsOf e.wst 8 5 = x.pri → e.depth = x.syncDepth → CanEnter t 9 s →
      Completes (.eret t 0) s (Entered t 9 4 word x.pc s)) ∧
    (x.gates = [] → frameOk s t w sp = false → CanEnter t 10 s → Completes (.eret t 0) s (Entered t 10 2 word x.pc s)) ∧
    (takes → x.syncDepth ≠ 0 ∨ 16 ≤ x.pri → Completes (.eret t 0) s (fun s' =>
      let y := s'.tileOf t
      y.pc = (f 3) &&& 0xFFFFFFFC ∧ y.prog = f 1 ∧ y.wst = back w x.pri ∧ y.sp = updAt x.sp (2 * w + 1) (· + 16) ∧
      y.depth = updAt x.depth (priIx x.pri) (· - 1) ∧ y.g = x.g ∧ y.res = x.res ∧ y.recs = x.recs ∧ s'.mem = s.mem ∧
      (∀ u, u ≠ t.val → s'.tileOf u = s.tileOf u))) ∧
    (takes → x.syncDepth = 0 → x.pri < 16 → atD x.recs x.pri none = none → Completes (.eret t 0) s (fun s' =>
      let y := s'.tileOf t
      y.pc = (f 3) &&& 0xFFFFFFFC ∧ y.prog = f 1 ∧ y.wst = back w 31 ∧ y.sp = updAt x.sp (2 * w + 1) (· + 16) ∧ y.hold = 0 ∧
      y.g = x.g ∧ y.res = x.res ∧ s'.mem = s.mem)) ∧
    (∀ r : Record, takes → x.syncDepth = 0 → x.pri < 16 → atD x.recs x.pri none = some r → r.cross = true →
      Completes (.eret t 0) s (fun s' =>
        let y := s'.tileOf t
        y.pc = r.pc ∧ y.wst = r.wst ∧ y.prog = r.prog ∧ y.g = r.g ∧ y.res = r.res ∧ y.sp = updAt x.sp (2 * w + 1) (· + 16) ∧
        y.mulQ = [] ∧ y.macQ = [] ∧ y.div = none ∧ y.hold = 0 ∧ y.recs = updAt x.recs x.pri (fun _ => none) ∧
        bitN (s'.get (EXC_STATUS.active t)) x.pri = false ∧ s'.mem = s.mem ∧ (∀ u, u ≠ t.val → s'.tileOf u = s.tileOf u))) ∧
    (∀ r : Record, takes → x.syncDepth = 0 → x.pri < 16 → atD x.recs x.pri none = some r → r.cross = false → r.world < 2 → r.pri < 32 →
      Completes (.eret t 0) s (fun s' =>
        let y := s'.tileOf t
        y.pc = (f 3) &&& 0xFFFFFFFC ∧ y.prog = f 1 ∧ y.wst = back r.world r.pri ∧ y.sp = updAt x.sp (2 * w + 1) (· + 16) ∧
        y.hold = 0 ∧ y.recs = updAt x.recs x.pri (fun _ => none) ∧ y.g = x.g ∧ y.res = x.res ∧
        bitN (s'.get (EXC_STATUS.active t)) x.pri = false ∧ s'.mem = s.mem))

/-- From any state in which a tile may issue a TRAP, take its entry and reach the handler in the instruction TCM, the
TRAP followed by an ERET there completes with the tile at the instruction after the TRAP and its general registers, SP
banks, result registers, PROG, WST, sync depth, records and gates as they were: the frame loses nothing. (R97, R130,
R131, R133) -/
def Obligations.TrapThenReturnRestoresTheContext : Prop :=
  ∀ (s : State) (t : Fin 24) (n : Fin 256), Ready s t → CanEnter t 7 s →
    let x := s.tileOf t
    (∀ h hold, readVector s t x.world 7 = some (h, hold) → h < 0x40000) →
    x.wst &&& 0x000F1F07 = x.wst → x.gates = [] → x.pc.extractLsb' 0 2 = 0 →
    Completes (.trap t n) s (fun s1 => Completes (.eret t 0) s1 (fun s2 =>
      let y := s2.tileOf t
      y.pc = x.pc + 4 ∧ y.g = x.g ∧ y.sp = x.sp ∧ y.res = x.res ∧ y.prog = x.prog ∧ y.wst = x.wst ∧
      y.depth = x.depth ∧ y.recs = x.recs ∧ y.gates = x.gates))

/-- A WCALL whose gate the inventory holds, with fewer than 4 entries, enters the other world's supervisor level at the
gate's target with G0 to G7 kept, G8 to G14, the result registers, lx and the sticky flags 0, and the caller's kept in
the gate entry; without the gate, or with 4 entries, it raises GATE. The WRET of the matching context restores G8 to
G14, result registers, WST and PC from the entry, G0 to G7 passing the results; with no entry, in the entry's own world
or in a context that is not the entry's it raises GATE with detail 2, 3 or 4. (R97, R109, R121, R122) -/
def Obligations.GatesKeepTheCallerToItself : Prop :=
  (∀ (s : State) (t : Fin 24) (n : Fin 256), Ready s t →
    let x := s.tileOf t
    (∀ target, gateTarget s t x.world n = some target → x.gates.length < 4 →
      Completes (.wcall t n) s (fun s' =>
        let y := s'.tileOf t
        let d := drainOps x
        y.pc = BitVec.ofNat 32 (target / 4 * 4) ∧ y.world = 1 - x.world ∧ y.sup = true ∧ y.pri = x.pri ∧ y.ie = x.ie ∧
        y.wst = BitVec.ofNat 32 (1 + 2 * (1 - x.world) + (if x.ie then 4 else 0) + 256 * x.pri) ∧
        (∀ i, i < 8 → atD y.g i 0 = atD x.g i 0) ∧ (∀ i, 8 ≤ i → atD y.g i 0 = 0) ∧ y.res = .zero ∧
        y.gates = ⟨x.pc + 4, d.wst &&& 0xFFF7FFFF, x.syncDepth, upper x.g, d.res⟩ :: x.gates ∧
        y.mulQ = [] ∧ y.macQ = [] ∧ y.div = none ∧ y.sp = x.sp ∧ s'.mem = s.mem)) ∧
    (gateTarget s t x.world n = none → CanEnter t 9 s →
      Completes (.wcall t n) s (Entered t 9 0 (encI 0x2A 0 0 n) x.pc s)) ∧
    (∀ target, gateTarget s t x.world n = some target → 4 ≤ x.gates.length → CanEnter t 9 s →
      Completes (.wcall t n) s (Entered t 9 1 (encI 0x2A 0 0 n) x.pc s))) ∧
  (∀ (s : State) (t : Fin 24), Ready s t →
    let x := s.tileOf t
    (∀ e rest, x.gates = e :: rest → (if x.world = 0 then 1 else 0) = bitsOf e.wst 1 1 → x.pri = bitsOf e.wst 8 5 →
      x.syncDepth = e.depth →
      Completes (.wret t) s (fun s' =>
        let y := s'.tileOf t
        y.pc = e.pc ∧ y.wst = e.wst ∧ y.res = e.res ∧ y.gates = rest ∧ upper y.g = e.g ∧
        (∀ i, i < 8 → atD y.g i 0 = atD x.g i 0) ∧ y.sp = x.sp ∧ s'.mem = s.mem)) ∧
    (x.gates = [] → CanEnter t 9 s → Completes (.wret t) s (Entered t 9 2 (encR 0x29 0 0 0 0 8) x.pc s)) ∧
    (∀ e rest, x.gates = e :: rest → CanEnter t 9 s →
      (x.world = bitsOf e.wst 1 1 → Completes (.wret t) s (Entered t 9 3 (encR 0x29 0 0 0 0 8) x.pc s)) ∧
      (x.world ≠ bitsOf e.wst 1 1 → x.pri ≠ bitsOf e.wst 8 5 ∨ x.syncDepth ≠ e.depth →
        Completes (.wret t) s (Entered t 9 4 (encR 0x29 0 0 0 0 8) x.pc s))))

/-- Where the most urgent pending source is more urgent than the tile's priority and may be taken, an event of the
tile's own world enters at its priority: the frame of the interrupted context is written, PC is at the handler, the
record of the priority holds the interrupted world and priority, EXC_STATUS.active shows it, and the hold window waits
for the handler's first instruction. One of the other world enters there, on that world's stack with a frame that shows
only the syndrome, every register clear and the interrupted context whole in the record. With ie 0 or a hold window open
it only ends a WAIT. (R109, R125, R126, R127, R130, R131, R132) -/
def Obligations.EventsPreempt : Prop :=
  ∀ (s : State) (t : Fin 24) (e p : Nat), urgentEvent s t = some (e, p) → atBoundary s t = true → p < 16 → e < 512 →
    let x := s.tileOf t
    (x.ie = false ∨ x.hold ≠ 0 → Completes (.eventEntry t false) s (fun s' =>
      s' = s.modTile t (fun y => { y with waiting := false, doze := false }))) ∧
    (∀ h hold, x.ie = true → x.hold = 0 → s.get (EVC_CFG.world t e) = x.world → StackReady s t x.world x.ssp →
      readVector s t x.world (32 + e) = some (h, hold) → vectorBad s t x.world (32 + e) = false →
      Completes (.eventEntry t false) s (fun s' =>
        let y := s'.tileOf t
        let esr : Word := BitVec.ofNat 32 (32 + e + (if x.sup then 0 else 2 ^ 24) + 2 ^ 25 * x.world + 2 ^ 26)
        y.pc = BitVec.ofNat 32 h ∧ y.epc = x.pc ∧ y.esr = esr ∧
        y.wst = BitVec.ofNat 32 (1 + 2 * x.world + 4 + 256 * p) ∧ y.sp = updAt x.sp (2 * x.world + 1) (· - 16) ∧
        (∃ r, atD y.recs p none = some r ∧ r.world = x.world ∧ r.pri = x.pri ∧ r.cross = false) ∧
        atD y.depth p 1 = 0 ∧ y.g = x.g ∧ y.res = x.res ∧ y.waiting = false ∧ y.holdNext = hold ∧
        bitN (s'.get (EXC_STATUS.active t)) p = true ∧ FrameAt t (x.ssp - 16) x.pc x.wst x.prog esr s s')) ∧
    (∀ h hold, x.ie = true → x.hold = 0 →
      let w := s.get (EVC_CFG.world t e)
      let sp := (atD x.sp (2 * w + 1) 0).toNat
      w ≠ x.world → StackReady s t w sp → readVector s t w (32 + e) = some (h, hold) → vectorBad s t w (32 + e) = false →
      Completes (.eventEntry t false) s (fun s' =>
        let y := s'.tileOf t
        let d := drainOps x
        let esr : Word := BitVec.ofNat 32 (32 + e + (if x.sup then 0 else 2 ^ 24) + 2 ^ 25 * x.world + 2 ^ 26)
        y.pc = BitVec.ofNat 32 h ∧ y.epc = 0 ∧ y.esr = esr ∧ y.prog = 0 ∧ y.g = Vector.replicate 15 0 ∧ y.res = .zero ∧
        y.wst = BitVec.ofNat 32 (1 + 2 * w + 4 + 256 * p) ∧ y.sp = updAt x.sp (2 * w + 1) (· - 16) ∧
        atD y.recs p none = some ⟨x.world, x.pri, true, x.pc, d.wst, x.prog, x.g, d.res⟩ ∧
        y.mulQ = [] ∧ y.macQ = [] ∧ y.div = none ∧ atD y.depth p 1 = 0 ∧ y.waiting = false ∧ y.holdNext = hold ∧
        bitN (s'.get (EXC_STATUS.active t)) p = true ∧ FrameAt t (sp - 16) 0 0 0 esr s s'))

/-- EVC_CFG takes its fields from the writers R124 names and raises foreign_write otherwise; clear_emerg clears the
writing world's flag; a hold window's last clk before ERET is an overrun; a wake that does not come, its target still
off, raises OFFLINE with detail 2; a missed line is cached and counted; 8 clk after a lockup the tile is reset with its
TCMs and its posted writes kept, and a releasable tile starts at 0x0000_0000 with its watchdog window open. (R118, R124,
R128, R135, R136, R188, R417, R420, Table ISA-12, Table EXC-10) -/
def Obligations.TileEventsAndResets : Prop :=
  (∀ (s : State) (t : Fin 24) (e : Fin 512) (v : Word) (vital : Bool),
    let own := s.get (EVC_CFG.world t e) = (if vital then 0 else 1)
    Completes (.evcCfg (.tile t vital true) t e v) s (fun s' =>
      (own → s'.get (EVC_CFG.enable t e) = bitsOf v 0 1 ∧ s'.get (EVC_CFG.priority t e) = bitsOf v 4 4) ∧
      (¬ own → s'.get (EVC_CFG.enable t e) = s.get (EVC_CFG.enable t e) ∧
        s'.get (EVC_CFG.priority t e) = s.get (EVC_CFG.priority t e)) ∧
      (vital = true ∧ s.get (EXC_CTRL.evc_lock t) = 0 → s'.get (EVC_CFG.world t e) = bitsOf v 8 1) ∧
      (vital = false ∨ s.get (EXC_CTRL.evc_lock t) = 1 → s'.get (EVC_CFG.world t e) = s.get (EVC_CFG.world t e)) ∧
      (¬ own ∧ bitsOf v 0 1 ≠ s.get (EVC_CFG.enable t e) → s'.get (EXC_EVENTS.foreign_write t) = 1) ∧
      RegsOnly [EVC_CFG t e, EXC_EVENTS t] s s')) ∧
  (∀ (s : State) (t : Fin 24) (vital : Bool), Completes (.clearEmerg (.tile t vital true) t) s (fun s' =>
    s'.get (if vital then EXC_STATUS.emerg_vital t else EXC_STATUS.emerg_common t) = 0 ∧ RegsOnly [EXC_STATUS t] s s')) ∧
  (∀ (s : State) (t : Fin 24) (v p : Nat), runs s t = true → (s.tileOf t).hold = 1 → (s.tileOf t).holder = some (v, p) → v < 1024 →
    Completes (.holdOverrun t) s (fun s' => s'.get (EXC_EVENTS.hold_overrun t) = 1 ∧ s'.get (EXC_OVERRUN.vector t) = v ∧
      s'.get (EXC_OVERRUN.count t) = Nat.min (s.get (EXC_OVERRUN.count t) + 1) (2 ^ (EXC_OVERRUN.count t).w - 1) ∧
      s'.tileOf t = { s.tileOf t with hold := 0, holder := none })) ∧
  (∀ (s : State) (t : Fin 24) (vital sup : Bool) (d a : Nat) (word : Word), runs s t = true → (s.tileOf t).entry = none →
    (s.tileOf t).woa = some (d, word, a) →
    let off := if d = 1 then (ioDomain (ioGlobal t a)).any (fun d => !domOn s d) else (placeOff s (place (some t) (unalias a).2).1).1
    (off = true → CanEnter t 6 s → Completes (.wakeTimeout (.tile t vital sup)) s (Entered t 6 2 word (s.tileOf t).pc s)) ∧
    (off = false → exec (.wakeTimeout (.tile t vital sup)) s = .next s)) ∧
  (∀ (s : State) (t : Fin 24), canIssue s t = true → s.get (TMEM_CTRL.icache_off t) = 0 →
    let a := (s.tileOf t).pc.toNat
    0x1000000 ≤ a → a < 0x2800000 → (a - 0x1000000) / 32 ∉ (s.tileOf t).icache → wordKey (codeKey s a) ∉ s.memh.bad →
    Completes (.icacheMissFill t 0) s (fun s' => (s'.tileOf t).icache.head? = some ((a - 0x1000000) / 32) ∧
      s'.regN (ICACHE_MISSES t) = (s.regN (ICACHE_MISSES t) + 1) % 2 ^ 32 ∧ OnlyRegs [ICACHE_MISSES t] s s' ∧
      (s'.tileOf t).bare = (s.tileOf t).bare ∧ s'.mem = s.mem)) ∧
  (∀ (s : State) (t : Fin 24) (n : Nat), (s.tileOf t).lockup = some n → 8 ≤ n →
    Completes (.lockupTileReset t) s (fun s' =>
      s'.tileOf t = { Tile.reset with wait := 64, pinned := (s.tileOf t).pinned, unloaded := (s.tileOf t).unloaded,
                                      posted := (s.tileOf t).posted } ∧
      s'.mem = s.mem ∧ s'.reg (EXC_LOCKUP t) = s.reg (EXC_LOCKUP t) ∧ s'.reg (EXC_EVENTS t) = ioReset (EXC_EVENTS t) ∧
      (∀ u, u ≠ t.val → s'.tileOf u = s.tileOf u))) ∧
  (∀ (s : State) (t : Fin 24), releasable s t = true → Completes (.tileResetRelease t) s (fun s' =>
    s'.tileOf t = { s.tileOf t with held := false } ∧ atD s'.flt.wdtL t 0 = s.now ∧ s'.io = s.io ∧ s'.mem = s.mem))

/-- On a cluster that is on and a channel that is not voted, a writer's EDG_CMP, ARM and DISARM set or clear the arm
(PWM channels take the value only), FORCE_ACTIVE and FORCE_INACTIVE set the level of the next edge in COMPARE, SYNC_TT
and EDG_SYNC set counters from TT by their source, EDG_CNT sets a counter, CLR_OVR clears the overrun. On a voted
channel EDG_CMP, ARM, DISARM and the forces only record the refusal; without a writer or the domain nothing happens.
(R241, R244, R245, R252, R254, Table EDG-5) -/
def Obligations.EdgeChannelCommandsTakeEffect : Prop :=
  (∀ (s : State) (m : Master) (c : Fin 6) (k : Fin 16) (v : Word), edgeWriter m c s = true → isVoted s c k = false →
    let f := s.get (EDG_CH_CTRL.func c k)
    let e : Nat := 16 * c + k
    let quiet : State → Prop := fun s' => OnlyRegs [EDG_CH_STAT c k, EDG_CMP c k] s s' ∧ { s' with io := s.io, edg := s.edg } = s
    let armedAt : Word → State → Prop := fun w s' => s'.get (EDG_CH_STAT.armed c k) = 1 ∧ s'.reg (EDG_CMP c k) = w ∧
      (s'.edgOf e).late = past (s.regN (EDG_CNT c k)) w.toNat ∧ s'.get (EDG_CH_STAT.cmd_result c k) = 0
    (f ≠ 2 → f ≠ 4 → Completes (.edgCmp m c k v) s (armedAt v) ∧ Completes (.arm m c k) s (armedAt (s.reg (EDG_CMP c k)))) ∧
    (f ≠ 2 → f ≠ 4 → s.get (EDG_CH_STAT.armed c k) = 0 →
      Completes (.edgCmp m c k v) s quiet ∧ Completes (.arm m c k) s quiet) ∧
    (f = 2 ∨ f = 4 → Completes (.edgCmp m c k v) s (fun s' => s'.reg (EDG_CMP c k) = v ∧ quiet s' ∧
      s'.get (EDG_CH_STAT.armed c k) = s.get (EDG_CH_STAT.armed c k))) ∧
    Completes (.disarm m c k) s (fun s' => s'.get (EDG_CH_STAT.armed c k) = 0 ∧ s'.get (EDG_CH_STAT.cmd_result c k) = 0 ∧
      RegsOnly [EDG_CH_STAT c k] s s') ∧
    (f = 1 →
      Completes (.forceActive m c k) s (fun s' => (s'.edgOf e).force = some true ∧ quiet s') ∧
      Completes (.forceInactive m c k) s (fun s' => (s'.edgOf e).force = some false ∧ quiet s'))) ∧
  (∀ (s : State) (m : Master) (c : Fin 6) (k : Fin 16) (v : Word), edgeWriter m c s = true →
    let src := s.get (EDG_CH_CTRL.src c k)
    (src ≤ 1 → Completes (.syncTt m c k) s (fun s' => s'.regN (EDG_CNT c k) = s.now % 2 ^ 32 ∧
      RegsOnly [EDG_CNT c k, EDG_CH_STAT c k] s s')) ∧
    (src = 2 → Completes (.syncTt m c k) s (fun s' => s'.regN (EDG_CNT c k) = s.now / 2 ^ 32 % 2 ^ 32)) ∧
    (src = 3 → Completes (.syncTt m c k) s (fun s' => RegsOnly [EDG_CH_STAT c k] s s')) ∧
    Completes (.clrOvr m c k) s (fun s' => s'.get (EDG_CH_STAT.ovr c k) = 0 ∧ RegsOnly [EDG_CH_STAT c k] s s') ∧
    Completes (.edgCnt m c k v) s (fun s' => s'.reg (EDG_CNT c k) = v ∧ RegsOnly [EDG_CNT c k] s s') ∧
    Completes (.edgSync m c v) s (fun s' =>
      (src ≤ 1 → v.getLsbD k = true → s'.regN (EDG_CNT c k) = s.now % 2 ^ 32) ∧
      (v.getLsbD k = false → s'.reg (EDG_CNT c k) = s.reg (EDG_CNT c k)) ∧
      RegsOnly ((List.range 16).map (EDG_CNT c)) s s')) ∧
  (∀ (s : State) (m : Master) (c : Fin 6) (k : Fin 16) (v : Word), edgeWriter m c s = true → isVoted s c k = true →
    ∀ i ∈ ([.edgCmp m c k v, .arm m c k, .disarm m c k, .forceActive m c k, .forceInactive m c k] : List Instr),
      Completes i s (fun s' => s'.get (EDG_CH_STAT.cmd_result c k) = 3 ∧ (s'.reg (EDG_ERR c)).getLsbD (16 + k) = true ∧
        RegsOnly [EDG_CH_STAT c k, EDG_ERR c] s s')) ∧
  (∀ (s : State) (m : Master) (c : Fin 6) (k : Fin 16) (v : Word), edgeWriter m c s = false →
    ∀ i ∈ ([.edgCmp m c k v, .arm m c k, .disarm m c k, .forceActive m c k, .forceInactive m c k, .syncTt m c k, .clrOvr m c k,
      .edgCnt m c k v, .edgSync m c v] : List Instr), exec i s = .next s)

/-- In OFF, without LOCK, the configuration fields are taken; with enable 1 and every check passed the channel goes to
WAIT in PWM and to RUN otherwise, and a failing check shows its code and leaves it OFF; beside the channel's own
registers only those that show what holds the channel and its ball may follow. A write of enable 0 takes a channel in
WAIT to OFF at once, a PWM channel that drains to DISABLING, and any other to OFF two edges later. (R257, R258, R260,
Table EDG-3, Table EDG-4) -/
def Obligations.EdgeChannelsEnableAndDisable : Prop :=
  (∀ (s : State) (m : Master) (c : Fin 6) (k : Fin 16) (v : Word), edgeWriter m c s = true →
    s.get (EDG_CH_STAT.state c k) = 0 → s.get (EDG_CTRL.lock c) = 0 →
    let s1 := s.set ⟨EDG_CH_CTRL c k, 1, 18⟩ (bitsOf v 1 18)
    -- where a change of what holds the channel is shown
    let shown : List Nat := [EDG_VOTED c, EDG_STATUS c] ++ (List.range 192).map PIN_OWNER
    (edgeCheck s1 c k = 0 → Completes (.edgeEnable m c k v) s (fun s' =>
      s'.get (EDG_CH_STAT.state c k) = (if bitsOf v 1 3 = 2 then 1 else 2) ∧ s'.get (EDG_CH_CTRL.enable c k) = 1 ∧
      s'.get ⟨EDG_CH_CTRL c k, 1, 18⟩ = bitsOf v 1 18 ∧ s'.get (EDG_CH_STAT.cmd_result c k) = 0 ∧
      s'.get (EDG_CH_STAT.cap_count c k) = 0 ∧ (s'.edgOf (16 * c + k)).stages = [] ∧
      OnlyRegs ([EDG_CH_CTRL c k, EDG_CH_STAT c k, EDG_CNT c k] ++ shown) s s' ∧
      { s' with io := s.io, edg := s.edg, ball := s.ball } = s)) ∧
    (edgeCheck s1 c k ≠ 0 → Completes (.edgeEnable m c k v) s (fun s' =>
      s'.get (EDG_CH_STAT.state c k) = 0 ∧ s'.get (EDG_CH_CTRL.enable c k) = s.get (EDG_CH_CTRL.enable c k) ∧
      s'.get (EDG_CH_STAT.cmd_result c k) = 2 ∧ s'.get (EDG_CH_STAT.cfg_code c k) = edgeCheck s1 c k ∧
      OnlyRegs ([EDG_CH_CTRL c k, EDG_CH_STAT c k] ++ shown) s s' ∧ { s' with io := s.io, edg := s.edg, ball := s.ball } = s))) ∧
  (∀ (s : State) (m : Master) (c : Fin 6) (k : Fin 16) (v : Word), edgeWriter m c s = true →
    let st := s.get (EDG_CH_STAT.state c k)
    let f := s.get (EDG_CH_CTRL.func c k)
    (st = 1 → Completes (.edgeDisable m c k v) s (fun s' => s'.get (EDG_CH_STAT.state c k) = 0 ∧
      s'.get (EDG_CH_STAT.level c k) = 0 ∧ s'.get (EDG_CH_CTRL.enable c k) = 0)) ∧
    (st = 2 → f = 2 → s.get (EDG_CH_CTRL.policy c k) = 0 → Completes (.edgeDisable m c k v) s (fun s' =>
      s'.get (EDG_CH_STAT.state c k) = 3 ∧ s'.get (EDG_CH_CTRL.enable c k) = 0 ∧
      RegsOnly [EDG_CH_CTRL c k, EDG_CH_STAT c k] s s')) ∧
    (2 ≤ st → f ≠ 2 ∨ s.get (EDG_CH_CTRL.policy c k) = 1 → (s.edgOf (16 * c + k)).off = 0 →
      Completes (.edgeDisable m c k v) s (fun s' => (s'.edgOf (16 * c + k)).off = 2 ∧ s'.get (EDG_CH_CTRL.enable c k) = 0 ∧
        s'.get (EDG_CH_STAT.state c k) = st ∧ OnlyRegs [EDG_CH_CTRL c k, EDG_CH_STAT c k] s s' ∧
        { s' with io := s.io, edg := s.edg } = s)))

/-- In a cluster that is on, an armed compare fires once past, from the edge after its arming: disarmed, its event flag
set, and in COMPARE the level set, cleared or inverted by its action unless it has moved on this edge or a disable holds
it; before that nothing changes; a PWM cycle's event fires once. A duty is loaded from EDG_CMP on the edge before its cycle and the cycle starts from it. A PWM transition
gives the level of the waveform at its instant. A capture of a selected edge on an owned input is stored behind the one
held, never more than two; a third marks ovr and is lost. A read takes the oldest. (R244, R245, R246, R247, R248, R251,
R252, R253) -/
def Obligations.EdgeUnitsCompareAndCapture : Prop :=
  (∀ (s : State) (c : Fin 6) (k : Fin 16),
    let f := s.get (EDG_CH_CTRL.func c k)
    let due := past (s.regN (EDG_CNT c k)) (s.regN (EDG_CMP c k)) = true
    let act := s.get (EDG_CH_CTRL.action c k)
    let lv := s.get (EDG_CH_STAT.level c k)
    let ready := domOn s (domCluster c) = true ∧ (s.edgOf (16 * c + k)).armEdge < s.clk.edges
    (f ≠ 2 → f ≠ 4 → s.get (EDG_CH_STAT.armed c k) = 1 → ready → due → Completes (.compareFire c k) s (fun s' =>
      s'.get (EDG_CH_STAT.armed c k) = 0 ∧ (s'.reg (EDG_EVENTS c)).getLsbD k = true ∧
      s'.get (EDG_CH_STAT.level c k) =
        (if f = 1 ∧ movedNow s c k = false ∧ (s.edgOf (16 * c + k)).off ≠ 1 then (if act = 0 then lv else if act = 1 then 1 else if act = 2 then 0 else 1 - lv) else lv))) ∧
    (f ≠ 2 → ¬ due ∨ ¬ ready ∨ s.get (EDG_CH_STAT.armed c k) = 0 → exec (.compareFire c k) s = .next s)) ∧
  (∀ (s : State) (c : Fin 6) (k : Fin 16), domOn s (domCluster c) = true → s.get (EDG_CH_CTRL.func c k) = 2 →
    s.get (EDG_CH_STAT.state c k) ≠ 0 →
    let h := s.edgOf (16 * c + k)
    (h.started = true → h.evtDone = false → past (s.regN (EDG_CNT c k)) (h.cycle + s.regN (EDG_EVT_OFS c k)) = true →
      Completes (.compareFire c k) s (fun s' => (s'.edgOf (16 * c + k)).evtDone = true ∧ (s'.reg (EDG_EVENTS c)).getLsbD k = true ∧
        OnlyRegs [EDG_EVENTS c] s s')) ∧
    (h.evtDone = true → exec (.compareFire c k) s = .next s) ∧
    (s.get (EDG_CH_STAT.state c k) ≠ 3 → h.loaded = false → past (nextCount s c k) h.next = true → Completes (.dutyLoad c k) s (fun s' =>
      s'.reg (EDG_ACT c k) = s.reg (EDG_CMP c k) ∧ (s'.edgOf (16 * c + k)).loaded = true ∧ OnlyRegs [EDG_ACT c k] s s')) ∧
    (s.get (EDG_CH_STAT.state c k) ≠ 3 → h.loaded = true → past (s.regN (EDG_CNT c k)) h.next = true →
      Completes (.cycleStart c k) s (fun s' =>
        let g := s'.edgOf (16 * c + k)
        s'.get (EDG_CH_STAT.state c k) = 2 ∧ g.cycle = h.next ∧ g.next = (h.next + s.regN (EDG_PER c k)) % 2 ^ 32 ∧
        g.dCur = s.regN (EDG_ACT c k) ∧ g.started = true ∧ g.loaded = false)) ∧
    (s.get (EDG_CH_STAT.state c k) = 3 → past (s.regN (EDG_CNT c k)) h.next = true →
      Completes (.cycleStart c k) s (fun s' => s'.get (EDG_CH_STAT.state c k) = 0 ∧ s'.get (EDG_CH_CTRL.enable c k) = 0))) ∧
  (∀ (s : State) (c : Fin 6) (k : Fin 16) (t : Word),
    (transitionAt s c k t.toNat = true → Completes (.pwmTransition c k t) s (fun s' =>
      s'.get (EDG_CH_STAT.level c k) = (if rawWave s c k t.toNat then 1 else 0) ∧
      s'.get (EDG_CH_STAT.level c k) ≠ s.get (EDG_CH_STAT.level c k) ∧
      (s'.edgOf (16 * c + k)).moved = some t.toNat ∧ OnlyRegs [EDG_CH_STAT c k] s s')) ∧
    (transitionAt s c k t.toNat = false → exec (.pwmTransition c k t) s = .next s)) ∧
  (∀ (s : State) (c : Fin 6) (k : Fin 16) (falling : Bool) (cross t0 : Nat),
    let kind := s.get (EDG_CH_CTRL.cap_edge c k)
    let h := (s.edgOf (16 * c + k)).stages
    domOn s (domCluster c) = true → s.get (EDG_CH_CTRL.func c k) = 3 → s.get (EDG_CH_STAT.state c k) = 2 → kind = 2 ∨ kind = (if falling then 1 else 0) →
    inputOwned s (0x10 + 16 * c + s.get (EDG_CH_CTRL.in_sel c k)) = true →
    (h.length < 2 → Completes (.capture c k falling cross t0) s (fun s' =>
      ∃ new : Capture, (s'.edgOf (16 * c + k)).stages = h ++ [new] ∧ new.falling = falling ∧ new.ovr = false ∧
        (s.refMode = true → new.value = BitVec.ofNat 32 (cross / 16) ∧ new.frac = cross % 16 ∧ new.coarse = false) ∧
        s'.get (EDG_CH_STAT.cap_count c k) = h.length + 1 ∧ (s'.reg (EDG_EVENTS c)).getLsbD (16 + k) = true)) ∧
    (∀ a b, h = [a, b] → Completes (.capture c k falling cross t0) s (fun s' =>
      (s'.edgOf (16 * c + k)).stages = [a, { b with ovr := true }] ∧ s'.get (EDG_CH_STAT.ovr c k) = 1 ∧
      (s'.reg (EDG_ERR c)).getLsbD k = true))) ∧
  (∀ (s : State) (m : Master) (c : Fin 6) (k : Fin 16) (a : Capture) (rest : List Capture), domOn s (domCluster c) = true →
    (s.edgOf (16 * c + k)).stages = a :: rest → Completes (.edgCapPop m c k) s (fun s' =>
      s'.data = a.value ∧ (s'.edgOf (16 * c + k)).stages = rest ∧ s'.get (EDG_CH_STAT.cap_count c k) = rest.length % 4 ∧
      OnlyRegs [EDG_CH_STAT c k] s s'))

/-- For an unlinked converter whose pair is on, a writer's enable with passing checks takes it from DISABLED to IDLE, GO
and a due schedule instant start a run from IDLE, a trigger in a run is counted lost; the entry in progress is written
on its edge with the code of R218 and the run goes on or ends; a disable takes IDLE to DISABLED and a run that drains to
DISABLING; reads and FLUSH empty the stream mailbox. Without a writer or the pair's domain commands do nothing. (R217,
R218, R221, R223, R224, R225, R227, R234, Table ADC-6, Table ADC-12) -/
def Obligations.ConvertersEnableRunAndDisable : Prop :=
  (∀ (s : State) (m : Master) (c : Fin 6) (x : Fin 2) (v : Word), supWriter m = true → domOn s (domPair c) = true →
    s.get (ADC_PAIR_CTRL.linked c) = 0 →
    let st := s.get (ADC_STAT.state c x)
    let run := s.get (ADC_STAT.run c x)
    let cfg : Nat := 2 * bitsOf v 1 3 + 16 * bitsOf v 4 5 + 4096 * bitsOf v 12 4
    let starts : State → Prop := fun s' => s'.get (ADC_STAT.state c x) = 2 ∧ s'.get (ADC_STAT.run c x) = (run + 1) % 256 ∧
      s'.get (ADC_STAT.entry c x) = 0 ∧ s'.regN (ADC_RUN_TT c x) = s.now % 2 ^ 32 ∧ (s'.adcOf c x).finished = false
    (st = 0 → adcCheck (s.setN (ADC_CTRL c x) cfg) c x = 0 → Completes (.adcEnable m c x v) s (fun s' =>
      s'.get (ADC_STAT.state c x) = 1 ∧ s'.get (ADC_CTRL.enable c x) = 1 ∧ s'.get (ADC_STAT.run c x) = 0 ∧
      s'.get (ADC_STAT.cmd_result c x) = 0 ∧ (∀ i, i < 16 → s'.reg (ADC_RES_LO c x i) = 0 ∧ s'.reg (ADC_RES_HI c x i) = 0))) ∧
    (st = 0 → adcCheck (s.setN (ADC_CTRL c x) cfg) c x ≠ 0 → Completes (.adcEnable m c x v) s (fun s' =>
      s'.get (ADC_STAT.state c x) = 0 ∧ s'.get (ADC_CTRL.enable c x) = 0 ∧ s'.get (ADC_STAT.cmd_result c x) = 3)) ∧
    (st = 1 → Completes (.adcDisable m c x v) s (fun s' => s'.get (ADC_STAT.state c x) = 0 ∧
      s'.get (ADC_CTRL.enable c x) = 0 ∧ s'.get (ADC_EVENTS.disabled c) = 1)) ∧
    (st = 2 → s.get (ADC_CTRL.policy c x) = 0 → Completes (.adcDisable m c x v) s (fun s' =>
      s'.get (ADC_STAT.state c x) = 3 ∧ s'.get (ADC_CTRL.enable c x) = 0)) ∧
    (s.get (ADC_CTRL.start c x) = 0 → st = 1 →
      Completes (.adcGo m c x) s (fun s' => starts s' ∧ s'.get (ADC_STAT.cmd_result c x) = 0)) ∧
    (s.get (ADC_CTRL.start c x) ≠ 0 → Completes (.adcGo m c x) s (fun s' => s'.get (ADC_STAT.cmd_result c x) = 2 ∧
      RegsOnly [ADC_STAT c x] s s')) ∧
    (s.get (ADC_CTRL.start c x) = 0 → st = 2 → Completes (.adcGo m c x) s (fun s' => s'.get (ADC_STAT.state c x) = 2 ∧
      s'.get (ADC_STAT.run c x) = run ∧ s'.get (ADC_STAT.cmd_result c x) = 1 ∧
      s'.get (ADC_COUNTS.lost c x) = Nat.min (s.get (ADC_COUNTS.lost c x) + 1) 0xFFFF)) ∧
    (∀ t, s.get (ADC_CTRL.start c x) = 1 → st = 1 → (s.adcOf c x).sched = some t → t ≤ s.now → s.regN (ADC_PERIOD c x) = 0 →
      Completes (.adcTtTrigger c x) s (fun s' => starts s' ∧ (s'.adcOf c x).sched = none)) ∧
    Completes (.flush m c x) s (fun s' => (s'.adcOf c x).fifo = [] ∧ s'.get (ADC_STAT.fifo_level c x) = 0 ∧
      OnlyRegs [ADC_STAT c x] s s')) ∧
  (∀ (s : State) (m : Master) (c : Fin 6) (x : Fin 2) (v : Word), supWriter m = false ∨ domOn s (domPair c) = false →
    ∀ i ∈ ([.adcEnable m c x v, .adcDisable m c x v, .adcGo m c x, .flush m c x] : List Instr), exec i s = .next s) ∧
  (∀ (s : State) (m : Master) (c : Fin 6) (x : Fin 2) (w : Word) (rest : List Word), domOn s (domPair c) = true →
    (s.adcOf c x).fifo = w :: rest → Completes (.adcFifoRead m c x) s (fun s' => s'.data = w ∧ (s'.adcOf c x).fifo = rest ∧
      s'.get (ADC_STAT.fifo_level c x) = rest.length % 64 ∧ OnlyRegs [ADC_STAT c x] s s')) ∧
  (∀ (s : State) (c : Fin 6) (x : Fin 2) (a b : Int), domOn s (domPair c) = true → s.get (ADC_PAIR_CTRL.linked c) = 0 → s.get (ADC_STAT.state c x) = 2 →
    let h := s.adcOf c x
    let i := h.entry
    let vin : Int := (if x = 0 then a else b) * 2 ^ s.get (ADC_SEQ.gain c x i)
    h.finished = false → adcWriteEdge s c x ≤ s.clk.edges → i < 16 →
    Completes (.conversionComplete c x a b) s (fun s' =>
      let w := s'.regN (ADC_RES_LO c x i)
      (w % 4096 : Int) = max 0 (min 4095 ((vin * 4096 + 2 ^ 23) / 2 ^ 24)) ∧ bitsOf (s'.reg (ADC_RES_LO c x i)) 12 1 = 1 ∧
      bitsOf (s'.reg (ADC_RES_LO c x i)) 14 1 = (if vin < 0 then 0 else if 2 ^ 24 ≤ vin then 1 else 0) ∧
      bitsOf (s'.reg (ADC_RES_LO c x i)) 24 8 = s.get (ADC_STAT.run c x) ∧
      s'.get (ADC_STAT.state c x) = (if s.get (ADC_CTRL.length c x) ≤ i then 1 else 2) ∧
      (i < s.get (ADC_CTRL.length c x) → (s'.adcOf c x).entry = i + 1)))

/-- With the core clocked, GPIO_SET, CLR and TGL change exactly the written bits that are not voted, and GPIO_DIR keeps
voted bits outputs; a write of a voted bit raises voted_write. A filtered input that has changed long enough shows in
GPIO_IN and its enabled event. A ball whose first requesting candidate differs from its owner hands over through its
phases; a bank with a wrong supply reads 0 and is flagged; an armed tamper input at its level wipes the Vault, and
wakes a device that is away. (R315, R319, R320, R322, R323, R324, R326, R330, R350, Table PIN-5, Table PWR-7) -/
def Obligations.PinsAndTheirOwners : Prop :=
  (∀ (s : State) (m : Master) (b : Fin 8) (v : Word), gpioWriter m = true → live s = true →
    let old := s.reg (GPIO_OUT b)
    let voted : Nat → Bool := fun i => (s.reg (GPIO_VOTED b)).getLsbD i
    let hits := ∃ i, i < 24 ∧ v.getLsbD i = true ∧ voted i = true
    let only : State → Prop := fun s' => (hits → s'.get PIN_EVENTS.voted_write = 1) ∧
      (¬ hits → s'.reg PIN_EVENTS = s.reg PIN_EVENTS) ∧ RegsOnly [GPIO_OUT b, PIN_EVENTS] s s'
    Completes (.gpioSet m b v) s (fun s' => only s' ∧
      ∀ i, i < 24 → (s'.reg (GPIO_OUT b)).getLsbD i = (old.getLsbD i || (v.getLsbD i && !voted i))) ∧
    Completes (.gpioClr m b v) s (fun s' => only s' ∧
      ∀ i, i < 24 → (s'.reg (GPIO_OUT b)).getLsbD i = (old.getLsbD i && !(v.getLsbD i && !voted i))) ∧
    Completes (.gpioTgl m b v) s (fun s' => only s' ∧
      ∀ i, i < 24 → (s'.reg (GPIO_OUT b)).getLsbD i = (old.getLsbD i ^^ (v.getLsbD i && !voted i))) ∧
    Completes (.gpioDir m b v) s (fun s' => RegsOnly [GPIO_DIR b, PIN_EVENTS] s s' ∧
      ∀ i, i < 24 → (s'.reg (GPIO_DIR b)).getLsbD i = (v.getLsbD i || voted i))) ∧
  (∀ (s : State) (n : Fin 192) (level : Bool) (t0 : Nat),
    let b : Nat := n / 24
    let k : Nat := n % 24
    let en := if level then s.reg (GPIO_RISE_EN b) else s.reg (GPIO_FALL_EN b)
    live s = true → s.get (PIN_BANK_STAT.mismatch b) = 0 → (s.reg (GPIO_IN b)).getLsbD k = !level →
    t0 + 100 * s.get (PIN_PADCFG.filter n) ≤ s.now →
    Completes (.inputChange n (some level) t0) s (fun s' => (s'.reg (GPIO_IN b)).getLsbD k = level ∧
      (en.getLsbD k = true → (s'.reg (GPIO_EVENTS b)).getLsbD k = true) ∧
      (en.getLsbD k = false → s'.reg (GPIO_EVENTS b) = s.reg (GPIO_EVENTS b)) ∧
      OnlyRegs [GPIO_IN b, GPIO_EVENTS b] s s' ∧ { s' with io := s.io, fnIn := s.fnIn, ball := s.ball } = s)) ∧
  (∀ (s : State) (n : Fin 192) (serial : Option Bool), live s = true → s.get PIN_STATUS.applied = 1 →
    let w := wantedOwner s n
    (w ≠ s.get (PIN_OWNER.index n) → Completes (.ownerDecision n serial) s (fun s' =>
      s'.get (PIN_OWNER.index n) = w ∧ s'.get (PIN_OWNER.owner n) = (if w = 7 then 0 else candOf s n w) ∧
      s'.get (PIN_OWNER.phase n) = 1 ∧ s'.get PIN_EVENTS.owner_change = 1 ∧ OnlyRegs [PIN_OWNER n, PIN_EVENTS] s s')) ∧
    (w = s.get (PIN_OWNER.index n) → Completes (.ownerDecision n serial) s (fun s' =>
      s'.get (PIN_OWNER.owner n) = s.get (PIN_OWNER.owner n) ∧ s'.get (PIN_OWNER.phase n) = s.get (PIN_OWNER.phase n) ∧
      OnlyRegs [PIN_OWNER n, PIN_EVENTS] s s' ∧ { s' with io := s.io, ball := s.ball } = s))) ∧
  (∀ (s : State) (n : Fin 192), live s = true → s.get (PIN_OWNER.phase n) = 1 → s.get (PIN_PADCFG.safe_change n) = 1 →
    Completes (.safeIntervalStart n) s (fun s' => s'.get (PIN_OWNER.phase n) = 2 ∧ s'.get (PIN_OWNER.safe n) = 1 ∧
      s'.get (PIN_OWNER.owner n) = s.get (PIN_OWNER.owner n) ∧ OnlyRegs [PIN_OWNER n] s s')) ∧
  (∀ (s : State) (n : Fin 192), live s = true →
    (s.get (PIN_OWNER.phase n) = 1 ∧ s.get (PIN_PADCFG.safe_change n) = 0) ∨ s.get (PIN_OWNER.phase n) = 2 →
    Completes (.takeover n) s (fun s' => s'.get (PIN_OWNER.phase n) = 0 ∧
      s'.get (PIN_OWNER.owner n) = s.get (PIN_OWNER.owner n) ∧ OnlyRegs [PIN_OWNER n] s s')) ∧
  (∀ (s : State) (b : Fin 8) (absent v18 : Bool),
    let bad := absent = true ∨ ∃ v, s.pwr.balls = some v ∧ v18 ≠ bitN v b
    (bad → Completes (.supplyMeasure b absent v18) s (fun s' => s'.get (PIN_BANK_STAT.mismatch b) = 1 ∧ s'.reg (GPIO_IN b) = 0 ∧
      (s.get (PIN_BANK_STAT.mismatch b) = 0 → s'.get PIN_EVENTS.supply_mismatch = 1))) ∧
    (¬ bad → Completes (.supplyMeasure b absent v18) s (fun s' => s'.get (PIN_BANK_STAT.mismatch b) = 0 ∧
      s'.get (PIN_BANK_STAT.measured b) = (if v18 then 1 else 0) ∧ RegsOnly [PIN_BANK_STAT b, PIN_STATUS] s s'))) ∧
  (∀ (s : State) (x : Fin 2) (level : Bool) (cycles : Nat),
    let armed := s.get ⟨PIN_TAMPER, x, 1⟩ = 1 ∧ s.get ⟨PIN_TAMPER, 2 + x, 1⟩ = (if level then 1 else 0) ∧
      Nat.max 1 (s.get PIN_TAMPER.filter) ≤ cycles
    (armed → s.pwr.low = none → s.pwr.entry = none → Completes (.tamperTrip x level cycles) s (fun s' => s'.get ⟨PIN_TAMPER_STAT, 2 + x, 1⟩ = 1 ∧
      s'.get ⟨PIN_EVENTS, 4 + x, 1⟩ = 1 ∧ s'.get VAULT_STATUS.wiping = 1 ∧ s'.get VAULT_STATUS.last_cause = 1 + x)) ∧
    (∀ cellar, armed → s.pwr.low = some cellar → s.pwr.entry = none → s.pwr.por = false → s.pwr.pwrc = false → s.get ⟨PWR_WAKE_EN, 3, 1⟩ = 1 →
      Completes (.tamperTrip x level cycles) s (fun s' => s'.pwr.low = none ∧ bitN (s'.get PWR_WAKE_REC.cause) 3 = true)) ∧
    (¬ armed → Completes (.tamperTrip x level cycles) s (fun s' => s'.get ⟨PIN_TAMPER_STAT, x, 1⟩ = (if level then 1 else 0) ∧
      RegsOnly [PIN_TAMPER_STAT] s s')))

/-- With the core clocked and a cluster bank's domain on, a writer R180 names takes a bank from On into an entry to the
state asked for, or from a low-power state into a wake; a bank in transition answers BUSY and a foreign writer DENIED,
neither changing the bank. An entry whose clamps have engaged ends in its target; a wake ends in On, a bank that lost
its contents reading 0 and every other byte kept. A corrected word is written back once and counted; conf_clear returns
a bank's conflict counters to 0. A wipe cause, or a write of wipe by a writer of the Vault, clamps the Vault and records
its cause, a first cause counting a wipe; any other writer changes nothing. When the clear completes every byte of the
Vault reads 0, every other byte is as it was, and vault_wiped is raised. A line leaves the MRAM write buffer oldest
first. (R175, R178, R180, R181, R182, R183, R186, R188, Table MEM-8, Table MEM-10) -/
def Obligations.MemoriesChangeTheirState : Prop :=
  (
    (∀ (s : State) (m : Master) (b : Fin 160) (v : Word), live s = true →
      (64 ≤ b.val → domOn s (domCluster ((b - 64) / 16)) = true) →
      let st := bankState s b
      let code := bitsOf v 0 2
      let result : Fld := ⟨bankCtrl b + 4, 4, 2⟩
      (bankWriter s b code m = false → Completes (.bankStateReq m b v) s (fun s' => s'.get result = 1 ∧ bankState s' b = st ∧
        RegsOnly [bankCtrl b + 4] s s')) ∧
      (bankWriter s b code m = true → s.get ⟨bankCtrl b + 8, 0, 3⟩ ≠ 3 →
        (st = 0 → code ≠ 0 → Completes (.bankStateReq m b v) s (fun s' => bankState s' b = 5 ∧ (s'.bankOf b).target = code ∧
          s'.get result = 0 ∧ s'.get ⟨bankCtrl b, 0, 2⟩ = code ∧ (b.val, 0) ∈ s'.memh.entering ∧
          OnlyRegs [bankCtrl b, bankCtrl b + 4] s s' ∧ s'.mem = s.mem)) ∧
        (1 ≤ st → st ≤ 3 → code = 0 → Completes (.bankStateReq m b v) s (fun s' => bankState s' b = 4 ∧ s'.get result = 0 ∧
          (s'.bankOf b).next = none ∧ s'.mem = s.mem)) ∧
        (st = 4 ∨ st = 5 → Completes (.bankStateReq m b v) s (fun s' => bankState s' b = st ∧ s'.get result = 3 ∧ s'.mem = s.mem)))) ∧
    (∀ (s : State) (b : Fin 160), live s = true → bankState s b = 5 → s.get ⟨bankCtrl b + 4, 3, 1⟩ = 1 →
      let h := s.bankOf b
      h.target < 4 → h.woaPend = false → Completes (.bankEntryDone b) s (fun s' => bankState s' b = h.target ∧
        s'.get ⟨bankCtrl b, 0, 2⟩ = h.target ∧ s'.get ⟨bankEvents b, 4, 1⟩ = 1 ∧ (s'.bankOf b).zero = (h.zero || h.target == 2) ∧
        s'.mem = s.mem)) ∧
    (∀ (s : State) (b : Fin 160), live s = true → bankState s b = 4 → (s.bankOf b).next = none →
      Completes (.bankWakeDone b) s (fun s' => bankState s' b = 0 ∧ s'.get ⟨bankEvents b, 4, 1⟩ = 1 ∧
        (s'.bankOf b).zero = false ∧
        ∀ k, s'.byte k = if (s.bankOf b).zero = true ∧ (bankKey b).1 ≤ k ∧ k < (bankKey b).1 + (bankKey b).2 then 0 else s.byte k)) ∧
    (∀ (s : State) (m : Master) (b : Fin 160), live s = true → bankWriter s b 0 m = true →
      let r := if b.val < 64 then BANK_CONF b 0 else CBANK_CONF ((b - 64) / 16) ((b - 64) % 16) 0
      Completes (.confClear m b) s (fun s' => { s' with io := s.io } = s ∧
        ∀ a, s'.reg a = if r ≤ a ∧ a < r + 0x200 then ioReset a else s.reg a)) ∧
    (∀ (s : State) (u : Fin 209), live s = true → writebackDue s u = true → Completes (.eccWriteback u) s (fun s' =>
      s'.memh.writeback = s.memh.writeback.eraseP (fun w => w.1 == u.val) ∧ s'.mem = s.mem ∧
      (u.val < 160 → s'.get ⟨bankCtrl u + 4, 8, 8⟩ = Nat.min (s.get ⟨bankCtrl u + 4, 8, 8⟩ + 1) 255))) ∧
    (∀ (s : State) (g : Nat), live s = true → s.memh.deepNext = some g → g < 19 → Completes (.deepExitGroup) s (fun s' =>
      s'.memh.deepNext = some (g + 1) ∧ s'.mem = s.mem ∧
      (∀ b, 8 * g ≤ b → b < 8 * g + 8 → bankState s' b = 2 ∨ bankState s' b = 4) ∧
      (∀ b, b < 160 → b < 8 * g ∨ 8 * g + 8 ≤ b → bankState s' b = bankState s b)))) ∧
  (
    (∀ (s : State) (cause : Fin 9) (m : Master),
      let wiped : Nat → State → Prop := fun n s' => s'.get VAULT_STATUS.wiping = 1 ∧ s'.get VAULT_STATUS.last_cause = n ∧
        s'.get VAULT_STATUS.restored = 0 ∧ s'.mem = s.mem ∧
        s'.get VAULT_STATUS.wipes =
          (if s.get VAULT_STATUS.wiping = 0 then Nat.min (s.get VAULT_STATUS.wipes + 1) 255 else s.get VAULT_STATUS.wipes)
      (cause ≠ 0 → Completes (.vaultWipe cause) s (wiped cause)) ∧
      (vitalOrSk m = true → Completes (.wipe m) s (wiped 7)) ∧ (vitalOrSk m = false → exec (.wipe m) s = .next s)) ∧
    (∀ s : State, s.get VAULT_STATUS.wiping = 1 → Completes .vaultWipeDone s (fun s' => s'.get VAULT_STATUS.wiping = 0 ∧
      s'.get MEM_EVENTS.vault_wiped = 1 ∧ OnlyRegs [VAULT_STATUS, MEM_EVENTS] s s' ∧
      ∀ k, s'.byte k = if 0x2FF00000 ≤ k ∧ k < 0x2FF10000 then 0 else s.byte k)) ∧
    (∀ s : State, live s = true → s.memh.lines.length ≤ 16 → Completes .mramLineWrite s (fun s' => s'.memh.lines = s.memh.lines.drop 1 ∧
      s'.get MEM_STATUS.wbuf_lines = s.memh.lines.length - 1 ∧
      s'.get MEM_STATUS.wbuf_busy = (if s.memh.lines.length ≤ 1 then 0 else 1) ∧ s'.mem = s.mem ∧ OnlyRegs [MEM_STATUS] s s')))

/-- STAGE_BEGIN starts a shadow of 1 to 262144 octets in IDLE; data follow in order and the last makes it STAGED for
checking; a wrong digest or failing check drops it with load_failed and a good one is shown as staged; ARM takes an
aligned instant 20 ms to one hour ahead with a higher epoch number, and names the first condition that fails; CANCEL
drops what is staged or armed; REVERT is taken in CHECKING of HA mode only. A refused command sets its code and nothing
else. (R33, R35, R36, R41, R402, Table INV-15, Table INV-16) -/
def Obligations.StagingCommandsTakeEffect : Prop :=
  let answers : Instr → State → Nat → Prop := fun c s code => Completes c s (fun s' => s'.get INV_STATUS.code = code ∧
    RegsOnly [INV_STATUS, INV_DETAIL] s s')
  (∀ (s : State) (persist : Bool) (total : BitVec 32) (digest : List Byte),
    (s.get INV_STATE.state ≠ 0 → answers (.stageBegin persist total digest) s invBusy) ∧
    (s.get INV_STATE.state = 0 → total = 0 ∨ 262144 < total.toNat → answers (.stageBegin persist total digest) s invBadFormat) ∧
    (s.get INV_STATE.state = 0 → 1 ≤ total.toNat → total.toNat ≤ 262144 →
      Completes (.stageBegin persist total digest) s (fun s' => s'.get INV_STATE.state = 1 ∧ s'.get INV_STATUS.code = invOk ∧
        s'.inv = { s.inv with shadow := [], total := total.toNat, digest := digest, persist := persist } ∧
        OnlyRegs [INV_STATE, INV_STATUS, INV_DETAIL] s s' ∧ { s' with io := s.io, inv := s.inv, flt := s.flt } = s))) ∧
  (∀ (s : State) (o : BitVec 32) (d : List Byte),
    let n := s.inv.shadow.length
    (s.get INV_STATE.state = 1 → o.toNat = n → n + d.length ≤ s.inv.total → Completes (.stageData o d) s (fun s' =>
      s'.inv = { s.inv with shadow := s.inv.shadow ++ d } ∧ s'.get INV_STATE.state = (if n + d.length = s.inv.total then 2 else 1) ∧
      RegsOnly [INV_STATE] s { s' with inv := s.inv, flt := s.flt })) ∧
    (s.get INV_STATE.state ≠ 1 ∨ o.toNat ≠ n ∨ s.inv.total < n + d.length → exec (.stageData o d) s = .next s)) ∧
  (∀ s : State,
    let dropped : State → Prop := fun s' => s'.get INV_STATE.state = 0 ∧ s'.get INV_EVENTS.load_failed = 1 ∧ s'.inv.shadow = [] ∧
      s'.inv.active = s.inv.active ∧ s'.reg INV_EPOCH = s.reg INV_EPOCH
    (s.get INV_STATE.state = 2 → Config.sha384 s.inv.shadow ≠ s.inv.digest → Completes .inventoryVerifyDone s (fun s' => dropped s' ∧
      s'.get INV_STATUS.code = invBadFormat)) ∧
    (s.get INV_STATE.state = 2 → (verifyStaged s).1 ≠ 0 → Completes .inventoryVerifyDone s dropped) ∧
    (s.get INV_STATE.state = 2 → (verifyStaged s).1 = 0 → Completes .inventoryVerifyDone s (fun s' => s'.get INV_STATE.state = 3 ∧
      s'.get INV_EVENTS.staged = 1 ∧ s'.regN INV_STAGE_VERSION = invVersionOf s.inv.shadow % 2 ^ 32 ∧ s'.inv = s.inv)) ∧
    (s.get INV_STATE.state ≠ 2 → exec .inventoryVerifyDone s = .next s)) ∧
  (∀ (s : State) (e : BitVec 32) (t : BitVec 64),
    let soon := t.toNat < s.now + 20000000
    let off := t.toNat % 10000000 ≠ 0 ∨ s.now + 3600000000000 < t.toNat
    let old := e.toNat ≤ s.regN INV_EPOCH
    (s.get INV_STATE.state < 3 → answers (.stageArm e t) s invNothingStaged) ∧
    (3 < s.get INV_STATE.state → answers (.stageArm e t) s invBusy) ∧
    (s.get INV_STATE.state = 3 → soon → answers (.stageArm e t) s invEpochTooSoon) ∧
    (s.get INV_STATE.state = 3 → ¬ soon → off → answers (.stageArm e t) s invEpochMisaligned) ∧
    (s.get INV_STATE.state = 3 → ¬ soon → ¬ off → old → answers (.stageArm e t) s invEpochNumber) ∧
    (s.get INV_STATE.state = 3 → ¬ soon → ¬ off → ¬ old → Completes (.stageArm e t) s (fun s' => s'.get INV_STATE.state = 4 ∧
      s'.pair INV_EPOCH_TT_LO = t.toNat ∧ s'.inv = { s.inv with armedEpoch := e.toNat } ∧ s'.get INV_STATUS.code = invOk))) ∧
  (∀ s : State,
    let st := s.get INV_STATE.state
    (st < 3 → answers .stageCancel s invNothingStaged) ∧ (4 < st → answers .stageCancel s invBusy) ∧
    (st = 3 ∨ st = 4 → Completes .stageCancel s (fun s' => s'.get INV_STATE.state = 0 ∧ s'.inv.shadow = [] ∧
      s'.get INV_STATUS.code = invOk ∧ s'.inv.active = s.inv.active)) ∧
    (st = 5 → s.get (HOST_FN_STAT.mode 8) = 1 → s.now < revertInstant s → Completes .revert s (fun s' =>
      s'.get INV_STATE.state = 6 ∧ s'.inv.revertAsked = true ∧ s'.get INV_STATUS.code = invOk)) ∧
    (st ≠ 5 ∨ s.get (HOST_FN_STAT.mode 8) = 0 ∨ revertInstant s ≤ s.now → answers .revert s invBusy))

/-- At its armed instant the shadow becomes the active inventory with its epoch number, the old one is held and checking
starts. At the decision instant in HW mode a required peer not heard with the new epoch makes the node revert. At the
revert instant an unobjected epoch is confirmed; one that is reverting restores the held inventory as the next epoch,
the inventory that was active taking the fallback's place, and so does a late revert of the epoch confirmed last. The
core being clocked, these happen at their instants; before them none of these does anything. (R36, R37, R38, R39, R40,
R381) -/
def Obligations.EpochsSwitchConfirmAndRevert : Prop :=
  (∀ s : State,
    (live s = true → s.get INV_STATE.state = 4 → s.pair INV_EPOCH_TT_LO ≤ s.now → Completes .epochTick s (fun s' =>
      s'.inv.active = s.inv.shadow ∧ s'.inv.fallback = s.inv.active ∧ s'.inv.shadow = [] ∧ s'.get INV_STATE.state = 5 ∧
      s'.get INV_STATE.fallback_held = 1 ∧ s'.get INV_EVENTS.switched = 1 ∧ s'.regN INV_EPOCH = s.inv.armedEpoch % 2 ^ 32 ∧
      s'.inv.tickE = s.pair INV_EPOCH_TT_LO)) ∧
    (s.get INV_STATE.state ≠ 4 ∨ s.now < s.pair INV_EPOCH_TT_LO → exec .epochTick s = .next s)) ∧
  (∀ s : State,
    let heard := fun (i : Nat) (r : PeerRec) => s.inv.arrivals.any (fun a => a.peer == i && decide (s.inv.tickE ≤ a.tt) &&
      decide (a.tt ≤ decisionInstant s) && a.epoch == s.regN INV_EPOCH && a.fp == r.fp)
    let missing := (peerRecs s.invB).zipIdx.any (fun e => bitN e.1.flags 0 && !bitN e.1.flags 1 && !heard e.2 e.1)
    let checks := s.get INV_STATE.state = 5 ∧ s.get (HOST_FN_STAT.mode 8) = 0 ∧ decisionInstant s ≤ s.now
    (live s = true → checks → missing = true → Completes .revertDecision s (fun s' => s'.get INV_STATE.state = 6 ∧ s'.get INV_EVENTS.revert_sent = 1 ∧
      s'.inv = { s.inv with sendRevert := true })) ∧
    (¬ checks ∨ missing = false → exec .revertDecision s = .next s)) ∧
  (∀ s : State, revertInstant s ≤ s.now →
    (live s = true → s.get INV_STATE.state = 5 → Completes .revertInstant s (fun s' => s'.get INV_STATE.state = 0 ∧ s'.inv.active = s.inv.active ∧
      s'.inv.confirmed = some (s.regN INV_EPOCH, revertInstant s, revertDelayMs s.invB * 1000000) ∧ s'.inv.sendRevert = false ∧
      s'.get INV_STATE.fallback_held = s.get INV_STATE.fallback_held ∧
      (s.inv.persist = true → s'.boot.persist.isSome ∧ s'.get INV_STATE.persist_pending = 1))) ∧
    (s.get INV_STATE.state ≠ 5 → exec .revertInstant s = .next s) ∧
    (live s = true → s.get INV_STATE.state = 6 → Completes .revertTick s (fun s' => s'.get INV_STATE.state = 0 ∧
      s'.inv.active = s.inv.fallback ∧ s'.inv.fallback = s.inv.active ∧ s'.inv.confirmed = none ∧
      s'.regN INV_EPOCH = (s.regN INV_EPOCH + 1) % 2 ^ 32 ∧ s'.get INV_STATE.fallback_held = s.get INV_STATE.fallback_held ∧
      s'.get INV_EVENTS.reverted = 1)) ∧
    (s.get INV_STATE.state ≠ 6 → exec .revertTick s = .next s)) ∧
  (∀ (s : State), s.now < revertInstant s → exec .revertInstant s = .next s ∧ exec .revertTick s = .next s) ∧
  (∀ (s : State) (t n r d : Nat), s.inv.lateAt = some t → s.inv.confirmed = some (n, r, d) →
    let applies := t ≤ s.now ∧ n = s.regN INV_EPOCH ∧ s.get INV_STATE.fallback_held = 1
    (live s = true → applies → Completes .lateRevertTick s (fun s' => s'.inv.active = s.inv.fallback ∧
      s'.inv.fallback = s.inv.active ∧ s'.inv.confirmed = none ∧
      s'.regN INV_EPOCH = (s.regN INV_EPOCH + 1) % 2 ^ 32 ∧ s'.get INV_EVENTS.late_revert = 1 ∧ s'.get INV_EVENTS.reverted = 1)) ∧
    (¬ applies → exec .lateRevertTick s = .next s))

/-- Outside Frost a beacon with the inventory applied is queued at a service port whose queue has room; a boot-status
frame is queued only in Frost, once at each multiple of 10 ms, and the first beacon is that of the first beacon instant after Thaw. A beacon of a listed peer shows its fingerprint, its state by fingerprint and epoch, its
degraded mark and its arrival, and is held for the check of an epoch; an unlisted sender changes nothing. A peer not
heard for 30 ms is missing. (R37, R38, R43, R45, R289, Table INV-23) -/
def Obligations.BeaconsAreSentAndHeard : Prop :=
  (∀ (s : State) (p : Fin 8),
    let cls := pcpClass s (s.get NET_SVC_CFG.pcp)
    let one : Nat → State → Prop := fun kind s' => ∃ f : NetFrame, (s'.portOf p).queues.toList.getD (cls % 8) [] =
      (s.portOf p).queues.toList.getD (cls % 8) [] ++ [f] ∧ f.dst = 0x03554C000001 ∧ f.src = macBase s ∧
      f.body.take 3 = [0x88, 0xB5, BitVec.ofNat 8 kind] ∧ f.vid = s.get NET_SVC_CFG.vid
    let room := 4 + usedCells s ≤ totalCells s ∧
      4 + (((s.portOf p).queues.toList.flatten).map cellsOf).sum ≤ s.get (PORT_QLIM.cells p)
    servicePorts s = [p.val] → room →
    (live s = true → s.frost = false → s.hasInv = true → (∀ thaw, s.flt.stableFrom = some thaw → thaw < beaconInstant s) →
      Completes .beaconSend s (one 1)) ∧
    (∀ thaw, s.flt.stableFrom = some thaw → beaconInstant s ≤ thaw → exec .beaconSend s = .next s) ∧
    (s.frost = true → exec .beaconSend s = .next s) ∧
    (live s = true → s.frost = true → s.now % 10000000 = 0 → s.net.bootSent ≠ s.now / 10000000 + 1 →
      Completes .bootStatusSend s (fun s' => one 2 s' ∧ s'.net.bootSent = s.now / 10000000 + 1)) ∧
    (s.frost = false ∨ s.net.bootSent = s.now / 10000000 + 1 ∨
      (s.now % 10000000 ≠ 0 ∧ s.now / 10000000 * 10000000 ≤ s.tt.last / 2 ^ 84) → exec .bootStatusSend s = .next s)) ∧
  (∀ (s : State) (mac : BitVec 48) (fp : List Byte) (epoch : BitVec 32) (flags : BitVec 8) (e : Fin 8) (i : Nat) (r : PeerRec),
    let c : Instr := .beaconReceive mac fp epoch flags e
    let found := (peerRecs s.invB).zipIdx.find? (fun e => e.1.mac == beBytes 6 mac.toNat)
    (found = none → exec c s = .next s) ∧
    (live s = true → found = some (r, i) → i < 64 → s.frost = false → bitN r.flags 1 = false → mac.toNat ≠ macBase s → Completes c s (fun s' =>
      s'.get (BEACON_PEER_STAT.state i) = (if fp ≠ r.fp then 2 else if epoch.toNat = s.regN INV_EPOCH then 1 else 3) ∧
      s'.regN (BEACON_PEER_FP0 i) = u32 fp 0 ∧ s'.get (BEACON_PEER_STAT.degraded i) = (if flags.getLsbD 1 then 1 else 0) ∧
      lookup s'.inv.lastBeacon i = some (stampNs s e) ∧ s'.inv.active = s.inv.active ∧
      (s.get INV_STATE.state = 5 → ∃ rest, s'.inv.arrivals = ⟨i, stampNs s e, epoch.toNat, fp⟩ :: rest)))) ∧
  (∀ (s : State) (i : Fin 64) (t : Nat), lookup s.inv.lastBeacon i = some t →
    (live s = true → t + 30000000 ≤ s.now → Completes (.peerMissing i) s (fun s' => s'.get (BEACON_PEER_STAT.state i) = 0 ∧
      (s.get (BEACON_PEER_STAT.state i) ≠ 0 → s'.get INV_EVENTS.peer_change = 1) ∧
      RegsOnly [BEACON_PEER_STAT i, INV_EVENTS] s s')) ∧
    (s.now < t + 30000000 → exec (.peerMissing i) s = .next s))

/-- With the core supplied, a watch check in range takes the ring out of UNPROVEN and counts 64 watch cycles; out of
range it makes it UNPROVEN. At a gate outside hold each source, by its edges against the ring, goes from ABSENT to
PROVING, to PROVEN at its eighth pass, or to FAILED. A missing edge fails a source in use, and so does its third loss of
lock in 1000 gates. In Lull the measured period becomes P. (R51, R52, R53, R54, R63, R66, Table CLK-2, Table CLK-3) -/
def Obligations.RingAndSourcesAreWatched : Prop :=
  (∀ (s : State) (count : Nat), powered s = true → 1600 ≤ count → count ≤ 2400 → Completes (.watchCheck count) s (fun s' =>
    s'.get CLK_RING.state = (if s.get CLK_RING.state = 0 then (if s.get CLK_STATUS.selected < 0x0A then 2 else 1)
      else s.get CLK_RING.state) ∧
    s'.pair DRZ_TICK_LO = (s.pair DRZ_TICK_LO + 64) % 2 ^ 64 ∧ (s.clk.hold ≠ 0 → s'.flt.due.isSome) ∧
    RegsOnly [CLK_RING, DRZ_TICK_LO, DRZ_TICK_HI] s { s' with clk := s.clk, flt := s.flt })) ∧
  (∀ (s : State) (count : Nat), powered s = true → count < 1600 ∨ 2400 < count → Completes (.watchCheck count) s (fun s' =>
    s'.get CLK_RING.state = 0 ∧ s'.get CLK_EVENTS.ring_fail = 1 ∧ s'.pair DRZ_TICK_LO = (s.pair DRZ_TICK_LO + 64) % 2 ^ 64 ∧
    (∀ i : Fin 11, s'.clk.held[i] = (s.get (CLK_SRC_STAT.state i) == 2)) ∧
    RegsOnly [CLK_RING, CLK_EVENTS, DRZ_TICK_LO, DRZ_TICK_HI] s { s' with clk := s.clk, flt := s.flt })) ∧
  (∀ (s : State) (edges : Vector Nat 11) (links : BitVec 8) (watch trim est : Nat) (i : Fin 11) (nom : Nat),
    let c : Instr := .monitorGate edges links watch trim est
    let ring := s.get CLK_RING.state
    let st := s.get (CLK_SRC_STAT.state i)
    let n := Nat.min 8 (s.get (CLK_SRC_STAT.pass_count i) + 1)
    let dev : Int := 16 * (edges[i] : Int) * 1000000 -
      nom * (1000000 - (if ring = 3 then signedN 16 (s.get CLK_RING.error_ppm) else 0))
    let within := dev.natAbs ≤ nom * (if ring = 3 then 200 else 150000)
    s.clk.hold = 0 → nominal16 s i = some nom →
    (i.val < 8 → s.get (PORT_CFG.role i) ≠ 0 ∧ links.getLsbD i = true ∧ domOn s (domLane i) = true ∧ atD s.clk.linkDown i false = false) →
    ring ≠ 0 →
    (st = 0 → edges[i] ≠ 0 → Completes c s (fun s' => s'.get (CLK_SRC_STAT.state i) = 1 ∧ s'.get (CLK_SRC_STAT.pass_count i) = 0)) ∧
    (st = 1 → within → Completes c s (fun s' => s'.get (CLK_SRC_STAT.state i) = (if n = 8 then 2 else 1) ∧
      s'.get (CLK_SRC_STAT.pass_count i) = n)) ∧
    (st = 2 → within → Completes c s (fun s' => s'.get (CLK_SRC_STAT.state i) = 2 ∧ s'.get (CLK_SRC_STAT.pass_count i) = n ∧
      s'.clk.held[i] = false)) ∧
    (st = 1 ∨ st = 2 → ¬ within → Completes c s (fun s' => s'.get (CLK_SRC_STAT.state i) = 3 ∧
      s'.get (CLK_SRC_STAT.pass_count i) = 0 ∧ s'.get CLK_EVENTS.ref_fail = 1 ∧
      s'.get (CLK_SRC_STAT.fail_cause i) = (if st = 2 ∧ s.clk.held[i] = true then 6 else if ring = 3 then 2 else 3)))) ∧
  (∀ (s : State) (i : Fin 11),
    let st := s.get (CLK_SRC_STAT.state i)
    (st = 1 ∨ st = 2 → Completes (.missingEdge i) s (fun s' => s'.get (CLK_SRC_STAT.state i) = 3 ∧
      s'.get (CLK_SRC_STAT.fail_cause i) = 1 ∧ s'.get (CLK_SRC_STAT.pass_count i) = 0 ∧ s'.get CLK_EVENTS.ref_fail = 1)) ∧
    (st ≠ 1 → st ≠ 2 → exec (.missingEdge i) s = .next s)) ∧
  (∀ s : State,
    let sel := s.get CLK_STATUS.selected
    let old := s.clk.slips.filter (fun g => s.clk.gates < g.2 + 1000)
    let mine := old.filter (fun g => g.1 == sel)
    (sel < 11 → mine.length < 2 → Completes .loopLossOfLock s (fun s' => s'.get CLK_EVENTS.loop_slip = 1 ∧
      s'.clk.slips = (sel, s.clk.gates) :: old ∧ RegsOnly [CLK_EVENTS] s { s' with clk := s.clk })) ∧
    (sel < 11 → 2 ≤ mine.length → s.get CLK_RING.state ≠ 0 → s.get (CLK_SRC_STAT.state sel) = 2 →
      Completes .loopLossOfLock s (fun s' => s'.get (CLK_SRC_STAT.state sel) = 3 ∧ s'.get (CLK_SRC_STAT.fail_cause sel) = 5 ∧
        s'.get CLK_EVENTS.loop_slip = 1 ∧ s'.clk.slips = old.filter (fun g => g.1 != sel)))) ∧
  (∀ (s : State) (p : BitVec 24),
    (s.get CLK_STATUS.mode = 3 → s.get CLK_STATUS.glide = 0 → s.get CLK_RING.state ≠ 0 →
      Completes (.periodMeasure p) s (fun s' => s'.get CLK_PERIOD_MEAS.period = p.toNat ∧ s'.get CLK_PERIOD_MEAS.valid = 1 ∧
        s'.regN TT_PERIOD = p.toNat * 256 ∧ s'.reg TT_PERIOD_FINE = 0 ∧
        RegsOnly [CLK_PERIOD_MEAS, TT_PERIOD, TT_PERIOD_FINE] s s')) ∧
    (s.get CLK_STATUS.mode ≠ 3 ∨ s.get CLK_STATUS.glide = 1 ∨ s.get CLK_RING.state = 0 → exec (.periodMeasure p) s = .next s))

/-- On a decision edge the loop keeps a listed PROVEN source, else starts a switch to the best listed source that may be
chosen, else enters Lull; in START it takes none but an external source, the ring being the old source. In HW mode a
source ahead that has stayed PROVEN for the hold-off, in train time (log 120), is switched to. CLK_SELECT answers with
the code of its first failing condition, and with 0 starts the switch; only a device writer is heard. (R55, R56, R62,
R66, R445, Table CLK-4) -/
def Obligations.SourcesAreChosen : Prop :=
  (∀ (s : State) (i : Nat), s.get CLK_STATUS.switching = 0 → s.clk.hold = 0 →
    let m := s.get CLK_STATUS.mode
    let sel := s.get CLK_STATUS.selected
    let kept := sel ∈ refList s ∧ s.get (CLK_SRC_STAT.state sel) = 2
    let starts : Nat → Nat → State → Prop := fun src cause s' => s'.clk.switch = some ⟨src, i, cause, false⟩ ∧
      s'.get CLK_STATUS.switching = 1 ∧ s'.get CLK_STATUS.mode = m ∧ s'.get CLK_STATUS.selected = sel ∧
      RegsOnly [CLK_STATUS, CLK_LAST_SWITCH] s { s' with clk := s.clk, flt := s.flt }
    let lulled : State → Prop := fun s' => s'.get CLK_STATUS.mode = 3 ∧ s'.get CLK_STATUS.lull = 1 ∧ s'.get CLK_STATUS.glide = 1 ∧
      s'.get CLK_STATUS.selected = 0xFE ∧ s'.get CLK_EVENTS.lull_enter = 1 ∧ s'.clk.glideLeft = 8192 ∧ s'.clk.glideMode = 3
    (m = 0 → (refList s).find? (fun j => j != 0x0A && selectable s j) = some i → Completes .sourceDecision s (starts 0x0A 5)) ∧
    (m = 1 ∨ m = 2 → kept → Completes .sourceDecision s (fun s' => { s' with clk := s.clk } = s ∧ s'.clk.failedNow = false)) ∧
    (m = 1 ∨ m = 2 → ¬ kept → s.get CLK_RING.state ≠ 0 → (refList s).find? (selectable s) = some i →
      Completes .sourceDecision s (starts sel (if sel ∈ refList s then 0 else 5))) ∧
    (m = 1 ∨ m = 2 → ¬ kept → s.get CLK_RING.state = 0 → Completes .sourceDecision s (fun s' => lulled s' ∧
      s'.get CLK_EVENTS.hold_verdict = 1 ∧ s'.clk.lullRing = true)) ∧
    (m = 1 ∨ m = 2 → ¬ kept → s.get CLK_RING.state ≠ 0 → (refList s).find? (selectable s) = none →
      Completes .sourceDecision s lulled) ∧
    (m = 3 → (refList s).find? (selectable s) = some i → Completes .sourceDecision s (starts 0xFE 3))) ∧
  (∀ (s : State) (i : Nat), s.get CLK_STATUS.switching = 0 →
    let m := s.get CLK_STATUS.mode
    let sel := s.get CLK_STATUS.selected
    let ms := s.get CLK_CTRL.revert_holdoff_ms
    m = 1 ∨ m = 2 → s.get (CLK_SRC_STAT.state sel) = 2 → s.ha 0 = false → ms ≠ 0 →
    ((refList s).takeWhile (· != sel)).find? (fun j => selectable s j && 
      decide (Nat.max (atD s.clk.provenAt j 0) s.clk.holdFrom + ms * 1000000 ≤ s.now)) = some i →
    Completes .revertHoldoff s (fun s' => s'.clk.switch = some ⟨sel, i, 1, false⟩ ∧ s'.get CLK_STATUS.switching = 1)) ∧
  (∀ (s : State) (m : Master) (v : Word),
    let src := bitsOf v 0 8
    let busy := s.get CLK_STATUS.switching = 1 ∨ s.get CLK_STATUS.glide = 1 ∨ s.clk.failedNow = true ∨ s.get CLK_STATUS.mode = 0
    let answers : Nat → Prop := fun r => Completes (.clkSelect m v) s (fun s' => s'.get CLK_STATUS.select_result = r ∧
      RegsOnly [CLK_STATUS] s s' ∧ s'.get CLK_STATUS.selected = s.get CLK_STATUS.selected)
    (devWriter m = false → exec (.clkSelect m v) s = .next s) ∧
    (devWriter m = true → live s = true →
      (s.ha 0 = false → answers 3) ∧ (s.ha 0 = true → busy → answers 4) ∧
      (s.ha 0 = true → ¬ busy → src ∉ refList s → answers 2) ∧
      (s.ha 0 = true → ¬ busy → src ∈ refList s → s.get CLK_STATUS.selected = src → answers 5) ∧
      (s.ha 0 = true → ¬ busy → src ∈ refList s → s.get CLK_STATUS.selected ≠ src → selectable s src = false → answers 1) ∧
      (s.ha 0 = true → ¬ busy → src ∈ refList s → s.get CLK_STATUS.selected ≠ src → selectable s src = true →
        Completes (.clkSelect m v) s (fun s' => s'.get CLK_STATUS.select_result = 0 ∧ s'.get CLK_STATUS.switching = 1 ∧
          s'.clk.switch = some ⟨if s.get CLK_STATUS.mode = 3 then 0xFE else s.get CLK_STATUS.selected, src, 2, false⟩ ∧
          s'.get CLK_LAST_SWITCH.cause = 2 ∧ s'.get CLK_LAST_SWITCH.to = src))))

/-- A switch that ends selects its source alone, records its instant, and starts a glide where the mode changes. The
timeout of a switch from a source is counted once. A glide that has run out ends: no Lull outside Lull, degraded outside
REF, P nominal. With the ring UNPROVEN in START before any passed check, or in a Lull entered for it, the hold is entered: links down, the hold
recorded, and a switch to the watch oscillator started, which ends without a source selected; a further timeout makes
rung 4 due, or rung 3 at its limit. (R49, R58, R64, R65, R67, R413, Table CLK-5, Table TT-1) -/
def Obligations.SwitchesGlidesAndHolds : Prop :=
  (∀ (s : State) (w : SwitchH), s.clk.switch = some w → w.dst < 11 →
    let m := if w.dst = 0x0A then 2 else 1
    Completes .referenceSwitchDone s (fun s' => s'.get CLK_STATUS.selected = w.dst ∧ s'.get CLK_STATUS.switching = 0 ∧
      s'.get CLK_STATUS.mode = m ∧ (∀ i : Fin 11, s'.get (CLK_SRC_STAT.selected i) = if i.val = w.dst then 1 else 0) ∧
      s'.get CLK_EVENTS.switched = 1 ∧ s'.pair CLK_SWITCH_TT_LO = s.now % 2 ^ 64 ∧
      s'.get CLK_COUNTS.switches = Nat.min (s.get CLK_COUNTS.switches + 1) 65535 ∧ s'.clk.switch = none ∧
      (s.get CLK_STATUS.mode = m → s'.get CLK_STATUS.glide = s.get CLK_STATUS.glide) ∧
      (s.get CLK_STATUS.mode ≠ m → s'.get CLK_STATUS.glide = 1 ∧ s'.clk.glideLeft = 8192 ∧ s'.clk.glideMode = m))) ∧
  (∀ (s : State) (w : SwitchH), s.clk.switch = some w → w.dst = 0xFF → Completes .referenceSwitchDone s (fun s' =>
    s'.clk.switch = none ∧ s'.get CLK_STATUS.switching = 0 ∧ RegsOnly [CLK_STATUS] s { s' with clk := s.clk })) ∧
  (∀ (s : State) (w : SwitchH), s.clk.switch = some w →
    (w.dead = false → w.src ≠ 0xFE ∨ w.dst = 0xFF → Completes .deadswitch s (fun s' => s'.get CLK_LAST_SWITCH.deadswitch = 1 ∧
      s'.get CLK_COUNTS.deadswitches = Nat.min (s.get CLK_COUNTS.deadswitches + 1) 65535 ∧ s'.get CLK_EVENTS.deadswitch = 1 ∧
      s'.clk.switch = some { w with dead := true } ∧ s'.get CLK_STATUS.selected = s.get CLK_STATUS.selected)) ∧
    (w.dead = true ∨ (w.src = 0xFE ∧ w.dst ≠ 0xFF) → exec .deadswitch s = .next s)) ∧
  (∀ s : State,
    (s.get CLK_STATUS.glide = 1 → s.clk.glideLeft = 0 → Completes .glideEnd s (fun s' => s'.get CLK_STATUS.glide = 0 ∧
      s'.get CLK_STATUS.degraded = (if s.clk.glideMode = 1 then 0 else 1) ∧
      (s.clk.glideMode ≠ 3 → s.get CLK_STATUS.lull = 1 → s'.get CLK_STATUS.lull = 0 ∧ s'.get CLK_EVENTS.lull_exit = 1) ∧
      s'.get CLK_STATUS.spread_active =
        (if s.get CLK_STATUS.mode = 1 ∧ s.get CLK_REF_CFG.spread_depth ≠ 0 then 1 else 0) ∧
      (s.clk.glideMode = 1 → s'.reg TT_PERIOD = 0x01555555 ∧ s'.reg TT_PERIOD_FINE = 0x55555555))) ∧
    (s.get CLK_STATUS.glide = 0 ∨ s.clk.glideLeft ≠ 0 → exec .glideEnd s = .next s)) ∧
  (∀ s : State,
    let starting := s.get CLK_STATUS.mode = 0 ∧ s.clk.passed = false
    (s.clk.hold = 0 → s.get CLK_RING.state = 0 → starting ∨ s.clk.lullRing = true → Completes .clockFaultHold s (fun s' =>
      s'.clk.hold = (if starting then 1 else 2) ∧ s'.get CLK_HOLD_RECORD.hold_entered = 1 ∧
      s'.get CLK_HOLD_RECORD.at_power_on = (if starting then 1 else 0) ∧
      s'.get CLK_HOLD_RECORD.holds = Nat.min (s.get CLK_HOLD_RECORD.holds + 1) 255 ∧
      s'.get HOST_STATUS.pcie_link = 0 ∧ (∀ p : Fin 8, s'.get (PORT_STATUS.link p) = 0) ∧
      s'.clk.switch = some ⟨if starting then 0x0A else 0xFE, 0xFF, 0, false⟩)) ∧
    (s.clk.hold ≠ 0 ∨ s.get CLK_RING.state ≠ 0 ∨ (¬ starting ∧ s.clk.lullRing = false) → exec .clockFaultHold s = .next s)) ∧
  (∀ s : State,
    let limit := s.get LADDER_CFG1.r4_limit
    s.clk.hold ≠ 0 → s.get CLK_RING.state = 0 → s.flt.due = none →
    (limit = 0 ∨ s.get LADDER_STATUS.rung4 < limit → Completes .holdTimeout s (fun s' => s'.flt.due = some (4, 0, 3) ∧
      s'.io = s.io)) ∧
    (limit ≠ 0 → limit ≤ s.get LADDER_STATUS.rung4 → Completes .holdTimeout s (fun s' => s'.flt.due = some (3, 0, 3) ∧
      s'.get LADDER_STATUS.exhausted = 1)))

/-- A Sync on the slave port, stamped in its eighth of the present cycle, sets TT_OFFSET, TT_RATE and TT_SYNC in either
mode. In HW mode the first takes the servo from FREE to ACQUIRE with a step where one is permitted; in ACQUIRE the
fourth within lock_ns locks it; in LOCKED half the offset is slewed away, and a second one outside lock_ns unlocks it;
three intervals without a Sync bring HOLDOVER. In HA mode the servo is not touched. Other ports, the grandmaster and a
port without a delay take no Sync. (R79, R80, R81, R82, R83, R84, Table TT-2) -/
def Obligations.SyncsDriveTheServo : Prop :=
  (∀ (s : State) (p e : Fin 8) (origin corr cum : Int) (interval seqId : Nat),
    let c : Instr := .syncReceive p e origin corr cum interval seqId
    let rx : Int := ((s.tt.t + s.ttInc * e / 8) / 2 ^ 76 : Nat)
    let ratio : Int := if s.get CLK_STATUS.selected < 8 ∧ s.get CLK_STATUS.selected = p then 0 else cum + (s.portOf p).nrr
    let off : Int := rx - (origin * 256 + corr + s.regN (TT_PORT_DELAY p) + signedN 32 (s.regN (TT_PORT_ASYM p)))
    let st := s.get TT_STATUS.state
    let near := off.natAbs ≤ s.get TT_CTRL.lock_ns * 256
    let far := s.get TT_CTRL.step_threshold_us * 256000 < off.natAbs
    let permitted := s.get BOOT_STATUS.frost = 1 ∨ s.get TT_STATUS.ever_synced = 0
    let shown : State → Prop := fun s' => s'.regN TT_OFFSET = toBits 32 (clampS 32 off) ∧
      s'.get TT_SYNC.sequence_id = seqId % 65536 ∧ s'.get TT_SYNC.port = p ∧ s'.tt.lastSync = s.now ∧ s'.tt.interval = interval ∧
      s'.regN TT_RATE = toBits 32 (clampS 32 (ratio / 512))
    (s.get TT_STATUS.slave_port ≠ p ∨ s.tt.gm = true ∨ s.reg (TT_PORT_DELAY p) = 0xFFFFFFFF → exec c s = .next s) ∧
    (live s = true → s.get TT_STATUS.slave_port = p → s.tt.gm = false → s.reg (TT_PORT_DELAY p) ≠ 0xFFFFFFFF →
      (s.ha 1 = true → Completes c s (fun s' => shown s' ∧ s'.get TT_STATUS.state = st ∧ s'.tt.slew = s.tt.slew ∧ s'.tt.t = s.tt.t)) ∧
      (s.ha 1 = false →
        (st = 0 → permitted → Completes c s (fun s' => s'.get TT_STATUS.state = 1 ∧ s'.get TT_STATUS.ever_synced = 1 ∧
          s'.get TT_EVENTS.step_taken = 1 ∧ (s'.tt.t : Int) = ((s.tt.t : Int) - off.tdiv 256 * 2 ^ 84) % 2 ^ 148 ∧
          s'.tt.slew = (off - off.tdiv 256 * 256) * 2 ^ 76)) ∧
        (st = 1 → ¬ far → near → Completes c s (fun s' => shown s' ∧ s'.tt.good = s.tt.good + 1 ∧
          s'.tt.slew = off.tdiv 2 * 2 ^ 76 ∧ s'.tt.t = s.tt.t ∧ s'.get TT_STATUS.state = (if 3 ≤ s.tt.good then 2 else 1) ∧
          (3 ≤ s.tt.good → s'.get TT_EVENTS.locked = 1))) ∧
        (st = 1 → far → ¬ permitted → Completes c s (fun s' => shown s' ∧ s'.tt.good = 0 ∧ s'.tt.slew = off * 2 ^ 76 ∧
          s'.get TT_STATUS.state = 1 ∧ s'.get TT_EVENTS.step_far = 1 ∧ s'.tt.t = s.tt.t)) ∧
        (st = 2 → near → Completes c s (fun s' => shown s' ∧ s'.get TT_STATUS.state = 2 ∧ s'.tt.slew = off.tdiv 2 * 2 ^ 76 ∧
          s'.tt.bad = 0 ∧ s'.tt.t = s.tt.t)) ∧
        (st = 2 → ¬ near → s.tt.bad = 0 → Completes c s (fun s' => shown s' ∧ s'.get TT_STATUS.state = 2 ∧ s'.tt.bad = 1)) ∧
        (st = 2 → ¬ near → s.tt.bad ≠ 0 → Completes c s (fun s' => s'.get TT_STATUS.state = 1 ∧ s'.get TT_EVENTS.unlocked = 1))))) ∧
  (∀ s : State,
    let st := s.get TT_STATUS.state
    (live s = true → s.ha 1 = false → st = 1 ∨ st = 2 → s.tt.lastSync + 3 * s.tt.interval ≤ s.now → Completes .syncTimeout s (fun s' =>
      s'.get TT_STATUS.state = 3 ∧ s'.get TT_EVENTS.holdover = 1 ∧ (st = 2 → s'.get TT_EVENTS.unlocked = 1) ∧
      s'.get TT_STATUS.degraded = 1 ∧ s'.tt = s.tt)) ∧
    (s.ha 1 = true ∨ st = 0 ∨ 3 ≤ st ∨ s.now < s.tt.lastSync + 3 * s.tt.interval → exec .syncTimeout s = .next s))

/-- A core edge, a step on an empty queue (log 10), adds P × D / 256 to TT, less what a slew takes. In HA mode a device
writer's TT_SLEW_AMOUNT starts a slew of that amount, its ha_state becomes the servo's state, and a permitted TT_STEP
moves TT by whole nanoseconds and ends any slew; a step not permitted is refused and in HW mode none is taken, the
written amount ignored. SNAP_GO takes valid sources and starts a capture unless one is pending. Other writers change
nothing, nor does ha_state at a code above 4. (R74, R81, R82, R84, R89) -/
def Obligations.TrainTimeIsSteered : Prop :=
  (∀ s : State, s.pending = [] → clocked s = true →
    let inc := (s.regN TT_PERIOD * 2 ^ 32 + s.regN TT_PERIOD_FINE) * s.clk.divD * 2 ^ 20
    let rate := Nat.max 1 (if s.tt.slewHost then s.get TT_SLEW_RATE.rate else s.get TT_CTRL.slew_max)
    let cut := Nat.min s.tt.slew.natAbs (inc * rate / 2 ^ 20)
    ∃ t, step s = .next t ∧
      (0 ≤ s.tt.slew → (t.tt.t : Int) = ((s.tt.t : Int) + inc - cut) % 2 ^ 148 ∧ t.tt.slew = s.tt.slew - cut) ∧
      (s.tt.slew < 0 → (t.tt.t : Int) = ((s.tt.t : Int) + inc + cut) % 2 ^ 148 ∧ t.tt.slew = s.tt.slew + cut)) ∧
  (∀ (s : State) (m : Master) (v : Word),
    (devWriter m = true → live s = true → s.ha 1 = true → Completes (.ttSlewAmount m v) s (fun s' =>
      s'.tt = { s.tt with slew := v.toInt * 2 ^ 76, slewHost := true } ∧ s'.reg TT_SLEW_LEFT = v ∧
      s'.get TT_STATUS.slewing = (if v = 0 then 0 else 1) ∧ RegsOnly [TT_SLEW_LEFT, TT_STATUS] s { s' with tt := s.tt })) ∧
    (devWriter m = false ∨ live s = false ∨ s.ha 1 = false → exec (.ttSlewAmount m v) s = .next s)) ∧
  (∀ (s : State) (m : Master) (d : BitVec 64),
    let permitted := s.get BOOT_STATUS.frost = 1 ∨ s.get TT_STATUS.ever_synced = 0
    (devWriter m = false ∨ live s = false → exec (.ttStep m d) s = .next s) ∧
    (devWriter m = true → live s = true → s.ha 1 = false → Completes (.ttStep m d) s (fun s' =>
      s'.get TT_STEP_STATUS.result = 2 ∧ RegsOnly [TT_STEP_STATUS] s s')) ∧
    (devWriter m = true → live s = true → s.ha 1 = true → ¬ permitted → Completes (.ttStep m d) s (fun s' =>
      s'.get TT_STEP_STATUS.result = 1 ∧ s'.pair TT_STEP_LO = d.toNat ∧ s'.get TT_EVENTS.step_far = 1 ∧
      RegsOnly [TT_STEP_LO, TT_STEP_HI, TT_STEP_STATUS, TT_EVENTS] s s')) ∧
    (devWriter m = true → live s = true → s.ha 1 = true → permitted → Completes (.ttStep m d) s (fun s' =>
      (s'.tt.t : Int) = ((s.tt.t : Int) + d.toInt * 2 ^ 84) % 2 ^ 148 ∧ s'.tt.slew = 0 ∧ s'.get TT_STEP_STATUS.result = 0 ∧
      s'.get TT_EVENTS.step_taken = 1 ∧ s'.mem = s.mem))) ∧
  (∀ (s : State) (m : Master) (code : BitVec 3),
    let old := s.get TT_STATUS.state
    (devWriter m = true → live s = true → s.get TT_CTRL.lock = 0 → s.ha 1 = true → code.toNat < 5 → Completes (.haStateWrite m code) s (fun s' =>
      s'.get TT_STATUS.state = code.toNat ∧ s'.get TT_CTRL.ha_state = code.toNat ∧
      (code ≠ 0 → s'.get TT_STATUS.ever_synced = 1) ∧ (old ≠ 2 → code = 2 → s'.get TT_EVENTS.locked = 1) ∧
      (old = 2 → code ≠ 2 → s'.get TT_EVENTS.unlocked = 1) ∧ (old ≠ 3 → code = 3 → s'.get TT_EVENTS.holdover = 1) ∧
      (¬ (old = 4 ↔ code = 4) → s'.get TT_EVENTS.grandmaster = 1) ∧ s'.tt = { s.tt with good := 0, bad := 0 } ∧
      RegsOnly [TT_CTRL, TT_STATUS, TT_EVENTS] s { s' with tt := s.tt })) ∧
    (devWriter m = false ∨ live s = false ∨ s.get TT_CTRL.lock = 1 ∨ s.ha 1 = false ∨ 5 ≤ code.toNat →
      exec (.haStateWrite m code) s = .next s)) ∧
  (∀ (s : State) (m : Master) (n : Fin 4) (v : Word),
    let a := bitsOf v 8 8
    let b := bitsOf v 0 8
    (devWriter m = false ∨ live s = false → exec (.snapGo m n v) s = .next s) ∧
    (devWriter m = true → live s = true → Completes (.snapGo m n v) s (fun s' =>
      s'.get (TT_SNAP_CTRL.src_a n) = (if a ≤ 0x5F ∨ a = 0xFF then a else s.get (TT_SNAP_CTRL.src_a n)) ∧
      s'.get (TT_SNAP_CTRL.src_b n) = (if b ≤ 0x5F then b else s.get (TT_SNAP_CTRL.src_b n)) ∧
      s'.tt.snap[n] = (s.tt.snap[n] || v.getLsbD 16) ∧
      (v.getLsbD 16 = true → s.tt.snap[n] = false → s'.get (TT_SNAP_CTRL.go n) = 1 ∧ s'.get (TT_SNAP_CTRL.done n) = 0) ∧
      RegsOnly [TT_SNAP_CTRL n] s { s' with tt := s.tt })))

/-- On a gPTP port with link an Announce of another clock is held with its arrival and selection runs; one that has not
come again for three intervals is forgotten. A master port whose interval has passed queues Sync with Follow_Up, once
there is a time to send, and Announce, each with the next sequence number of its kind; every gPTP port queues Pdelay_Req
at its interval, and answers one with its two messages in either mode. A first Pdelay exchange sets the port's delay and
asCapable within 800 ns; an answer with another number than the last request's has no effect (the model's, log 126).
(R83, R84, R262, R283) -/
def Obligations.GptpMessagesAreHandled : Prop :=
  (∀ (s : State) (p : Fin 8) (vec : Vector Nat 9) (interval : Nat), live s = true → gptpOn s p = true →
    (vec[7] ≠ clockId s → vec[6] < 255 → Completes (.announceReceive p vec interval) s (fun s' =>
      (s'.portOf p).ann = some ⟨vec.toList, s.now, interval⟩ ∧ s'.mem = s.mem ∧
      (s'.get TT_STATUS.slave_port ≠ 0xF → s'.get (PORT_STATUS.gptp_state (s'.get TT_STATUS.slave_port)) = 2))) ∧
    (vec[7] = clockId s ∨ 255 ≤ vec[6] → exec (.announceReceive p vec interval) s = .next s)) ∧
  (∀ (s : State) (p : Fin 8) (a : Announce), (s.portOf p).ann = some a →
    (live s = true → a.tt + 3 * a.interval ≤ s.now → Completes (.announceReceiptTimeout p) s (fun s' => (s'.portOf p).ann = none ∧
      s'.mem = s.mem)) ∧
    (s.now < a.tt + 3 * a.interval → exec (.announceReceiptTimeout p) s = .next s)) ∧
  (∀ (s : State) (p e : Fin 8) (q : Fin 65536), live s = true →
    let n := fun (k : Nat) => atD (s.portOf p).seqs k 0
    let queued : List Gptp → State → Prop := fun l s' => (s'.portOf p).gq = (s.portOf p).gq ++ l ∧ s'.io = s.io ∧
      (∀ u : Fin 10, u.val ≠ p → s'.portOf u = s.portOf u) ∧ { s' with net := s.net } = s
    let master := s.get (PORT_STATUS.gptp_state p) = 1
    let timed := s.tt.gm = true ∨ s.tt.relay.isSome = true
    let waits := (s.portOf p).t1.isSome = true
    (gptpOn s p = true → master →
      (timed → gptpDue s p 0 = true → s.disabling 1 = false →
        Completes (.syncSend p) s (fun s' => queued [⟨0, n 0, s.now, []⟩, ⟨1, n 0, s.now, []⟩] s' ∧
          (s'.portOf p).seqs[0] = ((n 0) + 1) % 65536 ∧ (s'.portOf p).nextAt[0] = s.now + gptpInterval s 0)) ∧
      (gptpDue s p 2 = true → Completes (.announceSend p) s (fun s' => queued [⟨5, n 2, s.now, []⟩] s' ∧
        (s'.portOf p).seqs[2] = ((n 2) + 1) % 65536 ∧ (s'.portOf p).nextAt[2] = s.now + gptpInterval s 2))) ∧
    (gptpOn s p = true → (gptpDue s p 1 = true ∧ s.disabling 1 = false) ∨ waits →
      Completes (.pdelayReqSend p) s (fun s' => queued [⟨2, n 1, s.now, []⟩] s' ∧
        (s'.portOf p).seqs[1] = ((n 1) + 1) % 65536 ∧ (s'.portOf p).nextAt[1] = s.now + gptpInterval s 1)) ∧
    (gptpOn s p = true → Completes (.pdelayReq (p, e) q) s (queued [⟨3, q, s.now, [stampAt s e]⟩, ⟨4, q, s.now, []⟩])) ∧
    (gptpOn s p = false ∨ ¬ master ∨ ¬ timed ∨ gptpDue s p 0 = false ∨ s.disabling 1 = true → exec (.syncSend p) s = .next s) ∧
    (gptpOn s p = false ∨ ¬ master ∨ gptpDue s p 2 = false → exec (.announceSend p) s = .next s) ∧
    (gptpOn s p = false ∨ ((gptpDue s p 1 = false ∨ s.disabling 1 = true) ∧ ¬ waits) → exec (.pdelayReqSend p) s = .next s) ∧
    (gptpOn s p = false → exec (.pdelayReq (p, e) q) s = .next s)) ∧
  (∀ (s : State) (p e : Fin 8) (q : Fin 65536) (t1 t2 t3 : Int), live s = true →
    let t4 := stampAt s e
    let answers := (q.val + 1) % 65536 = atD (s.portOf p).seqs 1 0
    let d := (max 0 (min (((t4 - t1) - (t3 - t2)) / 2) 0xFFFFFFFE)).toNat
    (gptpOn s p = true → (s.portOf p).t1 = some t1 → answers → (s.portOf p).pdelay = none →
      Completes (.pdelayRespReceive p e q t2 t3) s (fun s' =>
      s'.regN (TT_PORT_DELAY p) = d ∧ s'.get (PORT_STATUS.as_capable p) = (if d ≤ 204800 then 1 else 0) ∧
      (s'.portOf p).pdelay = some (t3, t4) ∧ (s'.portOf p).t1 = none ∧ s'.mem = s.mem)) ∧
    (gptpOn s p = false ∨ (s.portOf p).t1 = none ∨ ¬ answers → exec (.pdelayRespReceive p e q t2 t3) s = .next s))

/-- OMT_TX_GO of a page that is free, with a valid length and stamp, takes the next msg_id and holds the message;
otherwise its result says BUSY, LEN or ROLE. Taken from the page it is in the fabric. At its receiver it enters the
role's queue in order, waits a microsecond for a full one, or is shelved with its cause and a NACK; a group message is
held until its instant at each member and then made visible in order. A pop removes the head of its queue alone; a pop
of the NACK FIFO also ends its lost mark. RESEND sends a shelved message of the commanding tile and world again with the
new generation, the next msg_id and the present instant, and frees its entry; DISCARD frees it; an empty entry,
another's entry and generation 0 are answered by their codes with the Shelf as it was. (R143, R144, R145, R146, R147,
R148, Table VOT-2) -/
def Obligations.MessagesAreSentDeliveredAndTaken : Prop :=
  (
    let shelved : Msg → Nat → State → State → Prop := fun m cause s s' =>
      (∀ f ∈ s'.omt.flights, sameMsg f.msg m = false) ∧ s'.omt.rx = s.omt.rx ∧
      (∀ i, shelfFree s (m.tile / 4) = some i → shelfAt s' (m.tile / 4) i = some ⟨m, cause, s.now % 2 ^ 32⟩ ∧
        s'.get (VOTE_EVENTS.shelf_stored (m.tile / 4)) = 1 ∧
        (2 * m.tile + m.world < 48 → (atD s.omt.nack (2 * m.tile + m.world) []).length < 8 →
          atD s'.omt.nack (2 * m.tile + m.world) [] =
            atD s.omt.nack (2 * m.tile + m.world) [] ++ [m.id + 65536 * cause + 2 ^ 19 * i]))
    (∀ (s : State) (t : Fin 24) (w : Fin 2), domOn s (domTile t) = true →
      let hdr := s.reg (OMT_TX_HDR t w)
      let held := atD s.omt.tx (2 * t + w) none
      let refused : Nat → State → Prop := fun r s' => s'.get (OMT_TX_STATUS.result t w) = r ∧ RegsOnly [OMT_TX_STATUS t w] s s'
      let badLen := 64 < bitsOf hdr 20 7
      let badRole := bitsOf hdr 0 12 = 0xFFF ∨ bitsOf hdr 12 8 = 0
      (held.isSome → Completes (.omtTxGo t w) s (refused 1)) ∧
      (held = none → badLen → Completes (.omtTxGo t w) s (refused 2)) ∧
      (held = none → ¬ badLen → badRole → Completes (.omtTxGo t w) s (refused 3)) ∧
      (held = none → ¬ badLen → ¬ badRole → Completes (.omtTxGo t w) s (fun s' =>
        s'.get (OMT_TX_STATUS.result t w) = 0 ∧ s'.get (OMT_TX_STATUS.busy t w) = 1 ∧
        s'.get (OMT_TX_STATUS.msg_id t w) = (s.get (OMT_TX_STATUS.msg_id t w) + 1) % 65536 ∧
        ∃ m, atD s'.omt.tx (2 * t + w) none = some m ∧ m.w0 = hdr &&& 0x07FFFFFF ∧ m.tile = t ∧ m.world = w ∧ m.sent = s.now ∧
          m.id = s'.get (OMT_TX_STATUS.msg_id t w) ∧ RegsOnly [OMT_TX_STATUS t w] s { s' with omt := s.omt }))) ∧
    (∀ (s : State) (t : Fin 24) (w : Fin 2),
      (domOn s (domTile t) = false → exec (.omtTxDone t w) s = .next s) ∧
      (∀ m, live s = true → domOn s (domTile t) = true → atD s.omt.tx (2 * t + w) none = some m → Completes (.omtTxDone t w) s (fun s' => atD s'.omt.tx (2 * t + w) none = none ∧
        s'.omt.flights = s.omt.flights ++ [⟨m, [], [], none⟩] ∧ s'.get (OMT_TX_STATUS.busy t w) = 0 ∧
        s'.get (if w = 0 then OMT_EVENTS.tx_done_vital t else OMT_EVENTS.tx_done_common t) = 1)) ∧
      (atD s.omt.tx (2 * t + w) none = none → exec (.omtTxDone t w) s = .next s)) ∧
    (∀ (s : State) (t : Fin 24) (w : Fin 2) (id : Fin 65536) (k : Fin 3) (f : Flight) (before : List Flight),
      live s = true → findFlight s t w id = some (f, before) →
      let m := f.msg
      let r := m.role
      let g := s.grpOf (s.get (OMT_ROLE.target r))
      let u := if s.get (OMT_ROLE.kind r) = 0 then s.get (OMT_ROLE.target r) else tileIn g.tiles k
      let q := queueOf s r u
      let inOrder := ∀ b ∈ before, b.msg.tile ≠ t ∨ b.msg.world ≠ w ∨ b.msg.role ≠ r
      let c : Instr := .messageArrival t w id k false
      Completes (.messageArrival t w id k true) s (fun s' => ∀ b ∈ s'.omt.flights, sameMsg b.msg m = false) ∧
      (∀ cause, roleCause s m = some cause → Completes c s (shelved m cause s)) ∧
      (roleCause s m = none → s.get (OMT_ROLE.kind r) = 0 → inOrder →
        (receiverOff s u = true → Completes c s (shelved m 6 s)) ∧
        (receiverOff s u = false → queueFull s q = false → Completes c s (fun s' =>
          atD s'.omt.rx q [] = atD s.omt.rx q [] ++ [{ m with data := 0 :: m.data }] ∧ s'.io = s.io ∧
          ∀ b ∈ s'.omt.flights, sameMsg b.msg m = false)) ∧
        (receiverOff s u = false → queueFull s q = true → f.since = none → Completes c s (fun s' => s'.omt.rx = s.omt.rx ∧
          s'.io = s.io ∧ ∃ b ∈ s'.omt.flights, b = { f with since := some s.now }))) ∧
      (roleCause s m = none → s.get (OMT_ROLE.kind r) = 1 → k.val ∈ currentOf g.tiles → k.val ∉ f.arrived →
        (m.sent + 2000 < s.now → Completes c s (shelved m 5 s)) ∧
        (s.now ≤ m.sent + 2000 → receiverOff s u = true → Completes c s (shelved m 6 s)) ∧
        (s.now ≤ m.sent + 2000 → receiverOff s u = false → queueFull s q = true → Completes c s (shelved m 4 s)) ∧
        (s.now ≤ m.sent + 2000 → receiverOff s u = false → queueFull s q = false → Completes c s (fun s' =>
          s'.omt.rx = s.omt.rx ∧ { f with arrived := k.val :: f.arrived } ∈ s'.omt.flights)))) ∧
    (∀ (s : State) (t : Fin 24) (w : Fin 2) (id : Fin 65536) (f : Flight) (before : List Flight) (x : Nat),
      findFlight s t w id = some (f, before) → f.since = some x →
      let full := queueFull s (queueOf s f.msg.role (s.get (OMT_ROLE.target f.msg.role))) = true
      (live s = true → x + 1000 ≤ s.now → full → Completes (.queueFull t w id) s (shelved f.msg 4 s)) ∧
      (s.now < x + 1000 ∨ ¬ full → exec (.queueFull t w id) s = .next s)) ∧
    (∀ (s : State) (t : Fin 24) (w : Fin 2) (id : Fin 65536) (k : Fin 3) (f : Flight) (before : List Flight),
      findFlight s t w id = some (f, before) →
      let m := f.msg
      let gi := s.get (OMT_ROLE.target m.role)
      let tiles := (s.grpOf gi).tiles
      let vis := m.sent + 2000 + k * (((groupRec s.invB gi).map (·.stagger)).getD 0)
      let q := queueOf s m.role (tileIn tiles k)
      (live s = true → s.get (OMT_ROLE.kind m.role) = 1 → vis ≤ s.now → k.val ∈ f.arrived → k.val ∉ f.shown →
        (∀ cause, roleCause s m = some cause → Completes (.messageVisible t w id k) s (shelved m cause s)) ∧
        (roleCause s m = none → (∀ j ∈ currentOf tiles, j ∈ f.arrived) → (∀ x ∈ s.omt.flights, msgBefore x.msg m = false) →
          (receiverOff s (tileIn tiles k) = true → Completes (.messageVisible t w id k) s (shelved m 6 s)) ∧
          (receiverOff s (tileIn tiles k) = false → Completes (.messageVisible t w id k) s (fun s' =>
            atD s'.omt.rx q [] = atD s.omt.rx q [] ++ [{ m with data := BitVec.ofNat 32 (vis % 2 ^ 32) :: m.data }] ∧
            s'.io = s.io)))) ∧
      (s.now < vis → exec (.messageVisible t w id k) s = .next s))) ∧
  (
    (∀ (s : State) (t : Fin 24) (w : Fin 2) (q : Fin 4), live s = true →
      Completes (.omtRxPop t w q) s (fun s' => { s' with omt := s.omt } = s ∧
        atD s'.omt.rx (8 * t + 4 * w + q) [] = (atD s.omt.rx (8 * t + 4 * w + q) []).drop 1 ∧
        ∀ n, n ≠ 8 * t.val + 4 * w + q → atD s'.omt.rx n [] = atD s.omt.rx n []) ∧
      Completes (.omtNackPop t w) s (fun s' => { s' with omt := s.omt } = s ∧ s'.omt.rx = s.omt.rx ∧
        atD s'.omt.nack (2 * t + w) [] = (atD s.omt.nack (2 * t + w) []).drop 1 ∧ atD s'.omt.lost (2 * t + w) false = false)) ∧
    (∀ (s : State) (t : Fin 24) (w : Fin 2) (c : Fin 6) (n : Fin 64) (gen : Fin 256), domOn s (domCluster c) = true →
      let answers : Nat → State → Prop := fun r s' => atD s'.omt.cmdResult (24 * c + t) 0 = r ∧ s'.io = s.io ∧
        s'.omt.shelf = s.omt.shelf ∧ s'.omt.flights = s.omt.flights
      (shelfAt s c n = none → Completes (.resend t w c n gen) s (answers 3) ∧ Completes (.discard t w c n) s (answers 3)) ∧
      (∀ e, shelfAt s c n = some e → e.msg.tile ≠ t ∨ e.msg.world ≠ w →
        Completes (.resend t w c n gen) s (answers 2) ∧ Completes (.discard t w c n) s (answers 2)) ∧
      (∀ e, shelfAt s c n = some e → e.msg.tile = t → e.msg.world = w →
        (gen = 0 → Completes (.resend t w c n gen) s (answers 1)) ∧
        (gen ≠ 0 → Completes (.resend t w c n gen) s (fun s' => shelfAt s' c n = none ∧ atD s'.omt.cmdResult (24 * c + t) 0 = 0 ∧
          s'.get (VOTE_EVENTS.shelf_resent c) = 1 ∧ ∃ m, s'.omt.flights = s.omt.flights ++ [⟨m, [], [], none⟩] ∧ m.gen = gen.val ∧
            m.role = e.msg.role ∧ m.data = e.msg.data ∧ m.sent = s.now ∧ m.id = (s.get (OMT_TX_STATUS.msg_id t w) + 1) % 65536)) ∧
        Completes (.discard t w c n) s (fun s' => shelfAt s' c n = none ∧ atD s'.omt.cmdResult (24 * c + t) 0 = 0 ∧ s'.io = s.io ∧
          s'.omt.flights = s.omt.flights ∧ ∀ j, j ≠ 64 * c.val + n → s'.omt.shelf.find? (fun x => x.1 == j) = s.omt.shelf.find? (fun x => x.1 == j)))))

/-- A member's vote write counts its tag and opens a comparison; a foreign one is only marked. In HW mode a second equal
value at the lead gate decides and releases the port's target, here GPIO bits under its mask, six edges later; a release
at an edge channel that is off is repeated once. A comparison with one
value at its finalize instant puts its group SAFE, and so does a verdict that differs from a gate's own, and in HA mode
a stopped port 10 ms after its instant. (R150, R151, R152, R153, R154, R155, R163, R166, Table VOT-3, Table VOT-4,
Table VOT-5) -/
def Obligations.VotesAreComparedAndReleased : Prop :=
  (∀ (s : State) (t : Fin 24) (g : Fin 12) (p : Fin 32) (v : Word), domOn s (domCluster (t / 4)) = true →
    let n := t.val / 4
    let h := s.grpOf g
    (memberSlot s g t = none → Completes (.voteWrite t g p v) s (fun s' => s'.get (VOTE_EVENTS.foreign_write n) = 1 ∧
      RegsOnly [VOTE_EVENTS n] s s')) ∧
    (∀ k, memberSlot s g t = some k → h.tiles.length ≤ 3 → h.cmps = [] → 2 ≤ (currentSlots s g).length → p.val < 30 →
      let tag := cell h.seq k p
      tagBefore tag (cell h.next n p) = false → Completes (.voteWrite t g p v) s (fun s' => s'.io = s.io ∧
        (s'.grpOf g).cmps = [⟨n, p, tag, s.now, [⟨k, v, s.now, []⟩], false, none, [], false, false, false, [], false, false, false, none⟩] ∧
        cell (s'.grpOf g).seq k p = (tag + 1) % 65536 ∧ (s'.grpOf g).live = h.live))) ∧
  (∀ (s : State) (g : Fin 12) (c : Fin 6) (p : Fin 32) (tag : Fin 65536) (k : Fin 3) (x : Cmp) (w1 w2 : VoteW) (r : GroupRec),
    let h := s.grpOf g
    let start := Nat.min x.start w2.stamp
    let index := atD h.cfg p 0 / 8 % 256
    live s = true → s.ha 3 = false → h.live = true → p.val < 30 → groupRec s.invB g = some r → leadOf h.tiles = some c.val →
    h.transit = [(c.val, p.val, tag.val, w2)] → w2.slot = k → h.cmps = [x] →
    x.gate = c → x.port = p → x.tag = tag → x.old = none → x.writes = [w1] →
    x.decided = false → x.final = false → x.retired = false → x.stopped = false →
    w1.slot ∈ currentSlots s g → w2.slot ∈ currentSlots s g → w1.slot ≠ w2.slot → w1.value = w2.value →
    w2.stamp ≤ start + r.skew → s.now < start + r.skew + 500 →
    cell h.next c p = tag → atD h.rel p 0 = tag → atD h.cfg p 0 % 8 = 2 → index < 8 →
    Completes (.voteWriteArrival g c p tag k) s (fun s' =>
      s'.vote.outs = s.vote.outs ++ [⟨s.clk.edges + 6, 2, index, w1.value, atD h.aux p 0 % 2 ^ 24, false⟩] ∧
      atD (s'.grpOf g).released p 0 = tag ∧ cell (s'.grpOf g).next c p = (tag.val + 1) % 65536 ∧ (s'.grpOf g).live = true)) ∧
  (∀ (s : State) (index : Fin 8) (v : Word) (mask : Nat) (again : Bool), (∀ g : Fin 12, (s.grpOf g).safeFrom = none) →
    s.vote.outs = [⟨s.clk.edges, 2, index, v, mask, again⟩] →
    (voteCycle s).regN (GPIO_OUT index) = (s.regN (GPIO_OUT index) ||| (v.toNat % 2 ^ 24 &&& mask)) % 2 ^ 32 ∧ (voteCycle s).vote.outs = []) ∧
  (∀ (s : State) (e : Fin 96) (v : Word) (mask : Nat) (again : Bool), (∀ g : Fin 12, (s.grpOf g).safeFrom = none) →
    s.vote.outs = [⟨s.clk.edges, 1, e, v, mask, again⟩] → domOn s (domCluster (e / 16)) = false →
    (again = false → voteCycle s = { s with vote := { s.vote with outs := [⟨s.clk.edges + 750, 1, e, v, mask, true⟩] } }) ∧
    (again = true → voteCycle s = { s.retryFail with vote := { s.retryFail.vote with outs := [] } })) ∧
  (∀ (s : State) (g : Fin 12) (c : Fin 6) (p : Fin 32) (tag : Fin 65536) (x : Cmp) (w1 : VoteW),
    let h := s.grpOf g
    live s = true → s.ha 3 = false → h.live = true → leadOf h.tiles = some c.val → h.cmps = [x] → x.gate = c → x.port = p → x.tag = tag →
    x.writes = [w1] → x.decided = false → x.final = false → x.stopped = false → x.old = none →
    let at_ := x.start + (((groupRec s.invB g).map (·.skew)).getD 0) + 500
    (at_ ≤ s.now → Completes (.finalize g c p tag) s (fun s' => (s'.grpOf g).live = false ∧ (s'.grpOf g).safeCause = 2)) ∧
    (s.now < at_ → exec (.finalize g c p tag) s = .next s)) ∧
  (∀ (s : State) (g : Fin 12) (c : Fin 6) (p : Fin 32) (tag : Fin 65536) (a b : Verdict),
    let hit := fun (v : Verdict) => v.gate == c.val && v.port == p.val && v.tag == tag.val
    live s = true → (s.grpOf g).lead.find? hit = some a → (s.grpOf g).own.find? hit = some b →
    (a = b → Completes (.verdictReceive g c p tag) s (fun s' => { s' with vote := s.vote } = s ∧
      (s'.grpOf g).live = (s.grpOf g).live)) ∧
    (a ≠ b → (s.grpOf g).live = true → Completes (.verdictReceive g c p tag) s (fun s' =>
      s'.get (VOTE_EVENTS.gate_diverge c) = 1 ∧ (s'.grpOf g).live = false ∧ (s'.grpOf g).safeCause = 4))) ∧
  (∀ (s : State) (g : Fin 12) (p : Fin 32) (x : Cmp),
    live s = true → (s.grpOf g).cmps = [x] → x.port = p → x.stopped = true → x.decided = true → x.third = false → (s.grpOf g).live = true →
    let at_ := finalAt (cmpDef s g x) x + 10000000
    (at_ ≤ s.now → Completes (.hostTimeout g p) s (fun s' => (s'.grpOf g).live = false ∧ (s'.grpOf g).safeCause = 9)) ∧
    (s.now < at_ → exec (.hostTimeout g p) s = .next s))

/-- The last current member's equal value configures its port; one that differs, or a vote older than the skew, ends the
vote with the configuration as it was. Agreed codes make a group LIVE where that is allowed, lock its ports, or put it
SAFE. A member is told of each checkpoint instant once. A voted frame is taken from the list; where the buffer's CRC is
not the agreed value it is dropped. (R154, R155, R156, R157, R165, Table VOT-6) -/
def Obligations.GroupsAreConfiguredAndControlled : Prop :=
  (∀ (s : State) (t : Fin 24) (g : Fin 12) (p : Fin 32) (w : Fin 2) (v : Word) (k : Nat) (r : GroupRec) (x : CfgVote),
    let h := s.grpOf g
    domOn s (domCluster (t / 4)) = true → memberSlot s g t = some k → groupRec s.invB g = some r → h.locked = false →
    p.val < 30 → h.cfgVotes = [x] → x.port = p → x.aux = false → s.now ≤ x.first + r.skew →
    (∀ j ∈ currentSlots s g, j ≠ k → ∃ u, (j, u) ∈ x.vals) →
    ((∀ e ∈ x.vals, e.1 ≠ k → e.2 = v) → v.toNat % 8 < 6 → Completes (.votePortCfg t g p false w v) s (fun s' =>
      atD (s'.grpOf g).cfg p 0 = v.toNat % 2048 ∧ (s'.grpOf g).cfgVotes = [] ∧
      ∀ q : Fin 32, q ≠ p → atD (s'.grpOf g).cfg q 0 = atD h.cfg q 0)) ∧
    ((∃ j ∈ currentSlots s g, j ≠ k ∧ ∃ u, x.vals.find? (·.1 == j) = some (j, u) ∧ u ≠ v) → Completes (.votePortCfg t g p false w v) s (fun s' =>
      (s'.grpOf g).cfg = h.cfg ∧ (s'.grpOf g).cfgVotes = []))) ∧
  (∀ (s : State) (t : Fin 24) (g : Fin 12) (p : Fin 32) (aux : Bool) (w : Fin 2) (v : Word),
    domOn s (domCluster (t / 4)) = false ∨ memberSlot s g t = none ∨ (s.grpOf g).locked = true →
    exec (.votePortCfg t g p aux w v) s = .next s) ∧
  (∀ (s : State) (g : Fin 12) (p : Fin 32) (aux : Bool),
    let skew := ((groupRec s.invB g).map (·.skew)).getD 0
    let expired := ∃ x ∈ (s.grpOf g).cfgVotes, x.port = p ∧ x.aux = aux ∧ x.first + skew < s.now
    (live s = true → expired → Completes (.cfgVoteTimeout g p aux) s (fun s' => (s'.grpOf g).cfg = (s.grpOf g).cfg ∧
      (s'.grpOf g).aux = (s.grpOf g).aux ∧ ∀ x ∈ (s'.grpOf g).cfgVotes, x.port ≠ p ∨ x.aux ≠ aux)) ∧
    (¬ expired → exec (.cfgVoteTimeout g p aux) s = .next s)) ∧
  (∀ (s : State) (g : Fin 12) (rest : List Nat),
    let h := s.grpOf g
    let lulled := ((groupRec s.invB g).map (·.lullSafe)).getD false = true ∧ s.get CLK_STATUS.lull = 1
    let allowed := 2 ≤ (currentSlots s g).length ∧ h.phase = 0 ∧ ¬ lulled
    (live s = true → h.ctl = 1 :: rest → h.live = false → allowed → Completes (.release g) s (fun s' => (s'.grpOf g).live = true ∧
      (s'.grpOf g).ctl = rest)) ∧
    (live s = true → h.ctl = 1 :: rest → h.live = false → ¬ allowed → Completes (.release g) s (fun s' => (s'.grpOf g).live = false ∧
      (s'.grpOf g).ctl = rest)) ∧
    (live s = true → h.ctl = 2 :: rest → Completes (.lock g) s (fun s' => s'.grpOf g = { h with ctl := rest, locked := true } ∧
      { s' with vote := s.vote } = s)) ∧
    (live s = true → h.ctl = 3 :: rest → h.live = true → Completes (.goSafe g) s (fun s' => (s'.grpOf g).live = false ∧
      (s'.grpOf g).safeCause = 6)) ∧
    (h.ctl = [] → exec (.release g) s = .next s ∧ exec (.lock g) s = .next s ∧ exec (.goSafe g) s = .next s)) ∧
  (∀ (s : State) (g : Fin 12) (k : Fin 3) (r : GroupRec), groupRec s.invB g = some r →
    let h := s.grpOf g
    let period := r.ckptPeriodUs * 1000
    let at_ := (s.now - k * r.stagger) / period * period
    (live s = true → period ≠ 0 → h.ckptRaised[k] < at_ → k.val ∈ currentOf h.tiles → Completes (.ckptDue g k) s (fun s' =>
      s'.get (OMT_EVENTS.ckpt_due (tileIn h.tiles k)) = 1 ∧ (s'.grpOf g).ckptRaised[k] = at_ ∧
      RegsOnly [OMT_EVENTS (tileIn h.tiles k)] s { s' with vote := s.vote })) ∧
    (period = 0 ∨ at_ ≤ h.ckptRaised[k] ∨ k.val ∉ currentOf h.tiles → exec (.ckptDue g k) s = .next s)) ∧
  (∀ (s : State) (g : Fin 12) (f : VFrame) (rest : List VFrame) (t a w : Nat) (b unread : Bool),
    let h := s.grpOf g
    live s = true → h.frames = f :: rest → h.tiles[f.slot]? = some (t, b) →
    h.bufs.find? (fun x => x.1 == f.port && x.2.1 == f.slot) = some (f.port, f.slot, a, w) →
    let l := s.load (dtcmKey t + a) 2
    (unread = true ∨ crc32c (s.bytes (dtcmKey t + a) (l + 2)) ≠ f.value.toNat → Completes (.votedFrameRead (g, unread)) s (fun s' =>
      (s'.grpOf g).frames = rest ∧ s'.net = s.net ∧ s'.mem = s.mem)) ∧
    Completes (.votedFrameRead (g, unread)) s (fun s' => (s'.grpOf g).frames = rest))

/-- A member that is locked up, reset by another or off is marked suspect; a sound one is not touched. A copy that
completes leaves the donor's region at the spare and the takeover in its last phase. A tile that has joined leaves its
reset after its wait, told of the checkpoint and the join. In HA mode the host's takeover of an empty slot by an allowed
spare begins, and any other is answered as failed. (R118, R158, R159, R160, R161, R162, R164, R210, Table VOT-7) -/
def Obligations.MembersFailAndSparesTakeOver : Prop :=
  (∀ (s : State) (t : Fin 24),
    let x := s.tileOf t
    let off := domOn s (domTile t) = false ∨ domOn s (domCluster (t / 4)) = false
    let faulty := x.lockup.isSome ∨ (x.held = true ∧ x.pinned = false) ∨ off
    (∀ (g : Fin 12), live s = true → faulty → groupsOf s t = [g.val] → Completes (.memberFaultReport t) s (fun s' => t.val ∈ s'.vote.suspects)) ∧
    (faulty → groupsOf s t = [] → ¬ off → exec (.memberFaultReport t) s = .next s) ∧
    (¬ faulty → exec (.memberFaultReport t) s = .next s)) ∧
  (∀ (s : State) (g : Fin 12) (r : GroupRec) (sp : Nat),
    let h := s.grpOf g
    let donor := tileIn h.tiles h.donor
    let there := (s.dmaOf (ch7 (donorCluster s g))).copy = some g.val
    groupRec s.invB g = some r → h.spare = some sp → r.ckptBase + r.ckptLen ≤ 0x40000 →
    (live s = true → h.phase = 2 → there → Completes (.copyComplete g) s (fun s' => (s'.grpOf g).phase = 3 ∧ (s'.grpOf g).spare = some sp ∧
      (∀ k, k < r.ckptLen → s'.byte (dtcmKey sp + r.ckptBase + k) = s.byte (dtcmKey donor + r.ckptBase + k)) ∧
      ∀ k, k < dtcmKey sp + r.ckptBase ∨ dtcmKey sp + r.ckptBase + r.ckptLen ≤ k → s'.byte k = s.byte k)) ∧
    (h.phase ≠ 2 ∨ ¬ there → exec (.copyComplete g) s = .next s)) ∧
  (∀ (s : State) (g : Fin 12),
    (∀ t : Fin 24, (s.grpOf g).joined = some t.val →
      (live s = true → (s.tileOf t).wait = 0 → (s.tileOf t).unloaded = false → Completes (.spareRelease g) s (fun s' => (s'.grpOf g).joined = none ∧
        s'.tileOf t = { s.tileOf t with pinned := false, held := false } ∧ s'.get (OMT_EVENTS.ckpt_due t) = 1 ∧
        s'.get (OMT_EVENTS.join t) = 1 ∧ s'.mem = s.mem ∧ OnlyRegs [OMT_EVENTS t] s s')) ∧
      ((s.tileOf t).wait ≠ 0 ∨ (s.tileOf t).unloaded = true → exec (.spareRelease g) s = .next s)) ∧
    ((s.grpOf g).joined = none → exec (.spareRelease g) s = .next s)) ∧
  (∀ (s : State) (m : Master) (g : Fin 12) (v : Word),
    let h := s.grpOf g
    let slot := bitsOf v 8 2
    let allowed := h.phase = 0 ∧ slot < h.tiles.length ∧ slot ∉ currentSlots s g ∧ currentSlots s g ≠ [] ∧
      spareOk s g (bitsOf v 0 8) = true
    (m ≠ .host ∨ s.ha 9 = false ∨ h.tiles = [] → exec (.voteTakeover m g v) s = .next s) ∧
    (live s = true → s.ha 9 = true → h.tiles ≠ [] → ¬ allowed → Completes (.voteTakeover .host g v) s (fun s' =>
      s'.grpOf g = { h with tkCause := 7 } ∧ s'.mem = s.mem)) ∧
    (live s = true → s.ha 9 = true → h.tiles ≠ [] → allowed → Completes (.voteTakeover .host g v) s (fun s' =>
      (s'.grpOf g).phase = 1 ∧ (s'.grpOf g).joinSlot = slot ∧ (s'.grpOf g).spare = some (bitsOf v 0 8) ∧
      (s'.grpOf g).tkCause = 0 ∧ (s'.grpOf g).tiles = h.tiles ∧ (s'.tileOf (bitsOf v 0 8)).held = true)))

/-- An engine's writer whose world may command a channel that is not claimed has GO check and start a free channel,
DISABLE end or drain a busy one under its policy, RESUME reissue at a halted one, CLEAR free a done one and CH_LEVEL add
to the level; in other states the answer is BUSY. A foreign or claimed channel answers so and nothing else changes.
RESTART returns each stopped channel to its state. (R192, R193, R198, R201, R206, R207, R209, R210, Table DMA-2) -/
def Obligations.ChannelsObeyTheirCommands : Prop :=
  (∀ (s : State) (m : Master) (d : Fin 144) (n : Fin 9) (v : Word),
    let b := chBase d
    let st := chState s d
    let heard := domOn s (chDomain d) = true ∧ engineWriter d m = true
    let free := st = 0 ∨ st = 5
    let all : List Instr := [.dmaGo m d, .disable m d n, .resume m d, .clear m d, .chLevel m d v]
    let answers : Nat → State → Prop := fun r s' => s'.get (CH_STATUS.cmd_result b) = r ∧ chState s' d = st ∧
      RegsOnly [CH_STATUS b] s s'
    let ended : Nat → State → Prop := fun code s' => chState s' d = 5 ∧ s'.get (CH_STATUS.end_ b) = code ∧ s'.mem = s.mem
    (¬ heard → ∀ i ∈ all, exec i s = .next s) ∧
    (heard → s.get (CH_STATUS.claimed b) = 1 → ∀ i ∈ all, Completes i s (answers 3)) ∧
    (heard → s.get (CH_STATUS.claimed b) = 0 → ¬ free → chForeign s d m = true → ∀ i ∈ all, Completes i s (answers 2)) ∧
    (heard → s.get (CH_STATUS.claimed b) = 0 → free ∨ chForeign s d m = false →
      let stopped := 96 ≤ d.val ∧ s.get (CDMA_STATUS.stopped ((d.val - 96) / 8)) = 1
      let direct := s.get (CH_CTRL.src_mode b) = 0 ∧ s.get (CH_CTRL.dst_mode b) = 0 ∧ s.get (CH_LEN.len b) ≠ 0
      (¬ free ∨ stopped → Completes (.dmaGo m d) s (answers 1)) ∧
      (free → ¬ stopped → goAligned s d = false → Completes (.dmaGo m d) s (fun s' => ended 4 s' ∧
        s'.get (CH_STATUS.cmd_result b) = 0)) ∧
      (free → ¬ stopped → goAligned s d = true → direct → Completes (.dmaGo m d) s (fun s' =>
        chState s' d = (if s.get (CH_CTRL.start b) ≠ 0 then 1 else if s.get (CH_PACE.source b) = 0 then 2 else 3) ∧
        s'.get (CH_STATUS.cmd_result b) = 0 ∧ s'.get (CH_CTRL.world b) = goWorld m ∧ s'.reg (CH_DONE_BYTES b) = 0 ∧
        (s'.dmaOf d).src.addr = s.regN (CH_SRC b) ∧ (s'.dmaOf d).dst.addr = s.regN (CH_DST b) ∧
        (s'.dmaOf d).src.rem = s.get (CH_LEN.len b) ∧ (s'.dmaOf d).dst.rem = s.get (CH_LEN.len b) ∧
        { s' with io := s.io, dma := s.dma } = s)) ∧
      (st = 0 ∨ st = 4 ∨ st = 5 → Completes (.disable m d n) s (answers 1)) ∧
      (st = 1 ∨ st = 3 → Completes (.disable m d n) s (ended (if s.get (CH_CTRL.policy b) = 0 then 2 else 3))) ∧
      (st = 6 ∨ st = 7 → Completes (.disable m d n) s (ended 3)) ∧
      (st = 2 → Completes (.disable m d n) s (fun s' => chState s' d = 4 ∧ s'.get (CH_STATUS.cmd_result b) = 0 ∧
        (s'.dmaOf d).drain = decide (s.get (CH_CTRL.policy b) = 0) ∧ s'.mem = s.mem)) ∧
      (st = 6 → Completes (.resume m d) s (fun s' => chState s' d = 2 ∧ s'.get (CH_STATUS.cmd_result b) = 0 ∧
        RegsOnly [CH_STATUS b] s s')) ∧
      (st ≠ 6 → Completes (.resume m d) s (answers 1)) ∧
      (st = 5 → Completes (.clear m d) s (fun s' => chState s' d = 0 ∧ s'.get (CH_STATUS.cmd_result b) = 0 ∧
        RegsOnly [CH_STATUS b] s s')) ∧
      (st ≠ 5 → Completes (.clear m d) s (answers 1)) ∧
      Completes (.chLevel m d v) s (fun s' => RegsOnly [CH_LEVEL b] s s' ∧
        s'.get (CH_LEVEL.level b) = Nat.min 65535 (s.get (CH_LEVEL.level b) + v.toNat % 65536)))) ∧
  (∀ (s : State) (m : Master) (c : Fin 6),
    let heard := domOn s (domCluster c) = true ∧ engineWriter (96 + 8 * c) m = true
    (heard → s.get (CDMA_STATUS.stopped c) = 1 → Completes (.restart m c) s (fun s' => s'.get (CDMA_STATUS.stopped c) = 0 ∧
      (∀ k : Fin 8, chState s' (96 + 8 * c + k) =
        if chState s (96 + 8 * c + k) = 7 then (s.dmaOf (96 + 8 * c + k)).was % 8 else chState s (96 + 8 * c + k)) ∧
      { s' with io := s.io } = s)) ∧
    (¬ heard ∨ s.get (CDMA_STATUS.stopped c) = 0 → exec (.restart m c) s = .next s))

/-- An armed channel starts at its instant or when its latch is set. A paced channel pauses and goes on with its latch.
A beat of a running channel copies its width in bytes from the source to the destination, every other byte staying, and
moves both sides on. A fetched entry loads its side, or links it on; a reserved one ends the channel. A channel with
nothing left at its stop point is done, drained or aborted. (R194, R195, R197, R199, R200, R202, R209, Table DMA-3) -/
def Obligations.ChannelsStartAndMoveData : Prop :=
  (∀ (s : State) (d : Fin 144),
    let b := chBase d
    let h := s.dmaOf d
    chState s d = 1 → domOn s (chDomain d) = true → h.src.ended = false → h.dst.ended = false →
    (s.get (CH_CTRL.start b) = 1 → s.get (CH_PACE.source b) = 0 → s.pair (CH_START_TT_LO b) ≤ s.now →
      Completes (.channelStart d) s (fun s' => chState s' d = 2 ∧ RegsOnly [CH_STATUS b] s s')) ∧
    (s.get (CH_CTRL.start b) = 1 → s.now < s.pair (CH_START_TT_LO b) → exec (.channelStart d) s = .next s) ∧
    (s.get (CH_CTRL.start b) = 2 → s.get (CH_PACE.source b) ≠ 0 → paceNext s d 0 = true →
      Completes (.channelStart d) s (fun s' => chState s' d = 2 ∧ s'.get (CH_STATUS.pace_latch b) = 1 ∧
        RegsOnly [CH_STATUS b] s { s' with dma := s.dma }))) ∧
  (∀ (s : State) (d : Fin 144) (issued : Fin 9),
    let b := chBase d
    let n := Nat.min issued (inFlight s d)
    let off := s.get (CH_PACE.source b) = 0 ∨ chState s d = 0 ∨ chState s d = 5 ∨ domOn s (chDomain d) = false
    (off → exec (.paceLatch d issued) s = .next s) ∧
    (¬ off → chState s d = 2 → (s.dmaOf d).copy = none → Completes (.paceLatch d issued) s (fun s' =>
      s'.get (CH_STATUS.pace_latch b) = (if paceNext s d n then 1 else 0) ∧ chState s' d = (if paceNext s d n then 2 else 3))) ∧
    (¬ off → chState s d = 3 → Completes (.paceLatch d issued) s (fun s' =>
      s'.get (CH_STATUS.pace_latch b) = (if paceNext s d n then 1 else 0) ∧ chState s' d = (if paceNext s d n then 2 else 3)))) ∧
  (∀ (s : State) (d : Fin 144) (late : Fin 9) (p q : Place) (f key dest : Nat) (r1 r2 : Option (Place × Nat)),
    let b := chBase d
    let h := s.dmaOf d
    let w := 2 ^ s.get (CH_CTRL.width b)
    domOn s (chDomain d) = true → chState s d = 2 → s.get (CH_PACE.source b) = 0 ∨ s.get (CH_STATUS.pace_latch b) = 1 →
    h.copy = none → h.orphan = none → h.tail = 0 → h.src.io = false → h.dst.io = false → w ≤ h.src.rem → w ≤ h.dst.rem →
    dmaData s d h.src.addr w false = (.ok p f key, r1) → dmaData s d h.dst.addr w true = (.ok q 0 dest, r2) → q ≠ .mram →
    wordKey key ∉ s.memh.bad → wordKey dest ∉ s.memh.bad → inTurn s d = true → (∀ g : Fin 12, (s.grpOf g).phase ≠ 2) →
    Completes (.beatComplete d 0 0 0 0 0 late) s (fun s' => s'.load dest w = s.load key w ∧
      (∀ k, (k < dest ∨ dest + w ≤ k) →
        (∀ sp base len, d.val < 96 → mirrorOf s (d / 4) = some (sp, base, len) →
          k < dtcmKey sp + (dest - dtcmKey (d / 4)) ∨ dtcmKey sp + (dest - dtcmKey (d / 4)) + w ≤ k) → s'.byte k = s.byte k) ∧
      s'.regN (CH_DONE_BYTES b) = (s.regN (CH_DONE_BYTES b) + w) % 2 ^ 32 ∧
      (s'.dmaOf d).src.rem = h.src.rem - w ∧ (s'.dmaOf d).dst.rem = h.dst.rem - w ∧
      (s'.dmaOf d).src.addr = (if h.src.fixed then h.src.addr else h.src.addr + w) ∧
      (s'.dmaOf d).dst.addr = (if h.dst.fixed then h.dst.addr else h.dst.addr + w))) ∧
  (∀ (s : State) (d : Fin 144) (dst : Bool) (p : Place) (f key : Nat) (r : Option (Place × Nat)),
    let x := (s.dmaOf d).side dst
    let c : Instr := .listFetch d dst 0 0 false
    let w := 2 ^ s.get (CH_CTRL.width (chBase d))
    let w0 := s.load key 4
    let w1 := s.load (key + 4) 4
    let len := w1 % 2 ^ 24
    domOn s (chDomain d) = true → chState s d = 2 → x.fetch = true → dmaData s d x.entry 8 false = (.ok p f key, r) →
    wordKey key ∉ s.memh.bad → (∀ g : Fin 12, (s.grpOf g).phase ≠ 2) →
    (2 ^ 30 ≤ w1 → Completes c s (fun s' => chState s' d = 5 ∧ s'.get (CH_STATUS.end_ (chBase d)) = 5 ∧ s'.mem = s.mem)) ∧
    (w1 = 2 ^ 25 → w0 % 8 = 0 → Completes c s (fun s' => (s'.dmaOf d).side dst = { x with entry := w0 } ∧ s'.mem = s.mem)) ∧
    (w1 < 2 ^ 25 → len ≠ 0 → w0 % w = 0 → len % w = 0 → Completes c s (fun s' =>
      let y : Side := { x with addr := w0, rem := len, fixed := false, io := false, last := decide (2 ^ 24 ≤ w1) }
      (s'.dmaOf d).side dst = { y with event := false, nocrc := false, fetch := false } ∧ s'.mem = s.mem)) ∧
    (w1 < 2 ^ 25 → len ≠ 0 → w0 % w ≠ 0 ∨ len % w ≠ 0 → Completes c s (fun s' => chState s' d = 5 ∧
      s'.get (CH_STATUS.end_ (chBase d)) = 4 ∧ s'.mem = s.mem))) ∧
  (∀ (s : State) (d : Fin 144), domOn s (chDomain d) = true →
    let h := s.dmaOf d
    (chState s d = 4 → h.left = 0 ∨ (h.drain = true ∧ (h.src.ended = true ∨ h.dst.ended = true)) →
      (∀ g : Fin 12, (s.grpOf g).phase ≠ 2) → Completes (.disableStopPoint d) s (fun s' =>
      chState s' d = 5 ∧ s'.get (CH_STATUS.end_ (chBase d)) = (if (s.dmaOf d).drain then 2 else 3) ∧ { s' with io := s.io } = s)) ∧
    (chState s d ≠ 4 → exec (.disableStopPoint d) s = .next s))

/-- A device writer's command is taken where none runs and is answered BUSY where one does. When it completes, LOOKUP
shows the pair's entry or NOT_FOUND, INSERT leaves the entry given or FULL, DELETE leaves none, the flushes leave static
entries or those not at the port. Ageing removes an expired dynamic entry of its way alone. A first read of NET_LEARN
takes the oldest notification, and its second half comes from the latch. (R267, R269, R270, R271, Table TT-4) -/
def Obligations.TheForwardingDatabaseIsKept : Prop :=
  (∀ (s : State) (m : Master) (p : Fin 16),
    let cmd : Nat → Nat → FdbCmd := fun op port => ⟨op, s.regN NET_FDB_MAC_LO + 2 ^ 32 * s.get NET_FDB_MAC_HI.mac_hi,
      s.get NET_FDB_MAC_HI.vid, s.get NET_FDB_PORTS.ports, s.is NET_FDB_PORTS.static_, port⟩
    let all : List (Instr × FdbCmd) := [(.lookup m, cmd 1 0), (.insert m, cmd 2 0), (.delete m, cmd 3 0), (.flushDynamic m, cmd 4 0),
      (.flushPort m p, cmd 5 p)]
    (devWriter m = false → ∀ e ∈ all, exec e.1 s = .next s) ∧
    (live s = true → devWriter m = true → s.net.cmd = none → ∀ e ∈ all, Completes e.1 s (fun s' => s'.net = { s.net with cmd := some e.2 } ∧
      s'.get NET_FDB_RESULT.busy = 1 ∧ RegsOnly [NET_FDB_RESULT] s { s' with net := s.net })) ∧
    (live s = true → devWriter m = true → s.net.cmd.isSome → ∀ e ∈ all, Completes e.1 s (fun s' => s'.get NET_FDB_RESULT.result = 3 ∧
      RegsOnly [NET_FDB_RESULT] s s'))) ∧
  (∀ (s : State) (c : FdbCmd), live s = true → s.net.cmd = some c → s.net.flushDue = true → s.net.learn = [] →
    Completes .fdbDone s (fun s' => s'.net.cmd = some ⟨4, 0, 0, 0, false, 0⟩ ∧ s'.net.flushDue = false ∧
      s'.get NET_FDB_RESULT.busy = 1 ∧ s'.get NET_EVENTS.fdb_done = 1)) ∧
  (∀ (s : State) (c : FdbCmd), live s = true → s.net.cmd = some c → s.net.flushDue = false →
    let old := fdbFind s c.mac c.vid
    let set := fdbSet c.mac c.vid
    let ends : Nat → State → Prop := fun r s' => s'.net.cmd = none ∧ s'.get NET_FDB_RESULT.result = r ∧
      s'.get NET_FDB_RESULT.busy = 0 ∧ s'.get NET_EVENTS.fdb_done = 1 ∧ s'.mem = s.mem
    let others : State → Prop := fun s' => ∀ mac vid, mac ≠ c.mac ∨ vid ≠ c.vid → fdbFind s' mac vid = fdbFind s mac vid
    (∀ e, c.op = 1 → old = some e → Completes .fdbDone s (fun s' => ends 0 s' ∧ s'.net.fdb = s.net.fdb ∧
      s'.regN NET_FDB_PORTS = (e.ports + (if e.fixed then 65536 else 0) + 131072) % 2 ^ 32)) ∧
    (c.op = 1 → old = none → Completes .fdbDone s (fun s' => ends 1 s' ∧ s'.net.fdb = s.net.fdb ∧ s'.get NET_FDB_PORTS.valid = 0)) ∧
    (c.op = 2 → old.isSome ∨ (freeWay s set).isSome → Completes .fdbDone s (fun s' => ends 0 s' ∧ others s' ∧
      ∃ e, fdbFind s' c.mac c.vid = some e ∧ e.ports = c.ports ∧ e.fixed = c.fixed ∧ e.last = s.now)) ∧
    (c.op = 2 → old = none → freeWay s set = none → Completes .fdbDone s (fun s' => ends 2 s' ∧ s'.net.fdb = s.net.fdb)) ∧
    (c.op = 3 → old.isSome → Completes .fdbDone s (fun s' => ends 0 s' ∧ others s' ∧ fdbFind s' c.mac c.vid = none)) ∧
    (c.op = 3 → old = none → Completes .fdbDone s (fun s' => ends 1 s' ∧ s'.net.fdb = s.net.fdb)) ∧
    (c.op = 4 → Completes .fdbDone s (fun s' => ends 0 s' ∧ ∀ e, e ∈ s'.net.fdb ↔ e ∈ s.net.fdb ∧ e.fixed = true)) ∧
    (c.op = 5 → Completes .fdbDone s (fun s' => ends 0 s' ∧ ∀ e, e ∈ s'.net.fdb ↔ e ∈ s.net.fdb ∧ bitN e.ports c.port = false))) ∧
  (∀ s : State, s.net.cmd = none → exec .fdbDone s = .next s) ∧
  (∀ (s : State) (set : Fin 2048) (way : Fin 4),
    let age := s.get NET_CTRL.age_s * 1000000000
    live s = true → Completes (.fdbAgeing set way) s (fun s' => { s' with net := s.net } = s ∧ s'.net.port = s.net.port ∧ ∀ e, e ∈ s'.net.fdb ↔
      e ∈ s.net.fdb ∧ ¬(e.set = set ∧ e.way = way ∧ e.fixed = false ∧ age ≠ 0 ∧ e.last + age ≤ s.now))) ∧
  (∀ (s : State) (r : Reader) (hi : Bool) (mac vid p : Nat) (rest : List (Nat × Nat × Nat)),
    let v := mac + 2 ^ 48 * vid + 2 ^ 60 * p
    (live s = true → s.net.flushDue = false → s.net.learn = (mac, vid, p) :: rest → latchOf s r = none → Completes (.learnNotifyRead r hi) s (fun s' => s'.net.learn = rest ∧
      s'.data = BitVec.ofNat 32 (if hi then v / 2 ^ 32 else v) ∧ s'.io = s.io ∧ s'.net.fdb = s.net.fdb ∧
      ∃ l, latchOf s' r = some l ∧ l.value = v ∧ l.pair = NET_LEARN_LO ∧ l.hiFirst = hi)) ∧
    (∀ l, live s = true → latchOf s r = some l → l.pair = NET_LEARN_LO → l.hiFirst ≠ hi → Completes (.learnNotifyRead r hi) s (fun s' =>
      s'.net = s.net ∧ s'.data = BitVec.ofNat 32 (if hi then l.value / 2 ^ 32 else l.value) ∧ latchOf s' r = none ∧ s'.io = s.io)))

/-- A bad frame is only counted, and in Frost a good one is dropped. Outside it, an ordinary frame for a learned port is
queued there in its class, and on a cut-through port its transmission starts after 64 octets where the egress is free.
An idle port sends its gPTP message, else the first frame of its highest class that may go; at the end it is counted,
and port 9's goes to the host. A gate entry shows the schedule's gates. (R263, R265, R268, R272, R273, R274, R275, R276,
R287, R293, R396) -/
def Obligations.FramesAreSwitched : Prop :=
  (∀ (s : State) (p : Fin 8) (d : List Byte) (fcs : Bool), live s = true → portUp s p = true → (s.portOf p).cutTo = [] →
    let x := parseFrame d
    let vid := (vidPcp s p x).1
    let cls := pcpClass s (vidPcp s p x).2
    let good := fcs = true ∧ 64 ≤ d.length + 4 ∧ d.length + 4 ≤ 1528 ∧ x.overTagged = false
    let plain := isCommand s p x = false ∧ isHello s p x = false ∧ isPause x = false ∧ x.dst / 16 ≠ 0x0180C200000
    let member := fun (q : Nat) => bitN (s.get (VLAN_ENTRY.member vid)) q = true
    let counted : State → Prop := fun s' => s'.regN (PORT_RX_FRAMES p) = (s.regN (PORT_RX_FRAMES p) + 1) % 2 ^ 32
    (¬ good → Completes (.frameReceive p d fcs) s (fun s' => s'.regN (PORT_RX_ERR p) = (s.regN (PORT_RX_ERR p) + 1) % 2 ^ 32 ∧
      RegsOnly [PORT_RX_ERR p] s { s' with net := s.net } ∧ ∀ q : Fin 10, (s'.portOf q).queues = (s.portOf q).queues)) ∧
    (good → plain → s.frost = true → Completes (.frameReceive p d fcs) s (fun s' => counted s' ∧ s'.get NET_EVENTS.frost_drop = 1 ∧
      (∀ mac v, mac ≠ x.src ∨ v ≠ vid → fdbFind s' mac v = fdbFind s mac v) ∧
      (∀ w, flushing s = false → s.disabling 2 = false → s.ha 2 = false →
        s.net.lastCmd ≠ some (x.src, vid, s.clk.edges) → fdbFind s x.src vid = none → freeWay s (fdbSet x.src vid) = some w →
        fdbFind s' x.src vid = some ⟨fdbSet x.src vid, w, x.src, vid, 2 ^ p.val, false, s.now⟩) ∧
      ∀ q : Fin 10, (s'.portOf q).queues = (s.portOf q).queues)) ∧
    (∀ (q : Fin 10) (e : FdbEntry), good → plain → s.frost = false → forwards s p = true → member p → streamOf s p x vid = none →
      fdbFind s x.dst vid = some e → e.ports = 2 ^ q.val → q.val ≠ p → member q → forwards s q = true →
      ((s.portOf q).queues.toList.flatten.map cellsOf).sum + (d.length + 259) / 256 ≤ s.get (PORT_QLIM.cells q) →
      usedCells s + (d.length + 259) / 256 ≤ totalCells s →
      Completes (.frameReceive p d fcs) s (fun s' => counted s' ∧ ∃ f : NetFrame,
        (s'.portOf q).queues.toList.getD cls [] = (s.portOf q).queues.toList.getD cls [] ++ [f] ∧ f.dst = x.dst ∧ f.src = x.src ∧
        f.vid = vid ∧ f.pcp = (vidPcp s p x).2 ∧ f.body = x.body ∧ f.rtag = x.rtag ∧ f.ing = p)) ∧
    (∀ (q : Fin 8) (e : FdbEntry), plain → x.overTagged = false → s.frost = false → s.get (PORT_CFG.cut_through p) = 1 →
      forwards s p = true → member p → streamOf s p x vid = none → fdbFind s x.dst vid = some e → e.ports = 2 ^ q.val →
      q.val ≠ p → member q → forwards s q = true → portRate s q ≤ portRate s p → (s.portOf q).tx = none → (s.portOf q).gq = [] →
      (∀ t, cls ≤ t → t < 8 → (s.portOf q).queues.toList.getD t [] = []) → gateOpen s q cls = true →
      guardBand s q cls 1528 = true → Completes (.frameHeaderReceive p d) s (fun s' => (s'.portOf p).cutTo = [q.val] ∧
        s'.io = s.io ∧ ∃ f : NetFrame, (s'.portOf q).tx = some (.frame f false) ∧ f.dst = x.dst ∧ f.body = x.body))) ∧
  (∀ (s : State) (p : Fin 8) (d : List Byte), portUp s p = false ∨ s.frost = true ∨ s.get (PORT_CFG.cut_through p) = 0 →
    exec (.frameHeaderReceive p d) s = .next s) ∧
  (∀ (s : State) (p : Fin 10),
    let h := s.portOf p
    let only : State → Prop := fun s' => { s' with net := s.net } = s ∧ ∀ q : Fin 10, q ≠ p → s'.portOf q = s.portOf q
    (∀ b, (h.tx.isSome ∨ portUp s p = false) → exec (.transmitSelect (p, b)) s = .next s) ∧
    (∀ b m rest, live s = true → h.tx = none → portUp s p = true → h.gq = m :: rest → Completes (.transmitSelect (p, b)) s (fun s' =>
      only { s' with fresh := s.fresh } ∧ (s'.portOf p).tx = some (.gptp m) ∧ (s'.portOf p).queues = h.queues ∧
      (s'.portOf p).gq.map (·.kind) = rest.map (·.kind) ∧ (s'.portOf p).gq.map (·.seq) = rest.map (·.seq) ∧
      ∃ k, k < 8 ∧
        (s'.portOf p).t1 = (if m.kind = 2 then some (stampAt s k) else h.t1) ∧
        (m.kind = 3 → ∀ x ∈ (s'.portOf p).gq, x.kind = 4 → x.seq = m.seq → x.times = [stampAt s k]))) ∧
    (∀ (t : Fin 8) (f : NetFrame) (rest : List NetFrame), live s = true → h.tx = none → portUp s p = true → h.gq = [] → h.queues[t] = f :: rest →
      (∀ u : Fin 8, t < u → h.queues[u] = []) → gateOpen s p t = true → (8 ≤ p.val ∨ guardBand s p t (wireLen s p f) = true) →
      Completes (.transmitSelect (p, false)) s (fun s' => only s' ∧
        s'.portOf p = { h with tx := some (.frame f true), queues := h.queues.set t rest }) ∧
      Completes (.transmitSelect (p, true)) s (fun s' => s'.portOf p = { h with queues := h.queues.set t rest } ∧
        (∀ q : Fin 10, q ≠ p → s'.portOf q = s.portOf q) ∧ s'.regN (PORT_DROP p) = (s.regN (PORT_DROP p) + 1) % 2 ^ 32 ∧
        s'.mem = s.mem)) ∧
    (∀ f, live s = true → h.tx = some (.stomped f) → Completes (.transmitDone p) s (fun s' => (s'.portOf p).tx = none ∧
      (s'.portOf p).sent = wireOf s p f ∧ (s'.portOf p).sentBad = true ∧ { s' with net := s.net } = s)) ∧
    (∀ f, live s = true → h.tx = some (.frame f true) → Completes (.transmitDone p) s (fun s' => (s'.portOf p).tx = none ∧
      (s'.portOf p).sent = wireOf s p f ∧ (s'.portOf p).sentBad = false ∧ s'.regN (PORT_TX_FRAMES p) = (s.regN (PORT_TX_FRAMES p) + 1) % 2 ^ 32 ∧
      (p.val < 8 → s'.mem = s.mem ∧ s'.host.rx = s.host.rx) ∧
      (p = 9 → f.dst = macBase s + 25 → (s.host.rx.map (·.length)).sum + (wireOf s p f).length ≤ 16384 →
        s'.host.rx = s.host.rx ++ [wireOf s p f] ∧ s'.get HOST_EVENTS.fq_rx = 1))) ∧
    (∀ m, live s = true → h.tx = some (.gptp m) → Completes (.transmitDone p) s (fun s' => s'.portOf p = { h with tx := none, gsent := some m } ∧
      RegsOnly [PORT_TX_FRAMES p] s { s' with net := s.net })) ∧
    (h.tx = none → exec (.transmitDone p) s = .next s)) ∧
  (∀ (s : State) (p : Fin 8), live s = true → (s.portOf p).next = none →
    ((s.portOf p).sched = none → Completes (.gateEntry p) s (fun s' => s'.get (PORT_STATUS.gates p) = 0xFF ∧
      s'.get (PORT_STATUS.scheduled p) = 0 ∧ RegsOnly [PORT_STATUS p] s s')) ∧
    (∀ (c : Sched) (pre post : List (Nat × Nat)) (g n : Nat), (s.portOf p).sched = some c → c.entries = pre ++ (g, n) :: post →
      let at_ := cyclePos c s.now
      (pre.map (·.2)).sum ≤ at_ → at_ < (pre.map (·.2)).sum + n → Completes (.gateEntry p) s (fun s' =>
        s'.get (PORT_STATUS.gates p) = g % 256 ∧ s'.get (PORT_STATUS.scheduled p) = 1 ∧ RegsOnly [PORT_STATUS p] s s')))

/-- A lane with a role, power and a clock takes its link and speed, and a link that ends stops what its port sent. A
ring's writer sets its tails; a doorbell of an enabled ring hands each owned descriptor on, returned with its length and
the tile told. TTDP sends its template each period, reports silence once, and an FRER function without a frame for its
time starts over; before their times nothing changes. (R262, R282, R285, R286, Table NET-10) -/
def Obligations.LinksRingsAndTimersAct : Prop :=
  (∀ (s : State) (p : Fin 8) (up : Bool) (speed : Fin 6),
    let rate := lineSpeed (s.get (PORT_CFG.line_mode p)) speed
    let can := s.get (PORT_CFG.role p) ≠ 0 ∧ domOn s (domLane p) = true ∧ rate.isSome ∧ (lanesLock s).clk.txLocked[p] = true ∧
      netStopped s = false
    (s.get (PORT_STATUS.link p) = 0 → can → Completes (.linkChange p true speed) s (fun s' => s'.get (PORT_STATUS.link p) = 1 ∧
      rate = some (s'.get (PORT_STATUS.speed p)) ∧ s'.get NET_EVENTS.link_change = 1 ∧ s'.mem = s.mem)) ∧
    (s.get (PORT_STATUS.link p) = 1 → up = false ∨ ¬ can → Completes (.linkChange p up speed) s (fun s' =>
      s'.get (PORT_STATUS.link p) = 0 ∧ s'.get (PORT_STATUS.speed p) = 0 ∧ s'.get (PORT_STATUS.as_capable p) = 0 ∧
      (s'.portOf p).tx = none ∧ (s'.portOf p).gq = [] ∧ (s'.portOf p).ann = none ∧ s'.get NET_EVENTS.link_change = 1))) ∧
  (∀ (s : State) (m : Master) (t : Fin 24) (u : Option (Fin 128)) (v : Word),
    let size := 2 ^ s.get (NET_TRING_CFG.log2 t)
    let w := s.get (NET_TRING_CFG.world t)
    let head := s.get (NET_TRING_HEADS.tx t)
    let a := s.regN (NET_TRING_TX_BASE t) + 8 * head
    let k := dtcmKey t + a
    let buf := s.load k 4
    let n := s.load (k + 4) 2
    let tail := bitsOf v 0 7
    (ringWriter t m = false → exec (.txDoorbell m (t, u) v) s = .next s ∧ exec (.rxTail m t v) s = .next s) ∧
    (live s = true → ringWriter t m = true →
      Completes (.rxTail m t v) s (fun s' => s'.get (NET_TRING_RX_TAIL.tail t) = tail ∧ RegsOnly [NET_TRING_RX_TAIL t] s s') ∧
      (s.get (NET_TRING_CFG.enable t) = 0 ∨ domOn s (domTile t) = false ∨ head = tail % size →
        Completes (.txDoorbell m (t, u) v) s (fun s' => s'.get (NET_TRING_TX_TAIL.tail t) = tail ∧ RegsOnly [NET_TRING_TX_TAIL t] s s')) ∧
      (s.get (NET_TRING_CFG.enable t) = 1 → domOn s (domTile t) = true → head < size → head ≠ tail % size →
        (head + 1) % size = tail % size → ringReach s t w a 8 = true → bitN (s.load (k + 7) 1) 0 = true →
        14 ≤ n → n ≤ 1514 → ringReach s t w buf n = true → s.frost = false →
        Completes (.txDoorbell m (t, u) v) s (fun s' => s'.get (NET_TRING_HEADS.tx t) = (head + 1) % size ∧
          s'.load (k + 4) 2 = n ∧ s'.load (k + 7) 1 = (if u.any (fun i => i.val == head) then 2 else 0) ∧ (s'.reg NET_RING_PEND).getLsbD t = true ∧ s'.get NET_EVENTS.ring = 1 ∧
          ∀ j, j < k + 4 ∨ k + 8 ≤ j → s'.byte j = s.byte j)))) ∧
  (∀ (s : State) (r : Fin 64),
    let x := s.net.frer[r]
    let due := x.seen.isSome ∧ s.get (FRER_REC0.valid r) = 1 ∧ x.last + s.get (FRER_REC0.reset_ms r) * 1000000 ≤ s.now
    (live s = true → due → Completes (.frerReset r) s (fun s' => s'.net.frer[r] = { x with seen := none } ∧ s'.get NET_EVENTS.frer_reset = 1 ∧
      RegsOnly [NET_EVENTS] s { s' with net := s.net })) ∧
    (¬ due → exec (.frerReset r) s = .next s)) ∧
  (∀ (s : State) (p : Fin 8),
    let period := s.get NET_TTDP_CFG.period_ms * 1000000
    let wait := s.get NET_TTDP_CFG.timeout_ms * 1000000
    let sends := period ≠ 0 ∧ s.frost = false ∧ s.net.helloSent + period ≤ s.now
    let silent := wait ≠ 0 ∧ s.get (PORT_CFG.role p) = 3 ∧ (s.portOf p).hello + wait ≤ s.now
    let hello := ((List.range 128).map (fun w => leBytes 4 (s.regN (PORT_TTDP_TPL p w)))).flatten.take
      (Nat.min 512 (s.regN (PORT_TTDP_LEN p)))
    (live s = true → sends → (List.range 8).filter (fun q => s.get (PORT_CFG.role q) == 3 && portUp s q) = [p.val] →
      3 + usedCells s ≤ totalCells s → 3 + ((s.portOf p).queues.toList.flatten.map cellsOf).sum ≤ s.get (PORT_QLIM.cells p) →
      Completes .ttdpHelloSend s (fun s' => s'.net.helloSent = s.now ∧ ∃ (f : NetFrame) (t : Fin 8), f.raw = some hello ∧
        (s'.portOf p).queues[t] = (s.portOf p).queues[t] ++ [f] ∧ ∀ u : Fin 8, u ≠ t → (s'.portOf p).queues[u] = (s.portOf p).queues[u])) ∧
    (¬ sends → exec .ttdpHelloSend s = .next s) ∧
    (live s = true → silent → Completes (.ttdpTimeout p) s (fun s' => s'.get NET_EVENTS.ttdp_timeout = 1 ∧ (s'.portOf p).hello = s.now ∧
      RegsOnly [NET_EVENTS] s { s' with net := s.net })) ∧
    (¬ silent → exec (.ttdpTimeout p) s = .next s))

/-- From OFF, an enable that passes the check of its configuration starts the controller empty, with the fields written,
and one that fails it leaves the controller OFF with cfg_err; a CAN controller whose bits R303 forbids fails. A disable
stops it under DRAIN with nothing dropped, or under ABORT with all but the entry on the wire dropped and counted in
left; it is OFF when it is idle, its receive FIFO kept. A receive FIFO gives its oldest entry, and a full transmit FIFO
refuses one with an event. (R297, R298, R301, R303) -/
def Obligations.BusControllersStartAndStop : Prop :=
  (∀ (s : State) (m : Master) (u : Fin 24) (v : Word),
    let base := busBase u
    let st : Fld := ⟨base + 4, 0, 2⟩
    let cfgErr : Fld := ⟨base + 4, 3, 1⟩
    (busWriter m = false ∨ s.get st ≠ 0 → exec (.busEnable m u v) s = .next s) ∧
    (live s = true → busWriter m = true → s.get st = 0 → busCheck (busFields u v s) u = true → Completes (.busEnable m u v) s (fun s' =>
      s'.get st = 1 ∧ s'.get cfgErr = 0 ∧ s'.get ⟨base, 0, 1⟩ = 1 ∧ s'.get ⟨base, 1, 1⟩ = bitsOf v 1 1 ∧
      busLevel s' u true = 0 ∧ busLevel s' u false = 0 ∧ (u.val < 8 → canPending s' u = []) ∧
      RegsOnly [base, base + 4, CAN_TX_PEND u] s { s' with bus := s.bus })) ∧
    (live s = true → busWriter m = true → s.get st = 0 → busCheck (busFields u v s) u = false → Completes (.busEnable m u v) s (fun s' =>
      s'.get st = 0 ∧ s'.get cfgErr = 1 ∧ s'.get ⟨base, 1, 1⟩ = bitsOf v 1 1 ∧ RegsOnly [base, base + 4] s s')) ∧
    (∀ n : Fin 8, u.val = n.val → s.get (CAN_NBT_TQ.tq n) < 200 ∨ s.get (CAN_DBT_TQ.tq n) < 200 ∨
      s.get (CAN_NBT_SEG.tseg2 n) < s.get (CAN_NBT_SEG.sjw n) ∨ s.get (CAN_DBT_SEG.tseg2 n) < s.get (CAN_DBT_SEG.sjw n) ∨
      (1 + s.get (CAN_NBT_SEG.tseg1 n) + s.get (CAN_NBT_SEG.tseg2 n)) * s.get (CAN_NBT_TQ.tq n) < 16000 ∨
      (1 + s.get (CAN_DBT_SEG.tseg1 n) + s.get (CAN_DBT_SEG.tseg2 n)) * s.get (CAN_DBT_TQ.tq n) < 2000 →
      busCheck (busFields u v s) u = false)) ∧
  (∀ (s : State) (m : Master) (u : Fin 24) (v : Word) (wire : Option (Fin 16)),
    let base := busBase u
    let st : Fld := ⟨base + 4, 0, 2⟩
    let left : Fld := ⟨base + 4, 24, 8⟩
    let onWire := wire.map (·.val)
    let stops : State → Prop := fun s' => s'.get st = 2 ∧ s'.get ⟨base, 0, 1⟩ = 0 ∧
      RegsOnly [base, base + 4, CAN_TX_PEND u] s { s' with bus := s.bus }
    (busWriter m = false ∨ s.get st = 2 ∨ s.get st = 3 → exec (.busDisable m u v wire) s = .next s) ∧
    (live s = true → busWriter m = true → s.get st = 0 → Completes (.busDisable m u v wire) s (fun s' =>
      s'.get ⟨base, 1, 1⟩ = bitsOf v 1 1 ∧ s'.get ⟨base, 0, 1⟩ = s.get ⟨base, 0, 1⟩ ∧ RegsOnly [base] s s')) ∧
    (live s = true → busWriter m = true → s.get st = 1 → s.get ⟨base, 1, 1⟩ = 0 → Completes (.busDisable m u v wire) s (fun s' =>
      stops s' ∧ s'.get left = 0 ∧ s'.bus = s.bus ∧ s'.regN (CAN_TX_PEND u) = s.regN (CAN_TX_PEND u))) ∧
    (live s = true → busWriter m = true → s.get st = 1 → s.get ⟨base, 1, 1⟩ = 1 → u.val < 8 → Completes (.busDisable m u v wire) s (fun s' =>
      stops s' ∧ canPending s' u = (canPending s u).filter (fun b => some b == onWire && canOnWire s u b) ∧
      s'.get left + (canPending s' u).length = (canPending s u).length ∧ (s'.canOf u).rx = (s.canOf u).rx)) ∧
    (live s = true → busWriter m = true → s.get st = 1 → s.get ⟨base, 1, 1⟩ = 1 → 10 ≤ u.val → u.val < 22 → (s.serOf u).tx.length ≤ 64 →
      Completes (.busDisable m u v wire) s (fun s' => stops s' ∧ (s'.serOf u).rx = (s.serOf u).rx ∧
        (s'.serOf u).tx = (if wire.isSome && (u.val < 22 || (s.serOf u).xfer.any (fun x => bitsOf x 10 1 == 0))
          then (s.serOf u).tx.take 1 else []) ∧
        (s'.serOf u).xfer = (if wire.isSome then (s.serOf u).xfer else none) ∧
        s'.get left + (s'.serOf u).tx.length = (s.serOf u).tx.length)) ∧
    (live s = true → s.get st = 2 → busIdle s u = true → Completes (.busStop u) s (fun s' => s'.get st = 0 ∧
      (u.val < 8 → canPending s' u = []) ∧
      busLevel s' u true = busLevel s u true ∧ (s'.serOf u).rx = (s.serOf u).rx ∧
      (10 ≤ u.val → (s'.serOf u).tx = [] ∧ (s'.serOf u).xfer = none) ∧ RegsOnly [base + 4, CAN_TX_PEND u] s { s' with bus := s.bus })) ∧
    (s.get st ≠ 2 ∨ busIdle s u = false → exec (.busStop u) s = .next s)) ∧
  (∀ (s : State) (m : Master) (u : Fin 24) (v : Word),
    let h := s.serOf u
    let pops : Word → State → Prop := fun w s' => s'.data = w ∧ s'.io = s.io ∧ s'.mem = s.mem
    (∀ w rest, live s = true → 10 ≤ u.val → h.rx = w :: rest → Completes (.rxFifoPop u) s (fun s' => (s'.serOf u) = { h with rx := rest } ∧
      pops (if 18 ≤ u.val ∧ u.val < 22 then w else w ||| 0x80000000) s')) ∧
    (∀ w rest, live s = true → u.val < 8 → (s.canOf u).rx = w :: rest → Completes (.rxFifoPop u) s (fun s' => (s'.canOf u).rx = rest ∧ pops w s')) ∧
    (live s = true → busLevel s u true = 0 → exec (.rxFifoPop u) s = .next { s with data := 0 }) ∧
    let stopping := busState s u = 2 ∧ busAbort s u = true
    (busWriter m = false ∨ u.val < 10 ∨ stopping → exec (.txFifoWrite m u v) s = .next s) ∧
    (live s = true → busWriter m = true → 10 ≤ u.val → ¬ stopping → (u.val < 22 ∨ h.stretch = none) → h.tx.length < fifoDepth u →
      Completes (.txFifoWrite m u v) s (fun s' => s'.io = s.io ∧ s'.serOf u = { h with deFrom := (s'.serOf u).deFrom, tx := h.tx ++
        [BitVec.ofNat 32 (v.toNat % 2 ^ (if u.val < 18 then 9 else if u.val < 22 then 32 else 8))] })) ∧
    (live s = true → busWriter m = true → 10 ≤ u.val → ¬ stopping → (u.val < 22 ∨ h.stretch = none) → fifoDepth u ≤ h.tx.length →
      Completes (.txFifoWrite m u v) s (fun s' => s'.bus = s.bus ∧
        s'.get ⟨busBase u + 8, if u.val < 22 then 3 else 7, 1⟩ = 1 ∧ RegsOnly [busBase u + 8] s s')) ∧
    (live s = true → busWriter m = true → 22 ≤ u.val → ¬ stopping → h.stretch.isSome → Completes (.txFifoWrite m u v) s (fun s' =>
      s'.io = s.io ∧ s'.serOf u = { h with stretch := none })))

/-- A request makes buffers pending in RUN. A cancel takes a buffer that is not on the wire at once, the other at the
end of its frame. A frame that succeeds raises tx_done and leaves the pending set, an automatic one stays; one that
fails stays unless cancelled or no_retx. A received frame goes to the FIFO whole by its first matching filter, with the
TT of its start, or is dropped. Error counts give the fault state, and recovery ends bus-off. (R302, R304, R305, R306,
Table BUS-2) -/
def Obligations.CanFramesAreSentAndReceived : Prop :=
  ∀ (s : State) (n : Fin 8),
    let run : Prop := s.get (CAN_STATUS.state n) = 1
    let off : Prop := s.get (CAN_STATUS.state n) = 0
    let counts : Nat → Nat → State → Prop := fun tec rec s' => s'.get (CAN_STATUS.tec n) = min tec 255 ∧
      s'.get (CAN_STATUS.rec n) = rec ∧
      s'.get (CAN_STATUS.fault n) = (if 256 ≤ tec then 2 else if 128 ≤ tec ∨ 128 ≤ rec then 1 else 0)
    (∀ (m : Master) (v : Word),
      (live s = true → busWriter m = true → run → Completes (.canTxReq m n v) s (fun s' =>
        s'.regN (CAN_TX_PEND n) = s.regN (CAN_TX_PEND n) ||| v.toNat % 65536 ∧ (s'.canOf n).rx = (s.canOf n).rx ∧
        RegsOnly [CAN_TX_PEND n] s { s' with bus := s.bus })) ∧
      (busWriter m = false ∨ ¬ run → exec (.canTxReq m n v) s = .next s)) ∧
    (∀ (m : Master) (v : Word) (wire : Option (Fin 16)),
      let hit : Nat → Bool := fun b => bitN (v.toNat % 65536) b && !(some b == wire.map (·.val) && canOnWire s n b)
      (busWriter m = false → exec (.canTxCancel m n v wire) s = .next s) ∧
      (live s = true → busWriter m = true → Completes (.canTxCancel m n v wire) s (fun s' =>
        canPending s' n = (canPending s n).filter (fun b => !hit b) ∧ (s'.canOf n).rx = (s.canOf n).rx ∧
        (∀ b : Fin 16, wire = some b → bitN v.toNat b = true → canOnWire s n b = true → b.val ∈ (s'.canOf n).cancel) ∧
        RegsOnly [CAN_TX_PEND n] s { s' with bus := s.bus }))) ∧
    (∀ (w0 w1 start : Word) (data : List Word) (rec : Fin 256),
      let fd : Prop := bitsOf w0 31 1 = 1
      let hears : Prop := ¬ off ∧ s.get (CAN_STATUS.fault n) ≠ 2
      let whole : Prop := (fd → s.get (CAN_CTRL.fd_enable n) = 1 ∧ bitsOf w0 30 1 = 0)
      let hits : Fin 32 → Bool := fun f => s.is (CAN_FILTER.valid n f) &&
        (bitsOf w0 0 30 &&& s.get (CAN_MASK.mask n f)) == (bitsOf (s.reg (CAN_FILTER n f)) 0 30 &&& s.get (CAN_MASK.mask n f))
      let remote : Prop := bitsOf w0 30 1 = 1
      let len := if bitsOf w0 30 1 = 1 then 0 else dlcLen (bitsOf w1 0 4) (bitsOf w0 31 1 == 1)
      let ends : State → Prop := fun s' => counts (s.get (CAN_STATUS.tec n)) rec s' ∧
        RegsOnly [CAN_STATUS n, CAN_EVENTS n] s { s' with bus := s.bus }
      (∀ d, ¬ hears → exec (.canFrameReceive n w0 w1 start d rec) s = .next s) ∧
      (live s = true → hears → Completes (.canFrameReceive n w0 w1 start none rec) s (fun s' =>
        ends s' ∧ (s'.canOf n).rx = (s.canOf n).rx ∧ s'.get (CAN_EVENTS.error n) = 1)) ∧
      (live s = true → hears → fd → s.get (CAN_CTRL.fd_enable n) = 0 → Completes (.canFrameReceive n w0 w1 start (some data) rec) s (fun s' =>
        ends s' ∧ (s'.canOf n).rx = (s.canOf n).rx ∧ s'.get (CAN_EVENTS.error n) = 1)) ∧
      (live s = true → hears → whole → (∀ f, hits f = false) → Completes (.canFrameReceive n w0 w1 start (some data) rec) s (fun s' =>
        ends s' ∧ (s'.canOf n).rx = (s.canOf n).rx)) ∧
      (∀ f : Fin 32, live s = true → hears → whole → hits f = true → (∀ g, g < f → hits g = false) →
        let words := [w0, BitVec.ofNat 32 (bitsOf w1 0 6 + 256 * f + 65536 * len), start] ++ data.take ((len + 3) / 4)
        ((s.canOf n).rx.length + words.length ≤ 1216 → Completes (.canFrameReceive n w0 w1 start (some data) rec) s (fun s' =>
          ends s' ∧ (s'.canOf n).rx = (s.canOf n).rx ++ words ∧ s'.get (CAN_EVENTS.rx n) = 1)) ∧
        (1216 < (s.canOf n).rx.length + words.length → Completes (.canFrameReceive n w0 w1 start (some data) rec) s (fun s' =>
          ends s' ∧ (s'.canOf n).rx = (s.canOf n).rx ∧ s'.get (CAN_EVENTS.rx_ovf n) = 1))) ∧
      (∀ b : Fin 16, live s = true → hears → remote → ¬ fd → s.frost = false → s.get (CAN_CTRL.monitor n) = 0 →
        b.val ∈ canPending s n → s.get (canAuto n b) = 1 → bitsOf (s.reg (CAN_TXB n b 0)) 0 30 = bitsOf w0 0 30 →
        Completes (.canFrameReceive n w0 w1 start (some data) rec) s (fun s' => b.val ∈ (s'.canOf n).replies))) ∧
    (∀ (b : Fin 16) (tec : Fin 257) (rec : Fin 256) (at_ : Fin 65536 × Word),
      let fin := fun (r : Fin 3) => (.canFrameEnd n b r tec rec at_ : Instr)
      let can : Prop := live s = true ∧ ¬ off ∧ s.frost = false ∧ s.get (CAN_CTRL.monitor n) = 0 ∧ canOnWire s n b = true ∧
        s.get (CAN_STATUS.fault n) ≠ 2
      let auto_ : Nat := s.get (canAuto n b)
      let stopped : Prop := b.val ∈ (s.canOf n).cancel ∨ s.get (CAN_CTRL.no_retx n) = 1
      let kept : State → Prop := fun s' => canPending s' n = canPending s n
      let gone : State → Prop := fun s' => canPending s' n = (canPending s n).filter (· != b.val)
      let ends : State → Prop := fun s' => counts tec rec s' ∧ b.val ∉ (s'.canOf n).cancel ∧
        RegsOnly [CAN_STATUS n, CAN_EVENTS n, CAN_TDC n, CAN_TX_PEND n] s { s' with bus := s.bus }
      (¬ can → ∀ r, exec (fin r) s = .next s) ∧
      (can → auto_ = 0 → Completes (fin 0) s (fun s' => ends s' ∧ gone s' ∧ s'.get (CAN_EVENTS.tx_done n) = 1)) ∧
      (can → auto_ = 1 → b.val ∉ (s.canOf n).cancel → Completes (fin 0) s (fun s' => ends s' ∧ kept s' ∧
        s'.get (CAN_EVENTS.auto_reply n) = 1)) ∧
      (can → auto_ = 1 → b.val ∈ (s.canOf n).cancel → Completes (fin 0) s (fun s' => ends s' ∧ gone s' ∧
        s'.get (CAN_EVENTS.auto_reply n) = 1)) ∧
      (can → stopped → Completes (fin 1) s (fun s' => ends s' ∧ gone s') ∧
        Completes (fin 2) s (fun s' => ends s' ∧ gone s' ∧ s'.get (CAN_EVENTS.error n) = 1)) ∧
      (can → ¬ stopped → Completes (fin 1) s (fun s' => ends s' ∧ kept s') ∧
        Completes (fin 2) s (fun s' => ends s' ∧ kept s' ∧ s'.get (CAN_EVENTS.error n) = 1))) ∧
    (live s = true → s.get (CAN_STATUS.fault n) = 2 → ¬ off → Completes (.busOffRecovery n) s (fun s' => counts 0 0 s' ∧
      s'.get (CAN_EVENTS.recovered n) = 1 ∧ (s'.canOf n).rx = (s.canOf n).rx ∧
      RegsOnly [CAN_STATUS n, CAN_EVENTS n] s { s' with bus := s.bus })) ∧
    (s.get (CAN_STATUS.fault n) ≠ 2 ∨ off → exec (.busOffRecovery n) s = .next s)

/-- A master frame finds the port's source data for F_code 0 to 4 or its device status for 15, and no reply for 8 to 14;
the reply is sent with an event. A good slave frame commits all words of the sink ports with age 0, a bad one raises an
event. The last word written commits a source port; a read of a sink port's first word captures the rest for 64 clk. An
administrator's frame ends OK with its data, or in TIMEOUT. (R307, R308, R309) -/
def Obligations.MvbPortsAnswerAndReceive : Prop :=
  ∀ (s : State) (m : Fin 2),
    let u := 8 + m.val
    let h := s.mvbOf m
    let off : Prop := s.get (MVB_STATUS.state m) = 0
    let ev : Nat → Fld := fun b => ⟨busBase u + 8, b, 1⟩
    let words := fun (p : Nat) => mvbWords (s.get (MVB_PORT_CFG.f_code m p))
    (∀ (a : Fin 4096) (f : Fin 16) (line : Bool),
      let at_ : Nat → Nat → Prop := fun d p => s.get (MVB_PORT_CFG.dir m p) = d ∧ s.get (MVB_PORT_CFG.address m p) = a.val ∧
        s.get (MVB_PORT_CFG.f_code m p) = f.val
      let heard : Option (Nat × List Word) → State → Prop := fun r s' => (s'.mvbOf m).reply = r ∧
        s'.get (MVB_STATUS.line m) = line.toNat ∧
        s'.get (ev 3) = (if s.get (MVB_STATUS.line m) = line.toNat then s.get (ev 3) else 1) ∧
        (∀ q, q ∈ (s'.mvbOf m).sink ↔ f.val ≤ 4 ∧ q < 256 ∧ at_ 2 q) ∧ (s'.mvbOf m).data = h.data ∧
        RegsOnly [MVB_STATUS m, MVB_EVENTS m] s { s' with bus := s.bus }
      let on : Prop := live s = true ∧ mvbLineOn s m line = true
      (off ∨ mvbLineOn s m line = false → exec (.mvbMasterFrame m a f line) s = .next s) ∧
      (∀ p : Fin 256, on → busSends s u = true → f.val ≤ 4 → at_ 1 p → (∀ q, q < p.val → ¬ at_ 1 q) →
        Completes (.mvbMasterFrame m a f line) s (heard (some (p.val, mvbData s m p)))) ∧
      (on → busSends s u = true → f.val = 15 → a.val = s.get (MVB_CTRL.address m) →
        Completes (.mvbMasterFrame m a f line) s (heard (some (256, [s.reg (MVB_DEV_STATUS m)])))) ∧
      (on → ¬ off → (busSends s u = false ∨ (8 ≤ f.val ∧ f.val ≤ 14)) → Completes (.mvbMasterFrame m a f line) s (heard none))) ∧
    (h.reply = none → exec (.mvbSlaveReply m) s = .next s) ∧
    (∀ p ws, live s = true → h.reply = some (p, ws) → busSends s u = false → Completes (.mvbSlaveReply m) s (fun s' =>
      s'.mvbOf m = { h with reply := none } ∧ { s' with bus := s.bus } = s)) ∧
    (∀ p ws, live s = true → h.reply = some (p, ws) → busSends s u = true → Completes (.mvbSlaveReply m) s (fun s' => s'.mvbOf m = { h with reply := none } ∧
      s'.get (ev (if p = 256 then 6 else 1)) = 1 ∧ RegsOnly [MVB_EVENTS m] s { s' with bus := s.bus })) ∧
    (∀ ws, (off → ∀ ok, exec (.mvbSinkReceive m ws ok) s = .next s) ∧
      (live s = true → ¬ off → h.admin.isSome → Completes (.mvbSinkReceive m ws false) s (fun s' =>
        s'.mvbOf m = { h with sink := [], admin := none } ∧ s'.get (ev 2) = 1 ∧ s'.get (MVB_ADMIN_RESULT.result m) = 2 ∧
        RegsOnly [MVB_ADMIN_RESULT m, MVB_EVENTS m] s { s' with bus := s.bus })) ∧
      (live s = true → ¬ off → h.admin = none → Completes (.mvbSinkReceive m ws false) s (fun s' => s'.mvbOf m = { h with sink := [] } ∧ s'.get (ev 2) = 1 ∧
        RegsOnly [MVB_EVENTS m] s { s' with bus := s.bus })) ∧
      (live s = true → ¬ off → ws.length ≤ 8 → (∀ p ∈ h.sink, p < 256) → Completes (.mvbSinkReceive m ws true) s (fun s' =>
        (∀ p ∈ h.sink, words p = ws.length → (∀ w, w < ws.length → some (mvbWord s' m p w) = ws[w]?) ∧
          (mvbPortStat s' m p).toNat = 65536 ∧ (s.get (MVB_PORT_CFG.ev m p) = 1 → s'.get (ev 0) = 1)) ∧
        (∀ p w, w < 8 → (p ∉ h.sink ∨ words p ≠ ws.length) → mvbWord s' m p w = mvbWord s m p w) ∧
        (s'.mvbOf m).sink = [] ∧ { s' with io := s.io, bus := s.bus } = s))) ∧
    (∀ (mas : Master) (p : Fin 256) (v : Word),
      (busWriter mas = false ∨ s.get (MVB_PORT_CFG.dir m p) ≠ 1 → exec (.mvbSourceCommit mas m p v) s = .next s) ∧
      (live s = true → busWriter mas = true → s.get (MVB_PORT_CFG.dir m p) = 1 → s.get (MVB_PORT_CFG.f_code m p) ≤ 4 →
        Completes (.mvbSourceCommit mas m p v) s (fun s' => mvbWord s' m p (words p - 1) = v ∧
          (∀ w, w + 1 < words p → mvbWord s' m p w = (lookup h.staged (8 * p + w)).getD 0) ∧
          (∀ q w, w < 8 → q ≠ p.val → mvbWord s' m q w = mvbWord s m q w) ∧ { s' with bus := s.bus } = s))) ∧
    (∀ (r : Reader) (p : Fin 256), live s = true →
      (s.get (MVB_PORT_CFG.dir m p) ≠ 2 → exec (.mvbSinkRead r m p) s = .next { s with data := mvbWord s m p 0 }) ∧
      (s.get (MVB_PORT_CFG.dir m p) = 2 → 1 < words p → Completes (.mvbSinkRead r m p) s (fun s' =>
        s'.data = mvbWord s m p 0 ∧ s'.io = s.io ∧ (s'.mvbOf m).data = h.data ∧
        (s'.mvbOf m).latches = (r, p.val, mvbData s m p, 0) :: h.latches.filter (fun l => l.1 != r))) ∧
      Completes (.mvbPortLatchExpiry r m) s (fun s' => { s' with bus := s.bus } = s ∧ (s'.mvbOf m).data = h.data ∧
        ∀ l, l ∈ (s'.mvbOf m).latches ↔ l ∈ h.latches ∧ ¬(l.1 = r ∧ 64 ≤ l.2.2.2))) ∧
    (∀ (mas : Master) (v : Word),
      let sends : Prop := live s = true ∧ busWriter mas = true ∧ s.get (MVB_CTRL.admin m) = 1 ∧ s.get (MVB_STATUS.state m) = 1 ∧ busSends s u = true
      (¬ sends → exec (.mvbAdminCmd mas m v) s = .next s) ∧
      (sends → h.admin.isSome → Completes (.mvbAdminCmd mas m v) s (fun s' => s'.get (MVB_ADMIN_RESULT.result m) = 3 ∧
        RegsOnly [MVB_ADMIN_RESULT m] s s')) ∧
      (sends → h.admin = none → mvbLineOn s m (s.get (MVB_STATUS.line m) == 1) = true →
        Completes (.mvbAdminCmd mas m v) s (fun s' => (s'.mvbOf m).admin = some s.now ∧ OnlyRegs [] s s' ∧
        s'.mvbOf m = { (mvbMasterFrame m (bitsOf v 0 12) (bitsOf v 12 4) (s.get (MVB_STATUS.line m) == 1) s).mvbOf m with admin := some s.now }))) ∧
    (h.admin = none ∨ (∃ t, h.admin = some t ∧ s.now ≤ t + 43000) → exec (.mvbAdminTimeout m) s = .next s) ∧
    (h.admin = none ∨ (∃ t, h.admin = some t ∧ t + 43000 < s.now) → ∀ ws, exec (.mvbAdminReply m ws) s = .next s) ∧
    (∀ t, live s = true → h.admin = some t → (t + 43000 < s.now → Completes (.mvbAdminTimeout m) s (fun s' => (s'.mvbOf m).admin = none ∧ s'.get (ev 5) = 1 ∧
        s'.get (MVB_ADMIN_RESULT.result m) = 1 ∧ RegsOnly [MVB_ADMIN_RESULT m, MVB_EVENTS m] s { s' with bus := s.bus })) ∧
      ∀ ws, s.now ≤ t + 43000 → Completes (.mvbAdminReply m ws) s (fun s' => (s'.mvbOf m).admin = none ∧ s'.get (ev 4) = 1 ∧
        s'.get (MVB_ADMIN_RESULT.result m) = 0 ∧ (∀ (i : Nat) w, i < 8 → ws[i]? = some w → s'.reg (MVB_ADMIN_DATA m i) = w)))

/-- A received character, word or byte is pushed with its marks and event, or dropped with the overrun event; one that
is sent leaves the transmit FIFO, and the last raises the empty event. An SPI target with nothing to send raises the
underrun. An I2C transfer starts on its command where none runs and ends with its event, its written bytes gone or its
read bytes received; a target asked for a byte it does not have stretches SCL, at most stretch_us. (R300, R301, R310,
R311, R312) -/
def Obligations.SerialPortsMoveCharacters : Prop :=
  (∀ (s : State) (n : Fin 8) (c : BitVec 9) (p f b : Bool),
    let u := 10 + n.val
    let h := s.serOf u
    let ev : Nat → Fld := fun k => ⟨busBase u + 8, k, 1⟩
    let only : State → Prop := fun s' => RegsOnly [UART_EVENTS n] s { s' with bus := s.bus }
    let w : Word := BitVec.ofNat 32 (c.toNat % 2 ^ (s.get (UART_CTRL.bits n) + 5) + (if p then 512 else 0) +
      (if f then 1024 else 0) + (if b then 2048 else 0))
    let marks : State → Prop := fun s' => (f = true → s'.get (ev 4) = 1) ∧ (p = true → s'.get (ev 5) = 1) ∧
      (b = true → s'.get (ev 6) = 1) ∧ only s'
    (busState s u = 0 → exec (.uartCharacter n false c p f b) s = .next s ∧ exec (.uartIdle n) s = .next s) ∧
    (h.heard = false → exec (.uartIdle n) s = .next s) ∧
    (live s = true → busState s u ≠ 0 → h.rx.length < 64 → Completes (.uartCharacter n false c p f b) s (fun s' => marks s' ∧
      s'.serOf u = { h with heard := true, rx := h.rx ++ [w] } ∧ s'.get (ev 0) = 1)) ∧
    (live s = true → busState s u ≠ 0 → 64 ≤ h.rx.length → Completes (.uartCharacter n false c p f b) s (fun s' => marks s' ∧
      s'.serOf u = { h with heard := true } ∧ s'.get (ev 2) = 1)) ∧
    (live s = true → busState s u ≠ 0 → h.heard = true → Completes (.uartIdle n) s (fun s' => s'.get (ev 7) = 1 ∧
      s'.serOf u = { h with heard := false } ∧ only s')) ∧
    let led := s.get (UART_CTRL.rs485 n) = 0 ∨ h.deFrom + s.get (UART_DE.lead_ns n) ≤ s.now
    (¬ led → exec (.uartCharacter n true c p f b) s = .next s) ∧
    (∀ x rest, live s = true → h.tx = x :: rest → busSends s u = true → s.get (UART_CTRL.loopback n) = 0 → led →
      Completes (.uartCharacter n true c p f b) s (fun s' =>
        s'.serOf u = { h with tx := rest, deEnd := if rest = [] then s.now + s.get (UART_DE.lag_ns n) else h.deEnd } ∧ only s' ∧
        s'.get (ev 1) = (if rest = [] then 1 else s.get (ev 1)))) ∧
    ((h.tx = [] ∨ busSends s u = false) → exec (.uartCharacter n true c p f b) s = .next s)) ∧
  (∀ (s : State) (n : Fin 4) (w : Word) (last : Bool),
    let u := 18 + n.val
    let h := s.serOf u
    let ev : Nat → Fld := fun k => ⟨busBase u + 8, k, 1⟩
    let got : Word := BitVec.ofNat 32 (w.toNat % 2 ^ (s.get (SPI_CTRL.bits n) + 1))
    let takes : State → Prop := fun s' => (h.rx.length < 32 → (s'.serOf u).rx = h.rx ++ [got] ∧ s'.get (ev 0) = 1) ∧
      (32 ≤ h.rx.length → (s'.serOf u).rx = h.rx ∧ s'.get (ev 2) = 1) ∧ RegsOnly [SPI_EVENTS n] s { s' with bus := s.bus }
    let cs : Prop := s.get (SPI_CTRL.cs_hold n) = 1 ∧ 2 ≤ h.tx.length
    (busState s u = 0 ∨ (s.get (SPI_CTRL.target n) = 0 ∧ (h.tx = [] ∨ busSends s u = false)) → exec (.spiWord n w last) s = .next s) ∧
    (live s = true → s.get (SPI_CTRL.target n) = 0 → busSends s u = true → h.tx ≠ [] → Completes (.spiWord n w last) s (fun s' => takes s' ∧
      (s'.serOf u).tx = h.tx.drop 1 ∧ ((s'.serOf u).cs = true ↔ cs) ∧ (¬ cs → s'.get (ev 5) = 1) ∧
      (h.tx.length = 1 → s'.get (ev 1) = 1))) ∧
    (live s = true → busState s u ≠ 0 → s.get (SPI_CTRL.target n) = 1 → Completes (.spiWord n w last) s (fun s' => takes s' ∧
      (s'.serOf u).tx = (if s.frost then h.tx else h.tx.drop 1) ∧ (s.frost = false → h.tx = [] → s'.get (ev 4) = 1) ∧
      (last = true → s'.get (ev 5) = 1)))) ∧
  (∀ (s : State) (n : Fin 2),
    let u := 22 + n.val
    let h := s.serOf u
    let ev : Nat → Fld := fun k => ⟨busBase u + 8, k, 1⟩
    let only : State → Prop := fun s' => RegsOnly [I2C_EVENTS n] s { s' with bus := s.bus }
    let bytes := fun (l : List Byte) => l.map (fun b => BitVec.ofNat 32 b.toNat)
    (∀ (m : Master) (v : Word),
      let open_ := busState s u = 1 ∨ (busState s u = 2 ∧ busAbort s u = false ∧ h.tx ≠ [])
      let starts : Prop := live s = true ∧ busWriter m = true ∧ open_ ∧ s.get (I2C_CTRL.target n) = 0 ∧ h.xfer = none
      (starts → Completes (.i2cCmd m n v) s (fun s' => s'.serOf u = { h with xfer := some v } ∧ { s' with bus := s.bus } = s)) ∧
      (¬ starts → exec (.i2cCmd m n v) s = .next s)) ∧
    (∀ (r : Fin 3) (sent : Fin 33) (got : List Byte), h.xfer = none ∨ s.frost = true → exec (.i2cTransferDone n r sent got) s = .next s) ∧
    (∀ (r : Fin 3) (sent : Fin 33) (got : List Byte) (v : Word), live s = true → s.frost = false → h.xfer = some v →
      let count := bitsOf v 12 5 + 1
      (bitsOf v 10 1 = 0 → Completes (.i2cTransferDone n r sent got) s (fun s' => only s' ∧ s'.get (ev r) = 1 ∧
        s'.serOf u = { h with xfer := none, tx := h.tx.drop (if r = 0 then count else min sent count) })) ∧
      (bitsOf v 10 1 = 1 → h.rx.length + (got.take count).length ≤ 16 → Completes (.i2cTransferDone n r sent got) s (fun s' =>
        only s' ∧ s'.get (ev r) = 1 ∧ s'.serOf u = { h with xfer := none, rx := h.rx ++ bytes (got.take count) }))) ∧
    (∀ (read : Bool) (got : List Byte), busState s u = 0 ∨ s.get (I2C_CTRL.target n) = 0 →
      exec (.i2cTargetRequest n read got) s = .next s) ∧
    (∀ got : List Byte, live s = true → busState s u ≠ 0 → s.get (I2C_CTRL.target n) = 1 →
      (h.rx.length + got.length ≤ 16 → Completes (.i2cTargetRequest n false got) s (fun s' => only s' ∧ s'.get (ev 4) = 1 ∧
        s'.serOf u = { h with rx := h.rx ++ bytes got })) ∧
      (s.frost = true → Completes (.i2cTargetRequest n true got) s (fun s' => only s' ∧ s'.get (ev 4) = 1 ∧ s'.bus = s.bus)) ∧
      (s.frost = false → h.tx = [] → Completes (.i2cTargetRequest n true got) s (fun s' => only s' ∧ s'.get (ev 4) = 1 ∧
        s'.serOf u = { h with stretch := some s.now })) ∧
      (∀ b rest, s.frost = false → h.tx = b :: rest → Completes (.i2cTargetRequest n true got) s (fun s' => only s' ∧ s'.get (ev 4) = 1 ∧
        s'.serOf u = { h with tx := rest }))) ∧
    (h.stretch = none → exec (.stretchTimeout n) s = .next s) ∧
    (∀ t, h.stretch = some t →
      (s.now < t + s.get (I2C_STRETCH.stretch_us n) * 1000 → exec (.stretchTimeout n) s = .next s) ∧
      (live s = true → t + s.get (I2C_STRETCH.stretch_us n) * 1000 ≤ s.now → Completes (.stretchTimeout n) s (fun s' => only s' ∧
        s'.get (ev 5) = 1 ∧ s'.serOf u = { h with stretch := none }))))
/-- At the plain registers of the CLK, INV and BEACON blocks a write by a writer of the block gives each bit what its
access type says, a locked bit none, and changes no other register; another writer and a reserved offset change nothing.
The first half read of a pair captures it in the reader's latch, the other half comes from the latch and empties it. A
write of TT_STEP_LO or a channel's CH_START_TT_LO is staged for its master; the write of _HI commits both halves, with
the present _LO where no such stage is held, and empties the stage. Latch and stage expire after 64 counted clk. (R6,
R7, R8, R9, R85, R86, R87, R88, Table TT-4, Table SCO-4) -/
def Obligations.RegistersAndWidePairsAct : Prop :=
  (∀ (s : State) (m : Master) (a : BitVec 24) (v : Word),
    let n := a.toNat
    let plain : Prop := (0x20000 ≤ n ∧ n < 0x30000 ∧ n ≠ CLK_SELECT) ∨ (0xA0000 ≤ n ∧ n < 0xB0000)
    (coreOn s = false → exec (.registerWrite m a v) s = .next s) ∧
    (coreOn s = true → plain → (devWriter (ioMaster m) = false ∨ regRow n = none) → exec (.registerWrite m a v) s = .next s) ∧
    (∀ r : RegRow, coreOn s = true → plain → devWriter (ioMaster m) = true → regRow n = some r →
      let lock := (blockRows n).2.2
      let locked := lock != 0 && (s.reg lock).getLsbD 31
      let rw : Nat := if locked then r.rw else r.rw ||| r.rwl
      Completes (.registerWrite m a v) s (fun s' => RegsOnly [n] s s' ∧ ∀ i, i < 32 → (s'.reg n).getLsbD i =
        ((((if rw.testBit i then v.getLsbD i else (s.reg n).getLsbD i) && !(v.getLsbD i && r.w1c.testBit i))) ||
          (v.getLsbD i && r.w1s.testBit i))))) ∧
  (∀ (s : State) (m : Master) (hi : Bool), coreOn s = true →
    ∀ lo ∈ [INV_EPOCH_TT_LO, CLK_SWITCH_TT_LO, TT_NOW_LO, TT_STEP_LO, DRZ_TICK_LO, NET_GPTP_GM_LO, CMD_CTR_LO 0, CMD_CTR_LO 3],
    let a := BitVec.ofNat 24 (if hi then lo + 4 else lo)
    let r := readerOf s m
    let now := if lo = TT_NOW_LO then s.now else s.pair lo
    let half := fun (x : Nat) => BitVec.ofNat 32 (if hi then x / 2 ^ 32 else x)
    let rest : State → Prop := fun s' => { s' with data := s.data, tt := s.tt } = s ∧ s'.tt.t = s.tt.t ∧
      s'.tt.stages = s.tt.stages ∧ ∀ q, q ≠ r → latchOf s' q = latchOf s q
    ((latchOf s r = none ∨ ∃ l, latchOf s r = some l ∧ l.pair ≠ lo) → Completes (.widePairRead m a) s (fun s' =>
      s'.data = half now ∧ latchOf s' r = some ⟨lo, now, hi, s.frac, 0⟩ ∧ rest s')) ∧
    (∀ l, latchOf s r = some l → l.pair = lo →
      (l.hiFirst ≠ hi → Completes (.widePairRead m a) s (fun s' => s'.data = half l.value ∧ latchOf s' r = none ∧ rest s')) ∧
      (l.hiFirst = hi → exec (.widePairRead m a) s = .next { s with data := half l.value }))) ∧
  (∀ (s : State) (m : Master) (a : BitVec 24), coreOn s = false ∨ widePair a.toNat = none →
    exec (.widePairRead m a) s = .next s) ∧
  (∀ (s : State) (r : Reader),
    ((∀ l, latchOf s r = some l → l.age < 64) → exec (.latchExpiry r) s = .next s) ∧
    (∀ l, live s = true → latchOf s r = some l → 64 ≤ l.age → Completes (.latchExpiry r) s (fun s' => latchOf s' r = none ∧
      (∀ q, q ≠ r → latchOf s' q = latchOf s q) ∧ (∀ q, stageOf s' q = stageOf s q) ∧ { s' with tt := s.tt } = s)) ∧
    ((∀ x, stageOf s r = some x → x.age < 64) → exec (.stageExpiry r) s = .next s) ∧
    (∀ x, live s = true → stageOf s r = some x → 64 ≤ x.age → Completes (.stageExpiry r) s (fun s' => stageOf s' r = none ∧
      (∀ q, q ≠ r → stageOf s' q = stageOf s q) ∧ (∀ q, latchOf s' q = latchOf s q) ∧ { s' with tt := s.tt } = s))) ∧
  (∀ (s : State) (m : Master) (v : Word),
    let r := readerOf s m
    let stages : Nat → State → Prop := fun lo s' => stageOf s' r = some ⟨lo, v, 0⟩ ∧ (∀ q, q ≠ r → stageOf s' q = stageOf s q) ∧
      s'.tt.t = s.tt.t ∧ s'.tt.latches = s.tt.latches ∧ { s' with tt := s.tt } = s
    let commits : Nat → State → Prop := fun lo s' => stageOf s' r = none ∧ (∀ q, q ≠ r → stageOf s' q = stageOf s q) ∧
      s'.pair lo = (match stageOf s r with
        | some x => if x.pair = lo then x.value.toNat else s.regN lo
        | none => s.regN lo) + 2 ^ 32 * v.toNat
    let writes := fun (a : Nat) => Instr.writeStage m (BitVec.ofNat 24 a) v
    let commit := fun (a : Nat) => Instr.widePairCommit m (BitVec.ofNat 24 a) v
    (coreOn s = true → devWriter (ioMaster m) = true → Completes (.writeStage m (BitVec.ofNat 24 TT_STEP_LO) v) s (stages TT_STEP_LO) ∧
      (s.ha 1 = true → Completes (.widePairCommit m (BitVec.ofNat 24 TT_STEP_HI) v) s (commits TT_STEP_LO)) ∧
      (s.ha 1 = false → Completes (.widePairCommit m (BitVec.ofNat 24 TT_STEP_HI) v) s (fun s' => stageOf s' r = none ∧
        (∀ q, q ≠ r → stageOf s' q = stageOf s q) ∧ s'.pair TT_STEP_LO = s.pair TT_STEP_LO ∧ s'.tt.t = s.tt.t))) ∧
    (coreOn s = false ∨ devWriter (ioMaster m) = false → exec (writes TT_STEP_LO) s = .next s ∧ exec (commit TT_STEP_HI) s = .next s) ∧
    (∀ d : Fin 144, coreOn s = true → domOn s (chDomain d) = true →
      engineWriter d m = true →
      Completes (writes (chBase d + 0x20)) s (stages (chBase d + 0x20)) ∧
      (s.get (CH_STATUS.claimed (chBase d)) = 0 → chFree s d = true → Completes (commit (chBase d + 0x24)) s (fun s' =>
        commits (chBase d + 0x20) s' ∧ RegsOnly [chBase d + 0x20, chBase d + 0x24] s { s' with tt := s.tt }))) ∧
    (∀ a : BitVec 24, widePair a.toNat = none → exec (.writeStage m a v) s = .next s ∧ exec (.widePairCommit m a v) s = .next s))
/-- A request by a foreign writer is denied, during a change is busy, and where R334 refuses it is refused; none of
these changes the domain. An accepted Off takes the domain, and what is inside it, into Entering with its tiles in
reset, their posted writes kept; an accepted On starts a wake. Off is reached once the clamps have engaged; a woken
tile's memories read 0. A reload leaves the tile loaded where every entry matches its digest. A tile in WAIT with Doze
enabled stops its clock when its operations are written, until a source arrives. (R333, R334, R335, R336, R339, R340,
R104) -/
def Obligations.DomainsGoOffAndComeBack : Prop :=
  (∀ (s : State) (m : Master) (d : Fin 47) (v : Word),
    let st := s.get (PWR_DOM_STAT.state d)
    let off := v.getLsbD 0
    let may : Prop := live s = true ∧ devWriter m = true ∧ domRefused s m d off = false
    let answers : Nat → State → Prop := fun r s' => s'.get (PWR_DOM_STAT.req_result d) = r ∧
      s'.get (PWR_DOM_STAT.state d) = st ∧ RegsOnly [PWR_DOM_STAT d, PWR_EVENTS] s s'
    (live s = true → devWriter m = false → Completes (.domainRequest m d v) s (fun s' => answers 1 s' ∧ s'.get PWR_EVENTS.dom_refused = 1)) ∧
    (live s = true → devWriter m = true → 2 ≤ st → Completes (.domainRequest m d v) s (answers 3)) ∧
    (live s = true → devWriter m = true → st < 2 → domRefused s m d off = true → Completes (.domainRequest m d v) s (fun s' =>
      answers 2 s' ∧ s'.get PWR_EVENTS.dom_refused = 1)) ∧
    (may → st = 0 → off = true → Completes (.domainRequest m d v) s (fun s' =>
      s'.get (PWR_DOM_STAT.req_result d) = 0 ∧ s'.get (PWR_DOM_CTRL.req d) = 1 ∧
      s'.get (PWR_DOM_CTRL.woa d) = (v.getLsbD 1).toNat ∧ s'.mem = s.mem ∧
      (∀ e ∈ domMembers d, s'.get (PWR_DOM_STAT.state e) =
        (if s.get (PWR_DOM_STAT.state e) = 0 ∨ s.get (PWR_DOM_STAT.state e) = 3 then 2 else s.get (PWR_DOM_STAT.state e))) ∧
      ∀ t : Fin 24, s'.tileOf t = (if domTile t ∈ domMembers d ∧
          (s.get (PWR_DOM_STAT.state (domTile t)) = 0 ∨ s.get (PWR_DOM_STAT.state (domTile t)) = 3) then
        { Tile.reset with pinned := (s.tileOf t).pinned, unloaded := (s.tileOf t).unloaded, posted := (s.tileOf t).posted }
        else s.tileOf t))) ∧
    (may → st = 1 → off = false → Completes (.domainRequest m d v) s (fun s' =>
      s'.get (PWR_DOM_STAT.state d) = 3 ∧ s'.get (PWR_DOM_STAT.req_result d) = 0 ∧ s'.get (PWR_DOM_CTRL.req d) = 0 ∧
      RegsOnly [PWR_DOM_STAT d, PWR_DOM_CTRL d] s { s' with pwr := s.pwr })) ∧
    (may → (st = 0 ∧ off = false) ∨ (st = 1 ∧ off = true) → Completes (.domainRequest m d v) s (fun s' =>
      s'.get (PWR_DOM_STAT.state d) = st ∧ s'.get (PWR_DOM_STAT.req_result d) = 0 ∧ s'.get (PWR_DOM_CTRL.req d) = off.toNat ∧
      RegsOnly [PWR_DOM_STAT d, PWR_DOM_CTRL d] s s'))) ∧
  (∀ (s : State) (d : Fin 47),
    let st := s.get (PWR_DOM_STAT.state d)
    let clamped := s.get (PWR_DOM_STAT.clamped d)
    (st ≠ 2 ∨ clamped = 0 → exec (.domainOffDone d) s = .next s) ∧
    (live s = true → st = 2 → clamped = 1 → Completes (.domainOffDone d) s (fun s' => s'.get PWR_EVENTS.dom_done = 1 ∧
      (s.pwr.domPend.contains d.val = true → wakeable s d = true → s'.get (PWR_DOM_STAT.state d) = 3) ∧
      ((∀ e ∈ domMembers d, e ∉ s.pwr.domPend) → ∀ e ∈ domMembers d, s'.get (PWR_DOM_STAT.state e) = 1 ∧
        s'.get (PWR_DOM_STAT.clamped e) = 1) ∧ s'.mem = s.mem)) ∧
    (st ≠ 3 → exec (.domainWakeDone d) s = .next s) ∧
    (∀ c, domParent d = some c → s.get (PWR_DOM_STAT.state (domCluster c)) ≠ 0 → exec (.domainWakeDone d) s = .next s) ∧
    (live s = true → st = 3 → (∀ c, domParent d = some c → s.get (PWR_DOM_STAT.state (domCluster c)) = 0) →
      Completes (.domainWakeDone d) s (fun s' => s'.get (PWR_DOM_STAT.state d) = 0 ∧ s'.get (PWR_DOM_STAT.clamped d) = 0 ∧
        s'.get PWR_EVENTS.dom_done = 1 ∧
        ∀ t : Fin 24, d.val = domTile t → (∀ k, k < 0x80000 → s'.byte (itcmKey t + k) = 0) ∧
          (∀ k, k < itcmKey t ∨ itcmKey t + 0x80000 ≤ k → s'.byte k = s.byte k) ∧
          s'.tileOf t = { Tile.reset with pinned := (s.tileOf t).pinned, unloaded := true }))) ∧
  (∀ (s : State) (t : Fin 24),
    let x := s.tileOf t
    let doz : Fld := ⟨PWR_STATUS, 8 + t, 1⟩
    let can : Prop := domOn s (domTile t) = true ∧ x.held = true ∧ x.unloaded = true ∧ 6 ≤ s.get BOOT_STATUS.stage ∧
      s.get BOOT_STATUS.stage ≤ 9
    let slot := s.get MRAM_STATUS.active_slot
    let es := entriesFor (manifestOf s slot) t
    let sleeps : Prop := x.waiting = true ∧ x.doze = true ∧ runs s t = true ∧ x.posted = [] ∧ x.load = none ∧ urgentEvent s t = none
    (¬ can → exec (.tileReloadDone t) s = .next s) ∧
    (can → Completes (.tileReloadDone t) s (fun s' => s'.io = s.io ∧
      ((s'.tileOf t).unloaded = false ↔ es ≠ [] ∧ ∀ e ∈ es, Config.sha384 (imageBytes s slot e) = e.digest) ∧
      ∀ u : Fin 24, u ≠ t → s'.tileOf u = s.tileOf u)) ∧
    (¬ sleeps → exec (.dozeEntry t) s = .next s) ∧
    (sleeps → Completes (.dozeEntry t) s (fun s' => s'.get doz = 1 ∧ s'.tileOf t = drainOps x ∧
      RegsOnly [PWR_STATUS] s { s' with tiles := s.tiles } ∧ ∀ u : Fin 24, u ≠ t → s'.tileOf u = s.tileOf u)) ∧
    (live s = true → s.get doz = 1 → (urgentEvent s t).isSome → Completes (.dozeWake t) s (fun s' => s'.get doz = 0 ∧ RegsOnly [PWR_STATUS] s s')) ∧
    (s.get doz = 0 ∨ urgentEvent s t = none → exec (.dozeWake t) s = .next s))

/-- A request by a foreign writer, with a bad configuration, no usable wake source or in a state that forbids it is
answered with its code; an accepted one starts the notice window. Cancel or a wake source in the window ends it; at its
end, notice_us after the request, the tiles are in reset (that the entry's instants are train time is the model's choice, log 167); then the MRAM buffer is flushed and closed, the cluster and lane domains go off, and the
state is left with the memory and AON registers R344 keeps. A tick starts a Drizzle cycle, and a wake source starts the
boot with its cause recorded. Power-on reset leaves only the self-test request, the MRAM and the fuses; a supply warning
closes the MRAM and is logged. (R73, R341, R342, R343, R344, R345, R348, R350, R351, R352, R353, Table PWR-5) -/
def Obligations.LowPowerIsEnteredAndLeft : Prop :=
  (∀ (s : State) (m : Master),
    let usable : Bool → Prop := fun c => s.get PWR_WAKE_EN.enable &&& (if c then 0x3FFC else 0x3FFF) ≠ 0
    let free : Prop := s.frost = false ∧ s.pwr.entry = none ∧ s.get PWR_STATUS.supwarn = 0 ∧ s.get INV_STATE.state = 0
    let drz : Prop := s.get DRZ_CFG.pair ≤ 5 ∧ 80000 ≤ s.regN DRZ_PERIOD
    let cmd := fun (c : Bool) => if c then (.cellar m : Instr) else .drizzle m
    let answers : Nat → State → Prop := fun r s' => s'.get PWR_CMD_RESULT.result = r ∧ RegsOnly [PWR_CMD_RESULT] s s'
    let takes : Bool → State → Prop := fun c s' => s'.get PWR_CMD_RESULT.result = 0 ∧ s'.pwr.entry = some (c, 0) ∧
      s'.pwr.wakes = 0 ∧ s'.get PWR_EVENTS.notice = 1 ∧ s'.get PWR_WAKE_REC.cause = 0 ∧ s'.get PWR_WAKE_REC.cellar = 0 ∧
      RegsOnly [PWR_CMD_RESULT, PWR_EVENTS, PWR_WAKE_REC, DRZ_CFG] s { s' with pwr := s.pwr }
    (coreOn s = false → (∀ c, exec (cmd c) s = .next s) ∧ exec (.cancel m) s = .next s) ∧
    (coreOn s = true → devWriter m = false → (∀ c, Completes (cmd c) s (answers 1)) ∧ Completes (.cancel m) s (answers 1)) ∧
    (coreOn s = true → devWriter m = true → (¬ drz → Completes (.drizzle m) s (answers 2)) ∧
      (∀ c, (c = false → drz) → (¬ usable c → Completes (cmd c) s (answers 3)) ∧
        (usable c → ¬ free → Completes (cmd c) s (answers 4)) ∧ (usable c → free → Completes (cmd c) s (takes c)))) ∧
    (∀ c, coreOn s = true → devWriter m = true → s.pwr.entry = some (c, 0) → Completes (.cancel m) s (fun s' =>
      s'.get PWR_CMD_RESULT.result = 5 ∧ s'.pwr.entry = none ∧ s'.get PWR_EVENTS.wake_cancel = 1 ∧
      RegsOnly [PWR_CMD_RESULT, PWR_EVENTS] s { s' with pwr := s.pwr }))) ∧
  (∀ (s : State) (c : Bool) (k : Nat), s.pwr.entry = some (c, k) →
    (k ≠ 0 → exec .noticeEnd s = .next s) ∧ (k ≠ 1 → exec .mramFlushPoint s = .next s) ∧
    (k ≠ 2 → exec .domainShutdownPoint s = .next s) ∧ (k ≠ 3 → exec .lowPowerEntryDone s = .next s) ∧
    let due : Nat → Prop := fun us => entryInstant s us ≤ s.now
    (k = 0 → ¬ due 0 → exec .noticeEnd s = .next s) ∧ (k = 1 → ¬ due 10 → exec .mramFlushPoint s = .next s) ∧
    (k = 2 → ¬ due 40 → exec .domainShutdownPoint s = .next s) ∧ (k = 3 → ¬ due 150 → exec .lowPowerEntryDone s = .next s) ∧
    (live s = true → k = 0 → due 0 → Completes .noticeEnd s (fun s' => s'.pwr.entry = some (c, 1) ∧ s'.pwr.rstout = true ∧ s'.mem = s.mem ∧
      (∀ t : Fin 24, s'.tileOf t =
        { Tile.reset with pinned := (s.tileOf t).pinned, unloaded := (s.tileOf t).unloaded, posted := (s.tileOf t).posted }) ∧
      ∀ p : Fin 8, s'.get (PORT_STATUS.link p) = 0)) ∧
    (live s = true → k = 1 → due 10 → Completes .mramFlushPoint s (fun s' => s'.pwr.entry = some (c, 2) ∧ s'.memh.lines = [] ∧
      s'.memh.mramOpen = false ∧ s'.get MEM_STATUS.wbuf_lines = 0 ∧ s'.mem = s.mem)) ∧
    (live s = true → k = 2 → due 40 → Completes .domainShutdownPoint s (fun s' => s'.pwr.entry = some (c, 3) ∧ s'.mem = s.mem ∧
      ∀ d : Fin 47, 3 ≤ d.val → s'.get (PWR_DOM_STAT.state d) =
        (if s.get (PWR_DOM_STAT.state d) = 0 ∨ s.get (PWR_DOM_STAT.state d) = 3 then 2 else s.get (PWR_DOM_STAT.state d)))) ∧
    (live s = true → k = 3 → due 150 → s.pwr.wakes = 0 → Completes .lowPowerEntryDone s (fun s' => s'.pwr.low = some c ∧ s'.pwr.entry = none ∧
      coreOn s' = false ∧ s'.pending = s.pending ∧ (∀ d : Fin 47, s'.get (PWR_DOM_STAT.state d) = 1) ∧
      (∀ b, s'.byte b = if keptKey s b then s.byte b else memReset b) ∧ (∀ t : Fin 24, s'.tileOf t = Tile.reset) ∧
      (∀ a ∈ [PWR_WAKE_EN, PWR_WAKE_TIMER, DRZ_PERIOD, CLK_HOLD_RECORD, PIN_TAMPER_STAT, FLT_SELFTEST, LADDER_STATUS],
        s'.reg a = s.reg a) ∧ s'.boot.lc = s.boot.lc ∧ s'.boot.keys = s.boot.keys ∧ s'.boot.recs = s.boot.recs ∧ s'.now = 0))) ∧
  (∀ (s : State) (src : BitVec 14) (c : Bool), s.pwr.low = some c → s.pwr.entry = none →
    let mask := s.get PWR_WAKE_EN.enable &&& (if c then 0x3FFC else 0x3FFF)
    let wakes : Nat → State → Prop := fun w s' => s'.pwr.low = none ∧ s'.get PWR_WAKE_REC.cause = w % 2 ^ 15 ∧
      s'.get PWR_WAKE_REC.cellar = c.toNat ∧ s'.get (PWR_DOM_STAT.state 0) = 0 ∧ s'.get (PWR_DOM_STAT.state 1) = 0 ∧
      s'.get (PWR_DOM_STAT.state 2) = 0 ∧ s'.pwr.rstout = true ∧ s'.mem = s.mem
    let w := (src.toNat &&& 0x3FF8 &&& mask) ||| s.pwr.wakes
    let wt := (4 &&& mask) ||| s.pwr.wakes
    (s.pwr.por = false → s.pwr.pwrc = false → (w = 0 → exec (.wake src) s = .next s) ∧
      (w ≠ 0 → Completes (.wake src) s (wakes w))) ∧
    (s.regN PWR_WAKE_TIMER = 0 → exec .wakeTimer s = .next s) ∧
    (s.regN PWR_WAKE_TIMER ≠ 0 → wt ≠ 0 → Completes .wakeTimer s (fun s' => wakes wt s' ∧
      s'.pair DRZ_TICK_LO = (max (s.pwr.lowFrom + 8000 * s.regN PWR_WAKE_TIMER) (s.pair DRZ_TICK_LO)) % 2 ^ 64)) ∧
    (c = false → s.pwr.cycle = none → Completes .drizzleTick s (fun s' => s'.pwr.cycle = some 0 ∧ s'.pwr.checked = false ∧
      s'.get DRZ_CYCLES.cycles = (s.get DRZ_CYCLES.cycles + 1) % 2 ^ 24 ∧
      s'.pwr.lastTick = s.pwr.lastTick + s.regN DRZ_PERIOD ∧ { s' with io := s.io, pwr := s.pwr } = s)) ∧
    (c = true ∨ s.pwr.cycle.isSome → exec .drizzleTick s = .next s) ∧
    (∀ i, s.pwr.cycle = some i →
      let we := s.pwr.wakes ||| (if s.get DRZ_CFG.ha = 1 ∧ 64 - s.get DRZ_HIST_LEVEL.level < s.get DRZ_CFG.length + 1 then
        s.get PWR_WAKE_EN.enable &&& 2 else 0)
      (s.pwr.checked = false ∨ i ≤ s.get DRZ_CFG.length → exec .drizzleCycleEnd s = .next s) ∧
      (s.pwr.checked = true → s.get DRZ_CFG.length < i → (we = 0 → Completes .drizzleCycleEnd s (fun s' =>
          s'.pwr.cycle = none ∧ s'.pwr.low = some c ∧ { s' with pwr := s.pwr } = s)) ∧
        (we ≠ 0 → Completes .drizzleCycleEnd s (wakes we))))) ∧
  (∀ s : State,
    Completes .powerOnReset s (fun s' => s'.pwr.por = true ∧ s'.now = 0 ∧ s'.pending = s.pending ∧
      (∀ a, s'.reg a = if a = FLT_SELFTEST then s.reg a else ioReset a) ∧
      (∀ b, s'.byte b = if mramKey ≤ b then s.byte b else memReset b) ∧ (∀ t : Fin 24, s'.tileOf t = Tile.reset) ∧
      s'.boot.lc = s.boot.lc ∧ s'.boot.keys = s.boot.keys ∧ s'.boot.ctr = s.boot.ctr ∧ s'.boot.recs = s.boot.recs) ∧
    Completes .powerOnResetRelease s (fun s' => s'.pwr.por = false ∧ { s' with pwr := s.pwr } = s) ∧
    (powered s = true → s.get PWR_STATUS.supwarn = 0 → Completes .supwarn s (fun s' => s'.get PWR_STATUS.supwarn = 1 ∧
      s'.get PWR_EVENTS.supply_warn = 1 ∧ s'.memh.mramOpen = false ∧ s'.get FLT_EVENTS.logged = 1 ∧
      s'.regN (FLT_LOG (s.get FLT_STATUS.next) 0) % 256 = 0x2A ∧ s'.mem = s.mem)) ∧
    (powered s = false ∨ s.get PWR_STATUS.supwarn = 1 → exec .supwarn s = .next s) ∧
    (s.get PWR_STATUS.supwarn = 0 → exec .supwarnRelease s = .next s) ∧
    (s.get PWR_STATUS.supwarn = 1 → Completes .supwarnRelease s (fun s' => s'.get PWR_STATUS.supwarn = 0 ∧
      RegsOnly [PWR_STATUS] s { s' with memh := s.memh } ∧ (s.pwr.entry = none → s'.memh.mramOpen = true))))

/-- A failed watch check ends its cycle with no conversion and advances DRZ_CYCLES.ring_fails; the third in a row wakes
the device with cause ring_fail; a passing check sets the count to 0. That a check after the cycle's first that fails ends
the cycle too, with what it converted kept, is the model's choice (log 168). A result is pushed to the history in the layout of
Table PWR-10 and leaves its 64 words and their oldest index in DRZ_HIST_LEVEL: in HW mode a full history loses its
oldest word, in HA mode it takes no more until hist_clear empties it. (R346, R349) -/
def Obligations.DrizzleChecksAndHistory : Prop :=
  (∀ (s : State) (n i : Nat) (c : Bool), s.pwr.low = some c → s.pwr.cycle = some i → s.pwr.por = false → s.pwr.pwrc = false →
    let pass : Prop := 1600 ≤ n ∧ n ≤ 2400
    let fails : State → Prop := fun s' => s'.get DRZ_CYCLES.ring_fails = Nat.min (s.get DRZ_CYCLES.ring_fails + 1) 255 ∧
      s'.pwr.fails = s.pwr.fails + 1 ∧ s'.pwr.cycle = none ∧ (∀ vin, exec (.drizzleResult vin) s' = .next s') ∧
      (i = 0 → s'.pwr.counts = Vector.replicate 8 0) ∧ (i ≠ 0 → s'.pwr.counts = s.pwr.counts) ∧
      ∀ k, k < 64 → s'.reg (DRZ_HIST k) = s.reg (DRZ_HIST k)
    (pass → Completes (.watchCheck n) s (fun s' => s'.pwr.checked = true ∧ s'.pwr.fails = 0 ∧ s'.pwr.low = s.pwr.low ∧
      s'.pwr.cycle = s.pwr.cycle)) ∧
    (¬ pass → s.pwr.fails ≠ 2 → s.pwr.wakes = 0 → Completes (.watchCheck n) s (fun s' => fails s' ∧ s'.pwr.low = s.pwr.low)) ∧
    (¬ pass → s.pwr.fails = 2 → Completes (.watchCheck n) s (fun s' => fails s' ∧ s'.pwr.low = none ∧
      s'.get PWR_WAKE_REC.cause = (0x4000 ||| s.pwr.wakes) % 2 ^ 15))) ∧
  (∀ (s : State) (vin : Int) (i : Nat), s.pwr.cycle = some i → s.pwr.checked = true → i ≤ s.get DRZ_CFG.length →
    let (code, clip) := adcCode vin (s.get (DRZ_SEQ.gain i))
    let ha : Prop := s.get DRZ_CFG.ha = 1
    let low : Prop := s.get (DRZ_SEQ.wake_low i) = 1 ∧ code < s.get (DRZ_WIN.low i)
    let high : Prop := s.get (DRZ_SEQ.wake_high i) = 1 ∧ s.get (DRZ_WIN.high i) < code
    let level := s.get DRZ_HIST_LEVEL.level
    let oldest := s.get DRZ_HIST_LEVEL.oldest
    let word : Nat → Prop := fun w => w % 4096 = code ∧ (w / 4096 % 2 = 1 ↔ ¬ ha ∧ (low ∨ high)) ∧ w / 8192 % 2 = clip.toNat ∧
      w / 65536 % 8 = i ∧ w / 2 ^ 24 % 256 = s.get DRZ_CYCLES.cycles % 256
    let kept : Nat → State → Prop := fun o s' => ∀ k, k < 64 → k ≠ o → s'.reg (DRZ_HIST k) = s.reg (DRZ_HIST k)
    (level < 64 → Completes (.drizzleResult vin) s (fun s' => word (s'.regN (DRZ_HIST ((oldest + level) % 64))) ∧
      kept ((oldest + level) % 64) s' ∧ s'.get DRZ_HIST_LEVEL.level = level + 1 ∧ s'.get DRZ_HIST_LEVEL.oldest = oldest ∧
      s'.pwr.cycle = some (i + 1))) ∧
    (64 ≤ level → ¬ ha → Completes (.drizzleResult vin) s (fun s' => word (s'.regN (DRZ_HIST oldest)) ∧ kept oldest s' ∧
      s'.get DRZ_HIST_LEVEL.level = level ∧ s'.get DRZ_HIST_LEVEL.oldest = (oldest + 1) % 64 ∧ s'.pwr.cycle = some (i + 1))) ∧
    (64 ≤ level → ha → Completes (.drizzleResult vin) s (fun s' => s'.io = s.io ∧ s'.pwr.cycle = some (i + 1)))) ∧
  (∀ (s : State) (vin : Int), (s.pwr.cycle = none ∨ s.pwr.checked = false ∨ (∃ i, s.pwr.cycle = some i ∧ s.get DRZ_CFG.length < i)) →
    exec (.drizzleResult vin) s = .next s) ∧
  (∀ (s : State) (m : Master),
    let may : Prop := devWriter m = true ∧ coreOn s = true ∧ s.pwr.entry = none
    (may → Completes (.histClear m) s (fun s' => s'.get DRZ_HIST_LEVEL.level = 0 ∧ s'.get DRZ_HIST_LEVEL.oldest = 0 ∧
      ∀ a, a ≠ DRZ_HIST_LEVEL → (a < DRZ_HIST 0 ∨ DRZ_HIST 63 < a) → s'.reg a = s.reg a)) ∧
    (¬ may → exec (.histClear m) s = .next s))
/-- Each stage runs only in its turn, where the Storekeeper runs and no reset is due. With good contents it does its
work, extends the measurement chain and moves on; a digest or inventory failure or an uncorrectable line makes the slot
bad, excludes it and makes rung 3 due. The slot is chosen by its checks and active flags. Thaw waits for its conditions,
the gate and in HA mode the verdict; the records then follow. Provisioning answers the host in Blank and Factory alone.
(R71, R361, R368, R369, R372, R373, R374, R375, R376, R379, R381, R386) -/
def Obligations.TheBootRunsItsStages : Prop :=
  (∀ (s : State) (bad : Option (BitVec 26)) (l : List (BitVec 26)) (cs : List (Fin 65536 × Fin 2)) (fs : List (Fin 256 × Fin 65536)),
    (inStage s 0 = false ∨ s.get CLK_RING.state = 0 → exec .romStart s = .next s) ∧
    (inStage s 1 = false → exec (.records cs fs) s = .next s) ∧ (inStage s 2 = false → exec (.slotSelect l) s = .next s) ∧
    (inStage s 3 = false → exec (.firmware bad) s = .next s) ∧ (inStage s 4 = false → exec .persist s = .next s) ∧
    (inStage s 5 = false → exec (.inventory bad) s = .next s) ∧ (inStage s 6 = false → exec (.tileLoad bad) s = .next s) ∧
    (inStage s 7 = false → exec (.measure bad) s = .next s) ∧ (inStage s 8 = false → exec .verdictTimeout s = .next s) ∧
    (inStage s 0 = true → s.get CLK_RING.state ≠ 0 → Completes .romStart s (fun s' => s'.get BOOT_STATUS.stage = 1 ∧
      s'.get CLK_STATUS.degraded = 1 ∧ s'.get TT_STATUS.degraded = 1 ∧
      RegsOnly [BOOT_STATUS, NET_MAC_LO, NET_MAC_HI, CLK_STATUS, TT_STATUS, TT_EVENTS] s s')) ∧
    (inStage s 1 = true → Completes (.records cs fs) s (fun s' =>
      s'.boot.recs = s.boot.recs.filter (fun c => !(cs.map (fun e => (e.1.val, e.2.val))).contains (c.id, c.copy)) ∧
      s'.get BOOT_STATUS.lc = s.boot.lc % 8 ∧
      (s.boot.lc = 5 → s'.get BOOT_STATUS.stage = 0xF) ∧
      (s.boot.lc = 0 → s'.get BOOT_STATUS.stage = 0xE ∧ s'.get BOOT_STATUS.recovery = 1) ∧
      (1 ≤ s.boot.lc ∧ s.boot.lc ≤ 4 → s'.get BOOT_STATUS.stage = 2 ∧ s'.get VAULT_STATUS.restored = 1 ∧
        s'.boot.cmdKeys = s.boot.wrapped.map (fun w => w.bind (Config.aesUnwrap wrappingKey)) ∧
        s'.get BOOT_STATUS.debug = (if s.boot.lc = 1 then 3 else if s.boot.lc = 3 then 0 else 1) ∧
        ∀ k : Fin 4, s'.pair (CMD_CTR_LO k) = ceiling s' k % 2 ^ 64) ∧
      (s.get FLT_SELFTEST.req = 0 → s'.mem = s.mem) ∧
      (s.get FLT_SELFTEST.req = 1 → s'.get FLT_SELFTEST.req = 0 ∧ s'.get FLT_SELFTEST.done = 1 ∧
        (s'.get FLT_SELFTEST.pass = 1 ↔ ∀ e ∈ fs, e.2.val = 0) ∧ s'.get FLT_EVENTS.selftest_done = 1 ∧
        ∀ k, s'.byte k = if mramKey ≤ k then s.byte k else 0)))) ∧
  (∀ s : State, inStage s 2 = true →
    let a := selectCheck [] s 0
    let b := selectCheck [] s 1
    let good := readRecord s recLAST_GOOD
    let chosen : Nat → State → Prop := fun x s' => s'.get BOOT_STATUS.stage = 3 ∧ s'.get BOOT_STATUS.slot = x ∧
      s'.get MRAM_STATUS.active_slot = x ∧ s'.mem = s.mem ∧
      s'.boot.chain = s.boot.chain ++ [Config.sha384 (List.replicate 48 0 ++ slotMeasure (manifestOf s x))]
    (a ≠ 0 → b ≠ 0 → Completes (.slotSelect []) s (fun s' => s'.get BOOT_STATUS.recovery = 1 ∧ s'.get BOOT_STATUS.result = 0x0F ∧
      (s'.get BOOT_STATUS.stage = 0xE ∨ s'.get BOOT_STATUS.stage = 0xF) ∧ s'.mem = s.mem)) ∧
    (a = 0 → b ≠ 0 → Completes (.slotSelect []) s (chosen 0)) ∧ (a ≠ 0 → b = 0 → Completes (.slotSelect []) s (chosen 1)) ∧
    (a = 0 → b = 0 → (activeFlag s 0 = true ∧ activeFlag s 1 = false → Completes (.slotSelect []) s (chosen 0)) ∧
      (activeFlag s 0 = false ∧ activeFlag s 1 = true → Completes (.slotSelect []) s (chosen 1)) ∧
      (activeFlag s 0 = true ∧ activeFlag s 1 = true → good ≠ some (slotMeasure (manifestOf s 0)) →
        good = some (slotMeasure (manifestOf s 1)) → Completes (.slotSelect []) s (chosen 1)))) ∧
  (∀ s : State,
    let x := s.get BOOT_STATUS.slot
    let m := manifestOf s x
    let fw := firmwareOf s x
    let inv := slotInventory s x
    let code := (checkInventory inv (invCtx s x none)).1
    let es := imageEntries m
    let sound : ImageEntry → Prop := fun e => Config.sha384 (imageBytes s x e) = e.digest
    let isBad : Nat → State → Prop := fun c s' => s'.get BOOT_FAIL.result = c ∧ s'.get BOOT_STATUS.result = c ∧
      s'.get (BOOT_SLOT.result x) = c ∧ atD s'.boot.excl x false = true ∧ s'.get BOOT_EVENTS.slot_bad = 1 ∧
      s'.flt.due = some (3, 0, 4)
    let chained : Nat → List Byte → State → Prop := fun n d s' => s'.get BOOT_STATUS.stage = n ∧
      s'.boot.chain = s.boot.chain ++ [Config.sha384 (chainLast s ++ d)]
    (∀ off, (inStage s 3 = true → Completes (.firmware (some off)) s (isBad 0x0B)) ∧
      (inStage s 5 = true → Completes (.inventory (some off)) s (isBad 0x0B)) ∧
      (inStage s 6 = true → Completes (.tileLoad (some off)) s (isBad 0x0B)) ∧
      (inStage s 7 = true → Completes (.measure (some off)) s (isBad 0x0B))) ∧
    (inStage s 3 = true → recordsWritable s = false → exec (.firmware none) s = .next s) ∧
    (inStage s 4 = true → recordsWritable s = false → exec .persist s = .next s) ∧
    (inStage s 3 = true → recordsWritable s = true → Config.sha384 fw ≠ slice m 0x30 48 → Completes (.firmware none) s (isBad 0x08)) ∧
    (inStage s 3 = true → recordsWritable s = true → Config.sha384 fw = slice m 0x30 48 → Completes (.firmware none) s (fun s' =>
      chained 4 (Config.sha384 fw) s' ∧ s'.bytes (mramKey + 0x3C00000) fw.length = fw)) ∧
    (∀ b d, inStage s 4 = true → recordsWritable s = true → s.boot.persist = some (b, d) → d = slotMeasure m → (checkInventory b (invCtx s x none)).1 = 0 →
      Completes .persist s (fun s' => s'.get BOOT_STATUS.stage = 5 ∧ s'.get BOOT_STATUS.persisted = 1 ∧ s'.boot.persist = none ∧
        s'.bytes (slotBase x + 0x100000) b.length = b)) ∧
    (inStage s 4 = true → recordsWritable s = true → s.boot.persist = none → Completes .persist s (fun s' => s'.get BOOT_STATUS.stage = 5 ∧ s'.mem = s.mem ∧
      RegsOnly [BOOT_STATUS] s s')) ∧
    (inStage s 5 = true → code ≠ 0 → Completes (.inventory none) s (isBad 0x09)) ∧
    (inStage s 5 = true → code = 0 → Completes (.inventory none) s (fun s' => chained 6 (Config.sha384 (signedBytes inv)) s' ∧
      s'.inv.active = inv ∧ s'.get BOOT_KEYS.inventory_key = keySlotOf inv % 256)) ∧
    (inStage s 6 = true → (∀ e ∈ es, imageOk e = true) → imagesApart es = true → (∀ e ∈ es, e.kind ≠ 3 → sound e) →
      Completes (.tileLoad none) s (fun s' => s'.get BOOT_STATUS.stage = 7 ∧ (∀ k, mramKey ≤ k → s'.byte k = s.byte k) ∧
        ∀ t : Fin 24, domOn s (domTile t) = true → ((s'.tileOf t).unloaded = false ↔ entriesFor m t ≠ []) ∧
          ∀ e ∈ entriesFor m t, s'.bytes ((if e.kind = 1 then itcmKey t else dtcmKey t) + e.dest) e.len = imageBytes s x e)) ∧
    (∀ e ∈ es, inStage s 6 = true → (∀ e ∈ es, imageOk e = true) → e.kind ≠ 3 → ¬ sound e → Completes (.tileLoad none) s (isBad 0x0A)) ∧
    (inStage s 7 = true → s.boot.chain.length = 3 → (∀ e ∈ es, e.kind = 3 → sound e) →
      Completes (.measure none) s (fun s' => s'.mem = s.mem ∧
        s'.boot.chain = s.boot.chain ++ [Config.sha384 (chainLast s ++ Config.sha384 (es.map (fun e =>
          Config.sha384 (imageBytes s x e))).flatten)] ∧
        (s.get BOOT_STATUS.ha = 0 → s'.get BOOT_STATUS.stage = 7) ∧
        (s.get BOOT_STATUS.ha = 1 → s'.get BOOT_STATUS.stage = 8 ∧ s'.get BOOT_STATUS.verdict_wait = 1 ∧
          s'.get BOOT_EVENTS.verdict_needed = 1 ∧ s'.boot.verdict = false))) ∧
    (inStage s 8 = true → s.boot.verdict = false → s.boot.timedOut = false → Completes .verdictTimeout s (fun s' =>
      s'.get BOOT_FAIL.result = 0x0D ∧ s'.get BOOT_STATUS.result = 0x0D ∧ s'.get BOOT_STATUS.stage = 8 ∧ s'.boot.timedOut = true))) ∧
  (∀ (s : State) (m : Master),
    let open_ : Prop := thawReady s = true ∧ (s.get BOOT_CTRL.thaw_gate = 0 ∨ s.boot.go = true)
    let x := s.get BOOT_STATUS.slot
    let may : Prop := devWriter m = true ∧ m ≠ .storekeeper ∧ thawReady s = true
    (¬ open_ → exec .thaw s = .next s) ∧
    (open_ → Completes .thaw s (fun s' => s'.frost = false ∧ s'.get BOOT_STATUS.stage = 9 ∧ s'.get BOOT_EVENTS.thawed = 1 ∧
      s'.boot.post = true ∧ s'.flt.stableFrom = some s.now ∧ s'.mem = s.mem)) ∧
    (may → Completes (.thawGo m) s (fun s' => s'.boot.go = true ∧ { s' with boot := s.boot } = s)) ∧
    (¬ may → exec (.thawGo m) s = .next s) ∧
    (s.boot.post = false ∨ recordsWritable s = false → exec .postThawRecords s = .next s) ∧
    (s.boot.post = true → recordsWritable s = true → Completes .postThawRecords s (fun s' => s'.boot.post = false ∧
      s'.boot.excl = Vector.replicate 2 false ∧ s'.mem = s.mem ∧ s'.boot.lc = s.boot.lc ∧
      (∃ c ∈ s'.boot.recs, c.id = recLAST_GOOD ∧ c.body = slotMeasure (manifestOf s x)) ∧
      (activeFlag s x = false → ∃ c ∈ s'.boot.recs, c.id = recACTIVE x ∧ c.body = [1]) ∧
      (activeFlag s (1 - x) = true → ∃ c ∈ s'.boot.recs, c.id = recACTIVE (1 - x) ∧ c.body = [0])))) ∧
  (∀ (s : State) (m : Master) (k : Fin 8) (j : Fin 4) (blown : Bool),
    let answers : Nat → State → Prop := fun r s' => s'.get BOOT_PROV_RESULT.result = r ∧ s'.boot = s.boot ∧
      (∀ w, w < 8 → s'.reg (BOOT_PROV_DATA w) = 0) ∧ { s' with io := s.io } = s
    let may : Prop := m = .host ∧ s.boot.lc ≤ 1
    let dark : Prop := s.get PWR_STATUS.supwarn = 1
    (coreOn s = false → ∀ c ∈ [(.programImageKey m k blown : Instr), .installCommandKey m j, .enterFactory m blown], exec c s = .next s) ∧
    (coreOn s = true → ¬ may → ∀ c ∈ [(.programImageKey m k blown : Instr), .installCommandKey m j, .enterFactory m blown],
      Completes c s (answers 9)) ∧
    (coreOn s = true → may → s.boot.busy = true → ∀ c ∈ [(.programImageKey m k blown : Instr), .installCommandKey m j, .enterFactory m blown],
      Completes c s (answers 7)) ∧
    (coreOn s = true → may → s.boot.busy = false →
      (keyState s k ≠ 0 → Completes (.programImageKey m k blown) s (answers 8)) ∧
      (keyState s k = 0 → dark → Completes (.programImageKey m k blown) s (answers 6)) ∧
      (keyState s k = 0 → ¬ dark → blown = false → Completes (.programImageKey m k blown) s (answers 5)) ∧
      (keyState s k = 0 → ¬ dark → blown = true → Completes (.programImageKey m k blown) s (fun s' =>
        s'.get BOOT_PROV_RESULT.result = 0 ∧ keyState s' k = 1 ∧ (s'.boot.keys[k]).1 = provData s ∧
        ∀ i : Fin 8, i ≠ k → s'.boot.keys[i] = s.boot.keys[i])) ∧
      Completes (.installCommandKey m j) s (fun s' => s'.get BOOT_PROV_RESULT.result = 0 ∧ s'.boot.cmdKeys[j] = some (provData s) ∧
        s'.boot.wrapped[j] = some (Config.aesWrap wrappingKey (provData s))) ∧
      (s.boot.lc = 1 → Completes (.enterFactory m blown) s (answers 3)) ∧
      (s.boot.lc = 0 → (∀ i : Fin 8, keyState s i ≠ 1) → Completes (.enterFactory m blown) s (answers 4)) ∧
      (∀ i : Fin 8, s.boot.lc = 0 → keyState s i = 1 → (dark → Completes (.enterFactory m blown) s (answers 6)) ∧
        (¬ dark → blown = false → Completes (.enterFactory m blown) s (answers 5)) ∧
        (¬ dark → blown = true → Completes (.enterFactory m blown) s (fun s' => s'.get BOOT_PROV_RESULT.result = 0 ∧
          s'.boot.lc = 1 ∧ s'.get BOOT_STATUS.lc = 1 ∧ s'.get VAULT_STATUS.wiping = 1 ∧ s'.flt.due.isSome)))))
/-- Where the link is up, an access in BAR0 reads or writes its register and one in BAR2 the memory that admits the
host; one that is unaligned, refused, off or failed in transport records its status and raises acc_err, and in ROM_START
every one is OFFLINE. In D3hot only configuration space answers: it gives the ids, and takes the MSI-X bits and the power
state (the places of its fields are presumed, log 102). Each word of a host-SPI burst is such an access, and the debug port, while open, makes them
without a record. PERST_N takes the link down and its release trains it again. A rising source sends or holds its MSI-X
message. The frame queues take and give whole frames. (R363, R390, R391, R393, R394, R395, R396, Table HOST-1) -/
def Obligations.TheHostReachesTheDevice : Prop :=
  (∀ (s : State) (write : Bool) (v : Word) (waited : BitVec 16) (a : Nat) (path data : Bool),
    let failed : Nat → State → Prop := fun st s' => s'.get HOST_EVENTS.acc_err = 1 ∧ s'.host.accHeld = true ∧
      s'.get HOST_ACC_STAT.count = Nat.min 255 (s.get HOST_ACC_STAT.count + 1) ∧ s'.mem = s.mem ∧
      (s.host.accHeld = false → s'.get HOST_ACC_STAT.status = st ∧ s'.get HOST_ACC_STAT.path = path.toNat ∧
        s'.get HOST_ACC_STAT.write = write.toNat ∧ s'.get HOST_ACC_STAT.data_space = data.toNat ∧ s'.regN HOST_ACC_ADDR = a) ∧
      (s.host.accHeld = true → s'.get HOST_ACC_STAT.status = s.get HOST_ACC_STAT.status ∧ s'.reg HOST_ACC_ADDR = s.reg HOST_ACC_ADDR)
    let up : Prop := coreOn s = true ∧ s.host.perst = false ∧ s.get HOST_STATUS.pcie_link = 1
    let s0 : State := if path = true then { s with host := { s.host with spiActive := true, spiWords := [], spiEnd := if write then some 0 else none } } else s
    let ends : State → State := fun t => if path = true then { t with host := { t.host with spiActive := false, spiWords := if write then t.host.spiWords else t.host.spiWords ++ [(0, t.data)] } } else t
    let via : Fin 5 → Fin 5 → Instr → Prop := fun n e c =>
      (path = false ∧ up ∧ s.host.d3hot = false ∧ s.get BOOT_STATUS.stage ≠ 0 ∧ ∃ x : BitVec 24, c = .hostAccess (if data then 1 else 0) write x n v e waited ∧
        a = (if data then s.get HOST_DWIN.base * 2 ^ 24 else 0) + x.toNat) ∨
      (path = true ∧ coreOn s = true ∧ n = 4 ∧ a < 2 ^ 32 ∧ c = .hostSpiTransaction (BitVec.ofNat 8
        ((if write then 0x20 else 0x10) + (if data then 1 else 0))) (BitVec.ofNat 32 a) 1 [v] [(e, waited)])
    let off : Prop := ∃ d, ioDomain a = some d ∧ (domOn s d = false ∨ domHeld s d = true)
    let asleep : Prop := ∃ d, ioDomain a = some d ∧ s.get (PWR_DOM_CTRL.woa d) = 1 ∧ wakeable s d = true
    (∀ n e x, ¬ up → ∀ bar, exec (.hostAccess bar write x n v e waited) s = .next s) ∧
    (∀ n e x, up → s.host.d3hot = true → ∀ bar, bar ≠ 3 → exec (.hostAccess bar write x n v e waited) s = .next s) ∧
    (∀ n e x, up → exec (.hostAccess 3 false x n v e waited) s =
      .next { s with data := subWord (configRead s x.toNat) (x.toNat % 4) n }) ∧
    (∀ e, up → Completes (.hostAccess 3 false 2 2 v e waited) s (fun s' => s'.data = 0x2406) ∧
      Completes (.hostAccess 3 false 10 2 v e waited) s (fun s' => s'.data = 0x0880)) ∧
    (∀ e (x : BitVec 24), up → x.toNat % 4 = 0 → x.toNat ≠ 0 → x.toNat ≠ 8 →
      (x.toNat / 4 = Config.msixCap / 4 → Completes (.hostAccess 3 true x 4 v e waited) s (fun s' =>
        s'.host.msixOn = v.getLsbD 31 ∧ s'.host.msixMask = v.getLsbD 30 ∧ { s' with host := s.host } = s)) ∧
      (x.toNat / 4 ≠ Config.msixCap / 4 → x.toNat / 4 = Config.pmCap / 4 + 1 → v.toNat % 4 = 3 ∨ v.toNat % 4 = 0 →
        Completes (.hostAccess 3 true x 4 v e waited) s (fun s' => s'.host.d3hot = (v.toNat % 4 == 3) ∧ { s' with host := s.host } = s))) ∧
    (∀ n e (x : BitVec 24), up → s.host.d3hot = false → s.get BOOT_STATUS.stage = 0 → path = false → a = (if data then s.get HOST_DWIN.base * 2 ^ 24 else 0) + x.toNat →
      Completes (.hostAccess (if data then 1 else 0) write x n v e waited) s (failed 2)) ∧
    (∀ n e c, via n e c →
      (data = false →
        (n ≠ 4 ∨ a % 4 ≠ 0 → Completes c s (failed 4)) ∧
        (n = 4 → a % 4 = 0 → a < 0x1000000 → e = 3 → Completes c s (fun s' => s'.get HOST_EVENTS.acc_err = 1)) ∧
        (n = 4 → a % 4 = 0 → a < 0x1000000 → e = 0 → off → ¬ asleep → Completes c s (failed 2)) ∧
        (n = 4 → a % 4 = 0 → 0x1000000 ≤ a → Completes c s (failed 1)) ∧
        (n = 4 → a % 4 = 0 → a < 0x1000000 → e = 0 → ¬ off → write = false →
          exec c s = .next (ends { (ioRead .host a s0).2 with data := (ioRead .host a s0).1 })) ∧
        (n = 4 → a % 4 = 0 → a < 0x1000000 → e = 0 → ¬ off → write = true → hostDenied a = true → Completes c s (failed 1)) ∧
        (n = 4 → a % 4 = 0 → a < 0x1000000 → e = 0 → ¬ off → write = true → hostDenied a = false → (ioWrite .host a v s0).1 = false →
          exec c s = .next (ends { (ioWrite .host a v s0).2 with data := 0 }))) ∧
      (data = true →
        ((n ≠ 1 ∧ n ≠ 2 ∧ n ≠ 4) ∨ a % n.val ≠ 0 → Completes c s (failed 4)) ∧
        (∀ (b : Fin 64) (o : Nat), (n = 1 ∨ n = 2 ∨ n = 4) → a = 0x20000000 + 0x40000 * b + o → o < 0x40000 → a % n.val = 0 → e = 0 →
          (bankRefuses s b .host ≠ none → Completes c s (failed 1)) ∧
          (bankRefuses s b .host = none → bankState s b = 0 → waited = 0 → wordKey a ∉ s.memh.bad →
            (write = false → Completes c s (fun s' => s'.data.toNat = s.load a n ∧ s'.mem = s.mem ∧ s'.io = s.io)) ∧
            (write = true → Completes c s (fun s' => s'.load a n = v.toNat % 2 ^ (8 * n.val) ∧ s'.io = s.io ∧
              ∀ k, (k < a ∨ a + n.val ≤ k) → s'.byte k = s.byte k))))))) ∧
  (∀ (s : State) (op : BitVec 8) (a : Word) (n : Fin 257) (ws : List Word) (es : List (Fin 5 × BitVec 16)),
    (coreOn s = false ∨ n = 0 ∨ op.toNat ∉ [0x10, 0x11, 0x20, 0x21] → exec (.hostSpiTransaction op a n ws es) s = .next s)) ∧
  (∀ (s : State) (write data : Bool) (a : Word) (n e : Fin 5) (v : Word) (waited : BitVec 16),
    let opened : Prop := coreOn s = true ∧ 2 ≤ s.get BOOT_STATUS.debug
    let t := { s with dbg := true }
    (¬ opened → exec (.debugAccess write data a n v e waited) s = .next s) ∧
    (opened → data = false → debugDenied s a.toNat = true → exec (.debugAccess write data a n v e waited) s = .next { t with data := 0 }) ∧
    (opened → data = false → debugDenied s a.toNat = false → n = 4 → a.toNat % 4 = 0 → a.toNat < 0x1000000 → e = 0 →
      (∀ d, ioDomain a.toNat = some d → domOn s d = true ∧ domHeld s d = false) →
      (write = false → exec (.debugAccess write data a n v e waited) s =
        .next { (ioRead .host a.toNat t).2 with data := (ioRead .host a.toNat t).1 }) ∧
      (write = true → hostDenied a.toNat = true → exec (.debugAccess write data a n v e waited) s = .next { t with data := 0 }))) ∧
  (∀ (s : State) (w : Fin 3) (r : Fin 4),
    Completes .perstN s (fun s' => s'.host.perst = true ∧ s'.get HOST_STATUS.pcie_link = 0 ∧ s'.host.irq = HostH.reset.irq ∧
      s'.host.msix = HostH.reset.msix ∧ s'.host.msixOn = false ∧ s'.host.d3hot = false ∧ s'.host.jobs = s.host.jobs ∧ RegsOnly [HOST_STATUS] s { s' with host := s.host }) ∧
    (coreOn s = true → w ≠ 0 → r ≠ 0 → Completes (.perstNRelease w r) s (fun s' => s'.host = { s.host with perst := false } ∧
      s'.get HOST_STATUS.pcie_link = 1 ∧ s'.get HOST_STATUS.width = w.val ∧ s'.get HOST_STATUS.rate = r.val ∧
      RegsOnly [HOST_STATUS] s { s' with host := s.host })) ∧
    (coreOn s = false ∨ w = 0 ∨ r = 0 → exec (.perstNRelease w r) s = .next { s with host := { s.host with perst := false } })) ∧
  (∀ (s : State) (v : Fin 16),
    let sel := s.reg (HOST_IRQ_SEL v)
    let level := sel.getLsbD 15 && evLevel s (bitsOf sel 9 5) (bitsOf sel 0 9)
    let rises : Prop := level = true ∧ (s.host.irq[v]).1 = false
    let masked := (s.host.msix[4 * v.val + 3]).getLsbD 0 || s.host.msixMask || !s.host.msixOn || s.host.d3hot
    live s = true → Completes (.msiXMessage v) s (fun s' => { s' with host := s.host } = s ∧ (s'.host.irq[v]).1 = level ∧
      (¬ rises → (s'.host.irq[v]).2 = (s.host.irq[v]).2 ∧ s'.host.msgs = s.host.msgs) ∧
      (rises → masked = true → (s'.host.irq[v]).2 = true ∧ s'.host.msgs = s.host.msgs) ∧
      (rises → masked = false → (s'.host.irq[v]).2 = false ∧ s'.host.msgs[v] = s.host.msgs[v] + s.get HOST_STATUS.pcie_link))) ∧
  (∀ (s : State) (m : Master) (v : Word),
    let n := bitsOf v 0 11
    let busy : Prop := ∃ id, s.host.txId = some id ∧ inSwitch s id = true
    (m ≠ .host ∨ busy ∨ n < 14 ∨ 1514 < n → exec (.hostFqTxGo m v) s = .next s) ∧
    (live s = true → m = .host → ¬ busy → 14 ≤ n → n ≤ 1514 → Completes (.hostFqTxGo m v) s (fun s' => s'.host.tx = [] ∧
      (s'.host.txId = some s.net.nextId ∧ inSwitch s' s.net.nextId = true ∨ s'.host.txId = none ∧ s'.get HOST_EVENTS.fq_tx_done = 1))) ∧
    (live s = true → s.host.rx = [] → exec .hostFqRxLen s = .next { s with data := 0 }) ∧
    (∀ d rest, live s = true → s.host.rx = d :: rest → Completes .hostFqRxLen s (fun s' => s'.data = BitVec.ofNat 32 d.length ∧ s'.io = s.io ∧
      s'.host = { s.host with rx := rest, reading := frameWords d })) ∧
    (live s = true → Completes .hostFqRxData s (fun s' => s'.data = s.host.reading.headD 0 ∧ s'.io = s.io ∧
        s'.host = { s.host with reading := s.host.reading.drop 1 }) ∧
      Completes (.hostAccAddrRead m) s (fun s' => s'.data = s.reg HOST_ACC_ADDR ∧ s'.io = s.io ∧
        s'.host.accHeld = (s.host.accHeld && !supWriter m))) ∧
    (m ≠ .host → exec (.hostCmdDoorbell m v) s = .next s) ∧
    (live s = true → m = .host → s.get HOST_CMD_STATUS.state = 1 ∨ s.get HOST_CMD_STATUS.state = 2 → Completes (.hostCmdDoorbell m v) s (fun s' =>
      s'.get HOST_CMD_STATUS.refused = 1 ∧ RegsOnly [HOST_CMD_STATUS] s s')) ∧
    (live s = true → m = .host → s.get HOST_CMD_STATUS.state = 0 ∨ s.get HOST_CMD_STATUS.state = 3 → Completes (.hostCmdDoorbell m v) s (fun s' =>
      s'.get HOST_CMD_STATUS.state = 1 ∧ s'.get HOST_CMD_STATUS.refused = 0 ∧
      s'.host = { s.host with jobs := s.host.jobs ++ [⟨none, mailbox s (min 1496 n) ++ List.replicate (n - 1496) 0⟩] } ∧
      RegsOnly [HOST_CMD_STATUS] s { s' with host := s.host })))

/-- Where the Storekeeper works, it takes the oldest command. One that fails a check of R400 is answered with its code
and changes nothing else. A critical command whose counter cannot be recorded is answered with COUNTER, and one not
permitted in the present stage with NOT_NOW; one that is executed has its counter taken first. The answer of a mailbox
command stands in HOST_CMD_STATUS, with cmd_done raised. (R397, R398, R399, R400, R401, R404, Table HOST-6) -/
def Obligations.CommandsAreCheckedThenExecuted : Prop :=
  ∀ (s : State) (recOk blown : Bool) (bad : Option (BitVec 26)),
    let works : Prop := skRuns s = true ∧ s.get BOOT_STATUS.stage ≠ 0
    (s.host.jobs = [] ∨ ¬ works → exec (.commandExecute recOk blown bad) s = .next s) ∧
    (∀ d rest, works → s.host.jobs = ⟨none, d⟩ :: rest →
      let s1 := { s with host := { s.host with jobs := rest } }
      let op := beAt d 2 2
      let k := u8 d 1
      let ctr := beAt d 8 8
      let body := slice d 32 (beAt d 4 2)
      let answered : Nat → Nat → State → Prop := fun r x s' => s'.get HOST_CMD_STATUS.state = 3 ∧
        s'.get HOST_CMD_STATUS.result = r % 256 ∧ s'.get HOST_CMD_STATUS.detail = x % 256 ∧ s'.get HOST_EVENTS.cmd_done = 1
      let only : State → Prop := fun s' => { s' with io := s.io, host := s.host } = s ∧ s'.host = s1.host ∧
        ∀ a, a ≠ HOST_CMD_STATUS → a ≠ HOST_EVENTS → (a < HOST_CMD_BUF 0 ∨ HOST_CMD_BUF 373 < a) → s'.reg a = s.reg a
      (commandCheck d s1 ≠ 0 → Completes (.commandExecute recOk blown bad) s (fun s' => answered (commandCheck d s1) 0 s' ∧ only s')) ∧
      (commandCheck d s1 = 0 → op < 0x8000 → ceiling s1 k < ctr → (recordsWritable s1 = false ∨ recOk = false) →
        Completes (.commandExecute recOk blown bad) s (fun s' => answered 8 0 s' ∧ only s')) ∧
      (commandCheck d s1 = 0 → (op < 0x8000 → ctr ≤ ceiling s1 k) → permitted op s1 = false →
        Completes (.commandExecute recOk blown bad) s (fun s' => answered 9 0 s' ∧ only s')) ∧
      (commandCheck d s1 = 0 → op < 0x8000 → ctr ≤ ceiling s1 k → permitted op s1 = true →
        let r := runCommand op body blown bad (s1.setPair (CMD_CTR_LO k) ctr)
        Completes (.commandExecute recOk blown bad) s (fun s' => answered r.1 r.2.1 s' ∧
          { s' with io := r.2.2.2.io } = r.2.2.2)) ∧
      (commandCheck d s1 = 0 → op = 0x8003 → scrapped s1 = false → Completes (.commandExecute recOk blown bad) s (fun s' => answered 0 0 s' ∧ only s')) ∧
      (commandCheck d s1 = 0 → 0x8000 ≤ op → permitted op s1 = true →
        let r := runCommand op body blown bad s1
        Completes (.commandExecute recOk blown bad) s (fun s' => answered r.1 r.2.1 s' ∧ { s' with io := r.2.2.2.io } = r.2.2.2)))
/-- Each command has its effect where its conditions hold and otherwise its detail code with none: LADDER takes a rung 2
at once or makes a rung 3 or 4 due; a slot write opens on the slot not in use and stores octets once the flag and the
bind record are cleared; an activation that passes every check makes the slot the active one; a key is revoked, a
life-cycle state changed with a Vault wipe, the debug port unlocked; an override changes a split-table entry, a stopped
comparison, an edge channel or GPIO bits; a verdict releases or fails the boot; the recovery loader writes and commits a
slot. (R163, R376, R377, R378, R382, R383, R384, R385, R399, R406, R407, R409) -/
def Obligations.CommandsHaveTheirEffects : Prop :=
  (∀ (s : State) (rung f : BitVec 8),
    let r := rung.toNat
    let i := f.toNat
    let cmd : Instr := .ladder rung f
    let n := s.get LADDER_STATUS.resets + 1
    (∀ d, s.flt.due = some d → 3 ≤ d.1 → exec cmd s = .next s) ∧
    (s.flt.due = none →
      (r = 2 → 10 < i ∨ atD s.flt.reinit i false = true → exec cmd s = .next s) ∧
      (r = 2 → i ≤ 10 → atD s.flt.reinit i false = false → Completes cmd s (fun s' => atD s'.flt.reinit i false = true ∧
        s'.get (HOST_FN_STAT.state i) = 1 ∧ s'.get (HOST_FN_COUNT.total i) = Nat.min (s.get (HOST_FN_COUNT.total i) + 1) 65535 ∧
        s'.get LADDER_LAST.rung = 1 ∧ s'.get LADDER_LAST.function = i ∧ s'.get LADDER_LAST.cause = 1 ∧ s'.get HOST_EVENTS.rung = 1)) ∧
      (r ≠ 2 → i ≠ 255 → exec cmd s = .next s) ∧ (r ≠ 2 → r ≠ 3 → r ≠ 4 → exec cmd s = .next s) ∧
      (r = 3 → i = 255 → n < max 2 (s.get LADDER_CFG1.reset_limit) → Completes cmd s (fun s' => s'.flt.due = some (3, 0, 1) ∧
        s'.get LADDER_STATUS.resets = n ∧ RegsOnly [LADDER_STATUS] s { s' with flt := s.flt })) ∧
      (r = 4 → i = 255 → Completes cmd s (fun s' => s'.flt.due = some (4, 0, 1) ∧ { s' with flt := s.flt } = s)))) ∧
  (∀ (s : State) (x : BitVec 8) (off : BitVec 32) (d : List Byte),
    let n := x.toNat
    let o := off.toNat
    let busy : Prop := s.boot.busy = true
    (busy ∨ 1 < n ∨ bootedSlot s = some n → exec (.slotOpen x) s = .next s) ∧
    (¬ busy → n ≤ 1 → bootedSlot s ≠ some n → exec (.slotOpen x) s = .next { s with host := { s.host with slotOpen := some n } }) ∧
    (busy ∨ s.host.slotOpen = none ∨ o % 4 ≠ 0 ∨ d.length % 4 ≠ 0 ∨ 0x1800000 < o + d.length → exec (.slotData off d) s = .next s) ∧
    (∀ k, ¬ busy → s.host.slotOpen = some k → o % 4 = 0 → d.length % 4 = 0 → o + d.length ≤ 0x1800000 →
      (recordsWritable s = true → codeLocked s k = false → Completes (.slotData off d) s (fun s' =>
        s'.bytes (slotBase k + o) d.length = d ∧
        (∀ b, (b < slotBase k + o ∨ slotBase k + o + d.length ≤ b) → s'.byte b = s.byte b) ∧
        (∀ c ∈ s'.boot.recs, c.id ≠ recBIND k) ∧
        (activeFlag s k = true → ∃ c ∈ s'.boot.recs, c.id = recACTIVE k ∧ c.body = [0]))) ∧
      (recordsWritable s = false ∨ codeLocked s k = true → Completes (.slotData off d) s (fun s' => s'.mem = s.mem ∧
        (recordsWritable s = false → s'.boot = s.boot) ∧ s'.get MEM_EVENTS.mram_refused = 1))) ∧
    (busy ∨ inStage s 0xE = false ∨ 1 < n ∨ 0x1800000 < o + d.length → exec (.recoveryWrite x off d) s = .next s) ∧
    (¬ busy → inStage s 0xE = true → n ≤ 1 → o + d.length ≤ 0x1800000 →
      (recordsWritable s = true → codeLocked s n = false → Completes (.recoveryWrite x off d) s (fun s' =>
        s'.bytes (slotBase n + o) d.length = d ∧
        (∀ b, (b < slotBase n + o ∨ slotBase n + o + d.length ≤ b) → s'.byte b = s.byte b) ∧
        RegsOnly [MEM_STATUS] s { s' with mem := s.mem, memh := s.memh })) ∧
      (recordsWritable s = false ∨ codeLocked s n = true → Completes (.recoveryWrite x off d) s (fun s' =>
        s'.get MEM_EVENTS.mram_refused = 1 ∧ RegsOnly [MRAM_STATUS, MEM_EVENTS] s s')))) ∧
  (∀ (s : State) (x : BitVec 8) (adv bind : Bool),
    let n := x.toNat
    let s1 := { s with host := { s.host with slotOpen := none } }
    let check := checkSlot s1 n true false
    let first := checkSlot s1 n false false
    let named : Nat → List Byte → State → Prop := fun id b s' => ∃ c ∈ s'.boot.recs, c.id = id ∧ c.body = b
    (∀ bad, s.boot.busy = true → exec (.slotActivate x adv bind bad) s = .next s ∧ exec (.recoveryCommit x bad) s = .next s) ∧
    (∀ bad, s.boot.busy = false → 1 < n ∨ (bootedSlot s = some n ∧ activeFlag s n = true) ∨ recordsWritable s = false →
      exec (.slotActivate x adv bind bad) s = .next s1) ∧
    (s.boot.busy = false → n ≤ 1 → ¬(bootedSlot s = some n ∧ activeFlag s n = true) → recordsWritable s = true →
      (check.1 ≠ 0 → Completes (.slotActivate x adv false none) s (fun s' => s'.boot.recs = s.boot.recs ∧
        s'.get (BOOT_SLOT.result n) = check.1 % 256 ∧ s'.get (BOOT_SLOT.good n) = 0 ∧ s'.get BOOT_FAIL.result = check.1 % 256 ∧
        s'.mem = s.mem)) ∧
      (check.1 = 0 → Completes (.slotActivate x adv false none) s (fun s' => named (recACTIVE n) [1] s' ∧
        named (recACTIVE (1 - n)) [0] s' ∧ s'.get BOOT_EVENTS.activated = 1 ∧ s'.get (BOOT_SLOT.good n) = 1 ∧ s'.mem = s.mem ∧
        (adv = true → named recADVANCE (BitVec.ofNat 8 (manVersion (manifestOf s n) / 2 ^ 24) :: slotMeasure (manifestOf s n)) s') ∧
        (bootedSlot s ≠ some n → s'.boot.persist = none))) ∧
      (first.1 = 0 → Completes (.slotActivate x adv true none) s (named (recBIND n) (bindTag (manifestOf s n)))) ∧
      (first.1 ≠ 0 → Completes (.slotActivate x adv true none) s (fun s' => s'.boot.recs = s.boot.recs ∧
        s'.get BOOT_FAIL.result = first.1 % 256))) ∧
    (inStage s 0xE = false ∨ 1 < n ∨ recordsWritable s = false → ∀ bad, exec (.recoveryCommit x bad) s = .next s) ∧
    (s.boot.busy = false → inStage s 0xE = true → n ≤ 1 → recordsWritable s = true →
      let c := (checkSlot s n true false).1
      (c ≠ 0 → Completes (.recoveryCommit x none) s (fun s' => s'.boot.recs = s.boot.recs ∧ s'.get BOOT_FAIL.result = c % 256 ∧
        s'.get BOOT_STATUS.result = c % 256 ∧ s'.flt.due = none)) ∧
      (c = 0 → Completes (.recoveryCommit x none) s (fun s' => named (recACTIVE n) [1] s' ∧ named (recACTIVE (1 - n)) [0] s' ∧
        s'.boot.excl = Vector.replicate 2 false ∧ s'.flt.due = some (3, 0, 4))))) ∧
  (∀ (s : State) (k b : BitVec 8) (blown : Bool),
    let i := k.toNat
    let to_ := b.toNat
    let used : Prop := ((bootedSlot s).isSome ∧ i = manKey (manifestOf s (s.get BOOT_STATUS.slot))) ∨ (s.hasInv = true ∧ i = keySlotOf s.invB)
    let can : Prop := fusesAllowed s = true ∧ blown = true ∧ s.boot.busy = false
    (7 < i ∨ used ∨ keyState s i = 2 ∨ ¬ can → exec (.keyRevoke k blown) s = .next s) ∧
    (i ≤ 7 → ¬ used → keyState s i ≠ 2 → can → Completes (.keyRevoke k blown) s (fun s' => keyState s' i = 2 ∧
      s'.get BOOT_EVENTS.revoked = 1 ∧ (∀ j : Fin 8, j.val ≠ i → s'.boot.keys[j] = s.boot.keys[j]) ∧ s'.mem = s.mem)) ∧
    (transition s.boot.lc to_ = false ∨ transitionMet s to_ = false ∨ ¬ can → exec (.lifecycle b blown) s = .next s) ∧
    (transition s.boot.lc to_ = true → transitionMet s to_ = true → can → Completes (.lifecycle b blown) s (fun s' =>
      s'.boot.lc = to_ ∧ s'.get BOOT_STATUS.lc = to_ ∧ s'.get VAULT_STATUS.wiping = 1 ∧ s'.get VAULT_STATUS.last_cause = 6 ∧
      s'.flt.due.isSome ∧ (to_ ≠ 5 → s'.mem = s.mem ∧ s'.boot.recs = s.boot.recs) ∧
      (to_ = 5 → s'.boot.recs = [] ∧ s'.boot.wrapped = Vector.replicate 4 none ∧ ∀ a, s'.byte a =
        if mramKey ≤ a ∧ a < mramKey + 0x4000000 ∧ ¬(mramKey + 0x3000000 ≤ a ∧ a < mramKey + 0x3C00000) then 0 else s.byte a))) ∧
    (s.boot.busy = false → s.boot.lc = 2 ∨ s.boot.lc = 4 → Completes .debugUnlock s (fun s' => s'.get BOOT_STATUS.debug = 2 ∧
      s'.get BOOT_EVENTS.debug_unlocked = 1 ∧ RegsOnly [BOOT_STATUS, BOOT_EVENTS] s s')) ∧
    (s.boot.busy = true ∨ (s.boot.lc ≠ 2 ∧ s.boot.lc ≠ 4) → exec .debugUnlock s = .next s) ∧ exec .statusQuery s = .next s) ∧
  (∀ (s : State) (f v : BitVec 8),
    let i := f.toNat
    let n := v.toNat
    let same : Prop := s.get (HOST_FN_STAT.mode i) = n % 2 ∧ s.get (HOST_FN_STAT.policy i) = n / 2
    (i = 6 ∨ 10 < i ∨ 3 < n ∨ same → exec (.splitOverride f v) s = .next s) ∧
    (i ≠ 6 → i ≤ 10 → n ≤ 3 → ¬ same → Completes (.splitOverride f v) s (fun s' => s'.get (HOST_FN_STAT.mode i) = n % 2 ∧
      s'.get (HOST_FN_STAT.policy i) = n / 2 ∧ s'.get (HOST_FN_STAT.override i) = 1 ∧ s'.get (HOST_FN_STAT.state i) = 1 ∧
      s'.get INV_STATE.split_override = 1))) ∧
  (∀ (s : State) (g : Fin 12) (v : Word),
    let hit := fun (c : Cmp) => c.port == bitsOf v 6 5 && c.tag == bitsOf v 16 16 && c.stopped
    ((s.grpOf g).cmps.find? hit = none → exec (.verdictOverride g v) s = .next s) ∧
    (bitsOf v 0 2 = 0 → exec (.verdictOverride g v) s = .next s) ∧
    (∀ c, (s.grpOf g).cmps = [c] → hit c = true → c.decided = true → c.third = false → (s.grpOf g).live = true → bitsOf v 0 2 = 3 →
      Completes (.verdictOverride g v) s (fun s' => (s'.grpOf g).live = false ∧ (s'.grpOf g).safeCause = 6))) ∧
  (∀ (s : State) (e : Fin 96) (op : BitVec 8) (v : Word),
    let c := e.val / 16
    let k := e.val % 16
    let f := s.get (EDG_CH_CTRL.func c k)
    let works : Prop := domOn s (domCluster c) = true ∧ s.get (EDG_CH_STAT.state c k) ≠ 0
    let cmd := fun (n : Nat) => (.edgeOverride e (BitVec.ofNat 8 n) v : Instr)
    (4 < op.toNat ∨ ¬ works → exec (.edgeOverride e op v) s = .next s) ∧
    (works → (f ≠ 2 → f ≠ 4 → Completes (cmd 0) s (fun s' => s'.get (EDG_CH_STAT.armed c k) = 1 ∧ s'.reg (EDG_CMP c k) = v) ∧
        Completes (cmd 1) s (fun s' => s'.get (EDG_CH_STAT.armed c k) = 1 ∧ s'.reg (EDG_CMP c k) = s.reg (EDG_CMP c k))) ∧
      Completes (cmd 2) s (fun s' => s'.get (EDG_CH_STAT.armed c k) = 0 ∧ RegsOnly [EDG_CH_STAT c k] s s') ∧
      (f = 1 → Completes (cmd 3) s (fun s' => (s'.edgOf e).force = some true) ∧
        Completes (cmd 4) s (fun s' => (s'.edgOf e).force = some false)))) ∧
  (∀ (s : State) (b : Fin 8) (op : BitVec 8) (v : Word),
    let m := v.toNat % 2 ^ 24
    let cmd := fun (n : Nat) => (.gpioOverride b (BitVec.ofNat 8 n) v : Instr)
    let outIs : Nat → State → Prop := fun x s' => s'.regN (GPIO_OUT b) = x ∧ RegsOnly [GPIO_OUT b] s s'
    (3 < op.toNat → exec (.gpioOverride b op v) s = .next s) ∧ Completes (cmd 0) s (outIs (s.regN (GPIO_OUT b) ||| m)) ∧
    Completes (cmd 1) s (outIs (s.regN (GPIO_OUT b) &&& (0xFFFFFF ^^^ m))) ∧ Completes (cmd 2) s (outIs (s.regN (GPIO_OUT b) ^^^ m)) ∧
    Completes (cmd 3) s (fun s' => s'.regN (GPIO_DIR b) = m ∧ RegsOnly [GPIO_DIR b] s s')) ∧
  (∀ (s : State) (nonce h3 : List Byte) (v : BitVec 8),
    let meets : Prop := s.boot.busy = false ∧ inStage s 8 = true ∧ s.boot.verdict = false ∧ nonce = nonceBytes s ∧ h3 = chainLast s
    let x := s.get BOOT_STATUS.slot
    (¬ meets ∨ (v ≠ 1 ∧ v ≠ 2) → exec (.bootVerdict nonce h3 v) s = .next s) ∧
    (meets → v = 1 → Completes (.bootVerdict nonce h3 v) s (fun s' => s'.boot.verdict = true ∧ s'.get BOOT_STATUS.verdict_wait = 0 ∧
      RegsOnly [BOOT_STATUS] s { s' with boot := s.boot, flt := s.flt })) ∧
    (meets → v = 2 → Completes (.bootVerdict nonce h3 v) s (fun s' => s'.get BOOT_FAIL.result = 0x0C ∧
      atD s'.boot.excl x false = true ∧ s'.flt.due = some (3, 0, 4))))
/-- A rung 2 that is due is taken where no higher rung is, and its function is reset and ENABLED again once idle. A due
rung 3 leaves the device at its boot with TT, the MRAM, the fault log and the ladder's record; a due rung 4 holds it in
reset with TT at 0 and the links down, its record written. A window that closes clears its count, and 60 s without a rung clears the record of rung 4. A
good watchdog service restarts its window and backstop; an early, bad or late one, the backstop at 0 and a stalled
function are counted, logged and answered. (R354, R372, R408, R409, R410, R412, R413, R418, R419, R420, R421, R422) -/
def Obligations.FaultsClimbTheLadder : Prop :=
  (∀ (s : State) (f : Fin 11),
    let due : Prop := s.flt.due2[f] = true ∧ s.flt.due = none
    let n := s.get (HOST_FN_COUNT.reinits f) + 1
    let limit := max 1 (s.get LADDER_CFG0.reinit_limit)
    let idle : Prop := s.disabling f = true ∧ fnIdle f s = true
    (¬ due → exec (.reInit f) s = .next s) ∧
    (due → Completes (.reInit f) s (fun s' => s'.flt.reinit[f] = true ∧ s'.flt.due2[f] = false ∧
      s'.get (HOST_FN_STAT.state f) = 1 ∧ s'.get (HOST_FN_COUNT.total f) = Nat.min (s.get (HOST_FN_COUNT.total f) + 1) 65535 ∧
      s'.get LADDER_LAST.rung = 1 ∧ s'.get LADDER_LAST.function = f ∧ s'.get LADDER_LAST.cause = 0 ∧ s'.get HOST_EVENTS.rung = 1 ∧
      (n < limit → s'.get (HOST_FN_COUNT.reinits f) = n ∧ s'.flt.due = none) ∧
      (limit ≤ n → s'.get (HOST_FN_COUNT.reinits f) = 0 ∧ s'.get HOST_EVENTS.squall = 1))) ∧
    (¬ idle → exec (.functionIdle f) s = .next s) ∧
    (idle → live s = true → Completes (.functionIdle f) s (fun s' => s'.get (HOST_FN_STAT.state f) = 0 ∧ s'.get HOST_EVENTS.fn_idle = 1 ∧
      s'.flt.reinit[f] = false ∧ s'.flt.next[f] = none ∧ (s'.ha f = true ↔ s.get (HOST_FN_STAT.mode f) = 1)))) ∧
  (∀ (s : State) (n : Fin 11),
    let fails := s.flt.failOpen[n] + s.get LADDER_CFG0.fail_window_ms * 1000000
    let reinits := s.flt.reinitOpen[n] + s.get LADDER_CFG1.reinit_window_s * 1000000000
    let resets := s.flt.resetOpen + s.get LADDER_CFG1.reset_window_s * 8000000
    let w := fun (i : Nat) (h : i < 23) => (.squallWindowClose ⟨i, h⟩ : Instr)
    (s.now < fails → exec (w n (by omega)) s = .next s) ∧
    (live s = true → fails ≤ s.now → Completes (w n (by omega)) s (fun s' => s'.get (HOST_FN_COUNT.fails n) = 0 ∧ RegsOnly [HOST_FN_COUNT n] s s')) ∧
    (s.now < reinits → exec (w (n + 11) (by omega)) s = .next s) ∧
    (live s = true → reinits ≤ s.now → Completes (w (n + 11) (by omega)) s (fun s' => s'.get (HOST_FN_COUNT.reinits n) = 0 ∧
      RegsOnly [HOST_FN_COUNT n] s s')) ∧
    (s.pair DRZ_TICK_LO < resets → exec (w 22 (by omega)) s = .next s) ∧
    (live s = true → resets ≤ s.pair DRZ_TICK_LO → Completes (w 22 (by omega)) s (fun s' => s'.get LADDER_STATUS.resets = 0 ∧
      RegsOnly [LADDER_STATUS] s s'))) ∧
  (∀ (s : State) (fn cause : Nat), Inv s → s.pwr.pwrc = false → s.pwr.por = false → cause < 4 →
    let restarted : Nat → State → Prop := fun rung s' => s'.frost = true ∧ s'.flt.due = none ∧ s'.get LADDER_LAST.rung = rung ∧
      s'.get LADDER_LAST.function = fn % 16 ∧ s'.get LADDER_LAST.cause = cause ∧ (∀ t : Fin 24, s'.tileOf t = Tile.reset) ∧
      s'.inv.active = [] ∧ s'.pending = s.pending ∧ (∀ k, mramKey ≤ k → s'.byte k = s.byte k) ∧ s'.boot.lc = s.boot.lc ∧ s'.boot.keys = s.boot.keys ∧
      s'.boot.ctr = s.boot.ctr ∧ (recordsWritable s = true → ∃ c ∈ s'.boot.recs, c.id = recFAULT_TRAIL ∧ c.body.length = 128)
    let count := ((readRecord s recLADDER).map (fun b => u8 b 0)).getD 0
    (s.flt.due = some (3, fn, cause) → Completes .deviceReset s (fun s' => restarted 2 s' ∧ s'.pwr.pwrc = false ∧
      s'.tt.t = s.tt.t ∧ s'.get BOOT_STATUS.stage = 0 ∧ s'.boot.warm = true ∧
      ∀ i w, i < 64 → w < 4 → s'.reg (FLT_LOG i w) = s.reg (FLT_LOG i w))) ∧
    (s.flt.due = some (4, fn, cause) → Completes .powerCycle s (fun s' => restarted 3 s' ∧ s'.pwr.pwrc = true ∧
      s'.now = 0 ∧ s'.get TT_STATUS.ever_synced = 0 ∧ s'.get FLT_STATUS.level = 0 ∧ s'.get HOST_STATUS.pcie_link = 0 ∧
      (∀ p : Fin 8, s'.get (PORT_STATUS.link p) = 0) ∧
      (recordsWritable s = true → ∃ c ∈ s'.boot.recs, c.id = recLADDER ∧ c.body = [BitVec.ofNat 8 (min 255 (count + 1))])))) ∧
  (∀ s : State,
    ((∀ fn cause, s.flt.due ≠ some (3, fn, cause)) ∨ s.pwr.pwrc = true ∨ s.pwr.por = true → exec .deviceReset s = .next s) ∧
    ((∀ fn cause, s.flt.due ≠ some (4, fn, cause)) ∨ s.pwr.pwrc = true ∨ s.pwr.por = true → exec .powerCycle s = .next s) ∧
    (s.flt.stableFrom = none ∨ recordsWritable s = false → exec .stableRun s = .next s) ∧
    (∀ t, s.flt.stableFrom = some t → (s.now < t + 60000000000 → exec .stableRun s = .next s) ∧
      (t + 60000000000 ≤ s.now → recordsWritable s = true → Completes .stableRun s (fun s' => s'.get LADDER_STATUS.rung4 = 0 ∧
        s'.get LADDER_STATUS.exhausted = 0 ∧ s'.flt.stableFrom = none ∧ (∀ c, c ∈ s'.boot.recs ↔ c ∈ s.boot.recs ∧ c.id ≠ recLADDER) ∧
        RegsOnly [LADDER_STATUS] s { s' with flt := s.flt, boot := s.boot }))) ∧
    (∀ m, (devWriter m = false ∨ s.get FLT_CTRL.lock = 1 → exec (.clearLog m) s = .next s) ∧
      (devWriter m = true → s.get FLT_CTRL.lock = 0 → live s = true → Completes (.clearLog m) s (fun s' =>
      s'.get FLT_STATUS.level = 0 ∧ s'.get FLT_STATUS.next = 0 ∧ s'.get FLT_STATUS.overflow = s.get FLT_STATUS.overflow ∧
      RegsOnly [FLT_STATUS] s s')))) ∧
  (∀ (s : State) (t : Fin 24) (m : Master) (v : Word),
    let on : Prop := s.get (WDT_CFG.enable t) = 1
    let own : Prop := m = .tile t true true
    let lo := s.flt.wdtL[t] + s.get (WDT_CFG.open_us t) * 1000
    let hi := s.flt.wdtL[t] + s.get (WDT_CFG.close_us t) * 16000
    let back := 1024 * s.get (WDT_BACKSTOP.backstop t)
    let up := fun (f : Fld) => Nat.min (s.get f + 1) (2 ^ f.w - 1)
    let bad : Nat → State → Prop := fun code s' => s'.regN (FLT_LOG (s.get FLT_STATUS.next) 0) % 256 = code ∧
      s'.get ⟨FLT_EVENTS, t, 1⟩ = 1 ∧ s'.get FLT_EVENTS.logged = 1 ∧ s'.mem = s.mem ∧
      (code ≠ 0x30 → s.get (WDT_CFG.action t) = 1 → (s'.tileOf t).lockup.isSome) ∧
      (code ≠ 0x30 → s.get (WDT_CFG.action t) = 0 → s'.tiles = s.tiles ∧ s'.flt.due = s.flt.due)
    (¬ own ∨ ¬ on → exec (.wdtService m t v) s = .next s) ∧
    (live s = true → own → on → v ≠ 0x5AC3 → Completes (.wdtService m t v) s (fun s' => bad 0x08 s' ∧ s'.get (WDT_STAT.bad t) = up (WDT_STAT.bad t) ∧
      s'.flt.wdtL[t] = s.flt.wdtL[t])) ∧
    (live s = true → own → on → v = 0x5AC3 → s.now < lo → Completes (.wdtService m t v) s (fun s' => bad 0x06 s' ∧
      s'.get (WDT_STAT.early t) = up (WDT_STAT.early t) ∧ s'.flt.wdtL[t] = s.now)) ∧
    (live s = true → own → on → v = 0x5AC3 → lo ≤ s.now → s.now ≤ hi → Completes (.wdtService m t v) s (fun s' => s'.flt.wdtL[t] = s.now ∧
      s'.flt.backstop[t] = back ∧ { s' with flt := s.flt } = s)) ∧
    (own → on → v = 0x5AC3 → lo ≤ s.now → hi < s.now → exec (.wdtService m t v) s = .next s) ∧
    (¬ on ∨ (s.tileOf t).held = true ∨ s.now < hi → exec (.wdtLate t) s = .next s) ∧
    (live s = true → on → (s.tileOf t).held = false → hi ≤ s.now → Completes (.wdtLate t) s (fun s' => bad 0x07 s' ∧
      s'.get (WDT_STAT.late t) = up (WDT_STAT.late t) ∧ s'.flt.wdtL[t] = s.now)) ∧
    (back = 0 ∨ (s.tileOf t).held = true ∨ s.flt.backstop[t] ≠ 0 → exec (.wdtBackstop t) s = .next s) ∧
    (back ≠ 0 → (s.tileOf t).held = false → s.flt.backstop[t] = 0 → Completes (.wdtBackstop t) s (fun s' => bad 0x30 s' ∧
      s'.get (WDT_STAT.backstop t) = up (WDT_STAT.backstop t) ∧ s'.flt.backstop[t] = back ∧
      (s.flt.due = none → s.ha 10 = false → s'.flt.due.isSome)))) ∧
  (∀ (s : State) (f : Fin 11),
    let us := s.get (FWD_CFG.timeout_us f)
    let stalled : Prop := us ≠ 0 ∧ fnBusy s f = true ∧ s.flt.progress[f] + us * 1000 ≤ s.now
    let n := s.get (HOST_FN_COUNT.fails f) + 1
    (¬ stalled → exec (.fnStall f) s = .next s) ∧
    (live s = true → stalled → Completes (.fnStall f) s (fun s' => s'.get (FWD_STAT.stalls f) = Nat.min (s.get (FWD_STAT.stalls f) + 1) 255 ∧
      s'.get FLT_EVENTS.fn_stall = 1 ∧ s'.regN (FLT_LOG (s.get FLT_STATUS.next) 0) % 256 = 0x2E ∧ s'.flt.progress[f] = s.now ∧
      (n < s.get LADDER_CFG0.fail_limit → s'.get (HOST_FN_COUNT.fails f) = n) ∧
      (s.get LADDER_CFG0.fail_limit ≤ n → s'.get (HOST_FN_COUNT.fails f) = 0 ∧ s'.get HOST_EVENTS.squall = 1 ∧
        (s.ha 10 = false → s'.flt.due2[f] = true)))))
/-- For every command c and state s, the step of s with c at the front of its queue is exec of c on s with the queue's
rest; a step of a state whose queue starts with c is exec of c with the rest as its queue. That commands wait in a queue
is the model's choice (log 10). (95_what_each_step_holds) -/
def Obligations.AStepRunsTheFrontCommand : Prop :=
  (∀ (c : Instr) (s : State), step { s with pending := c :: s.pending } = exec c s) ∧
  (∀ (c : Instr) (s : State) (rest : List Instr), s.pending = c :: rest → step s = exec c { s with pending := rest })

/-- At reset the register map and the memory are in canonical form, no command waits, Frost holds in boot stage 0, every
tile is in tile reset, train time is 0 and never synchronised, and no inventory is active. That reset is the delivered
device in power-on reset is the model's choice (log 1). (R73, R372, 01_inventory) -/
def Obligations.ResetMeetsTheInvariant : Prop :=
  Inv State.reset ∧ State.reset.pending = [] ∧ State.reset.frost = true ∧ State.reset.get BOOT_STATUS.stage = 0 ∧
  (∀ t : Fin 24, (State.reset.tileOf t).held = true) ∧ State.reset.now = 0 ∧ State.reset.get TT_STATUS.ever_synced = 0 ∧
  State.reset.inv.active = [] ∧ State.reset.pwr.por = true

/-- From every state a step answers a next state. From every state whose register map and memory are in canonical form
(addresses strictly rising, and no entry equal to what an unlisted address reads as), that next state's are too, so that
equal contents are equal data. The canonical form is the model's choice (log 5). (R6, R9, R167, R170) -/
def Obligations.EveryStepKeepsTheInvariant : Prop :=
  (∀ s : State, ∃ t, step s = .next t) ∧ (∀ s t : State, Inv s → step s = .next t → Inv t)
end

