-- ==== Sys2Proof/Laws/Maps.lean ====
section
/-!
SUPPORT. Sys2Proof/Laws/Maps.lean: the laws of the sparse maps: what a lookup gives after a store, and that every operation on a
map keeps its canonical form.
-/
namespace Sys2Proof.Machine

theorem lookup_insertKey {β : Type} (l : List (Nat × β)) (k j : Nat) (v : β) (h : ∀ e ∈ l, e.1 ≠ k) :
    lookup (insertKey l k v) j = if j = k then some v else lookup l j := by
  induction l with
  | nil => by_cases hj : j = k <;> simp [insertKey, lookup, hj]
  | cons e rest ih =>
    obtain ⟨k', v'⟩ := e
    have hk : k' ≠ k := h (k', v') (by simp)
    have ih := ih (fun e he => h e (by simp [he]))
    by_cases hlt : k < k'
    · by_cases hj : j = k <;> simp [insertKey, lookup, hlt, hj]
    · by_cases hj : j = k
      · subst hj
        have : ¬ j = k' := fun h => hk h.symm
        simp [insertKey, lookup, hlt, this, ih]
      · by_cases hj' : j = k' <;> simp [insertKey, lookup, hlt, hj, hj', ih, hk]

theorem lookup_filter_self {β : Type} (l : List (Nat × β)) (p : Nat → Bool) (j : Nat) :
    lookup (l.filter (fun e => p e.1)) j = if p j then lookup l j else none := by
  induction l with
  | nil => simp [lookup]
  | cons e rest ih =>
    obtain ⟨k', v'⟩ := e
    by_cases hp : p k' = true
    · by_cases hj : j = k'
      · subst hj; simp [lookup, hp]
      · simp [lookup, hp, hj, ih]
    · by_cases hj : j = k'
      · subst hj; simp [hp, ih]
      · simp [lookup, hp, hj, ih]

theorem lookup_dropKey {β : Type} (l : List (Nat × β)) (k j : Nat) :
    lookup (dropKey l k) j = if j = k then none else lookup l j := by
  have h := lookup_filter_self l (fun x => x != k) j
  by_cases hj : j = k <;> simp_all [dropKey]

/-- A lookup after a store: the value stored at the key, and what was there at any other. -/
theorem lookup_store {β : Type} [BEq β] [LawfulBEq β] (l : List (Nat × β)) (k j : Nat) (v d : β) :
    (lookup (store l k v d) j).getD d = if j = k then v else (lookup l j).getD d := by
  by_cases hv : v = d
  · by_cases hj : j = k <;> simp [store, hv, lookup_dropKey, hj]
  · have h : ∀ e ∈ dropKey l k, e.1 ≠ k := by intro e he; simp [dropKey] at he; exact he.2
    by_cases hj : j = k <;> simp [store, hv, lookup_insertKey _ _ _ _ h, lookup_dropKey, hj]

/-- A lookup at another key than the one stored to. -/
theorem lookup_store_ne {β : Type} [BEq β] [LawfulBEq β] (l : List (Nat × β)) (k j : Nat) (v d : β) (hj : j ≠ k) :
    lookup (store l k v d) j = lookup l j := by
  have h : ∀ e ∈ dropKey l k, e.1 ≠ k := by intro e he; simp [dropKey] at he; exact he.2
  by_cases hv : v = d <;> simp [store, hv, lookup_insertKey _ _ _ _ h, lookup_dropKey, hj]

theorem mem_insertKey {β : Type} {l : List (Nat × β)} {k : Nat} {v : β} {e : Nat × β} :
    e ∈ insertKey l k v ↔ e = (k, v) ∨ e ∈ l := by
  induction l with
  | nil => simp [insertKey]
  | cons a rest ih =>
    obtain ⟨k', v'⟩ := a
    by_cases h : k < k'
    · simp [insertKey, h]
    · simp only [insertKey, h, if_false, List.mem_cons, ih]
      constructor <;> rintro (h | h | h) <;> simp [h]

theorem canonical_insertKey {β : Type} {f : Nat → β} {l : List (Nat × β)} {k : Nat} {v : β} (hl : Canonical f l)
    (hk : ∀ e ∈ l, e.1 ≠ k) (hv : v ≠ f k) : Canonical f (insertKey l k v) := by
  refine ⟨?_, ?_⟩
  · obtain ⟨hs, -⟩ := hl
    clear hv
    induction l with
    | nil => simp [insertKey]
    | cons a rest ih =>
      obtain ⟨k', v'⟩ := a
      rw [List.pairwise_cons] at hs
      have hne : k' ≠ k := hk (k', v') (by simp)
      by_cases h : k < k'
      · rw [insertKey, if_pos h, List.pairwise_cons, List.pairwise_cons]
        refine ⟨fun e he => ?_, hs.1, hs.2⟩
        rcases List.mem_cons.1 he with rfl | he
        · exact h
        · exact Nat.lt_trans h (hs.1 e he)
      · simp only [insertKey, h, if_false, List.pairwise_cons, mem_insertKey]
        refine ⟨?_, ih (fun e he => hk e (by simp [he])) hs.2⟩
        rintro e (rfl | he)
        · show k' < k; omega
        · exact hs.1 e he
  · intro e he
    rcases mem_insertKey.1 he with rfl | he
    · exact hv
    · exact hl.2 e he

theorem canonical_filter {β : Type} {f : Nat → β} {l : List (Nat × β)} (p : Nat × β → Bool) (hl : Canonical f l) :
    Canonical f (l.filter p) :=
  ⟨hl.1.sublist List.filter_sublist, fun e he => hl.2 e (List.mem_of_mem_filter he)⟩

/-- A store keeps the canonical form. -/
theorem canonical_store {β : Type} [BEq β] [LawfulBEq β] {f : Nat → β} {l : List (Nat × β)} (k : Nat) (v : β)
    (hl : Canonical f l) : Canonical f (store l k v (f k)) := by
  have h : ∀ e ∈ dropKey l k, e.1 ≠ k := by intro e he; simp [dropKey] at he; exact he.2
  by_cases hv : v = f k
  · simp only [store, hv, beq_self_eq_true, if_true]; exact canonical_filter _ hl
  · simp only [store, beq_iff_eq, hv, if_false]; exact canonical_insertKey (canonical_filter _ hl) h hv

/-- The empty map is canonical. -/
theorem canonical_nil {β : Type} (f : Nat → β) : Canonical f [] := ⟨List.Pairwise.nil, by simp⟩

end Sys2Proof.Machine
end

