-- ==== Sys2Proof/Laws/State.lean ====
section
/-!
SUPPORT. Sys2Proof/Laws/State.lean: one lemma per field per update of the state: what each named update leaves as it is.
-/
namespace Sys2Proof.Machine

variable (s : State)

/-! ### setReg -/

@[simp] theorem State.setReg_mem (a : Nat) (v : Word) : (s.setReg a v).mem = s.mem := (rfl)
@[simp] theorem State.setReg_fresh (a : Nat) (v : Word) : (s.setReg a v).fresh = s.fresh := (rfl)
@[simp] theorem State.setReg_pending (a : Nat) (v : Word) : (s.setReg a v).pending = s.pending := (rfl)
@[simp] theorem State.setReg_inv (a : Nat) (v : Word) : (s.setReg a v).inv = s.inv := (rfl)
@[simp] theorem State.setReg_clk (a : Nat) (v : Word) : (s.setReg a v).clk = s.clk := (rfl)
@[simp] theorem State.setReg_tt (a : Nat) (v : Word) : (s.setReg a v).tt = s.tt := (rfl)
@[simp] theorem State.setReg_flt (a : Nat) (v : Word) : (s.setReg a v).flt = s.flt := (rfl)
@[simp] theorem State.setReg_edg (a : Nat) (v : Word) : (s.setReg a v).edg = s.edg := (rfl)
@[simp] theorem State.setReg_ball (a : Nat) (v : Word) : (s.setReg a v).ball = s.ball := (rfl)
@[simp] theorem State.setReg_fnIn (a : Nat) (v : Word) : (s.setReg a v).fnIn = s.fnIn := (rfl)
@[simp] theorem State.setReg_tiles (a : Nat) (v : Word) : (s.setReg a v).tiles = s.tiles := (rfl)
@[simp] theorem State.setReg_adc (a : Nat) (v : Word) : (s.setReg a v).adc = s.adc := (rfl)
@[simp] theorem State.setReg_data (a : Nat) (v : Word) : (s.setReg a v).data = s.data := (rfl)
@[simp] theorem State.setReg_memh (a : Nat) (v : Word) : (s.setReg a v).memh = s.memh := (rfl)
@[simp] theorem State.setReg_omt (a : Nat) (v : Word) : (s.setReg a v).omt = s.omt := (rfl)
@[simp] theorem State.setReg_vote (a : Nat) (v : Word) : (s.setReg a v).vote = s.vote := (rfl)
@[simp] theorem State.setReg_pwr (a : Nat) (v : Word) : (s.setReg a v).pwr = s.pwr := (rfl)
@[simp] theorem State.setReg_dbg (a : Nat) (v : Word) : (s.setReg a v).dbg = s.dbg := (rfl)
@[simp] theorem State.setReg_dma (a : Nat) (v : Word) : (s.setReg a v).dma = s.dma := (rfl)
@[simp] theorem State.setReg_turn (a : Nat) (v : Word) : (s.setReg a v).turn = s.turn := (rfl)
@[simp] theorem State.setReg_net (a : Nat) (v : Word) : (s.setReg a v).net = s.net := (rfl)
@[simp] theorem State.setReg_host (a : Nat) (v : Word) : (s.setReg a v).host = s.host := (rfl)
@[simp] theorem State.setReg_bus (a : Nat) (v : Word) : (s.setReg a v).bus = s.bus := (rfl)
@[simp] theorem State.setReg_boot (a : Nat) (v : Word) : (s.setReg a v).boot = s.boot := (rfl)
@[simp] theorem State.setReg_byte (a : Nat) (v : Word) (q : Nat) : (s.setReg a v).byte q = s.byte q := (rfl)
@[simp] theorem State.setReg_tileOf (a : Nat) (v : Word) (q : Nat) : (s.setReg a v).tileOf q = s.tileOf q := (rfl)
@[simp] theorem State.setReg_now (a : Nat) (v : Word) : (s.setReg a v).now = s.now := (rfl)

/-! ### set -/

@[simp] theorem State.set_mem (f : Fld) (n : Nat) : (s.set f n).mem = s.mem := (rfl)
@[simp] theorem State.set_fresh (f : Fld) (n : Nat) : (s.set f n).fresh = s.fresh := (rfl)
@[simp] theorem State.set_pending (f : Fld) (n : Nat) : (s.set f n).pending = s.pending := (rfl)
@[simp] theorem State.set_inv (f : Fld) (n : Nat) : (s.set f n).inv = s.inv := (rfl)
@[simp] theorem State.set_clk (f : Fld) (n : Nat) : (s.set f n).clk = s.clk := (rfl)
@[simp] theorem State.set_tt (f : Fld) (n : Nat) : (s.set f n).tt = s.tt := (rfl)
@[simp] theorem State.set_flt (f : Fld) (n : Nat) : (s.set f n).flt = s.flt := (rfl)
@[simp] theorem State.set_edg (f : Fld) (n : Nat) : (s.set f n).edg = s.edg := (rfl)
@[simp] theorem State.set_ball (f : Fld) (n : Nat) : (s.set f n).ball = s.ball := (rfl)
@[simp] theorem State.set_fnIn (f : Fld) (n : Nat) : (s.set f n).fnIn = s.fnIn := (rfl)
@[simp] theorem State.set_tiles (f : Fld) (n : Nat) : (s.set f n).tiles = s.tiles := (rfl)
@[simp] theorem State.set_adc (f : Fld) (n : Nat) : (s.set f n).adc = s.adc := (rfl)
@[simp] theorem State.set_data (f : Fld) (n : Nat) : (s.set f n).data = s.data := (rfl)
@[simp] theorem State.set_memh (f : Fld) (n : Nat) : (s.set f n).memh = s.memh := (rfl)
@[simp] theorem State.set_omt (f : Fld) (n : Nat) : (s.set f n).omt = s.omt := (rfl)
@[simp] theorem State.set_vote (f : Fld) (n : Nat) : (s.set f n).vote = s.vote := (rfl)
@[simp] theorem State.set_pwr (f : Fld) (n : Nat) : (s.set f n).pwr = s.pwr := (rfl)
@[simp] theorem State.set_dbg (f : Fld) (n : Nat) : (s.set f n).dbg = s.dbg := (rfl)
@[simp] theorem State.set_dma (f : Fld) (n : Nat) : (s.set f n).dma = s.dma := (rfl)
@[simp] theorem State.set_turn (f : Fld) (n : Nat) : (s.set f n).turn = s.turn := (rfl)
@[simp] theorem State.set_net (f : Fld) (n : Nat) : (s.set f n).net = s.net := (rfl)
@[simp] theorem State.set_host (f : Fld) (n : Nat) : (s.set f n).host = s.host := (rfl)
@[simp] theorem State.set_bus (f : Fld) (n : Nat) : (s.set f n).bus = s.bus := (rfl)
@[simp] theorem State.set_boot (f : Fld) (n : Nat) : (s.set f n).boot = s.boot := (rfl)
@[simp] theorem State.set_byte (f : Fld) (n : Nat) (q : Nat) : (s.set f n).byte q = s.byte q := (rfl)
@[simp] theorem State.set_tileOf (f : Fld) (n : Nat) (q : Nat) : (s.set f n).tileOf q = s.tileOf q := (rfl)
@[simp] theorem State.set_now (f : Fld) (n : Nat) : (s.set f n).now = s.now := (rfl)

/-! ### raise -/

@[simp] theorem State.raise_mem (f : Fld) : (s.raise f).mem = s.mem := (rfl)
@[simp] theorem State.raise_fresh (f : Fld) : (s.raise f).fresh = s.fresh := (rfl)
@[simp] theorem State.raise_pending (f : Fld) : (s.raise f).pending = s.pending := (rfl)
@[simp] theorem State.raise_inv (f : Fld) : (s.raise f).inv = s.inv := (rfl)
@[simp] theorem State.raise_clk (f : Fld) : (s.raise f).clk = s.clk := (rfl)
@[simp] theorem State.raise_tt (f : Fld) : (s.raise f).tt = s.tt := (rfl)
@[simp] theorem State.raise_flt (f : Fld) : (s.raise f).flt = s.flt := (rfl)
@[simp] theorem State.raise_edg (f : Fld) : (s.raise f).edg = s.edg := (rfl)
@[simp] theorem State.raise_ball (f : Fld) : (s.raise f).ball = s.ball := (rfl)
@[simp] theorem State.raise_fnIn (f : Fld) : (s.raise f).fnIn = s.fnIn := (rfl)
@[simp] theorem State.raise_tiles (f : Fld) : (s.raise f).tiles = s.tiles := (rfl)
@[simp] theorem State.raise_adc (f : Fld) : (s.raise f).adc = s.adc := (rfl)
@[simp] theorem State.raise_data (f : Fld) : (s.raise f).data = s.data := (rfl)
@[simp] theorem State.raise_memh (f : Fld) : (s.raise f).memh = s.memh := (rfl)
@[simp] theorem State.raise_omt (f : Fld) : (s.raise f).omt = s.omt := (rfl)
@[simp] theorem State.raise_vote (f : Fld) : (s.raise f).vote = s.vote := (rfl)
@[simp] theorem State.raise_pwr (f : Fld) : (s.raise f).pwr = s.pwr := (rfl)
@[simp] theorem State.raise_dbg (f : Fld) : (s.raise f).dbg = s.dbg := (rfl)
@[simp] theorem State.raise_dma (f : Fld) : (s.raise f).dma = s.dma := (rfl)
@[simp] theorem State.raise_turn (f : Fld) : (s.raise f).turn = s.turn := (rfl)
@[simp] theorem State.raise_net (f : Fld) : (s.raise f).net = s.net := (rfl)
@[simp] theorem State.raise_host (f : Fld) : (s.raise f).host = s.host := (rfl)
@[simp] theorem State.raise_bus (f : Fld) : (s.raise f).bus = s.bus := (rfl)
@[simp] theorem State.raise_boot (f : Fld) : (s.raise f).boot = s.boot := (rfl)
@[simp] theorem State.raise_byte (f : Fld) (q : Nat) : (s.raise f).byte q = s.byte q := (rfl)
@[simp] theorem State.raise_tileOf (f : Fld) (q : Nat) : (s.raise f).tileOf q = s.tileOf q := (rfl)
@[simp] theorem State.raise_now (f : Fld) : (s.raise f).now = s.now := (rfl)

/-! ### bump -/

@[simp] theorem State.bump_mem (f : Fld) : (s.bump f).mem = s.mem := (rfl)
@[simp] theorem State.bump_fresh (f : Fld) : (s.bump f).fresh = s.fresh := (rfl)
@[simp] theorem State.bump_pending (f : Fld) : (s.bump f).pending = s.pending := (rfl)
@[simp] theorem State.bump_inv (f : Fld) : (s.bump f).inv = s.inv := (rfl)
@[simp] theorem State.bump_clk (f : Fld) : (s.bump f).clk = s.clk := (rfl)
@[simp] theorem State.bump_tt (f : Fld) : (s.bump f).tt = s.tt := (rfl)
@[simp] theorem State.bump_flt (f : Fld) : (s.bump f).flt = s.flt := (rfl)
@[simp] theorem State.bump_edg (f : Fld) : (s.bump f).edg = s.edg := (rfl)
@[simp] theorem State.bump_ball (f : Fld) : (s.bump f).ball = s.ball := (rfl)
@[simp] theorem State.bump_fnIn (f : Fld) : (s.bump f).fnIn = s.fnIn := (rfl)
@[simp] theorem State.bump_tiles (f : Fld) : (s.bump f).tiles = s.tiles := (rfl)
@[simp] theorem State.bump_adc (f : Fld) : (s.bump f).adc = s.adc := (rfl)
@[simp] theorem State.bump_data (f : Fld) : (s.bump f).data = s.data := (rfl)
@[simp] theorem State.bump_memh (f : Fld) : (s.bump f).memh = s.memh := (rfl)
@[simp] theorem State.bump_omt (f : Fld) : (s.bump f).omt = s.omt := (rfl)
@[simp] theorem State.bump_vote (f : Fld) : (s.bump f).vote = s.vote := (rfl)
@[simp] theorem State.bump_pwr (f : Fld) : (s.bump f).pwr = s.pwr := (rfl)
@[simp] theorem State.bump_dbg (f : Fld) : (s.bump f).dbg = s.dbg := (rfl)
@[simp] theorem State.bump_dma (f : Fld) : (s.bump f).dma = s.dma := (rfl)
@[simp] theorem State.bump_turn (f : Fld) : (s.bump f).turn = s.turn := (rfl)
@[simp] theorem State.bump_net (f : Fld) : (s.bump f).net = s.net := (rfl)
@[simp] theorem State.bump_host (f : Fld) : (s.bump f).host = s.host := (rfl)
@[simp] theorem State.bump_bus (f : Fld) : (s.bump f).bus = s.bus := (rfl)
@[simp] theorem State.bump_boot (f : Fld) : (s.bump f).boot = s.boot := (rfl)
@[simp] theorem State.bump_byte (f : Fld) (q : Nat) : (s.bump f).byte q = s.byte q := (rfl)
@[simp] theorem State.bump_tileOf (f : Fld) (q : Nat) : (s.bump f).tileOf q = s.tileOf q := (rfl)
@[simp] theorem State.bump_now (f : Fld) : (s.bump f).now = s.now := (rfl)

/-! ### count -/

@[simp] theorem State.count_mem (f : Fld) : (s.count f).mem = s.mem := (rfl)
@[simp] theorem State.count_fresh (f : Fld) : (s.count f).fresh = s.fresh := (rfl)
@[simp] theorem State.count_pending (f : Fld) : (s.count f).pending = s.pending := (rfl)
@[simp] theorem State.count_inv (f : Fld) : (s.count f).inv = s.inv := (rfl)
@[simp] theorem State.count_clk (f : Fld) : (s.count f).clk = s.clk := (rfl)
@[simp] theorem State.count_tt (f : Fld) : (s.count f).tt = s.tt := (rfl)
@[simp] theorem State.count_flt (f : Fld) : (s.count f).flt = s.flt := (rfl)
@[simp] theorem State.count_edg (f : Fld) : (s.count f).edg = s.edg := (rfl)
@[simp] theorem State.count_ball (f : Fld) : (s.count f).ball = s.ball := (rfl)
@[simp] theorem State.count_fnIn (f : Fld) : (s.count f).fnIn = s.fnIn := (rfl)
@[simp] theorem State.count_tiles (f : Fld) : (s.count f).tiles = s.tiles := (rfl)
@[simp] theorem State.count_adc (f : Fld) : (s.count f).adc = s.adc := (rfl)
@[simp] theorem State.count_data (f : Fld) : (s.count f).data = s.data := (rfl)
@[simp] theorem State.count_memh (f : Fld) : (s.count f).memh = s.memh := (rfl)
@[simp] theorem State.count_omt (f : Fld) : (s.count f).omt = s.omt := (rfl)
@[simp] theorem State.count_vote (f : Fld) : (s.count f).vote = s.vote := (rfl)
@[simp] theorem State.count_pwr (f : Fld) : (s.count f).pwr = s.pwr := (rfl)
@[simp] theorem State.count_dbg (f : Fld) : (s.count f).dbg = s.dbg := (rfl)
@[simp] theorem State.count_dma (f : Fld) : (s.count f).dma = s.dma := (rfl)
@[simp] theorem State.count_turn (f : Fld) : (s.count f).turn = s.turn := (rfl)
@[simp] theorem State.count_net (f : Fld) : (s.count f).net = s.net := (rfl)
@[simp] theorem State.count_host (f : Fld) : (s.count f).host = s.host := (rfl)
@[simp] theorem State.count_bus (f : Fld) : (s.count f).bus = s.bus := (rfl)
@[simp] theorem State.count_boot (f : Fld) : (s.count f).boot = s.boot := (rfl)
@[simp] theorem State.count_byte (f : Fld) (q : Nat) : (s.count f).byte q = s.byte q := (rfl)
@[simp] theorem State.count_tileOf (f : Fld) (q : Nat) : (s.count f).tileOf q = s.tileOf q := (rfl)
@[simp] theorem State.count_now (f : Fld) : (s.count f).now = s.now := (rfl)

/-! ### setB -/

@[simp] theorem State.setB_mem (f : Fld) (b : Bool) : (s.setB f b).mem = s.mem := (rfl)
@[simp] theorem State.setB_fresh (f : Fld) (b : Bool) : (s.setB f b).fresh = s.fresh := (rfl)
@[simp] theorem State.setB_pending (f : Fld) (b : Bool) : (s.setB f b).pending = s.pending := (rfl)
@[simp] theorem State.setB_inv (f : Fld) (b : Bool) : (s.setB f b).inv = s.inv := (rfl)
@[simp] theorem State.setB_clk (f : Fld) (b : Bool) : (s.setB f b).clk = s.clk := (rfl)
@[simp] theorem State.setB_tt (f : Fld) (b : Bool) : (s.setB f b).tt = s.tt := (rfl)
@[simp] theorem State.setB_flt (f : Fld) (b : Bool) : (s.setB f b).flt = s.flt := (rfl)
@[simp] theorem State.setB_edg (f : Fld) (b : Bool) : (s.setB f b).edg = s.edg := (rfl)
@[simp] theorem State.setB_ball (f : Fld) (b : Bool) : (s.setB f b).ball = s.ball := (rfl)
@[simp] theorem State.setB_fnIn (f : Fld) (b : Bool) : (s.setB f b).fnIn = s.fnIn := (rfl)
@[simp] theorem State.setB_tiles (f : Fld) (b : Bool) : (s.setB f b).tiles = s.tiles := (rfl)
@[simp] theorem State.setB_adc (f : Fld) (b : Bool) : (s.setB f b).adc = s.adc := (rfl)
@[simp] theorem State.setB_data (f : Fld) (b : Bool) : (s.setB f b).data = s.data := (rfl)
@[simp] theorem State.setB_memh (f : Fld) (b : Bool) : (s.setB f b).memh = s.memh := (rfl)
@[simp] theorem State.setB_omt (f : Fld) (b : Bool) : (s.setB f b).omt = s.omt := (rfl)
@[simp] theorem State.setB_vote (f : Fld) (b : Bool) : (s.setB f b).vote = s.vote := (rfl)
@[simp] theorem State.setB_pwr (f : Fld) (b : Bool) : (s.setB f b).pwr = s.pwr := (rfl)
@[simp] theorem State.setB_dbg (f : Fld) (b : Bool) : (s.setB f b).dbg = s.dbg := (rfl)
@[simp] theorem State.setB_dma (f : Fld) (b : Bool) : (s.setB f b).dma = s.dma := (rfl)
@[simp] theorem State.setB_turn (f : Fld) (b : Bool) : (s.setB f b).turn = s.turn := (rfl)
@[simp] theorem State.setB_net (f : Fld) (b : Bool) : (s.setB f b).net = s.net := (rfl)
@[simp] theorem State.setB_host (f : Fld) (b : Bool) : (s.setB f b).host = s.host := (rfl)
@[simp] theorem State.setB_bus (f : Fld) (b : Bool) : (s.setB f b).bus = s.bus := (rfl)
@[simp] theorem State.setB_boot (f : Fld) (b : Bool) : (s.setB f b).boot = s.boot := (rfl)
@[simp] theorem State.setB_byte (f : Fld) (b : Bool) (q : Nat) : (s.setB f b).byte q = s.byte q := (rfl)
@[simp] theorem State.setB_tileOf (f : Fld) (b : Bool) (q : Nat) : (s.setB f b).tileOf q = s.tileOf q := (rfl)
@[simp] theorem State.setB_now (f : Fld) (b : Bool) : (s.setB f b).now = s.now := (rfl)

/-! ### setN -/

@[simp] theorem State.setN_mem (a n : Nat) : (s.setN a n).mem = s.mem := (rfl)
@[simp] theorem State.setN_fresh (a n : Nat) : (s.setN a n).fresh = s.fresh := (rfl)
@[simp] theorem State.setN_pending (a n : Nat) : (s.setN a n).pending = s.pending := (rfl)
@[simp] theorem State.setN_inv (a n : Nat) : (s.setN a n).inv = s.inv := (rfl)
@[simp] theorem State.setN_clk (a n : Nat) : (s.setN a n).clk = s.clk := (rfl)
@[simp] theorem State.setN_tt (a n : Nat) : (s.setN a n).tt = s.tt := (rfl)
@[simp] theorem State.setN_flt (a n : Nat) : (s.setN a n).flt = s.flt := (rfl)
@[simp] theorem State.setN_edg (a n : Nat) : (s.setN a n).edg = s.edg := (rfl)
@[simp] theorem State.setN_ball (a n : Nat) : (s.setN a n).ball = s.ball := (rfl)
@[simp] theorem State.setN_fnIn (a n : Nat) : (s.setN a n).fnIn = s.fnIn := (rfl)
@[simp] theorem State.setN_tiles (a n : Nat) : (s.setN a n).tiles = s.tiles := (rfl)
@[simp] theorem State.setN_adc (a n : Nat) : (s.setN a n).adc = s.adc := (rfl)
@[simp] theorem State.setN_data (a n : Nat) : (s.setN a n).data = s.data := (rfl)
@[simp] theorem State.setN_memh (a n : Nat) : (s.setN a n).memh = s.memh := (rfl)
@[simp] theorem State.setN_omt (a n : Nat) : (s.setN a n).omt = s.omt := (rfl)
@[simp] theorem State.setN_vote (a n : Nat) : (s.setN a n).vote = s.vote := (rfl)
@[simp] theorem State.setN_pwr (a n : Nat) : (s.setN a n).pwr = s.pwr := (rfl)
@[simp] theorem State.setN_dbg (a n : Nat) : (s.setN a n).dbg = s.dbg := (rfl)
@[simp] theorem State.setN_dma (a n : Nat) : (s.setN a n).dma = s.dma := (rfl)
@[simp] theorem State.setN_turn (a n : Nat) : (s.setN a n).turn = s.turn := (rfl)
@[simp] theorem State.setN_net (a n : Nat) : (s.setN a n).net = s.net := (rfl)
@[simp] theorem State.setN_host (a n : Nat) : (s.setN a n).host = s.host := (rfl)
@[simp] theorem State.setN_bus (a n : Nat) : (s.setN a n).bus = s.bus := (rfl)
@[simp] theorem State.setN_boot (a n : Nat) : (s.setN a n).boot = s.boot := (rfl)
@[simp] theorem State.setN_byte (a n : Nat) (q : Nat) : (s.setN a n).byte q = s.byte q := (rfl)
@[simp] theorem State.setN_tileOf (a n : Nat) (q : Nat) : (s.setN a n).tileOf q = s.tileOf q := (rfl)
@[simp] theorem State.setN_now (a n : Nat) : (s.setN a n).now = s.now := (rfl)

/-! ### countReg -/

@[simp] theorem State.countReg_mem (a : Nat) : (s.countReg a).mem = s.mem := (rfl)
@[simp] theorem State.countReg_fresh (a : Nat) : (s.countReg a).fresh = s.fresh := (rfl)
@[simp] theorem State.countReg_pending (a : Nat) : (s.countReg a).pending = s.pending := (rfl)
@[simp] theorem State.countReg_inv (a : Nat) : (s.countReg a).inv = s.inv := (rfl)
@[simp] theorem State.countReg_clk (a : Nat) : (s.countReg a).clk = s.clk := (rfl)
@[simp] theorem State.countReg_tt (a : Nat) : (s.countReg a).tt = s.tt := (rfl)
@[simp] theorem State.countReg_flt (a : Nat) : (s.countReg a).flt = s.flt := (rfl)
@[simp] theorem State.countReg_edg (a : Nat) : (s.countReg a).edg = s.edg := (rfl)
@[simp] theorem State.countReg_ball (a : Nat) : (s.countReg a).ball = s.ball := (rfl)
@[simp] theorem State.countReg_fnIn (a : Nat) : (s.countReg a).fnIn = s.fnIn := (rfl)
@[simp] theorem State.countReg_tiles (a : Nat) : (s.countReg a).tiles = s.tiles := (rfl)
@[simp] theorem State.countReg_adc (a : Nat) : (s.countReg a).adc = s.adc := (rfl)
@[simp] theorem State.countReg_data (a : Nat) : (s.countReg a).data = s.data := (rfl)
@[simp] theorem State.countReg_memh (a : Nat) : (s.countReg a).memh = s.memh := (rfl)
@[simp] theorem State.countReg_omt (a : Nat) : (s.countReg a).omt = s.omt := (rfl)
@[simp] theorem State.countReg_vote (a : Nat) : (s.countReg a).vote = s.vote := (rfl)
@[simp] theorem State.countReg_pwr (a : Nat) : (s.countReg a).pwr = s.pwr := (rfl)
@[simp] theorem State.countReg_dbg (a : Nat) : (s.countReg a).dbg = s.dbg := (rfl)
@[simp] theorem State.countReg_dma (a : Nat) : (s.countReg a).dma = s.dma := (rfl)
@[simp] theorem State.countReg_turn (a : Nat) : (s.countReg a).turn = s.turn := (rfl)
@[simp] theorem State.countReg_net (a : Nat) : (s.countReg a).net = s.net := (rfl)
@[simp] theorem State.countReg_host (a : Nat) : (s.countReg a).host = s.host := (rfl)
@[simp] theorem State.countReg_bus (a : Nat) : (s.countReg a).bus = s.bus := (rfl)
@[simp] theorem State.countReg_boot (a : Nat) : (s.countReg a).boot = s.boot := (rfl)
@[simp] theorem State.countReg_byte (a : Nat) (q : Nat) : (s.countReg a).byte q = s.byte q := (rfl)
@[simp] theorem State.countReg_tileOf (a : Nat) (q : Nat) : (s.countReg a).tileOf q = s.tileOf q := (rfl)
@[simp] theorem State.countReg_now (a : Nat) : (s.countReg a).now = s.now := (rfl)

/-! ### setPair -/

@[simp] theorem State.setPair_mem (a n : Nat) : (s.setPair a n).mem = s.mem := (rfl)
@[simp] theorem State.setPair_fresh (a n : Nat) : (s.setPair a n).fresh = s.fresh := (rfl)
@[simp] theorem State.setPair_pending (a n : Nat) : (s.setPair a n).pending = s.pending := (rfl)
@[simp] theorem State.setPair_inv (a n : Nat) : (s.setPair a n).inv = s.inv := (rfl)
@[simp] theorem State.setPair_clk (a n : Nat) : (s.setPair a n).clk = s.clk := (rfl)
@[simp] theorem State.setPair_tt (a n : Nat) : (s.setPair a n).tt = s.tt := (rfl)
@[simp] theorem State.setPair_flt (a n : Nat) : (s.setPair a n).flt = s.flt := (rfl)
@[simp] theorem State.setPair_edg (a n : Nat) : (s.setPair a n).edg = s.edg := (rfl)
@[simp] theorem State.setPair_ball (a n : Nat) : (s.setPair a n).ball = s.ball := (rfl)
@[simp] theorem State.setPair_fnIn (a n : Nat) : (s.setPair a n).fnIn = s.fnIn := (rfl)
@[simp] theorem State.setPair_tiles (a n : Nat) : (s.setPair a n).tiles = s.tiles := (rfl)
@[simp] theorem State.setPair_adc (a n : Nat) : (s.setPair a n).adc = s.adc := (rfl)
@[simp] theorem State.setPair_data (a n : Nat) : (s.setPair a n).data = s.data := (rfl)
@[simp] theorem State.setPair_memh (a n : Nat) : (s.setPair a n).memh = s.memh := (rfl)
@[simp] theorem State.setPair_omt (a n : Nat) : (s.setPair a n).omt = s.omt := (rfl)
@[simp] theorem State.setPair_vote (a n : Nat) : (s.setPair a n).vote = s.vote := (rfl)
@[simp] theorem State.setPair_pwr (a n : Nat) : (s.setPair a n).pwr = s.pwr := (rfl)
@[simp] theorem State.setPair_dbg (a n : Nat) : (s.setPair a n).dbg = s.dbg := (rfl)
@[simp] theorem State.setPair_dma (a n : Nat) : (s.setPair a n).dma = s.dma := (rfl)
@[simp] theorem State.setPair_turn (a n : Nat) : (s.setPair a n).turn = s.turn := (rfl)
@[simp] theorem State.setPair_net (a n : Nat) : (s.setPair a n).net = s.net := (rfl)
@[simp] theorem State.setPair_host (a n : Nat) : (s.setPair a n).host = s.host := (rfl)
@[simp] theorem State.setPair_bus (a n : Nat) : (s.setPair a n).bus = s.bus := (rfl)
@[simp] theorem State.setPair_boot (a n : Nat) : (s.setPair a n).boot = s.boot := (rfl)
@[simp] theorem State.setPair_byte (a n : Nat) (q : Nat) : (s.setPair a n).byte q = s.byte q := (rfl)
@[simp] theorem State.setPair_tileOf (a n : Nat) (q : Nat) : (s.setPair a n).tileOf q = s.tileOf q := (rfl)
@[simp] theorem State.setPair_now (a n : Nat) : (s.setPair a n).now = s.now := (rfl)

/-! ### resetRegs -/

@[simp] theorem State.resetRegs_mem (p : Nat → Bool) : (s.resetRegs p).mem = s.mem := (rfl)
@[simp] theorem State.resetRegs_fresh (p : Nat → Bool) : (s.resetRegs p).fresh = s.fresh := (rfl)
@[simp] theorem State.resetRegs_pending (p : Nat → Bool) : (s.resetRegs p).pending = s.pending := (rfl)
@[simp] theorem State.resetRegs_inv (p : Nat → Bool) : (s.resetRegs p).inv = s.inv := (rfl)
@[simp] theorem State.resetRegs_clk (p : Nat → Bool) : (s.resetRegs p).clk = s.clk := (rfl)
@[simp] theorem State.resetRegs_tt (p : Nat → Bool) : (s.resetRegs p).tt = s.tt := (rfl)
@[simp] theorem State.resetRegs_flt (p : Nat → Bool) : (s.resetRegs p).flt = s.flt := (rfl)
@[simp] theorem State.resetRegs_edg (p : Nat → Bool) : (s.resetRegs p).edg = s.edg := (rfl)
@[simp] theorem State.resetRegs_ball (p : Nat → Bool) : (s.resetRegs p).ball = s.ball := (rfl)
@[simp] theorem State.resetRegs_fnIn (p : Nat → Bool) : (s.resetRegs p).fnIn = s.fnIn := (rfl)
@[simp] theorem State.resetRegs_tiles (p : Nat → Bool) : (s.resetRegs p).tiles = s.tiles := (rfl)
@[simp] theorem State.resetRegs_adc (p : Nat → Bool) : (s.resetRegs p).adc = s.adc := (rfl)
@[simp] theorem State.resetRegs_data (p : Nat → Bool) : (s.resetRegs p).data = s.data := (rfl)
@[simp] theorem State.resetRegs_memh (p : Nat → Bool) : (s.resetRegs p).memh = s.memh := (rfl)
@[simp] theorem State.resetRegs_omt (p : Nat → Bool) : (s.resetRegs p).omt = s.omt := (rfl)
@[simp] theorem State.resetRegs_vote (p : Nat → Bool) : (s.resetRegs p).vote = s.vote := (rfl)
@[simp] theorem State.resetRegs_pwr (p : Nat → Bool) : (s.resetRegs p).pwr = s.pwr := (rfl)
@[simp] theorem State.resetRegs_dbg (p : Nat → Bool) : (s.resetRegs p).dbg = s.dbg := (rfl)
@[simp] theorem State.resetRegs_dma (p : Nat → Bool) : (s.resetRegs p).dma = s.dma := (rfl)
@[simp] theorem State.resetRegs_turn (p : Nat → Bool) : (s.resetRegs p).turn = s.turn := (rfl)
@[simp] theorem State.resetRegs_net (p : Nat → Bool) : (s.resetRegs p).net = s.net := (rfl)
@[simp] theorem State.resetRegs_host (p : Nat → Bool) : (s.resetRegs p).host = s.host := (rfl)
@[simp] theorem State.resetRegs_bus (p : Nat → Bool) : (s.resetRegs p).bus = s.bus := (rfl)
@[simp] theorem State.resetRegs_boot (p : Nat → Bool) : (s.resetRegs p).boot = s.boot := (rfl)
@[simp] theorem State.resetRegs_byte (p : Nat → Bool) (q : Nat) : (s.resetRegs p).byte q = s.byte q := (rfl)
@[simp] theorem State.resetRegs_tileOf (p : Nat → Bool) (q : Nat) : (s.resetRegs p).tileOf q = s.tileOf q := (rfl)
@[simp] theorem State.resetRegs_now (p : Nat → Bool) : (s.resetRegs p).now = s.now := (rfl)

/-! ### setByte -/

@[simp] theorem State.setByte_io (k : Nat) (v : Byte) : (s.setByte k v).io = s.io := (rfl)
@[simp] theorem State.setByte_fresh (k : Nat) (v : Byte) : (s.setByte k v).fresh = s.fresh := (rfl)
@[simp] theorem State.setByte_pending (k : Nat) (v : Byte) : (s.setByte k v).pending = s.pending := (rfl)
@[simp] theorem State.setByte_inv (k : Nat) (v : Byte) : (s.setByte k v).inv = s.inv := (rfl)
@[simp] theorem State.setByte_clk (k : Nat) (v : Byte) : (s.setByte k v).clk = s.clk := (rfl)
@[simp] theorem State.setByte_tt (k : Nat) (v : Byte) : (s.setByte k v).tt = s.tt := (rfl)
@[simp] theorem State.setByte_flt (k : Nat) (v : Byte) : (s.setByte k v).flt = s.flt := (rfl)
@[simp] theorem State.setByte_edg (k : Nat) (v : Byte) : (s.setByte k v).edg = s.edg := (rfl)
@[simp] theorem State.setByte_ball (k : Nat) (v : Byte) : (s.setByte k v).ball = s.ball := (rfl)
@[simp] theorem State.setByte_fnIn (k : Nat) (v : Byte) : (s.setByte k v).fnIn = s.fnIn := (rfl)
@[simp] theorem State.setByte_tiles (k : Nat) (v : Byte) : (s.setByte k v).tiles = s.tiles := (rfl)
@[simp] theorem State.setByte_adc (k : Nat) (v : Byte) : (s.setByte k v).adc = s.adc := (rfl)
@[simp] theorem State.setByte_data (k : Nat) (v : Byte) : (s.setByte k v).data = s.data := (rfl)
@[simp] theorem State.setByte_memh (k : Nat) (v : Byte) : (s.setByte k v).memh = s.memh := (rfl)
@[simp] theorem State.setByte_omt (k : Nat) (v : Byte) : (s.setByte k v).omt = s.omt := (rfl)
@[simp] theorem State.setByte_vote (k : Nat) (v : Byte) : (s.setByte k v).vote = s.vote := (rfl)
@[simp] theorem State.setByte_pwr (k : Nat) (v : Byte) : (s.setByte k v).pwr = s.pwr := (rfl)
@[simp] theorem State.setByte_dbg (k : Nat) (v : Byte) : (s.setByte k v).dbg = s.dbg := (rfl)
@[simp] theorem State.setByte_dma (k : Nat) (v : Byte) : (s.setByte k v).dma = s.dma := (rfl)
@[simp] theorem State.setByte_turn (k : Nat) (v : Byte) : (s.setByte k v).turn = s.turn := (rfl)
@[simp] theorem State.setByte_net (k : Nat) (v : Byte) : (s.setByte k v).net = s.net := (rfl)
@[simp] theorem State.setByte_host (k : Nat) (v : Byte) : (s.setByte k v).host = s.host := (rfl)
@[simp] theorem State.setByte_bus (k : Nat) (v : Byte) : (s.setByte k v).bus = s.bus := (rfl)
@[simp] theorem State.setByte_boot (k : Nat) (v : Byte) : (s.setByte k v).boot = s.boot := (rfl)
@[simp] theorem State.setByte_reg (k : Nat) (v : Byte) (q : Nat) : (s.setByte k v).reg q = s.reg q := (rfl)
@[simp] theorem State.setByte_get (k : Nat) (v : Byte) (q : Fld) : (s.setByte k v).get q = s.get q := (rfl)
@[simp] theorem State.setByte_tileOf (k : Nat) (v : Byte) (q : Nat) : (s.setByte k v).tileOf q = s.tileOf q := (rfl)
@[simp] theorem State.setByte_now (k : Nat) (v : Byte) : (s.setByte k v).now = s.now := (rfl)

/-! ### clearMem -/

@[simp] theorem State.clearMem_io (lo hi : Nat) : (s.clearMem lo hi).io = s.io := (rfl)
@[simp] theorem State.clearMem_fresh (lo hi : Nat) : (s.clearMem lo hi).fresh = s.fresh := (rfl)
@[simp] theorem State.clearMem_pending (lo hi : Nat) : (s.clearMem lo hi).pending = s.pending := (rfl)
@[simp] theorem State.clearMem_inv (lo hi : Nat) : (s.clearMem lo hi).inv = s.inv := (rfl)
@[simp] theorem State.clearMem_clk (lo hi : Nat) : (s.clearMem lo hi).clk = s.clk := (rfl)
@[simp] theorem State.clearMem_tt (lo hi : Nat) : (s.clearMem lo hi).tt = s.tt := (rfl)
@[simp] theorem State.clearMem_flt (lo hi : Nat) : (s.clearMem lo hi).flt = s.flt := (rfl)
@[simp] theorem State.clearMem_edg (lo hi : Nat) : (s.clearMem lo hi).edg = s.edg := (rfl)
@[simp] theorem State.clearMem_ball (lo hi : Nat) : (s.clearMem lo hi).ball = s.ball := (rfl)
@[simp] theorem State.clearMem_fnIn (lo hi : Nat) : (s.clearMem lo hi).fnIn = s.fnIn := (rfl)
@[simp] theorem State.clearMem_tiles (lo hi : Nat) : (s.clearMem lo hi).tiles = s.tiles := (rfl)
@[simp] theorem State.clearMem_adc (lo hi : Nat) : (s.clearMem lo hi).adc = s.adc := (rfl)
@[simp] theorem State.clearMem_data (lo hi : Nat) : (s.clearMem lo hi).data = s.data := (rfl)
@[simp] theorem State.clearMem_memh (lo hi : Nat) : (s.clearMem lo hi).memh = s.memh := (rfl)
@[simp] theorem State.clearMem_omt (lo hi : Nat) : (s.clearMem lo hi).omt = s.omt := (rfl)
@[simp] theorem State.clearMem_vote (lo hi : Nat) : (s.clearMem lo hi).vote = s.vote := (rfl)
@[simp] theorem State.clearMem_pwr (lo hi : Nat) : (s.clearMem lo hi).pwr = s.pwr := (rfl)
@[simp] theorem State.clearMem_dbg (lo hi : Nat) : (s.clearMem lo hi).dbg = s.dbg := (rfl)
@[simp] theorem State.clearMem_dma (lo hi : Nat) : (s.clearMem lo hi).dma = s.dma := (rfl)
@[simp] theorem State.clearMem_turn (lo hi : Nat) : (s.clearMem lo hi).turn = s.turn := (rfl)
@[simp] theorem State.clearMem_net (lo hi : Nat) : (s.clearMem lo hi).net = s.net := (rfl)
@[simp] theorem State.clearMem_host (lo hi : Nat) : (s.clearMem lo hi).host = s.host := (rfl)
@[simp] theorem State.clearMem_bus (lo hi : Nat) : (s.clearMem lo hi).bus = s.bus := (rfl)
@[simp] theorem State.clearMem_boot (lo hi : Nat) : (s.clearMem lo hi).boot = s.boot := (rfl)
@[simp] theorem State.clearMem_reg (lo hi : Nat) (q : Nat) : (s.clearMem lo hi).reg q = s.reg q := (rfl)
@[simp] theorem State.clearMem_get (lo hi : Nat) (q : Fld) : (s.clearMem lo hi).get q = s.get q := (rfl)
@[simp] theorem State.clearMem_tileOf (lo hi : Nat) (q : Nat) : (s.clearMem lo hi).tileOf q = s.tileOf q := (rfl)
@[simp] theorem State.clearMem_now (lo hi : Nat) : (s.clearMem lo hi).now = s.now := (rfl)

/-! ### drawn -/

@[simp] theorem State.drawn_io : (s.drawn).io = s.io := (rfl)
@[simp] theorem State.drawn_mem : (s.drawn).mem = s.mem := (rfl)
@[simp] theorem State.drawn_pending : (s.drawn).pending = s.pending := (rfl)
@[simp] theorem State.drawn_inv : (s.drawn).inv = s.inv := (rfl)
@[simp] theorem State.drawn_clk : (s.drawn).clk = s.clk := (rfl)
@[simp] theorem State.drawn_tt : (s.drawn).tt = s.tt := (rfl)
@[simp] theorem State.drawn_flt : (s.drawn).flt = s.flt := (rfl)
@[simp] theorem State.drawn_edg : (s.drawn).edg = s.edg := (rfl)
@[simp] theorem State.drawn_ball : (s.drawn).ball = s.ball := (rfl)
@[simp] theorem State.drawn_fnIn : (s.drawn).fnIn = s.fnIn := (rfl)
@[simp] theorem State.drawn_tiles : (s.drawn).tiles = s.tiles := (rfl)
@[simp] theorem State.drawn_adc : (s.drawn).adc = s.adc := (rfl)
@[simp] theorem State.drawn_data : (s.drawn).data = s.data := (rfl)
@[simp] theorem State.drawn_memh : (s.drawn).memh = s.memh := (rfl)
@[simp] theorem State.drawn_omt : (s.drawn).omt = s.omt := (rfl)
@[simp] theorem State.drawn_vote : (s.drawn).vote = s.vote := (rfl)
@[simp] theorem State.drawn_pwr : (s.drawn).pwr = s.pwr := (rfl)
@[simp] theorem State.drawn_dbg : (s.drawn).dbg = s.dbg := (rfl)
@[simp] theorem State.drawn_dma : (s.drawn).dma = s.dma := (rfl)
@[simp] theorem State.drawn_turn : (s.drawn).turn = s.turn := (rfl)
@[simp] theorem State.drawn_net : (s.drawn).net = s.net := (rfl)
@[simp] theorem State.drawn_host : (s.drawn).host = s.host := (rfl)
@[simp] theorem State.drawn_bus : (s.drawn).bus = s.bus := (rfl)
@[simp] theorem State.drawn_boot : (s.drawn).boot = s.boot := (rfl)
@[simp] theorem State.drawn_reg (q : Nat) : (s.drawn).reg q = s.reg q := (rfl)
@[simp] theorem State.drawn_get (q : Fld) : (s.drawn).get q = s.get q := (rfl)
@[simp] theorem State.drawn_byte (q : Nat) : (s.drawn).byte q = s.byte q := (rfl)
@[simp] theorem State.drawn_tileOf (q : Nat) : (s.drawn).tileOf q = s.tileOf q := (rfl)
@[simp] theorem State.drawn_now : (s.drawn).now = s.now := (rfl)

/-! ### withClk -/

@[simp] theorem State.withClk_io (c : ClkH) : (s.withClk c).io = s.io := (rfl)
@[simp] theorem State.withClk_mem (c : ClkH) : (s.withClk c).mem = s.mem := (rfl)
@[simp] theorem State.withClk_fresh (c : ClkH) : (s.withClk c).fresh = s.fresh := (rfl)
@[simp] theorem State.withClk_pending (c : ClkH) : (s.withClk c).pending = s.pending := (rfl)
@[simp] theorem State.withClk_inv (c : ClkH) : (s.withClk c).inv = s.inv := (rfl)
@[simp] theorem State.withClk_tt (c : ClkH) : (s.withClk c).tt = s.tt := (rfl)
@[simp] theorem State.withClk_flt (c : ClkH) : (s.withClk c).flt = s.flt := (rfl)
@[simp] theorem State.withClk_edg (c : ClkH) : (s.withClk c).edg = s.edg := (rfl)
@[simp] theorem State.withClk_ball (c : ClkH) : (s.withClk c).ball = s.ball := (rfl)
@[simp] theorem State.withClk_fnIn (c : ClkH) : (s.withClk c).fnIn = s.fnIn := (rfl)
@[simp] theorem State.withClk_tiles (c : ClkH) : (s.withClk c).tiles = s.tiles := (rfl)
@[simp] theorem State.withClk_adc (c : ClkH) : (s.withClk c).adc = s.adc := (rfl)
@[simp] theorem State.withClk_data (c : ClkH) : (s.withClk c).data = s.data := (rfl)
@[simp] theorem State.withClk_memh (c : ClkH) : (s.withClk c).memh = s.memh := (rfl)
@[simp] theorem State.withClk_omt (c : ClkH) : (s.withClk c).omt = s.omt := (rfl)
@[simp] theorem State.withClk_vote (c : ClkH) : (s.withClk c).vote = s.vote := (rfl)
@[simp] theorem State.withClk_pwr (c : ClkH) : (s.withClk c).pwr = s.pwr := (rfl)
@[simp] theorem State.withClk_dbg (c : ClkH) : (s.withClk c).dbg = s.dbg := (rfl)
@[simp] theorem State.withClk_dma (c : ClkH) : (s.withClk c).dma = s.dma := (rfl)
@[simp] theorem State.withClk_turn (c : ClkH) : (s.withClk c).turn = s.turn := (rfl)
@[simp] theorem State.withClk_net (c : ClkH) : (s.withClk c).net = s.net := (rfl)
@[simp] theorem State.withClk_host (c : ClkH) : (s.withClk c).host = s.host := (rfl)
@[simp] theorem State.withClk_bus (c : ClkH) : (s.withClk c).bus = s.bus := (rfl)
@[simp] theorem State.withClk_boot (c : ClkH) : (s.withClk c).boot = s.boot := (rfl)
@[simp] theorem State.withClk_reg (c : ClkH) (q : Nat) : (s.withClk c).reg q = s.reg q := (rfl)
@[simp] theorem State.withClk_get (c : ClkH) (q : Fld) : (s.withClk c).get q = s.get q := (rfl)
@[simp] theorem State.withClk_byte (c : ClkH) (q : Nat) : (s.withClk c).byte q = s.byte q := (rfl)
@[simp] theorem State.withClk_tileOf (c : ClkH) (q : Nat) : (s.withClk c).tileOf q = s.tileOf q := (rfl)
@[simp] theorem State.withClk_now (c : ClkH) : (s.withClk c).now = s.now := (rfl)

/-! ### withTt -/

@[simp] theorem State.withTt_io (c : TtH) : (s.withTt c).io = s.io := (rfl)
@[simp] theorem State.withTt_mem (c : TtH) : (s.withTt c).mem = s.mem := (rfl)
@[simp] theorem State.withTt_fresh (c : TtH) : (s.withTt c).fresh = s.fresh := (rfl)
@[simp] theorem State.withTt_pending (c : TtH) : (s.withTt c).pending = s.pending := (rfl)
@[simp] theorem State.withTt_inv (c : TtH) : (s.withTt c).inv = s.inv := (rfl)
@[simp] theorem State.withTt_clk (c : TtH) : (s.withTt c).clk = s.clk := (rfl)
@[simp] theorem State.withTt_flt (c : TtH) : (s.withTt c).flt = s.flt := (rfl)
@[simp] theorem State.withTt_edg (c : TtH) : (s.withTt c).edg = s.edg := (rfl)
@[simp] theorem State.withTt_ball (c : TtH) : (s.withTt c).ball = s.ball := (rfl)
@[simp] theorem State.withTt_fnIn (c : TtH) : (s.withTt c).fnIn = s.fnIn := (rfl)
@[simp] theorem State.withTt_tiles (c : TtH) : (s.withTt c).tiles = s.tiles := (rfl)
@[simp] theorem State.withTt_adc (c : TtH) : (s.withTt c).adc = s.adc := (rfl)
@[simp] theorem State.withTt_data (c : TtH) : (s.withTt c).data = s.data := (rfl)
@[simp] theorem State.withTt_memh (c : TtH) : (s.withTt c).memh = s.memh := (rfl)
@[simp] theorem State.withTt_omt (c : TtH) : (s.withTt c).omt = s.omt := (rfl)
@[simp] theorem State.withTt_vote (c : TtH) : (s.withTt c).vote = s.vote := (rfl)
@[simp] theorem State.withTt_pwr (c : TtH) : (s.withTt c).pwr = s.pwr := (rfl)
@[simp] theorem State.withTt_dbg (c : TtH) : (s.withTt c).dbg = s.dbg := (rfl)
@[simp] theorem State.withTt_dma (c : TtH) : (s.withTt c).dma = s.dma := (rfl)
@[simp] theorem State.withTt_turn (c : TtH) : (s.withTt c).turn = s.turn := (rfl)
@[simp] theorem State.withTt_net (c : TtH) : (s.withTt c).net = s.net := (rfl)
@[simp] theorem State.withTt_host (c : TtH) : (s.withTt c).host = s.host := (rfl)
@[simp] theorem State.withTt_bus (c : TtH) : (s.withTt c).bus = s.bus := (rfl)
@[simp] theorem State.withTt_boot (c : TtH) : (s.withTt c).boot = s.boot := (rfl)
@[simp] theorem State.withTt_reg (c : TtH) (q : Nat) : (s.withTt c).reg q = s.reg q := (rfl)
@[simp] theorem State.withTt_get (c : TtH) (q : Fld) : (s.withTt c).get q = s.get q := (rfl)
@[simp] theorem State.withTt_byte (c : TtH) (q : Nat) : (s.withTt c).byte q = s.byte q := (rfl)
@[simp] theorem State.withTt_tileOf (c : TtH) (q : Nat) : (s.withTt c).tileOf q = s.tileOf q := (rfl)

/-! ### modTile -/

@[simp] theorem State.modTile_io (t : Nat) (f : Tile → Tile) : (s.modTile t f).io = s.io := (rfl)
@[simp] theorem State.modTile_mem (t : Nat) (f : Tile → Tile) : (s.modTile t f).mem = s.mem := (rfl)
@[simp] theorem State.modTile_fresh (t : Nat) (f : Tile → Tile) : (s.modTile t f).fresh = s.fresh := (rfl)
@[simp] theorem State.modTile_pending (t : Nat) (f : Tile → Tile) : (s.modTile t f).pending = s.pending := (rfl)
@[simp] theorem State.modTile_inv (t : Nat) (f : Tile → Tile) : (s.modTile t f).inv = s.inv := (rfl)
@[simp] theorem State.modTile_clk (t : Nat) (f : Tile → Tile) : (s.modTile t f).clk = s.clk := (rfl)
@[simp] theorem State.modTile_tt (t : Nat) (f : Tile → Tile) : (s.modTile t f).tt = s.tt := (rfl)
@[simp] theorem State.modTile_flt (t : Nat) (f : Tile → Tile) : (s.modTile t f).flt = s.flt := (rfl)
@[simp] theorem State.modTile_edg (t : Nat) (f : Tile → Tile) : (s.modTile t f).edg = s.edg := (rfl)
@[simp] theorem State.modTile_ball (t : Nat) (f : Tile → Tile) : (s.modTile t f).ball = s.ball := (rfl)
@[simp] theorem State.modTile_fnIn (t : Nat) (f : Tile → Tile) : (s.modTile t f).fnIn = s.fnIn := (rfl)
@[simp] theorem State.modTile_adc (t : Nat) (f : Tile → Tile) : (s.modTile t f).adc = s.adc := (rfl)
@[simp] theorem State.modTile_data (t : Nat) (f : Tile → Tile) : (s.modTile t f).data = s.data := (rfl)
@[simp] theorem State.modTile_memh (t : Nat) (f : Tile → Tile) : (s.modTile t f).memh = s.memh := (rfl)
@[simp] theorem State.modTile_omt (t : Nat) (f : Tile → Tile) : (s.modTile t f).omt = s.omt := (rfl)
@[simp] theorem State.modTile_vote (t : Nat) (f : Tile → Tile) : (s.modTile t f).vote = s.vote := (rfl)
@[simp] theorem State.modTile_pwr (t : Nat) (f : Tile → Tile) : (s.modTile t f).pwr = s.pwr := (rfl)
@[simp] theorem State.modTile_dbg (t : Nat) (f : Tile → Tile) : (s.modTile t f).dbg = s.dbg := (rfl)
@[simp] theorem State.modTile_dma (t : Nat) (f : Tile → Tile) : (s.modTile t f).dma = s.dma := (rfl)
@[simp] theorem State.modTile_turn (t : Nat) (f : Tile → Tile) : (s.modTile t f).turn = s.turn := (rfl)
@[simp] theorem State.modTile_net (t : Nat) (f : Tile → Tile) : (s.modTile t f).net = s.net := (rfl)
@[simp] theorem State.modTile_host (t : Nat) (f : Tile → Tile) : (s.modTile t f).host = s.host := (rfl)
@[simp] theorem State.modTile_bus (t : Nat) (f : Tile → Tile) : (s.modTile t f).bus = s.bus := (rfl)
@[simp] theorem State.modTile_boot (t : Nat) (f : Tile → Tile) : (s.modTile t f).boot = s.boot := (rfl)
@[simp] theorem State.modTile_reg (t : Nat) (f : Tile → Tile) (q : Nat) : (s.modTile t f).reg q = s.reg q := (rfl)
@[simp] theorem State.modTile_get (t : Nat) (f : Tile → Tile) (q : Fld) : (s.modTile t f).get q = s.get q := (rfl)
@[simp] theorem State.modTile_byte (t : Nat) (f : Tile → Tile) (q : Nat) : (s.modTile t f).byte q = s.byte q := (rfl)
@[simp] theorem State.modTile_now (t : Nat) (f : Tile → Tile) : (s.modTile t f).now = s.now := (rfl)

/-! ### modEdg -/

@[simp] theorem State.modEdg_io (e : Nat) (f : EdgH → EdgH) : (s.modEdg e f).io = s.io := (rfl)
@[simp] theorem State.modEdg_mem (e : Nat) (f : EdgH → EdgH) : (s.modEdg e f).mem = s.mem := (rfl)
@[simp] theorem State.modEdg_fresh (e : Nat) (f : EdgH → EdgH) : (s.modEdg e f).fresh = s.fresh := (rfl)
@[simp] theorem State.modEdg_pending (e : Nat) (f : EdgH → EdgH) : (s.modEdg e f).pending = s.pending := (rfl)
@[simp] theorem State.modEdg_inv (e : Nat) (f : EdgH → EdgH) : (s.modEdg e f).inv = s.inv := (rfl)
@[simp] theorem State.modEdg_clk (e : Nat) (f : EdgH → EdgH) : (s.modEdg e f).clk = s.clk := (rfl)
@[simp] theorem State.modEdg_tt (e : Nat) (f : EdgH → EdgH) : (s.modEdg e f).tt = s.tt := (rfl)
@[simp] theorem State.modEdg_flt (e : Nat) (f : EdgH → EdgH) : (s.modEdg e f).flt = s.flt := (rfl)
@[simp] theorem State.modEdg_ball (e : Nat) (f : EdgH → EdgH) : (s.modEdg e f).ball = s.ball := (rfl)
@[simp] theorem State.modEdg_fnIn (e : Nat) (f : EdgH → EdgH) : (s.modEdg e f).fnIn = s.fnIn := (rfl)
@[simp] theorem State.modEdg_tiles (e : Nat) (f : EdgH → EdgH) : (s.modEdg e f).tiles = s.tiles := (rfl)
@[simp] theorem State.modEdg_adc (e : Nat) (f : EdgH → EdgH) : (s.modEdg e f).adc = s.adc := (rfl)
@[simp] theorem State.modEdg_data (e : Nat) (f : EdgH → EdgH) : (s.modEdg e f).data = s.data := (rfl)
@[simp] theorem State.modEdg_memh (e : Nat) (f : EdgH → EdgH) : (s.modEdg e f).memh = s.memh := (rfl)
@[simp] theorem State.modEdg_omt (e : Nat) (f : EdgH → EdgH) : (s.modEdg e f).omt = s.omt := (rfl)
@[simp] theorem State.modEdg_vote (e : Nat) (f : EdgH → EdgH) : (s.modEdg e f).vote = s.vote := (rfl)
@[simp] theorem State.modEdg_pwr (e : Nat) (f : EdgH → EdgH) : (s.modEdg e f).pwr = s.pwr := (rfl)
@[simp] theorem State.modEdg_dbg (e : Nat) (f : EdgH → EdgH) : (s.modEdg e f).dbg = s.dbg := (rfl)
@[simp] theorem State.modEdg_dma (e : Nat) (f : EdgH → EdgH) : (s.modEdg e f).dma = s.dma := (rfl)
@[simp] theorem State.modEdg_turn (e : Nat) (f : EdgH → EdgH) : (s.modEdg e f).turn = s.turn := (rfl)
@[simp] theorem State.modEdg_net (e : Nat) (f : EdgH → EdgH) : (s.modEdg e f).net = s.net := (rfl)
@[simp] theorem State.modEdg_host (e : Nat) (f : EdgH → EdgH) : (s.modEdg e f).host = s.host := (rfl)
@[simp] theorem State.modEdg_bus (e : Nat) (f : EdgH → EdgH) : (s.modEdg e f).bus = s.bus := (rfl)
@[simp] theorem State.modEdg_boot (e : Nat) (f : EdgH → EdgH) : (s.modEdg e f).boot = s.boot := (rfl)
@[simp] theorem State.modEdg_reg (e : Nat) (f : EdgH → EdgH) (q : Nat) : (s.modEdg e f).reg q = s.reg q := (rfl)
@[simp] theorem State.modEdg_get (e : Nat) (f : EdgH → EdgH) (q : Fld) : (s.modEdg e f).get q = s.get q := (rfl)
@[simp] theorem State.modEdg_byte (e : Nat) (f : EdgH → EdgH) (q : Nat) : (s.modEdg e f).byte q = s.byte q := (rfl)
@[simp] theorem State.modEdg_tileOf (e : Nat) (f : EdgH → EdgH) (q : Nat) : (s.modEdg e f).tileOf q = s.tileOf q := (rfl)
@[simp] theorem State.modEdg_now (e : Nat) (f : EdgH → EdgH) : (s.modEdg e f).now = s.now := (rfl)

/-! ### modBall -/

@[simp] theorem State.modBall_io (n : Nat) (f : BallH → BallH) : (s.modBall n f).io = s.io := (rfl)
@[simp] theorem State.modBall_mem (n : Nat) (f : BallH → BallH) : (s.modBall n f).mem = s.mem := (rfl)
@[simp] theorem State.modBall_fresh (n : Nat) (f : BallH → BallH) : (s.modBall n f).fresh = s.fresh := (rfl)
@[simp] theorem State.modBall_pending (n : Nat) (f : BallH → BallH) : (s.modBall n f).pending = s.pending := (rfl)
@[simp] theorem State.modBall_inv (n : Nat) (f : BallH → BallH) : (s.modBall n f).inv = s.inv := (rfl)
@[simp] theorem State.modBall_clk (n : Nat) (f : BallH → BallH) : (s.modBall n f).clk = s.clk := (rfl)
@[simp] theorem State.modBall_tt (n : Nat) (f : BallH → BallH) : (s.modBall n f).tt = s.tt := (rfl)
@[simp] theorem State.modBall_flt (n : Nat) (f : BallH → BallH) : (s.modBall n f).flt = s.flt := (rfl)
@[simp] theorem State.modBall_edg (n : Nat) (f : BallH → BallH) : (s.modBall n f).edg = s.edg := (rfl)
@[simp] theorem State.modBall_fnIn (n : Nat) (f : BallH → BallH) : (s.modBall n f).fnIn = s.fnIn := (rfl)
@[simp] theorem State.modBall_tiles (n : Nat) (f : BallH → BallH) : (s.modBall n f).tiles = s.tiles := (rfl)
@[simp] theorem State.modBall_adc (n : Nat) (f : BallH → BallH) : (s.modBall n f).adc = s.adc := (rfl)
@[simp] theorem State.modBall_data (n : Nat) (f : BallH → BallH) : (s.modBall n f).data = s.data := (rfl)
@[simp] theorem State.modBall_memh (n : Nat) (f : BallH → BallH) : (s.modBall n f).memh = s.memh := (rfl)
@[simp] theorem State.modBall_omt (n : Nat) (f : BallH → BallH) : (s.modBall n f).omt = s.omt := (rfl)
@[simp] theorem State.modBall_vote (n : Nat) (f : BallH → BallH) : (s.modBall n f).vote = s.vote := (rfl)
@[simp] theorem State.modBall_pwr (n : Nat) (f : BallH → BallH) : (s.modBall n f).pwr = s.pwr := (rfl)
@[simp] theorem State.modBall_dbg (n : Nat) (f : BallH → BallH) : (s.modBall n f).dbg = s.dbg := (rfl)
@[simp] theorem State.modBall_dma (n : Nat) (f : BallH → BallH) : (s.modBall n f).dma = s.dma := (rfl)
@[simp] theorem State.modBall_turn (n : Nat) (f : BallH → BallH) : (s.modBall n f).turn = s.turn := (rfl)
@[simp] theorem State.modBall_net (n : Nat) (f : BallH → BallH) : (s.modBall n f).net = s.net := (rfl)
@[simp] theorem State.modBall_host (n : Nat) (f : BallH → BallH) : (s.modBall n f).host = s.host := (rfl)
@[simp] theorem State.modBall_bus (n : Nat) (f : BallH → BallH) : (s.modBall n f).bus = s.bus := (rfl)
@[simp] theorem State.modBall_boot (n : Nat) (f : BallH → BallH) : (s.modBall n f).boot = s.boot := (rfl)
@[simp] theorem State.modBall_reg (n : Nat) (f : BallH → BallH) (q : Nat) : (s.modBall n f).reg q = s.reg q := (rfl)
@[simp] theorem State.modBall_get (n : Nat) (f : BallH → BallH) (q : Fld) : (s.modBall n f).get q = s.get q := (rfl)
@[simp] theorem State.modBall_byte (n : Nat) (f : BallH → BallH) (q : Nat) : (s.modBall n f).byte q = s.byte q := (rfl)
@[simp] theorem State.modBall_tileOf (n : Nat) (f : BallH → BallH) (q : Nat) : (s.modBall n f).tileOf q = s.tileOf q := (rfl)
@[simp] theorem State.modBall_now (n : Nat) (f : BallH → BallH) : (s.modBall n f).now = s.now := (rfl)

/-! ### modAdc -/

@[simp] theorem State.modAdc_io (c x : Nat) (f : AdcH → AdcH) : (s.modAdc c x f).io = s.io := (rfl)
@[simp] theorem State.modAdc_mem (c x : Nat) (f : AdcH → AdcH) : (s.modAdc c x f).mem = s.mem := (rfl)
@[simp] theorem State.modAdc_fresh (c x : Nat) (f : AdcH → AdcH) : (s.modAdc c x f).fresh = s.fresh := (rfl)
@[simp] theorem State.modAdc_pending (c x : Nat) (f : AdcH → AdcH) : (s.modAdc c x f).pending = s.pending := (rfl)
@[simp] theorem State.modAdc_inv (c x : Nat) (f : AdcH → AdcH) : (s.modAdc c x f).inv = s.inv := (rfl)
@[simp] theorem State.modAdc_clk (c x : Nat) (f : AdcH → AdcH) : (s.modAdc c x f).clk = s.clk := (rfl)
@[simp] theorem State.modAdc_tt (c x : Nat) (f : AdcH → AdcH) : (s.modAdc c x f).tt = s.tt := (rfl)
@[simp] theorem State.modAdc_flt (c x : Nat) (f : AdcH → AdcH) : (s.modAdc c x f).flt = s.flt := (rfl)
@[simp] theorem State.modAdc_edg (c x : Nat) (f : AdcH → AdcH) : (s.modAdc c x f).edg = s.edg := (rfl)
@[simp] theorem State.modAdc_ball (c x : Nat) (f : AdcH → AdcH) : (s.modAdc c x f).ball = s.ball := (rfl)
@[simp] theorem State.modAdc_fnIn (c x : Nat) (f : AdcH → AdcH) : (s.modAdc c x f).fnIn = s.fnIn := (rfl)
@[simp] theorem State.modAdc_tiles (c x : Nat) (f : AdcH → AdcH) : (s.modAdc c x f).tiles = s.tiles := (rfl)
@[simp] theorem State.modAdc_data (c x : Nat) (f : AdcH → AdcH) : (s.modAdc c x f).data = s.data := (rfl)
@[simp] theorem State.modAdc_memh (c x : Nat) (f : AdcH → AdcH) : (s.modAdc c x f).memh = s.memh := (rfl)
@[simp] theorem State.modAdc_omt (c x : Nat) (f : AdcH → AdcH) : (s.modAdc c x f).omt = s.omt := (rfl)
@[simp] theorem State.modAdc_vote (c x : Nat) (f : AdcH → AdcH) : (s.modAdc c x f).vote = s.vote := (rfl)
@[simp] theorem State.modAdc_pwr (c x : Nat) (f : AdcH → AdcH) : (s.modAdc c x f).pwr = s.pwr := (rfl)
@[simp] theorem State.modAdc_dbg (c x : Nat) (f : AdcH → AdcH) : (s.modAdc c x f).dbg = s.dbg := (rfl)
@[simp] theorem State.modAdc_dma (c x : Nat) (f : AdcH → AdcH) : (s.modAdc c x f).dma = s.dma := (rfl)
@[simp] theorem State.modAdc_turn (c x : Nat) (f : AdcH → AdcH) : (s.modAdc c x f).turn = s.turn := (rfl)
@[simp] theorem State.modAdc_net (c x : Nat) (f : AdcH → AdcH) : (s.modAdc c x f).net = s.net := (rfl)
@[simp] theorem State.modAdc_host (c x : Nat) (f : AdcH → AdcH) : (s.modAdc c x f).host = s.host := (rfl)
@[simp] theorem State.modAdc_bus (c x : Nat) (f : AdcH → AdcH) : (s.modAdc c x f).bus = s.bus := (rfl)
@[simp] theorem State.modAdc_boot (c x : Nat) (f : AdcH → AdcH) : (s.modAdc c x f).boot = s.boot := (rfl)
@[simp] theorem State.modAdc_reg (c x : Nat) (f : AdcH → AdcH) (q : Nat) : (s.modAdc c x f).reg q = s.reg q := (rfl)
@[simp] theorem State.modAdc_get (c x : Nat) (f : AdcH → AdcH) (q : Fld) : (s.modAdc c x f).get q = s.get q := (rfl)
@[simp] theorem State.modAdc_byte (c x : Nat) (f : AdcH → AdcH) (q : Nat) : (s.modAdc c x f).byte q = s.byte q := (rfl)
@[simp] theorem State.modAdc_tileOf (c x : Nat) (f : AdcH → AdcH) (q : Nat) : (s.modAdc c x f).tileOf q = s.tileOf q := (rfl)
@[simp] theorem State.modAdc_now (c x : Nat) (f : AdcH → AdcH) : (s.modAdc c x f).now = s.now := (rfl)

/-! ### modDma -/

@[simp] theorem State.modDma_io (d : Nat) (f : DmaH → DmaH) : (s.modDma d f).io = s.io := (rfl)
@[simp] theorem State.modDma_mem (d : Nat) (f : DmaH → DmaH) : (s.modDma d f).mem = s.mem := (rfl)
@[simp] theorem State.modDma_fresh (d : Nat) (f : DmaH → DmaH) : (s.modDma d f).fresh = s.fresh := (rfl)
@[simp] theorem State.modDma_pending (d : Nat) (f : DmaH → DmaH) : (s.modDma d f).pending = s.pending := (rfl)
@[simp] theorem State.modDma_inv (d : Nat) (f : DmaH → DmaH) : (s.modDma d f).inv = s.inv := (rfl)
@[simp] theorem State.modDma_clk (d : Nat) (f : DmaH → DmaH) : (s.modDma d f).clk = s.clk := (rfl)
@[simp] theorem State.modDma_tt (d : Nat) (f : DmaH → DmaH) : (s.modDma d f).tt = s.tt := (rfl)
@[simp] theorem State.modDma_flt (d : Nat) (f : DmaH → DmaH) : (s.modDma d f).flt = s.flt := (rfl)
@[simp] theorem State.modDma_edg (d : Nat) (f : DmaH → DmaH) : (s.modDma d f).edg = s.edg := (rfl)
@[simp] theorem State.modDma_ball (d : Nat) (f : DmaH → DmaH) : (s.modDma d f).ball = s.ball := (rfl)
@[simp] theorem State.modDma_fnIn (d : Nat) (f : DmaH → DmaH) : (s.modDma d f).fnIn = s.fnIn := (rfl)
@[simp] theorem State.modDma_tiles (d : Nat) (f : DmaH → DmaH) : (s.modDma d f).tiles = s.tiles := (rfl)
@[simp] theorem State.modDma_adc (d : Nat) (f : DmaH → DmaH) : (s.modDma d f).adc = s.adc := (rfl)
@[simp] theorem State.modDma_data (d : Nat) (f : DmaH → DmaH) : (s.modDma d f).data = s.data := (rfl)
@[simp] theorem State.modDma_memh (d : Nat) (f : DmaH → DmaH) : (s.modDma d f).memh = s.memh := (rfl)
@[simp] theorem State.modDma_omt (d : Nat) (f : DmaH → DmaH) : (s.modDma d f).omt = s.omt := (rfl)
@[simp] theorem State.modDma_vote (d : Nat) (f : DmaH → DmaH) : (s.modDma d f).vote = s.vote := (rfl)
@[simp] theorem State.modDma_pwr (d : Nat) (f : DmaH → DmaH) : (s.modDma d f).pwr = s.pwr := (rfl)
@[simp] theorem State.modDma_dbg (d : Nat) (f : DmaH → DmaH) : (s.modDma d f).dbg = s.dbg := (rfl)
@[simp] theorem State.modDma_turn (d : Nat) (f : DmaH → DmaH) : (s.modDma d f).turn = s.turn := (rfl)
@[simp] theorem State.modDma_net (d : Nat) (f : DmaH → DmaH) : (s.modDma d f).net = s.net := (rfl)
@[simp] theorem State.modDma_host (d : Nat) (f : DmaH → DmaH) : (s.modDma d f).host = s.host := (rfl)
@[simp] theorem State.modDma_bus (d : Nat) (f : DmaH → DmaH) : (s.modDma d f).bus = s.bus := (rfl)
@[simp] theorem State.modDma_boot (d : Nat) (f : DmaH → DmaH) : (s.modDma d f).boot = s.boot := (rfl)
@[simp] theorem State.modDma_reg (d : Nat) (f : DmaH → DmaH) (q : Nat) : (s.modDma d f).reg q = s.reg q := (rfl)
@[simp] theorem State.modDma_get (d : Nat) (f : DmaH → DmaH) (q : Fld) : (s.modDma d f).get q = s.get q := (rfl)
@[simp] theorem State.modDma_byte (d : Nat) (f : DmaH → DmaH) (q : Nat) : (s.modDma d f).byte q = s.byte q := (rfl)
@[simp] theorem State.modDma_tileOf (d : Nat) (f : DmaH → DmaH) (q : Nat) : (s.modDma d f).tileOf q = s.tileOf q := (rfl)
@[simp] theorem State.modDma_now (d : Nat) (f : DmaH → DmaH) : (s.modDma d f).now = s.now := (rfl)

/-! ### modNet -/

@[simp] theorem State.modNet_io (f : NetH → NetH) : (s.modNet f).io = s.io := (rfl)
@[simp] theorem State.modNet_mem (f : NetH → NetH) : (s.modNet f).mem = s.mem := (rfl)
@[simp] theorem State.modNet_fresh (f : NetH → NetH) : (s.modNet f).fresh = s.fresh := (rfl)
@[simp] theorem State.modNet_pending (f : NetH → NetH) : (s.modNet f).pending = s.pending := (rfl)
@[simp] theorem State.modNet_inv (f : NetH → NetH) : (s.modNet f).inv = s.inv := (rfl)
@[simp] theorem State.modNet_clk (f : NetH → NetH) : (s.modNet f).clk = s.clk := (rfl)
@[simp] theorem State.modNet_tt (f : NetH → NetH) : (s.modNet f).tt = s.tt := (rfl)
@[simp] theorem State.modNet_flt (f : NetH → NetH) : (s.modNet f).flt = s.flt := (rfl)
@[simp] theorem State.modNet_edg (f : NetH → NetH) : (s.modNet f).edg = s.edg := (rfl)
@[simp] theorem State.modNet_ball (f : NetH → NetH) : (s.modNet f).ball = s.ball := (rfl)
@[simp] theorem State.modNet_fnIn (f : NetH → NetH) : (s.modNet f).fnIn = s.fnIn := (rfl)
@[simp] theorem State.modNet_tiles (f : NetH → NetH) : (s.modNet f).tiles = s.tiles := (rfl)
@[simp] theorem State.modNet_adc (f : NetH → NetH) : (s.modNet f).adc = s.adc := (rfl)
@[simp] theorem State.modNet_data (f : NetH → NetH) : (s.modNet f).data = s.data := (rfl)
@[simp] theorem State.modNet_memh (f : NetH → NetH) : (s.modNet f).memh = s.memh := (rfl)
@[simp] theorem State.modNet_omt (f : NetH → NetH) : (s.modNet f).omt = s.omt := (rfl)
@[simp] theorem State.modNet_vote (f : NetH → NetH) : (s.modNet f).vote = s.vote := (rfl)
@[simp] theorem State.modNet_pwr (f : NetH → NetH) : (s.modNet f).pwr = s.pwr := (rfl)
@[simp] theorem State.modNet_dbg (f : NetH → NetH) : (s.modNet f).dbg = s.dbg := (rfl)
@[simp] theorem State.modNet_dma (f : NetH → NetH) : (s.modNet f).dma = s.dma := (rfl)
@[simp] theorem State.modNet_turn (f : NetH → NetH) : (s.modNet f).turn = s.turn := (rfl)
@[simp] theorem State.modNet_host (f : NetH → NetH) : (s.modNet f).host = s.host := (rfl)
@[simp] theorem State.modNet_bus (f : NetH → NetH) : (s.modNet f).bus = s.bus := (rfl)
@[simp] theorem State.modNet_boot (f : NetH → NetH) : (s.modNet f).boot = s.boot := (rfl)
@[simp] theorem State.modNet_reg (f : NetH → NetH) (q : Nat) : (s.modNet f).reg q = s.reg q := (rfl)
@[simp] theorem State.modNet_get (f : NetH → NetH) (q : Fld) : (s.modNet f).get q = s.get q := (rfl)
@[simp] theorem State.modNet_byte (f : NetH → NetH) (q : Nat) : (s.modNet f).byte q = s.byte q := (rfl)
@[simp] theorem State.modNet_tileOf (f : NetH → NetH) (q : Nat) : (s.modNet f).tileOf q = s.tileOf q := (rfl)
@[simp] theorem State.modNet_now (f : NetH → NetH) : (s.modNet f).now = s.now := (rfl)

/-! ### modPort -/

@[simp] theorem State.modPort_io (p : Nat) (f : PortH → PortH) : (s.modPort p f).io = s.io := (rfl)
@[simp] theorem State.modPort_mem (p : Nat) (f : PortH → PortH) : (s.modPort p f).mem = s.mem := (rfl)
@[simp] theorem State.modPort_fresh (p : Nat) (f : PortH → PortH) : (s.modPort p f).fresh = s.fresh := (rfl)
@[simp] theorem State.modPort_pending (p : Nat) (f : PortH → PortH) : (s.modPort p f).pending = s.pending := (rfl)
@[simp] theorem State.modPort_inv (p : Nat) (f : PortH → PortH) : (s.modPort p f).inv = s.inv := (rfl)
@[simp] theorem State.modPort_clk (p : Nat) (f : PortH → PortH) : (s.modPort p f).clk = s.clk := (rfl)
@[simp] theorem State.modPort_tt (p : Nat) (f : PortH → PortH) : (s.modPort p f).tt = s.tt := (rfl)
@[simp] theorem State.modPort_flt (p : Nat) (f : PortH → PortH) : (s.modPort p f).flt = s.flt := (rfl)
@[simp] theorem State.modPort_edg (p : Nat) (f : PortH → PortH) : (s.modPort p f).edg = s.edg := (rfl)
@[simp] theorem State.modPort_ball (p : Nat) (f : PortH → PortH) : (s.modPort p f).ball = s.ball := (rfl)
@[simp] theorem State.modPort_fnIn (p : Nat) (f : PortH → PortH) : (s.modPort p f).fnIn = s.fnIn := (rfl)
@[simp] theorem State.modPort_tiles (p : Nat) (f : PortH → PortH) : (s.modPort p f).tiles = s.tiles := (rfl)
@[simp] theorem State.modPort_adc (p : Nat) (f : PortH → PortH) : (s.modPort p f).adc = s.adc := (rfl)
@[simp] theorem State.modPort_data (p : Nat) (f : PortH → PortH) : (s.modPort p f).data = s.data := (rfl)
@[simp] theorem State.modPort_memh (p : Nat) (f : PortH → PortH) : (s.modPort p f).memh = s.memh := (rfl)
@[simp] theorem State.modPort_omt (p : Nat) (f : PortH → PortH) : (s.modPort p f).omt = s.omt := (rfl)
@[simp] theorem State.modPort_vote (p : Nat) (f : PortH → PortH) : (s.modPort p f).vote = s.vote := (rfl)
@[simp] theorem State.modPort_pwr (p : Nat) (f : PortH → PortH) : (s.modPort p f).pwr = s.pwr := (rfl)
@[simp] theorem State.modPort_dbg (p : Nat) (f : PortH → PortH) : (s.modPort p f).dbg = s.dbg := (rfl)
@[simp] theorem State.modPort_dma (p : Nat) (f : PortH → PortH) : (s.modPort p f).dma = s.dma := (rfl)
@[simp] theorem State.modPort_turn (p : Nat) (f : PortH → PortH) : (s.modPort p f).turn = s.turn := (rfl)
@[simp] theorem State.modPort_host (p : Nat) (f : PortH → PortH) : (s.modPort p f).host = s.host := (rfl)
@[simp] theorem State.modPort_bus (p : Nat) (f : PortH → PortH) : (s.modPort p f).bus = s.bus := (rfl)
@[simp] theorem State.modPort_boot (p : Nat) (f : PortH → PortH) : (s.modPort p f).boot = s.boot := (rfl)
@[simp] theorem State.modPort_reg (p : Nat) (f : PortH → PortH) (q : Nat) : (s.modPort p f).reg q = s.reg q := (rfl)
@[simp] theorem State.modPort_get (p : Nat) (f : PortH → PortH) (q : Fld) : (s.modPort p f).get q = s.get q := (rfl)
@[simp] theorem State.modPort_byte (p : Nat) (f : PortH → PortH) (q : Nat) : (s.modPort p f).byte q = s.byte q := (rfl)
@[simp] theorem State.modPort_tileOf (p : Nat) (f : PortH → PortH) (q : Nat) : (s.modPort p f).tileOf q = s.tileOf q := (rfl)
@[simp] theorem State.modPort_now (p : Nat) (f : PortH → PortH) : (s.modPort p f).now = s.now := (rfl)

/-! ### modHost -/

@[simp] theorem State.modHost_io (f : HostH → HostH) : (s.modHost f).io = s.io := (rfl)
@[simp] theorem State.modHost_mem (f : HostH → HostH) : (s.modHost f).mem = s.mem := (rfl)
@[simp] theorem State.modHost_fresh (f : HostH → HostH) : (s.modHost f).fresh = s.fresh := (rfl)
@[simp] theorem State.modHost_pending (f : HostH → HostH) : (s.modHost f).pending = s.pending := (rfl)
@[simp] theorem State.modHost_inv (f : HostH → HostH) : (s.modHost f).inv = s.inv := (rfl)
@[simp] theorem State.modHost_clk (f : HostH → HostH) : (s.modHost f).clk = s.clk := (rfl)
@[simp] theorem State.modHost_tt (f : HostH → HostH) : (s.modHost f).tt = s.tt := (rfl)
@[simp] theorem State.modHost_flt (f : HostH → HostH) : (s.modHost f).flt = s.flt := (rfl)
@[simp] theorem State.modHost_edg (f : HostH → HostH) : (s.modHost f).edg = s.edg := (rfl)
@[simp] theorem State.modHost_ball (f : HostH → HostH) : (s.modHost f).ball = s.ball := (rfl)
@[simp] theorem State.modHost_fnIn (f : HostH → HostH) : (s.modHost f).fnIn = s.fnIn := (rfl)
@[simp] theorem State.modHost_tiles (f : HostH → HostH) : (s.modHost f).tiles = s.tiles := (rfl)
@[simp] theorem State.modHost_adc (f : HostH → HostH) : (s.modHost f).adc = s.adc := (rfl)
@[simp] theorem State.modHost_data (f : HostH → HostH) : (s.modHost f).data = s.data := (rfl)
@[simp] theorem State.modHost_memh (f : HostH → HostH) : (s.modHost f).memh = s.memh := (rfl)
@[simp] theorem State.modHost_omt (f : HostH → HostH) : (s.modHost f).omt = s.omt := (rfl)
@[simp] theorem State.modHost_vote (f : HostH → HostH) : (s.modHost f).vote = s.vote := (rfl)
@[simp] theorem State.modHost_pwr (f : HostH → HostH) : (s.modHost f).pwr = s.pwr := (rfl)
@[simp] theorem State.modHost_dbg (f : HostH → HostH) : (s.modHost f).dbg = s.dbg := (rfl)
@[simp] theorem State.modHost_dma (f : HostH → HostH) : (s.modHost f).dma = s.dma := (rfl)
@[simp] theorem State.modHost_turn (f : HostH → HostH) : (s.modHost f).turn = s.turn := (rfl)
@[simp] theorem State.modHost_net (f : HostH → HostH) : (s.modHost f).net = s.net := (rfl)
@[simp] theorem State.modHost_bus (f : HostH → HostH) : (s.modHost f).bus = s.bus := (rfl)
@[simp] theorem State.modHost_boot (f : HostH → HostH) : (s.modHost f).boot = s.boot := (rfl)
@[simp] theorem State.modHost_reg (f : HostH → HostH) (q : Nat) : (s.modHost f).reg q = s.reg q := (rfl)
@[simp] theorem State.modHost_get (f : HostH → HostH) (q : Fld) : (s.modHost f).get q = s.get q := (rfl)
@[simp] theorem State.modHost_byte (f : HostH → HostH) (q : Nat) : (s.modHost f).byte q = s.byte q := (rfl)
@[simp] theorem State.modHost_tileOf (f : HostH → HostH) (q : Nat) : (s.modHost f).tileOf q = s.tileOf q := (rfl)
@[simp] theorem State.modHost_now (f : HostH → HostH) : (s.modHost f).now = s.now := (rfl)

/-! ### withMem -/

@[simp] theorem State.withMem_io (h : MemH) : (s.withMem h).io = s.io := (rfl)
@[simp] theorem State.withMem_mem (h : MemH) : (s.withMem h).mem = s.mem := (rfl)
@[simp] theorem State.withMem_fresh (h : MemH) : (s.withMem h).fresh = s.fresh := (rfl)
@[simp] theorem State.withMem_pending (h : MemH) : (s.withMem h).pending = s.pending := (rfl)
@[simp] theorem State.withMem_inv (h : MemH) : (s.withMem h).inv = s.inv := (rfl)
@[simp] theorem State.withMem_clk (h : MemH) : (s.withMem h).clk = s.clk := (rfl)
@[simp] theorem State.withMem_tt (h : MemH) : (s.withMem h).tt = s.tt := (rfl)
@[simp] theorem State.withMem_flt (h : MemH) : (s.withMem h).flt = s.flt := (rfl)
@[simp] theorem State.withMem_edg (h : MemH) : (s.withMem h).edg = s.edg := (rfl)
@[simp] theorem State.withMem_ball (h : MemH) : (s.withMem h).ball = s.ball := (rfl)
@[simp] theorem State.withMem_fnIn (h : MemH) : (s.withMem h).fnIn = s.fnIn := (rfl)
@[simp] theorem State.withMem_tiles (h : MemH) : (s.withMem h).tiles = s.tiles := (rfl)
@[simp] theorem State.withMem_adc (h : MemH) : (s.withMem h).adc = s.adc := (rfl)
@[simp] theorem State.withMem_data (h : MemH) : (s.withMem h).data = s.data := (rfl)
@[simp] theorem State.withMem_omt (h : MemH) : (s.withMem h).omt = s.omt := (rfl)
@[simp] theorem State.withMem_vote (h : MemH) : (s.withMem h).vote = s.vote := (rfl)
@[simp] theorem State.withMem_pwr (h : MemH) : (s.withMem h).pwr = s.pwr := (rfl)
@[simp] theorem State.withMem_dbg (h : MemH) : (s.withMem h).dbg = s.dbg := (rfl)
@[simp] theorem State.withMem_dma (h : MemH) : (s.withMem h).dma = s.dma := (rfl)
@[simp] theorem State.withMem_turn (h : MemH) : (s.withMem h).turn = s.turn := (rfl)
@[simp] theorem State.withMem_net (h : MemH) : (s.withMem h).net = s.net := (rfl)
@[simp] theorem State.withMem_host (h : MemH) : (s.withMem h).host = s.host := (rfl)
@[simp] theorem State.withMem_bus (h : MemH) : (s.withMem h).bus = s.bus := (rfl)
@[simp] theorem State.withMem_boot (h : MemH) : (s.withMem h).boot = s.boot := (rfl)
@[simp] theorem State.withMem_reg (h : MemH) (q : Nat) : (s.withMem h).reg q = s.reg q := (rfl)
@[simp] theorem State.withMem_get (h : MemH) (q : Fld) : (s.withMem h).get q = s.get q := (rfl)
@[simp] theorem State.withMem_byte (h : MemH) (q : Nat) : (s.withMem h).byte q = s.byte q := (rfl)
@[simp] theorem State.withMem_tileOf (h : MemH) (q : Nat) : (s.withMem h).tileOf q = s.tileOf q := (rfl)
@[simp] theorem State.withMem_now (h : MemH) : (s.withMem h).now = s.now := (rfl)

/-! ### modMem -/

@[simp] theorem State.modMem_io (f : MemH → MemH) : (s.modMem f).io = s.io := (rfl)
@[simp] theorem State.modMem_mem (f : MemH → MemH) : (s.modMem f).mem = s.mem := (rfl)
@[simp] theorem State.modMem_fresh (f : MemH → MemH) : (s.modMem f).fresh = s.fresh := (rfl)
@[simp] theorem State.modMem_pending (f : MemH → MemH) : (s.modMem f).pending = s.pending := (rfl)
@[simp] theorem State.modMem_inv (f : MemH → MemH) : (s.modMem f).inv = s.inv := (rfl)
@[simp] theorem State.modMem_clk (f : MemH → MemH) : (s.modMem f).clk = s.clk := (rfl)
@[simp] theorem State.modMem_tt (f : MemH → MemH) : (s.modMem f).tt = s.tt := (rfl)
@[simp] theorem State.modMem_flt (f : MemH → MemH) : (s.modMem f).flt = s.flt := (rfl)
@[simp] theorem State.modMem_edg (f : MemH → MemH) : (s.modMem f).edg = s.edg := (rfl)
@[simp] theorem State.modMem_ball (f : MemH → MemH) : (s.modMem f).ball = s.ball := (rfl)
@[simp] theorem State.modMem_fnIn (f : MemH → MemH) : (s.modMem f).fnIn = s.fnIn := (rfl)
@[simp] theorem State.modMem_tiles (f : MemH → MemH) : (s.modMem f).tiles = s.tiles := (rfl)
@[simp] theorem State.modMem_adc (f : MemH → MemH) : (s.modMem f).adc = s.adc := (rfl)
@[simp] theorem State.modMem_data (f : MemH → MemH) : (s.modMem f).data = s.data := (rfl)
@[simp] theorem State.modMem_omt (f : MemH → MemH) : (s.modMem f).omt = s.omt := (rfl)
@[simp] theorem State.modMem_vote (f : MemH → MemH) : (s.modMem f).vote = s.vote := (rfl)
@[simp] theorem State.modMem_pwr (f : MemH → MemH) : (s.modMem f).pwr = s.pwr := (rfl)
@[simp] theorem State.modMem_dbg (f : MemH → MemH) : (s.modMem f).dbg = s.dbg := (rfl)
@[simp] theorem State.modMem_dma (f : MemH → MemH) : (s.modMem f).dma = s.dma := (rfl)
@[simp] theorem State.modMem_turn (f : MemH → MemH) : (s.modMem f).turn = s.turn := (rfl)
@[simp] theorem State.modMem_net (f : MemH → MemH) : (s.modMem f).net = s.net := (rfl)
@[simp] theorem State.modMem_host (f : MemH → MemH) : (s.modMem f).host = s.host := (rfl)
@[simp] theorem State.modMem_bus (f : MemH → MemH) : (s.modMem f).bus = s.bus := (rfl)
@[simp] theorem State.modMem_boot (f : MemH → MemH) : (s.modMem f).boot = s.boot := (rfl)
@[simp] theorem State.modMem_reg (f : MemH → MemH) (q : Nat) : (s.modMem f).reg q = s.reg q := (rfl)
@[simp] theorem State.modMem_get (f : MemH → MemH) (q : Fld) : (s.modMem f).get q = s.get q := (rfl)
@[simp] theorem State.modMem_byte (f : MemH → MemH) (q : Nat) : (s.modMem f).byte q = s.byte q := (rfl)
@[simp] theorem State.modMem_tileOf (f : MemH → MemH) (q : Nat) : (s.modMem f).tileOf q = s.tileOf q := (rfl)
@[simp] theorem State.modMem_now (f : MemH → MemH) : (s.modMem f).now = s.now := (rfl)

/-! ### modBank -/

@[simp] theorem State.modBank_io (b : Nat) (f : BankH → BankH) : (s.modBank b f).io = s.io := (rfl)
@[simp] theorem State.modBank_mem (b : Nat) (f : BankH → BankH) : (s.modBank b f).mem = s.mem := (rfl)
@[simp] theorem State.modBank_fresh (b : Nat) (f : BankH → BankH) : (s.modBank b f).fresh = s.fresh := (rfl)
@[simp] theorem State.modBank_pending (b : Nat) (f : BankH → BankH) : (s.modBank b f).pending = s.pending := (rfl)
@[simp] theorem State.modBank_inv (b : Nat) (f : BankH → BankH) : (s.modBank b f).inv = s.inv := (rfl)
@[simp] theorem State.modBank_clk (b : Nat) (f : BankH → BankH) : (s.modBank b f).clk = s.clk := (rfl)
@[simp] theorem State.modBank_tt (b : Nat) (f : BankH → BankH) : (s.modBank b f).tt = s.tt := (rfl)
@[simp] theorem State.modBank_flt (b : Nat) (f : BankH → BankH) : (s.modBank b f).flt = s.flt := (rfl)
@[simp] theorem State.modBank_edg (b : Nat) (f : BankH → BankH) : (s.modBank b f).edg = s.edg := (rfl)
@[simp] theorem State.modBank_ball (b : Nat) (f : BankH → BankH) : (s.modBank b f).ball = s.ball := (rfl)
@[simp] theorem State.modBank_fnIn (b : Nat) (f : BankH → BankH) : (s.modBank b f).fnIn = s.fnIn := (rfl)
@[simp] theorem State.modBank_tiles (b : Nat) (f : BankH → BankH) : (s.modBank b f).tiles = s.tiles := (rfl)
@[simp] theorem State.modBank_adc (b : Nat) (f : BankH → BankH) : (s.modBank b f).adc = s.adc := (rfl)
@[simp] theorem State.modBank_data (b : Nat) (f : BankH → BankH) : (s.modBank b f).data = s.data := (rfl)
@[simp] theorem State.modBank_omt (b : Nat) (f : BankH → BankH) : (s.modBank b f).omt = s.omt := (rfl)
@[simp] theorem State.modBank_vote (b : Nat) (f : BankH → BankH) : (s.modBank b f).vote = s.vote := (rfl)
@[simp] theorem State.modBank_pwr (b : Nat) (f : BankH → BankH) : (s.modBank b f).pwr = s.pwr := (rfl)
@[simp] theorem State.modBank_dbg (b : Nat) (f : BankH → BankH) : (s.modBank b f).dbg = s.dbg := (rfl)
@[simp] theorem State.modBank_dma (b : Nat) (f : BankH → BankH) : (s.modBank b f).dma = s.dma := (rfl)
@[simp] theorem State.modBank_turn (b : Nat) (f : BankH → BankH) : (s.modBank b f).turn = s.turn := (rfl)
@[simp] theorem State.modBank_net (b : Nat) (f : BankH → BankH) : (s.modBank b f).net = s.net := (rfl)
@[simp] theorem State.modBank_host (b : Nat) (f : BankH → BankH) : (s.modBank b f).host = s.host := (rfl)
@[simp] theorem State.modBank_bus (b : Nat) (f : BankH → BankH) : (s.modBank b f).bus = s.bus := (rfl)
@[simp] theorem State.modBank_boot (b : Nat) (f : BankH → BankH) : (s.modBank b f).boot = s.boot := (rfl)
@[simp] theorem State.modBank_reg (b : Nat) (f : BankH → BankH) (q : Nat) : (s.modBank b f).reg q = s.reg q := (rfl)
@[simp] theorem State.modBank_get (b : Nat) (f : BankH → BankH) (q : Fld) : (s.modBank b f).get q = s.get q := (rfl)
@[simp] theorem State.modBank_byte (b : Nat) (f : BankH → BankH) (q : Nat) : (s.modBank b f).byte q = s.byte q := (rfl)
@[simp] theorem State.modBank_tileOf (b : Nat) (f : BankH → BankH) (q : Nat) : (s.modBank b f).tileOf q = s.tileOf q := (rfl)
@[simp] theorem State.modBank_now (b : Nat) (f : BankH → BankH) : (s.modBank b f).now = s.now := (rfl)

/-! ### modOmt -/

@[simp] theorem State.modOmt_io (f : OmtH → OmtH) : (s.modOmt f).io = s.io := (rfl)
@[simp] theorem State.modOmt_mem (f : OmtH → OmtH) : (s.modOmt f).mem = s.mem := (rfl)
@[simp] theorem State.modOmt_fresh (f : OmtH → OmtH) : (s.modOmt f).fresh = s.fresh := (rfl)
@[simp] theorem State.modOmt_pending (f : OmtH → OmtH) : (s.modOmt f).pending = s.pending := (rfl)
@[simp] theorem State.modOmt_inv (f : OmtH → OmtH) : (s.modOmt f).inv = s.inv := (rfl)
@[simp] theorem State.modOmt_clk (f : OmtH → OmtH) : (s.modOmt f).clk = s.clk := (rfl)
@[simp] theorem State.modOmt_tt (f : OmtH → OmtH) : (s.modOmt f).tt = s.tt := (rfl)
@[simp] theorem State.modOmt_flt (f : OmtH → OmtH) : (s.modOmt f).flt = s.flt := (rfl)
@[simp] theorem State.modOmt_edg (f : OmtH → OmtH) : (s.modOmt f).edg = s.edg := (rfl)
@[simp] theorem State.modOmt_ball (f : OmtH → OmtH) : (s.modOmt f).ball = s.ball := (rfl)
@[simp] theorem State.modOmt_fnIn (f : OmtH → OmtH) : (s.modOmt f).fnIn = s.fnIn := (rfl)
@[simp] theorem State.modOmt_tiles (f : OmtH → OmtH) : (s.modOmt f).tiles = s.tiles := (rfl)
@[simp] theorem State.modOmt_adc (f : OmtH → OmtH) : (s.modOmt f).adc = s.adc := (rfl)
@[simp] theorem State.modOmt_data (f : OmtH → OmtH) : (s.modOmt f).data = s.data := (rfl)
@[simp] theorem State.modOmt_memh (f : OmtH → OmtH) : (s.modOmt f).memh = s.memh := (rfl)
@[simp] theorem State.modOmt_vote (f : OmtH → OmtH) : (s.modOmt f).vote = s.vote := (rfl)
@[simp] theorem State.modOmt_pwr (f : OmtH → OmtH) : (s.modOmt f).pwr = s.pwr := (rfl)
@[simp] theorem State.modOmt_dbg (f : OmtH → OmtH) : (s.modOmt f).dbg = s.dbg := (rfl)
@[simp] theorem State.modOmt_dma (f : OmtH → OmtH) : (s.modOmt f).dma = s.dma := (rfl)
@[simp] theorem State.modOmt_turn (f : OmtH → OmtH) : (s.modOmt f).turn = s.turn := (rfl)
@[simp] theorem State.modOmt_net (f : OmtH → OmtH) : (s.modOmt f).net = s.net := (rfl)
@[simp] theorem State.modOmt_host (f : OmtH → OmtH) : (s.modOmt f).host = s.host := (rfl)
@[simp] theorem State.modOmt_bus (f : OmtH → OmtH) : (s.modOmt f).bus = s.bus := (rfl)
@[simp] theorem State.modOmt_boot (f : OmtH → OmtH) : (s.modOmt f).boot = s.boot := (rfl)
@[simp] theorem State.modOmt_reg (f : OmtH → OmtH) (q : Nat) : (s.modOmt f).reg q = s.reg q := (rfl)
@[simp] theorem State.modOmt_get (f : OmtH → OmtH) (q : Fld) : (s.modOmt f).get q = s.get q := (rfl)
@[simp] theorem State.modOmt_byte (f : OmtH → OmtH) (q : Nat) : (s.modOmt f).byte q = s.byte q := (rfl)
@[simp] theorem State.modOmt_tileOf (f : OmtH → OmtH) (q : Nat) : (s.modOmt f).tileOf q = s.tileOf q := (rfl)
@[simp] theorem State.modOmt_now (f : OmtH → OmtH) : (s.modOmt f).now = s.now := (rfl)

/-! ### modGrp -/

@[simp] theorem State.modGrp_io (g : Nat) (f : GrpH → GrpH) : (s.modGrp g f).io = s.io := (rfl)
@[simp] theorem State.modGrp_mem (g : Nat) (f : GrpH → GrpH) : (s.modGrp g f).mem = s.mem := (rfl)
@[simp] theorem State.modGrp_fresh (g : Nat) (f : GrpH → GrpH) : (s.modGrp g f).fresh = s.fresh := (rfl)
@[simp] theorem State.modGrp_pending (g : Nat) (f : GrpH → GrpH) : (s.modGrp g f).pending = s.pending := (rfl)
@[simp] theorem State.modGrp_inv (g : Nat) (f : GrpH → GrpH) : (s.modGrp g f).inv = s.inv := (rfl)
@[simp] theorem State.modGrp_clk (g : Nat) (f : GrpH → GrpH) : (s.modGrp g f).clk = s.clk := (rfl)
@[simp] theorem State.modGrp_tt (g : Nat) (f : GrpH → GrpH) : (s.modGrp g f).tt = s.tt := (rfl)
@[simp] theorem State.modGrp_flt (g : Nat) (f : GrpH → GrpH) : (s.modGrp g f).flt = s.flt := (rfl)
@[simp] theorem State.modGrp_edg (g : Nat) (f : GrpH → GrpH) : (s.modGrp g f).edg = s.edg := (rfl)
@[simp] theorem State.modGrp_ball (g : Nat) (f : GrpH → GrpH) : (s.modGrp g f).ball = s.ball := (rfl)
@[simp] theorem State.modGrp_fnIn (g : Nat) (f : GrpH → GrpH) : (s.modGrp g f).fnIn = s.fnIn := (rfl)
@[simp] theorem State.modGrp_tiles (g : Nat) (f : GrpH → GrpH) : (s.modGrp g f).tiles = s.tiles := (rfl)
@[simp] theorem State.modGrp_adc (g : Nat) (f : GrpH → GrpH) : (s.modGrp g f).adc = s.adc := (rfl)
@[simp] theorem State.modGrp_data (g : Nat) (f : GrpH → GrpH) : (s.modGrp g f).data = s.data := (rfl)
@[simp] theorem State.modGrp_memh (g : Nat) (f : GrpH → GrpH) : (s.modGrp g f).memh = s.memh := (rfl)
@[simp] theorem State.modGrp_omt (g : Nat) (f : GrpH → GrpH) : (s.modGrp g f).omt = s.omt := (rfl)
@[simp] theorem State.modGrp_pwr (g : Nat) (f : GrpH → GrpH) : (s.modGrp g f).pwr = s.pwr := (rfl)
@[simp] theorem State.modGrp_dbg (g : Nat) (f : GrpH → GrpH) : (s.modGrp g f).dbg = s.dbg := (rfl)
@[simp] theorem State.modGrp_dma (g : Nat) (f : GrpH → GrpH) : (s.modGrp g f).dma = s.dma := (rfl)
@[simp] theorem State.modGrp_turn (g : Nat) (f : GrpH → GrpH) : (s.modGrp g f).turn = s.turn := (rfl)
@[simp] theorem State.modGrp_net (g : Nat) (f : GrpH → GrpH) : (s.modGrp g f).net = s.net := (rfl)
@[simp] theorem State.modGrp_host (g : Nat) (f : GrpH → GrpH) : (s.modGrp g f).host = s.host := (rfl)
@[simp] theorem State.modGrp_bus (g : Nat) (f : GrpH → GrpH) : (s.modGrp g f).bus = s.bus := (rfl)
@[simp] theorem State.modGrp_boot (g : Nat) (f : GrpH → GrpH) : (s.modGrp g f).boot = s.boot := (rfl)
@[simp] theorem State.modGrp_reg (g : Nat) (f : GrpH → GrpH) (q : Nat) : (s.modGrp g f).reg q = s.reg q := (rfl)
@[simp] theorem State.modGrp_get (g : Nat) (f : GrpH → GrpH) (q : Fld) : (s.modGrp g f).get q = s.get q := (rfl)
@[simp] theorem State.modGrp_byte (g : Nat) (f : GrpH → GrpH) (q : Nat) : (s.modGrp g f).byte q = s.byte q := (rfl)
@[simp] theorem State.modGrp_tileOf (g : Nat) (f : GrpH → GrpH) (q : Nat) : (s.modGrp g f).tileOf q = s.tileOf q := (rfl)
@[simp] theorem State.modGrp_now (g : Nat) (f : GrpH → GrpH) : (s.modGrp g f).now = s.now := (rfl)

/-! ### modPwr -/

@[simp] theorem State.modPwr_io (f : PwrH → PwrH) : (s.modPwr f).io = s.io := (rfl)
@[simp] theorem State.modPwr_mem (f : PwrH → PwrH) : (s.modPwr f).mem = s.mem := (rfl)
@[simp] theorem State.modPwr_fresh (f : PwrH → PwrH) : (s.modPwr f).fresh = s.fresh := (rfl)
@[simp] theorem State.modPwr_pending (f : PwrH → PwrH) : (s.modPwr f).pending = s.pending := (rfl)
@[simp] theorem State.modPwr_inv (f : PwrH → PwrH) : (s.modPwr f).inv = s.inv := (rfl)
@[simp] theorem State.modPwr_clk (f : PwrH → PwrH) : (s.modPwr f).clk = s.clk := (rfl)
@[simp] theorem State.modPwr_tt (f : PwrH → PwrH) : (s.modPwr f).tt = s.tt := (rfl)
@[simp] theorem State.modPwr_flt (f : PwrH → PwrH) : (s.modPwr f).flt = s.flt := (rfl)
@[simp] theorem State.modPwr_edg (f : PwrH → PwrH) : (s.modPwr f).edg = s.edg := (rfl)
@[simp] theorem State.modPwr_ball (f : PwrH → PwrH) : (s.modPwr f).ball = s.ball := (rfl)
@[simp] theorem State.modPwr_fnIn (f : PwrH → PwrH) : (s.modPwr f).fnIn = s.fnIn := (rfl)
@[simp] theorem State.modPwr_tiles (f : PwrH → PwrH) : (s.modPwr f).tiles = s.tiles := (rfl)
@[simp] theorem State.modPwr_adc (f : PwrH → PwrH) : (s.modPwr f).adc = s.adc := (rfl)
@[simp] theorem State.modPwr_data (f : PwrH → PwrH) : (s.modPwr f).data = s.data := (rfl)
@[simp] theorem State.modPwr_memh (f : PwrH → PwrH) : (s.modPwr f).memh = s.memh := (rfl)
@[simp] theorem State.modPwr_omt (f : PwrH → PwrH) : (s.modPwr f).omt = s.omt := (rfl)
@[simp] theorem State.modPwr_vote (f : PwrH → PwrH) : (s.modPwr f).vote = s.vote := (rfl)
@[simp] theorem State.modPwr_dbg (f : PwrH → PwrH) : (s.modPwr f).dbg = s.dbg := (rfl)
@[simp] theorem State.modPwr_dma (f : PwrH → PwrH) : (s.modPwr f).dma = s.dma := (rfl)
@[simp] theorem State.modPwr_turn (f : PwrH → PwrH) : (s.modPwr f).turn = s.turn := (rfl)
@[simp] theorem State.modPwr_net (f : PwrH → PwrH) : (s.modPwr f).net = s.net := (rfl)
@[simp] theorem State.modPwr_host (f : PwrH → PwrH) : (s.modPwr f).host = s.host := (rfl)
@[simp] theorem State.modPwr_bus (f : PwrH → PwrH) : (s.modPwr f).bus = s.bus := (rfl)
@[simp] theorem State.modPwr_boot (f : PwrH → PwrH) : (s.modPwr f).boot = s.boot := (rfl)
@[simp] theorem State.modPwr_reg (f : PwrH → PwrH) (q : Nat) : (s.modPwr f).reg q = s.reg q := (rfl)
@[simp] theorem State.modPwr_get (f : PwrH → PwrH) (q : Fld) : (s.modPwr f).get q = s.get q := (rfl)
@[simp] theorem State.modPwr_byte (f : PwrH → PwrH) (q : Nat) : (s.modPwr f).byte q = s.byte q := (rfl)
@[simp] theorem State.modPwr_tileOf (f : PwrH → PwrH) (q : Nat) : (s.modPwr f).tileOf q = s.tileOf q := (rfl)
@[simp] theorem State.modPwr_now (f : PwrH → PwrH) : (s.modPwr f).now = s.now := (rfl)

/-! ### modBoot -/

@[simp] theorem State.modBoot_io (f : BootH → BootH) : (s.modBoot f).io = s.io := (rfl)
@[simp] theorem State.modBoot_mem (f : BootH → BootH) : (s.modBoot f).mem = s.mem := (rfl)
@[simp] theorem State.modBoot_fresh (f : BootH → BootH) : (s.modBoot f).fresh = s.fresh := (rfl)
@[simp] theorem State.modBoot_pending (f : BootH → BootH) : (s.modBoot f).pending = s.pending := (rfl)
@[simp] theorem State.modBoot_inv (f : BootH → BootH) : (s.modBoot f).inv = s.inv := (rfl)
@[simp] theorem State.modBoot_clk (f : BootH → BootH) : (s.modBoot f).clk = s.clk := (rfl)
@[simp] theorem State.modBoot_tt (f : BootH → BootH) : (s.modBoot f).tt = s.tt := (rfl)
@[simp] theorem State.modBoot_flt (f : BootH → BootH) : (s.modBoot f).flt = s.flt := (rfl)
@[simp] theorem State.modBoot_edg (f : BootH → BootH) : (s.modBoot f).edg = s.edg := (rfl)
@[simp] theorem State.modBoot_ball (f : BootH → BootH) : (s.modBoot f).ball = s.ball := (rfl)
@[simp] theorem State.modBoot_fnIn (f : BootH → BootH) : (s.modBoot f).fnIn = s.fnIn := (rfl)
@[simp] theorem State.modBoot_tiles (f : BootH → BootH) : (s.modBoot f).tiles = s.tiles := (rfl)
@[simp] theorem State.modBoot_adc (f : BootH → BootH) : (s.modBoot f).adc = s.adc := (rfl)
@[simp] theorem State.modBoot_data (f : BootH → BootH) : (s.modBoot f).data = s.data := (rfl)
@[simp] theorem State.modBoot_memh (f : BootH → BootH) : (s.modBoot f).memh = s.memh := (rfl)
@[simp] theorem State.modBoot_omt (f : BootH → BootH) : (s.modBoot f).omt = s.omt := (rfl)
@[simp] theorem State.modBoot_vote (f : BootH → BootH) : (s.modBoot f).vote = s.vote := (rfl)
@[simp] theorem State.modBoot_pwr (f : BootH → BootH) : (s.modBoot f).pwr = s.pwr := (rfl)
@[simp] theorem State.modBoot_dbg (f : BootH → BootH) : (s.modBoot f).dbg = s.dbg := (rfl)
@[simp] theorem State.modBoot_dma (f : BootH → BootH) : (s.modBoot f).dma = s.dma := (rfl)
@[simp] theorem State.modBoot_turn (f : BootH → BootH) : (s.modBoot f).turn = s.turn := (rfl)
@[simp] theorem State.modBoot_net (f : BootH → BootH) : (s.modBoot f).net = s.net := (rfl)
@[simp] theorem State.modBoot_host (f : BootH → BootH) : (s.modBoot f).host = s.host := (rfl)
@[simp] theorem State.modBoot_bus (f : BootH → BootH) : (s.modBoot f).bus = s.bus := (rfl)
@[simp] theorem State.modBoot_reg (f : BootH → BootH) (q : Nat) : (s.modBoot f).reg q = s.reg q := (rfl)
@[simp] theorem State.modBoot_get (f : BootH → BootH) (q : Fld) : (s.modBoot f).get q = s.get q := (rfl)
@[simp] theorem State.modBoot_byte (f : BootH → BootH) (q : Nat) : (s.modBoot f).byte q = s.byte q := (rfl)
@[simp] theorem State.modBoot_tileOf (f : BootH → BootH) (q : Nat) : (s.modBoot f).tileOf q = s.tileOf q := (rfl)
@[simp] theorem State.modBoot_now (f : BootH → BootH) : (s.modBoot f).now = s.now := (rfl)

/-! ### modInv -/

@[simp] theorem State.modInv_io (f : InvH → InvH) : (s.modInv f).io = s.io := (rfl)
@[simp] theorem State.modInv_mem (f : InvH → InvH) : (s.modInv f).mem = s.mem := (rfl)
@[simp] theorem State.modInv_fresh (f : InvH → InvH) : (s.modInv f).fresh = s.fresh := (rfl)
@[simp] theorem State.modInv_pending (f : InvH → InvH) : (s.modInv f).pending = s.pending := (rfl)
@[simp] theorem State.modInv_clk (f : InvH → InvH) : (s.modInv f).clk = s.clk := (rfl)
@[simp] theorem State.modInv_tt (f : InvH → InvH) : (s.modInv f).tt = s.tt := (rfl)
@[simp] theorem State.modInv_flt (f : InvH → InvH) : (s.modInv f).flt = s.flt := (rfl)
@[simp] theorem State.modInv_edg (f : InvH → InvH) : (s.modInv f).edg = s.edg := (rfl)
@[simp] theorem State.modInv_ball (f : InvH → InvH) : (s.modInv f).ball = s.ball := (rfl)
@[simp] theorem State.modInv_fnIn (f : InvH → InvH) : (s.modInv f).fnIn = s.fnIn := (rfl)
@[simp] theorem State.modInv_tiles (f : InvH → InvH) : (s.modInv f).tiles = s.tiles := (rfl)
@[simp] theorem State.modInv_adc (f : InvH → InvH) : (s.modInv f).adc = s.adc := (rfl)
@[simp] theorem State.modInv_data (f : InvH → InvH) : (s.modInv f).data = s.data := (rfl)
@[simp] theorem State.modInv_memh (f : InvH → InvH) : (s.modInv f).memh = s.memh := (rfl)
@[simp] theorem State.modInv_omt (f : InvH → InvH) : (s.modInv f).omt = s.omt := (rfl)
@[simp] theorem State.modInv_vote (f : InvH → InvH) : (s.modInv f).vote = s.vote := (rfl)
@[simp] theorem State.modInv_pwr (f : InvH → InvH) : (s.modInv f).pwr = s.pwr := (rfl)
@[simp] theorem State.modInv_dbg (f : InvH → InvH) : (s.modInv f).dbg = s.dbg := (rfl)
@[simp] theorem State.modInv_dma (f : InvH → InvH) : (s.modInv f).dma = s.dma := (rfl)
@[simp] theorem State.modInv_turn (f : InvH → InvH) : (s.modInv f).turn = s.turn := (rfl)
@[simp] theorem State.modInv_net (f : InvH → InvH) : (s.modInv f).net = s.net := (rfl)
@[simp] theorem State.modInv_host (f : InvH → InvH) : (s.modInv f).host = s.host := (rfl)
@[simp] theorem State.modInv_bus (f : InvH → InvH) : (s.modInv f).bus = s.bus := (rfl)
@[simp] theorem State.modInv_boot (f : InvH → InvH) : (s.modInv f).boot = s.boot := (rfl)
@[simp] theorem State.modInv_reg (f : InvH → InvH) (q : Nat) : (s.modInv f).reg q = s.reg q := (rfl)
@[simp] theorem State.modInv_get (f : InvH → InvH) (q : Fld) : (s.modInv f).get q = s.get q := (rfl)
@[simp] theorem State.modInv_byte (f : InvH → InvH) (q : Nat) : (s.modInv f).byte q = s.byte q := (rfl)
@[simp] theorem State.modInv_tileOf (f : InvH → InvH) (q : Nat) : (s.modInv f).tileOf q = s.tileOf q := (rfl)
@[simp] theorem State.modInv_now (f : InvH → InvH) : (s.modInv f).now = s.now := (rfl)

/-! ### modCan -/

@[simp] theorem State.modCan_io (n : Nat) (f : CanH → CanH) : (s.modCan n f).io = s.io := (rfl)
@[simp] theorem State.modCan_mem (n : Nat) (f : CanH → CanH) : (s.modCan n f).mem = s.mem := (rfl)
@[simp] theorem State.modCan_fresh (n : Nat) (f : CanH → CanH) : (s.modCan n f).fresh = s.fresh := (rfl)
@[simp] theorem State.modCan_pending (n : Nat) (f : CanH → CanH) : (s.modCan n f).pending = s.pending := (rfl)
@[simp] theorem State.modCan_inv (n : Nat) (f : CanH → CanH) : (s.modCan n f).inv = s.inv := (rfl)
@[simp] theorem State.modCan_clk (n : Nat) (f : CanH → CanH) : (s.modCan n f).clk = s.clk := (rfl)
@[simp] theorem State.modCan_tt (n : Nat) (f : CanH → CanH) : (s.modCan n f).tt = s.tt := (rfl)
@[simp] theorem State.modCan_flt (n : Nat) (f : CanH → CanH) : (s.modCan n f).flt = s.flt := (rfl)
@[simp] theorem State.modCan_edg (n : Nat) (f : CanH → CanH) : (s.modCan n f).edg = s.edg := (rfl)
@[simp] theorem State.modCan_ball (n : Nat) (f : CanH → CanH) : (s.modCan n f).ball = s.ball := (rfl)
@[simp] theorem State.modCan_fnIn (n : Nat) (f : CanH → CanH) : (s.modCan n f).fnIn = s.fnIn := (rfl)
@[simp] theorem State.modCan_tiles (n : Nat) (f : CanH → CanH) : (s.modCan n f).tiles = s.tiles := (rfl)
@[simp] theorem State.modCan_adc (n : Nat) (f : CanH → CanH) : (s.modCan n f).adc = s.adc := (rfl)
@[simp] theorem State.modCan_data (n : Nat) (f : CanH → CanH) : (s.modCan n f).data = s.data := (rfl)
@[simp] theorem State.modCan_memh (n : Nat) (f : CanH → CanH) : (s.modCan n f).memh = s.memh := (rfl)
@[simp] theorem State.modCan_omt (n : Nat) (f : CanH → CanH) : (s.modCan n f).omt = s.omt := (rfl)
@[simp] theorem State.modCan_vote (n : Nat) (f : CanH → CanH) : (s.modCan n f).vote = s.vote := (rfl)
@[simp] theorem State.modCan_pwr (n : Nat) (f : CanH → CanH) : (s.modCan n f).pwr = s.pwr := (rfl)
@[simp] theorem State.modCan_dbg (n : Nat) (f : CanH → CanH) : (s.modCan n f).dbg = s.dbg := (rfl)
@[simp] theorem State.modCan_dma (n : Nat) (f : CanH → CanH) : (s.modCan n f).dma = s.dma := (rfl)
@[simp] theorem State.modCan_turn (n : Nat) (f : CanH → CanH) : (s.modCan n f).turn = s.turn := (rfl)
@[simp] theorem State.modCan_net (n : Nat) (f : CanH → CanH) : (s.modCan n f).net = s.net := (rfl)
@[simp] theorem State.modCan_host (n : Nat) (f : CanH → CanH) : (s.modCan n f).host = s.host := (rfl)
@[simp] theorem State.modCan_boot (n : Nat) (f : CanH → CanH) : (s.modCan n f).boot = s.boot := (rfl)
@[simp] theorem State.modCan_reg (n : Nat) (f : CanH → CanH) (q : Nat) : (s.modCan n f).reg q = s.reg q := (rfl)
@[simp] theorem State.modCan_get (n : Nat) (f : CanH → CanH) (q : Fld) : (s.modCan n f).get q = s.get q := (rfl)
@[simp] theorem State.modCan_byte (n : Nat) (f : CanH → CanH) (q : Nat) : (s.modCan n f).byte q = s.byte q := (rfl)
@[simp] theorem State.modCan_tileOf (n : Nat) (f : CanH → CanH) (q : Nat) : (s.modCan n f).tileOf q = s.tileOf q := (rfl)
@[simp] theorem State.modCan_now (n : Nat) (f : CanH → CanH) : (s.modCan n f).now = s.now := (rfl)

/-! ### modMvb -/

@[simp] theorem State.modMvb_io (n : Nat) (f : MvbH → MvbH) : (s.modMvb n f).io = s.io := (rfl)
@[simp] theorem State.modMvb_mem (n : Nat) (f : MvbH → MvbH) : (s.modMvb n f).mem = s.mem := (rfl)
@[simp] theorem State.modMvb_fresh (n : Nat) (f : MvbH → MvbH) : (s.modMvb n f).fresh = s.fresh := (rfl)
@[simp] theorem State.modMvb_pending (n : Nat) (f : MvbH → MvbH) : (s.modMvb n f).pending = s.pending := (rfl)
@[simp] theorem State.modMvb_inv (n : Nat) (f : MvbH → MvbH) : (s.modMvb n f).inv = s.inv := (rfl)
@[simp] theorem State.modMvb_clk (n : Nat) (f : MvbH → MvbH) : (s.modMvb n f).clk = s.clk := (rfl)
@[simp] theorem State.modMvb_tt (n : Nat) (f : MvbH → MvbH) : (s.modMvb n f).tt = s.tt := (rfl)
@[simp] theorem State.modMvb_flt (n : Nat) (f : MvbH → MvbH) : (s.modMvb n f).flt = s.flt := (rfl)
@[simp] theorem State.modMvb_edg (n : Nat) (f : MvbH → MvbH) : (s.modMvb n f).edg = s.edg := (rfl)
@[simp] theorem State.modMvb_ball (n : Nat) (f : MvbH → MvbH) : (s.modMvb n f).ball = s.ball := (rfl)
@[simp] theorem State.modMvb_fnIn (n : Nat) (f : MvbH → MvbH) : (s.modMvb n f).fnIn = s.fnIn := (rfl)
@[simp] theorem State.modMvb_tiles (n : Nat) (f : MvbH → MvbH) : (s.modMvb n f).tiles = s.tiles := (rfl)
@[simp] theorem State.modMvb_adc (n : Nat) (f : MvbH → MvbH) : (s.modMvb n f).adc = s.adc := (rfl)
@[simp] theorem State.modMvb_data (n : Nat) (f : MvbH → MvbH) : (s.modMvb n f).data = s.data := (rfl)
@[simp] theorem State.modMvb_memh (n : Nat) (f : MvbH → MvbH) : (s.modMvb n f).memh = s.memh := (rfl)
@[simp] theorem State.modMvb_omt (n : Nat) (f : MvbH → MvbH) : (s.modMvb n f).omt = s.omt := (rfl)
@[simp] theorem State.modMvb_vote (n : Nat) (f : MvbH → MvbH) : (s.modMvb n f).vote = s.vote := (rfl)
@[simp] theorem State.modMvb_pwr (n : Nat) (f : MvbH → MvbH) : (s.modMvb n f).pwr = s.pwr := (rfl)
@[simp] theorem State.modMvb_dbg (n : Nat) (f : MvbH → MvbH) : (s.modMvb n f).dbg = s.dbg := (rfl)
@[simp] theorem State.modMvb_dma (n : Nat) (f : MvbH → MvbH) : (s.modMvb n f).dma = s.dma := (rfl)
@[simp] theorem State.modMvb_turn (n : Nat) (f : MvbH → MvbH) : (s.modMvb n f).turn = s.turn := (rfl)
@[simp] theorem State.modMvb_net (n : Nat) (f : MvbH → MvbH) : (s.modMvb n f).net = s.net := (rfl)
@[simp] theorem State.modMvb_host (n : Nat) (f : MvbH → MvbH) : (s.modMvb n f).host = s.host := (rfl)
@[simp] theorem State.modMvb_boot (n : Nat) (f : MvbH → MvbH) : (s.modMvb n f).boot = s.boot := (rfl)
@[simp] theorem State.modMvb_reg (n : Nat) (f : MvbH → MvbH) (q : Nat) : (s.modMvb n f).reg q = s.reg q := (rfl)
@[simp] theorem State.modMvb_get (n : Nat) (f : MvbH → MvbH) (q : Fld) : (s.modMvb n f).get q = s.get q := (rfl)
@[simp] theorem State.modMvb_byte (n : Nat) (f : MvbH → MvbH) (q : Nat) : (s.modMvb n f).byte q = s.byte q := (rfl)
@[simp] theorem State.modMvb_tileOf (n : Nat) (f : MvbH → MvbH) (q : Nat) : (s.modMvb n f).tileOf q = s.tileOf q := (rfl)
@[simp] theorem State.modMvb_now (n : Nat) (f : MvbH → MvbH) : (s.modMvb n f).now = s.now := (rfl)

/-! ### modSer -/

@[simp] theorem State.modSer_io (n : Nat) (f : SerH → SerH) : (s.modSer n f).io = s.io := (rfl)
@[simp] theorem State.modSer_mem (n : Nat) (f : SerH → SerH) : (s.modSer n f).mem = s.mem := (rfl)
@[simp] theorem State.modSer_fresh (n : Nat) (f : SerH → SerH) : (s.modSer n f).fresh = s.fresh := (rfl)
@[simp] theorem State.modSer_pending (n : Nat) (f : SerH → SerH) : (s.modSer n f).pending = s.pending := (rfl)
@[simp] theorem State.modSer_inv (n : Nat) (f : SerH → SerH) : (s.modSer n f).inv = s.inv := (rfl)
@[simp] theorem State.modSer_clk (n : Nat) (f : SerH → SerH) : (s.modSer n f).clk = s.clk := (rfl)
@[simp] theorem State.modSer_tt (n : Nat) (f : SerH → SerH) : (s.modSer n f).tt = s.tt := (rfl)
@[simp] theorem State.modSer_flt (n : Nat) (f : SerH → SerH) : (s.modSer n f).flt = s.flt := (rfl)
@[simp] theorem State.modSer_edg (n : Nat) (f : SerH → SerH) : (s.modSer n f).edg = s.edg := (rfl)
@[simp] theorem State.modSer_ball (n : Nat) (f : SerH → SerH) : (s.modSer n f).ball = s.ball := (rfl)
@[simp] theorem State.modSer_fnIn (n : Nat) (f : SerH → SerH) : (s.modSer n f).fnIn = s.fnIn := (rfl)
@[simp] theorem State.modSer_tiles (n : Nat) (f : SerH → SerH) : (s.modSer n f).tiles = s.tiles := (rfl)
@[simp] theorem State.modSer_adc (n : Nat) (f : SerH → SerH) : (s.modSer n f).adc = s.adc := (rfl)
@[simp] theorem State.modSer_data (n : Nat) (f : SerH → SerH) : (s.modSer n f).data = s.data := (rfl)
@[simp] theorem State.modSer_memh (n : Nat) (f : SerH → SerH) : (s.modSer n f).memh = s.memh := (rfl)
@[simp] theorem State.modSer_omt (n : Nat) (f : SerH → SerH) : (s.modSer n f).omt = s.omt := (rfl)
@[simp] theorem State.modSer_vote (n : Nat) (f : SerH → SerH) : (s.modSer n f).vote = s.vote := (rfl)
@[simp] theorem State.modSer_pwr (n : Nat) (f : SerH → SerH) : (s.modSer n f).pwr = s.pwr := (rfl)
@[simp] theorem State.modSer_dbg (n : Nat) (f : SerH → SerH) : (s.modSer n f).dbg = s.dbg := (rfl)
@[simp] theorem State.modSer_dma (n : Nat) (f : SerH → SerH) : (s.modSer n f).dma = s.dma := (rfl)
@[simp] theorem State.modSer_turn (n : Nat) (f : SerH → SerH) : (s.modSer n f).turn = s.turn := (rfl)
@[simp] theorem State.modSer_net (n : Nat) (f : SerH → SerH) : (s.modSer n f).net = s.net := (rfl)
@[simp] theorem State.modSer_host (n : Nat) (f : SerH → SerH) : (s.modSer n f).host = s.host := (rfl)
@[simp] theorem State.modSer_boot (n : Nat) (f : SerH → SerH) : (s.modSer n f).boot = s.boot := (rfl)
@[simp] theorem State.modSer_reg (n : Nat) (f : SerH → SerH) (q : Nat) : (s.modSer n f).reg q = s.reg q := (rfl)
@[simp] theorem State.modSer_get (n : Nat) (f : SerH → SerH) (q : Fld) : (s.modSer n f).get q = s.get q := (rfl)
@[simp] theorem State.modSer_byte (n : Nat) (f : SerH → SerH) (q : Nat) : (s.modSer n f).byte q = s.byte q := (rfl)
@[simp] theorem State.modSer_tileOf (n : Nat) (f : SerH → SerH) (q : Nat) : (s.modSer n f).tileOf q = s.tileOf q := (rfl)
@[simp] theorem State.modSer_now (n : Nat) (f : SerH → SerH) : (s.modSer n f).now = s.now := (rfl)

end Sys2Proof.Machine
end

