-- ==== Sys2Proof/Laws/Regs.lean ====
section
/-!
SUPPORT. Sys2Proof/Laws/Regs.lean: the laws of registers, fields, bytes and the block tables: a read after a write to the same place
gives the value written, and a write leaves every other place alone.
-/
namespace Sys2Proof.Machine

/-! ### Fields of a word -/

theorem bitsOf_lt (v : Word) (lo w : Nat) : bitsOf v lo w < 2 ^ w := Nat.mod_lt _ (Nat.two_pow_pos w)

theorem bitsOf_le (v : Word) (lo w : Nat) : bitsOf v lo w * 2 ^ lo ≤ v.toNat := by
  unfold bitsOf
  calc v.toNat / 2 ^ lo % 2 ^ w * 2 ^ lo ≤ v.toNat / 2 ^ lo * 2 ^ lo := Nat.mul_le_mul_right _ (Nat.mod_le _ _)
    _ ≤ v.toNat := Nat.div_mul_le_self _ _

/-- A word splits into what lies above a field, the field, and what lies below it. -/
theorem word_split (v : Word) (lo w : Nat) :
    v.toNat = v.toNat / 2 ^ lo / 2 ^ w * 2 ^ (lo + w) + bitsOf v lo w * 2 ^ lo + v.toNat % 2 ^ lo := by
  have h1 := Nat.div_add_mod v.toNat (2 ^ lo)
  have h2 := Nat.div_add_mod (v.toNat / 2 ^ lo) (2 ^ w)
  calc v.toNat = 2 ^ lo * (2 ^ w * (v.toNat / 2 ^ lo / 2 ^ w) + v.toNat / 2 ^ lo % 2 ^ w) + v.toNat % 2 ^ lo := by rw [h2, h1]
    _ = _ := by unfold bitsOf; rw [pow_add]; ring

/-- The parts of a word after a field is written. -/
theorem toNat_withBits (v : Word) (lo w n : Nat) (h : lo + w ≤ 32) :
    (withBits v lo w n).toNat = v.toNat / 2 ^ lo / 2 ^ w * 2 ^ (lo + w) + n % 2 ^ w * 2 ^ lo + v.toNat % 2 ^ lo := by
  have hs := word_split v lo w
  have hl := bitsOf_le v lo w
  have hn : n % 2 ^ w ≤ 2 ^ w - 1 := Nat.le_sub_one_of_lt (Nat.mod_lt _ (Nat.two_pow_pos w))
  have ha : v.toNat / 2 ^ lo / 2 ^ w ≤ 2 ^ (32 - (lo + w)) - 1 := by
    apply Nat.le_sub_one_of_lt
    rw [Nat.div_div_eq_div_mul, ← pow_add, Nat.div_lt_iff_lt_mul (Nat.two_pow_pos _), ← pow_add]
    have := v.isLt
    rwa [Nat.sub_add_cancel h]
  have hr : v.toNat % 2 ^ lo < 2 ^ lo := Nat.mod_lt _ (Nat.two_pow_pos lo)
  have key : v.toNat / 2 ^ lo / 2 ^ w * 2 ^ (lo + w) + n % 2 ^ w * 2 ^ lo + v.toNat % 2 ^ lo < 2 ^ 32 := by
    have e1 : v.toNat / 2 ^ lo / 2 ^ w * 2 ^ (lo + w) ≤ (2 ^ (32 - (lo + w)) - 1) * 2 ^ (lo + w) := Nat.mul_le_mul_right _ ha
    have e2 : n % 2 ^ w * 2 ^ lo ≤ (2 ^ w - 1) * 2 ^ lo := Nat.mul_le_mul_right _ hn
    have e3 : (2 ^ w - 1) * 2 ^ lo + 2 ^ lo = 2 ^ (lo + w) := by
      rw [Nat.sub_mul, one_mul, Nat.sub_add_cancel, pow_add, mul_comm]
      exact Nat.le_mul_of_pos_left _ (Nat.two_pow_pos w)
    have e4 : (2 ^ (32 - (lo + w)) - 1) * 2 ^ (lo + w) + 2 ^ (lo + w) = 2 ^ 32 := by
      rw [Nat.sub_mul, one_mul, Nat.sub_add_cancel, ← pow_add, Nat.sub_add_cancel h]
      exact Nat.le_mul_of_pos_left _ (Nat.two_pow_pos _)
    omega
  unfold withBits
  rw [BitVec.toNat_ofNat]
  have e : v.toNat - bitsOf v lo w * 2 ^ lo + n % 2 ^ w * 2 ^ lo =
      v.toNat / 2 ^ lo / 2 ^ w * 2 ^ (lo + w) + n % 2 ^ w * 2 ^ lo + v.toNat % 2 ^ lo := by omega
  rw [e, Nat.mod_eq_of_lt key]

theorem split_div (a b r lo w : Nat) (hr : r < 2 ^ lo) : (a * 2 ^ (lo + w) + b * 2 ^ lo + r) / 2 ^ lo = a * 2 ^ w + b := by
  rw [pow_add, show a * (2 ^ lo * 2 ^ w) + b * 2 ^ lo + r = r + 2 ^ lo * (a * 2 ^ w + b) by ring,
    Nat.add_mul_div_left _ _ (Nat.two_pow_pos lo), Nat.div_eq_of_lt hr, Nat.zero_add]

/-- A field reads as what was written to it. -/
theorem bitsOf_withBits (v : Word) (lo w n : Nat) (h : lo + w ≤ 32) : bitsOf (withBits v lo w n) lo w = n % 2 ^ w := by
  have hr : v.toNat % 2 ^ lo < 2 ^ lo := Nat.mod_lt _ (Nat.two_pow_pos lo)
  unfold bitsOf
  rw [toNat_withBits v lo w n h, split_div _ _ _ _ _ hr, Nat.add_comm, Nat.add_mul_mod_self_right, Nat.mod_mod]

/-- A field above the one written keeps its value. -/
theorem bitsOf_withBits_above (v : Word) (lo w n lo' w' : Nat) (h : lo + w ≤ 32) (hd : lo + w ≤ lo') :
    bitsOf (withBits v lo w n) lo' w' = bitsOf v lo' w' := by
  have hr : v.toNat % 2 ^ lo < 2 ^ lo := Nat.mod_lt _ (Nat.two_pow_pos lo)
  have hn : n % 2 ^ w < 2 ^ w := Nat.mod_lt _ (Nat.two_pow_pos w)
  have hb := bitsOf_lt v lo w
  obtain ⟨d, rfl⟩ := Nat.exists_eq_add_of_le hd
  have cut : ∀ b, b < 2 ^ w → (v.toNat / 2 ^ lo / 2 ^ w * 2 ^ (lo + w) + b * 2 ^ lo + v.toNat % 2 ^ lo) / 2 ^ (lo + w + d) =
      v.toNat / 2 ^ lo / 2 ^ w / 2 ^ d := by
    intro b hb
    rw [pow_add 2 (lo + w) d, ← Nat.div_div_eq_div_mul, pow_add 2 lo w, ← Nat.div_div_eq_div_mul, ← pow_add 2 lo w,
      split_div _ _ _ _ _ hr, Nat.add_comm, Nat.add_mul_div_right _ _ (Nat.two_pow_pos w), Nat.div_eq_of_lt hb, Nat.zero_add]
  unfold bitsOf
  rw [toNat_withBits v lo w n h, cut _ hn]
  conv_rhs => rw [word_split v lo w, cut _ hb]

/-- A field below the one written keeps its value. -/
theorem bitsOf_withBits_below (v : Word) (lo w n lo' w' : Nat) (h : lo + w ≤ 32) (hd : lo' + w' ≤ lo) :
    bitsOf (withBits v lo w n) lo' w' = bitsOf v lo' w' := by
  have low : ∀ a b : Nat, (a * 2 ^ (lo + w) + b * 2 ^ lo + v.toNat % 2 ^ lo) % 2 ^ (lo' + w') = v.toNat % 2 ^ (lo' + w') := by
    intro a b
    obtain ⟨d, rfl⟩ := Nat.exists_eq_add_of_le hd
    rw [show a * 2 ^ (lo' + w' + d + w) + b * 2 ^ (lo' + w' + d) + v.toNat % 2 ^ (lo' + w' + d) =
      v.toNat % 2 ^ (lo' + w' + d) + 2 ^ (lo' + w') * (a * 2 ^ (d + w) + b * 2 ^ d) by rw [pow_add, pow_add, pow_add, pow_add]; ring,
      Nat.add_mul_mod_self_left, pow_add 2 (lo' + w') d, Nat.mod_mul_right_mod]
  unfold bitsOf
  rw [← Nat.mod_mul_right_div_self, ← Nat.mod_mul_right_div_self, ← pow_add, toNat_withBits v lo w n h, low]

/-! ### Conditional updates -/

@[simp] theorem State.when_true (s : State) (f : State → State) : s.when true f = f s := (rfl)
@[simp] theorem State.when_false (s : State) (f : State → State) : s.when false f = s := (rfl)

/-! ### Registers -/

/-- A register reads as what was written to it, and every other register as before. -/
@[simp] theorem State.reg_setReg (s : State) (a : Nat) (v : Word) (b : Nat) :
    (s.setReg a v).reg b = if b = a then v else s.reg b := by
  unfold State.reg State.setReg
  by_cases h : b = a
  · subst h; simp [lookup_store]
  · simp [h, lookup_store_ne _ _ _ _ _ h]

@[simp] theorem State.reg_set (s : State) (f : Fld) (n b : Nat) :
    (s.set f n).reg b = if b = f.addr then withBits (s.reg f.addr) f.lo f.w n else s.reg b := by
  simp [State.set]

/-- Registers that satisfy `p` return to their reset values; the others keep theirs. -/
@[simp] theorem State.reg_resetRegs (s : State) (p : Nat → Bool) (b : Nat) :
    (s.resetRegs p).reg b = if p b then ioReset b else s.reg b := by
  unfold State.reg State.resetRegs
  rw [lookup_filter_self s.io (fun a => !p a) b]
  by_cases h : p b <;> simp [h]

/-- A field reads as what was written to it. -/
theorem State.get_set_same (s : State) (f : Fld) (n : Nat) (h : f.lo + f.w ≤ 32) : (s.set f n).get f = n % 2 ^ f.w := by
  simp [State.get, bitsOf_withBits _ _ _ _ h]

/-- A field of another register keeps its value. -/
theorem State.get_set_other (s : State) (f g : Fld) (n : Nat) (h : g.addr ≠ f.addr) : (s.set f n).get g = s.get g := by
  simp [State.get, h]

/-- Another field of the same register keeps its value. -/
theorem State.get_set_apart (s : State) (f g : Fld) (n : Nat) (hf : f.lo + f.w ≤ 32)
    (h : g.lo + g.w ≤ f.lo ∨ f.lo + f.w ≤ g.lo) : (s.set f n).get g = s.get g := by
  unfold State.get
  rw [State.reg_set]
  by_cases ha : g.addr = f.addr
  · rw [if_pos ha, ← ha]
    rcases h with h | h
    · exact bitsOf_withBits_below _ _ _ _ _ _ hf h
    · exact bitsOf_withBits_above _ _ _ _ _ _ hf h
  · rw [if_neg ha]

/-- A write of a register leaves the fields of the others alone. -/
theorem State.get_setReg_other (s : State) (a : Nat) (v : Word) (g : Fld) (h : g.addr ≠ a) : (s.setReg a v).get g = s.get g := by
  simp [State.get, h]

/-! ### Memory -/

/-- A byte reads as what was written to it, and every other byte as before. -/
@[simp] theorem State.byte_setByte (s : State) (k : Nat) (v : Byte) (j : Nat) :
    (s.setByte k v).byte j = if j = k then v else s.byte j := by
  unfold State.byte State.setByte
  by_cases h : j = k
  · subst h; simp [lookup_store]
  · simp [h, lookup_store_ne _ _ _ _ _ h]

/-- A store of bytes leaves every byte outside them alone. -/
theorem State.byte_setBytes_outside (s : State) (k : Nat) (l : List Byte) (j : Nat) (h : j < k ∨ k + l.length ≤ j) :
    (s.setBytes k l).byte j = s.byte j := by
  induction l generalizing s k with
  | nil => rfl
  | cons b rest ih =>
    simp only [List.length_cons] at h
    have hj : j ≠ k := by omega
    rw [State.setBytes, ih _ _ (by omega)]
    simp [hj]

/-- Each byte of a store reads as it was stored. -/
theorem State.byte_setBytes_inside (s : State) (k : Nat) (l : List Byte) (i : Nat) (h : i < l.length) :
    (s.setBytes k l).byte (k + i) = l[i] := by
  induction l generalizing s k i with
  | nil => simp at h
  | cons b rest ih =>
    cases i with
    | zero =>
      rw [State.setBytes, State.byte_setBytes_outside _ _ _ _ (by omega)]
      simp
    | succ i =>
      have e : k + (i + 1) = k + 1 + i := by omega
      rw [State.setBytes, e, ih _ _ _ (by simpa using h)]
      simp

/-! ### Tables -/

/-- An element reads as what was put in its place, and every other as before. -/
theorem atD_updAt {α : Type} {n : Nat} (v : Vector α n) (i : Nat) (f : α → α) (j : Nat) (d : α) (h : i < n) :
    atD (updAt v i f) j d = if j = i then f (atD v i d) else atD v j d := by
  unfold atD updAt
  by_cases hj : j < n
  · by_cases hij : j = i
    · subst hij; simp [h]
    · have : ¬ i = j := fun e => hij e.symm
      simp [h, hj, hij, this]
  · have : ¬ j = i := by omega
    simp [hj, this]

@[simp] theorem State.tileOf_modTile (s : State) (t u : Nat) (f : Tile → Tile) (h : t < 24) :
    (s.modTile t f).tileOf u = if u = t then f (s.tileOf t) else s.tileOf u := by
  unfold State.tileOf State.modTile
  exact atD_updAt _ _ _ _ _ h

end Sys2Proof.Machine
end

