-- ==== Sys2Proof/Laws/Inv.lean ====
section
/-!
SUPPORT. Sys2Proof/Laws/Inv.lean: the canonical form of memory and registers: every operation over them keeps it, and the machine
after reset has it.
-/
namespace Sys2Proof.Machine

/-- Nothing is listed in the memory after reset, which is canonical. -/
theorem reset_memory_wf : Memory.wf State.reset.mem := canonical_nil _
/-- Nothing is listed in the registers after power-on, which is canonical. -/
theorem reset_regs_nil : Regs.wf [] := canonical_nil _

/-! ### Memory -/

theorem setByte_wf {s : State} (h : Memory.wf s.mem) (k : Nat) (v : Byte) : Memory.wf (s.setByte k v).mem :=
  canonical_store k v h

theorem setBytes_wf {s : State} (h : Memory.wf s.mem) (k : Nat) (d : List Byte) : Memory.wf (s.setBytes k d).mem := by
  induction d generalizing s k with
  | nil => exact h
  | cons b rest ih => exact ih (setByte_wf h k b) (k + 1)

theorem storeN_wf {s : State} (h : Memory.wf s.mem) (k n v : Nat) : Memory.wf (s.storeN k n v).mem := setBytes_wf h k _

theorem clearMem_wf {s : State} (h : Memory.wf s.mem) (lo hi : Nat) : Memory.wf (s.clearMem lo hi).mem := canonical_filter _ h

/-- A byte stored reads as stored, and every other as before. -/
@[simp] theorem State.byte_setBytes_before (s : State) (k j : Nat) (d : List Byte) (h : j < k) :
    (s.setBytes k d).byte j = s.byte j := by
  induction d generalizing s k with
  | nil => rfl
  | cons b rest ih =>
    rw [State.setBytes, ih _ _ (by omega)]
    unfold State.byte State.setByte
    rw [lookup_store_ne _ _ _ _ _ (by omega)]

/-! ### Registers -/

theorem setReg_inv {s : State} (h : Inv s) (a : Nat) (v : Word) : Inv (s.setReg a v) := ⟨canonical_store a v h.1, h.2⟩
theorem set_inv {s : State} (h : Inv s) (f : Fld) (n : Nat) : Inv (s.set f n) := setReg_inv h _ _
theorem setN_inv {s : State} (h : Inv s) (a n : Nat) : Inv (s.setN a n) := setReg_inv h _ _
theorem setPair_inv {s : State} (h : Inv s) (a n : Nat) : Inv (s.setPair a n) := setN_inv (setN_inv h _ _) _ _
theorem resetRegs_inv {s : State} (h : Inv s) (p : Nat → Bool) : Inv (s.resetRegs p) := ⟨canonical_filter _ h.1, h.2⟩

/-! ### The invariant under the operations over the state -/

theorem setByte_inv {s : State} (h : Inv s) (k : Nat) (v : Byte) : Inv (s.setByte k v) := ⟨h.1, setByte_wf h.2 k v⟩
theorem setBytes_io (s : State) (k : Nat) (d : List Byte) : (s.setBytes k d).io = s.io := by
  induction d generalizing s k with
  | nil => rfl
  | cons b rest ih => exact ih _ _
theorem setBytes_inv {s : State} (h : Inv s) (k : Nat) (d : List Byte) : Inv (s.setBytes k d) :=
  ⟨by rw [setBytes_io]; exact h.1, setBytes_wf h.2 k d⟩
theorem storeN_inv {s : State} (h : Inv s) (k n v : Nat) : Inv (s.storeN k n v) := setBytes_inv h _ _
theorem clearMem_inv {s : State} (h : Inv s) (lo hi : Nat) : Inv (s.clearMem lo hi) := ⟨h.1, clearMem_wf h.2 lo hi⟩
theorem drawn_inv {s : State} (h : Inv s) : Inv s.drawn := h

/-- An update that touches neither map keeps the invariant. -/
theorem inv_of_maps {s t : State} (h : Inv s) (hio : t.io = s.io) (hmem : t.mem = s.mem) : Inv t := by
  unfold Inv; rw [hio, hmem]; exact h

theorem when_inv {s : State} (h : Inv s) (b : Bool) (f : State → State) (hf : Inv s → Inv (f s)) : Inv (s.when b f) := by
  cases b
  · exact h
  · exact hf h

theorem forEach_inv {α : Type} (l : List α) (f : α → State → State) (hf : ∀ x s, Inv s → Inv (f x s)) {s : State} (h : Inv s) :
    Inv (s.forEach l f) := by
  unfold State.forEach
  induction l generalizing s with
  | nil => exact h
  | cons x l ih => exact ih (hf x s h)

theorem countReg_inv {s : State} (h : Inv s) (a : Nat) : Inv (s.countReg a) := setN_inv h _ _
theorem raise_inv {s : State} (h : Inv s) (f : Fld) : Inv (s.raise f) := set_inv h _ _
theorem bump_inv {s : State} (h : Inv s) (f : Fld) : Inv (s.bump f) := set_inv h _ _
theorem count_inv {s : State} (h : Inv s) (f : Fld) : Inv (s.count f) := set_inv h _ _
theorem setB_inv {s : State} (h : Inv s) (f : Fld) (b : Bool) : Inv (s.setB f b) := set_inv h _ _

/-- A fault record keeps the invariant (R418). -/
theorem fault_inv {s : State} (h : Inv s) (code source : Nat) (detail : Word) : Inv (s.fault code source detail) := by
  unfold State.fault
  extract_lets i full s1 s2 s3 s4 s5 s6 s7 s8
  have h3 : Inv s3 := setReg_inv (setPair_inv (setN_inv h _ _) _ _) _ _
  have h5 : Inv s5 := inv_of_maps h3 rfl rfl
  have h6 : Inv s6 := set_inv h5 _ _
  have h7 : Inv s7 := by
    show Inv (if full then _ else _)
    split
    · exact raise_inv (bump_inv h6 _) _
    · exact set_inv h6 _ _
  exact when_inv (when_inv (raise_inv h7 _) _ _ (fun h => raise_inv h _)) _ _ (fun h => raise_inv h _)

end Sys2Proof.Machine
end

