-- ==== Sys2Proof/Laws/Tile.lean ====
section
/-!
SUPPORT. Sys2Proof/Laws/Tile.lean: what the issue of an instruction does, said once: the edge of issue, the undefined words, and
the composition of an effect on one tile.
-/
namespace Sys2Proof.Machine

/-! ### Instruction words -/

theorem bitsOf_ofNat (n lo w : Nat) (h : n < 2 ^ 32) : bitsOf (BitVec.ofNat 32 n) lo w = n / 2 ^ lo % 2 ^ w := by
  unfold bitsOf; rw [BitVec.toNat_ofNat, Nat.mod_eq_of_lt h]

/-- The fields of an R-format word. -/
theorem encR_fields (op aux minor : Nat) (ga gb gc : Fin 16) (ho : op < 64) (ha : aux < 256) (hm : minor < 64) :
    let w := encR op ga gb gc aux minor
    bitsOf w 26 6 = op ∧ bitsOf w 22 4 = ga ∧ bitsOf w 18 4 = gb ∧ bitsOf w 14 4 = gc ∧ bitsOf w 6 8 = aux ∧
      bitsOf w 0 6 = minor := by
  have h1 := ga.isLt
  have h2 := gb.isLt
  have h3 := gc.isLt
  have hlt : op * 2 ^ 26 + ga * 2 ^ 22 + gb * 2 ^ 18 + gc * 2 ^ 14 + aux * 2 ^ 6 + minor < 2 ^ 32 := by omega
  intro w
  simp only [w, encR, bitsOf_ofNat _ _ _ hlt]
  refine ⟨?_, ?_, ?_, ?_, ?_, ?_⟩ <;> omega

/-- The fields of an I-format word. -/
theorem encI_fields (op imm : Nat) (ga gb : Fin 16) (ho : op < 64) (hi : imm < 262144) :
    let w := encI op ga gb imm
    bitsOf w 26 6 = op ∧ bitsOf w 22 4 = ga ∧ bitsOf w 18 4 = gb ∧ bitsOf w 0 18 = imm := by
  have h1 := ga.isLt
  have h2 := gb.isLt
  have hlt : op * 2 ^ 26 + ga * 2 ^ 22 + gb * 2 ^ 18 + imm < 2 ^ 32 := by omega
  intro w
  simp only [w, encI, bitsOf_ofNat _ _ _ hlt]
  refine ⟨?_, ?_, ?_, ?_⟩ <;> omega

/-- R98 on an ALU word: minor 0x12 has gc 0. -/
theorem defined_alu (ga gb gc : Fin 16) (minor : Nat) (h : minor ≤ 0x12) (hc : minor = 0x12 → gc = 0) :
    undefinedWord (encR 1 ga gb gc 0 minor) = false := by
  obtain ⟨e1, -, -, e4, e5, e6⟩ := encR_fields 1 0 minor ga gb gc (by omega) (by omega) (by omega)
  have : ¬ 18 < minor := by omega
  by_cases hm : minor = 18
  · have e4' : bitsOf (encR 1 ga gb gc 0 minor) 14 4 = 0 := by rw [e4, hc hm]; rfl
    simp [undefinedWord, e1, e4', e5, e6, this]
  · simp [undefinedWord, e1, e5, e6, hm, this]

/-! ### The edge of issue -/

@[simp] theorem edged_get (x : Tile) (g : Fin 16) : (edged x).get g = x.get g := rfl

/-- The edge of issue changes nothing but the tile's hold window, its cache order and its count of hits. -/
theorem issueEdge_step (s : State) (t : Nat) (ht : t < 24) : TileStep t id s (issueEdge t s) := by
  have e : ∀ hit : Bool, TileStep t id s ((s.when hit (·.countReg (ICACHE_HITS t))).modTile t (fun x =>
      { edged x with icache := if hit then cacheTouch (lineOf (s.tileOf t).pc.toNat) x.icache else x.icache })) := by
    intro hit
    cases hit
    · rw [State.when_false]
      refine ⟨by simp [ht, Tile.bare], fun u hu => by simp [ht, hu], ?_, ?_⟩
      · intro a _; rw [State.modTile_reg]
      · rfl
    · rw [State.when_true]
      refine ⟨by simp [ht, Tile.bare], fun u hu => by simp [ht, hu], fun a ha => ?_, by simp⟩
      have h : a ≠ ICACHE_HITS t := by simpa using ha
      rw [State.modTile_reg, State.countReg, State.setN, State.reg_setReg, if_neg h]
  exact e _

/-! ### Effects on one tile -/

theorem updAt_updAt {α : Type} {n : Nat} (v : Vector α n) (i : Nat) (f g : α → α) : updAt (updAt v i f) i g = updAt v i (g ∘ f) := by
  unfold updAt
  by_cases h : i < n <;> simp [h]

theorem modTile_modTile (s : State) (t : Nat) (f g : Tile → Tile) : (s.modTile t f).modTile t g = s.modTile t (g ∘ f) := by
  simp [State.modTile, updAt_updAt]

theorem modTile_congr (s : State) (t : Nat) (f g : Tile → Tile) (ht : t < 24) (h : f (s.tileOf t) = g (s.tileOf t)) :
    s.modTile t f = s.modTile t g := by
  unfold State.modTile updAt
  simp only [State.tileOf, atD, ht, dif_pos] at h ⊢
  rw [h]

/-- The next instruction follows. -/
theorem retire_eq (s : State) (t : Nat) (ht : t < 24) : retire t s = s.modTile t done := by
  unfold retire goTo
  exact modTile_congr _ _ _ _ ht rfl

/-- A result is written, with WST.sat where it was clamped. -/
theorem result_eq (s : State) (t : Nat) (ga : Fin 16) (v : Word) (b : Bool) (ht : t < 24) :
    result t ga v b s = s.modTile t (fun x => satIf b (wrote ga v x)) := by
  unfold result
  rw [retire_eq _ _ ht, modTile_modTile]
  apply modTile_congr _ _ _ _ ht
  unfold satIf wrote done Tile.put
  have e : ∀ w : Word, (w ||| 262144#32) &&& 4294443007#32 = (w &&& 4294443007#32) ||| 262144#32 := fun w => by
    rw [BitVec.and_comm, BitVec.and_or_distrib_left]
    congr 1
    exact BitVec.and_comm _ _
  cases b <;> by_cases h : (ga.val == 15) = true <;> simp [h, e]

/-- An effect that does not look at the cache order, on a tile after its edge of issue. -/
theorem TileStep.andThen {s s1 : State} {t : Nat} (h : TileStep t id s s1) (ht : t < 24) (g : Tile → Tile)
    (hg : ∀ x : Tile, (g x.bare).bare = (g x).bare) :
    TileStep t g s (s1.modTile t g) := by
  obtain ⟨h1, h2, h3, h4⟩ := h
  refine ⟨?_, ?_, ?_, ?_⟩
  · rw [State.tileOf_modTile _ _ _ _ ht, if_pos rfl, ← hg, h1]
    exact hg _
  · intro u hu
    rw [State.tileOf_modTile _ _ _ _ ht, if_neg hu, h2 u hu]
  · intro a ha; exact h3 a ha
  · exact h4

/-- A defined instruction that may issue, and whose level suffices, runs on the edge of issue. -/
theorem issue_eq {s : State} {t : Nat} (h : Ready s t) (w : Word) (priv : Bool) (body : Tile → State → State)
    (hw : undefinedWord w = false) (hp : priv = true → ((issueEdge t s).tileOf t).sup = true) :
    issue t w priv body s = body ((issueEdge t s).tileOf t) (issueEdge t s) := by
  unfold issue
  rw [h.1, h.2]
  cases priv
  · simp [hw]
  · simp [hw, hp]

/-- The registers that the edge of issue shows are those before it. -/
theorem issueEdge_get (s : State) (t : Nat) (ht : t < 24) (g : Fin 16) :
    ((issueEdge t s).tileOf t).get g = (s.tileOf t).get g := by
  have h := (issueEdge_step s t ht).1
  have e : ((issueEdge t s).tileOf t).bare.get g = (id (edged (s.tileOf t))).bare.get g := by rw [h]
  exact e

/-! ### Instructions that complete on their edge of issue -/

/-- An instruction whose meaning is an effect `g` on its tile after the edge of issue runs with that effect. -/
theorem runs_of {c : Instr} {s s' : State} {t : Fin 24} {f g : Tile → Tile} (h : exec c s = .next s')
    (hs : s' = (issueEdge t s).modTile t g) (hf : f (edged (s.tileOf t)) = g (edged (s.tileOf t)))
    (hg : ∀ x : Tile, (g x.bare).bare = (g x).bare) : Runs c t f s := by
  refine ⟨s', h, ?_⟩
  subst hs
  have := (issueEdge_step s t t.isLt).andThen t.isLt g hg
  unfold TileStep at *
  rw [hf]; exact this

/-- A result written to a register does not look at the cache order. -/
theorem wrote_bare (ga : Fin 16) (v : Word) (b : Bool) (x : Tile) :
    (satIf b (wrote ga v x.bare)).bare = (satIf b (wrote ga v x)).bare := by
  unfold satIf wrote done Tile.put Tile.bare
  by_cases h : (ga.val == 15) = true <;> simp [h] <;> rfl

/-- A register form of the ALU writes what its operation gives (R99). -/
theorem aluR_runs {c : Instr} {s : State} {t : Fin 24} (minor : Nat) (ga gb gc : Fin 16) (f : Word → Word → Word) {v : Word}
    (h : Ready s t) (hm : minor ≤ 0x12) (hc : minor = 0x12 → gc = 0) (he : exec c s = .next (aluR t minor ga gb gc f s))
    (hv : f ((s.tileOf t).get gb) ((s.tileOf t).get gc) = v) : Runs c t (wrote ga v) s := by
  refine runs_of (g := fun x => satIf false (wrote ga v x)) he ?_ rfl (wrote_bare ga v false)
  unfold aluR
  rw [issue_eq h _ _ _ (defined_alu ga gb gc minor hm hc) (by simp), result_eq _ _ _ _ _ t.isLt, issueEdge_get _ _ t.isLt,
    issueEdge_get _ _ t.isLt, hv]

/-- A saturating form of the ALU writes its clamped result and sets WST.sat where it was clamped (R100). -/
theorem aluSat_runs {c : Instr} {s : State} {t : Fin 24} (minor : Nat) (ga gb gc : Fin 16) (f : Word → Word → Word × Bool)
    {v : Word × Bool} (h : Ready s t) (hm : minor ≤ 0x12) (hc : minor = 0x12 → gc = 0)
    (he : exec c s = .next (aluSat t minor ga gb gc f s)) (hv : f ((s.tileOf t).get gb) ((s.tileOf t).get gc) = v) :
    Runs c t (fun x => satIf v.2 (wrote ga v.1 x)) s := by
  refine runs_of (g := fun x => satIf v.2 (wrote ga v.1 x)) he ?_ rfl (wrote_bare ga v.1 v.2)
  unfold aluSat
  rw [issue_eq h _ _ _ (defined_alu ga gb gc minor hm hc) (by simp)]
  simp only [result_eq _ _ _ _ _ t.isLt, issueEdge_get _ _ t.isLt, hv]

end Sys2Proof.Machine
end

