-- ==== Sys2Proof/WellFormed.lean ====
section
/-!
DEFINITION. Sys2Proof/WellFormed.lean: the commands whose operands the outside world can give.  Most operand types admit no other
value; the checks here bound the lists, instants and byte counts that a type does not.
-/
namespace Sys2Proof

/-- A list of exactly `n` octets. -/
def sized (d : List Byte) (n : Nat) : Bool := d.length == n
/-- An instant of train time in ns, a 64-bit value (R73). -/
def instantOk (t : Nat) : Bool := t < 2 ^ 64
/-- A counter value in 1/16 ns: a 32-bit count of ns and its fraction (R251). -/
def stampOk (t : Nat) : Bool := t < 2 ^ 36
/-- A scaled rate offset: a signed 32-bit value (R283). -/
def ratioOk (r : Int) : Bool := -(2 ^ 31) ≤ r && r < 2 ^ 31
/-- Each number of a priority vector has its field's width (R283). -/
def vectorOk (v widths : List Nat) : Bool := (v.zip widths).all (fun e => e.1 < 2 ^ e.2)

/-- A command that the outside world can give: digests, fingerprints, nonces, headers and frames have their lengths, command bodies
fit the 1496 octets of R397, accesses are of 1, 2 or 4 bytes, MVB frames of 1 to 8 words. -/
def Instr.wf : Instr → Bool
  | .stageBegin _ _ digest => sized digest 48
  | .stageData _ d => d.length ≤ 1444
  | .beaconReceive _ fp _ _ _ => sized fp 12
  | .syncReceive _ _ _ _ cum _ seqId => ratioOk cum && seqId < 2 ^ 16
  | .announceReceive _ vec _ => vectorOk vec.toList [8, 8, 8, 16, 8, 64, 16, 64, 16]
  | .capture _ _ _ cross t0 => stampOk cross && stampOk t0
  | .frameHeaderReceive _ d => sized d 64
  | .frameReceive _ d _ => d.length ≤ 65536
  | .canFrameReceive _ _ _ _ data _ => data.all (fun d => d.length ≤ 16)
  | .mvbSinkReceive _ ws _ => [1, 2, 4, 8].contains ws.length
  | .mvbAdminReply _ ws => [1, 2, 4, 8].contains ws.length
  | .i2cTransferDone _ _ _ got => got.length ≤ 32
  | .inputChange _ _ t0 => instantOk t0
  | .hostAccess _ _ _ n _ _ _ => [1, 2, 4].contains n.val
  | .debugAccess _ _ _ n _ _ _ => [1, 2, 4].contains n.val
  | .hostSpiTransaction _ _ _ ws es => ws.length ≤ 256 && es.length ≤ 256
  | .slotData _ d => d.length ≤ 1444
  | .recoveryWrite _ _ d => d.length ≤ 1440
  | .bootVerdict nonce h3 _ => sized nonce 16 && sized h3 48
  | .registerWrite .. | .widePairRead .. | .latchExpiry .. | .writeStage .. | .widePairCommit .. | .stageExpiry ..
  | .inventoryVerifyDone .. | .stageArm .. | .stageCancel .. | .revert .. | .epochTick .. | .revertDecision ..
  | .revertInstant .. | .revertTick .. | .lateRevertTick .. | .beaconSend .. | .peerMissing .. | .watchCheck ..
  | .monitorGate .. | .missingEdge .. | .sourceDecision .. | .revertHoldoff .. | .clkSelect .. | .referenceSwitchDone ..
  | .deadswitch .. | .glideEnd .. | .periodMeasure .. | .clockFaultHold .. | .holdTimeout .. | .syncTimeout ..
  | .announceReceiptTimeout .. | .syncSend .. | .pdelayReqSend .. | .pdelayReq .. | .pdelayRespReceive .. | .ttSlewAmount ..
  | .ttStep .. | .haStateWrite .. | .snapGo .. | .add .. | .sub .. | .and .. | .or .. | .xor .. | .andn .. | .slt ..
  | .sltu .. | .shl .. | .shr .. | .sar .. | .ror .. | .min .. | .max .. | .minu .. | .maxu .. | .adds .. | .subs ..
  | .clz .. | .addi .. | .andi .. | .ori .. | .xori .. | .slti .. | .sltui .. | .shiShl .. | .shiShr .. | .shiSar ..
  | .shiRor .. | .lui .. | .apc .. | .extu .. | .exts .. | .ins .. | .satg .. | .mul .. | .mulu .. | .mul16 .. | .mac ..
  | .macu .. | .msu .. | .mac16 .. | .clra .. | .lda .. | .div .. | .divu .. | .mulResult .. | .macResult .. | .divResult ..
  | .exta .. | .mfs .. | .mts .. | .ldw .. | .ldh .. | .ldhu .. | .ldb .. | .ldbu .. | .stw .. | .sth .. | .stb ..
  | .ldxw .. | .ldxh .. | .ldxhu .. | .ldxb .. | .ldxbu .. | .stxw .. | .stxh .. | .stxb .. | .inp .. | .out ..
  | .loadDataReturn .. | .postedWriteComplete .. | .beq .. | .bne .. | .blt .. | .bge .. | .bltu .. | .bgeu .. | .dbnz ..
  | .jal .. | .j .. | .jr .. | .jalr .. | .nop .. | .sync .. | .wait .. | .eret .. | .trap .. | .brk .. | .ei .. | .di ..
  | .wcall .. | .wret .. | .cinv .. | .cinva .. | .bmov .. | .bfil .. | .bcrc .. | .bcmp .. | .bdot .. | .longElement ..
  | .icacheMissFill .. | .eventEntry .. | .lockupTileReset .. | .tileResetRelease .. | .holdOverrun .. | .wakeTimeout ..
  | .evcCfg .. | .clearEmerg .. | .omtTxGo .. | .messageArrival .. | .queueFull .. | .messageVisible .. | .omtRxPop ..
  | .omtNackPop .. | .resend .. | .discard .. | .voteWrite .. | .voteWriteArrival .. | .finalize .. | .verdictReceive ..
  | .votePortCfg .. | .cfgVoteTimeout .. | .release .. | .lock .. | .goSafe .. | .ckptDue .. | .memberFaultReport ..
  | .copyComplete .. | .spareRelease .. | .hostTimeout .. | .voteTakeover .. | .votedFrameRead .. | .bankStateReq ..
  | .bankEntryDone .. | .bankWakeDone .. | .confClear .. | .deepExitGroup .. | .eccWriteback .. | .vaultWipe ..
  | .vaultWipeDone .. | .wipe .. | .mramLineWrite .. | .dmaGo .. | .disable .. | .resume .. | .clear .. | .restart ..
  | .channelStart .. | .paceLatch .. | .chLevel .. | .listFetch .. | .beatComplete .. | .disableStopPoint .. | .adcEnable ..
  | .adcDisable .. | .adcGo .. | .flush .. | .adcTtTrigger .. | .conversionComplete .. | .adcFifoRead .. | .edgeEnable ..
  | .edgeDisable .. | .arm .. | .disarm .. | .forceActive .. | .forceInactive .. | .syncTt .. | .clrOvr .. | .edgCmp ..
  | .edgCnt .. | .edgSync .. | .compareFire .. | .dutyLoad .. | .cycleStart .. | .pwmTransition .. | .edgCapPop ..
  | .transmitSelect .. | .transmitDone .. | .gateEntry .. | .fdbAgeing .. | .lookup .. | .insert .. | .delete ..
  | .flushDynamic .. | .flushPort .. | .fdbDone .. | .learnNotifyRead .. | .linkChange .. | .frerReset ..
  | .ttdpHelloSend .. | .ttdpTimeout .. | .bootStatusSend .. | .txDoorbell .. | .rxTail .. | .busEnable .. | .busDisable ..
  | .busStop .. | .rxFifoPop .. | .txFifoWrite .. | .canTxReq .. | .canTxCancel .. | .canFrameEnd .. | .busOffRecovery ..
  | .mvbMasterFrame .. | .mvbSlaveReply .. | .mvbSourceCommit .. | .mvbSinkRead .. | .mvbAdminCmd .. | .mvbAdminTimeout ..
  | .uartCharacter .. | .uartIdle .. | .spiWord .. | .i2cCmd .. | .stretchTimeout .. | .ownerDecision .. | .takeover ..
  | .safeIntervalStart .. | .gpioSet .. | .gpioClr .. | .gpioTgl .. | .gpioDir .. | .supplyMeasure .. | .tamperTrip ..
  | .domainRequest .. | .domainOffDone .. | .domainWakeDone .. | .tileReloadDone .. | .dozeEntry .. | .dozeWake ..
  | .drizzle .. | .cellar .. | .cancel .. | .noticeEnd .. | .mramFlushPoint .. | .domainShutdownPoint ..
  | .lowPowerEntryDone .. | .drizzleTick .. | .drizzleResult .. | .drizzleCycleEnd .. | .wakeTimer .. | .wake ..
  | .histClear .. | .powerOnReset .. | .powerOnResetRelease .. | .supwarn .. | .romStart .. | .records .. | .slotSelect ..
  | .firmware .. | .persist .. | .inventory .. | .tileLoad .. | .measure .. | .verdictTimeout .. | .thaw ..
  | .postThawRecords .. | .thawGo .. | .programImageKey .. | .installCommandKey .. | .enterFactory .. | .perstN ..
  | .msiXMessage .. | .hostFqTxGo .. | .hostFqRxLen .. | .hostCmdDoorbell .. | .commandExecute .. | .ladder ..
  | .slotOpen .. | .slotActivate .. | .keyRevoke .. | .lifecycle .. | .debugUnlock .. | .splitOverride ..
  | .verdictOverride .. | .edgeOverride .. | .gpioOverride .. | .statusQuery .. | .recoveryCommit .. | .reInit ..
  | .functionIdle .. | .deviceReset .. | .powerCycle .. | .squallWindowClose .. | .stableRun .. | .clearLog ..
  | .wdtService .. | .wdtLate .. | .wdtBackstop .. | .fnStall .. | .undefinedInstruction .. | .announceSend ..
  | .supwarnRelease .. | .perstNRelease .. | .loopLossOfLock .. | .mvbPortLatchExpiry .. | .omtTxDone .. | .hostFqRxData ..
  | .hostAccAddrRead .. | .i2cTargetRequest .. => true

end Sys2Proof
end

