-- ==== Sys2Proof/Tests/Slice0.lean ====
section
/-!
SUPPORT. Sys2Proof/Tests/Slice0.lean: tests and witnesses: small states that meet the hypotheses of the statements, clause by
clause, the effects of single commands on them with results worked out from the spec, and commands that are not well formed.
-/
namespace Sys2Proof.Tests
open Sys2Proof.Machine
-- one theorem at a time: side by side they need a thread each
set_option Elab.async false

/-! ### Commands that are not well formed -/

theorem test_wf_digest : Instr.wf (.stageBegin false 16 []) = false := by decide
theorem test_wf_beacon : Instr.wf (.beaconReceive 1 (List.replicate 13 0) 1 0 0) = false ∧ Instr.wf (.beaconReceive 1 (List.replicate 12 0) 1 0 0) = true := by
  decide
theorem test_wf_sync : Instr.wf (.syncReceive 0 0 0 0 (2 ^ 31) 1 0) = false := by decide
theorem test_wf_announce : Instr.wf (.announceReceive 0 #v[256, 0, 0, 0, 0, 0, 0, 0, 0] 1) = false := by decide
theorem test_wf_capture : Instr.wf (.capture 0 0 false (2 ^ 36) 0) = false := by decide
theorem test_wf_frames : Instr.wf (.frameHeaderReceive 0 [1]) = false ∧ Instr.wf (.frameReceive 0 (List.replicate 65537 0) true) = false := by
  decide +kernel
theorem test_wf_can : Instr.wf (.canFrameReceive 0 0 0 0 (some (List.replicate 17 0)) 0) = false := by decide
theorem test_wf_mvb : Instr.wf (.mvbSinkReceive 0 [0, 0, 0] true) = false ∧ Instr.wf (.mvbAdminReply 0 []) = false := by decide
theorem test_wf_i2c : Instr.wf (.i2cTransferDone 0 0 0 (List.replicate 33 0)) = false := by decide
theorem test_wf_input : Instr.wf (.inputChange 0 true (2 ^ 64)) = false := by decide
theorem test_wf_access : Instr.wf (.hostAccess 0 false 0 3 0 0 0) = false ∧ Instr.wf (.debugAccess false true 0 0 0 0 0) = false ∧
    Instr.wf (.hostSpiTransaction 0x20 0 1 (List.replicate 257 0) []) = false := by decide +kernel
theorem test_wf_verdict : Instr.wf (.bootVerdict [] (List.replicate 48 0) 1) = false := by decide
theorem test_wf_accepts : Instr.wf (.add 0 1 2 3) = true ∧ Instr.wf (.hostAccess 0 false 0 4 0 0 0) = true := by decide

/-! ### Small states -/

/-- Tile 0 out of reset, its supervisor stack at 0x1000, over its data TCM and all of I/O space, vectors at 0. -/
def live : State :=
  (((((State.reset.modTile 0 (fun x => { x with held := false, wait := 0, unloaded := false, sp := #v[0, 0x1000, 0, 0x1000] })).setReg
    (EXC_WIN 0 0 1) 0x40000).setReg (EXC_WIN 0 0 9) 0x1000000).setReg (EXC_WIN 0 0 10) 0x800).setReg (EXC_WIN 0 0 11) 0x1000)

/-- The fields of a state set one after another. -/
def put (s : State) (l : List (Fld × Nat)) : State := l.foldl (fun s e => s.set e.1 e.2) s
/-- The next state that a command answers. -/
def after (c : Instr) (s : State) : State :=
  match exec c s with
  | .next t => t
  | _ => s
/-- An inventory whose directory lists the given sections, by identifier and body. -/
def invOf (l : List (Nat × List Byte)) : List Byte :=
  let start := 0x80 + 64 * l.length
  let dir := (l.foldl (fun (acc : List Byte × Nat) e =>
    (acc.1 ++ leBytes 2 e.1 ++ List.replicate 6 0 ++ leBytes 4 acc.2 ++ leBytes 4 e.2.length ++ List.replicate 48 0, acc.2 + e.2.length))
    ([], start)).1
  List.replicate 0x14 0 ++ leBytes 2 l.length ++ List.replicate 0x6A 0 ++ dir ++ (l.map (·.2)).flatten
/-- A state with an active inventory of the given sections. -/
def withInv (l : List (Nat × List Byte)) (s : State) : State := { s with inv := { s.inv with active := invOf l } }
/-- Train time is `ns` nanoseconds. -/
def atTime (ns : Nat) (s : State) : State := { s with tt := { s.tt with t := ns * 2 ^ 84 } }
/-- The core domain works: power-on reset has been released. -/
def awake : State := { State.reset with pwr := { State.reset.pwr with por := false } }

/-! ### Tiles -/

/-- A tile may issue; its supervisor level admits the privileged forms. -/
theorem witness_ready : Ready live 0 ∧ (live.tileOf 0).sup = true := ⟨⟨by decide, by decide⟩, by decide⟩
/-- The bit-field and saturation forms at the ends of their ranges, and a reserved form. -/
theorem witness_bit_fields : (31 : Fin 32).val + (0 : Fin 32).val + 1 ≤ 32 ∧ (1 : Fin 32).val ≠ 0 ∧
    32 < (31 : Fin 32).val + (1 : Fin 32).val + 1 := by decide
/-- A product, a sum, a load and a quotient on their edges of result. -/
theorem witness_results : ((live.modTile 0 (fun x => { x with mulQ := [(0, .part 1 7)] })).tileOf 0).mulQ = [(0, .part 1 7)] ∧
    ((live.modTile 0 (fun x => { x with macQ := [(0, .part 4 7)] })).tileOf 0).macQ = [(0, .part 4 7)] ∧
    (live.tileOf 0).mulQ.head?.all (fun e => e.1 ≠ 0) = true ∧ (live.tileOf 0).macQ.head?.all (fun e => e.1 ≠ 0) = true ∧
    (live.tileOf 0).div.all (fun d => d.left ≠ 0) = true ∧ ((live.modTile 0 (fun x => { x with mulQ := [(0, .product 1 0)] })).tileOf 0).mulQ = [(0, .product 1 0)] ∧
    ((live.modTile 0 (fun x => { x with macQ := [(0, .add (2 ^ 71))] })).tileOf 0).macQ = [(0, .add (2 ^ 71))] ∧
    ((live.modTile 0 (fun x => { x with macQ := [(0, .load (-1))] })).tileOf 0).macQ = [(0, .load (-1))] ∧
    ((live.modTile 0 (fun x => { x with div := some ⟨0, 3, 1, false, false, false⟩ })).tileOf 0).div = some ⟨0, 3, 1, false, false, false⟩ := by
  decide
/-- R105: a product due on this edge, with one behind it, and a quotient due and not yet due. -/
def due1 : Tile := { live.tileOf 0 with mulQ := [(1, .product 6 0), (2, .product 7 0)], macQ := [(1, .add 5), (4, .add 6)], div := some ⟨1, 3, 1, false, false, false⟩ }
theorem witness_edge_results : due1.mulQ = (1, .product 6 0) :: [(2, .product 7 0)] ∧ due1.macQ = (1, .add 5) :: [(4, .add 6)] ∧
    (∀ e ∈ (live.tileOf 0).mulQ, 1 < e.1) ∧ (∀ e ∈ (live.tileOf 0).macQ, 1 < e.1) ∧ due1.div = some ⟨1, 3, 1, false, false, false⟩ ∧ due1.qrQ = [] ∧
    ({ due1 with div := some ⟨2, 3, 1, false, false, false⟩ } : Tile).div = some ⟨2, 3, 1, false, false, false⟩ := by decide
theorem test_edge_results : (resultsEdge due1).res.ml = 6 ∧ (resultsEdge due1).mulQ = [(1, .product 7 0)] ∧ (resultsEdge due1).res.qt = 3 := by decide
/-- G0 is 0, an aligned jump target. -/
theorem witness_jump : ((live.tileOf 0).get 0).extractLsb' 0 2 = 0 := by decide
/-- The last word, halfword and byte of the data TCM lie in a data window. -/
theorem witness_fits : inDataWindow live 0 (live.tileOf 0).world 0x3FFFC 4 = true ∧ inDataWindow live 0 (live.tileOf 0).world 0x3FFFE 2 = true ∧
    inDataWindow live 0 (live.tileOf 0).world 0x3FFFF 1 = true ∧ 0x3FFFC % 4 = 0 ∧ 0x3FFFC + 4 ≤ 0x40000 ∧
    wordKey (dtcmKey 0 + 0x3FFFC) ∉ live.memh.bad := by decide

/-- The state `live` with a second data window over device bank 0, which admits every master. -/
def farLive : State := bankTo 0 0 (((live.setReg (EXC_WIN 0 0 2) 0x20000000).setReg (EXC_WIN 0 0 3) 0x20040000).setReg (BANK_OWNER 0) 0)
/-- Four posted writes stand behind tile 0. -/
def postedLive : State := farLive.modTile 0 (fun x => { x with posted := List.replicate 4 ⟨false, 0x20000000, 4, 7, true, true, 31⟩ })
/-- A far address passes its checks; four posted writes, or none, stand before it; an I/O address passes its own. -/
theorem witness_far : (∃ p form key, checkData farLive 0 (farLive.tileOf 0) 0x20000000 4 = .ok p form key ∧ p ≠ .dtcm 0) ∧
    (farLive.tileOf 0).posted = [] ∧ (postedLive.tileOf 0).posted.length = 4 ∧ Ready postedLive 0 ∧
    checkIo farLive 0 (farLive.tileOf 0) 0x30000 = .ok 0x30000 :=
  ⟨⟨.bank 0, 0, 0x20000000, by decide, by decide⟩, by decide, by decide, ⟨by decide, by decide⟩, by decide⟩
/-- A load from device bank 0 returns; a posted write arrives there. -/
theorem witness_returns : place (some 0) (unalias 0x20000000).2 = (.bank 0, 0x20000000) ∧ unalias 0x20000000 = (0, 0x20000000) ∧
    domOn live (domTile 0) = true ∧ (live.tileOf 0).held = false ∧ bankRefuses farLive 0 (.tile 0 true true) = none ∧
    bankOff farLive 0 = false ∧
    bankState farLive 0 = 0 ∧ wordKey 0x20000000 ∉ farLive.memh.bad ∧ domOn farLive (domTile 0) = true ∧
    ((live.modTile 0 (fun x => { x with load := some ⟨false, 0x20000000, 4, false, 1, 0⟩ })).tileOf 0).load =
      some ⟨false, 0x20000000, 4, false, 1, 0⟩ := by
  decide
/-- Nothing pends for the tile; its operations are idle. -/
theorem witness_system : urgentEvent live 0 = none ∧ (live.tileOf 0).mulQ = [] ∧ (live.tileOf 0).macQ = [] ∧
    (live.tileOf 0).div = none ∧ (live.tileOf 0).qrQ = [] ∧ (live.tileOf 0).posted = [] := by decide

/-- A BFIL of words in progress at address 0x100, with two elements to go. -/
def filling : State := live.modTile 0 (fun x =>
  { x with g := #v[0x100, 5, 2, 0, 0, 0, 0, 0, 0, 0, 0, 0, 0, 0, 0], long := some ⟨1, 0, 1, 2, 2, 0, false⟩ })
/-- A BMOV of words in progress from 0x200 to 0x100. -/
def moving : State := live.modTile 0 (fun x =>
  { x with g := #v[0x100, 0x200, 2, 0, 0, 0, 0, 0, 0, 0, 0, 0, 0, 0, 0], long := some ⟨0, 0, 1, 2, 2, 0, false⟩ })
theorem witness_long : runs filling 0 = true ∧ (filling.tileOf 0).long = some ⟨1, 0, 1, 2, 2, 0, false⟩ ∧ (filling.tileOf 0).load = none ∧
    mirrorOf filling 0 = none ∧ inDataWindow filling 0 (filling.tileOf 0).world 0x100 4 = true ∧
    0x100 = ((filling.tileOf 0).get 0 + BitVec.ofNat 32 ((filling.tileOf 0).prog.toNat * 4)).toNat ∧
    runs moving 0 = true ∧ (moving.tileOf 0).long = some ⟨0, 0, 1, 2, 2, 0, false⟩ ∧ mirrorOf moving 0 = none ∧
    inDataWindow moving 0 (moving.tileOf 0).world 0x200 4 = true ∧ domHeld filling (domTile 0) = false ∧ domHeld moving (domTile 0) = false := by decide
/-- A BCRC, BCMP or BDOT in progress, over 0x100 and 0x200. -/
def folding (k : Nat) : State := live.modTile 0 (fun x =>
  { x with g := #v[0x100, 0x200, 2, 0, 0, 0, 0, 0, 0, 0, 0, 0, 0, 0, 0], long := some ⟨k, 0, 1, 2, 0, 0, false⟩ })
theorem witness_long_values : (∀ k : Fin 3, runs (folding (2 + k)) 0 = true ∧ ((folding (2 + k)).tileOf 0).long = some ⟨2 + k, 0, 1, 2, 0, 0, false⟩ ∧
    ((folding (2 + k)).tileOf 0).load = none ∧ domHeld (folding (2 + k)) (domTile 0) = false ∧
    inDataWindow (folding (2 + k)) 0 ((folding (2 + k)).tileOf 0).world 0x100 2 = true ∧ inDataWindow (folding (2 + k)) 0 ((folding (2 + k)).tileOf 0).world 0x200 2 = true ∧
    inDataWindow (folding (2 + k)) 0 ((folding (2 + k)).tileOf 0).world 0x100 1 = true ∧ inDataWindow (folding (2 + k)) 0 ((folding (2 + k)).tileOf 0).world 0x200 1 = true ∧
    (folding (2 + k)).memh.bad = []) := by decide
/-- R115: a byte of 1 folded into 0 by the reflected polynomial of CRC-32C, its table's second entry. -/
theorem test_bcrc : ((after (.longElement 0 0 0 (0, 0)) (((folding 2).modTile 0 (fun x => { x with g := x.g.set 0 0 })).setBytes
    (dtcmKey 0 + 0x200) [1])).tileOf 0).get 0 = 0xF26B8303 := by decide +kernel
/-- R113, R115: a comparison ends at the first difference; the products are signed. -/
theorem test_bcmp : ((after (.longElement 0 0 0 (0, 0)) ((folding 3).setBytes (dtcmKey 0 + 0x200) [1])).tileOf 0).long = none ∧
    ((after (.longElement 0 0 0 (0, 0)) ((folding 4).setBytes (dtcmKey 0 + 0x100) [0xFF, 0xFF, 0, 0] |>.setBytes (dtcmKey 0 + 0x200) [2])).tileOf 0).macQ = [(4, .add (-2))] := by decide +kernel

/-- User level of the Vital world. -/
def userLive : State := live.modTile 0 (fun x => { x with wst := 0x1F00 })
/-- Synchronous exceptions may enter, at supervisor and at user level, with and without a debugger. -/
theorem witness_can_enter : CanEnter 0 7 live ∧ CanEnter 0 2 live ∧ CanEnter 0 9 live ∧ CanEnter 0 3 userLive ∧ CanEnter 0 4 live ∧
    (userLive.tileOf 0).sup = false ∧ Ready userLive 0 ∧ live.dbg = false ∧ undefinedWord 0 = true ∧
    Ready { live with dbg := true } 0 := by
  unfold CanEnter StackReady Ready
  refine ⟨by decide, by decide, by decide, by decide, by decide, by decide, by decide, by decide, by decide, by decide⟩
/-- A misaligned jump target and misaligned addresses; an I/O address past its space. -/
theorem witness_misaligned : (2 : Nat) % 4 ≠ 0 ∧ (1 : Nat) % 2 ≠ 0 ∧ ¬ ((0x01000000 : Word).extractLsb' 24 8 = 0 ∧ (0x01000000 : Word).extractLsb' 0 2 = 0) ∧
    ((0x00FFFFFC : Word).extractLsb' 24 8 = 0 ∧ (0x00FFFFFC : Word).extractLsb' 0 2 = 0) := by decide

/-- A synchronous exception of tile 0 under way at thread level, and the context of an event at priority 3. -/
def inTrap : State := live.modTile 0 (fun x => { x with sp := #v[0, 0xFF0, 0, 0], depth := updAt x.depth 16 (fun _ => 1) })
def cut : Record := ⟨0, 31, false, 0x40, 0x1F01, 0, Vector.replicate 15 0, .zero⟩
def inEvent : State := live.modTile 0 (fun x =>
  { x with sp := #v[0, 0xFF0, 0, 0], wst := 0x0301, recs := x.recs.set 3 (some cut) })
theorem witness_returns_from : Ready inTrap 0 ∧ (inTrap.tileOf 0).sup = true ∧ (inTrap.tileOf 0).gates = [] ∧
    frameOk inTrap 0 0 0xFF0 = true ∧ (inTrap.tileOf 0).ssp = 0xFF0 ∧ (inTrap.tileOf 0).syncDepth = 1 ∧
    Ready inEvent 0 ∧ frameOk inEvent 0 0 (inEvent.tileOf 0).ssp = true ∧ (inEvent.tileOf 0).syncDepth = 0 ∧
    (inEvent.tileOf 0).pri = 3 ∧ atD (inEvent.tileOf 0).recs 3 none = some cut ∧ domHeld inTrap (domTile 0) = false ∧ domHeld inEvent (domTile 0) = false := by
  unfold Ready; decide
/-- The context that an event of the other world cut; one without a record; SP at the stack's top, in no frame; no stack takes a
return there, but one more entry. -/
def inCross : State := inEvent.modTile 0 (fun x => { x with recs := x.recs.set 3 (some { cut with cross := true, world := 1 }) })
def inBare : State := inEvent.modTile 0 (fun x => { x with recs := x.recs.set 3 none })
theorem witness_returns_wide : Ready inCross 0 ∧ (inCross.tileOf 0).sup = true ∧ (inCross.tileOf 0).gates = [] ∧ frameOk inCross 0 0 0xFF0 = true ∧
    (inCross.tileOf 0).syncDepth = 0 ∧ (inCross.tileOf 0).pri = 3 ∧ atD (inCross.tileOf 0).recs 3 none = some { cut with cross := true, world := 1 } ∧
    Ready inBare 0 ∧ frameOk inBare 0 0 0xFF0 = true ∧ atD (inBare.tileOf 0).recs 3 none = none ∧ (inBare.tileOf 0).pri = 3 ∧
    frameOk live 0 0 0x1000 = false ∧ (live.tileOf 0).ssp = 0x1000 ∧ (live.tileOf 0).pri = 31 := by
  unfold Ready; decide
theorem witness_stack_refusal : CanEnter 0 10 live := by unfold CanEnter StackReady; decide
/-- R133: the interrupted world, with its registers, comes back. -/
theorem test_cross_return : ((after (.eret 0 0) inCross).tileOf 0).pc = 0x40 ∧ ((after (.eret 0 0) inCross).tileOf 0).recs[3] = none := by decide +kernel
/-- The hypotheses of the trap and its return meet at `live`, whose vectors lie in the instruction TCM. -/
theorem witness_trap_return : readVector live 0 0 7 = some (0, 0) ∧ (live.tileOf 0).wst &&& 0x000F1F07 = (live.tileOf 0).wst ∧
    (live.tileOf 0).gates = [] ∧ (live.tileOf 0).pc.extractLsb' 0 2 = 0 ∧ (live.tileOf 0).world = 0 := by decide

/-- Gate 5 from Vital of tile 0 has its target at 0x100. -/
def gated : State := withInv [(3, List.replicate 0xA80 0 ++ leBytes 4 1 ++ [0, 0, 5, 0] ++ leBytes 4 0x100)] live
/-- One gate entry, from the Common world at thread level, stands open. -/
def called : State := live.modTile 0 (fun x => { x with gates := [⟨0x40, 0x1F03, 0, Vector.replicate 7 0, .zero⟩] })
theorem witness_gates : Ready gated 0 ∧ gateTarget gated 0 0 5 = some 0x100 ∧ gateTarget live 0 0 5 = none := by
  unfold Ready; decide +kernel
/-- The same from the world of the caller, and from another priority. -/
def calledHere : State := live.modTile 0 (fun x => { x with gates := [⟨0x40, 0x1F01, 0, Vector.replicate 7 0, .zero⟩] })
def calledElse : State := live.modTile 0 (fun x => { x with gates := [⟨0x40, 0x0303, 0, Vector.replicate 7 0, .zero⟩] })
theorem witness_gate_refusals : CanEnter 0 9 called ∧ CanEnter 0 9 calledHere ∧ CanEnter 0 9 calledElse ∧ (calledHere.tileOf 0).world = bitsOf 0x1F01 1 1 ∧
    (calledElse.tileOf 0).world ≠ bitsOf 0x0303 1 1 ∧ (calledElse.tileOf 0).pri ≠ bitsOf 0x0303 8 5 := by
  unfold CanEnter StackReady
  refine ⟨by decide, by decide, by decide, by decide, by decide, by decide⟩
/-- R122: GATE with detail 3 in the world of the entry, 4 in a context that is not the entry's. -/
theorem test_gate_refusals : bitsOf ((after (.wret 0) calledHere).tileOf 0).esr 16 8 = 3 ∧ bitsOf ((after (.wret 0) calledElse).tileOf 0).esr 16 8 = 4 := by decide +kernel
theorem witness_gate_entries : Ready called 0 ∧
    (called.tileOf 0).gates = [⟨0x40, 0x1F03, 0, Vector.replicate 7 0, .zero⟩] ∧ (called.tileOf 0).world = 0 ∧
    (called.tileOf 0).pri = 31 ∧ bitsOf 0x1F03 1 1 = 1 ∧ bitsOf 0x1F03 8 5 = 31 ∧ (called.tileOf 0).syncDepth = 0 ∧
    ((gated.modTile 0 (fun x => { x with gates := List.replicate 4 ⟨0, 0x1F03, 0, Vector.replicate 7 0, .zero⟩ })).tileOf 0).gates.length = 4 := by
  unfold Ready; decide

/-- The missing wake, an overrun, a miss, a lockup 8 edges old, a releasable tile. -/
theorem witness_tile_events :
    runs (live.modTile 0 (fun x => { x with hold := 1, holder := some (1023, 3) })) 0 = true ∧
    CanEnter 0 6 (live.modTile 0 (fun x => { x with woa := some (1, 0, EXC_EVENTS 4) })) ∧
    (let s := live.set (PWR_DOM_STAT.state (domTile 4)) 1
     (ioDomain (ioGlobal 0 (EXC_EVENTS 4))).any (fun d => !domOn s d) = true ∧
     (ioDomain (ioGlobal 0 (EXC_EVENTS 4))).any (fun d => !domOn live d) = false) ∧
    (canIssue (live.modTile 0 (fun x => { x with pc := 0x1000000 })) 0 = true ∧ live.get (TMEM_CTRL.icache_off 0) = 0) ∧
    (let s := live.modTile 0 (fun x => { x with lockup := some 8, stopped := true })
     (s.tileOf 0).lockup = some 8) ∧
    releasable (live.modTile 0 (fun x => { x with held := true })) 0 = true ∧ (live.tileOf 0).entry = none := by
  unfold CanEnter StackReady
  refine ⟨by decide, by decide, by decide, by decide, by decide, by decide, by decide⟩
/-- Software event 0 is enabled at priority 2 of tile 0's Vital world and asserted; the tile is at thread level. -/
def pended : State := put live [(EVC_CFG.enable 0 16, 1), (EVC_CFG.priority 0 16, 2), (⟨EVC_SW 0, 0, 1⟩, 1)]
/-- The same with WST.ie set, and inside a hold window. -/
def open_ : State := pended.modTile 0 (fun x => { x with wst := 0x1F05 })
def heldWindow : State := pended.modTile 0 (fun x => { x with wst := 0x1F05, hold := 1 })
theorem witness_events : urgentEvent pended 0 = some (16, 2) ∧ atBoundary pended 0 = true ∧ (pended.tileOf 0).ie = false ∧
    urgentEvent open_ 0 = some (16, 2) ∧ atBoundary open_ 0 = true ∧ (open_.tileOf 0).ie = true ∧ (open_.tileOf 0).hold = 0 ∧
    open_.get (EVC_CFG.world 0 16) = 0 ∧ readVector open_ 0 0 48 = some (0, 0) ∧ StackReady open_ 0 0 0x1000 ∧
    urgentEvent heldWindow 0 = some (16, 2) ∧ (heldWindow.tileOf 0).hold = 1 := by
  unfold StackReady; decide
/-- The same event with its handler in the Common world, whose stack and vectors stand too. -/
def openCross : State := (((open_.set (EVC_CFG.world 0 16) 1).setReg (EXC_WIN 0 1 1) 0x40000).setReg (EXC_WIN 0 1 10) 0x800).setReg (EXC_WIN 0 1 11) 0x1000
theorem witness_cross_event : urgentEvent openCross 0 = some (16, 2) ∧ atBoundary openCross 0 = true ∧ (openCross.tileOf 0).ie = true ∧
    openCross.get (EVC_CFG.world 0 16) ≠ (openCross.tileOf 0).world ∧ StackReady openCross 0 1 0x1000 ∧
    (readVector openCross 0 1 48).isSome = true ∧ vectorBad openCross 0 1 48 = false := by
  unfold StackReady; decide
/-! ### Edge units -/

/-- Channel E0.0 as a compare channel in RUN that sets its output, armed for count 0; as PWM channels in WAIT and RUN. -/
def comparing : State := put State.reset [(EDG_CH_CTRL.func 0 0, 1), (EDG_CH_CTRL.action 0 0, 1), (EDG_CH_STAT.state 0 0, 2),
  (EDG_CH_STAT.armed 0 0, 1)]
def pwm : State := put State.reset [(EDG_CH_CTRL.func 0 0, 2), (EDG_CH_STAT.state 0 0, 1)]
def pwmRun : State := put pwm [(EDG_CH_STAT.state 0 0, 2)]
def pwmEnding : State := put pwm [(EDG_CH_STAT.state 0 0, 3)]
def pwmLoaded : State := pwm.modEdg 0 (fun h => { h with loaded := true })
/-- The channel is voted. -/
def votedEdge : State := put State.reset [(EDG_VOTED.voted 0, 1)]
theorem witness_edge_commands : edgeWriter .host 0 comparing = true ∧ isVoted comparing 0 0 = false ∧
    comparing.get (EDG_CH_CTRL.func 0 0) = 1 ∧ comparing.get (EDG_CH_STAT.state 0 0) ≠ 0 ∧ isVoted pwm 0 0 = false ∧
    pwm.get (EDG_CH_CTRL.func 0 0) = 2 ∧ State.reset.get (EDG_CH_STAT.armed 0 0) = 0 ∧ State.reset.get (EDG_CH_CTRL.src 0 0) ≤ 1 ∧
    (put State.reset [(EDG_CH_CTRL.src 0 0, 2)]).get (EDG_CH_CTRL.src 0 0) = 2 ∧
    (put State.reset [(EDG_CH_CTRL.src 0 0, 3)]).get (EDG_CH_CTRL.src 0 0) = 3 ∧ isVoted votedEdge 0 0 = true ∧
    edgeWriter .host 0 votedEdge = true ∧ edgeWriter .switch 0 comparing = false := by decide
theorem witness_edge_enable :
    (let s1 := State.reset.set ⟨EDG_CH_CTRL 0 0, 1, 18⟩ (bitsOf 3 1 18)
     edgeWriter .host 0 State.reset = true ∧ State.reset.get (EDG_CH_STAT.state 0 0) = 0 ∧ State.reset.get (EDG_CTRL.lock 0) = 0 ∧
     edgeCheck s1 0 0 = 0) ∧
    edgeCheck (State.reset.set ⟨EDG_CH_CTRL 0 0, 1, 18⟩ (bitsOf 0xF 1 18)) 0 0 = 6 ∧ pwm.get (EDG_CH_STAT.state 0 0) = 1 ∧
    pwmRun.get (EDG_CH_STAT.state 0 0) = 2 ∧ pwmRun.get (EDG_CH_CTRL.func 0 0) = 2 ∧ pwmRun.get (EDG_CH_CTRL.policy 0 0) = 0 ∧
    2 ≤ comparing.get (EDG_CH_STAT.state 0 0) ∧ (comparing.edgOf 0).off = 0 := by decide
/-- A capture channel in RUN whose input ball 0 it owns; with one capture, and with two. -/
def capturing : State := put State.reset [(EDG_CH_CTRL.func 0 0, 3), (EDG_CH_STAT.state 0 0, 2), (EDG_CH_CTRL.cap_edge 0 0, 2),
  (PIN_OWNER.owner 0, 0x10)]
def oneCapture : State := capturing.modEdg 0 (fun h => { h with stages := [⟨5, false, false, false, false, 0⟩] })
def twoCaptures : State := capturing.modEdg 0 (fun h => { h with stages := [⟨5, false, false, false, false, 0⟩, ⟨6, false, false, false, false, 0⟩] })
/-- The edge after the arming; a cycle from count 0 whose event is due; the next count of a TT-counting channel. -/
def comparing1 : State := { comparing with clk := { comparing.clk with edges := 1 } }
def cycling : State := pwmRun.modEdg 0 (fun h => { h with started := true })
theorem witness_edge_after : domOn comparing1 (domCluster 0) = true ∧ (comparing1.edgOf 0).armEdge < comparing1.clk.edges ∧
    ¬ (comparing.edgOf 0).armEdge < comparing.clk.edges ∧ movedNow comparing1 0 0 = false ∧ (comparing1.edgOf 0).off ≠ 1 ∧ comparing1.get (EDG_CH_STAT.armed 0 0) = 1 ∧ comparing1.get (EDG_CH_CTRL.func 0 0) = 1 ∧
    domOn cycling (domCluster 0) = true ∧ (cycling.edgOf 0).started = true ∧ (cycling.edgOf 0).evtDone = false ∧ cycling.get (EDG_CH_CTRL.func 0 0) = 2 ∧
    past (cycling.regN (EDG_CNT 0 0)) ((cycling.edgOf 0).cycle + cycling.regN (EDG_EVT_OFS 0 0)) = true ∧
    past (nextCount pwm 0 0) (pwm.edgOf 0).next = true ∧ pwm.get (EDG_CH_STAT.state 0 0) ≠ 3 := by decide +kernel
theorem witness_edge_units : past (comparing.regN (EDG_CNT 0 0)) (comparing.regN (EDG_CMP 0 0)) = true ∧
    comparing.get (EDG_CH_STAT.armed 0 0) = 1 ∧ past 0 1 = false ∧
    (pwm.edgOf 0).loaded = false ∧ placeable pwm 0 0 (pwm.edgOf 0).next = true ∧ (pwmLoaded.edgOf 0).loaded = true ∧
    past (pwmLoaded.regN (EDG_CNT 0 0)) (pwmLoaded.edgOf 0).next = true ∧ pwmEnding.get (EDG_CH_STAT.state 0 0) = 3 ∧
    transitionAt pwm 0 0 7 = false := by decide
theorem witness_captures : inputOwned capturing 0x10 = true ∧ capturing.get (EDG_CH_CTRL.in_sel 0 0) = 0 ∧
    (capturing.edgOf 0).stages.length < 2 ∧ (oneCapture.edgOf 0).stages.length < 2 ∧ (twoCaptures.edgOf 0).stages.length = 2 ∧
    domOn oneCapture (domCluster 0) = true := by decide
/-- A PWM channel in RUN whose cycle from count 0 is to be on for 16 counts rises 8 after its last transition. -/
def rising : State := (put pwmRun [(⟨EDG_PER 0 0, 0, 32⟩, 64), (⟨EDG_CNT 0 0, 0, 32⟩, 2), (EDG_CH_CTRL.enable 0 0, 1)]).modEdg 0 (fun h =>
  { h with cycle := 0, next := 64, dCur := 16, started := true })
theorem witness_transition : transitionAt rising 0 0 0 = true := by decide

/-! ### Converters -/

/-- C0A in IDLE and RUNNING; with its schedule at instant 0; not started by GO. -/
def idling : State := put State.reset [(ADC_STAT.state 0 0, 1), (ADC_CTRL.enable 0 0, 1)]
def running : State := put State.reset [(ADC_STAT.state 0 0, 2), (ADC_CTRL.enable 0 0, 1)]
def scheduled : State := (put idling [(ADC_CTRL.start 0 0, 1)]).modAdc 0 0 (fun h => { h with sched := some 0 })
def converted : State := { running with clk := { running.clk with edges := 1000 } }.modAdc 0 0 (fun h => { h with finished := false })
theorem witness_converters : supWriter .host = true ∧ domOn State.reset (domPair 0) = true ∧ State.reset.get (ADC_PAIR_CTRL.linked 0) = 0 ∧
    State.reset.get (ADC_STAT.state 0 0) = 0 ∧ adcCheck (State.reset.setN (ADC_CTRL 0 0) 0) 0 0 = 0 ∧
    adcCheck ((put State.reset [(ADC_SEQ.paired 0 0 0, 1)]).setN (ADC_CTRL 0 0) 0) 0 0 = 2 ∧
    idling.get (ADC_STAT.state 0 0) = 1 ∧ idling.get (ADC_CTRL.start 0 0) = 0 ∧ running.get (ADC_STAT.state 0 0) = 2 ∧
    running.get (ADC_CTRL.policy 0 0) = 0 ∧ scheduled.get (ADC_CTRL.start 0 0) = 1 ∧ (scheduled.adcOf 0 0).sched = some 0 ∧
    0 ≤ scheduled.now ∧ scheduled.regN (ADC_PERIOD 0 0) = 0 ∧ supWriter .switch = false := by decide
theorem witness_conversion : (converted.adcOf 0 0).finished = false ∧ adcWriteEdge converted 0 0 ≤ converted.clk.edges ∧
    (converted.adcOf 0 0).entry < 16 ∧ ((running.modAdc 0 0 (fun h => { h with fifo := [7] })).adcOf 0 0).fifo = [7] := by decide

/-! ### Pins -/

/-- An inventory is applied to the pins, whose ball 0 has GPIO as its first candidate, requested and not the owner. -/
def applied : State := put State.reset [(PIN_STATUS.applied, 1), (⟨PIN_CAND 0, 0, 8⟩, 1), (PIN_OWNER.index 0, 7)]
theorem witness_pins : gpioWriter .host = true ∧ (put State.reset [(⟨GPIO_VOTED 0, 0, 24⟩, 1)]).reg (GPIO_VOTED 0) = 1 ∧
    State.reset.get (PIN_BANK_STAT.mismatch 0) = 0 ∧ (State.reset.reg (GPIO_IN 0)).getLsbD 0 = false ∧
    0 + 100 * State.reset.get (PIN_PADCFG.filter 0) ≤ State.reset.now ∧ applied.get PIN_STATUS.applied = 1 ∧
    wantedOwner applied 0 = 0 ∧ applied.get (PIN_OWNER.index 0) = 7 ∧ wantedOwner applied 1 = applied.get (PIN_OWNER.index 1) := by decide
theorem witness_handover : (put applied [(PIN_OWNER.phase 0, 1), (PIN_PADCFG.safe_change 0, 1)]).get (PIN_PADCFG.safe_change 0) = 1 ∧
    (put applied [(PIN_OWNER.phase 0, 1), (PIN_PADCFG.safe_change 0, 0)]).get (PIN_PADCFG.safe_change 0) = 0 ∧
    (put applied [(PIN_OWNER.phase 0, 2)]).get (PIN_OWNER.phase 0) = 2 ∧ State.reset.pwr.balls = none ∧
    (let s := applied.modPwr (fun p => { p with balls := some 0xFE }); ∃ v, s.pwr.balls = some v ∧ true ≠ bitN v 0) ∧
    (let s := put State.reset [(⟨PIN_TAMPER, 0, 1⟩, 1), (⟨PIN_TAMPER, 2, 1⟩, 1)]
     s.get ⟨PIN_TAMPER, 0, 1⟩ = 1 ∧ s.get ⟨PIN_TAMPER, 2, 1⟩ = 1 ∧ Nat.max 1 (s.get PIN_TAMPER.filter) ≤ 255 ∧ s.pwr.low = none ∧ s.pwr.entry = none) := by
  refine ⟨by decide, by decide, by decide, by decide, ⟨0xFE, by decide, by decide⟩, by decide⟩
/-- Armed, in Drizzle, with the tamper sources enabled as wake sources. -/
def tampered : State := { put State.reset [(⟨PIN_TAMPER, 0, 1⟩, 1), (⟨PIN_TAMPER, 2, 1⟩, 1), (PWR_WAKE_EN.enable, 8)] with
  pwr := { State.reset.pwr with por := false, low := some false } }
theorem witness_tampered : tampered.get ⟨PIN_TAMPER, 0, 1⟩ = 1 ∧ tampered.get ⟨PWR_WAKE_EN, 3, 1⟩ = 1 ∧ tampered.pwr.low = some false ∧
    tampered.pwr.entry = none ∧ tampered.pwr.por = false ∧ tampered.pwr.pwrc = false := by decide
/-- R350: the trip wakes the device, and its cause is recorded. -/
theorem test_tamper_wakes : (after (.tamperTrip 0 true 255) tampered).pwr.low = none ∧ (after (.tamperTrip 0 true 255) tampered).get PWR_WAKE_REC.cause = 8 := by
  decide +kernel
/-! ### Memories -/

/-- Device bank 0 On and open to every master; entering Retention with its clamps engaged; waking, its contents lost. -/
def bankOn : State := bankTo 0 0 (State.reset.setReg (BANK_OWNER 0) 0)
def bankEntering : State := bankClamp 0 true (bankTo 0 5 (State.reset.modBank 0 (fun h => { h with target := 1 })))
def bankWaking : State := bankTo 0 4 (State.reset.modBank 0 (fun h => { h with zero := true, next := none }))
theorem witness_banks : bankWriter bankOn 0 1 .host = true ∧ bankOn.get ⟨bankCtrl 0 + 8, 0, 3⟩ ≠ 3 ∧ bankState bankOn 0 = 0 ∧
    bankWriter bankOn 0 3 .host = false ∧ bankWriter bankOn 0 0 .storekeeper = true ∧ bankState (bankTo 0 2 bankOn) 0 = 2 ∧
    bankState (bankTo 0 3 bankOn) 0 = 3 ∧ bankState bankEntering 0 = 5 ∧ bankEntering.get ⟨bankCtrl 0 + 4, 3, 1⟩ = 1 ∧
    (bankEntering.bankOf 0).target = 1 ∧ (bankEntering.bankOf 0).woaPend = false ∧ bankState bankWaking 0 = 4 ∧
    (bankWaking.bankOf 0).next = none := by decide
theorem witness_memories : (let s := State.reset.modMem (fun h => { h with writeback := [(0, 0x20000000), (0, 0x20000004)], deepNext := some 18 })
     writebackDue s 0 = true ∧ s.memh.deepNext = some 18) ∧
    vitalOrSk .storekeeper = true ∧ vitalOrSk .host = false ∧ (State.reset.set VAULT_STATUS.wiping 1).get VAULT_STATUS.wiping = 1 ∧
    (8 : Fin 9) ≠ 0 ∧ (State.reset.modMem (fun h => { h with lines := h.lines })).memh.lines.length ≤ 16 := by decide
/-! ### Staging, epochs and beacons -/

/-- Stages of the staging machine: receiving its last octet, verifying, staged, armed for 20 ms. -/
def receiving : State := (State.reset.set INV_STATE.state 1).modInv (fun h => { h with shadow := [1], total := 2 })
def verifying : State := (State.reset.set INV_STATE.state 2).modInv (fun h => { h with shadow := [1, 2], total := 2 })
def staged : State := State.reset.set INV_STATE.state 3
def armed_ : State := atTime 20000000 ((put State.reset [(INV_STATE.state, 4)]).setPair INV_EPOCH_TT_LO 20000000)
theorem witness_staging : State.reset.get INV_STATE.state = 0 ∧ (262144 : BitVec 32).toNat ≤ 262144 ∧ 262144 < (262145 : BitVec 32).toNat ∧
    receiving.get INV_STATE.state = 1 ∧ receiving.inv.shadow.length + [(2 : Byte)].length ≤ receiving.inv.total ∧
    verifying.get INV_STATE.state = 2 ∧ staged.get INV_STATE.state = 3 ∧ ¬ (20000000 : BitVec 64).toNat < staged.now + 20000000 ∧
    ¬ ((20000000 : BitVec 64).toNat % 10000000 ≠ 0 ∨ staged.now + 3600000000000 < (20000000 : BitVec 64).toNat) ∧
    ¬ (1 : BitVec 32).toNat ≤ staged.regN INV_EPOCH ∧ (0 : BitVec 32).toNat ≤ staged.regN INV_EPOCH ∧
    (3600010000000 : BitVec 64).toNat > staged.now + 3600000000000 ∧ (19999999 : BitVec 64).toNat < staged.now + 20000000 := by decide
/-- The digest of the shadow may be the one asked for, and then the checks of R33 find its two octets no inventory. -/
theorem witness_verify : (let s := verifying.modInv (fun h => { h with digest := Config.sha384 [1, 2] })
     s.get INV_STATE.state = 2 ∧ (verifyStaged s).1 ≠ 0) := by
  refine ⟨by decide, ?_⟩
  have h : (verifyStaged (verifying.modInv (fun h => { h with digest := Config.sha384 [1, 2] }))).1 =
      (checkStaged [1, 2] [] (invCtx (verifying.modInv (fun h => { h with digest := Config.sha384 [1, 2] })) 0 (some 2))).1 := by
    show (if Config.sha384 [1, 2] != Config.sha384 [1, 2] then _ else _ : Nat × Nat × Nat).1 = _
    simp; rfl
  rw [h]; decide

/-- One required peer, not degraded, in a list with a revert delay of 5 ms. -/
def peers : List Byte := leBytes 2 1 ++ [0, 0] ++ leBytes 2 5 ++ [0, 0] ++ [2, 0, 0, 0, 0, 1, 0, 0, 1, 0, 0, 0] ++ List.replicate 12 7
/-- Checking an epoch that ticked at 0, at its decision instant and at its revert instant. -/
def deciding : State := atTime 4500000 (withInv [(0x15, peers)] (put State.reset [(INV_STATE.state, 5), (HOST_FN_STAT.mode 8, 0)]))
def confirming : State := atTime 5000000 deciding
def reverting : State := confirming.set INV_STATE.state 6
def lateRevert : State := (put confirming [(INV_STATE.state, 0), (INV_STATE.fallback_held, 1)]).modInv (fun h =>
  { h with lateAt := some 5000000, confirmed := some (0, 5000000, 5000000) })
theorem witness_epochs : armed_.get INV_STATE.state = 4 ∧ armed_.pair INV_EPOCH_TT_LO ≤ armed_.now ∧
    decisionInstant deciding ≤ deciding.now ∧ deciding.now < revertInstant deciding ∧ deciding.get (HOST_FN_STAT.mode 8) = 0 ∧
    (peerRecs deciding.invB).zipIdx.any (fun e => bitN e.1.flags 0 && !bitN e.1.flags 1) = true ∧
    revertInstant confirming ≤ confirming.now ∧ confirming.get INV_STATE.state = 5 ∧ reverting.get INV_STATE.state = 6 ∧
    lateRevert.inv.lateAt = some 5000000 ∧ lateRevert.inv.confirmed = some (lateRevert.regN INV_EPOCH, 5000000, 5000000) ∧
    5000000 ≤ lateRevert.now ∧ lateRevert.get INV_STATE.fallback_held = 1 ∧
    (deciding.set (HOST_FN_STAT.mode 8) 1).get (HOST_FN_STAT.mode 8) = 1 := by decide +kernel

/-- Outside Frost with an inventory; port 0 is a consist port with its link up and room for a frame. -/
def sending : State := put (withInv [(0x15, peers)] State.reset) [(BOOT_STATUS.frost, 0), (PORT_STATUS.link 0, 1), (PORT_CFG.role 0, 2),
  (NET_BUF_CFG.buf_mib, 1), (PORT_QLIM.cells 0, 4)]
def frozen : State := sending.set BOOT_STATUS.frost 1
def heard : State := atTime 30000000 (sending.modInv (fun h => { h with lastBeacon := [(0, 0)] }))
theorem witness_beacons : servicePorts sending = [0] ∧ 4 + usedCells sending ≤ totalCells sending ∧
    4 + (((sending.portOf 0).queues.toList.flatten).map cellsOf).sum ≤ sending.get (PORT_QLIM.cells 0) ∧ sending.frost = false ∧
    sending.hasInv = true ∧ frozen.frost = true ∧ servicePorts frozen = [0] ∧
    ((peerRecs sending.invB).zipIdx.find? (fun e => e.1.mac == beBytes 6 0x020000000001)).isSome = true ∧
    ((peerRecs sending.invB).zipIdx.find? (fun e => e.1.mac == beBytes 6 1)).isSome = false ∧
    0x020000000001 ≠ macBase sending ∧ lookup heard.inv.lastBeacon 0 = some 0 ∧ 0 + 30000000 ≤ heard.now ∧ sending.flt.stableFrom = none ∧
    (let s := { atTime 20000000 sending with flt := { sending.flt with stableFrom := some 0 } }; 0 < beaconInstant s) ∧
    (let s := { sending with flt := { sending.flt with stableFrom := some 5 } }; beaconInstant s ≤ 5) ∧
    frozen.now % 10000000 = 0 ∧ frozen.net.bootSent ≠ frozen.now / 10000000 + 1 ∧
    (let s := atTime 7 frozen; s.now % 10000000 ≠ 0 ∧ s.now / 10000000 * 10000000 ≤ s.tt.last / 2 ^ 84) := by decide +kernel
/-! ### The clock and train time -/

/-- The ring is PROVEN; L0 carries a reference, and is PROVING, PROVEN or selected. -/
def ringed : State := put State.reset [(CLK_RING.state, 1), (CLK_STATUS.switching, 0)]
def lane : State := put ringed [(PORT_CFG.role 0, 2), (PORT_STATUS.link 0, 1)]
theorem witness_watch : powered awake = true ∧ domOn lane (domLane 0) = true ∧ atD lane.clk.linkDown 0 false = false ∧ (1600 : Nat) ≤ 1600 ∧ (2400 : Nat) ≤ 2400 ∧ (1599 : Nat) < 1600 ∧ 2400 < (2401 : Nat) ∧
    nominal16 lane 0 = some 2000000 ∧ lane.get (PORT_CFG.role 0) ≠ 0 ∧ (1 : BitVec 8).getLsbD 0 = true ∧ lane.get CLK_RING.state ≠ 0 ∧
    (put lane [(CLK_SRC_STAT.state 0, 0)]).get (CLK_SRC_STAT.state 0) = 0 ∧ (put lane [(CLK_SRC_STAT.state 0, 1)]).get (CLK_SRC_STAT.state 0) = 1 ∧
    (put lane [(CLK_SRC_STAT.state 0, 2)]).get (CLK_SRC_STAT.state 0) = 2 ∧ nominal16 lane 10 = some 4000000 ∧
    ((16 * (125000 : Int) * 1000000 - 2000000 * (1000000 - 0)).natAbs ≤ 2000000 * 150000) ∧
    ¬ ((16 * (1000 : Int) * 1000000 - 2000000 * (1000000 - 0)).natAbs ≤ 2000000 * 150000) := by decide
/-- L0 is selected in REF; it has made the loop slip twice. -/
def refOn : State := put lane [(CLK_STATUS.mode, 1), (CLK_STATUS.selected, 0), (CLK_SRC_STAT.state 0, 2), (CLK_REF_CFG.ref_count, 2),
  (⟨0x020018, 0, 16⟩, 0x0A00)]
def slipped : State := { refOn with clk := { refOn.clk with slips := [(0, 0), (0, 0)] } }
def lulled : State := put ringed [(CLK_STATUS.mode, 3), (CLK_STATUS.glide, 0)]
theorem witness_sources : refOn.get CLK_STATUS.selected < 11 ∧ (refOn.clk.slips.filter (fun g => g.1 == 0 && refOn.clk.gates < g.2 + 1000)).length < 2 ∧
    2 ≤ (slipped.clk.slips.filter (fun g => g.1 == 0 && slipped.clk.gates < g.2 + 1000)).length ∧ slipped.get (CLK_SRC_STAT.state 0) = 2 ∧
    lulled.get CLK_STATUS.mode = 3 ∧ lulled.get CLK_STATUS.glide = 0 ∧ refList refOn = [0, 0x0A] ∧ refOn.get CLK_STATUS.switching = 0 ∧
    refOn.clk.hold = 0 ∧ selectable refOn 0 = true := by decide
/-- REF without its source, with the internal reference PROVEN, with none, with the ring lost; START; Lull; a source ahead. -/
def lost : State := put refOn [(CLK_SRC_STAT.state 0, 3), (CLK_SRC_STAT.state 10, 2)]
def noSource : State := put refOn [(CLK_SRC_STAT.state 0, 3)]
def starting : State := put refOn [(CLK_STATUS.mode, 0), (CLK_STATUS.selected, 0xFE)]
def ahead : State := atTime 1000000 (put refOn [(CLK_STATUS.mode, 2), (CLK_STATUS.selected, 0x0A), (CLK_SRC_STAT.state 10, 2),
  (CLK_CTRL.revert_holdoff_ms, 1)])
theorem witness_decisions : (refList lost).find? (selectable lost) = some 10 ∧ lost.get (CLK_SRC_STAT.state 0) ≠ 2 ∧
    (refList noSource).find? (selectable noSource) = none ∧ (put noSource [(CLK_RING.state, 0)]).get CLK_RING.state = 0 ∧
    (refList starting).find? (fun j => j != 0x0A && selectable starting j) = some 0 ∧ starting.get CLK_STATUS.mode = 0 ∧
    (refList (put refOn [(CLK_STATUS.mode, 3)])).find? (selectable (put refOn [(CLK_STATUS.mode, 3)])) = some 0 ∧
    ahead.ha 0 = false ∧ ahead.get CLK_CTRL.revert_holdoff_ms ≠ 0 ∧ ahead.get (CLK_SRC_STAT.state 10) = 2 ∧
    ((refList ahead).takeWhile (· != 10)).find? (fun j => selectable ahead j &&
      decide (Nat.max (atD ahead.clk.provenAt j 0) ahead.clk.holdFrom + 1 * 1000000 ≤ ahead.now)) = some 0 := by
  decide +kernel
/-- CLK_SELECT in HA mode: in order, to an unlisted source, the selected one, one not PROVEN, and one that may be chosen. -/
def haClock : State := put refOn [(HOST_FN_STAT.mode 0, 1)]
theorem witness_select : devWriter .host = true ∧ devWriter .switch = false ∧ refOn.ha 0 = false ∧ haClock.ha 0 = true ∧
    haClock.get CLK_STATUS.switching = 0 ∧ haClock.get CLK_STATUS.glide = 0 ∧ haClock.clk.failedNow = false ∧
    5 ∉ refList haClock ∧ 0 ∈ refList haClock ∧ selectable haClock 10 = false ∧
    selectable (put haClock [(CLK_SRC_STAT.state 10, 2)]) 10 = true := by decide
/-- A switch under way, a glide at its end, and a hold in START. -/
def switching : State := { refOn with clk := { refOn.clk with switch := some ⟨0, 10, 2, false⟩ } }
def toWatch : State := { refOn with clk := { refOn.clk with switch := some ⟨0x0A, 0xFF, 0, false⟩ } }
def holding : State := { State.reset with clk := { State.reset.clk with hold := 1 } }
theorem witness_switches : switching.clk.switch = some ⟨0, 10, 2, false⟩ ∧ toWatch.clk.switch = some ⟨0x0A, 0xFF, 0, false⟩ ∧ (10 : Nat) < 11 ∧
    ((put refOn [(CLK_STATUS.glide, 1)]).get CLK_STATUS.glide = 1 ∧ refOn.clk.glideLeft = 0) ∧ State.reset.get CLK_STATUS.mode = 0 ∧
    ({ refOn with clk := { refOn.clk with switch := some ⟨0xFE, 0xFF, 0, false⟩ } } : State).clk.switch = some ⟨0xFE, 0xFF, 0, false⟩ ∧
    State.reset.clk.passed = false ∧ State.reset.clk.lullRing = false ∧
    State.reset.clk.hold = 0 ∧ State.reset.get CLK_RING.state = 0 ∧ holding.clk.hold ≠ 0 ∧ holding.flt.due = none ∧
    holding.get LADDER_STATUS.rung4 < 1 ∧ (put holding [(LADDER_CFG1.r4_limit, 1), (LADDER_STATUS.rung4, 1)]).get LADDER_CFG1.r4_limit ≠ 0 ∧
    (put holding [(LADDER_CFG1.r4_limit, 1), (LADDER_STATUS.rung4, 1)]).get LADDER_STATUS.rung4 = 1 := by decide
/-- Port 0 is the slave port with a delay; the servo is FREE, in ACQUIRE after three good Syncs, LOCKED, and in HA mode. -/
def slave : State := put State.reset [(TT_STATUS.slave_port, 0), (⟨TT_PORT_DELAY 0, 0, 32⟩, 0)]
def acquiring : State := { put slave [(TT_STATUS.state, 1)] with tt := { slave.tt with good := 3 } }
def locked : State := atTime 375000000 { put slave [(TT_STATUS.state, 2)] with tt := { slave.tt with bad := 1 } }
theorem witness_syncs : slave.get TT_STATUS.slave_port = 0 ∧ slave.tt.gm = false ∧ slave.reg (TT_PORT_DELAY 0) ≠ 0xFFFFFFFF ∧
    slave.ha 1 = false ∧ slave.get TT_STATUS.state = 0 ∧ slave.get BOOT_STATUS.frost = 1 ∧ acquiring.get TT_STATUS.state = 1 ∧
    acquiring.tt.good = 3 ∧ locked.get TT_STATUS.state = 2 ∧ locked.tt.bad ≠ 0 ∧ (put slave [(HOST_FN_STAT.mode 1, 1)]).ha 1 = true ∧
    locked.tt.lastSync + 3 * locked.tt.interval ≤ locked.now ∧
    (put slave [(BOOT_STATUS.frost, 0), (TT_STATUS.ever_synced, 1)]).get TT_STATUS.ever_synced = 1 := by decide
/-- A clocked state with an empty queue; HA mode of the servo, with a step permitted and not. -/
def ticking : State := put awake [(CLK_RING.state, 1), (CLK_STATUS.mode, 1)]
def haTime : State := put State.reset [(HOST_FN_STAT.mode 1, 1)]
theorem witness_time : ticking.pending = [] ∧ clocked ticking = true ∧ 0 ≤ ticking.tt.slew ∧ haTime.ha 1 = true ∧
    haTime.get TT_CTRL.lock = 0 ∧ haTime.tt.snap[0] = false ∧ (4 : BitVec 3).toNat < 5 ∧ 5 ≤ (5 : BitVec 3).toNat ∧ haTime.get BOOT_STATUS.frost = 1 ∧
    (put haTime [(BOOT_STATUS.frost, 0), (TT_STATUS.ever_synced, 1)]).get BOOT_STATUS.frost = 0 ∧
    ({ ticking with tt := { ticking.tt with slew := -1 } } : State).tt.slew < 0 := by decide
/-- Port 0 speaks gPTP as a master, as before its first delay exchange, with an Announce held. -/
def speaking : State := put State.reset [(PORT_CFG.gptp 0, 1), (PORT_STATUS.link 0, 1), (PORT_STATUS.gptp_state 0, 1)]
def announced : State := speaking.modPort 0 (fun h => { h with ann := some ⟨[], 0, 0⟩ })
def master : State := { speaking with tt := { speaking.tt with gm := true } }
theorem witness_gptp_due : master.tt.gm = true ∧ gptpDue master 0 0 = true ∧ gptpDue master 0 1 = true ∧ gptpDue master 0 2 = true ∧
    master.disabling 1 = false ∧ gptpOn master 0 = true ∧ master.get (PORT_STATUS.gptp_state 0) = 1 ∧
    ((speaking.modPort 0 (fun h => { h with t1 := some 5 })).portOf 0).t1 = some 5 ∧ (speaking.portOf 0).t1 = none ∧
    gptpDue (speaking.modPort 0 (fun h => { h with nextAt := #v[1, 1, 1] })) 0 0 = false := by decide +kernel
theorem witness_gptp : gptpOn speaking 0 = true ∧ (65535 + 1) % 65536 = atD (speaking.portOf 0).seqs 1 0 ∧
    (0 + 1) % 65536 ≠ atD (speaking.portOf 0).seqs 1 0 ∧ speaking.get (PORT_STATUS.gptp_state 0) = 1 ∧ (speaking.portOf 0).pdelay = none ∧
    (announced.portOf 0).ann = some ⟨[], 0, 0⟩ ∧ 0 + 3 * 0 ≤ announced.now ∧ gptpOn State.reset 0 = false ∧ 1 ≠ clockId speaking := by
  decide
/-! ### Messages, votes and groups -/

/-- Tile 0's Vital page holds a header of role 1, generation 1 and length 4, or one too long, or one of generation 0. -/
def paged : State := State.reset.setReg (OMT_TX_HDR 0 0) 0x00401001
def note : Msg := ⟨0x00401001, 1, 0, 0, 0, [7]⟩
def heldPage : State := paged.modOmt (fun o => { o with tx := o.tx.set 0 (some note) })
theorem witness_pages : domOn paged (domTile 0) = true ∧ atD paged.omt.tx (2 * (0 : Fin 24) + (0 : Fin 2)) none = none ∧
    ¬ 64 < bitsOf (paged.reg (OMT_TX_HDR 0 0)) 20 7 ∧
    ¬ (bitsOf (paged.reg (OMT_TX_HDR 0 0)) 0 12 = 0xFFF ∨ bitsOf (paged.reg (OMT_TX_HDR 0 0)) 12 8 = 0) ∧
    64 < bitsOf ((paged.setReg (OMT_TX_HDR 0 0) 0x04101001).reg (OMT_TX_HDR 0 0)) 20 7 ∧
    bitsOf ((paged.setReg (OMT_TX_HDR 0 0) 0x00400001).reg (OMT_TX_HDR 0 0)) 12 8 = 0 ∧
    (atD heldPage.omt.tx (2 * (0 : Fin 24) + (0 : Fin 2)) none).isSome = true := by decide
/-- Role 1 is bound to tile 1 (kind 0), with generation 1; tile 0's message to it is in the fabric, and waits for a full queue. -/
def roles : List Byte := [1, 0, 0, 0] ++ [1, 0, 0, 1, 1, 0, 0, 0]
def bound : State := put (withInv [(0x10, roles)] (State.reset.modTile 1 (fun x => { x with held := false })))
  [(OMT_ROLE.kind 1, 0), (OMT_ROLE.target 1, 1), (OMT_ROLE.gen 1, 1), (OMT_ROLE.withdrawn 1, 0)]
def inFlight : State := bound.modOmt (fun o => { o with flights := [⟨note, [], [], none⟩] })
def waitingFull : State := atTime 1000 (bound.modOmt (fun o =>
  { o with flights := [⟨note, [], [], some 0⟩], rx := o.rx.set 8 (List.replicate 8 note) }))
theorem witness_flights : findFlight inFlight 0 0 1 = some (⟨note, [], [], none⟩, []) ∧ roleCause inFlight note = none ∧
    inFlight.get (OMT_ROLE.kind 1) = 0 ∧ receiverOff inFlight 1 = false ∧ queueFull inFlight (queueOf inFlight 1 1) = false ∧
    roleCause (inFlight.set (OMT_ROLE.gen 1) 2) note = some 1 ∧
    receiverOff (inFlight.modTile 1 (fun x => { x with held := true })) 1 = true ∧
    findFlight waitingFull 0 0 1 = some (⟨note, [], [], some 0⟩, []) ∧ queueFull waitingFull (queueOf waitingFull 1 1) = true ∧
    0 + 1000 ≤ waitingFull.now := by decide +kernel
/-- Role 1 is bound to group 0 (kind 1), whose only current slot is tile 1; the message has arrived there and is due. -/
def grouped : State := ((inFlight.set (OMT_ROLE.kind 1) 1).set (OMT_ROLE.target 1) 0).modGrp 0 (fun h => { h with tiles := [(1, false)] })
def groupFull : State := grouped.modOmt (fun o => { o with rx := o.rx.set 8 (List.replicate 8 note) })
def groupDue : State := atTime 2000 (grouped.modOmt (fun o => { o with flights := [⟨note, [0], [], none⟩] }))
theorem witness_group_messages : grouped.get (OMT_ROLE.kind 1) = 1 ∧ 0 ∈ currentOf (grouped.grpOf 0).tiles ∧
    grouped.now ≤ note.sent + 2000 ∧ roleCause grouped note = none ∧ queueFull grouped (queueOf grouped 1 1) = false ∧
    queueFull groupFull (queueOf groupFull 1 1) = true ∧ note.sent + 2000 < (atTime 2001 grouped).now ∧
    findFlight groupDue 0 0 1 = some (⟨note, [0], [], none⟩, []) ∧ note.sent + 2000 + 0 ≤ groupDue.now ∧
    (∀ j ∈ currentOf (groupDue.grpOf 0).tiles, j ∈ [0]) ∧ (∀ x ∈ groupDue.omt.flights, msgBefore x.msg note = false) ∧
    receiverOff groupDue (tileIn (groupDue.grpOf 0).tiles 0) = false := by decide +kernel
/-- Shelf C0 holds a message of tile 0's Vital page at index 63. -/
def shelved_ : State := State.reset.modOmt (fun o => { o with shelf := [(63, ⟨note, 2, 0⟩)] })
theorem witness_shelf : domOn shelved_ (domCluster 0) = true ∧ shelfAt shelved_ 0 63 = some ⟨note, 2, 0⟩ ∧ note.tile = 0 ∧ note.world = 0 ∧
    shelfAt shelved_ 0 0 = none ∧ (5 : Fin 256) ≠ 0 ∧ note.tile ≠ 1 := by decide

/-- Group 0 of tiles 0, 4 and 8, with its definition, no comparison open. -/
def groupBytes : List Byte := [1, 0, 0, 0] ++ [0, 3, 0, 4, 8, 0, 0, 0] ++ leBytes 4 1000 ++ leBytes 4 500 ++ leBytes 4 10000 ++ leBytes 4 0x100 ++
  leBytes 4 0x10 ++ leBytes 4 0
def poolBytes : List Byte := [1, 0, 0, 0] ++ [0, 1, 12, 0, 0, 0, 0, 0]
def trio : State := (withInv [(0x11, groupBytes), (0x12, poolBytes)] State.reset).modGrp 0 (fun h =>
  { h with live := true, tiles := [(0, false), (4, false), (8, false)] })
/-- One counted write of slot 0 with value 5 stands in the comparison; slot 1's equal write is on its way to the lead gate, for
GPIO bank 0 under mask 0xFF. -/
def first : VoteW := ⟨0, 5, 0, []⟩
def second : VoteW := ⟨1, 5, 100, []⟩
def open1 : Cmp := ⟨0, 3, 0, 0, [first], false, none, [], false, false, false, [], false, false, false, none⟩
def votingOne : State := trio.modGrp 0 (fun h => { h with cmps := [open1], transit := [(0, 3, 0, second)], cfg := h.cfg.set 3 2, aux := h.aux.set 3 0xFF })
theorem witness_votes : domOn trio (domCluster 0) = true ∧ memberSlot trio 0 0 = some 0 ∧ memberSlot trio 0 1 = none ∧
    (trio.grpOf 0).tiles.length ≤ 3 ∧ (trio.grpOf 0).cmps = [] ∧ 2 ≤ (currentSlots trio 0).length ∧
    tagBefore (cell (trio.grpOf 0).seq 0 29) (cell (trio.grpOf 0).next 0 29) = false ∧ trio.ha 3 = false ∧
    leadOf (trio.grpOf 0).tiles = some 0 := by decide
theorem witness_release : (votingOne.grpOf 0).live = true ∧ (groupRec votingOne.invB 0).map (·.skew) = some 500 ∧
    (votingOne.grpOf 0).transit = [(0, 3, 0, second)] ∧ (votingOne.grpOf 0).cmps = [open1] ∧ first.slot ∈ currentSlots votingOne 0 ∧
    second.slot ∈ currentSlots votingOne 0 ∧ second.stamp ≤ Nat.min open1.start second.stamp + 500 ∧
    votingOne.now < Nat.min open1.start second.stamp + 500 + 500 ∧ cell (votingOne.grpOf 0).next 0 3 = 0 ∧
    atD (votingOne.grpOf 0).rel 3 0 = 0 ∧ atD (votingOne.grpOf 0).cfg 3 0 % 8 = 2 ∧ atD (votingOne.grpOf 0).cfg 3 0 / 8 % 256 < 8 := by
  decide +kernel
theorem witness_finalize : (let s := atTime 1000 votingOne
     open1.start + (((groupRec s.invB 0).map (·.skew)).getD 0) + 500 ≤ s.now) ∧
    votingOne.now < open1.start + (((groupRec votingOne.invB 0).map (·.skew)).getD 0) + 500 := by decide +kernel
/-- A lead verdict that the gate's own meets, and one it does not; a comparison that HA mode has stopped and decided. -/
def verdicts : State := trio.modGrp 0 (fun h => { h with lead := [⟨1, 3, 0, 0, 5⟩], own := [⟨1, 3, 0, 0, 5⟩] })
def diverging : State := trio.modGrp 0 (fun h => { h with lead := [⟨1, 3, 0, 0, 5⟩], own := [⟨1, 3, 0, 1, 0⟩] })
def stopped1 : State := atTime 10001000 (trio.modGrp 0 (fun h => { h with cmps := [{ open1 with decided := true, stopped := true, final := true }] }))
theorem witness_verdicts : (let hit := fun (v : Verdict) => v.gate == 1 && v.port == 3 && v.tag == 0
     (verdicts.grpOf 0).lead.find? hit = some ⟨1, 3, 0, 0, 5⟩ ∧ (verdicts.grpOf 0).own.find? hit = some ⟨1, 3, 0, 0, 5⟩ ∧
     (diverging.grpOf 0).own.find? hit = some ⟨1, 3, 0, 1, 0⟩ ∧ (diverging.grpOf 0).live = true) ∧
    finalAt (cmpDef stopped1 0 { open1 with decided := true, stopped := true, final := true }) open1 + 10000000 ≤ stopped1.now := by
  decide +kernel
/-- A release to GPIO bank 2, due on the next edge of the vote cycle; one at an edge channel whose cluster is off, tried before or not. -/
def releasing (d : Nat) (ix : Nat) (again : Bool) : State := { trio with vote := { trio.vote with outs := [⟨trio.clk.edges, d, ix, 5, 0xFF, again⟩] } }
theorem witness_outs : (∀ g : Fin 12, (trio.grpOf g).safeFrom = none) ∧ (∀ g : Fin 12, ((releasing 2 2 false).grpOf g).safeFrom = none) ∧
    (releasing 2 2 false).vote.outs = [⟨(releasing 2 2 false).clk.edges, 2, (2 : Fin 8), 5, 0xFF, false⟩] ∧
    domOn ((releasing 1 0 false).set (PWR_DOM_STAT.state (domCluster 0)) 1) (domCluster 0) = false := by decide +kernel
/-- Table VOT-4: the bits under the mask are set, and nothing waits any more. -/
theorem test_release : (voteCycle (releasing 2 2 false)).reg (GPIO_OUT 2) = 5 ∧ (voteCycle (releasing 2 2 false)).vote.outs = [] := by decide +kernel
/-- R166, Table VOT-9: a release that fails is put back once. -/
theorem test_release_again : ((voteCycle ((releasing 1 0 false).set (PWR_DOM_STAT.state (domCluster 0)) 1)).vote.outs.map (·.again)) = [true] := by decide +kernel
/-- Two slots have given port 3 the code 2; the third slot's vote is still to come, or is late. -/
def configuring : State := trio.modGrp 0 (fun h => { h with cfgVotes := [⟨3, false, 0, [(0, 2), (1, 2)]⟩] })
theorem witness_configuring : memberSlot configuring 0 8 = some 2 ∧ (configuring.grpOf 0).locked = false ∧ configuring.now ≤ 0 + 500 ∧
    currentSlots configuring 0 = [0, 1, 2] ∧ ((configuring.grpOf 0).cfgVotes.map (·.vals)) = [[(0, 2), (1, 2)]] ∧ (2 : Word).toNat % 8 < 6 ∧
    0 + (((groupRec configuring.invB 0).map (·.skew)).getD 0) < (atTime 501 configuring).now ∧ domOn configuring (domCluster 2) = true := by
  decide +kernel
/-- Agreed control codes, one at a time. -/
def control (n : Nat) (live : Bool) : State := trio.modGrp 0 (fun h => { h with ctl := [n], live := live })
theorem witness_control : ((control 1 false).grpOf 0).ctl = [1] ∧ 2 ≤ (currentSlots (control 1 false) 0).length ∧ ((control 1 false).grpOf 0).phase = 0 ∧
    (control 1 false).get CLK_STATUS.lull = 0 ∧ ((control 2 true).grpOf 0).ctl = [2] ∧ ((control 3 true).grpOf 0).live = true ∧
    ((trio.modGrp 0 (fun h => { h with ctl := [1], live := false, phase := 1 })).grpOf 0).phase ≠ 0 := by decide
theorem witness_checkpoint : (let s := atTime 10000000 trio
     (groupRec s.invB 0).map (·.ckptPeriodUs) = some 10000 ∧ (s.grpOf 0).ckptRaised[0] < (s.now - 0 * 1000) / 10000000 * 10000000 ∧
     0 ∈ currentOf (s.grpOf 0).tiles) := by decide +kernel
/-- A voted frame of slot 0 waits, of an empty buffer at offset 0x200 whose CRC is not 0. -/
def framed : State := trio.modGrp 0 (fun h => { h with frames := [⟨3, 0, 0, 0, []⟩], bufs := [(3, 0, 0x200, 0)] })
theorem witness_voted_frame : (framed.grpOf 0).frames = [⟨3, 0, 0, 0, []⟩] ∧ (framed.grpOf 0).tiles[0]? = some (0, false) ∧
    (framed.grpOf 0).bufs.find? (fun x => x.1 == 3 && x.2.1 == 0) = some (3, 0, 0x200, 0) ∧
    crc32c (framed.bytes (dtcmKey 0 + 0x200) (framed.load (dtcmKey 0 + 0x200) 2 + 2)) ≠ (0 : Word).toNat := by decide +kernel
/-- Tile 0 is locked up; a takeover by tile 12 copies; tile 12 has joined; slot 2 is empty and the host may fill it. -/
def locked0 : State := trio.modTile 0 (fun x => { x with held := false, lockup := some 0 })
def copying : State := (trio.modGrp 0 (fun h => { h with phase := 2, spare := some 12 })).modDma 103 (fun h => { h with copy := some 0 })
def joining : State := (trio.modGrp 0 (fun h => { h with joined := some 12 })).modTile 12 (fun x => { x with wait := 0, unloaded := false })
def gap : State := (put trio [(HOST_FN_STAT.mode 9, 1)]).modGrp 0 (fun h => { h with tiles := [(0, false), (4, false), (8, true)] })
theorem witness_takeover : (locked0.tileOf 0).lockup.isSome = true ∧ groupsOf locked0 0 = [0] ∧ groupsOf locked0 1 = [] ∧
    (copying.grpOf 0).phase = 2 ∧ (copying.dmaOf (ch7 (donorCluster copying 0))).copy = some 0 ∧
    (groupRec copying.invB 0).map (fun r => (r.ckptBase, r.ckptLen)) = some (0x100, 0x10) ∧ (joining.grpOf 0).joined = some 12 ∧
    (joining.tileOf 12).wait = 0 ∧ gap.ha 9 = true ∧ (gap.grpOf 0).tiles ≠ [] ∧ 2 ∉ currentSlots gap 0 ∧ currentSlots gap 0 ≠ [] ∧
    spareOk gap 0 12 = true ∧ bitsOf (0x20C : Word) 8 2 = 2 ∧ bitsOf (0x20C : Word) 0 8 = 12 ∧ spareOk gap 0 1 = false := by
  decide +kernel
/-! ### DMA channels -/

/-- Channel 0 of tile 0 in a given state, claimed or not, owned by the Vital world. -/
def chan (st : Nat) : State := live.set (CH_STATUS.state (chBase 0)) st
def direct0 : State := put (chan 0) [(CH_LEN.len (chBase 0), 8), (CH_CTRL.width (chBase 0), 2)]
def sup0 : Master := .tile 0 true true
theorem witness_channels : domOn (chan 0) (chDomain 0) = true ∧ engineWriter 0 sup0 = true ∧ engineWriter 0 (.tile 1 true true) = false ∧
    (put (chan 0) [(CH_STATUS.claimed (chBase 0), 1)]).get (CH_STATUS.claimed (chBase 0)) = 1 ∧ (chan 2).get (CH_STATUS.claimed (chBase 0)) = 0 ∧
    chForeign (chan 2) 0 (.tile 0 false true) = true ∧ chForeign (chan 2) 0 sup0 = false ∧ goAligned direct0 0 = true ∧
    direct0.get (CH_CTRL.src_mode (chBase 0)) = 0 ∧ direct0.get (CH_CTRL.dst_mode (chBase 0)) = 0 ∧ direct0.get (CH_LEN.len (chBase 0)) ≠ 0 ∧
    goAligned (direct0.set (CH_LEN.len (chBase 0)) 7) 0 = false ∧ [0, 1, 2, 3, 4, 5, 6, 7].all (fun n => chState (chan n) 0 == n) = true := by
  decide +kernel
/-- Cluster engine 0 stopped, and tile 0 of its cluster its writer. -/
def stoppedEngine : State := put State.reset [(CDMA_STATUS.stopped 0, 1), (CH_STATUS.state (chBase 96), 7)]
theorem witness_restart : domOn stoppedEngine (domCluster 0) = true ∧ engineWriter 96 sup0 = true ∧
    stoppedEngine.get (CDMA_STATUS.stopped 0) = 1 ∧ chState stoppedEngine 96 = 7 ∧ State.reset.get (CDMA_STATUS.stopped 0) = 0 := by decide +kernel

/-- An armed channel started at an instant, and one started by its latch, paced by its own level register. -/
def armedAt : State := atTime 5 (put ((chan 1).setPair (CH_START_TT_LO (chBase 0)) 5) [(CH_CTRL.start (chBase 0), 1)])
def latched (st : Nat) : State := put (chan st) [(CH_CTRL.start (chBase 0), 2), (CH_PACE.source (chBase 0), 1), (CH_STATUS.pace_latch (chBase 0), 1),
  (CH_LEVEL.level (chBase 0), 4), (CH_PACE.low (chBase 0), 0), (CH_PACE.high (chBase 0), 2)]
theorem witness_starts : chState armedAt 0 = 1 ∧ domOn armedAt (chDomain 0) = true ∧ (armedAt.dmaOf 0).src.ended = false ∧
    (armedAt.dmaOf 0).dst.ended = false ∧ armedAt.get (CH_PACE.source (chBase 0)) = 0 ∧ armedAt.pair (CH_START_TT_LO (chBase 0)) ≤ armedAt.now ∧
    (atTime 4 armedAt).now < (atTime 4 armedAt).pair (CH_START_TT_LO (chBase 0)) ∧ chState (latched 1) 0 = 1 ∧
    (latched 1).get (CH_CTRL.start (chBase 0)) = 2 ∧ (latched 1).get (CH_PACE.source (chBase 0)) ≠ 0 ∧ paceNext (latched 1) 0 0 = true ∧
    paceNext (latched 2) 0 4 = false ∧ chState (latched 3) 0 = 3 ∧ ((latched 2).dmaOf 0).copy = none := by decide +kernel
/-- A running channel with a beat of 4 bytes from 0x100 to 0x200 to make. -/
def beating : State := (put (chan 2) [(CH_CTRL.width (chBase 0), 2)]).modDma 0 (fun h =>
  { h with src := { h.src with addr := 0x100, rem := 8 }, dst := { h.dst with addr := 0x200, rem := 8 } })
theorem witness_beat : (beating.dmaOf 0).orphan = none ∧ inTurn beating 0 = true ∧ (∀ g : Fin 12, (beating.grpOf g).phase ≠ 2) ∧ mirrorOf beating 0 = none ∧
    domOn beating (chDomain 0) = true ∧ chState beating 0 = 2 ∧ beating.get (CH_PACE.source (chBase 0)) = 0 ∧
    (beating.dmaOf 0).copy = none ∧ (beating.dmaOf 0).tail = 0 ∧ (beating.dmaOf 0).src.io = false ∧ (beating.dmaOf 0).dst.io = false ∧
    2 ^ beating.get (CH_CTRL.width (chBase 0)) ≤ (beating.dmaOf 0).src.rem ∧ 2 ^ beating.get (CH_CTRL.width (chBase 0)) ≤ (beating.dmaOf 0).dst.rem ∧
    dmaData beating 0 0x100 4 false = (.ok (.dtcm 0) 0 (dtcmKey 0 + 0x100), none) ∧
    dmaData beating 0 0x200 4 true = (.ok (.dtcm 0) 0 (dtcmKey 0 + 0x200), none) := by decide +kernel
/-- The source side's entry at 0x300 is to be fetched: a reserved one, a link, data, and data that is not aligned. -/
def listed (w0 w1 : Nat) : State := ((put (chan 2) [(CH_CTRL.width (chBase 0), 2)]).modDma 0 (fun h =>
  { h with src := { h.src with entry := 0x300, fetch := true } })).setBytes (dtcmKey 0 + 0x300) (leBytes 4 w0 ++ leBytes 4 w1)
def entryOf (w0 w1 : Nat) : Nat × Nat := ((listed w0 w1).load (dtcmKey 0 + 0x300) 4, (listed w0 w1).load (dtcmKey 0 + 0x304) 4)
theorem witness_entries : ((listed 0 0).dmaOf 0).src.fetch = true ∧ chState (listed 0 0) 0 = 2 ∧
    dmaData (listed 0 0) 0 0x300 8 false = (.ok (.dtcm 0) 0 (dtcmKey 0 + 0x300), none) ∧ entryOf 0x400 0x40000000 = (0x400, 2 ^ 30) ∧
    entryOf 0x400 0x2000000 = (0x400, 2 ^ 25) ∧ entryOf 0x400 0x1000010 = (0x400, 2 ^ 24 + 16) ∧ entryOf 0x402 16 = (0x402, 16) := by decide +kernel
theorem witness_stop_drain : (let s := (chan 4).modDma 0 (fun h => { h with drain := true, src := { h.src with ended := true } })
     (s.dmaOf 0).drain = true ∧ (s.dmaOf 0).src.ended = true ∧ chState s 0 = 4) := by decide +kernel
theorem witness_stop_point : domOn (chan 4) (chDomain 0) = true ∧ chState (chan 4) 0 = 4 ∧ ((chan 4).dmaOf 0).left = 0 ∧
    ∀ g : Fin 12, ((chan 4).grpOf g).phase ≠ 2 := by decide +kernel
/-- R200: the beat copies its four bytes and nothing else, and counts them. -/
theorem test_beat : (let s := after (.beatComplete 0 0 0 0 0 0 0) (beating.setBytes (dtcmKey 0 + 0x100) [1, 2, 3, 4, 5])
     s.bytes (dtcmKey 0 + 0x1FF) 6 = [0, 1, 2, 3, 4, 0] ∧ s.reg (CH_DONE_BYTES (chBase 0)) = 4) := by decide +kernel
/-! ### The switch -/

/-- The forwarding database holds a dynamic entry of VID 1 at port 1, or is full in the set of the pair. -/
def entry1 : FdbEntry := ⟨fdbSet 0x020000000005 1, 0, 0x020000000005, 1, 2, false, 0⟩
def cmd_ (op : Nat) : FdbCmd := ⟨op, 0x020000000005, 1, 4, true, 1⟩
def fdb (l : List FdbEntry) (c : Option FdbCmd) : State := { State.reset with net := { State.reset.net with fdb := l, cmd := c } }
def fullSet : List FdbEntry := [0, 1, 2, 3].map (fun w => { entry1 with way := w, mac := w })
theorem witness_fdb : devWriter .host = true ∧ devWriter .switch = false ∧ (fdb [] none).net.cmd = none ∧ (fdb [] (some (cmd_ 1))).net.cmd.isSome = true ∧
    fdbFind (fdb [entry1] (some (cmd_ 1))) (cmd_ 1).mac (cmd_ 1).vid = some entry1 ∧ fdbFind (fdb [] (some (cmd_ 2))) (cmd_ 2).mac (cmd_ 2).vid = none ∧
    freeWay (fdb [] (some (cmd_ 2))) (fdbSet 0x020000000005 1) = some 0 ∧ freeWay (fdb fullSet (some (cmd_ 2))) (fdbSet 0x020000000005 1) = none ∧
    fdbFind (fdb fullSet (some (cmd_ 2))) (cmd_ 2).mac (cmd_ 2).vid = none ∧ (fdb [entry1] (some (cmd_ 5))).net.cmd = some (cmd_ 5) := by decide +kernel
def learned : State := { State.reset with net := { State.reset.net with learn := [(5, 1, 2)] } }
theorem witness_learned : learned.net.learn = [(5, 1, 2)] ∧ latchOf learned .host = none ∧
    (latchOf (after (.learnNotifyRead .host false) learned) .host).map (fun l => (l.pair, l.hiFirst)) = some (NET_LEARN_LO, false) := by decide +kernel

/-- Lanes 0 and 1 up at 100 Mbit/s as members of VLAN 1, the pair above learned at port 1, the buffer of 1 MiB. -/
def fabric : State :=
  { put State.reset [(BOOT_STATUS.frost, 0), (PORT_STATUS.link 0, 1), (PORT_STATUS.link 1, 1), (PORT_STATUS.speed 0, 2), (PORT_STATUS.speed 1, 2),
      (PORT_CFG.role 0, 1), (PORT_CFG.role 1, 1), (PORT_CFG.pvid 0, 1), (VLAN_ENTRY.member 1, 3), (NET_BUF_CFG.buf_mib, 1), (PORT_QLIM.cells 1, 16),
      (PORT_STATUS.gates 1, 0xFF), (PORT_CFG.cut_through 0, 1), (PORT_CFG.cmd 0, 0)] with
    net := { State.reset.net with fdb := [entry1] } }
def packet : List Byte := beBytes 6 0x020000000005 ++ beBytes 6 0x020000000006 ++ beBytes 2 0x0800 ++ List.replicate 46 0
/-- The source of the frame is not in the database, which learns. -/
theorem witness_learns : isGroup (parseFrame packet).src = false ∧ flushing fabric = false ∧ fabric.disabling 2 = false ∧ fabric.ha 2 = false ∧
    fabric.net.lastCmd ≠ some ((parseFrame packet).src, 1, fabric.clk.edges) ∧ fdbFind fabric (parseFrame packet).src 1 = none ∧
    freeWay fabric (fdbSet (parseFrame packet).src 1) = some 0 ∧ isPause (parseFrame packet) = false ∧ fabric.net.flushDue = false ∧
    ({ fabric with net := { fabric.net with cmd := some (cmd_ 2), flushDue := true } } : State).net.flushDue = true := by decide +kernel
theorem witness_frames : portUp fabric 0 = true ∧ (fabric.portOf 0).cutTo = [] ∧ 64 ≤ packet.length + 4 ∧ packet.length + 4 ≤ 1528 ∧
    (parseFrame packet).overTagged = false ∧ isCommand fabric 0 (parseFrame packet) = false ∧ isHello fabric 0 (parseFrame packet) = false ∧
    (parseFrame packet).dst / 16 ≠ 0x0180C200000 ∧ (vidPcp fabric 0 (parseFrame packet)).1 = 1 ∧
    bitN (fabric.get (VLAN_ENTRY.member 1)) 0 = true ∧ bitN (fabric.get (VLAN_ENTRY.member 1)) 1 = true ∧ forwards fabric 0 = true ∧
    forwards fabric 1 = true ∧ streamOf fabric 0 (parseFrame packet) 1 = none ∧ (parseFrame packet).src ≠ (parseFrame packet).dst ∧
    fdbFind fabric (parseFrame packet).dst 1 = some entry1 ∧ entry1.ports = 2 ^ 1 ∧ fabric.frost = false ∧
    ((fabric.portOf 1).queues.toList.flatten.map cellsOf).sum + (packet.length + 259) / 256 ≤ fabric.get (PORT_QLIM.cells 1) ∧
    usedCells fabric + (packet.length + 259) / 256 ≤ totalCells fabric ∧ portRate fabric 1 ≤ portRate fabric 0 ∧
    (fabric.portOf 1).tx = none ∧ (fabric.portOf 1).gq = [] ∧ (∀ t : Fin 8, (fabric.portOf 1).queues[t] = []) ∧
    gateOpen fabric 1 (pcpClass fabric (vidPcp fabric 0 (parseFrame packet)).2) = true ∧ guardBand fabric 1 0 1528 = true ∧
    fabric.get (PORT_CFG.cut_through 0) = 1 ∧ (fabric.set BOOT_STATUS.frost 1).frost = true ∧ portUp fabric 2 = false := by decide +kernel
/-- Port 1 with a frame in class 3, or with a gPTP message, or sending. -/
def fr : NetFrame := ⟨0, 0x020000000005, 0x020000000006, 1, 0, none, beBytes 2 0x0800 ++ List.replicate 46 0, 64, 0, 0, none, false⟩
def port1 (f : PortH → PortH) : State := fabric.modPort 1 f
def queued : State := port1 (fun h => { h with queues := h.queues.set 3 [fr] })
def toHost : State := fabric.modPort 9 (fun h => { h with tx := some (.frame { fr with dst := macBase fabric + 25 } true) })
theorem witness_stomped : ((port1 (fun h => { h with tx := some (.stomped fr) })).portOf 1).tx = some (.stomped fr) := by decide +kernel
theorem witness_transmit : portUp queued 1 = true ∧ (queued.portOf 1).tx = none ∧ (queued.portOf 1).gq = [] ∧ (queued.portOf 1).queues[3] = [fr] ∧
    (∀ u : Fin 8, 3 < u → (queued.portOf 1).queues[u] = []) ∧ gateOpen queued 1 3 = true ∧ guardBand queued 1 3 (wireLen queued 1 fr) = true ∧
    ((port1 (fun h => { h with gq := [⟨0, 0, 0, []⟩] })).portOf 1).gq = [⟨0, 0, 0, []⟩] ∧
    ((port1 (fun h => { h with tx := some (.frame fr true) })).portOf 1).tx = some (.frame fr true) ∧
    ((port1 (fun h => { h with tx := some (.gptp ⟨0, 0, 0, []⟩) })).portOf 1).tx = some (.gptp ⟨0, 0, 0, []⟩) ∧
    (toHost.portOf 9).tx = some (.frame { fr with dst := macBase toHost + 25 } true) ∧
    (toHost.host.rx.map (·.length)).sum + (wireOf toHost 9 fr).length ≤ 16384 := by decide +kernel
/-- A schedule of two entries of 1 ms each. -/
def gates2 : State := atTime 1500000 (port1 (fun h => { h with sched := some ⟨1, 2000000, 0, [(1, 1000000), (6, 1000000)]⟩ }))
theorem witness_gate_entry : (gates2.portOf 1).next = none ∧ (fabric.portOf 1).sched = none ∧
    (gates2.portOf 1).sched = some ⟨1, 2000000, 0, [(1, 1000000)] ++ (6, 1000000) :: []⟩ ∧
    cyclePos ⟨1, 2000000, 0, [(1, 1000000), (6, 1000000)]⟩ gates2.now = 1500000 := by decide +kernel
/-- R275: the second entry's gates at its time. -/
theorem test_gates : (after (.gateEntry 1) gates2).get (PORT_STATUS.gates 1) = 6 := by decide +kernel
/-- R265 to R269: the frame waits for port 1 in its class. -/
theorem test_switched : ((after (.frameReceive 0 packet true) fabric).portOf 1).queues.toList.flatten.map (·.dst) = [0x020000000005] := by
  decide +kernel

/-- Lane 2 may take a link; lane 0 has one. -/
def lane2 : State := (fabric.set (PORT_CFG.role 2) 1).set (PWR_DOM_STAT.state (domLane 2)) 0
/-- Tile 0's transmit ring of four descriptors at 0x100, whose first, of 64 octets at 0x200, it owns. -/
def ring0 : State := ((put live [(NET_TRING_CFG.enable 0, 1), (NET_TRING_CFG.log2 0, 2), (BOOT_STATUS.frost, 0), (NET_BUF_CFG.buf_mib, 1)]).setReg
  (NET_TRING_TX_BASE 0) 0x100).setBytes (dtcmKey 0 + 0x100) (leBytes 4 0x200 ++ [64, 0, 0, 1])
theorem witness_line : lineSpeed (lane2.get (PORT_CFG.line_mode 2)) 3 = some 3 ∧ (lanesLock (put lane2 [(CLK_STATUS.selected, 0)])).clk.txLocked[2] = true := by
  decide +kernel
theorem witness_links : lane2.get (PORT_CFG.role 2) ≠ 0 ∧ domOn lane2 (domLane 2) = true ∧ lane2.clk.hold = 0 ∧ lane2.get (PORT_STATUS.link 2) = 0 ∧ netStopped lane2 = false ∧
    lane2.get (PORT_STATUS.link 0) = 1 ∧ ringWriter 0 sup0 = true ∧ ringWriter 0 .switch = false ∧ State.reset.get (NET_TRING_CFG.enable 0) = 0 ∧
    ring0.get (NET_TRING_CFG.enable 0) = 1 ∧ domOn ring0 (domTile 0) = true ∧ ring0.get (NET_TRING_HEADS.tx 0) = 0 ∧
    (0 + 1) % 2 ^ ring0.get (NET_TRING_CFG.log2 0) = bitsOf (1 : Word) 0 7 % 2 ^ ring0.get (NET_TRING_CFG.log2 0) ∧
    ringReach ring0 0 (ring0.get (NET_TRING_CFG.world 0)) 0x100 8 = true ∧ bitN (ring0.load (dtcmKey 0 + 0x107) 1) 0 = true ∧
    ring0.load (dtcmKey 0 + 0x104) 2 = 64 ∧ ring0.load (dtcmKey 0 + 0x100) 4 = 0x200 ∧
    ringReach ring0 0 (ring0.get (NET_TRING_CFG.world 0)) 0x200 64 = true ∧ ring0.frost = false := by decide +kernel
/-- An FRER function that has seen a frame; a TTDP port at the period and the time-out of its messages. -/
def frer0 : State := atTime 2000000 ({ put State.reset [(FRER_REC0.valid 0, 1), (FRER_REC0.reset_ms 0, 2)] with
  net := { State.reset.net with frer := State.reset.net.frer.set 0 ⟨some [], 0⟩ } })
def ttdp : State := atTime 100000000 (put fabric [(PORT_CFG.role 1, 3), (NET_TTDP_CFG.period_ms, 100), (NET_TTDP_CFG.timeout_ms, 100)])
theorem witness_timers : (frer0.net.frer[0]).seen.isSome = true ∧ frer0.get (FRER_REC0.valid 0) = 1 ∧
    (frer0.net.frer[0]).last + frer0.get (FRER_REC0.reset_ms 0) * 1000000 ≤ frer0.now ∧
    ttdp.get NET_TTDP_CFG.period_ms * 1000000 ≠ 0 ∧ ttdp.frost = false ∧
    ttdp.net.helloSent + ttdp.get NET_TTDP_CFG.period_ms * 1000000 ≤ ttdp.now ∧
    (List.range 8).filter (fun q => ttdp.get (PORT_CFG.role q) == 3 && portUp ttdp q) = [1] ∧ 3 + usedCells ttdp ≤ totalCells ttdp ∧
    3 + ((ttdp.portOf 1).queues.toList.flatten.map cellsOf).sum ≤ ttdp.get (PORT_QLIM.cells 1) ∧
    ttdp.get NET_TTDP_CFG.timeout_ms * 1000000 ≠ 0 ∧ (ttdp.portOf 1).hello + ttdp.get NET_TTDP_CFG.timeout_ms * 1000000 ≤ ttdp.now ∧
    ¬ (State.reset.net.frer[0]).seen.isSome := by decide +kernel
/-! ### Buses -/

/-- Out of Frost with the clock in lock; unit `u` is in a state, with a policy. -/
def clocked : State := put State.reset [(BOOT_STATUS.frost, 0), (CLK_STATUS.mode, 2)]
def unit (u st policy : Nat) : State := put clocked [(⟨busBase u + 4, 0, 2⟩, st), (⟨busBase u, 1, 1⟩, policy)]
/-- CAN controller 0's bits of 16 quanta of 1 ns and of 4 quanta of 500 ps. -/
def timed : State := put clocked [(CAN_NBT_TQ.tq 0, 1000), (CAN_DBT_TQ.tq 0, 500), (CAN_NBT_SEG.tseg1 0, 12), (CAN_NBT_SEG.tseg2 0, 3),
  (CAN_NBT_SEG.sjw 0, 1), (CAN_DBT_SEG.tseg1 0, 2), (CAN_DBT_SEG.tseg2 0, 1), (CAN_DBT_SEG.sjw 0, 1)]
theorem witness_bus_enable : busWriter .host = true ∧ busWriter .switch = false ∧ timed.get ⟨busBase 0 + 4, 0, 2⟩ = 0 ∧
    busCheck (busFields 0 1 timed) 0 = true ∧ busCheck (busFields 0 1 (timed.set (CAN_NBT_TQ.tq 0) 199)) 0 = false ∧
    (timed.set (CAN_NBT_TQ.tq 0) 199).get (CAN_NBT_TQ.tq 0) < 200 ∧ (unit 0 1 0).get ⟨busBase 0 + 4, 0, 2⟩ = 1 := by decide +kernel
/-- A UART with two characters to send and one received; a full one; a CAN controller with buffers 1 and 2 pending. -/
def uart (tx rx : List Word) (st policy : Nat) : State := (unit 10 st policy).modSer 10 (fun h => { h with tx := tx, rx := rx })
def can (st policy pend : Nat) (rx : List Word) : State :=
  ((unit 0 st policy).setN (CAN_TX_PEND 0) pend).modCan 0 (fun h => { h with rx := rx })
theorem witness_bus_disable : (unit 0 1 0).get ⟨busBase 0, 1, 1⟩ = 0 ∧ (can 1 1 6 [1]).get ⟨busBase 0, 1, 1⟩ = 1 ∧ (can 1 1 6 [1]).get ⟨busBase 0 + 4, 0, 2⟩ = 1 ∧
    canPending (can 1 1 6 [1]) 0 = [1, 2] ∧ (uart [1, 2] [3] 1 1).get ⟨busBase 10, 1, 1⟩ = 1 ∧ ((uart [1, 2] [3] 1 1).serOf 10).tx.length ≤ 64 ∧
    (uart [] [3] 2 0).get ⟨busBase 10 + 4, 0, 2⟩ = 2 ∧ busIdle (uart [] [3] 2 0) 10 = true ∧ busIdle (uart [1] [3] 2 0) 10 = false ∧
    (unit 10 0 0).get ⟨busBase 10 + 4, 0, 2⟩ = 0 ∧ busState (uart [] [] 2 1) 10 = 2 ∧ busAbort (uart [] [] 2 1) 10 = true ∧
    busState (unit 10 1 0) 10 ≠ 2 := by decide +kernel
theorem witness_fifos : ((uart [1] [3] 1 0).serOf 10).rx = 3 :: [] ∧ ((can 1 0 0 [1]).canOf 0).rx = 1 :: [] ∧ busLevel (unit 0 1 0) 0 true = 0 ∧
    ((uart [1] [3] 1 0).serOf 10).tx.length < fifoDepth 10 ∧ fifoDepth 10 ≤ ((uart (List.replicate 64 0) [] 1 0).serOf 10).tx.length ∧
    (((unit 22 1 0).modSer 22 (fun h => { h with stretch := some 0 })).serOf 22).stretch.isSome = true ∧
    ((unit 22 1 0).serOf 22).stretch = none := by decide +kernel

/-- Filter 3 of CAN controller 0 takes identifier 5; buffer 1 answers remote frames of it; bus-off, or a cancel under way. -/
def filtered : State := put (can 1 0 2 []) [(CAN_FILTER.valid 0 3, 1), (⟨CAN_FILTER 0 3, 0, 30⟩, 5), (CAN_MASK.mask 0 3, 0x3FFFFFFF),
  (canAuto 0 1, 1), (⟨CAN_TXB 0 1 0, 0, 30⟩, 5)]
def hit5 (s : State) (f : Nat) : Bool := s.is (CAN_FILTER.valid 0 f) &&
  (bitsOf (5 : Word) 0 30 &&& s.get (CAN_MASK.mask 0 f)) == (bitsOf (s.reg (CAN_FILTER 0 f)) 0 30 &&& s.get (CAN_MASK.mask 0 f))
def cancelling : State := (can 1 0 2 []).modCan 0 (fun h => { h with cancel := [1] })
/-- Buffer 1 is pending and chosen, or has gone on the wire. -/
theorem witness_wire : canOnWire (can 1 0 2 []) 0 1 = true ∧ canOnWire (can 1 0 0 []) 0 1 = false ∧
    canOnWire ((can 1 0 6 []).modCan 0 (fun h => { h with wire := [2] })) 0 2 = true ∧ canOnWire cancelling 0 1 = true ∧
    canOnWire (filtered.modCan 0 (fun h => { h with wire := [1] })) 0 1 = true := by decide +kernel
theorem witness_can : filtered.get (CAN_STATUS.state 0) = 1 ∧ State.reset.get (CAN_STATUS.state 0) = 0 ∧
    (∀ f : Fin 32, hit5 filtered f = decide (f = 3)) ∧ (∀ f : Fin 32, hit5 (can 1 0 2 []) f = false) ∧
    (filtered.canOf 0).rx.length + 4 ≤ 1216 ∧ bitsOf (0x40000005 : Word) 30 1 = 1 ∧ bitsOf (0x40000005 : Word) 31 1 = 0 ∧
    busSends filtered 0 = true ∧ filtered.get (CAN_CTRL.monitor 0) = 0 ∧ 1 ∈ canPending filtered 0 ∧ filtered.get (canAuto 0 1) = 1 ∧
    bitsOf (filtered.reg (CAN_TXB 0 1 0)) 0 30 = bitsOf (0x40000005 : Word) 0 30 ∧ filtered.get (CAN_STATUS.fault 0) ≠ 2 ∧
    (can 1 0 2 []).get (canAuto 0 1) = 0 ∧ filtered.get (CAN_CTRL.fd_enable 0) = 0 ∧ (filtered.set (CAN_CTRL.fd_enable 0) 1).get (CAN_CTRL.fd_enable 0) = 1 ∧ bitsOf (0x80000005 : Word) 30 1 = 0 ∧ bitsOf (0x80000005 : Word) 31 1 = 1 ∧ 1 ∈ (cancelling.canOf 0).cancel ∧ 1 ∈ canPending cancelling 0 ∧
    1 ∉ (filtered.canOf 0).cancel ∧ filtered.get (CAN_CTRL.no_retx 0) = 0 ∧
    ((can 1 0 2 []).set (CAN_STATUS.fault 0) 2).get (CAN_STATUS.fault 0) = 2 ∧ bitN (2 : Word).toNat 1 = true := by decide +kernel
theorem witness_can_full : 1216 < ((can 1 0 0 (List.replicate 1214 0)).canOf 0).rx.length + 3 := by decide +kernel
/-- R305: the first filter's number and the length in words lead the frame in the FIFO. -/
theorem test_can_receive : ((after (.canFrameReceive 0 5 2 77 (some [0xAABB]) 0) filtered).canOf 0).rx = [5, 0x20302, 77, 0xAABB] := by decide +kernel

/-- MVB controller 0 runs; port 2 is a source and port 7 a sink at address 0x123 with F_code 1, of one word. -/
def mvb : State := put (unit 8 1 0) [(MVB_PORT_CFG.dir 0 2, 1), (MVB_PORT_CFG.address 0 2, 0x123), (MVB_PORT_CFG.f_code 0 2, 1),
  (MVB_PORT_CFG.dir 0 7, 2), (MVB_PORT_CFG.address 0 7, 0x123), (MVB_PORT_CFG.f_code 0 7, 2), (MVB_CTRL.admin 0, 1),
  (MVB_CTRL.line_a_en 0, 1)]
def mvbWith (f : MvbH → MvbH) : State := mvb.modMvb 0 f
theorem witness_mvb : mvb.get (MVB_STATUS.state 0) = 1 ∧ State.reset.get (MVB_STATUS.state 0) = 0 ∧ busSends mvb 8 = true ∧
    mvb.get (MVB_PORT_CFG.dir 0 2) = 1 ∧ mvb.get (MVB_PORT_CFG.address 0 2) = 0x123 ∧ mvb.get (MVB_PORT_CFG.f_code 0 2) = 1 ∧
    (∀ q : Fin 2, mvb.get (MVB_PORT_CFG.dir 0 q) = 0) ∧ mvb.get (MVB_CTRL.address 0) = 0 ∧ busSends (mvb.set BOOT_STATUS.frost 1) 8 = false ∧
    ((mvbWith (fun h => { h with reply := some (2, [5]) })).mvbOf 0).reply = some (2, [5]) ∧
    ((mvbWith (fun h => { h with sink := [7] })).mvbOf 0).sink = [7] ∧ mvbWords (mvb.get (MVB_PORT_CFG.f_code 0 7)) = [(1 : Word), 2].length ∧
    mvb.get (MVB_PORT_CFG.dir 0 7) = 2 ∧ 1 < mvbWords (mvb.get (MVB_PORT_CFG.f_code 0 7)) ∧ mvb.get (MVB_CTRL.admin 0) = 1 ∧
    mvbLineOn mvb 0 false = true ∧ mvbLineOn mvb 0 true = false ∧ mvb.get (MVB_STATUS.line 0) = 0 ∧
    (mvb.mvbOf 0).admin = none ∧ ((mvbWith (fun h => { h with admin := some 0 })).mvbOf 0).admin = some 0 ∧ mvb.now = 0 ∧
    0 + 43000 < (atTime 43001 mvb).now := by decide +kernel
/-- R309: the sink port shows the two words received, with age 0. -/
theorem test_mvb_sink : (let s := after (.mvbSinkReceive 0 [1, 2] true) (mvbWith (fun h => { h with sink := [7] }))
     mvbData s 0 7 = [1, 2] ∧ mvbPortStat s 0 7 = 0x10000) := by decide +kernel

/-- SPI and I2C controllers with words waiting, as controller and as target. -/
def spi (tx : List Word) (target hold : Nat) : State :=
  (put (unit 18 1 0) [(SPI_CTRL.target 0, target), (SPI_CTRL.cs_hold 0, hold)]).modSer 18 (fun h => { h with tx := tx })
def i2c (x : Option Word) (tx : List Word) (target : Nat) (st : Option Nat) : State :=
  (put (unit 22 1 0) [(I2C_CTRL.target 0, target)]).modSer 22 (fun h => { h with xfer := x, tx := tx, stretch := st })
theorem witness_serial : busState (uart [1] [] 1 0) 10 = 1 ∧ ((uart [1] [] 1 0).serOf 10).rx.length < 64 ∧
    64 ≤ ((uart [] (List.replicate 64 0) 1 0).serOf 10).rx.length ∧ ((uart [1] [] 1 0).serOf 10).tx = 1 :: [] ∧ busSends (uart [1] [] 1 0) 10 = true ∧
    (uart [1] [] 1 0).get (UART_CTRL.loopback 0) = 0 ∧ ((uart [1] [] 1 0).serOf 10).heard = false ∧
    (((uart [] [1] 1 0).modSer 10 (fun h => { h with heard := true })).serOf 10).heard = true ∧ (uart [1] [] 1 0).get (UART_CTRL.rs485 0) = 0 ∧
    busState (unit 10 0 0) 10 ≠ 1 ∧ (spi [1] 0 0).get (SPI_CTRL.target 0) = 0 ∧
    busSends (spi [1] 0 0) 18 = true ∧ ((spi [1] 0 0).serOf 18).tx ≠ [] ∧ ((spi [1, 2] 0 1).get (SPI_CTRL.cs_hold 0)) = 1 ∧
    busState (spi [] 1 0) 18 ≠ 0 ∧ (spi [] 1 0).get (SPI_CTRL.target 0) = 1 ∧ (spi [] 1 0).frost = false ∧
    ((spi [] 1 0).serOf 18).tx = [] := by decide +kernel
theorem witness_i2c_frost : ((i2c (some 0x400) [] 1 none).set BOOT_STATUS.frost 1).frost = true := by decide +kernel
theorem witness_i2c : busState (i2c none [] 0 none) 22 = 1 ∧ (i2c none [] 0 none).get (I2C_CTRL.target 0) = 0 ∧
    ((i2c none [] 0 none).serOf 22).xfer = none ∧ busState ((i2c none [5] 0 none).set ⟨busBase 22 + 4, 0, 2⟩ 2) 22 = 2 ∧
    busAbort ((i2c none [5] 0 none).set ⟨busBase 22 + 4, 0, 2⟩ 2) 22 = false ∧ ((i2c none [5] 0 none).serOf 22).tx ≠ [] ∧ (i2c none [] 0 none).frost = false ∧ ((i2c (some 0x400) [] 0 none).serOf 22).xfer = some 0x400 ∧
    bitsOf (0x400 : Word) 10 1 = 1 ∧ bitsOf (0 : Word) 10 1 = 0 ∧ (i2c none [] 1 none).get (I2C_CTRL.target 0) = 1 ∧
    ((i2c none [5] 1 none).serOf 22).tx = 5 :: [] ∧ ((i2c none [] 1 (some 0)).serOf 22).stretch = some 0 ∧
    0 + (i2c none [] 1 (some 0)).get (I2C_STRETCH.stretch_us 0) * 1000 ≤ (atTime 100000000 (i2c none [] 1 (some 0))).now := by decide +kernel
/-! ### Registers, wide pairs and power -/

/-- The core domain works; the host has read the low half of TT_NOW, and staged the low half of TT_STEP. -/
def hostSup : Master := .host
def read1 : State := awake.withTt { awake.tt with latches := [(.host, ⟨TT_NOW_LO, 5, false, 0, 64⟩)], stages := [(.host, ⟨TT_STEP_LO, 7, 64⟩)] }
theorem witness_registers : coreOn awake = true ∧ coreOn State.reset = false ∧ devWriter (ioMaster .host) = true ∧
    devWriter (ioMaster (.tile 0 false true)) = false ∧ (regRow 0x20000).isSome = true ∧ regRow 0x2FFFC = none ∧ 0x20000 ≠ CLK_SELECT ∧
    latchOf awake (readerOf awake .host) = none ∧ latchOf read1 (readerOf read1 .host) = some ⟨TT_NOW_LO, 5, false, 0, 64⟩ ∧
    stageOf read1 (readerOf read1 .host) = some ⟨TT_STEP_LO, 7, 64⟩ ∧ stageOf awake .host = none ∧ widePair TT_STEP_LO ≠ none ∧ widePair 0x20000 = none ∧
    engineWriter 0 .host = true ∧ awake.get (CH_STATUS.claimed (chBase 0)) = 0 ∧ chFree awake 0 = true := by decide +kernel
/-- R87: the other half comes from the latch, which it empties. -/
theorem test_latch : (let s := after (.widePairRead .host (BitVec.ofNat 24 (TT_NOW_LO + 4))) (
       awake.withTt { awake.tt with latches := [(.host, ⟨TT_NOW_LO, 5 + 3 * 2 ^ 32, false, 0, 0⟩)] })
     s.data = 3 ∧ latchOf s .host = none) := by decide +kernel

/-- Domain `d` in a state; a request bit; a clamped domain that enters. -/
def dom (d st : Nat) : State := awake.set (PWR_DOM_STAT.state d) st
def tile9 : State := dom 9 0
theorem witness_domains : devWriter .host = true ∧ devWriter (.tile 0 false true) = false ∧ domRefused tile9 .host 9 true = false ∧
    domRefused (dom 9 1) .host 9 false = false ∧ domRefused tile9 .host 0 true = true ∧ (dom 9 0).get (PWR_DOM_STAT.state 9) = 0 ∧
    (dom 9 1).get (PWR_DOM_STAT.state 9) = 1 ∧ (dom 9 2).get (PWR_DOM_STAT.state 9) = 2 ∧ (dom 9 3).get (PWR_DOM_STAT.state 9) = 3 ∧
    ((dom 9 2).set (PWR_DOM_STAT.clamped 9) 1).get (PWR_DOM_STAT.clamped 9) = 1 ∧
    (((dom 9 2).modPwr (fun p => { p with domPend := [9] })).pwr.domPend.contains 9) = true ∧ wakeable (dom 9 2) 9 = true ∧
    (∀ e ∈ domMembers 9, e ∉ (dom 9 2).pwr.domPend) ∧ domParent 9 = some 0 ∧ (dom 9 3).get (PWR_DOM_STAT.state (domCluster 0)) = 0 ∧
    ((dom 9 3).set (PWR_DOM_STAT.state (domCluster 0)) 3).get (PWR_DOM_STAT.state (domCluster 0)) ≠ 0 := by decide +kernel
/-- Tile 0 held and not loaded, after TILE_LOAD; waiting with Doze enabled; dozing with an event of priority 0. -/
def unloaded0 : State := put awake [(BOOT_STATUS.stage, 9)]
def dozer (pend : Bool) : State :=
  (put (live.modTile 0 (fun x => { x with waiting := true, doze := true })) (if pend then [(⟨PWR_STATUS, 8, 1⟩, 1), (EVC_CFG.enable 0 0, 1)] else []))
theorem witness_reload : domOn unloaded0 (domTile 0) = true ∧ (unloaded0.tileOf 0).held = true ∧ (unloaded0.tileOf 0).unloaded = true ∧
    6 ≤ unloaded0.get BOOT_STATUS.stage ∧ unloaded0.get BOOT_STATUS.stage ≤ 9 ∧ awake.get BOOT_STATUS.stage = 0 := by decide +kernel
theorem witness_doze : ((dozer false).tileOf 0).waiting = true ∧ ((dozer false).tileOf 0).doze = true ∧ runs (dozer false) 0 = true ∧
    ((dozer false).tileOf 0).posted = [] ∧ ((dozer false).tileOf 0).load = none ∧ urgentEvent (dozer false) 0 = none ∧
    (dozer true).get ⟨PWR_STATUS, 8, 1⟩ = 1 := by decide +kernel

/-- The device ready to enter Drizzle or Cellar, and at each step of the way. -/
def ready : State := put (awake.setN DRZ_PERIOD 80000) [(BOOT_STATUS.frost, 0), (PWR_WAKE_EN.enable, 0x3FFF), (DRZ_CFG.pair, 0), (PWR_CTRL.notice_us, 0)]
def enteringAt (k : Nat) : State := ready.modPwr (fun p => { p with entry := some (false, k) })
theorem witness_entries_low : coreOn ready = true ∧ ready.get PWR_WAKE_EN.enable &&& 0x3FFC ≠ 0 ∧ ready.get DRZ_CFG.pair ≤ 5 ∧
    80000 ≤ ready.regN DRZ_PERIOD ∧ ready.frost = false ∧ ready.pwr.entry = none ∧ ready.get PWR_STATUS.supwarn = 0 ∧ ready.get INV_STATE.state = 0 ∧
    ¬ awake.get PWR_WAKE_EN.enable &&& 0x3FFC ≠ 0 ∧ (ready.setN DRZ_PERIOD 0).regN DRZ_PERIOD < 80000 ∧
    (∀ k : Fin 4, (enteringAt k).pwr.entry = some (false, k.val)) ∧ (enteringAt 3).pwr.wakes = 0 ∧
    entryInstant (enteringAt 0) 0 ≤ (enteringAt 0).now ∧ entryInstant (atTime 150000 (enteringAt 3)) 150 ≤ (atTime 150000 (enteringAt 3)).now ∧
    ¬ entryInstant (enteringAt 1) 10 ≤ (enteringAt 1).now := by decide +kernel
/-- In Drizzle, between cycles and in one; with a wake due; woken from Cellar. -/
def drizzling (cycle : Option Nat) (checked : Bool) (fails : Nat) : State :=
  { put State.reset [(PWR_WAKE_EN.enable, 0x3FFF), (DRZ_CFG.length, 1)] with
    pwr := { State.reset.pwr with por := false, low := some false, cycle := cycle, checked := checked, fails := fails } }
def woken : State := (drizzling (some 2) true 0).modPwr (fun p => { p with wakes := 4 })
theorem witness_low : (drizzling none false 0).pwr.low = some false ∧ (drizzling none false 0).pwr.entry = none ∧ (drizzling none false 0).pwr.por = false ∧
    (drizzling none false 0).pwr.pwrc = false ∧ ((drizzling none false 0).setN PWR_WAKE_TIMER 5).regN PWR_WAKE_TIMER ≠ 0 ∧
    (8 : BitVec 14).toNat &&& 0x3FF8 &&& ((drizzling none false 0).get PWR_WAKE_EN.enable &&& 0x3FFF) ||| 0 ≠ 0 ∧
    4 &&& ((drizzling none false 0).get PWR_WAKE_EN.enable &&& 0x3FFF) ||| 0 ≠ 0 ∧ (drizzling none false 0).regN PWR_WAKE_TIMER = 0 ∧
    (drizzling none false 0).pwr.cycle = none ∧ (drizzling (some 2) true 0).pwr.cycle = some 2 ∧ (drizzling (some 2) true 0).pwr.checked = true ∧
    (drizzling (some 2) true 0).get DRZ_CFG.length < 2 ∧ woken.pwr.wakes ≠ 0 ∧ coreOn awake = true ∧ awake.get PWR_STATUS.supwarn = 0 ∧
    (awake.set PWR_STATUS.supwarn 1).get PWR_STATUS.supwarn = 1 := by decide +kernel
theorem witness_drizzle : (drizzling (some 0) false 2).pwr.wakes = 0 ∧ (drizzling (some 1) true 1).pwr.cycle = some 1 ∧ (drizzling (some 0) false 2).pwr.cycle = some 0 ∧ (drizzling (some 0) false 2).pwr.checked = false ∧
    (drizzling (some 0) false 2).pwr.fails = 2 ∧ 0 ≤ (drizzling (some 0) true 0).get DRZ_CFG.length ∧
    (drizzling (some 0) true 0).get DRZ_HIST_LEVEL.level < 64 ∧ 64 ≤ ((drizzling (some 0) true 0).set DRZ_HIST_LEVEL.level 64).get DRZ_HIST_LEVEL.level ∧
    (drizzling (some 0) true 0).get DRZ_CFG.ha ≠ 1 ∧ ((drizzling (some 0) true 0).set DRZ_CFG.ha 1).get DRZ_CFG.ha = 1 ∧
    awake.pwr.entry = none := by decide +kernel
/-- R346: the third failed watch check in a row wakes the device with cause ring_fail. -/
theorem test_ring_fail : (let s := after (.watchCheck 1599) (drizzling (some 0) false 2)
     s.pwr.low = none ∧ s.get PWR_WAKE_REC.cause = 0x4000) := by decide +kernel
/-- R343, Table PWR-5: a step of the entry that is not due changes nothing; the domains go off 40 µs after the notice window. -/
theorem test_entry_steps : (after .domainShutdownPoint (enteringAt 2)).pwr.entry = some (false, 2) ∧
    (after .domainShutdownPoint (atTime 40000 (enteringAt 2))).get (PWR_DOM_STAT.state (domCluster 0)) = 2 := by decide +kernel
/-- R343: a cancel in the notice window answers 5. -/
theorem test_cancel : (after (.cancel .host) (enteringAt 0)).get PWR_CMD_RESULT.result = 5 := by decide +kernel
/-! ### The boot -/

/-- The boot has come to a stage, in a life-cycle state. -/
def stage (n : Nat) : State := put awake [(BOOT_STATUS.stage, n)]
def life (lc : Nat) (s : State) : State := s.modBoot (fun b => { b with lc := lc })
theorem witness_stages : (∀ n : Fin 9, inStage (stage n) n = true) ∧ inStage (stage 0) 1 = false ∧
    ((stage 0).set CLK_RING.state 1).get CLK_RING.state ≠ 0 ∧ awake.get CLK_RING.state = 0 ∧ (∀ n : Fin 6, (life n (stage 1)).boot.lc = n.val) ∧
    ((stage 1).set FLT_SELFTEST.req 1).get FLT_SELFTEST.req = 1 ∧ (stage 1).get FLT_SELFTEST.req = 0 ∧ (stage 4).boot.persist = none ∧
    (stage 8).boot.verdict = false ∧ (stage 8).boot.timedOut = false ∧
    recordsWritable (stage 4) = true ∧ recordsWritable { stage 4 with memh := { State.reset.memh with mramOpen := false } } = false := by decide +kernel
/-- Slots without a manifest are bad; the inventory of one is bad too; one without images has nothing to load or to measure. -/
theorem witness_bad_slots : selectCheck [] (stage 2) 0 ≠ 0 ∧ selectCheck [] (stage 2) 1 ≠ 0 ∧
    (checkInventory (slotInventory (stage 5) 0) (invCtx (stage 5) 0 none)).1 ≠ 0 ∧ imageEntries (manifestOf (stage 6) 0) = [] ∧
    imagesApart [] = true ∧ ((stage 7).modBoot (fun b => { b with chain := [[], [], []] })).boot.chain.length = 3 ∧
    (stage 7).get BOOT_STATUS.ha = 0 ∧ ((stage 7).set BOOT_STATUS.ha 1).get BOOT_STATUS.ha = 1 := by decide +kernel
/-- A manifest of one key record and one image of kind 3 without octets, in slot A, its key programmed in Factory. -/
def man : List Byte := leBytes 4 0x4D534C55 ++ leBytes 2 1 ++ leBytes 2 0x100 ++ leBytes 4 0x2406 ++ leBytes 4 1 ++ leBytes 4 0 ++
  leBytes 4 0xBD0 ++ [0, 1] ++ leBytes 2 1 ++ leBytes 4 0 ++ leBytes 4 0x8000 ++ List.replicate (0xB90 - 0x24) 0 ++
  [3, 0, 0, 0] ++ leBytes 4 0x140000 ++ List.replicate 56 0 ++ [0, 0, 0, 0] ++ leBytes 4 96 ++ leBytes 4 4627
def signed : State :=
  { life 1 (stage 2) with
    mem := (man.zipIdx.filter (fun (e : Byte × Nat) => e.1 != 0)).map (fun (e : Byte × Nat) => (slotBase 0 + e.2, e.1)) }.modBoot (fun b =>
    { b with keys := b.keys.set 0 ((Config.sha384 (slice (slice man 0x100 2704) 16 2688)).take 32, true, false) })
/-- Where its signature verifies, the manifest passes its checks. -/
theorem witness_good_slot (h : ∀ k m s, Config.ecdsaVerify k m s = true) :
    selectCheck [] signed 0 = 0 ∧ inStage signed 2 = true ∧ activeFlag signed 0 = false := by
  have m0 : manFormatOk (manifestOf signed 0) = true := by decide +kernel
  have k0 : manKeyRecord (manifestOf signed 0) (manKey (manifestOf signed 0)) = some (slice man 0x100 2704) := by decide +kernel
  have e0 : isEarlier (manPart (manifestOf signed 0)) = false := by decide +kernel
  have y0 : manKey (manifestOf signed 0) = 0 := by decide +kernel
  have s0 : keyState signed (manKey (manifestOf signed 0)) = 1 := by rw [y0]; decide +kernel
  have d0 : (atD signed.boot.keys (manKey (manifestOf signed 0)) ([], false, false)).1 =
      (Config.sha384 (slice (slice man 0x100 2704) 16 2688)).take 32 := by
    rw [y0]; rfl
  have l0 : signed.boot.lc = 1 := rfl
  have x0 : atD signed.boot.excl 0 false = false := rfl
  refine ⟨?_, by decide +kernel, by decide +kernel⟩
  simp [selectCheck, checkManifest, validKeyRecord, m0, k0, e0, s0, d0, l0, x0, signaturesOk, h]
/-- The firmware of slot 0 is empty, and the manifest gives `d` as its digest. -/
def firm (d : List Byte) : State := (stage 3).setBytes (slotBase 0 + 0x30) d
theorem slice_bytes (s : State) (a n o k : Nat) (h : o + k ≤ n) : slice (s.bytes a n) o k = s.bytes (a + o) k := by
  apply List.ext_getElem
  · simp [slice, State.bytes]; omega
  · intro i h1 h2; simp [slice, State.bytes, Nat.add_assoc]
theorem firm_empty (d : List Byte) : firmwareOf (firm d) 0 = [] := by
  have h : ∀ o, o < 0x30 → (manifestOf (firm d) 0)[o]?.getD 0#8 = 0#8 := by
    intro o ho
    have : (firm d).byte (slotBase 0 + o) = 0 := by rw [firm, State.byte_setBytes_before _ _ _ _ (by omega)]; rfl
    simp [manifestOf, State.bytes, List.getElem?_range (show o < 0x8000 by omega), this]
  simp [firmwareOf, u32, u16, u8, State.bytes, h 36, h 37, h 38, h 39]
theorem firm_digest (d : List Byte) (hd : d.length = 48) : slice (manifestOf (firm d) 0) 0x30 48 = d := by
  rw [manifestOf, slice_bytes _ _ _ _ _ (by decide)]
  apply List.ext_getElem
  · simp [State.bytes, hd]
  · intro i h1 h2; simp [State.bytes, firm, State.byte_setBytes_inside _ _ _ _ h2]
def sound_ : State := firm (Config.sha384 [])
def unsound : State := firm ((Config.sha384 []).map (· + 1))
theorem setBytes_units (d : List Byte) (s : State) (k : Nat) :
    (s.setBytes k d).pwr = s.pwr ∧ (s.setBytes k d).clk = s.clk ∧ (s.setBytes k d).flt = s.flt := by
  induction d generalizing s k with
  | nil => exact ⟨rfl, rfl, rfl⟩
  | cons b r ih => exact ih (s.setByte k b) (k + 1)
theorem setBytes_boot (d : List Byte) (s : State) (k : Nat) : (s.setBytes k d).boot = s.boot ∧ (s.setBytes k d).memh = s.memh := by
  induction d generalizing s k with
  | nil => exact ⟨rfl, rfl⟩
  | cons b r ih => exact ih (s.setByte k b) (k + 1)
theorem stage_of_firm (d : List Byte) : inStage (firm d) 3 = true ∧ (firm d).get BOOT_STATUS.slot = 0 ∧ recordsWritable (firm d) = true := by
  have h : ∀ f, (firm d).get f = (stage 3).get f := fun f => by simp [State.get, State.reg, show (firm d).io = _ from setBytes_io _ _ _]
  obtain ⟨c1, c2, c3⟩ := setBytes_units d (stage 3) (slotBase 0 + 0x30)
  have e : inStage (firm d) 3 = inStage (stage 3) 3 := by
    simp only [inStage, skRuns, show (firm d).boot = (stage 3).boot from (setBytes_boot _ _ _).1, powered, Machine.live, h, show (firm d).pwr = _ from c1, show (firm d).clk = _ from c2, show (firm d).flt = _ from c3]
  exact ⟨by rw [e]; decide +kernel, by rw [h]; decide +kernel,
    by rw [recordsWritable, show (firm d).memh = (stage 3).memh from (setBytes_boot _ _ _).2]; decide +kernel⟩
theorem witness_firmware : inStage sound_ 3 = true ∧ sound_.get BOOT_STATUS.slot = 0 ∧ recordsWritable sound_ = true ∧
    Config.sha384 (firmwareOf sound_ 0) = slice (manifestOf sound_ 0) 0x30 48 ∧
    Config.sha384 (firmwareOf unsound 0) ≠ slice (manifestOf unsound 0) 0x30 48 := by
  refine ⟨(stage_of_firm _).1, (stage_of_firm _).2.1, (stage_of_firm _).2.2, ?_, ?_⟩
  · rw [sound_, firm_empty, firm_digest _ (by simp)]
  · rw [unsound, firm_empty, firm_digest _ (by simp)]
    intro h
    have h0 := congrArg (fun l => l.getD 0 0) h
    simp [List.getD] at h0
/-- Everything for Thaw is met; records are due; a provisioning write in Blank, and one by another writer. -/
def thawing : State := (put (stage 7) [(PIN_STATUS.applied, 1), (MEM_STATUS.deep_hold, 0), (BOOT_CTRL.thaw_gate, 0)]).modBoot (fun b =>
  { b with chain := [[], [], [], []] })
def afterThaw : State := { (stage 9).modBoot (fun b => { b with post := true }) with memh := { State.reset.memh with mramOpen := true } }
theorem witness_thaw : thawReady thawing = true ∧ thawing.get BOOT_CTRL.thaw_gate = 0 ∧ thawReady awake = false ∧ devWriter .host = true ∧
    afterThaw.boot.post = true ∧ recordsWritable afterThaw = true ∧ activeFlag afterThaw 0 = false := by decide +kernel
theorem witness_provisioning : coreOn awake = true ∧ coreOn State.reset = false ∧ (life 0 awake).boot.lc ≤ 1 ∧ (life 2 awake).boot.lc = 2 ∧
    keyState awake 0 = 0 ∧ keyState signed 0 = 1 ∧ awake.get PWR_STATUS.supwarn = 0 ∧ (awake.set PWR_STATUS.supwarn 1).get PWR_STATUS.supwarn = 1 ∧
    awake.boot.busy = false ∧ (awake.modBoot (fun b => { b with busy := true })).boot.busy = true ∧
    (∀ i : Fin 8, keyState (life 0 awake) i ≠ 1) ∧ keyState (life 0 signed) 0 = 1 ∧ (life 1 awake).boot.lc = 1 := by decide +kernel
/-! ### The host -/

/-- The PCIe link is up in full operation; BAR2 shows the data banks; bank 0 is On and free for all. -/
def linked : State := bankTo 0 0 ((put (stage 9) [(HOST_STATUS.pcie_link, 1), (HOST_DWIN.base, 0x20), (BOOT_STATUS.debug, 2)]).setReg (BANK_OWNER 0) 0)
theorem witness_host : linked.host.d3hot = false ∧ domHeld linked (domTile 0) = false ∧ linked.boot.busy = false ∧ coreOn linked = true ∧ linked.host.perst = false ∧ linked.get HOST_STATUS.pcie_link = 1 ∧ linked.get BOOT_STATUS.stage ≠ 0 ∧
    (linked.set BOOT_STATUS.stage 0).get BOOT_STATUS.stage = 0 ∧ hostDenied 0x20000 = false ∧ hostDenied (tdmaCh 0 0) = false ∧
    ioDomain (EXC_EVENTS 0) ≠ none ∧ domOn (linked.set (PWR_DOM_STAT.state (domTile 0)) 1) (domTile 0) = false ∧ ioDomain 0x20000 = none ∧
    bankRefuses linked 0 .host = none ∧ bankRefuses (linked.setReg (BANK_OWNER 0) 1) 0 .host ≠ none ∧ bankState linked 0 = 0 ∧
    2 ≤ linked.get BOOT_STATUS.debug ∧ debugDenied linked 0x20000 = false ∧ debugDenied linked 0 = true ∧
    linked.get HOST_DWIN.base * 2 ^ 24 = 0x20000000 := by decide +kernel
/-- Table HOST-1: BAR2 reads the word stored in bank 0. -/
theorem test_host_read : (after (.hostAccess 1 false 0x10 4 0 0 0) (linked.setBytes 0x20000010 [1, 2, 3, 4])).data = 0x04030201 := by decide +kernel
theorem test_host_unaligned : (after (.hostAccess 0 false 0x20001 4 0 0 0) linked).get HOST_ACC_STAT.status = 4 := by decide +kernel
/-- Table HOST-2: the device half of the ids in configuration space. -/
theorem config_device (w : Word) : subWord (withBits w 16 16 0x2406) 2 2 = 0x2406 := by
  have b := w.isLt
  simp only [subWord, withBits, bitsOf]
  generalize w.toNat = n at *
  apply BitVec.eq_of_toNat_eq
  simp
  omega
theorem test_config_ids (s : State) (c : coreOn s = true) (p : s.host.perst = false) (l : s.is HOST_STATUS.pcie_link = true) :
    (after (.hostAccess 3 false 2 2 0 0 0) s).data = 0x2406 := by
  simp only [after, exec, execHostAccess, c, p, l, configRead]
  exact config_device _
theorem witness_config (h : Config.msixCap = 0x50) (p : Config.pmCap = 0x40) : (0x50 : BitVec 24).toNat / 4 = Config.msixCap / 4 ∧
    (0x44 : BitVec 24).toNat / 4 ≠ Config.msixCap / 4 ∧ (0x44 : BitVec 24).toNat / 4 = Config.pmCap / 4 + 1 := by rw [h, p]; decide
/-- R394: a burst of two words leaves both with their statuses. -/
theorem test_spi_burst : (after (.hostSpiTransaction 0x11 0x20000010 2 [] []) (linked.setBytes 0x20000010 [1, 2, 3, 4, 5])).host.spiWords =
    [(0, 0x04030201), (0, 5)] := by decide +kernel
/-- Vector 0 watches event 0 of tile 0, which is pending. -/
def msi (m : Word) : State := { ((linked.setReg (HOST_IRQ_SEL 0) 0x8000).setReg (EXC_EVENTS 0) 1).setReg (EXC_EVENT_EN 0) 1 with
  host := { linked.host with msix := linked.host.msix.set 3 m, msixOn := true } }
theorem witness_msi : evLevel (msi 0) 0 0 = true ∧ ((msi 0).host.irq[0]).1 = false ∧ ((msi 0).host.msix[3]).getLsbD 0 = false ∧
    ((msi 1).host.msix[3]).getLsbD 0 = true ∧ (msi 0).host.msixOn = true ∧ (msi 0).host.msixMask = false ∧ (msi 0).host.d3hot = false := by decide +kernel
def frameIn : State := { linked with host := { linked.host with rx := [[1, 2, 3, 4]] } }
theorem witness_queues : linked.host.txId = none ∧ 14 ≤ bitsOf (64 : Word) 0 11 ∧ bitsOf (64 : Word) 0 11 ≤ 1514 ∧ frameIn.host.rx = [1, 2, 3, 4] :: [] ∧
    linked.host.rx = [] ∧ linked.get HOST_CMD_STATUS.state = 0 ∧ (linked.set HOST_CMD_STATUS.state 1).get HOST_CMD_STATUS.state = 1 := by decide +kernel

/-! ### Commands -/

/-- A STATUS_QUERY and a LADDER command for device 5, with a tag of zeros, in the mailbox of a device with command key 0. -/
def octets (op : Nat) (key : Byte) (ctr : Nat) (body : List Byte) : List Byte :=
  [1, key] ++ beBytes 2 op ++ beBytes 2 body.length ++ [0, 0] ++ beBytes 8 ctr ++ beBytes 8 5 ++ List.replicate 8 0 ++ body ++ List.replicate 16 0
def commanded (d : List Byte) : State :=
  { put linked [(VAULT_STATUS.restored, 1), (BOOT_STATUS.frost, 0)] with
    host := { linked.host with jobs := [⟨none, d⟩] }, boot := { linked.boot with cmdKeys := #v[some [], none, none, none] },
    memh := { linked.memh with mramOpen := false } }
def query : List Byte := octets 0x8003 0xFF 0 []
def rung4 : List Byte := octets 0x0021 0 7 [4, 255, 0, 0]
theorem witness_commands (h : Config.deviceId = 5) (t : Config.cmac [] (rung4.take 36) = List.replicate 16 0) :
    skRuns (commanded query) = true ∧ (commanded query).get BOOT_STATUS.stage ≠ 0 ∧
    commandCheck query (commanded query) = 0 ∧ commandCheck rung4 (commanded rung4) = 0 ∧ beAt rung4 2 2 = 0x0021 ∧
    ceiling (commanded rung4) 0 < beAt rung4 8 8 ∧ recordsWritable (commanded rung4) = false ∧ permitted 0x0021 (commanded rung4) = true ∧
    permitted 0x0060 (commanded rung4) = false ∧ beAt query 2 2 = 0x8003 ∧ scrapped (commanded query) = false ∧ commandCheck [] (commanded []) = 1 := by
  have c : ∀ d s, commandCheck d s = (if !commandOk d then 1 else if beAt d 16 8 != Config.deviceId.toNat then 2 else
      if !opcodes.contains (beAt d 2 2) then 3 else if 0x8000 ≤ beAt d 2 2 then 0 else
      match atD s.boot.cmdKeys (u8 d 1) none with
      | none => 4
      | some key => if !s.is VAULT_STATUS.restored then 4 else if s.hasInv && !bitN (u8 (section_ s.invB 4) 2) (u8 d 1) then 5
        else if Config.cmac key (d.take (d.length - 16)) != d.drop (d.length - 16) then 6
        else if beAt d 8 8 ≤ s.pair (CMD_CTR_LO (u8 d 1)) then 7 else 0) := fun _ _ => rfl
  have k : atD (commanded rung4).boot.cmdKeys (u8 rung4 1) none = some [] := by decide +kernel
  have l : rung4.length - 16 = 36 := by decide +kernel
  have r : rung4.drop 36 = List.replicate 16 0 := by decide +kernel
  refine ⟨by decide +kernel, by decide +kernel, ?_, ?_, by decide +kernel, by decide +kernel, by decide +kernel,
    by decide +kernel, by decide +kernel, by decide +kernel, by decide +kernel, ?_⟩
  · rw [c, h]; decide +kernel
  · rw [c, h, k, l, r]; simp only [t]; decide +kernel
  · rw [c]; decide +kernel
/-- A rung 3 or 4 is due, or a rung 2 of function 3; another slot than the booted one is open; the recovery loader runs. -/
def due3 : State := { linked with flt := { linked.flt with due := some (3, 0, 1) } }
def due4 : State := { linked with flt := { linked.flt with due := some (4, 0, 1) } }
def due2 : State := { linked with flt := { linked.flt with due2 := linked.flt.due2.set 3 true } }
def opened (w : Bool) : State := { linked with host := { linked.host with slotOpen := some 1 }, memh := { linked.memh with mramOpen := w } }
def loader : State := { stage 0xE with memh := { State.reset.memh with mramOpen := true } }
theorem witness_slot_code : codeLocked (opened true) 1 = false ∧ codeLocked loader 0 = false ∧
    codeLocked (((opened true).set MRAM_STATUS.active_slot 1).modTile 0 (fun x => { x with held := false })) 1 = true := by decide +kernel
theorem witness_ladder : linked.flt.due = none ∧ due3.flt.due = some (3, 0, 1) ∧ atD linked.flt.reinit 3 false = false ∧
    linked.get LADDER_STATUS.resets + 1 < max 2 (linked.get LADDER_CFG1.reset_limit) ∧ bootedSlot linked = some 0 ∧
    (opened true).host.slotOpen = some 1 ∧ recordsWritable (opened true) = true ∧ recordsWritable (opened false) = false ∧ inStage loader 0xE = true ∧
    recordsWritable loader = true := by decide +kernel
/-- Slot B holds no manifest, so that its activation and its commit fail; key 1 is not in use; the life cycle may be changed. -/
theorem witness_slots : (checkSlot (opened true) 1 true false).1 ≠ 0 ∧ (checkSlot (opened true) 1 false false).1 ≠ 0 ∧ bootedSlot (opened true) ≠ some 1 ∧
    (checkSlot loader 0 true false).1 ≠ 0 ∧ manKey (manifestOf linked 0) = 0 ∧ linked.hasInv = false ∧ keyState linked 1 ≠ 2 ∧ fusesAllowed linked = true ∧
    transition 2 4 = true ∧ transitionMet (life 2 linked) 4 = true ∧ (life 2 linked).boot.lc = 2 ∧ transition 0 5 = true ∧
    transitionMet (life 0 linked) 5 = true ∧ transition 0 3 = false := by decide +kernel
/-- HA functions, a stopped comparison and edge channel 0 at work; the wait for a verdict. -/
def verdictWait : State := (put (stage 8) []).modBoot (fun b => { b with chain := [[], [], [], [7]] })
def working : State := put linked [(EDG_CH_STAT.state 0 0, 1), (EDG_CH_CTRL.func 0 0, 1)]
theorem witness_overrides : ¬ (linked.get (HOST_FN_STAT.mode 3) = 1 % 2 ∧ linked.get (HOST_FN_STAT.policy 3) = 1 / 2) ∧
    ((stopped1.grpOf 0).cmps.map (fun c => (c.port, c.tag, c.decided, c.stopped, c.third))) = [(3, 0, true, true, false)] ∧
    (stopped1.grpOf 0).live = true ∧ bitsOf (0xC3 : Word) 0 2 = 3 ∧ bitsOf (0xC3 : Word) 6 5 = 3 ∧ bitsOf (0xC3 : Word) 16 16 = 0 ∧
    domOn working (domCluster 0) = true ∧ working.get (EDG_CH_STAT.state 0 0) ≠ 0 ∧ working.get (EDG_CH_CTRL.func 0 0) = 1 ∧
    inStage verdictWait 8 = true ∧ verdictWait.boot.verdict = false ∧ chainLast verdictWait = [7] := by decide +kernel

/-! ### Faults -/

/-- Function 3 disables for a rung 2; the windows have run out; 60 s have passed since Thaw. -/
def disabling3 : State := put linked [(HOST_FN_STAT.state 3, 1), (LADDER_CFG0.fail_window_ms, 1)]
def stable : State := { atTime 60000000000 linked with flt := { linked.flt with stableFrom := some 0 }, memh := { linked.memh with mramOpen := true } }
theorem witness_faults : due2.flt.due2[3] = true ∧ due2.flt.due = none ∧ disabling3.disabling 3 = true ∧ fnIdle 3 disabling3 = true ∧
    linked.disabling 3 = false ∧ stable.flt.failOpen[3] + stable.get LADDER_CFG0.fail_window_ms * 1000000 ≤ stable.now ∧
    disabling3.now < disabling3.flt.failOpen[3] + disabling3.get LADDER_CFG0.fail_window_ms * 1000000 ∧ due3.pwr.pwrc = false ∧ due3.pwr.por = false ∧
    due4.flt.due = some (4, 0, 1) ∧ stable.flt.stableFrom = some 0 ∧ 0 + 60000000000 ≤ stable.now ∧ recordsWritable stable = true ∧ stable.get FLT_CTRL.lock = 0 ∧ (stable.set FLT_CTRL.lock 1).get FLT_CTRL.lock = 1 := by
  decide +kernel
theorem witness_due_inv : Inv due3 := by
  simp only [Machine.Inv]; decide +kernel
/-- Tile 0's watchdog, whose window opens at 1 µs and closes at 32 µs; a function that stalls. -/
def watched (ns : Nat) : State := atTime ns (put live [(WDT_CFG.enable 0, 1), (WDT_CFG.open_us 0, 1), (WDT_CFG.close_us 0, 2), (WDT_CFG.action 0, 1)])
def backed : State := (watched 0).set (WDT_BACKSTOP.backstop 0) 1
def stalled3 : State := atTime 1000 (put votingOne [(FWD_CFG.timeout_us 3, 1)])
theorem witness_watchdogs : (watched 0).get (WDT_CFG.enable 0) = 1 ∧ (watched 999).now < (watched 999).flt.wdtL[0] + 1 * 1000 ∧
    (watched 32000).flt.wdtL[0] + 2 * 16000 ≤ (watched 32000).now ∧ (watched 32001).flt.wdtL[0] + 2 * 16000 < (watched 32001).now ∧
    ((watched 0).tileOf 0).held = false ∧ State.reset.get (WDT_CFG.enable 0) = 0 ∧ 1024 * backed.get (WDT_BACKSTOP.backstop 0) ≠ 0 ∧
    backed.flt.backstop[0] = 0 ∧ stalled3.get (FWD_CFG.timeout_us 3) ≠ 0 ∧ fnBusy stalled3 3 = true ∧
    stalled3.flt.progress[3] + stalled3.get (FWD_CFG.timeout_us 3) * 1000 ≤ stalled3.now := by decide +kernel
/-- R420: a service at 32 µs is in the window; a wrong word is counted. -/
theorem test_wdt : (after (.wdtService sup0 0 0x5AC3) (watched 32000)).flt.wdtL[0] = 32000 ∧
    (after (.wdtService sup0 0 0) (watched 32000)).get (WDT_STAT.bad 0) = 1 := by decide +kernel
/-- Outside clock-fault hold, with every word good: the states above. -/
theorem witness_live : ∀ s ∈ [State.reset, live, farLive, filling, moving, gated, called, pended, open_, openCross, heldWindow, inTrap, inEvent, inCross, inBare, folding 2, folding 3, folding 4, calledHere, calledElse, releasing 2 2 false, comparing1, pwm, pwmRun, capturing,
    idling, running, scheduled, converted, applied, bankOn, bankEntering, bankWaking, armed_, deciding, confirming, reverting, lateRevert, sending,
    frozen, heard, slave, acquiring, locked, ticking, haTime, speaking, announced, master, inFlight, waitingFull, grouped, groupFull, groupDue,
    votingOne, verdicts, diverging, stopped1, configuring, control 1 false, control 2 true, control 3 true, framed, locked0, copying, joining, gap,
    beating, listed 0 0, fdb [entry1] (some (cmd_ 1)), learned, fabric, queued, toHost, gates2, ring0, frer0, ttdp, timed, uart [1] [3] 1 0, filtered,
    cancelling, mvb, spi [1] 0 0, i2c none [] 0 none, awake, read1, tile9, dozer true, ready, enteringAt 3, linked, msi 0, frameIn, due2,
    disabling3, stable, watched 0, backed, stalled3], Machine.live s = true ∧ s.memh.bad = [] := by decide +kernel
/-! ### Effects worked out from the spec -/

/-- Tile 0 with two general registers set. -/
def two (a b : Word) : State := live.modTile 0 (fun x => { x with g := (x.g.set 1 a).set 2 b })
def g (r : Fin 16) (s : State) : Word := (s.tileOf 0).get r
/-- R98: sums and differences wrap, and saturate with S. -/
theorem test_add : g 3 (after (.add 0 3 1 2) (two 0xFFFFFFFF 2)) = 1 := by decide +kernel
theorem test_adds : g 3 (after (.adds 0 3 1 2) (two 0x7FFFFFFF 1)) = 0x7FFFFFFF := by decide +kernel
theorem test_subs : g 3 (after (.subs 0 3 1 2) (two 0x80000000 1)) = 0x80000000 := by decide +kernel
theorem test_min : g 3 (after (.min 0 3 1 2) (two 0x80000000 1)) = 0x80000000 ∧ g 3 (after (.minu 0 3 1 2) (two 0x80000000 1)) = 1 := by decide +kernel
theorem test_clz : g 3 (after (.clz 0 3 1) (two 0 0)) = 32 ∧ g 3 (after (.clz 0 3 1) (two 0x10000 0)) = 15 := by decide +kernel
theorem test_addi : g 3 (after (.addi 0 3 1 0x3FFFF) (two 0 0)) = 0xFFFFFFFF := by decide +kernel
/-- Bit fields: `pos` 4 and a length code of 7, eight bits. -/
theorem test_bits : g 3 (after (.extu 0 3 1 4 7) (two 0xABC 0)) = 0xAB ∧ g 3 (after (.exts 0 3 1 4 7) (two 0xABC 0)) = 0xFFFFFFAB := by decide +kernel
/-- R101: division truncates towards zero; the divisor 0 and the quotient overflow have their results. -/
theorem test_div : divide true (BitVec.ofInt 32 (-7)) 2 = (BitVec.ofInt 32 (-3), BitVec.ofInt 32 (-1), false) ∧
    divide true 7 0 = (0xFFFFFFFF, 7, true) ∧ divide true 0x80000000 0xFFFFFFFF = (0x80000000, 0, true) := by decide +kernel
/-- The check values of R115: "123456789". -/
def digits : List Byte := [0x31, 0x32, 0x33, 0x34, 0x35, 0x36, 0x37, 0x38, 0x39]
theorem test_crc : crcBytes 0 0xFFFFFFFF digits ^^^ 0xFFFFFFFF = 0xE3069283 ∧ crcBytes 1 0xFFFFFFFF digits ^^^ 0xFFFFFFFF = 0xCBF43926 ∧
    crcBytes 2 0xFFFF digits = 0x29B1 := by decide +kernel
/-- A branch taken goes to the word its offset counts; one not taken goes on. -/
theorem test_beq : ((after (.beq 0 1 2 4) (two 5 5)).tileOf 0).pc = (live.tileOf 0).pc + 16 ∧
    ((after (.beq 0 1 2 4) (two 5 6)).tileOf 0).pc = (live.tileOf 0).pc + 4 := by decide +kernel
/-- R321: GPIO set, clear and direction. -/
theorem test_gpio : (after (.gpioSet .host 2 0x81) linked).reg (GPIO_OUT 2) = 0x81 := by decide +kernel

end Sys2Proof.Tests
end

section
/-!
O60. Every step answers a next state, and it keeps the invariant `Inv`.

One lemma `inv_f` for each function `f` of the model that changes the state, in the order of the model's files: `f` keeps `Inv` because
it writes the register map and the memory only through the operations of Laws/Inv. One lemma `keeps_exec…` for each command: it answers a
next state and keeps `Inv`. The last two lemmas collect the commands and the edge.
-/
namespace Sys2Proof.Machine
open Sys2Proof
variable {s t u : State}

/-! ### The operations, with what they write left implicit -/

theorem inv_setReg {a : Nat} {v : Word} (h : Inv s) : Inv (s.setReg a v) := setReg_inv h a v
theorem inv_set {f : Fld} {n : Nat} (h : Inv s) : Inv (s.set f n) := set_inv h f n
theorem inv_setN {a n : Nat} (h : Inv s) : Inv (s.setN a n) := setN_inv h a n
theorem inv_setPair {a n : Nat} (h : Inv s) : Inv (s.setPair a n) := setPair_inv h a n
theorem inv_resetRegs {p : Nat → Bool} (h : Inv s) : Inv (s.resetRegs p) := resetRegs_inv h p
theorem inv_setByte {k : Nat} {v : Byte} (h : Inv s) : Inv (s.setByte k v) := setByte_inv h k v
theorem inv_setBytes {k : Nat} {d : List Byte} (h : Inv s) : Inv (s.setBytes k d) := setBytes_inv h k d
theorem inv_storeN {k n v : Nat} (h : Inv s) : Inv (s.storeN k n v) := storeN_inv h k n v
theorem inv_clearMem {lo hi : Nat} (h : Inv s) : Inv (s.clearMem lo hi) := clearMem_inv h lo hi
theorem inv_drawn (h : Inv s) : Inv s.drawn := drawn_inv h
theorem inv_countReg {a : Nat} (h : Inv s) : Inv (s.countReg a) := countReg_inv h a
theorem inv_raise {f : Fld} (h : Inv s) : Inv (s.raise f) := raise_inv h f
theorem inv_bump {f : Fld} (h : Inv s) : Inv (s.bump f) := bump_inv h f
theorem inv_count {f : Fld} (h : Inv s) : Inv (s.count f) := count_inv h f
theorem inv_setB {f : Fld} {b : Bool} (h : Inv s) : Inv (s.setB f b) := setB_inv h f b
theorem inv_fault {code source : Nat} {detail : Word} (h : Inv s) : Inv (s.fault code source detail) :=
  fault_inv h code source detail

/-! ### The shapes of the model's functions -/

theorem inv_when {b : Bool} {f : State → State} (h : Inv s) (hf : ∀ s, Inv s → Inv (f s)) : Inv (s.when b f) :=
  when_inv h b f (hf s)
theorem inv_forEach {α : Type} {l : List α} {f : α → State → State} (h : Inv s) (hf : ∀ x s, Inv s → Inv (f x s)) :
    Inv (s.forEach l f) :=
  forEach_inv l f hf h
theorem inv_ite {c : Prop} [Decidable c] (hs : Inv s) (ht : Inv t) : Inv (if c then s else t) := by
  split
  · exact hs
  · exact ht
theorem inv_ite_fourth {α β γ : Type} {c : Prop} [Decidable c] {p q : α × β × γ × State} (hp : Inv p.2.2.2) (hq : Inv q.2.2.2) :
    Inv (if c then p else q).2.2.2 := by
  split
  · exact hp
  · exact hq
theorem inv_elim {α : Type} {o : Option α} {f : α → State} (h : Inv s) (hf : ∀ x, Inv (f x)) : Inv (o.elim s f) := by
  cases o with
  | none => exact h
  | some x => exact hf x
theorem inv_getD_map {α : Type} {o : Option α} {f : α → State} (h : Inv s) (hf : ∀ x, Inv (f x)) : Inv ((o.map f).getD s) := by
  cases o with
  | none => exact h
  | some x => exact hf x
theorem inv_getD_map_id {α : Type} {o : Option α} {f : α → State → State} (h : Inv s) (hf : ∀ x, Inv (f x s)) :
    Inv ((o.map f).getD id s) := by
  cases o with
  | none => exact h
  | some x => exact hf x

/-- A change of any other part of the state keeps the invariant, which speaks of the register map and the memory alone. -/
theorem inv_mk {s : State} {fresh pending inv clk tt flt edg ball fnIn tiles adc data memh omt vote pwr dbg dma turn net host bus boot}
    (h : Inv s) : Inv ⟨s.io, s.mem, fresh, pending, inv, clk, tt, flt, edg, ball, fnIn, tiles, adc, data, memh, omt, vote, pwr, dbg, dma,
      turn, net, host, bus, boot⟩ := h

/-! ### Functions that answer a state and more -/

section
variable {α β γ : Type}
theorem inv_fst {b : β} (h : Inv s) : Inv (s, b).1 := h
theorem inv_snd {a : α} (h : Inv s) : Inv (a, s).2 := h
theorem inv_fst_of_eq {b : β} {p : State × β} (e : p = (s, b)) (h : Inv p.1) : Inv s := by
  subst e
  exact h
theorem inv_snd_of_eq {a : α} {p : α × State} (e : p = (a, s)) (h : Inv p.2) : Inv s := by
  subst e
  exact h
theorem inv_third_of_eq {a : α} {b : β} {p : α × β × State} (e : p = (a, b, s)) (h : Inv p.2.2) : Inv s := by
  subst e
  exact h
theorem inv_fourth_of_eq {a : α} {b : β} {c : γ} {p : α × β × γ × State} (e : p = (a, b, c, s)) (h : Inv p.2.2.2) : Inv s := by
  subst e
  exact h
end

/-- The state after an access of a DMA channel, in each of its answers. -/
def DmaAcc.state : DmaAcc → State
  | .done _ s => s
  | .err _ _ s => s
  | .wait s => s
theorem DmaAcc.inv_of_eq {x y : DmaAcc} (e : x = y) (h : Inv x.state) : Inv y.state := e ▸ h

/-- The state after an access of the host, in each of its answers. -/
def HostEnd.state : HostEnd → State
  | .ended _ _ s => s
  | .waits s => s
theorem HostEnd.inv_of_eq {x y : HostEnd} (e : x = y) (h : Inv x.state) : Inv y.state := e ▸ h

/-! ### Commands -/

/-- `o` answers a next state, which meets the invariant where `s` does. -/
def Keeps (s : State) (o : Outcome) : Prop := ∃ t, o = .next t ∧ (Inv s → Inv t)
theorem keeps_next (h : Inv s → Inv t) : Keeps s (.next t) := ⟨t, rfl, h⟩
theorem keeps_ite {c : Prop} [Decidable c] {o o' : Outcome} (ho : Keeps s o) (ho' : Keeps s o') : Keeps s (if c then o else o') := by
  split
  · exact ho
  · exact ho'
theorem keeps_of_inv {o : Outcome} (hu : Inv s → Inv u) (ho : Keeps u o) : Keeps s o := by
  obtain ⟨t, rfl, ht⟩ := ho
  exact ⟨t, rfl, fun h => ht (hu h)⟩
theorem inv_onward {o : Outcome} (h : Inv u) (ho : Keeps u o) : Inv (onward o s) := by
  obtain ⟨t, rfl, ht⟩ := ho
  exact ht h
end Sys2Proof.Machine

namespace Sys2Proof.Machine
open Sys2Proof
variable {s : State}

/-! ### Sys2Proof/Machine/Ops.lean -/

theorem inv_goodMem {lo hi : Nat} (h : Inv s) : Inv (s.goodMem lo hi) := inv_mk h
theorem inv_rungDue {rung fn cause : Nat} (h : Inv s) : Inv (s.rungDue rung fn cause) := by
  unfold State.rungDue
  split
  · exact inv_ite h (inv_mk h)
  · exact inv_mk h
theorem inv_rung4 {fn cause : Nat} (h : Inv s) : Inv (s.rung4 fn cause) :=
  inv_ite (inv_fault (inv_rungDue (inv_raise (inv_raise h)))) (inv_rungDue h)
theorem inv_rung3Counted {fn cause : Nat} (h : Inv s) : Inv (s.rung3Counted fn cause) := by
  unfold State.rung3Counted
  extract_lets n s1 taken
  have h1 : Inv s1 := inv_when h (fun _ => inv_mk)
  exact inv_ite (inv_when (inv_raise (inv_set h1)) (fun _ => inv_rung4)) (inv_when (inv_set h1) (fun _ => inv_rungDue))
theorem inv_failReport {f : Nat} (h : Inv s) : Inv (s.failReport f) := by
  unfold State.failReport
  extract_lets n s1
  have h1 : Inv s1 := inv_when (inv_set h) (fun _ => inv_mk)
  exact inv_ite (inv_when (inv_raise (inv_set h1)) (fun _ => inv_mk)) h1
theorem inv_retryFail (h : Inv s) : Inv s.retryFail := inv_fault (inv_failReport (inv_drawn h))
theorem inv_progress {f : Nat} (h : Inv s) : Inv (s.progress f) := inv_mk h

/-! ### Sys2Proof/Machine/Pads.lean -/

theorem inv_inCore {f : State → State} (h : Inv s) (hf : ∀ s, Inv s → Inv (f s)) : Inv (inCore f s) :=
  inv_ite (hf _ h) h
theorem inv_vaultWipe {cause : Nat} (h : Inv s) : Inv (vaultWipe cause s) :=
  inv_fault (inv_set (inv_set (inv_raise (inv_when h (fun _ => inv_bump)))))
theorem inv_modEdg {e : Nat} {f : EdgH → EdgH} (h : Inv s) : Inv (s.modEdg e f) := inv_mk h
theorem inv_showChanSafe {c k : Nat} {b : Bool} (h : Inv s) : Inv (showChanSafe c k b s) :=
  inv_setB (inv_setB (inv_when h (fun _ => inv_raise)))
theorem inv_refreshChan {c k : Nat} (h : Inv s) : Inv (refreshChan c k s) :=
  inv_ite (inv_showChanSafe (inv_modEdg h)) (inv_ite (inv_modEdg h) (inv_showChanSafe h))
theorem inv_refreshChans (h : Inv s) : Inv (refreshChans s) :=
  inv_forEach h (fun _ _ h1 => inv_forEach h1 (fun _ _ => inv_refreshChan))
theorem inv_modBall {n : Nat} {f : BallH → BallH} (h : Inv s) : Inv (s.modBall n f) := inv_mk h
theorem inv_setFnInput {code : Nat} {b : Bool} (h : Inv s) : Inv (setFnInput code b s) := inv_mk h
theorem inv_refreshFrom {d : Option Bool} {n : Nat} (h : Inv s) : Inv (refreshFrom d n s) :=
  inv_setB (inv_when h (fun _ => inv_modBall))
theorem inv_refreshBall {n : Nat} (h : Inv s) : Inv (refreshBall n s) := inv_when (inv_refreshFrom h) (fun _ => inv_drawn)
theorem inv_refreshBalls (h : Inv s) : Inv (refreshBalls s) := inv_forEach h (fun _ _ => inv_refreshBall)
theorem inv_outputsSafe (h : Inv s) : Inv (outputsSafe s) := inv_refreshBalls (inv_refreshChans h)
theorem inv_edgeLull {on : Bool} (h : Inv s) : Inv (edgeLull on s) := inv_outputsSafe (inv_forEach h (fun _ _ => inv_setB))
theorem inv_ownerDecision {n : Fin 192} {serial : Option Bool} (h : Inv s) : Inv (ownerDecision n serial s) := by
  unfold ownerDecision
  extract_lets w l s1 s2 d old s3 s4 s5
  have h1 : Inv s1 := inv_when h (fun _ => inv_raise)
  have h2 : Inv s2 := inv_modBall (inv_setB h1)
  have h3 : Inv s3 := inv_when h2 (fun _ => inv_setFnInput)
  have h4 : Inv s4 := inv_modBall h3
  have h5 : Inv s5 := inv_set (inv_set h4)
  exact inv_ite h2 (inv_refreshFrom (inv_raise (inv_set h5)))
theorem keeps_execOwnerDecision {n : Fin 192} {serial : Option Bool} : Keeps s (execOwnerDecision n serial s) :=
  keeps_next fun h => inv_inCore h (fun _ => inv_ownerDecision)
theorem inv_safeInterval {n : Fin 192} (h : Inv s) : Inv (safeInterval n s) := inv_ite (inv_refreshFrom (inv_set h)) h
theorem keeps_execSafeIntervalStart {n : Fin 192} : Keeps s (execSafeIntervalStart n s) :=
  keeps_next fun h => inv_inCore h (fun _ => inv_safeInterval)
theorem inv_takeoverEdge {n : Fin 192} (h : Inv s) : Inv (takeoverEdge n s) :=
  inv_ite (inv_refreshFrom (inv_when (inv_set h) (fun _ => inv_setFnInput))) h
theorem keeps_execTakeover {n : Fin 192} : Keeps s (execTakeover n s) := keeps_next fun h => inv_inCore h (fun _ => inv_takeoverEdge)
theorem inv_gpioOut {bypass : Bool} {b mask : Nat} {f : Nat → Nat → Nat} (h : Inv s) : Inv (gpioOut bypass b mask f s) :=
  inv_setN (inv_when h (fun _ => inv_raise))
theorem inv_gpioWrite {m : Master} {b : Nat} {v : Word} {f : Nat → Nat → Nat} (h : Inv s) : Inv (gpioWrite m b v f s) :=
  inv_ite (inv_gpioOut h) h
theorem keeps_execGpioSet {m : Master} {b : Fin 8} {v : Word} : Keeps s (execGpioSet m b v s) :=
  keeps_next fun h => inv_inCore h (fun _ => inv_gpioWrite)
theorem keeps_execGpioClr {m : Master} {b : Fin 8} {v : Word} : Keeps s (execGpioClr m b v s) :=
  keeps_next fun h => inv_inCore h (fun _ => inv_gpioWrite)
theorem keeps_execGpioTgl {m : Master} {b : Fin 8} {v : Word} : Keeps s (execGpioTgl m b v s) :=
  keeps_next fun h => inv_inCore h (fun _ => inv_gpioWrite)
theorem inv_gpioDir {bypass : Bool} {b : Nat} {v : Word} (h : Inv s) : Inv (gpioDir bypass b v s) :=
  inv_setN (inv_when h (fun _ => inv_raise))
theorem keeps_execGpioDir {m : Master} {b : Fin 8} {v : Word} : Keeps s (execGpioDir m b v s) :=
  keeps_next fun h => inv_inCore h (fun _ h1 => inv_ite (inv_gpioDir h1) h1)
theorem inv_keeperNote {n : Nat} {level : Bool} (h : Inv s) : Inv (keeperNote n level s) := inv_when h (fun _ => inv_modBall)
theorem inv_keeperCycle (h : Inv s) : Inv (keeperCycle s) := by
  unfold keeperCycle
  refine inv_forEach h (fun n s1 h1 => ?_)
  split
  · exact h1
  · exact inv_modBall h1
theorem inv_inputChange {n : Fin 192} {outside : Option Bool} {t0 : Nat} (h : Inv s) : Inv (inputChange n outside t0 s) := by
  unfold inputChange
  extract_lets level s1 b k en s2 s3 o
  have h1 : Inv s1 := inv_elim (inv_drawn h) (fun _ => inv_keeperNote h)
  have h3 : Inv s3 := inv_when (inv_setB h1) (fun _ => inv_raise)
  exact inv_ite h1 (inv_when h3 (fun _ => inv_setFnInput))
theorem keeps_execInputChange {n : Fin 192} {level : Option Bool} {t0 : Nat} : Keeps s (execInputChange n level t0 s) :=
  keeps_next fun h => inv_inCore h (fun _ => inv_inputChange)
theorem inv_supplyMeasure {b : Fin 8} {absent v18 : Bool} (h : Inv s) : Inv (supplyMeasure b absent v18 s) := by
  unfold supplyMeasure
  extract_lets bad was s1 s2 s3 s4
  have h1 : Inv s1 := inv_setB (inv_setB (inv_setB h))
  have h2 : Inv s2 := inv_setB h1
  have h3 : Inv s3 := inv_when h2 (fun _ h4 => inv_forEach (inv_setN h4) (fun _ _ h5 => inv_when h5 (fun _ => inv_setFnInput)))
  have h4 : Inv s4 := inv_when h3 (fun _ h5 => inv_fault (inv_raise h5))
  exact h4
theorem keeps_execSupplyMeasure {b : Fin 8} {absent v18 : Bool} : Keeps s (execSupplyMeasure b absent v18 s) :=
  keeps_next inv_supplyMeasure
theorem inv_tamperTrip {x : Fin 2} {level : Bool} {cycles : Nat} (h : Inv s) : Inv (tamperTrip x level cycles s) :=
  inv_ite (inv_fault (inv_vaultWipe (inv_raise (inv_bump (inv_raise (inv_setB h)))))) (inv_setB h)
theorem inv_applyBalls {b : List Byte} (h : Inv s) : Inv (applyBalls b s) := by
  unfold applyBalls
  extract_lets s1 volts s2 s3 base s4
  have h1 : Inv s1 := inv_forEach h (fun _ _ h2 => inv_setN (inv_setN h2))
  have h2 : Inv s2 := inv_setN h1
  have h3 : Inv s3 := inv_forEach h2 (fun _ _ => inv_setN)
  have h4 : Inv s4 := inv_mk h3
  exact inv_outputsSafe (inv_raise h4)
theorem inv_ballsHeld (h : Inv s) : Inv (ballsHeld s) := inv_when h (fun _ h1 => inv_forEach h1 (fun _ _ => inv_raise))

/-! ### Sys2Proof/Machine/Adc.lean -/

theorem inv_modAdc {c x : Nat} {f : AdcH → AdcH} (h : Inv s) : Inv (s.modAdc c x f) := inv_mk h
theorem inv_adcTo {c x st : Nat} (h : Inv s) : Inv (adcTo c x st s) := inv_set (inv_set h)
theorem inv_adcRaise {c x b : Nat} (h : Inv s) : Inv (adcRaise c x b s) := inv_raise h
theorem inv_adcStart {c x : Nat} (h : Inv s) : Inv (adcStart c x s) :=
  inv_modAdc (inv_forEach (inv_setN (inv_set (inv_set (inv_adcTo h)))) (fun _ _ => inv_set))
theorem inv_adcTriggers {c x n : Nat} (h : Inv s) : Inv (adcTriggers c x n s) := by
  unfold adcTriggers
  extract_lets st lost s1
  have h1 : Inv s1 := inv_when h (fun _ h2 => inv_forEach h2 (fun _ _ => inv_adcStart))
  exact inv_ite h (inv_when h1 (fun _ h2 => inv_forEach h2 (fun _ _ h3 => inv_set (inv_adcRaise h3))))
theorem inv_adcGo {m : Master} {c x : Nat} (h : Inv s) : Inv (adcGo m c x s) := by
  unfold adcGo
  refine inv_ite h (inv_ite h (inv_ite (inv_set h) ?_))
  split
  · exact h
  · exact inv_adcTriggers (inv_set h)
  · exact inv_adcTriggers (inv_set h)
theorem keeps_execAdcGo {m : Master} {c : Fin 6} {x : Fin 2} : Keeps s (execAdcGo m c x s) := keeps_next inv_adcGo
theorem inv_adcTtTrigger {c x : Nat} (h : Inv s) : Inv (adcTtTrigger c x s) := by
  unfold adcTtTrigger
  refine inv_ite h ?_
  split
  · exact h
  · exact inv_ite h (inv_modAdc (inv_adcTriggers h))
theorem keeps_execAdcTtTrigger {c : Fin 6} {x : Fin 2} : Keeps s (execAdcTtTrigger c x s) := keeps_next inv_adcTtTrigger
theorem inv_adcSoon {c x mode n : Nat} (h : Inv s) : Inv (adcSoon c x mode n s) := inv_modAdc h
theorem inv_adcArrive {c x : Nat} (h : Inv s) : Inv (adcArrive c x s) :=
  inv_ite h (inv_adcTriggers (inv_when (inv_modAdc h) (fun _ => inv_raise)))
theorem inv_adcEdgeEvent {c k kind : Nat} (h : Inv s) : Inv (adcEdgeEvent c k kind s) :=
  inv_forEach h (fun _ _ h1 => inv_when h1 (fun _ => inv_adcSoon))
theorem inv_adcVoted {c v n : Nat} (h : Inv s) : Inv (adcVoted c v n s) :=
  inv_ite h (inv_forEach h (fun _ _ h1 => inv_when h1 (fun _ => inv_adcSoon)))
theorem inv_adcEnter {c x : Nat} (h : Inv s) : Inv (adcEnter c x s) := by
  unfold adcEnter
  extract_lets s1 s2 timed t base s3
  have h1 : Inv s1 := inv_forEach h (fun _ _ h2 => inv_setN (inv_setN h2))
  have h2 : Inv s2 := inv_set (inv_set (inv_set h1))
  have h3 : Inv s3 := inv_modAdc (inv_adcTo h2)
  exact inv_when h3 (fun _ => inv_adcSoon)
theorem inv_adcOff {c x : Nat} (h : Inv s) : Inv (adcOff c x s) := inv_modAdc (inv_raise (inv_adcTo h))
theorem inv_adcAbandon {c x : Nat} (h : Inv s) : Inv (adcAbandon c x s) := inv_modAdc (inv_when h (fun _ => inv_set))
theorem inv_adcStopPoint {c x : Nat} (h : Inv s) : Inv (adcStopPoint c x s) :=
  inv_ite (inv_forEach h (fun _ _ h1 => inv_adcOff (inv_set h1))) h
theorem inv_adcCtrlWrite {m : Master} {c x : Nat} {v : Word} (h : Inv s) : Inv (adcCtrlWrite m c x v s) := by
  unfold adcCtrlWrite
  extract_lets on governed keep s1 s2 code other s3 s4 s5
  have h1 : Inv s1 := inv_setN h
  have h2 : Inv s2 := inv_set h1
  have h3 : Inv s3 := inv_set h
  have h4 : Inv s4 := inv_set h3
  have h5 : Inv s5 := inv_forEach h4 (fun _ _ => inv_adcTo)
  refine inv_ite h ?_
  split
  · exact inv_ite h2 (inv_ite (inv_adcRaise (inv_set (inv_set h2))) (inv_forEach (inv_set h2) (fun _ _ => inv_adcEnter)))
  · exact inv_ite h3 (inv_ite (inv_forEach h4 (fun _ _ => inv_adcOff)) (inv_when h5 (fun _ h6 => inv_adcStopPoint (inv_forEach h6
        (fun _ _ => inv_adcAbandon)))))
theorem keeps_execAdcEnable {m : Master} {c : Fin 6} {x : Fin 2} {v : Word} : Keeps s (execAdcEnable m c x v s) :=
  keeps_next inv_adcCtrlWrite
theorem keeps_execAdcDisable {m : Master} {c : Fin 6} {x : Fin 2} {v : Word} : Keeps s (execAdcDisable m c x v s) :=
  keeps_next inv_adcCtrlWrite
theorem inv_adcConfigWrite {m : Master} {c x : Nat} {write : State → State} (h : Inv s) (hwrite : ∀ s, Inv s → Inv (write s)) :
    Inv (adcConfigWrite m c x write s) :=
  inv_ite h (inv_ite (hwrite _ h) (inv_set h))
theorem inv_adcPairWrite {m : Master} {c : Nat} {v : Word} (h : Inv s) : Inv (adcPairWrite m c v s) :=
  inv_ite h (inv_when (inv_when h (fun _ h1 => inv_set (inv_set h1))) (fun _ => inv_raise))
theorem inv_adcClockAbort (h : Inv s) : Inv (adcClockAbort s) := by
  unfold adcClockAbort
  exact inv_forEach h (fun _ _ h1 => inv_forEach h1 (fun _ _ h2 => inv_ite (inv_adcRaise (inv_adcTo (inv_set (inv_when h2
      (fun _ => inv_set))))) (inv_ite (inv_adcOff (inv_adcRaise (inv_set (inv_when h2 (fun _ => inv_set))))) (inv_when h2
      (fun _ => inv_set)))))
theorem inv_adcTake (h : Inv s) : Inv (adcTake s) := inv_forEach h (fun _ _ => inv_adcArrive)
theorem inv_adcCycle (h : Inv s) : Inv (adcCycle s) := inv_mk h
theorem inv_adcWrite {c x : Nat} {code : Nat × Bool} {fail : Bool} (h : Inv s) : Inv (adcWrite c x code fail s) := by
  unfold adcWrite
  extract_lets r i t w s1 s2 s3
  have h1 : Inv s1 := inv_set (inv_setN (inv_setN h))
  have h2 : Inv s2 := inv_when h1 (fun _ => inv_adcRaise)
  have h3 : Inv s3 := inv_modAdc h2
  exact inv_ite h3 (inv_ite (inv_set (inv_modAdc h3)) (inv_bump (inv_adcRaise h3)))
theorem inv_adcPlaus {c a b : Nat} (h : Inv s) : Inv (adcPlaus c a b s).1 := by
  unfold adcPlaus
  extract_lets r run mark s1 s2
  have hmark : ∀ s3, Inv s3 → Inv (mark s3) := fun _ h1 => inv_set (inv_set (inv_setN h1))
  have h1 : Inv s1 := inv_progress h
  have h2 : Inv s2 := inv_raise (inv_bump (hmark _ h1))
  split
  · exact inv_fst h
  split
  · exact inv_fst (inv_raise (hmark _ h))
  split
  · exact inv_fst (inv_fault h2)
  · exact inv_fst h1
theorem inv_adcAdvance {c x : Nat} (h : Inv s) : Inv (adcAdvance c x s) := by
  unfold adcAdvance
  extract_lets set_ r last st abort start
  exact inv_ite h (inv_ite (inv_adcStopPoint h) (inv_ite (inv_forEach h (fun _ _ h1 => inv_modAdc (inv_set h1))) (inv_ite
      (inv_forEach h (fun _ _ h1 => inv_adcOff (inv_set h1))) (inv_forEach h (fun _ _ h1 => inv_adcRaise (inv_adcTo (inv_set h1)))))))
theorem inv_conversionComplete {c x : Nat} {vinA vinB : Int} (h : Inv s) : Inv (conversionComplete c x vinA vinB s) := by
  unfold conversionComplete
  extract_lets r st gain ra rb
  refine inv_ite h (inv_ite ?_ (inv_adcAdvance (inv_adcWrite h)))
  split
  rename_i s1 _ e
  have h1 : Inv s1 := inv_fst_of_eq e (inv_adcPlaus h)
  exact inv_adcAdvance (inv_adcWrite (inv_adcWrite h1))
theorem keeps_execConversionComplete {c : Fin 6} {x : Fin 2} {vinA vinB : Int} : Keeps s (execConversionComplete c x vinA vinB s) :=
  keeps_next inv_conversionComplete
theorem inv_adcPlausDisable {abort : Bool} (h : Inv s) : Inv (adcPlausDisable abort s) := inv_mk h
theorem inv_adcPlausReset (h : Inv s) : Inv (adcPlausReset s) := inv_forEach h (fun _ _ h1 => inv_setN (inv_setN h1))
theorem inv_adcFifoRead {c x : Nat} (h : Inv s) : Inv (adcFifoRead c x s).2 := by
  unfold adcFifoRead
  extract_lets r
  split
  · exact h
  · exact inv_set (inv_modAdc h)
theorem keeps_execAdcFifoRead {m : Master} {c : Fin 6} {x : Fin 2} : Keeps s (execAdcFifoRead m c x s) :=
  keeps_ite (keeps_next fun h => inv_mk (inv_adcFifoRead h)) (keeps_next fun h => inv_mk h)
theorem inv_adcFlush {m : Master} {c x : Nat} (h : Inv s) : Inv (adcFlush m c x s) := inv_ite h (inv_set (inv_set (inv_modAdc h)))
theorem keeps_execFlush {m : Master} {c : Fin 6} {x : Fin 2} : Keeps s (execFlush m c x s) := keeps_next inv_adcFlush
theorem inv_adcCapture {c x i id : Nat} (h : Inv s) : Inv (adcCapture c x i id s).2 := inv_when h (fun _ => inv_modAdc)

/-! ### Sys2Proof/Machine/Edges.lean -/

theorem inv_setLevel {c k : Nat} {on : Bool} {placed : Option Nat} (h : Inv s) : Inv (setLevel c k on placed s) :=
  inv_modEdg (inv_setB (inv_setB h))
theorem inv_fireCompare {c k : Nat} {step : Bool} (h : Inv s) : Inv (fireCompare c k step s) :=
  inv_adcEdgeEvent (inv_raise (inv_when (inv_setB (inv_set h)) (fun _ h1 => inv_when h1 (fun _ => inv_setLevel))))
theorem inv_firePwmEvent {c k : Nat} (h : Inv s) : Inv (firePwmEvent c k s) := inv_adcEdgeEvent (inv_raise (inv_modEdg h))
theorem inv_compareFire {c k : Nat} (h : Inv s) : Inv (compareFire c k s) :=
  inv_ite h (inv_ite (inv_ite (inv_firePwmEvent h) h) (inv_ite (inv_fireCompare h) h))
theorem keeps_execCompareFire {c : Fin 6} {k : Fin 16} : Keeps s (execCompareFire c k s) := keeps_next inv_compareFire
theorem inv_armCompare {c k : Nat} {v : Word} (h : Inv s) : Inv (armCompare c k v s) :=
  inv_ite (inv_setReg h) (inv_modEdg (inv_set (inv_setReg (inv_compareFire h))))
theorem inv_votedRefuse {c k : Nat} (h : Inv s) : Inv (votedRefuse c k s) := inv_raise (inv_set h)
theorem inv_votedCommand {bypass : Bool} {m : Master} {c k : Nat} {f : State → State} (h : Inv s) (hf : ∀ s, Inv s → Inv (f s)) :
    Inv (votedCommand bypass m c k f s) :=
  inv_ite h (inv_ite (inv_votedRefuse h) (hf _ (inv_set h)))
theorem inv_edgCmpWrite {bypass : Bool} {m : Master} {c k : Nat} {v : Word} (h : Inv s) : Inv (edgCmpWrite bypass m c k v s) :=
  inv_votedCommand h (fun _ => inv_armCompare)
theorem keeps_execEdgCmp {m : Master} {c : Fin 6} {k : Fin 16} {v : Word} : Keeps s (execEdgCmp m c k v s) :=
  keeps_next inv_edgCmpWrite
theorem inv_edgArm {bypass : Bool} {m : Master} {c k : Nat} (h : Inv s) : Inv (edgArm bypass m c k s) :=
  inv_votedCommand h (fun _ => inv_armCompare)
theorem inv_edgDisarm {bypass : Bool} {m : Master} {c k : Nat} (h : Inv s) : Inv (edgDisarm bypass m c k s) :=
  inv_votedCommand h (fun _ => inv_set)
theorem inv_edgForce {bypass on : Bool} {m : Master} {c k : Nat} (h : Inv s) : Inv (edgForce bypass on m c k s) :=
  inv_votedCommand h (fun _ h1 => inv_when h1 (fun _ => inv_modEdg))
theorem keeps_execArm {m : Master} {c : Fin 6} {k : Fin 16} : Keeps s (execArm m c k s) := keeps_next inv_edgArm
theorem keeps_execDisarm {m : Master} {c : Fin 6} {k : Fin 16} : Keeps s (execDisarm m c k s) :=
  keeps_next inv_edgDisarm
theorem keeps_execForceActive {m : Master} {c : Fin 6} {k : Fin 16} : Keeps s (execForceActive m c k s) :=
  keeps_next inv_edgForce
theorem keeps_execForceInactive {m : Master} {c : Fin 6} {k : Fin 16} : Keeps s (execForceInactive m c k s) :=
  keeps_next inv_edgForce
theorem inv_syncTt {c k : Nat} (h : Inv s) : Inv (syncTt c k s) := by
  unfold syncTt
  split
  · exact inv_setN h
  · exact h
  · exact inv_setN h
theorem keeps_execSyncTt {m : Master} {c : Fin 6} {k : Fin 16} : Keeps s (execSyncTt m c k s) :=
  keeps_next fun h => inv_ite (inv_syncTt (inv_set h)) h
theorem inv_edgSync {m : Master} {c : Nat} {v : Word} (h : Inv s) : Inv (edgSync m c v s) :=
  inv_ite (inv_forEach h (fun _ _ h1 => inv_when h1 (fun _ => inv_syncTt))) h
theorem keeps_execEdgSync {m : Master} {c : Fin 6} {v : Word} : Keeps s (execEdgSync m c v s) :=
  keeps_next inv_edgSync
theorem keeps_execEdgCnt {m : Master} {c : Fin 6} {k : Fin 16} {v : Word} : Keeps s (execEdgCnt m c k v s) :=
  keeps_next fun h => inv_ite (inv_setReg h) h
theorem keeps_execClrOvr {m : Master} {c : Fin 6} {k : Fin 16} : Keeps s (execClrOvr m c k s) :=
  keeps_next fun h => inv_ite (inv_set (inv_set h)) h
theorem inv_pwmTransition {c k t : Nat} (h : Inv s) : Inv (pwmTransition c k t s) := inv_ite (inv_modEdg (inv_setLevel h)) h
theorem keeps_execPwmTransition {c : Fin 6} {k : Fin 16} {t : Word} : Keeps s (execPwmTransition c k t s) :=
  keeps_next inv_pwmTransition
theorem inv_dutyLoad {c k : Nat} (h : Inv s) : Inv (dutyLoad c k s) := inv_ite (inv_modEdg (inv_setReg h)) h
theorem keeps_execDutyLoad {c : Fin 6} {k : Fin 16} : Keeps s (execDutyLoad c k s) := keeps_next inv_dutyLoad
theorem inv_showGroupSafe {c k : Nat} (h : Inv s) : Inv (showGroupSafe c k s) := inv_setB h
theorem inv_refreshOut {c k : Nat} (h : Inv s) : Inv (refreshOut c k s) :=
  inv_when (inv_refreshChan (inv_showGroupSafe h)) (fun _ => inv_refreshBalls)
theorem inv_chanOff {c k : Nat} (h : Inv s) : Inv (chanOff c k s) := by
  unfold chanOff
  extract_lets base one both
  have hone : ∀ j s1, Inv s1 → Inv (one j s1) := fun _ _ h1 => inv_modEdg (inv_set (inv_set (inv_set h1)))
  exact inv_when (inv_refreshOut (hone _ _ h)) (fun _ h1 => inv_refreshOut (hone _ _ h1))
theorem inv_resumeChan {c k : Nat} (h : Inv s) : Inv (resumeChan c k s) := inv_ite (inv_refreshBalls (inv_showChanSafe (inv_modEdg h))) h
theorem inv_cycleStart {c k : Nat} (h : Inv s) : Inv (cycleStart c k s) := by
  unfold cycleStart
  extract_lets r s1 d per forget s2 s3 s4 s5
  have h1 : Inv s1 := inv_dutyLoad h
  have h2 : Inv s2 := inv_modEdg h1
  have h3 : Inv s3 := inv_modEdg h2
  have h4 : Inv s4 := inv_set h3
  have h5 : Inv s5 := inv_when h4 (fun _ => inv_set)
  exact inv_ite h (inv_ite (inv_chanOff h) (inv_when (inv_resumeChan h5) (fun _ => inv_resumeChan)))
theorem keeps_execCycleStart {c : Fin 6} {k : Fin 16} : Keeps s (execCycleStart c k s) := keeps_next inv_cycleStart
theorem inv_chanEnter {c k : Nat} (h : Inv s) : Inv (chanEnter c k s) := by
  unfold chanEnter
  extract_lets f s1 s2 next old base s3 s4
  have h1 : Inv s1 := inv_when h (fun _ => inv_setN)
  have h2 : Inv s2 := inv_set (inv_set h1)
  have h3 : Inv s3 := inv_modEdg h2
  have h4 : Inv s4 := inv_set h3
  exact inv_ite (inv_set h4) (inv_set (inv_set (inv_set h4)))
theorem inv_edgCtrlWrite {m : Master} {c k : Nat} {v : Word} (h : Inv s) : Inv (edgCtrlWrite m c k v s) := by
  unfold edgCtrlWrite
  extract_lets on st other s1 s2 code s3 s4
  have h1 : Inv s1 := inv_when h (fun _ => inv_set)
  have h2 : Inv s2 := inv_refreshOut (inv_set h1)
  have h3 : Inv s3 := inv_set h
  have h4 : Inv s4 := inv_set h3
  exact inv_ite h (inv_ite (inv_ite h2 (inv_ite (inv_set (inv_set h2)) (inv_refreshOut (inv_chanEnter h2)))) (inv_ite (inv_when h3
      (fun _ h5 => inv_set (inv_set h5))) (inv_ite (inv_chanOff h4) (inv_ite (inv_set h4) (inv_modEdg h4)))))
theorem keeps_execEdgeEnable {m : Master} {c : Fin 6} {k : Fin 16} {v : Word} : Keeps s (execEdgeEnable m c k v s) :=
  keeps_next inv_edgCtrlWrite
theorem keeps_execEdgeDisable {m : Master} {c : Fin 6} {k : Fin 16} {v : Word} : Keeps s (execEdgeDisable m c k v s) :=
  keeps_next inv_edgCtrlWrite
theorem inv_edgConfigWrite {m : Master} {c k : Nat} {write : State → State} (h : Inv s) (hwrite : ∀ s, Inv s → Inv (write s)) :
    Inv (edgConfigWrite m c k write s) :=
  inv_ite h (inv_ite (hwrite _ h) (inv_set h))
theorem inv_capture {c k : Nat} {falling : Bool} {cross t0 : Nat} (h : Inv s) : Inv (capture c k falling cross t0 s) := by
  unfold capture
  extract_lets kind coarse at16 new r s1
  have h1 : Inv s1 := by
    unfold s1
    split
    · exact inv_modEdg (inv_raise (inv_raise h))
    · exact inv_set (inv_modEdg h)
  exact inv_ite h (inv_adcEdgeEvent (inv_raise h1))
theorem keeps_execCapture {c : Fin 6} {k : Fin 16} {falling : Bool} {cross t0 : Nat} : Keeps s (execCapture c k falling cross t0 s) :=
  keeps_next inv_capture
theorem inv_capPop {c k : Nat} (h : Inv s) : Inv (capPop c k s).2.2 := by
  unfold capPop
  split
  · exact h
  · exact inv_set (inv_modEdg h)
theorem keeps_execEdgCapPop {m : Master} {c : Fin 6} {k : Fin 16} : Keeps s (execEdgCapPop m c k s) :=
  keeps_ite (keeps_next fun h => inv_mk (inv_capPop h)) (keeps_next fun h => inv_mk h)
theorem inv_countersCycle {c delta : Nat} (h : Inv s) : Inv (countersCycle c delta s) := by
  unfold countersCycle
  refine List.foldlRecOn (motive := fun p : State × _ => Inv p.1) _ _ h (fun p hp k _ => ?_)
  split
  split
  · exact hp
  · exact inv_setN hp
theorem inv_edgeLoads (h : Inv s) : Inv (edgeLoads s) := inv_forEach h (fun _ _ h1 => inv_forEach h1 (fun _ _ => inv_dutyLoad))
theorem inv_chanCycle {c k : Nat} (h : Inv s) : Inv (chanCycle c k s) := by
  unfold chanCycle
  extract_lets r f s1 s2
  have h1 : Inv s1 := inv_when h (fun _ => inv_resumeChan)
  have h2 : Inv s2 := by
    unfold s2
    split
    · exact h1
    · exact inv_modEdg (inv_when h1 (fun _ => inv_setLevel))
  exact inv_ite (inv_modEdg (inv_when h2 (fun _ => inv_setLevel))) (inv_ite (inv_chanOff h2) h2)
theorem inv_lullReach (h : Inv s) : Inv (lullReach s) := by
  unfold lullReach
  split
  · exact inv_ite h (inv_when (inv_mk h) (fun _ => inv_edgeLull))
  · exact h
theorem inv_edgeCycle {delta : Nat} (h : Inv s) : Inv (edgeCycle delta s) :=
  inv_forEach (inv_lullReach h) (fun _ _ h1 => inv_ite h1 (inv_forEach (inv_countersCycle h1) (fun _ _ => inv_chanCycle)))
theorem inv_edgeStep {d : Int} (h : Inv s) : Inv (edgeStep d s) := by
  unfold edgeStep
  refine inv_forEach h (fun c s1 h1 => ?_)
  refine List.foldlRecOn (motive := fun p : State × _ => Inv p.1) _ _ h1 (fun p hp k _ => ?_)
  obtain ⟨s2, carry⟩ := p
  have h2 : Inv s2 := hp
  dsimp -zeta only
  split
  · exact h2
  extract_lets add was cmp n s3 compares s4 next shift cut s5 s6
  have h4 : Inv s4 := inv_when (inv_setN h2) (fun _ => inv_fireCompare)
  have h5 : Inv s5 := inv_modEdg (inv_when h4 (fun _ => inv_setLevel))
  exact inv_ite (inv_when h5 (fun _ => inv_modEdg)) h4
theorem inv_edgRelease {c k : Nat} {v : Word} (h : Inv s) : Inv (edgRelease c k v s) := inv_when h (fun _ => inv_armCompare)
theorem inv_showVoted {c k : Nat} {voted safe : Bool} (h : Inv s) : Inv (showVoted c k voted safe s) :=
  inv_forEach (inv_modEdg (inv_setB h)) (fun _ _ => inv_refreshOut)

/-! ### Sys2Proof/Machine/Mem.lean -/

theorem inv_bankTo {b st : Nat} (h : Inv s) : Inv (bankTo b st s) := inv_set h
theorem inv_bankClamp {b : Nat} {on : Bool} (h : Inv s) : Inv (bankClamp b on s) := inv_setB h
theorem inv_withMem {r : MemH} (h : Inv s) : Inv (s.withMem r) := inv_mk h
theorem inv_modMem {f : MemH → MemH} (h : Inv s) : Inv (s.modMem f) := inv_withMem h
theorem inv_modBank {b : Nat} {f : BankH → BankH} (h : Inv s) : Inv (s.modBank b f) := inv_withMem h
theorem inv_recordRefusal {p : Place} {a reason : Nat} {m : Master} {write : Bool} (h : Inv s) :
    Inv (recordRefusal p a reason m write s) := by
  unfold recordRefusal
  extract_lets base n s1 s2
  have h1 : Inv s1 := inv_setN h
  have h2 : Inv s2 := inv_setN h1
  split
  · exact inv_raise h2
  · exact inv_raise h2
theorem inv_memWrite {form key n v : Nat} (h : Inv s) : Inv (memWrite form key n v s) := inv_storeN h
theorem inv_badWord {k : Nat} (h : Inv s) :
    Inv (badWord k s) := inv_ite h (inv_withMem (inv_drawn (inv_storeN (inv_drawn (inv_storeN h)))))
theorem inv_badLine {key : Nat} (h : Inv s) : Inv (badLine key s) := inv_forEach h (fun _ _ => inv_badWord)
theorem inv_granted {p : Place} {m : Master} (h : Inv s) : Inv (granted p m s) := by
  unfold granted
  split
  · exact inv_modBank h
  · exact h
theorem inv_conflicts {p : Place} {m : Master} {waited : Nat} (h : Inv s) : Inv (conflicts p m waited s) := by
  unfold conflicts
  split
  · exact inv_ite h (inv_when (inv_set h) (fun _ => inv_raise))
  · exact h
theorem inv_eccEvent {p : Place} {key a : Nat} {m : Master} {write : Bool} {ecc : Nat} (h : Inv s) :
    Inv (eccEvent p key a m write ecc s) := by
  unfold eccEvent
  extract_lets uncorr mark tcm s1
  have huncorr : ∀ base bank src s2, Inv s2 → Inv (uncorr base bank src s2) := fun _ _ _ _ h1 => inv_fault (inv_setN (inv_setN h1))
  have hmark : ∀ u s2, Inv s2 → Inv (mark u s2) := fun _ _ h1 => inv_withMem h1
  have htcm : ∀ t itcm s2, Inv s2 → Inv (tcm t itcm s2) := fun _ _ _ h1 => inv_ite (inv_raise (hmark _ _ h1)) (inv_mk (inv_fault
      (inv_bump (inv_setN (inv_setN (inv_raise (inv_badWord h1)))))))
  have h1 : Inv s1 := inv_setN (inv_raise (inv_bump (inv_badLine h)))
  refine inv_ite h ?_
  split
  · exact h
  · exact inv_ite (inv_raise (inv_bump h)) (inv_fault h1)
  · exact inv_ite (hmark _ _ (inv_raise h)) (huncorr _ _ _ _ (inv_raise (inv_badWord h)))
  · exact inv_ite (hmark _ _ (inv_raise h)) (huncorr _ _ _ _ (inv_raise (inv_badWord h)))
  · exact htcm _ _ _ h
  · exact htcm _ _ _ h
theorem inv_eccWriteback {u : Nat} (h : Inv s) : Inv (eccWriteback u s) := by
  unfold eccWriteback
  extract_lets base s1
  have h1 : Inv s1 := inv_withMem h
  exact inv_ite h (inv_ite (inv_bump h1) (inv_ite h1 (inv_ite (inv_bump h1) (inv_bump h1))))
theorem keeps_execEccWriteback {u : Fin 209} : Keeps s (execEccWriteback u s) :=
  keeps_next fun h => inv_inCore h (fun _ => inv_eccWriteback)
theorem inv_showLines (h : Inv s) : Inv (showLines s) := inv_setB (inv_set h)
theorem inv_bufferLine {key : Nat} (h : Inv s) : Inv (bufferLine key s) := inv_showLines (inv_withMem h)
theorem inv_mramBytes {key : Nat} {l : List Byte} (h : Inv s) : Inv (mramBytes key l s) :=
  inv_forEach (inv_goodMem (inv_setBytes h)) (fun _ _ => inv_bufferLine)
theorem inv_mramRefused (h : Inv s) : Inv (mramRefused s) := inv_raise (inv_bump h)
theorem inv_mramLineWrite (h : Inv s) : Inv (mramLineWrite s) := inv_showLines (inv_withMem h)
theorem keeps_execMramLineWrite : Keeps s (execMramLineWrite s) := keeps_next fun h => inv_inCore h (fun _ => inv_mramLineWrite)
theorem inv_placeWrite {p : Place} {form key n v : Nat} {m : Master} (h : Inv s) : Inv (placeWrite p form key n v m s) :=
  inv_when (inv_when (inv_memWrite (inv_granted h)) (fun _ h1 => inv_ite h1 (inv_goodMem h1))) (fun _ => inv_bufferLine)
theorem inv_bankEnter {b target : Nat} (h : Inv s) : Inv (bankEnter b target s) := inv_modMem (inv_modBank (inv_bankClamp (inv_bankTo h)))
theorem inv_bankWake {b : Nat} {next : Option Nat} (h : Inv s) : Inv (bankWake b next s) :=
  inv_bankClamp (inv_modBank (inv_set (inv_bankTo h)))
theorem inv_bankStateReq {m : Master} {b : Nat} {v : Word} (h : Inv s) : Inv (bankStateReq m b v s) := by
  unfold bankStateReq
  extract_lets code st result s1 s2
  have hresult : ∀ n s3, Inv s3 → Inv (result n s3) := fun _ _ h1 => inv_set h1
  have h1 : Inv s1 := inv_set h
  have h2 : Inv s2 := inv_set (hresult _ _ h1)
  exact inv_ite h (inv_ite (hresult _ _ h) (inv_ite (hresult _ _ h) (inv_ite (hresult _ _ h) (inv_ite h2 (inv_ite (inv_bankEnter h2)
      (inv_bankWake h2))))))
theorem keeps_execBankStateReq {m : Master} {b : Fin 160} {v : Word} : Keeps s (execBankStateReq m b v s) :=
  keeps_next fun h => inv_inCore h (fun _ => inv_bankStateReq)
theorem inv_confClear {b : Nat} (h : Inv s) : Inv (confClear b s) := inv_resetRegs h
theorem keeps_execConfClear {m : Master} {b : Fin 160} : Keeps s (execConfClear m b s) :=
  keeps_next fun h => inv_inCore h (fun _ h1 => inv_ite (inv_confClear h1) h1)
theorem inv_deepCheck {b : Nat} (h : Inv s) : Inv (deepCheck b s) :=
  inv_ite (inv_withMem (inv_raise (inv_set (inv_withMem h)))) (inv_withMem h)
theorem inv_bankEntryDone {b : Nat} (h : Inv s) : Inv (bankEntryDone b s) := by
  unfold bankEntryDone
  extract_lets r s1 base s2 s3 s4
  have h1 : Inv s1 := inv_set (inv_bankTo h)
  have h2 : Inv s2 := inv_withMem h1
  have h3 : Inv s3 := inv_modBank h2
  have h4 : Inv s4 := inv_deepCheck (inv_raise h3)
  exact inv_ite h (inv_when h4 (fun _ => inv_bankWake))
theorem keeps_execBankEntryDone {b : Fin 160} : Keeps s (execBankEntryDone b s) :=
  keeps_next fun h => inv_inCore h (fun _ => inv_bankEntryDone)
theorem inv_bankWakeDone {b : Nat} (h : Inv s) : Inv (bankWakeDone b s) := by
  unfold bankWakeDone
  extract_lets r
  refine inv_ite h ?_
  split
  extract_lets s1 s2 s3
  have h1 : Inv s1 := inv_when h (fun _ h2 => inv_goodMem (inv_clearMem h2))
  have h2 : Inv s2 := inv_bankClamp (inv_bankTo h1)
  have h3 : Inv s3 := inv_modBank h2
  split
  · exact inv_bankEnter h3
  · exact inv_deepCheck (inv_raise h3)
theorem keeps_execBankWakeDone {b : Fin 160} : Keeps s (execBankWakeDone b s) :=
  keeps_next fun h => inv_inCore h (fun _ => inv_bankWakeDone)
theorem inv_deepExitGroup (h : Inv s) : Inv (deepExitGroup s) := by
  unfold deepExitGroup
  split
  · exact h
  extract_lets base s1 s2
  have h1 : Inv s1 := inv_withMem h
  have h2 : Inv s2 := by
    refine inv_forEach h1 (fun b s3 h3 => ?_)
    split
    · exact inv_modBank (inv_bankClamp (inv_bankTo h3))
    · exact inv_modMem (inv_bankWake h3)
    · exact inv_modMem (inv_bankWake h3)
  exact inv_ite h (inv_deepCheck h2)
theorem keeps_execDeepExitGroup : Keeps s (execDeepExitGroup s) := keeps_next fun h => inv_inCore h (fun _ => inv_deepExitGroup)
theorem inv_bankCycle (h : Inv s) : Inv (bankCycle s) :=
  inv_withMem (inv_forEach h (fun _ _ h1 => inv_when h1 (fun _ => inv_bankClamp)))
theorem inv_bankTouch {b : Nat} (h : Inv s) : Inv (bankTouch b s) := by
  unfold bankTouch
  split
  · exact inv_when h (fun _ => inv_modBank)
  · exact h
  · exact inv_bankWake h
theorem keeps_execVaultWipe {cause : Fin 9} : Keeps s (execVaultWipe cause s) := keeps_next fun h => inv_ite h (inv_vaultWipe h)
theorem keeps_execWipe {m : Master} : Keeps s (execWipe m s) := keeps_next fun h => inv_ite (inv_vaultWipe h) h
theorem inv_vaultWipeDone (h : Inv s) : Inv (vaultWipeDone s) := inv_ite (inv_raise (inv_set (inv_goodMem (inv_clearMem h)))) h
theorem keeps_execVaultWipeDone : Keeps s (execVaultWipeDone s) := keeps_next inv_vaultWipeDone
theorem inv_offAccess {p : Place} (h : Inv s) : Inv (offAccess p s) := by
  unfold offAccess
  split
  · exact inv_raise h
  · exact h

/-! ### Sys2Proof/Machine/Operands.lean -/

theorem inv_modTile {t : Nat} {f : Tile → Tile} (h : Inv s) : Inv (s.modTile t f) := inv_mk h
theorem inv_setG {t : Nat} {i : Fin 16} {v : Word} (h : Inv s) : Inv (setG t i v s) := inv_modTile h
theorem inv_domTouch {d : Nat} (h : Inv s) : Inv (domTouch d s) := by
  unfold domTouch
  split
  · exact inv_set (inv_set h)
  · exact inv_mk h
  · exact h
theorem inv_placeTouch {p : Place} (h : Inv s) : Inv (placeTouch p s) := by
  unfold placeTouch
  split
  · exact inv_ite (inv_domTouch h) (inv_bankTouch h)
  · exact inv_domTouch h
  · exact inv_domTouch h
  · exact h

/-! ### Sys2Proof/Machine/Exceptions.lean -/

theorem inv_writeEvcCfg {m : Master} {t e : Nat} {v : Word} (h : Inv s) : Inv (writeEvcCfg m t e v s) := by
  unfold writeEvcCfg
  split
  · extract_lets owner owns setsWorld diff foreign s1 s2
    have h1 : Inv s1 := inv_when h (fun _ h2 => inv_set (inv_set h2))
    have h2 : Inv s2 := inv_when h1 (fun _ => inv_set)
    exact inv_ite h (inv_when h2 (fun _ => inv_raise))
  · exact h
theorem keeps_execEvcCfg {m : Master} {t : Fin 24} {e : Fin 512} {v : Word} : Keeps s (execEvcCfg m t e v s) :=
  keeps_next inv_writeEvcCfg
theorem inv_writeExcCtrl {m : Master} {t : Nat} {v : Word} (h : Inv s) : Inv (writeExcCtrl m t v s) := by
  unfold writeExcCtrl
  split
  · exact inv_ite h (inv_when (inv_when h (fun _ => inv_raise)) (fun _ => inv_set))
  · exact h
theorem keeps_execClearEmerg {m : Master} {t : Fin 24} : Keeps s (execClearEmerg m t s) := keeps_next inv_writeExcCtrl
theorem inv_mirrorStore {t off n : Nat} (h : Inv s) : Inv (mirrorStore t off n s) := by
  unfold mirrorStore
  split
  · exact h
  · exact inv_forEach h (fun _ _ h1 => inv_ite (inv_setByte h1) h1)
theorem inv_tileStore {t : Nat} {m : Master} {p : Place} {form key n v : Nat} (h : Inv s) : Inv (tileStore t m p form key n v s) :=
  inv_ite (inv_mirrorStore (inv_placeWrite h)) (inv_placeWrite h)
theorem inv_writeData {t : Nat} {p : Place} {form key n a : Nat} {v : Word} {m : Master} {ecc : Nat} (h : Inv s) :
    Inv (writeData t p form key n a v m ecc s) :=
  inv_ite (inv_eccEvent h) (inv_tileStore (inv_eccEvent h))
theorem inv_lockUp {t cause vec : Nat} (h : Inv s) : Inv (lockUp t cause vec s) :=
  inv_fault (inv_modTile (inv_setReg (inv_set (inv_bump (inv_set h)))))
theorem inv_frameWord {t : Nat} {m : Master} {a : Nat} {v : Word} (h : Inv s) : Inv (frameWord t m a v s) := by
  unfold frameWord
  split
  exact inv_ite h (inv_ite (inv_mramRefused h) (inv_writeData h))
theorem inv_writeFrame {t sp : Nat} {vital : Bool} {epc wst prog esr : Word} (h : Inv s) :
    Inv (writeFrame t sp vital epc wst prog esr s) :=
  inv_frameWord (inv_frameWord (inv_frameWord (inv_frameWord h)))
theorem inv_codeLineBad {a : Nat} (h : Inv s) : Inv (codeLineBad a s) := by
  unfold codeLineBad
  exact inv_eccEvent h
theorem inv_vectorTcm {t w vec : Nat} (h : Inv s) : Inv (vectorTcm t w vec s) := by
  unfold vectorTcm
  exact inv_eccEvent h
theorem inv_takeEntry {t : Nat} {k : Cause} {epc : Word} {bad late : Bool} (h : Inv s) : Inv (takeEntry t k epc bad late s) := by
  unfold takeEntry
  extract_lets x w sp esr deep fail vec bad1 s1 bad2 cross xd top s2 s3 s4 s5 ev
  have h1 : Inv s1 := inv_when h (fun _ => inv_vectorTcm)
  have h2 : Inv s2 := inv_ite (inv_writeFrame h1) (inv_writeFrame h1)
  have h3 : Inv s3 := inv_fault (inv_raise (inv_raise h2))
  have h4 : Inv s4 := by
    unfold s4
    clear_value fail
    cases fail with
    | none => exact h2
    | some d => exact inv_modTile h3
  have h5 : Inv s5 := by
    unfold s5
    split
    · exact inv_set h4
    · exact inv_when (inv_when h4 (fun _ => inv_raise)) (fun _ => inv_raise)
  refine inv_ite (inv_lockUp h) (inv_ite (inv_lockUp h) ?_)
  split
  · exact inv_modTile h5
  · exact inv_lockUp (inv_when h1 (fun _ => inv_codeLineBad))
theorem inv_enter {t : Nat} {k : Cause} {epc : Word} {bad : Bool} (h : Inv s) : Inv (enter t k epc bad s) :=
  inv_ite (inv_placeTouch (inv_modTile h)) (inv_takeEntry h)
theorem inv_entryGoesOn {t : Nat} (h : Inv s) : Inv (entryGoesOn t s) := by
  unfold entryGoesOn
  split
  · exact inv_enter h
  · exact h
theorem inv_raiseSync {t vec detail : Nat} {word : Word} {next : Bool} (h : Inv s) : Inv (raiseSync t vec detail word next s) :=
  inv_enter (inv_modTile h)
theorem inv_eventEntry {t : Nat} {bad : Bool} (h : Inv s) : Inv (eventEntry t bad s) := by
  unfold eventEntry
  extract_lets x
  split
  · exact h
  · exact inv_ite h (inv_ite (inv_modTile h) (inv_enter h))
theorem keeps_execEventEntry {t : Fin 24} {bad : Bool} : Keeps s (execEventEntry t bad s) := keeps_next inv_eventEntry
theorem inv_holdEnd {t : Nat} (h : Inv s) : Inv (holdEnd t s) := by
  unfold holdEnd
  split
  · exact inv_modTile h
  · exact inv_modTile (inv_fault (inv_set (inv_bump (inv_raise h))))
theorem keeps_execHoldOverrun {t : Fin 24} : Keeps s (execHoldOverrun t s) := keeps_next fun h => inv_ite (inv_holdEnd h) h
theorem inv_postErr {t a : Nat} (h : Inv s) : Inv (postErr t a s) := inv_fault (inv_setN (inv_raise h))
theorem inv_wakeTimeout {t : Nat} (h : Inv s) : Inv (wakeTimeout t s) := by
  unfold wakeTimeout
  extract_lets x
  split
  · exact inv_when h (fun _ => inv_takeEntry)
  · exact inv_when h (fun _ h1 => inv_raiseSync (inv_when h1 (fun _ => inv_offAccess)))
  · exact inv_when h (fun _ h1 => inv_postErr (inv_modTile (inv_ite h1 (inv_offAccess h1))))
  · exact h
theorem inv_tileReset {t wait : Nat} (h : Inv s) : Inv (tileReset t wait s) := inv_modTile (inv_mk (inv_set (inv_resetRegs (inv_mk h))))
theorem keeps_execLockupTileReset {t : Fin 24} : Keeps s (execLockupTileReset t s) := by
  refine keeps_next fun h => ?_
  split
  · exact inv_ite (inv_tileReset h) h
  · exact h
theorem keeps_execTileResetRelease {t : Fin 24} : Keeps s (execTileResetRelease t s) :=
  keeps_next fun h => inv_ite (inv_mk (inv_modTile h)) h
theorem inv_tileEdge {t : Nat} (h : Inv s) : Inv (tileEdge t s) := by
  unfold tileEdge
  extract_lets x s1 s2 s3
  have h1 : Inv s1 := inv_modTile h
  have h2 : Inv s2 := inv_ite (inv_holdEnd h1) (inv_modTile h1)
  have h3 : Inv s3 := inv_modTile h2
  exact inv_ite h1 (inv_when h3 (fun _ => inv_entryGoesOn))

/-! ### Sys2Proof/Machine/Issue.lean -/

theorem inv_issueEdge {t : Nat} (h : Inv s) : Inv (issueEdge t s) := inv_modTile (inv_when h (fun _ => inv_countReg))
theorem inv_issue {t : Nat} {word : Word} {priv : Bool} {body : Tile → State → State} (h : Inv s) (hbody : ∀ x s, Inv s → Inv
    (body x s)) : Inv (issue t word priv body s) := by
  unfold issue
  refine inv_ite h ?_
  split
  · exact h
  · exact inv_raiseSync (inv_issueEdge (inv_drawn h))
  extract_lets s1 x
  have h1 : Inv s1 := inv_issueEdge h
  exact inv_ite (inv_raiseSync h1) (inv_ite (inv_raiseSync h1) (hbody _ _ h1))
theorem inv_issueOr {t : Nat} {word : Word} {body : Tile → State → Option State} (h : Inv s)
    (hb : ∀ x s', Inv s' → Inv ((body x s').getD s)) : Inv (issueOr t word body s) :=
  inv_issue h hb
theorem inv_goTo {t : Nat} {pc : Word} (h : Inv s) : Inv (goTo t pc s) := inv_modTile h
theorem inv_retire {t : Nat} (h : Inv s) : Inv (retire t s) := inv_goTo h
theorem inv_result {t : Nat} {ga : Fin 16} {v : Word} {sat : Bool} (h : Inv s) : Inv (result t ga v sat s) :=
  inv_retire (inv_modTile h)
theorem inv_aluR {t minor : Nat} {ga gb gc : Fin 16} {f : Word → Word → Word} (h : Inv s) : Inv (aluR t minor ga gb gc f s) :=
  inv_issue h (fun _ _ => inv_result)
theorem inv_aluSat {t minor : Nat} {ga gb gc : Fin 16} {f : Word → Word → Word × Bool} (h : Inv s) :
    Inv (aluSat t minor ga gb gc f s) :=
  inv_issue h (fun _ _ => inv_result)
theorem inv_aluI {t op : Nat} {ga gb : Fin 16} {imm : Nat} {f : Word → Word} (h : Inv s) : Inv (aluI t op ga gb imm f s) :=
  inv_issue h (fun _ _ => inv_result)
theorem inv_itcmFetch {t ecc : Nat} (h : Inv s) : Inv (itcmFetch t ecc s) := inv_eccEvent h
theorem inv_missFill {t ecc : Nat} (h : Inv s) : Inv (missFill t ecc s) := by
  unfold missFill
  extract_lets x a off held ecc1 s1 s2 s3
  have h1 : Inv s1 := inv_when h (fun _ => inv_countReg)
  have h2 : Inv s2 := inv_when h1 (fun _ h3 => inv_raise (inv_bump h3))
  have h3 : Inv s3 := inv_codeLineBad h2
  exact inv_ite h (inv_ite (inv_ite h (inv_itcmFetch h)) (inv_ite h (inv_ite (inv_ite (inv_modTile (inv_bump h)) h) (inv_ite h
      (inv_ite (inv_raiseSync (inv_drawn h3)) (inv_ite h2 (inv_modTile h2)))))))
theorem keeps_execIcacheMissFill {t : Fin 24} {ecc : Fin 4} : Keeps s (execIcacheMissFill t ecc s) := keeps_next inv_missFill
theorem keeps_execUndefinedInstruction {t : Fin 24} {w : Word} : Keeps s (execUndefinedInstruction t w s) :=
  keeps_next fun h => inv_ite (inv_issue h (fun _ _ h => h)) h

/-! ### Sys2Proof/Machine/MulDiv.lean -/

theorem inv_mulOp {t minor : Nat} {gb gc : Fin 16} {f : Word → Word → Int} (h : Inv s) : Inv (mulOp t minor gb gc f s) :=
  inv_issue h (fun _ _ h1 => inv_retire (inv_modTile h1))
theorem keeps_execMul {t : Fin 24} {gb gc : Fin 16} : Keeps s (execMul t gb gc s) := keeps_next inv_mulOp
theorem keeps_execMulu {t : Fin 24} {gb gc : Fin 16} : Keeps s (execMulu t gb gc s) := keeps_next inv_mulOp
theorem keeps_execMul16 {t : Fin 24} {gb gc : Fin 16} : Keeps s (execMul16 t gb gc s) := keeps_next inv_mulOp
theorem inv_macOp {t minor : Nat} {gb gc : Fin 16} {f : Word → Word → AccOp} (h : Inv s) : Inv (macOp t minor gb gc f s) :=
  inv_issue h (fun _ _ h1 => inv_retire (inv_modTile h1))
theorem keeps_execMac {t : Fin 24} {gb gc : Fin 16} : Keeps s (execMac t gb gc s) := keeps_next inv_macOp
theorem keeps_execMacu {t : Fin 24} {gb gc : Fin 16} : Keeps s (execMacu t gb gc s) := keeps_next inv_macOp
theorem keeps_execMsu {t : Fin 24} {gb gc : Fin 16} : Keeps s (execMsu t gb gc s) := keeps_next inv_macOp
theorem keeps_execMac16 {t : Fin 24} {gb gc : Fin 16} : Keeps s (execMac16 t gb gc s) := keeps_next inv_macOp
theorem keeps_execClra {t : Fin 24} : Keeps s (execClra t s) := keeps_next inv_macOp
theorem keeps_execLda {t : Fin 24} {gb : Fin 16} : Keeps s (execLda t gb s) := keeps_next inv_macOp
theorem inv_divOp {t minor : Nat} {signed : Bool} {gb gc : Fin 16} (h : Inv s) : Inv (divOp t minor signed gb gc s) :=
  inv_issue h (fun _ _ h1 => inv_retire (inv_modTile h1))
theorem keeps_execDiv {t : Fin 24} {gb gc : Fin 16} : Keeps s (execDiv t gb gc s) := keeps_next inv_divOp
theorem keeps_execDivu {t : Fin 24} {gb gc : Fin 16} : Keeps s (execDivu t gb gc s) := keeps_next inv_divOp
theorem keeps_execMulResult {t : Fin 24} : Keeps s (execMulResult t s) := keeps_next inv_modTile
theorem keeps_execMacResult {t : Fin 24} : Keeps s (execMacResult t s) := keeps_next inv_modTile
theorem keeps_execDivResult {t : Fin 24} : Keeps s (execDivResult t s) := keeps_next inv_modTile
theorem keeps_execMfs {t : Fin 24} {ga : Fin 16} {n : Fin 32} : Keeps s (execMfs t ga n s) :=
  keeps_next fun h => inv_issue h (fun _ _ h1 => inv_ite (inv_raiseSync h1) (inv_result (inv_modTile h1)))
theorem keeps_execMts {t : Fin 24} {ga : Fin 16} {n : Fin 32} : Keeps s (execMts t ga n s) :=
  keeps_next fun h => inv_issue h (fun _ _ h1 => inv_ite (inv_raiseSync h1) (inv_retire (inv_modTile h1)))
theorem keeps_execExta {t : Fin 24} {ga : Fin 16} {shift : Fin 64} {round : Bool} : Keeps s (execExta t ga shift round s) :=
  keeps_next fun h => inv_issue h (fun _ _ h1 => inv_result (inv_modTile h1))

/-! ### Sys2Proof/Machine/LoadStore.lean -/

theorem inv_readData {p : Place} {key n a : Nat} {m : Master} {ecc : Nat} (h : Inv s) : Inv (readData p key n a m ecc s).2 :=
  inv_eccEvent (inv_granted h)
theorem inv_waitWake {t detail : Nat} {word : Word} {a : Nat} {touch : State → State} (h : Inv s)
    (htouch : ∀ s, Inv s → Inv (touch s)) : Inv (waitWake t detail word a touch s) :=
  htouch _ (inv_modTile h)
theorem inv_loadAt {t : Nat} {word ea : Word} {ga : Fin 16} {n : Nat} {signed : Bool} {ecc : Nat} {x : Tile} {u : State} (h : Inv s)
    (hu : Inv u) : Inv ((loadAt t word ga ea n signed ecc x s).getD u) := by
  unfold loadAt
  split
  · exact inv_raiseSync h
  · exact inv_waitWake h (fun _ => inv_placeTouch)
  split
  · split
    rename_i s1 e
    exact inv_result (inv_snd_of_eq e (inv_readData h))
  split
  · exact hu
  · exact inv_modTile h
theorem inv_storeAt {t : Nat} {word v ea : Word} {n ecc : Nat} {x : Tile} {u : State} (h : Inv s) (hu : Inv u) :
    Inv ((storeAt t word v ea n ecc x s).getD u) := by
  unfold storeAt
  split
  · exact inv_raiseSync h
  · exact inv_waitWake h (fun _ => inv_placeTouch)
  split
  · exact inv_retire (inv_writeData h)
  split
  · exact hu
  · exact inv_retire (inv_modTile h)
theorem inv_loadI {t op : Nat} {ga gb : Fin 16} {imm : BitVec 18} {n : Nat} {signed : Bool} {ecc : Nat} (h : Inv s) :
    Inv (loadI t op ga gb imm n signed ecc s) :=
  inv_issueOr h (fun _ _ h1 => inv_loadAt h1 h)
theorem inv_storeI {t op : Nat} {ga gb : Fin 16} {imm : BitVec 18} {n ecc : Nat} (h : Inv s) : Inv (storeI t op ga gb imm n ecc s) :=
  inv_issueOr h (fun _ _ h1 => inv_storeAt h1 h)
theorem inv_loadX {t minor : Nat} {ga gb gc : Fin 16} {sh : Fin 4} {n : Nat} {signed : Bool} {ecc : Nat} (h : Inv s) :
    Inv (loadX t minor ga gb gc sh n signed ecc s) :=
  inv_issueOr h (fun _ _ h1 => inv_loadAt h1 h)
theorem inv_storeX {t minor : Nat} {ga gb gc : Fin 16} {sh : Fin 4} {n ecc : Nat} (h : Inv s) :
    Inv (storeX t minor ga gb gc sh n ecc s) :=
  inv_issueOr h (fun _ _ h1 => inv_storeAt h1 h)
theorem keeps_execLdw {t : Fin 24} {ga gb : Fin 16} {imm : BitVec 18} {ecc : Fin 3} : Keeps s (execLdw t ga gb imm ecc s) :=
  keeps_next inv_loadI
theorem keeps_execLdh {t : Fin 24} {ga gb : Fin 16} {imm : BitVec 18} {ecc : Fin 3} : Keeps s (execLdh t ga gb imm ecc s) :=
  keeps_next inv_loadI
theorem keeps_execLdhu {t : Fin 24} {ga gb : Fin 16} {imm : BitVec 18} {ecc : Fin 3} : Keeps s (execLdhu t ga gb imm ecc s) :=
  keeps_next inv_loadI
theorem keeps_execLdb {t : Fin 24} {ga gb : Fin 16} {imm : BitVec 18} {ecc : Fin 3} : Keeps s (execLdb t ga gb imm ecc s) :=
  keeps_next inv_loadI
theorem keeps_execLdbu {t : Fin 24} {ga gb : Fin 16} {imm : BitVec 18} {ecc : Fin 3} : Keeps s (execLdbu t ga gb imm ecc s) :=
  keeps_next inv_loadI
theorem keeps_execStw {t : Fin 24} {ga gb : Fin 16} {imm : BitVec 18} {ecc : Fin 3} : Keeps s (execStw t ga gb imm ecc s) :=
  keeps_next inv_storeI
theorem keeps_execSth {t : Fin 24} {ga gb : Fin 16} {imm : BitVec 18} {ecc : Fin 3} : Keeps s (execSth t ga gb imm ecc s) :=
  keeps_next inv_storeI
theorem keeps_execStb {t : Fin 24} {ga gb : Fin 16} {imm : BitVec 18} {ecc : Fin 3} : Keeps s (execStb t ga gb imm ecc s) :=
  keeps_next inv_storeI
theorem keeps_execLdxw {t : Fin 24} {ga gb gc : Fin 16} {sh : Fin 4} {ecc : Fin 3} : Keeps s (execLdxw t ga gb gc sh ecc s) :=
  keeps_next inv_loadX
theorem keeps_execLdxh {t : Fin 24} {ga gb gc : Fin 16} {sh : Fin 4} {ecc : Fin 3} : Keeps s (execLdxh t ga gb gc sh ecc s) :=
  keeps_next inv_loadX
theorem keeps_execLdxhu {t : Fin 24} {ga gb gc : Fin 16} {sh : Fin 4} {ecc : Fin 3} : Keeps s (execLdxhu t ga gb gc sh ecc s) :=
  keeps_next inv_loadX
theorem keeps_execLdxb {t : Fin 24} {ga gb gc : Fin 16} {sh : Fin 4} {ecc : Fin 3} : Keeps s (execLdxb t ga gb gc sh ecc s) :=
  keeps_next inv_loadX
theorem keeps_execLdxbu {t : Fin 24} {ga gb gc : Fin 16} {sh : Fin 4} {ecc : Fin 3} : Keeps s (execLdxbu t ga gb gc sh ecc s) :=
  keeps_next inv_loadX
theorem keeps_execStxw {t : Fin 24} {ga gb gc : Fin 16} {sh : Fin 4} {ecc : Fin 3} : Keeps s (execStxw t ga gb gc sh ecc s) :=
  keeps_next inv_storeX
theorem keeps_execStxh {t : Fin 24} {ga gb gc : Fin 16} {sh : Fin 4} {ecc : Fin 3} : Keeps s (execStxh t ga gb gc sh ecc s) :=
  keeps_next inv_storeX
theorem keeps_execStxb {t : Fin 24} {ga gb gc : Fin 16} {sh : Fin 4} {ecc : Fin 3} : Keeps s (execStxb t ga gb gc sh ecc s) :=
  keeps_next inv_storeX
theorem keeps_execIn {t : Fin 24} {ga gb : Fin 16} {imm : BitVec 18} : Keeps s (execIn t ga gb imm s) := by
  refine keeps_next fun h => inv_issueOr h (fun x s1 h1 => ?_)
  extract_lets ea
  split
  · exact inv_raiseSync h1
  · exact inv_waitWake h1 (fun _ => inv_domTouch)
  split
  · exact h
  · exact inv_modTile h1
theorem keeps_execOut {t : Fin 24} {ga gb : Fin 16} {imm : BitVec 18} : Keeps s (execOut t ga gb imm s) := by
  refine keeps_next fun h => inv_issueOr h (fun x s1 h1 => ?_)
  extract_lets ea
  split
  · exact inv_raiseSync h1
  · exact inv_waitWake h1 (fun _ => inv_domTouch)
  split
  · exact h
  · exact inv_retire (inv_modTile h1)
theorem inv_arriveStore {t : Nat} {m : Master} {a n : Nat} {v : Word} {ecc waited : Nat} {kept : Bool} (h : Inv s) :
    Inv (arriveStore t m a n v ecc waited kept s).2 := by
  unfold arriveStore
  split
  split
  split
  · exact inv_recordRefusal h
  split
  extract_lets s1
  have h1 : Inv s1 := inv_conflicts h
  split
  · exact inv_placeTouch h
  split
  · exact inv_when (inv_offAccess h) (fun _ => inv_placeTouch)
  split
  · exact inv_modTile (inv_placeTouch h)
  split
  · exact inv_mramRefused h
  split
  · exact h
  split
  · exact inv_eccEvent h1
  · exact inv_writeData h1

/-! ### Sys2Proof/Machine/Control.lean -/

theorem inv_branch {t op : Nat} {ga gb : Fin 16} {imm : BitVec 18} {c : Word → Word → Bool} (h : Inv s) :
    Inv (branch t op ga gb imm c s) :=
  inv_issue h (fun _ _ => inv_goTo)
theorem keeps_execBeq {t : Fin 24} {ga gb : Fin 16} {imm : BitVec 18} : Keeps s (execBeq t ga gb imm s) := keeps_next inv_branch
theorem keeps_execBne {t : Fin 24} {ga gb : Fin 16} {imm : BitVec 18} : Keeps s (execBne t ga gb imm s) := keeps_next inv_branch
theorem keeps_execBlt {t : Fin 24} {ga gb : Fin 16} {imm : BitVec 18} : Keeps s (execBlt t ga gb imm s) := keeps_next inv_branch
theorem keeps_execBge {t : Fin 24} {ga gb : Fin 16} {imm : BitVec 18} : Keeps s (execBge t ga gb imm s) := keeps_next inv_branch
theorem keeps_execBltu {t : Fin 24} {ga gb : Fin 16} {imm : BitVec 18} : Keeps s (execBltu t ga gb imm s) :=
  keeps_next inv_branch
theorem keeps_execBgeu {t : Fin 24} {ga gb : Fin 16} {imm : BitVec 18} : Keeps s (execBgeu t ga gb imm s) :=
  keeps_next inv_branch
theorem keeps_execDbnz {t : Fin 24} {ga : Fin 16} {imm : BitVec 18} : Keeps s (execDbnz t ga imm s) :=
  keeps_next fun h => inv_issue h (fun _ _ h1 => inv_goTo (inv_setG h1))
theorem keeps_execJ {t : Fin 24} {off : BitVec 26} : Keeps s (execJ t off s) := keeps_next fun h => inv_issue h (fun _ _ => inv_goTo)
theorem keeps_execJal {t : Fin 24} {off : BitVec 26} : Keeps s (execJal t off s) :=
  keeps_next fun h => inv_issue h (fun _ _ h1 => inv_goTo (inv_setG h1))
theorem keeps_execJr {t : Fin 24} {gb : Fin 16} : Keeps s (execJr t gb s) :=
  keeps_next fun h => inv_issue h (fun _ _ h1 => inv_ite (inv_raiseSync h1) (inv_goTo h1))
theorem keeps_execJalr {t : Fin 24} {ga gb : Fin 16} : Keeps s (execJalr t ga gb s) :=
  keeps_next fun h => inv_issue h (fun _ _ h1 => inv_ite (inv_raiseSync h1) (inv_goTo (inv_setG h1)))
theorem keeps_execNop {t : Fin 24} : Keeps s (execNop t s) := keeps_next fun h => inv_issue h (fun _ _ => inv_retire)
theorem keeps_execSync {t : Fin 24} : Keeps s (execSync t s) := keeps_next fun h => inv_ite (inv_issue h (fun _ _ => inv_retire)) h
theorem keeps_execWait {t : Fin 24} : Keeps s (execWait t s) :=
  keeps_next fun h => inv_issue h (fun _ _ h1 => inv_ite (inv_retire h1) (inv_modTile (inv_retire h1)))
theorem keeps_execTrap {t : Fin 24} {n : Fin 256} : Keeps s (execTrap t n s) :=
  keeps_next fun h => inv_issue h (fun _ _ => inv_raiseSync)
theorem keeps_execBrk {t : Fin 24} : Keeps s (execBrk t s) :=
  keeps_next fun h => inv_issue h (fun _ _ h1 => inv_ite (inv_modTile h1) (inv_raiseSync h1))
theorem keeps_execEi {t : Fin 24} : Keeps s (execEi t s) := keeps_next fun h => inv_issue h (fun _ _ h1 => inv_retire (inv_modTile h1))
theorem keeps_execDi {t : Fin 24} : Keeps s (execDi t s) := keeps_next fun h => inv_issue h (fun _ _ h1 => inv_retire (inv_modTile h1))
theorem keeps_execCinv {t : Fin 24} {gb : Fin 16} : Keeps s (execCinv t gb s) :=
  keeps_next fun h => inv_issue h (fun _ _ h1 => inv_retire (inv_modTile h1))
theorem keeps_execCinva {t : Fin 24} : Keeps s (execCinva t s) :=
  keeps_next fun h => inv_issue h (fun _ _ h1 => inv_retire (inv_modTile h1))
theorem keeps_execWcall {t : Fin 24} {n : Fin 256} : Keeps s (execWcall t n s) := by
  refine keeps_next fun h => ?_
  refine inv_issue h (fun x s1 h1 => ?_)
  split
  · exact inv_raiseSync h1
  · exact inv_ite (inv_raiseSync h1) (inv_modTile h1)
theorem keeps_execWret {t : Fin 24} : Keeps s (execWret t s) := by
  refine keeps_next fun h => ?_
  refine inv_issue h (fun x s1 h1 => ?_)
  split
  · exact inv_raiseSync h1
  · exact inv_ite (inv_raiseSync h1) (inv_ite (inv_raiseSync h1) (inv_modTile h1))
theorem inv_doReturn {t ecc : Nat} {x : Tile} (h : Inv s) : Inv (doReturn t ecc x s) := by
  unfold doReturn
  extract_lets w sp m
  split
  split
  rename_i s1 e
  have h1 : Inv s1 := inv_snd_of_eq e (inv_readData h)
  split
  rename_i s2 e1
  have h2 : Inv s2 := inv_snd_of_eq e1 (inv_readData h1)
  split
  rename_i s3 e2
  have h3 : Inv s3 := inv_snd_of_eq e2 (inv_readData h2)
  split
  rename_i s4 e3
  have h4 : Inv s4 := inv_snd_of_eq e3 (inv_readData h3)
  extract_lets s5 s6 pc wst prog s7 s8
  have h5 : Inv s5 := inv_when h4 (fun _ => inv_set)
  have h6 : Inv s6 := inv_modTile h5
  have h7 : Inv s7 := inv_set h6
  have h8 : Inv s8 := inv_modTile h7
  refine inv_ite (inv_modTile h6) ?_
  split
  · exact inv_modTile h8
  · exact inv_ite (inv_modTile h8) (inv_modTile h8)
theorem keeps_execEret {t : Fin 24} {ecc : Fin 3} : Keeps s (execEret t ecc s) := by
  refine keeps_next fun h => ?_
  refine inv_issue h (fun x s1 h1 => ?_)
  extract_lets sp gated p
  refine inv_ite (inv_raiseSync h1) (inv_ite (inv_raiseSync h1) ?_)
  split
  exact inv_ite (inv_raiseSync h1) (inv_ite (inv_ite (inv_waitWake h1 (fun _ => inv_placeTouch)) (inv_raiseSync h1)) (inv_ite
      (inv_placeTouch h) (inv_doReturn h1)))

/-! ### Sys2Proof/Machine/Long.lean -/

theorem inv_longDone {t : Nat} (h : Inv s) : Inv (longDone t s) := inv_retire (inv_modTile h)
theorem inv_longIssue {t kind minor : Nat} {ga gb gc : Fin 16} (h : Inv s) : Inv (longIssue t kind minor ga gb gc s) :=
  inv_issue h (fun _ _ h1 => inv_ite (inv_longDone (inv_modTile h1)) (inv_modTile (inv_modTile h1)))
theorem keeps_execBmov {t : Fin 24} {ga gb gc : Fin 16} {width : Fin 3} : Keeps s (execBmov t ga gb gc width s) :=
  keeps_next inv_longIssue
theorem keeps_execBfil {t : Fin 24} {ga gb gc : Fin 16} {width : Fin 3} : Keeps s (execBfil t ga gb gc width s) :=
  keeps_next inv_longIssue
theorem keeps_execBcrc {t : Fin 24} {ga gb gc : Fin 16} {poly : Fin 3} : Keeps s (execBcrc t ga gb gc poly s) :=
  keeps_next inv_longIssue
theorem keeps_execBcmp {t : Fin 24} {ga gb gc : Fin 16} {width : Fin 3} : Keeps s (execBcmp t ga gb gc width s) :=
  keeps_next inv_longIssue
theorem keeps_execBdot {t : Fin 24} {ga gb gc : Fin 16} : Keeps s (execBdot t ga gb gc s) := keeps_next inv_longIssue
theorem inv_elementRead {t : Nat} {x : Tile} {a n ecc waited : Nat} (h : Inv s) : Inv (elementRead t x a n ecc waited s).2 := by
  unfold elementRead
  split
  exact inv_readData (inv_conflicts h)
theorem inv_elementEnd {t : Nat} {l : Long} {count : Nat} (h : Inv s) : Inv (elementEnd t l count s) :=
  inv_ite (inv_longDone (inv_modTile h)) (inv_modTile h)
theorem inv_longElement {t e1 e2 : Nat} {waited : Nat × Nat} (h : Inv s) : Inv (longElement t e1 e2 waited s) := by
  unfold longElement
  extract_lets x k
  split
  · exact h
  rename_i l _
  extract_lets w count a b accesses places store stored
  have hstore : ∀ v ecc waited s1, Inv s1 → Inv (store v ecc waited s1).2 := by
    intro v ecc waited s1 h1
    unfold store
    split
    split
    · exact inv_writeData h1
    · exact inv_arriveStore h1
  have hstored : ∀ r s1, Inv r.2 → Inv s1 → Inv (stored r s1) := by
    intro r s1 hr h1
    unfold stored
    split
    · exact inv_elementEnd hr
    · exact h1
    · exact inv_elementEnd (inv_postErr hr)
  refine inv_ite h ?_
  split
  · exact inv_raiseSync (inv_modTile h)
  · exact inv_waitWake h (fun _ => inv_placeTouch)
  refine inv_ite h (inv_ite (inv_forEach h (fun _ _ => inv_placeTouch)) ?_)
  split
  · split
    rename_i s1 e
    exact hstored _ _ (hstore _ _ _ _ (inv_snd_of_eq e (inv_elementRead h))) h
  · exact hstored _ _ (hstore _ _ _ _ h) h
  · split
    rename_i s1 e
    exact inv_elementEnd (inv_setG (inv_snd_of_eq e (inv_elementRead h)))
  · split
    rename_i s1 e
    have h1 : Inv s1 := inv_snd_of_eq e (inv_elementRead h)
    split
    rename_i s2 e
    have h2 : Inv s2 := inv_snd_of_eq e (inv_elementRead h1)
    exact inv_ite (inv_longDone h2) (inv_elementEnd h2)
  · split
    rename_i s1 e
    have h1 : Inv s1 := inv_snd_of_eq e (inv_elementRead h)
    split
    rename_i s2 e
    exact inv_elementEnd (inv_modTile (inv_snd_of_eq e (inv_elementRead h1)))
theorem keeps_execLongElement {t : Fin 24} {e1 e2 : Fin 3} {waited : Nat × Nat} : Keeps s (execLongElement t e1 e2 waited s) :=
  keeps_next inv_longElement

/-! ### Sys2Proof/Machine/DmaCtl.lean -/

theorem inv_chTo {d st : Nat} (h : Inv s) : Inv (chTo d st s) := inv_set h
theorem inv_modDma {d : Nat} {f : DmaH → DmaH} (h : Inv s) : Inv (s.modDma d f) := inv_mk h
theorem inv_chResult {d n : Nat} (h : Inv s) : Inv (chResult d n s) := inv_set h
theorem inv_chRaise {d kind : Nat} (h : Inv s) : Inv (chRaise d kind s) := by
  unfold chRaise
  extract_lets c k
  refine inv_ite (inv_raise h) ?_
  split
  · exact inv_raise h
  · exact inv_raise h
  · exact inv_raise h
  · exact h
theorem inv_chDone {d code : Nat} (h : Inv s) : Inv (chDone d code s) := inv_chRaise (inv_set (inv_chTo h))
theorem inv_chDisable {d : Nat} {drain : Bool} {inflight : Nat} (h : Inv s) : Inv (chDisable d drain inflight s) := by
  unfold chDisable
  split
  · exact inv_chDone h
  · exact inv_modDma (inv_chTo h)
  · exact inv_chDone h
  · exact inv_chDone h
  · exact inv_chDone h
  · exact inv_chResult h
theorem inv_claimChannel {c : Nat} (h : Inv s) : Inv (claimChannel c s) := by
  unfold claimChannel
  extract_lets d s1 s2 st
  have h1 : Inv s1 := inv_raise (inv_raise h)
  have h2 : Inv s2 := inv_raise h1
  exact inv_ite (inv_chDisable h2) (inv_ite (inv_chDisable h2) (inv_ite (inv_chDone h2) h2))
theorem inv_startCopy {c g : Nat} (h : Inv s) : Inv (startCopy c g s) := inv_ite (inv_modDma (inv_setN (inv_set (inv_chTo h)))) h
theorem inv_releaseChannel {c : Nat} (h : Inv s) : Inv (releaseChannel c s) :=
  inv_ite (inv_raise (inv_modDma (inv_chTo (inv_set (inv_set h))))) h

/-! ### Sys2Proof/Machine/Omtas.lean -/

theorem inv_advanceRole {r : Nat} (h : Inv s) : Inv (advanceRole r s) := inv_set h
theorem inv_advanceGroupRoles {g : Nat} (h : Inv s) : Inv (advanceGroupRoles g s) :=
  inv_forEach h (fun _ _ h1 => inv_when h1 (fun _ => inv_advanceRole))
theorem inv_withdrawRoles {t : Nat} (h : Inv s) : Inv (withdrawRoles t s) :=
  inv_forEach h (fun _ _ h1 => inv_when h1 (fun _ h2 => inv_raise (inv_advanceRole h2)))
theorem inv_modGrp {g : Nat} {f : GrpH → GrpH} (h : Inv s) : Inv (s.modGrp g f) := inv_mk h
theorem inv_modOmt {f : OmtH → OmtH} (h : Inv s) : Inv (s.modOmt f) := inv_mk h
theorem inv_takeId {t w : Nat} (h : Inv s) : Inv (takeId t w s).2 := inv_set h
theorem inv_omtSend {t w : Nat} (h : Inv s) : Inv (omtSend t w s) := by
  unfold omtSend
  extract_lets w0 result
  have hresult : ∀ n s1, Inv s1 → Inv (result n s1) := fun _ _ h1 => inv_set h1
  refine inv_ite (hresult _ _ h) (inv_ite (hresult _ _ h) (inv_ite (hresult _ _ h) ?_))
  split
  rename_i s1 e
  have h1 : Inv s1 := inv_snd_of_eq e (inv_takeId h)
  exact inv_raise (hresult _ _ (inv_modOmt h1))
theorem keeps_execOmtTxGo {t : Fin 24} {w : Fin 2} : Keeps s (execOmtTxGo t w s) := keeps_next fun h => inv_ite (inv_omtSend h) h
theorem inv_omtTaken {t w : Nat} (h : Inv s) : Inv (omtTaken t w s) := by
  unfold omtTaken
  split
  · exact h
  · exact inv_raise (inv_set (inv_modOmt h))
theorem keeps_execOmtTxDone {t : Fin 24} {w : Fin 2} : Keeps s (execOmtTxDone t w s) :=
  keeps_next fun h => inv_inCore h (fun _ h1 => inv_ite (inv_omtTaken h1) h1)
theorem inv_nackIn {t w rec : Nat} (h : Inv s) : Inv (nackIn t w rec s) := inv_modOmt h
theorem inv_shelve {m : Msg} {cause : Nat} (h : Inv s) : Inv (shelve m cause s) := by
  unfold shelve
  extract_lets c s1 s2
  have h1 : Inv s1 := inv_modOmt h
  have h2 : Inv s2 := inv_raise (inv_bump h1)
  split
  · exact inv_nackIn (inv_raise (inv_modOmt h1))
  · exact inv_nackIn h2
theorem inv_deliver {q vis : Nat} {m : Msg} (h : Inv s) : Inv (deliver q vis m s) := inv_modOmt h
theorem inv_modFlight {m : Msg} {f : Flight → Flight} (h : Inv s) : Inv (modFlight m f s) :=
  inv_modOmt h
theorem inv_arrival {t w id k : Nat} {fabric : Bool} (h : Inv s) : Inv (arrival t w id k fabric s) := by
  unfold arrival
  split
  · exact h
  extract_lets m r u q g u1
  refine inv_ite (inv_shelve (inv_retryFail h)) ?_
  split
  · exact inv_shelve h
  · exact inv_ite (inv_ite h (inv_ite (inv_shelve h) (inv_ite (inv_modFlight h) (inv_deliver (inv_modOmt h))))) (inv_ite h (inv_ite
        (inv_shelve h) (inv_ite (inv_shelve h) (inv_ite (inv_shelve h) (inv_modFlight h)))))
theorem keeps_execMessageArrival {t : Fin 24} {w : Fin 2} {id : Fin 65536} {k : Fin 3} {fabric : Bool} :
    Keeps s (execMessageArrival t w id k fabric s) :=
  keeps_next fun h => inv_inCore h (fun _ => inv_arrival)
theorem inv_queueTimeout {t w id : Nat} (h : Inv s) : Inv (queueTimeout t w id s) := by
  unfold queueTimeout
  split
  · exact h
  split
  · exact h
  · exact inv_ite (inv_shelve h) h
theorem keeps_execQueueFull {t : Fin 24} {w : Fin 2} {id : Fin 65536} : Keeps s (execQueueFull t w id s) :=
  keeps_next fun h => inv_inCore h (fun _ => inv_queueTimeout)
theorem inv_msgVisible {t w id k : Nat} (h : Inv s) : Inv (msgVisible t w id k s) := by
  unfold msgVisible
  split
  · exact h
  extract_lets m r gi g cur q vis earlier s1 shown
  have h1 : Inv s1 := inv_deliver h
  refine inv_ite h ?_
  split
  · exact inv_shelve h
  · exact inv_ite h (inv_ite (inv_shelve h) (inv_ite (inv_modOmt h1) (inv_modFlight h1)))
theorem keeps_execMessageVisible {t : Fin 24} {w : Fin 2} {id : Fin 65536} {k : Fin 3} : Keeps s (execMessageVisible t w id k s) :=
  keeps_next fun h => inv_inCore h (fun _ => inv_msgVisible)
theorem inv_rxPop {t w q : Nat} (h : Inv s) : Inv (rxPop t w q s) := inv_modOmt h
theorem keeps_execOmtRxPop {t : Fin 24} {w : Fin 2} {q : Fin 4} : Keeps s (execOmtRxPop t w q s) :=
  keeps_next fun h => inv_inCore h (fun _ => inv_rxPop)
theorem inv_nackPop {t w : Nat} (h : Inv s) : Inv (nackPop t w s) := inv_modOmt h
theorem keeps_execOmtNackPop {t : Fin 24} {w : Fin 2} : Keeps s (execOmtNackPop t w s) :=
  keeps_next fun h => inv_inCore h (fun _ => inv_nackPop)
theorem inv_shelfDrop {c i : Nat} (h : Inv s) : Inv (shelfDrop c i s) := inv_modOmt h
theorem inv_shelfResult {c t n : Nat} (h : Inv s) : Inv (shelfResult c t n s) := inv_modOmt h
theorem inv_shelfResend {c i gen t w : Nat} (h : Inv s) : Inv (shelfResend c i gen t w s) := by
  unfold shelfResend
  split
  · split
    rename_i s1 e
    have h1 : Inv s1 := inv_snd_of_eq e (inv_takeId (inv_shelfDrop h))
    exact inv_shelfResult (inv_raise (inv_modOmt h1))
  · exact inv_shelfResult h
theorem inv_shelfDiscard {c i t w : Nat} (h : Inv s) : Inv (shelfDiscard c i t w s) := by
  unfold shelfDiscard
  split
  · exact inv_shelfResult (inv_shelfDrop h)
  · exact inv_shelfResult h
theorem keeps_execResend {t : Fin 24} {w : Fin 2} {c : Fin 6} {i : Fin 64} {gen : Fin 256} : Keeps s (execResend t w c i gen s) :=
  keeps_next fun h => inv_ite (inv_shelfResend h) h
theorem keeps_execDiscard {t : Fin 24} {w : Fin 2} {c : Fin 6} {i : Fin 64} : Keeps s (execDiscard t w c i s) :=
  keeps_next fun h => inv_ite (inv_shelfDiscard h) h

/-! ### Sys2Proof/Machine/Vote.lean -/

theorem inv_gatesRaise {gates : List Nat} {bit : Nat} (h : Inv s) : Inv (gatesRaise gates bit s) := inv_forEach h (fun _ _ => inv_raise)
theorem inv_voteRaise {g bit : Nat} (h : Inv s) : Inv (voteRaise g bit s) := inv_gatesRaise h
theorem inv_applyVoted (h : Inv s) : Inv (applyVoted s) := by
  unfold applyVoted
  extract_lets l before s1 s2
  have h1 : Inv s1 := inv_forEach h (fun _ _ h2 => inv_ite h2 (inv_showVoted h2))
  have h2 : Inv s2 := inv_forEach h1 (fun _ _ h3 => inv_ite h3 (inv_setN (inv_setN h3)))
  exact inv_forEach h2 (fun _ _ h3 => inv_ite h3 (inv_refreshFrom (inv_modBall h3)))
theorem inv_cfgFail {g p : Nat} {aux : Bool} (h : Inv s) : Inv (cfgFail g p aux s) := inv_voteRaise (inv_modGrp h)
theorem inv_cfgJudge {g p : Nat} {aux : Bool} (h : Inv s) : Inv (cfgJudge g p aux s) := by
  unfold cfgJudge
  extract_lets mine cur s1
  have h1 : Inv s1 := inv_modGrp h
  split
  · exact h
  split
  · exact h
  · exact inv_ite h (inv_ite (inv_cfgFail h) (inv_applyVoted (inv_modGrp h1)))
theorem inv_cfgLeave {g k : Nat} (h : Inv s) : Inv (cfgLeave g k s) :=
  inv_forEach h (fun _ _ h1 => inv_ite (inv_cfgFail h1) (inv_cfgJudge (inv_modGrp h1)))
theorem inv_takeoverFailed {g cause : Nat} (h : Inv s) : Inv (takeoverFailed g cause s) := inv_fault (inv_voteRaise (inv_modGrp h))
theorem inv_nextCopy {c : Nat} (h : Inv s) : Inv (nextCopy c s) := by
  unfold nextCopy
  split
  · exact inv_startCopy h
  · exact h
theorem inv_releaseClaim {g : Nat} (h : Inv s) : Inv (releaseClaim g s) :=
  inv_ite (inv_releaseChannel h) (inv_ite (inv_modDma (inv_chTo h)) h)
theorem inv_abandon {g cause : Nat} (h : Inv s) : Inv (abandon g cause s) :=
  inv_ite h (inv_nextCopy (inv_progress (inv_takeoverFailed (inv_modGrp (inv_releaseClaim h)))))
theorem inv_pinTile {t : Nat} (h : Inv s) : Inv (pinTile t s) := inv_modTile (inv_tileReset h)
theorem inv_takeoverBegin {g slot spare cause : Nat} (h : Inv s) : Inv (takeoverBegin g slot spare cause s) := by
  unfold takeoverBegin
  extract_lets donor s1 s2 c
  have h1 : Inv s1 := inv_modGrp h
  have h2 : Inv s2 := inv_progress (inv_voteRaise (inv_pinTile h1))
  exact inv_ite (inv_claimChannel h2) (inv_raise h2)
theorem inv_takeoverStart {g slot : Nat} {again : Bool} (h : Inv s) : Inv (takeoverStart g slot again s) := by
  unfold takeoverStart
  split
  · exact h
  refine inv_ite h ?_
  split
  · exact inv_when h (fun _ => inv_takeoverFailed)
  · exact inv_ite (inv_when h (fun _ => inv_takeoverFailed)) (inv_takeoverBegin h)
theorem inv_safeEntry {g cause : Nat} (h : Inv s) : Inv (safeEntry g cause s) := inv_abandon (inv_voteRaise (inv_modGrp h))
theorem inv_enterSafeAll {l : List (Nat × Nat)} (h : Inv s) : Inv (enterSafeAll l s) :=
  inv_forEach (inv_forEach h (fun _ _ => inv_safeEntry)) (fun _ _ => inv_fault)
theorem inv_enterSafe {g cause : Nat} (h : Inv s) : Inv (enterSafe g cause s) := inv_enterSafeAll h
theorem inv_brandTile {g t : Nat} (h : Inv s) : Inv (brandTile g t s) :=
  inv_pinTile (inv_fault (inv_withdrawRoles (inv_advanceGroupRoles (inv_mk h))))
theorem inv_leaveGroup {g k : Nat} (h : Inv s) : Inv (leaveGroup g k s) := inv_modGrp h
theorem inv_markSuspect {g k : Nat} (h : Inv s) : Inv (markSuspect g k s) := by
  unfold markSuspect
  extract_lets r t was restart slot s1 s2 s3 safe s4
  have h1 : Inv s1 := inv_brandTile (inv_voteRaise h)
  have h2 : Inv s2 := by
    unfold s2
    split
    · exact inv_abandon h1
    · exact h1
  have h3 : Inv s3 := inv_cfgLeave (inv_leaveGroup h2)
  have h4 : Inv s4 := inv_takeoverStart (inv_when h3 (fun _ => inv_safeEntry))
  exact inv_ite h (inv_when h4 (fun _ => inv_fault))
theorem inv_markTile {g t : Nat} {gates : List Nat} (h : Inv s) : Inv (markTile g t gates s) := by
  unfold markTile
  split
  · exact inv_ite h (inv_brandTile (inv_gatesRaise h))
  refine inv_forEach h (fun o s1 h1 => ?_)
  split
  · exact inv_markSuspect h1
  · exact h1
theorem inv_adoptGate {g n m : Nat} (h : Inv s) : Inv (adoptGate g n m s) := inv_modGrp h
theorem inv_join {g : Nat} {seqs : List Nat} (h : Inv s) : Inv (join g seqs s) := by
  unfold join
  extract_lets r c s1
  have h1 : Inv s1 := inv_progress (inv_releaseClaim h)
  split
  · exact h
  extract_lets s2 s3 s4 s5
  have h2 : Inv s2 := inv_adoptGate h1
  have h3 : Inv s3 := inv_modGrp h2
  have h4 : Inv s4 := inv_modTile h3
  have h5 : Inv s5 := inv_voteRaise (inv_advanceGroupRoles h4)
  exact inv_nextCopy (inv_forEach h5 (fun _ _ => inv_bump))
theorem keeps_execSpareRelease {g : Fin 12} : Keeps s (execSpareRelease g s) := by
  refine keeps_next fun h => ?_
  refine inv_inCore h (fun s1 h1 => ?_)
  split
  · exact h1
  · exact inv_ite h1 (inv_raise (inv_raise (inv_modTile (inv_modGrp h1))))
theorem inv_putCmp {g : Nat} {c : Cmp} (h : Inv s) : Inv (putCmp g c s) := inv_modGrp h
theorem inv_recordDecision {g : Nat} {c : Cmp} {cause : Nat} (h : Inv s) : Inv (recordDecision g c cause s) := by
  unfold recordDecision
  extract_lets present id val tiles s1 gates
  have h1 : Inv s1 := inv_forEach h (fun _ _ h2 => inv_ite (inv_setN (inv_forEach (inv_setN h2) (fun _ _ => inv_setReg))) (inv_bump
      (inv_setN (inv_forEach (inv_setN h2) (fun _ _ => inv_setReg)))))
  exact inv_ite (inv_gatesRaise h1) (inv_fault (inv_gatesRaise h1))
theorem inv_noteVerdict {g : Nat} {c : Cmp} {code : Nat} {v : Word} (h : Inv s) : Inv (noteVerdict g c code v s) :=
  inv_ite h (inv_ite (inv_modGrp h) (inv_modGrp h))
theorem inv_markSlot {g : Nat} {c : Cmp} {k : Nat} (h : Inv s) : Inv (markSlot g c k s) :=
  inv_ite (inv_markTile h) (inv_markSuspect h)
theorem inv_thirdDecided {g : Nat} {c : Cmp} {k code : Nat} (h : Inv s) : Inv (thirdDecided g c k code s) := by
  unfold thirdDecided
  extract_lets lead s1
  have h1 : Inv s1 := inv_progress (inv_noteVerdict (inv_putCmp h))
  exact inv_ite h1 (inv_markSlot (inv_recordDecision h1))
theorem inv_evalCmp {g : Nat} {c : Cmp} (h : Inv s) : Inv (evalCmp g c s) := by
  unfold evalCmp
  extract_lets d cur n ws lead full c1 release agreed s1 many s2
  have hrelease : ∀ w agree s3, Inv s3 → Inv (release w agree s3) := fun _ _ _ h1 => inv_progress (inv_noteVerdict (inv_putCmp h1))
  have h1 : Inv s1 := inv_progress (inv_noteVerdict (inv_putCmp h))
  have h2 : Inv s2 := inv_progress (inv_noteVerdict (inv_putCmp h))
  refine inv_ite (inv_ite h ?_) (inv_ite h (inv_ite ?_ ?_))
  · split
    · exact inv_putCmp h
    split
    · exact inv_thirdDecided h
    · exact inv_when h (fun _ => inv_thirdDecided)
  · clear_value agreed
    clear_value ws
    split
    · exact hrelease _ _ _ h
    · exact inv_ite h (inv_when h1 (fun _ => inv_recordDecision))
  split
  · exact hrelease _ _ _ h
  · exact inv_ite (inv_ite (inv_enterSafe (inv_recordDecision h2)) h2) h
theorem inv_releaseFrame {g : Nat} {c : Cmp} {v : Word} (h : Inv s) : Inv (releaseFrame g c v s) :=
  inv_ite (inv_voteRaise h) (inv_modGrp h)
theorem inv_outArrive {o : VoteOut} (h : Inv s) : Inv (outArrive o s) := by
  unfold outArrive
  extract_lets gpio base
  have hgpio : ∀ f, Inv (gpio f) := fun _ => inv_forEach (inv_setN h) (fun _ _ h1 => inv_ite (inv_refreshBall (inv_modBall h1)) h1)
  split
  · exact hgpio _
  · exact hgpio _
  · exact inv_ite (inv_edgRelease h) (inv_ite (inv_retryFail h) (inv_mk h))
theorem inv_voteCycle (h : Inv s) : Inv (voteCycle s) := by
  unfold voteCycle
  extract_lets now l s1 here arrived base s2
  have h1 : Inv s1 := inv_when h (fun _ h2 => inv_forEach (inv_mk h2) (fun _ _ => inv_outArrive))
  have h2 : Inv s2 := inv_mk h1
  exact inv_ite h1 (inv_when h2 (fun _ => inv_applyVoted))
theorem inv_releaseTo {g : Nat} {c : Cmp} {v : Word} (h : Inv s) : Inv (releaseTo g c v s) := by
  unfold releaseTo
  extract_lets r kind index aux s1 out send
  have h1 : Inv s1 := inv_when h (fun _ => inv_modGrp)
  have hsend : Inv (send s1) := inv_mk h1
  clear_value kind send s1
  split
  · exact inv_ite hsend h1
  · exact inv_ite hsend h1
  · exact inv_ite hsend h1
  · exact inv_ite (inv_adcVoted h1) h1
  · exact inv_releaseFrame h1
  · exact h1
theorem inv_markAgreed {g : Nat} {c : Cmp} (h : Inv s) : Inv (markAgreed g c s) := by
  unfold markAgreed
  extract_lets s1 seqs
  have h1 : Inv s1 := inv_modGrp h
  split
  · exact inv_startCopy (inv_progress (inv_modGrp h1))
  · exact inv_join h1
  · exact h1
theorem inv_controlAgreed {g : Nat} {v : Word} (h : Inv s) : Inv (controlAgreed g v s) := inv_ite (inv_modGrp h) (inv_voteRaise h)
theorem inv_passTag {g : Nat} {c : Cmp} (h : Inv s) : Inv (passTag g c s) := by
  unfold passTag
  split
  · exact h
  · exact inv_ite (inv_markAgreed h) (inv_ite (inv_controlAgreed h) (inv_ite (inv_releaseTo h) h))
theorem inv_flushPort {g n p fuel : Nat} (h : Inv s) : Inv (flushPort g n p fuel s) := by
  induction fuel generalizing s with
  | zero => exact h
  | succ fuel ih =>
    unfold flushPort
    extract_lets r tag s1
    have h1 : Inv s1 := inv_modGrp h
    split
    · exact h
    extract_lets s2 r2 first s3
    have h3 : Inv s3 := inv_when (inv_putCmp h1) (fun _ h => inv_passTag (inv_modGrp h))
    exact inv_ite h (ih h3)
theorem inv_flushApart {g fuel : Nat} (h : Inv s) : Inv (flushApart g fuel s) := by
  induction fuel generalizing s with
  | zero => exact h
  | succ fuel ih =>
    unfold flushApart
    extract_lets l first
    split
    · exact h
    · exact ih (inv_when (inv_putCmp h) (fun _ => inv_passTag))
theorem inv_flushAll {g : Nat} (h : Inv s) : Inv (flushAll g s) :=
  inv_forEach (inv_when h (fun _ => inv_flushApart)) (fun _ _ => inv_flushPort)
theorem inv_judgeAll {g : Nat} (h : Inv s) : Inv (judgeAll g s) := by
  unfold judgeAll
  refine inv_forEach h (fun c s1 h1 => ?_)
  split
  · exact inv_evalCmp h1
  · exact h1
theorem inv_judgeOn {g fuel : Nat} (h : Inv s) : Inv (judgeOn g fuel s) := by
  induction fuel generalizing s with
  | zero => exact h
  | succ fuel ih =>
    unfold judgeOn
    exact inv_ite (inv_judgeAll h) (ih (inv_judgeAll h))
theorem inv_settle {g : Nat} (h : Inv s) : Inv (settle g s) :=
  inv_ite (inv_flushAll (inv_judgeOn h)) (inv_forEach (inv_flushAll (inv_judgeOn h)) (fun _ _ h1 => inv_flushAll (inv_judgeOn h1)))
theorem inv_joinCmp {g : Nat} {c : Cmp} {w : VoteW} (h : Inv s) : Inv (joinCmp g c w s) :=
  inv_settle (inv_putCmp h)
theorem inv_arrive {g n p tag : Nat} {w : VoteW} (h : Inv s) : Inv (arrive g n p tag w s) := by
  unfold arrive
  extract_lets r fresh
  refine inv_ite h (inv_ite h (inv_ite (inv_raise h) ?_))
  split
  · exact inv_joinCmp h
  · exact inv_joinCmp (inv_modGrp h)
theorem inv_strayArrive {g n p tag : Nat} {w : VoteW} (h : Inv s) : Inv (strayArrive g n p tag w s) := by
  unfold strayArrive
  split
  · exact inv_joinCmp h
  · exact h
theorem inv_voteWrite {t g p : Nat} {v : Word} (h : Inv s) : Inv (voteWrite t g p v s).2 := by
  unfold voteWrite
  extract_lets n r
  split
  · exact inv_raise h
  extract_lets tag s1 seqs w s2
  have h1 : Inv s1 := inv_modGrp h
  have h2 : Inv s2 := inv_modGrp h1
  split
  · exact inv_raise h
  · exact inv_arrive h2
theorem keeps_execVoteWrite {t : Fin 24} {g : Fin 12} {p : Fin 32} {v : Word} : Keeps s (execVoteWrite t g p v s) := by
  refine keeps_next fun h => ?_
  refine inv_ite h ?_
  split
  · rename_i s1 e
    have h1 : Inv s1 := inv_snd_of_eq e (inv_voteWrite h)
    exact inv_postErr h1
  rename_i s2 e1
  have h2 : Inv s2 := inv_snd_of_eq e1 (inv_voteWrite h)
  exact h2
theorem keeps_execVoteWriteArrival {g : Fin 12} {c : Fin 6} {p : Fin 32} {tag : Fin 65536} {k : Fin 3} :
    Keeps s (execVoteWriteArrival g c p tag k s) := by
  refine keeps_next fun h => ?_
  refine inv_inCore h (fun s1 h1 => ?_)
  split
  · exact inv_arrive (inv_modGrp h1)
  split
  · exact h1
  · exact inv_strayArrive (inv_modGrp h1)
theorem inv_finalize {g n p tag : Nat} (h : Inv s) : Inv (finalize g n p tag s) := by
  unfold finalize
  extract_lets r
  split
  · exact h
  · exact inv_ite h (inv_settle (inv_putCmp h))
theorem keeps_execFinalize {g : Fin 12} {c : Fin 6} {p : Fin 32} {tag : Fin 65536} : Keeps s (execFinalize g c p tag s) :=
  keeps_next fun h => inv_inCore h (fun _ => inv_finalize)
theorem inv_verdictReceive {g n p tag : Nat} (h : Inv s) : Inv (verdictReceive g n p tag s) := by
  unfold verdictReceive
  extract_lets hit
  split
  · exact inv_ite (inv_modGrp h) (inv_enterSafe (inv_fault (inv_bump (inv_raise (inv_modGrp h)))))
  · exact inv_ite (inv_modGrp h) h
  · exact h
theorem keeps_execVerdictReceive {g : Fin 12} {c : Fin 6} {p : Fin 32} {tag : Fin 65536} : Keeps s (execVerdictReceive g c p tag s) :=
  keeps_next fun h => inv_inCore h (fun _ => inv_verdictReceive)
theorem inv_cfgWrite {t g p : Nat} {aux : Bool} {w : Nat} {v : Word} (h : Inv s) : Inv (cfgWrite t g p aux w v s) := by
  unfold cfgWrite
  split
  · exact inv_ite h (inv_ite (inv_modGrp h) (inv_cfgJudge (inv_modGrp (inv_when h (fun _ => inv_cfgFail)))))
  · exact h
theorem keeps_execVotePortCfg {t : Fin 24} {g : Fin 12} {p : Fin 32} {aux : Bool} {w : Fin 2} {v : Word} :
    Keeps s (execVotePortCfg t g p aux w v s) :=
  keeps_next fun h => inv_ite (inv_cfgWrite h) h
theorem keeps_execCfgVoteTimeout {g : Fin 12} {p : Fin 32} {aux : Bool} : Keeps s (execCfgVoteTimeout g p aux s) :=
  keeps_next fun h => inv_inCore h (fun _ h1 => inv_ite (inv_cfgFail h1) h1)
theorem inv_takeCtl {g code : Nat} {t : State} (h : Inv s) (e : takeCtl g code s = some t) : Inv t := by
  unfold takeCtl at e
  split at e
  · split at e
    · cases e
      exact inv_modGrp h
    · cases e
  · cases e
theorem inv_release {g : Nat} (h : Inv s) : Inv (release g s) :=
  inv_ite h (inv_ite (inv_voteRaise (inv_applyVoted (inv_modGrp h))) (inv_voteRaise h))
theorem keeps_execRelease {g : Fin 12} : Keeps s (execRelease g s) := by
  refine keeps_next fun h => ?_
  refine inv_inCore h (fun s1 h1 => ?_)
  split
  · rename_i s2 e
    have h2 : Inv s2 := inv_takeCtl h1 e
    exact inv_release h2
  · exact h1
theorem keeps_execLock {g : Fin 12} : Keeps s (execLock g s) := by
  refine keeps_next fun h => ?_
  refine inv_inCore h (fun s1 h1 => ?_)
  split
  · rename_i s2 e
    have h2 : Inv s2 := inv_takeCtl h1 e
    exact inv_modGrp h2
  · exact h1
theorem keeps_execGoSafe {g : Fin 12} : Keeps s (execGoSafe g s) := by
  refine keeps_next fun h => ?_
  refine inv_inCore h (fun s1 h1 => ?_)
  split
  · rename_i s2 e
    have h2 : Inv s2 := inv_takeCtl h1 e
    exact inv_enterSafe h2
  · exact h1
theorem inv_ckptDue {g k : Nat} (h : Inv s) : Inv (ckptDue g k s) := by
  unfold ckptDue
  split
  · exact h
  · exact inv_ite h (inv_raise (inv_modGrp h))
theorem keeps_execCkptDue {g : Fin 12} {k : Fin 3} : Keeps s (execCkptDue g k s) :=
  keeps_next fun h => inv_inCore h (fun _ => inv_ckptDue)
theorem inv_memberFault {t : Nat} (h : Inv s) : Inv (memberFault t s) := by
  unfold memberFault
  extract_lets x off s1 s2
  have h1 : Inv s1 := by
    refine inv_forEach h (fun g s3 h2 => ?_)
    split
    · exact inv_settle (inv_markSuspect h2)
    · exact h2
  have h21 : Inv s2 := inv_when h1 (fun _ => inv_withdrawRoles)
  exact inv_ite h (inv_when h21 (fun _ h3 => inv_forEach h3 (fun _ _ h4 => inv_ite (inv_abandon h4) h4)))
theorem keeps_execMemberFaultReport {t : Fin 24} : Keeps s (execMemberFaultReport t s) :=
  keeps_next fun h => inv_inCore h (fun _ => inv_memberFault)
theorem inv_copyComplete {g : Nat} (h : Inv s) : Inv (copyComplete g s) := by
  unfold copyComplete
  extract_lets r d donor
  split
  · extract_lets inTcm s1 s2
    have h1 : Inv s1 := inv_when h (fun _ => inv_setBytes)
    have h2 : Inv s2 := inv_when h1 (fun _ h3 => inv_modDma (inv_chDone h3))
    exact inv_ite h (inv_nextCopy (inv_progress (inv_modGrp h2)))
  · exact h
theorem keeps_execCopyComplete {g : Fin 12} : Keeps s (execCopyComplete g s) :=
  keeps_next fun h => inv_inCore h (fun _ => inv_copyComplete)
theorem inv_unstop {g p tag : Nat} {f : Cmp → Cmp} (h : Inv s) : Inv (unstop g p tag f s) := inv_modGrp h
theorem inv_hostTimeout {g p : Nat} (h : Inv s) : Inv (hostTimeout g p s) := by
  unfold hostTimeout
  split
  · exact h
  · exact inv_ite h (inv_settle (inv_enterSafe (inv_unstop h)))
theorem keeps_execHostTimeout {g : Fin 12} {p : Fin 32} : Keeps s (execHostTimeout g p s) :=
  keeps_next fun h => inv_inCore h (fun _ => inv_hostTimeout)
theorem inv_verdictWrite {g : Nat} {v : Word} (h : Inv s) : Inv (verdictWrite g v s).2 := by
  unfold verdictWrite
  extract_lets action r k live
  split
  · exact h
  extract_lets val s1
  have h1 : Inv s1 := inv_flushAll (inv_unstop h)
  exact inv_ite h (inv_ite (inv_settle (inv_enterSafe (inv_unstop h))) (inv_settle (inv_when h1 (fun _ => inv_markSlot))))
theorem inv_takeoverWrite {g : Nat} {v : Word} (h : Inv s) : Inv (takeoverWrite g v s) :=
  inv_ite h (inv_ite (inv_takeoverBegin h) (inv_takeoverFailed h))
theorem inv_voteLull (h : Inv s) : Inv (voteLull s) := inv_enterSafeAll h
theorem inv_resetCounters {g : Nat} (h : Inv s) : Inv (resetCounters g s) := inv_modGrp h
theorem inv_voteAbort (h : Inv s) : Inv (voteAbort s) := inv_forEach h (fun _ _ => inv_modGrp)
theorem inv_voteReinit (h : Inv s) : Inv (voteReinit s) :=
  inv_enterSafeAll (inv_forEach h (fun _ _ h1 => inv_abandon (inv_resetCounters h1)))
theorem inv_takeoverAbort (h : Inv s) : Inv (takeoverAbort s) := inv_forEach h (fun _ _ => inv_abandon)
theorem inv_applyRoles {old new : List Byte} {epoch : Bool} (h : Inv s) : Inv (applyRoles old new epoch s) :=
  inv_forEach (inv_forEach h (fun _ _ h1 => inv_mk (inv_setReg h1))) (fun _ _ => inv_setN)
theorem inv_applyVote {b : List Byte} (h : Inv s) : Inv (applyVote b s) :=
  inv_applyVoted (inv_forEach (inv_applyRoles (inv_mk h)) (fun _ _ => inv_modGrp))
theorem inv_epochVote {old new : List Byte} (h : Inv s) : Inv (epochVote old new s).2 := by
  unfold epochVote
  extract_lets dropped s1 base s2
  have h1 : Inv s1 := inv_forEach h (fun _ _ => inv_abandon)
  have h2 : Inv s2 := by
    refine inv_forEach h1 (fun g s3 h3 => ?_)
    extract_lets r s4 strays s5 r1
    have h4 : Inv s4 := inv_abandon h3
    have h5 : Inv s5 := inv_enterSafe (inv_resetCounters h3)
    split
    · exact h3
    · exact inv_modGrp h3
    · exact inv_modGrp h4
    · exact inv_ite (inv_ite h3 (inv_modGrp h3)) (inv_modGrp h5)
  exact inv_snd (inv_applyVoted (inv_applyRoles h2))

/-! ### Sys2Proof/Machine/Clock.lean -/

theorem inv_withClk {c : ClkH} (h : Inv s) : Inv (s.withClk c) := inv_mk h
theorem inv_setP {p : Nat} (h : Inv s) : Inv (s.setP p) := inv_setN (inv_setN h)
theorem inv_refreshDegraded (h : Inv s) : Inv s.refreshDegraded := inv_setB (inv_setB (inv_when h (fun _ => inv_raise)))
theorem inv_showPhase (h : Inv s) : Inv (showPhase s) := inv_when (inv_setB h) (fun _ => inv_setP)
theorem inv_trimLost (h : Inv s) : Inv (trimLost s) := inv_ite (inv_set (inv_set (inv_withClk h))) h
theorem inv_ringFollow (h : Inv s) : Inv (ringFollow s) := inv_ite (inv_withClk (inv_set h)) h
theorem inv_failSource {i cause : Nat} (h : Inv s) : Inv (failSource i cause s) :=
  inv_ite (inv_when (inv_fault (inv_raise (inv_withClk (inv_set (inv_set (inv_set h)))))) (fun _ => inv_trimLost)) h
theorem inv_proveSource {i : Nat} (h : Inv s) : Inv (proveSource i s) := inv_raise (inv_withClk (inv_set h))
theorem inv_watchPass {n : Nat} (h : Inv s) : Inv (watchPass n s) := inv_mk (inv_setPair h)
theorem inv_ringRestart (h : Inv s) : Inv (ringRestart s) := inv_withClk (inv_raise (inv_set (inv_trimLost h)))
theorem inv_watchCheck {count : Nat} (h : Inv s) : Inv (watchCheck count s) := by
  unfold watchCheck
  extract_lets s1 base s2 s3
  have h1 : Inv s1 := inv_watchPass h
  have h2 : Inv s2 := inv_withClk h1
  have h3 : Inv s3 := inv_when h2 (fun _ h4 => inv_ringFollow (inv_withClk (inv_set h4)))
  exact inv_ite (inv_when h3 (fun _ => inv_rungDue)) (inv_ringRestart h1)
theorem inv_judgeSource {ring : Nat} {est : Int} {i edges : Nat} {link : Bool} (h : Inv s) :
    Inv (judgeSource ring est i edges link s) := by
  unfold judgeSource
  extract_lets noLink nom dev cause s1 base s2 base1 s3 s4 base2
  have h1 : Inv s1 := inv_when h (fun _ => inv_set)
  have h2 : Inv s2 := inv_withClk h1
  have h3 : Inv s3 := inv_withClk h2
  have h4 : Inv s4 := inv_set h3
  split
  · exact inv_when h3 (fun _ h5 => inv_set (inv_set h5))
  · exact inv_ite h3 (inv_ite (inv_failSource h3) (inv_when h4 (fun _ => inv_proveSource)))
  · exact inv_ite h3 (inv_ite (inv_failSource h3) (inv_withClk h4))
  · exact inv_ite (inv_set h3) (inv_when h3 (fun _ h5 => inv_set (inv_set h5)))
theorem inv_ringGate {trim est : Nat} (h : Inv s) : Inv (ringGate trim est s) := by
  unfold ringGate
  extract_lets old bit new base s1 new1 err move s2
  have h1 : Inv s1 := inv_withClk (inv_set h)
  have h2 : Inv s2 := inv_withClk h
  split
  · exact inv_ite (inv_raise (inv_set (inv_set h1))) h1
  · exact inv_set (inv_set h2)
  · exact h
theorem inv_identifyRefin {edges : Nat} (h : Inv s) : Inv (identifyRefin edges s) := by
  unfold identifyRefin
  extract_lets near codes base
  split
  · exact inv_ite (inv_withClk (inv_set h)) h
  · exact h
theorem inv_monitorGate {edges : Vector Nat 11} {links : BitVec 8} {watch trim est : Nat} (h : Inv s) :
    Inv (monitorGate edges links watch trim est s) := by
  unfold monitorGate
  extract_lets ring s1 ringErr s2 s3 wbad base s4
  have h1 : Inv s1 := inv_identifyRefin h
  have h2 : Inv s2 := inv_forEach h1 (fun _ _ => inv_judgeSource)
  have h3 : Inv s3 := inv_ringGate h2
  have h4 : Inv s4 := inv_withClk h3
  exact inv_when h4 (fun _ h5 => inv_fault (inv_raise h5))
theorem keeps_execMonitorGate {edges : Vector Nat 11} {links : BitVec 8} {watch trim est : Nat} :
    Keeps s (execMonitorGate edges links watch trim est s) :=
  keeps_next fun h => inv_ite (inv_monitorGate h) h
theorem keeps_execMissingEdge {src : Fin 11} : Keeps s (execMissingEdge src s) := keeps_next inv_failSource
theorem inv_lastSwitch {src dst cause : Nat} (h : Inv s) : Inv (lastSwitch src dst cause s) := inv_setN h
theorem inv_lanesLock (h : Inv s) : Inv (lanesLock s) := inv_when h (fun _ => inv_withClk)
theorem inv_startSwitch {dst cause : Nat} (h : Inv s) : Inv (startSwitch dst cause s) :=
  inv_withClk (inv_raise (inv_lastSwitch (inv_lanesLock h)))
theorem inv_deselect (h : Inv s) : Inv (deselect s) := inv_forEach h (fun _ _ => inv_set)
theorem inv_startGlide {src dst m : Nat} (h : Inv s) : Inv (startGlide src dst m s) :=
  inv_refreshDegraded (inv_setP (inv_withClk (inv_raise (inv_set (inv_raise h)))))
theorem inv_lullEntry (h : Inv s) : Inv (lullEntry s) := by
  unfold lullEntry
  extract_lets m sel s1 s2 s3 s4 s5 s6 base
  have h1 : Inv s1 := inv_trimLost (inv_deselect (inv_lanesLock h))
  have h2 : Inv s2 := inv_bump (inv_setPair (inv_lastSwitch h1))
  have h3 : Inv s3 := inv_showPhase (inv_set (inv_set (inv_raise h2)))
  have h4 : Inv s4 := inv_fault (inv_voteLull (inv_raise h3))
  have h5 : Inv s5 := inv_setN h4
  have h6 : Inv s6 := inv_startGlide h5
  exact inv_withClk h6
theorem inv_sourceDecision (h : Inv s) : Inv (sourceDecision s) := by
  unfold sourceDecision
  extract_lets m sel base s1 s2 base1
  have h1 : Inv s1 := inv_withClk h
  have h2 : Inv s2 := inv_lullEntry h1
  refine inv_ite h (inv_ite ?_ (inv_ite h1 (inv_ite (inv_withClk (inv_raise h2)) ?_)))
  · split
    · exact inv_startSwitch h1
    · exact h1
  split
  · exact inv_startSwitch h1
  · exact inv_ite h1 (inv_lullEntry h1)
theorem keeps_execSourceDecision : Keeps s (execSourceDecision s) := keeps_next inv_sourceDecision
theorem inv_revertHoldoff (h : Inv s) : Inv (revertHoldoff s) := by
  unfold revertHoldoff
  extract_lets sel m
  refine inv_ite h ?_
  split
  · exact inv_startSwitch h
  · exact h
theorem keeps_execRevertHoldoff : Keeps s (execRevertHoldoff s) := keeps_next inv_revertHoldoff
theorem inv_clkSelect {m : Master} {v : Word} (h : Inv s) : Inv (clkSelect m v s) :=
  inv_ite h (inv_when (inv_set h) (fun _ => inv_startSwitch))
theorem keeps_execClkSelect {m : Master} {v : Word} : Keeps s (execClkSelect m v s) :=
  keeps_next fun h => inv_inCore h (fun _ => inv_clkSelect)
theorem inv_switchDone (h : Inv s) : Inv (switchDone s) := by
  unfold switchDone
  split
  · exact h
  extract_lets m base s1 s2 s3 base1 s4 s5 lost s6 x s7 up
  have h1 : Inv s1 := inv_set (inv_deselect h)
  have h2 : Inv s2 := inv_set (inv_set h1)
  have h3 : Inv s3 := inv_raise (inv_bump (inv_setPair h2))
  have h4 : Inv s4 := inv_progress (inv_withClk h3)
  have h5 : Inv s5 := inv_ite (inv_trimLost h4) (inv_lanesLock (inv_ringFollow h4))
  have h6 : Inv s6 := inv_showPhase (inv_when h5 (fun _ h7 => inv_trimLost (inv_withClk h7)))
  have h7 : Inv s7 := inv_set h6
  exact inv_ite (inv_withClk (inv_set h)) (inv_ite h6 (inv_when (inv_startGlide h7) (fun _ => inv_adcClockAbort)))
theorem keeps_execReferenceSwitchDone : Keeps s (execReferenceSwitchDone s) := keeps_next inv_switchDone
theorem inv_deadswitch (h : Inv s) : Inv (deadswitch s) := by
  unfold deadswitch
  split
  · exact h
  · exact inv_ite h (inv_withClk (inv_fault (inv_raise (inv_bump (inv_raise h)))))
theorem keeps_execDeadswitch : Keeps s (execDeadswitch s) := keeps_next inv_deadswitch
theorem inv_spreadStart (h : Inv s) : Inv (spreadStart s) := inv_withClk (inv_setB h)
theorem inv_glideEnd (h : Inv s) : Inv (glideEnd s) := by
  unfold glideEnd
  extract_lets m s1 s2 s3
  have h1 : Inv s1 := inv_progress (inv_set h)
  have h2 : Inv s2 := inv_when h1 (fun _ h3 => inv_edgeLull (inv_raise (inv_set h3)))
  have h3 : Inv s3 := inv_setB h2
  exact inv_ite (inv_refreshDegraded (inv_spreadStart (inv_setP h3))) h
theorem keeps_execGlideEnd : Keeps s (execGlideEnd s) := keeps_next inv_glideEnd
theorem inv_periodMeasure {period : BitVec 24} (h : Inv s) : Inv (periodMeasure period s) := inv_ite (inv_setP (inv_raise (inv_set h))) h
theorem keeps_execPeriodMeasure {period : BitVec 24} : Keeps s (execPeriodMeasure period s) := keeps_next inv_periodMeasure
theorem inv_holdTimeout (h : Inv s) : Inv (holdTimeout s) := inv_when h (fun _ => inv_rung4)
theorem keeps_execHoldTimeout : Keeps s (execHoldTimeout s) := keeps_next inv_holdTimeout
theorem inv_lossOfLock (h : Inv s) : Inv (lossOfLock s) :=
  inv_ite (inv_raise h) (inv_when (inv_withClk (inv_raise h)) (fun _ h1 => inv_failSource (inv_withClk h1)))
theorem keeps_execLoopLossOfLock : Keeps s (execLoopLossOfLock s) := keeps_next inv_lossOfLock
theorem inv_spreadCycle (h : Inv s) : Inv (spreadCycle s) := inv_ite (inv_withClk h) (inv_withClk h)
theorem inv_glideCycle (h : Inv s) : Inv (glideCycle s) := inv_ite (inv_setP (inv_withClk h)) h

/-! ### Sys2Proof/Machine/TrainTime.lean -/

theorem inv_withTt {t : TtH} (h : Inv s) : Inv (s.withTt t) := inv_mk h
theorem inv_showSlew (h : Inv s) : Inv (showSlew s) := inv_setB (inv_setN h)
theorem inv_startSlew {a : Int} {host : Bool} (h : Inv s) : Inv (startSlew a host s) := inv_showSlew (inv_withTt h)
theorem inv_slewMax {a : Int} (h : Inv s) : Inv (slewMax a s) := inv_startSlew h
theorem inv_stampSent (h : Inv s) : Inv (stampSent s).2 := inv_drawn h
theorem inv_ttCycle (h : Inv s) : Inv (ttCycle s) := by
  unfold ttCycle
  split
  exact inv_when (inv_withTt h) (fun _ => inv_showSlew)
theorem inv_stepTt {d : Int} (h : Inv s) : Inv (stepTt d s) := inv_raise (inv_showSlew (inv_edgeStep (inv_withTt h)))
theorem inv_showPermit (h : Inv s) : Inv (showPermit s) := inv_setB h
theorem inv_stepByOffset {off : Int} (h : Inv s) : Inv (stepByOffset off s) := inv_when (inv_stepTt h) (fun _ => inv_slewMax)
theorem inv_servoAcquire {off : Int} (h : Inv s) : Inv (servoAcquire off s) := by
  unfold servoAcquire
  extract_lets thr s1 base s2 good s3
  have h1 : Inv s1 := inv_set h
  have h2 : Inv s2 := inv_withTt h1
  have h3 : Inv s3 := inv_slewMax (inv_withTt h1)
  exact inv_ite (inv_ite (inv_stepByOffset h2) (inv_raise (inv_slewMax h2))) (inv_when h3 (fun _ h4 => inv_raise (inv_set h4)))
theorem inv_servoSync {off : Int} (h : Inv s) : Inv (servoSync off s) := by
  unfold servoSync
  split
  · exact inv_set (inv_ite (inv_stepByOffset (inv_withTt h)) (inv_raise (inv_slewMax (inv_withTt h))))
  · extract_lets base
    exact inv_ite (inv_slewMax (inv_withTt h)) (inv_ite (inv_slewMax (inv_withTt h)) (inv_servoAcquire (inv_raise (inv_withTt h))))
  · exact inv_servoAcquire (inv_withTt h)
  · exact h
  · exact inv_servoAcquire h
theorem inv_servoPeriod (h : Inv s) : Inv (servoPeriod s) := inv_ite h (inv_ite (inv_setP h) (inv_setP h))
theorem inv_syncReceive {port eighth : Fin 8} {origin corr cum : Int} {interval seqId : Nat} (h : Inv s) :
    Inv (syncReceive port eighth origin corr cum interval seqId s) := by
  unfold syncReceive
  extract_lets rx ratio off s1 s2 s3 base s4 base1
  have h1 : Inv s1 := inv_setN h
  have h2 : Inv s2 := inv_setN h1
  have h3 : Inv s3 := inv_bump (inv_set (inv_set h2))
  have h4 : Inv s4 := inv_progress (inv_withTt h3)
  exact inv_ite h (inv_ite (inv_withTt h4) (inv_showPermit (inv_refreshDegraded (inv_raise (inv_servoPeriod (inv_servoSync h4))))))
theorem keeps_execSyncReceive {port eighth : Fin 8} {origin corr cum : Int} {interval seqId : Nat} :
    Keeps s (execSyncReceive port eighth origin corr cum interval seqId s) :=
  keeps_next inv_syncReceive
theorem inv_syncTimeout (h : Inv s) : Inv (syncTimeout s) :=
  inv_ite (inv_refreshDegraded (inv_fault (inv_when (inv_raise (inv_set h)) (fun _ => inv_raise)))) h
theorem keeps_execSyncTimeout : Keeps s (execSyncTimeout s) := keeps_next inv_syncTimeout
theorem inv_grandmasterChange {gm : Bool} (h : Inv s) : Inv (grandmasterChange gm s) := by
  unfold grandmasterChange
  extract_lets base s1 s2 base1 s3 s4 base2 s5
  have h1 : Inv s1 := inv_raise (inv_withTt h)
  have h2 : Inv s2 := inv_when h1 (fun _ => inv_raise)
  have h3 : Inv s3 := inv_showSlew (inv_withTt h2)
  have h4 : Inv s4 := inv_ite h3 (inv_setP h3)
  have h5 : Inv s5 := inv_ite h1 (inv_ite (inv_set h4) (inv_withTt (inv_set h1)))
  exact inv_ite h (inv_refreshDegraded h5)
theorem inv_ttSlewAmount {m : Master} {v : Word} (h : Inv s) : Inv (ttSlewAmount m v s) := inv_ite (inv_startSlew h) h
theorem keeps_execTtSlewAmount {m : Master} {v : Word} : Keeps s (execTtSlewAmount m v s) :=
  keeps_next inv_ttSlewAmount
theorem inv_ttStep {m : Master} {amount : BitVec 64} (h : Inv s) : Inv (ttStep m amount s) :=
  inv_ite h (inv_ite (inv_set h) (inv_ite (inv_raise (inv_set (inv_setPair h))) (inv_stepTt (inv_set (inv_setPair h)))))
theorem keeps_execTtStep {m : Master} {amount : BitVec 64} : Keeps s (execTtStep m amount s) := keeps_next inv_ttStep
theorem inv_haStateWrite {m : Master} {code : BitVec 3} (h : Inv s) : Inv (haStateWrite m code s) := by
  unfold haStateWrite
  extract_lets old s1 base s2 s3 s4 s5 s6 s7
  have h1 : Inv s1 := inv_set (inv_set h)
  have h2 : Inv s2 := inv_withTt h1
  have h3 : Inv s3 := inv_when h2 (fun _ => inv_raise)
  have h4 : Inv s4 := inv_when h3 (fun _ => inv_raise)
  have h5 : Inv s5 := inv_when h4 (fun _ => inv_raise)
  have h6 : Inv s6 := inv_when h5 (fun _ => inv_raise)
  have h7 : Inv s7 := inv_when h6 (fun _ => inv_raise)
  exact inv_ite h (inv_refreshDegraded (inv_showPermit h7))
theorem keeps_execHaStateWrite {m : Master} {code : BitVec 3} : Keeps s (execHaStateWrite m code s) :=
  keeps_next inv_haStateWrite
theorem inv_snapWrite {m : Master} {n : Fin 4} {v : Word} (h : Inv s) : Inv (snapWrite m n v s) := by
  unfold snapWrite
  extract_lets a b s1 s2
  have h1 : Inv s1 := inv_when h (fun _ => inv_set)
  have h2 : Inv s2 := inv_when h1 (fun _ => inv_set)
  exact inv_ite h (inv_when h2 (fun _ h3 => inv_withTt (inv_set (inv_raise h3))))
theorem keeps_execSnapGo {m : Master} {n : Fin 4} {v : Word} : Keeps s (execSnapGo m n v s) :=
  keeps_next inv_snapWrite
theorem inv_snapCapture {n : Fin 4} (h : Inv s) : Inv (snapCapture n s) :=
  inv_ite (inv_withTt (inv_raise (inv_raise (inv_set (inv_setN (inv_ite (inv_setPair h) (inv_setPair h))))))) h
theorem inv_setLatch {r : Reader} {l : Option Latch} (h : Inv s) : Inv (setLatch r l s) := inv_withTt h
theorem inv_setStage {r : Reader} {x : Option Stage} (h : Inv s) : Inv (setStage r x s) := inv_withTt h
theorem inv_latchRead {r : Reader} {lo : Nat} {hi : Bool} {now : Nat} (h : Inv s) : Inv (latchRead r lo hi now s).2.2 := by
  unfold latchRead
  extract_lets half
  split
  · split
    · split
      · exact h
      · exact inv_setLatch h
    · exact inv_setLatch h
  · exact inv_setLatch h
theorem inv_latchExpiry {r : Reader} (h : Inv s) : Inv (latchExpiry r s) := by
  unfold latchExpiry
  split
  · exact inv_ite (inv_setLatch h) h
  · exact h
theorem keeps_execLatchExpiry {r : Reader} : Keeps s (execLatchExpiry r s) :=
  keeps_next fun h => inv_inCore h (fun _ => inv_latchExpiry)
theorem inv_stageExpiry {r : Reader} (h : Inv s) : Inv (stageExpiry r s) := by
  unfold stageExpiry
  split
  · exact inv_ite (inv_setStage h) h
  · exact h
theorem keeps_execStageExpiry {r : Reader} : Keeps s (execStageExpiry r s) :=
  keeps_next fun h => inv_inCore h (fun _ => inv_stageExpiry)
theorem inv_stageWrite {r : Reader} {lo : Nat} {v : Word} (h : Inv s) : Inv (stageWrite r lo v s) := inv_setStage h
theorem inv_stageCommit {r : Reader} {lo : Nat} {v : Word} (h : Inv s) : Inv (stageCommit r lo v s).2 := inv_setStage h
theorem inv_ageLatches {counts : Reader → Bool} (h : Inv s) : Inv (ageLatches counts s) := inv_withTt h

/-! ### Sys2Proof/Machine/Net.lean -/

theorem inv_modNet {f : NetH → NetH} (h : Inv s) : Inv (s.modNet f) := inv_mk h
theorem inv_modPort {p : Nat} {f : PortH → PortH} (h : Inv s) : Inv (s.modPort p f) := inv_modNet h
theorem inv_fdbPut {e : FdbEntry} (h : Inv s) : Inv (fdbPut e s) := inv_modNet h
theorem inv_notify {mac vid p : Nat} (h : Inv s) :
    Inv (notify mac vid p s) := inv_ite h (inv_ite (inv_raise h) (inv_raise (inv_modNet h)))
theorem inv_learnSource {mac vid p : Nat} (h : Inv s) : Inv (learnSource mac vid p s) := by
  unfold learnSource
  extract_lets onCmd
  refine inv_ite h ?_
  split
  · exact inv_ite h (inv_ite (inv_fdbPut h) (inv_ite (inv_notify h) (inv_fdbPut h)))
  refine inv_ite (inv_notify h) ?_
  split
  · exact inv_fdbPut h
  · exact inv_raise h
theorem inv_fdbStart {m : Master} {op port : Nat} (h : Inv s) : Inv (fdbStart m op port s) :=
  inv_ite h (inv_ite (inv_set h) (inv_raise (inv_modNet h)))
theorem keeps_execLookup {m : Master} : Keeps s (execLookup m s) :=
  keeps_next fun h => inv_inCore h (fun _ => inv_fdbStart)
theorem keeps_execInsert {m : Master} : Keeps s (execInsert m s) :=
  keeps_next fun h => inv_inCore h (fun _ => inv_fdbStart)
theorem keeps_execDelete {m : Master} : Keeps s (execDelete m s) :=
  keeps_next fun h => inv_inCore h (fun _ => inv_fdbStart)
theorem keeps_execFlushDynamic {m : Master} : Keeps s (execFlushDynamic m s) :=
  keeps_next fun h => inv_inCore h (fun _ => inv_fdbStart)
theorem keeps_execFlushPort {m : Master} {p : Fin 16} : Keeps s (execFlushPort m p s) :=
  keeps_next fun h => inv_inCore h (fun _ => inv_fdbStart)
theorem inv_fdbApply {c : FdbCmd} (h : Inv s) : Inv (fdbApply c s).2 := by
  unfold fdbApply
  split
  · split
    · exact inv_setN h
    · exact inv_set h
  · split
    · exact inv_fdbPut h
    split
    · exact inv_fdbPut h
    · exact h
  · split
    · exact inv_modNet h
    · exact h
  · exact inv_modNet h
  · exact inv_modNet h
theorem inv_flushStart (h : Inv s) : Inv (flushStart s) := inv_ite (inv_raise (inv_modNet h)) h
theorem inv_fdbDone (h : Inv s) : Inv (fdbDone s) := by
  unfold fdbDone
  split
  · exact h
  split
  rename_i s1 e
  have h1 : Inv s1 := inv_snd_of_eq e (inv_fdbApply h)
  exact inv_flushStart (inv_progress (inv_raise (inv_setN (inv_modNet h1))))
theorem keeps_execFdbDone : Keeps s (execFdbDone s) := keeps_next fun h => inv_inCore h (fun _ => inv_fdbDone)
theorem inv_fdbAge {set way : Nat} (h : Inv s) : Inv (fdbAge set way s) := inv_modNet h
theorem keeps_execFdbAgeing {set : Fin 2048} {way : Fin 4} : Keeps s (execFdbAgeing set way s) :=
  keeps_next fun h => inv_inCore h (fun _ => inv_fdbAge)
theorem inv_learnPop (h : Inv s) : Inv (learnPop s) := inv_flushStart (inv_progress (inv_modNet h))
theorem inv_learnRead {r : Reader} {hi : Bool} (h : Inv s) : Inv (learnRead r hi s).2 := by
  unfold learnRead
  split
  rename_i s1 e
  have h1 : Inv s1 := inv_third_of_eq e (inv_latchRead h)
  exact inv_ite (inv_learnPop h1) h1
theorem keeps_execLearnNotifyRead {r : Reader} {hi : Bool} : Keeps s (execLearnNotifyRead r hi s) := by
  refine keeps_next fun h => ?_
  refine inv_inCore h (fun s1 h1 => ?_)
  split
  rename_i s2 e
  have h2 : Inv s2 := inv_snd_of_eq e (inv_learnRead h1)
  exact inv_mk h2
theorem inv_learnDisable {abort : Bool} (h : Inv s) : Inv (learnDisable abort s) :=
  inv_flushStart (inv_modNet (inv_when h (fun _ => inv_modNet)))
theorem inv_learnReinit (h : Inv s) : Inv (learnReinit s) := inv_modNet h
theorem inv_meterFrame {m n : Nat} (h : Inv s) : Inv (meterFrame m n s).2 := by
  unfold meterFrame
  split
  extract_lets need keep allRed s1
  have hkeep : ∀ g y s2, Inv s2 → Inv (keep g y s2) := fun _ _ _ h1 => inv_modNet h1
  have h1 : Inv s1 := inv_raise (inv_countReg (hkeep _ _ _ h))
  split
  · exact inv_countReg (hkeep _ _ _ h)
  split
  · exact inv_countReg (hkeep _ _ _ h)
  · exact inv_when h1 (fun _ => inv_raise)
theorem inv_streamFilter {i sdu n : Nat} (h : Inv s) : Inv (streamFilter i sdu n s).2 := by
  unfold streamFilter
  extract_lets s1 drop m
  have h1 : Inv s1 := inv_countReg h
  have hdrop : ∀ s2, Inv s2 → Inv (drop s2).2 := fun _ h2 => inv_countReg h2
  split
  · exact hdrop _ h1
  split
  · exact hdrop _ (inv_when (inv_raise h1) (fun _ => inv_raise))
  split
  · exact inv_countReg h1
  split
  · rename_i s2 e
    have h2 : Inv s2 := inv_snd_of_eq e (inv_meterFrame h1)
    exact inv_countReg h2
  rename_i s3 e1
  have h3 : Inv s3 := inv_snd_of_eq e1 (inv_meterFrame h1)
  exact hdrop _ h3
theorem inv_frerGenerate {handle : Nat} {rtag : Option Nat} (h : Inv s) : Inv (frerGenerate handle rtag s).2.2 := by
  unfold frerGenerate
  split
  · exact h
  extract_lets mask
  split
  · exact h
  · exact inv_count h
theorem inv_frerRecover {r : Nat} {rtag : Option Nat} (h : Inv s) : Inv (frerRecover r rtag s).2 := by
  unfold frerRecover
  extract_lets discard r1 x pass last
  have hdiscard : ∀ s1, Inv s1 → Inv (discard s1).2 := fun _ h1 => inv_countReg h1
  have hpass : ∀ n seen s1, Inv s1 → Inv (pass n seen s1).2 := fun _ _ _ h1 => inv_countReg (inv_set (inv_modNet h1))
  split
  · exact hdiscard _ h
  · exact hpass _ _ _ h
  extract_lets up ahead dist top
  split
  · exact hdiscard _ (inv_raise h)
  split
  · exact hdiscard _ h
  · exact hpass _ _ _ h
theorem inv_frerEliminate {handle : Nat} {rtag : Option Nat} {ports : List Nat} (h : Inv s) :
    Inv (frerEliminate handle rtag ports s).2.2 := by
  unfold frerEliminate
  refine List.foldlRecOn (motive := fun p : _ × _ × State => Inv p.2.2) _ _ h (fun p hp r _ => ?_)
  obtain ⟨ports, decap, s1⟩ := p
  dsimp -zeta only
  extract_lets mask
  split
  · split
    · rename_i e
      exact inv_snd_of_eq e (inv_frerRecover hp)
    · rename_i e
      exact inv_snd_of_eq e (inv_frerRecover hp)
  · exact hp
theorem inv_frerReset {r : Nat} (h : Inv s) : Inv (frerReset r s) := inv_ite (inv_raise (inv_modNet h)) h
theorem keeps_execFrerReset {r : Fin 64} : Keeps s (execFrerReset r s) := keeps_next fun h => inv_inCore h (fun _ => inv_frerReset)
theorem inv_enqueue {q cls : Nat} {f : NetFrame} (h : Inv s) : Inv (enqueue q cls f s) :=
  inv_ite (inv_countReg (inv_raise h)) (inv_when (inv_modPort h) (fun _ => inv_raise))
theorem inv_checkTrailer {body : List Byte} (h : Inv s) : Inv (checkTrailer body s) :=
  inv_ite (inv_ite h (inv_fault (inv_raise (inv_setN h)))) h
theorem inv_stomp {ports : List Nat} (h : Inv s) : Inv (stomp ports s) := by
  unfold stomp
  refine inv_forEach h (fun q s1 h1 => ?_)
  split
  · exact inv_modPort (inv_countReg (inv_raise h1))
  · exact h1
theorem inv_forwardFrame {p : Nat} {x : Parsed} {len : Nat} {cls : Option Nat} {cut : List Nat} (h : Inv s) :
    Inv (forwardFrame p x len cls cut s) := by
  unfold forwardFrame
  split
  extract_lets handle s1
  have h1 : Inv s1 := by
    unfold s1
    clear_value handle
    cases handle with
    | none => exact h
    | some i => exact inv_when h (fun _ => inv_checkTrailer)
  clear_value s1 handle
  refine inv_ite (inv_stomp (inv_countReg h)) ?_
  split
  rename_i s2 e
  have h2 : Inv s2 := by
    cases handle with
    | none => cases e; exact h1
    | some i => exact inv_snd_of_eq e (inv_streamFilter h1)
  refine inv_ite (inv_stomp h2) ?_
  split
  rename_i rtag mask s3 e
  have h3 : Inv s3 := by
    cases handle with
    | none => cases e; exact h2
    | some i => exact inv_third_of_eq e (inv_frerGenerate h2)
  extract_lets dest dest2
  split
  rename_i s4 e
  have h4 : Inv s4 := by
    split at e
    · split at e
      rename_i e5
      cases e
      exact inv_third_of_eq e5 (inv_frerEliminate h3)
    · cases e
      exact h3
  extract_lets s5 f s6 s7
  have h5 : Inv s5 := inv_stomp h4
  have h7 : Inv s7 := inv_forEach (inv_modNet h5) (fun _ _ => inv_enqueue)
  exact inv_forEach h7 (fun _ _ => inv_modPort)
theorem inv_sendService {q : Nat} {tag : Option Nat} {dst : Nat} {body : List Byte} (h : Inv s) : Inv (sendService q tag dst body s) :=
  inv_enqueue (inv_countReg (inv_modNet h))
theorem inv_commandFrame {p : Nat} {x : Parsed} (h : Inv s) : Inv (commandFrame p x s) :=
  inv_ite (inv_raise h) (inv_raise (inv_mk (inv_countReg h)))
theorem inv_trapFrame {p : Nat} {x : Parsed} {len : Nat} (h : Inv s) : Inv (trapFrame p x len s) := by
  unfold trapFrame
  split
  exact inv_ite (inv_countReg h) (inv_enqueue (inv_modNet h))
theorem inv_dispatchFrame {p : Nat} {x : Parsed} {len : Nat} {cut : List Nat} (h : Inv s) : Inv (dispatchFrame p x len cut s) := by
  unfold dispatchFrame
  extract_lets s1
  have h1 : Inv s1 := inv_raise (inv_setN h)
  exact inv_ite (inv_commandFrame h) (inv_ite h (inv_ite (inv_raise h) (inv_ite (inv_stomp (inv_countReg h)) (inv_ite (inv_trapFrame
      (inv_modPort h1)) (inv_ite (inv_ite (inv_trapFrame h) (inv_countReg h)) (inv_ite (inv_stomp (inv_countReg h))
      (inv_forwardFrame h)))))))
theorem inv_frameReceive {p : Nat} {d : List Byte} {fcs : Bool} (h : Inv s) : Inv (frameReceive p d fcs s) := by
  unfold frameReceive
  extract_lets cut clear x s1
  have hclear : ∀ s2, Inv s2 → Inv (clear s2) := fun _ h1 => inv_modPort h1
  have h1 : Inv s1 := hclear _ (inv_countReg h)
  exact inv_ite h (inv_ite (hclear _ (inv_stomp (inv_countReg h))) (inv_learnSource (inv_dispatchFrame h1)))
theorem keeps_execFrameReceive {p : Fin 8} {d : List Byte} {fcs : Bool} : Keeps s (execFrameReceive p d fcs s) :=
  keeps_next fun h => inv_inCore h (fun _ => inv_frameReceive)
theorem inv_gateEntry {p : Nat} (h : Inv s) : Inv (gateEntry p s) := by
  unfold gateEntry
  extract_lets r s1
  have h1 : Inv s1 := by
    unfold s1
    split
    · exact inv_ite (inv_modPort h) h
    · exact h
  split
  · exact inv_set (inv_set (inv_set h1))
  split
  exact inv_raise (inv_set (inv_set h1))
theorem inv_gateCycle (h : Inv s) : Inv (gateCycle s) := inv_forEach h (fun _ _ h1 => inv_when h1 (fun _ => inv_gateEntry))
theorem keeps_execGateEntry {p : Fin 8} : Keeps s (execGateEntry p s) := keeps_next fun h => inv_inCore h (fun _ => inv_gateEntry)
theorem inv_transmitSelect {p : Nat} {unread : Bool} (h : Inv s) : Inv (transmitSelect p unread s) := by
  unfold transmitSelect
  extract_lets r
  refine inv_ite h ?_
  split
  · split
    rename_i s1 e
    have h1 : Inv s1 := inv_snd_of_eq e (inv_stampSent h)
    exact inv_modPort h1
  split
  · exact h
  · exact inv_ite (inv_retryFail (inv_countReg (inv_modPort h))) (inv_modPort (inv_modPort h))
theorem keeps_execTransmitSelect {p : Fin 10 × Bool} : Keeps s (execTransmitSelect p s) :=
  keeps_next fun h => inv_inCore h (fun _ => inv_transmitSelect)
theorem inv_frameHeader {p : Nat} {d : List Byte} (h : Inv s) : Inv (frameHeader p d s) := by
  unfold frameHeader
  extract_lets x s1
  have h1 : Inv s1 := inv_modNet h
  split
  extract_lets handle plain cls ok f
  refine inv_ite h ?_
  split
  exact inv_modPort (inv_forEach h1 (fun _ _ => inv_modPort))
theorem keeps_execFrameHeaderReceive {p : Fin 8} {d : List Byte} : Keeps s (execFrameHeaderReceive p d s) :=
  keeps_next fun h => inv_inCore h (fun _ h1 => inv_ite (inv_frameHeader h1) h1)
theorem inv_descEnd {t : Nat} (h : Inv s) : Inv (descEnd t s) := inv_raise (inv_raise h)
theorem inv_descReturn {t a len cls flags : Nat} (h : Inv s) : Inv (descReturn t a len cls flags s) :=
  inv_descEnd (inv_storeN (inv_storeN (inv_storeN h)))
theorem inv_ringDeliver {t ing : Nat} {d : List Byte} (h : Inv s) : Inv (ringDeliver t ing d s) := by
  unfold ringDeliver
  extract_lets w size head a k owned posted buf room n s1
  have h1 : Inv s1 := inv_set h
  exact inv_ite (inv_countReg h) (inv_ite (inv_descEnd (inv_set h)) (inv_ite (inv_countReg h) (inv_ite (inv_descReturn h1)
      (inv_descReturn (inv_setBytes h1)))))
theorem inv_tileDeliver {f : NetFrame} (h : Inv s) : Inv (tileDeliver f s) :=
  inv_ite (inv_ringDeliver h) (inv_forEach h (fun _ _ => inv_ringDeliver))
theorem inv_hostDeliver {f : NetFrame} (h : Inv s) : Inv (hostDeliver f s) :=
  inv_ite h (inv_ite (inv_raise h) (inv_raise (inv_mk h)))
theorem inv_transmitDone {p : Nat} (h : Inv s) : Inv (transmitDone p s) := by
  unfold transmitDone
  split
  · extract_lets d s1 s2
    have h1 : Inv s1 := inv_countReg (inv_modPort h)
    have h2 : Inv s2 := inv_when h1 (fun _ h3 => inv_mk (inv_raise h3))
    exact inv_ite (inv_tileDeliver h2) (inv_ite (inv_hostDeliver h2) h2)
  · exact inv_modPort h
  · exact inv_countReg (inv_modPort h)
  · exact h
theorem keeps_execTransmitDone {p : Fin 10} : Keeps s (execTransmitDone p s) :=
  keeps_next fun h => inv_inCore h (fun _ => inv_transmitDone)
theorem inv_internalFrame {p : Nat} {d : List Byte} {cls : Option Nat} (h : Inv s) : Inv (internalFrame p d cls s) := by
  unfold internalFrame
  extract_lets d1 x s1
  have h1 : Inv s1 := inv_countReg h
  exact inv_ite (inv_raise h) (inv_ite (inv_countReg h) (inv_ite (inv_countReg h1) (inv_ite h1 (inv_ite (inv_ite (inv_trapFrame h1)
      (inv_countReg h1)) (inv_forwardFrame h1)))))
theorem inv_ringSend {t : Nat} {unread : Option Nat} (h : Inv s) : Inv (ringSend t unread s) := by
  unfold ringSend
  extract_lets w size head a k buf n cls s1
  have h1 : Inv s1 := inv_set h
  exact inv_ite h (inv_ite (inv_descEnd (inv_set h)) (inv_ite h (inv_ite (inv_descReturn h1) (inv_ite (inv_descReturn
      (inv_retryFail h1)) (inv_descReturn (inv_internalFrame h1))))))
theorem inv_txDoorbell {m : Master} {t : Nat} {v : Word} {unread : Option Nat} (h : Inv s) : Inv (txDoorbell m t v unread s) :=
  inv_ite h (inv_ite (inv_forEach (inv_set h) (fun _ _ => inv_ringSend)) (inv_set h))
theorem keeps_execTxDoorbell {m : Master} {t : Fin 24 × Option (Fin 128)} {v : Word} : Keeps s (execTxDoorbell m t v s) :=
  keeps_next fun h => inv_inCore h (fun _ => inv_txDoorbell)
theorem inv_rxTail {m : Master} {t : Nat} {v : Word} (h : Inv s) : Inv (rxTail m t v s) := inv_ite (inv_set h) h
theorem keeps_execRxTail {m : Master} {t : Fin 24} {v : Word} : Keeps s (execRxTail m t v s) :=
  keeps_next fun h => inv_inCore h (fun _ => inv_rxTail)
theorem inv_ringCfg {m : Master} {t : Nat} {v : Word} (h : Inv s) : Inv (ringCfg m t v s) :=
  inv_ite h (inv_ite (inv_when (inv_setN h) (fun _ => inv_setN)) (inv_when h (fun _ => inv_set)))
theorem inv_votedFrameRead {g : Nat} {unread : Bool} (h : Inv s) : Inv (votedFrameRead g unread s) := by
  unfold votedFrameRead
  split
  · exact h
  extract_lets s1 r t cls
  have h1 : Inv s1 := inv_modGrp h
  split
  exact inv_ite (inv_voteRaise (inv_retryFail h1)) (inv_ite (inv_voteRaise h1) (inv_internalFrame h1))
theorem keeps_execVotedFrameRead {g : Fin 12 × Bool} : Keeps s (execVotedFrameRead g s) :=
  keeps_next fun h => inv_inCore h (fun _ => inv_votedFrameRead)
theorem inv_linkChange {p : Nat} {up : Bool} {speed : Nat} (h : Inv s) : Inv (linkChange p up speed s) := by
  unfold linkChange
  extract_lets s1 rate speed1 up1 s2 s3
  have h1 : Inv s1 := inv_lanesLock h
  have h2 : Inv s2 := inv_set (inv_setB h1)
  have h3 : Inv s3 := inv_when h2 (fun _ h4 => inv_set (inv_withClk (inv_modPort (inv_forEach (inv_stomp h4) (fun _ _ => inv_modPort)))))
  exact inv_ite (inv_when h1 (fun _ => inv_set)) (inv_raise h3)
theorem inv_helloSend (h : Inv s) : Inv (helloSend s) := by
  unfold helloSend
  extract_lets period s1
  have h1 : Inv s1 := inv_modNet h
  refine inv_ite h (inv_forEach h1 (fun p s2 h2 => ?_))
  extract_lets n d x
  split
  exact inv_enqueue (inv_modNet h2)
theorem keeps_execTtdpHelloSend : Keeps s (execTtdpHelloSend s) := keeps_next fun h => inv_inCore h (fun _ => inv_helloSend)
theorem inv_ttdpTimeout {p : Nat} (h : Inv s) : Inv (ttdpTimeout p s) := inv_ite (inv_raise (inv_modPort h)) h
theorem keeps_execTtdpTimeout {p : Fin 8} : Keeps s (execTtdpTimeout p s) :=
  keeps_next fun h => inv_inCore h (fun _ => inv_ttdpTimeout)
theorem inv_serviceFrame {p dst : Nat} {payload : List Byte} (h : Inv s) : Inv (serviceFrame p dst payload s) := inv_sendService h
theorem inv_bootStatusSend (h : Inv s) : Inv (bootStatusSend s) :=
  inv_ite h (inv_forEach (inv_modNet h) (fun _ _ => inv_serviceFrame))
theorem keeps_execBootStatusSend : Keeps s (execBootStatusSend s) := keeps_next fun h => inv_inCore h (fun _ => inv_bootStatusSend)
theorem inv_applyPorts {b : List Byte} (h : Inv s) : Inv (applyPorts b s) := by
  unfold applyPorts
  extract_lets s1
  have h1 : Inv s1 := inv_forEach h (fun _ _ => inv_setN)
  exact inv_forEach h1 (fun _ _ h2 => inv_when (inv_when h2 (fun _ => inv_set)) (fun _ => inv_linkChange))
theorem inv_applyScheds {b : List Byte} (h : Inv s) : Inv (applyScheds b s) :=
  inv_forEach h (fun _ _ h1 => inv_gateEntry (inv_modPort h1))
theorem inv_epochScheds {new : List Byte} (h : Inv s) : Inv (epochScheds new s) :=
  inv_forEach h (fun _ _ h1 => inv_ite (inv_modPort h1) (inv_gateEntry (inv_modPort h1)))
theorem inv_netReset (h : Inv s) : Inv (netReset s) := inv_forEach (inv_mk (inv_resetRegs h)) (fun _ _ h1 => inv_set (inv_set h1))
theorem inv_netStop (h : Inv s) : Inv (netStop s) :=
  inv_forEach (inv_forEach h (fun _ _ => inv_linkChange)) (fun _ _ => inv_modPort)
theorem inv_clockFaultHold (h : Inv s) : Inv (clockFaultHold s) := by
  unfold clockFaultHold
  extract_lets atPor s1 base s2 s3 s4
  have h1 : Inv s1 := inv_forEach h (fun _ _ => inv_linkChange)
  have h2 : Inv s2 := inv_outputsSafe (inv_withClk h1)
  have h3 : Inv s3 := inv_raise (inv_set h2)
  have h4 : Inv s4 := inv_bump (inv_setB (inv_raise h3))
  exact inv_ite (inv_fault h4) h
theorem keeps_execClockFaultHold : Keeps s (execClockFaultHold s) := keeps_next inv_clockFaultHold

/-! ### Sys2Proof/Machine/Gptp.lean -/

theorem inv_gptpSelect (h : Inv s) : Inv (gptpSelect s) := by
  unfold gptpSelect
  extract_lets usable heard best ext stateOf states changed slave gm s1 s2 s3 s4
  have h1 : Inv s1 := inv_forEach h (fun _ _ => inv_set)
  have h3 : Inv s3 := inv_showPhase (inv_set (inv_when h1 (fun _ => inv_raise)))
  have h4 : Inv s4 := by
    unfold s4
    clear_value best
    split
    · exact inv_setPair h3
    · exact inv_setPair h3
  exact inv_grandmasterChange h4
theorem keeps_execLinkChange {p : Fin 8} {up : Bool} {speed : Fin 6} : Keeps s (execLinkChange p up speed s) :=
  keeps_next fun h => inv_gptpSelect (inv_linkChange h)
theorem inv_announceReceive {p : Nat} {vec : List Nat} {interval : Nat} (h : Inv s) : Inv (announceReceive p vec interval s) :=
  inv_ite h (inv_gptpSelect (inv_modPort h))
theorem keeps_execAnnounceReceive {p : Fin 8} {vec : Vector Nat 9} {interval : Nat} : Keeps s (execAnnounceReceive p vec interval s) :=
  keeps_next fun h => inv_inCore h (fun _ => inv_announceReceive)
theorem inv_announceTimeout {p : Nat} (h : Inv s) : Inv (announceTimeout p s) := by
  unfold announceTimeout
  split
  · exact inv_ite (inv_gptpSelect (inv_modPort h)) h
  · exact h
theorem keeps_execAnnounceReceiptTimeout {p : Fin 8} : Keeps s (execAnnounceReceiptTimeout p s) :=
  keeps_next fun h => inv_inCore h (fun _ => inv_announceTimeout)
theorem inv_gptpQueue {p kind seq : Nat} {times : List Int} (h : Inv s) : Inv (gptpQueue p kind seq times s) := inv_modPort h
theorem inv_gptpSeq {p k : Nat} (h : Inv s) : Inv (gptpSeq p k s).2 := inv_modPort h
theorem inv_gptpSent {p k : Nat} (h : Inv s) : Inv (gptpSent p k s) := inv_modPort h
theorem inv_syncSend {p : Nat} (h : Inv s) : Inv (syncSend p s) := by
  unfold syncSend
  refine inv_ite ?_ h
  split
  rename_i s1 e
  have h1 : Inv s1 := inv_snd_of_eq e (inv_gptpSeq (inv_gptpSent h))
  exact inv_gptpQueue (inv_gptpQueue h1)
theorem keeps_execSyncSend {p : Fin 8} : Keeps s (execSyncSend p s) := keeps_next fun h => inv_inCore h (fun _ => inv_syncSend)
theorem inv_announceSend {p : Nat} (h : Inv s) : Inv (announceSend p s) := by
  unfold announceSend
  refine inv_ite ?_ h
  split
  rename_i s1 e
  have h1 : Inv s1 := inv_snd_of_eq e (inv_gptpSeq (inv_gptpSent h))
  exact inv_gptpQueue h1
theorem keeps_execAnnounceSend {p : Fin 8} : Keeps s (execAnnounceSend p s) :=
  keeps_next fun h => inv_inCore h (fun _ => inv_announceSend)
theorem inv_pdelayReqSend {p : Nat} (h : Inv s) : Inv (pdelayReqSend p s) := by
  unfold pdelayReqSend
  refine inv_ite h ?_
  split
  rename_i s1 e
  have h1 : Inv s1 := inv_snd_of_eq e (inv_gptpSeq (inv_gptpSent h))
  exact inv_gptpQueue h1
theorem keeps_execPdelayReqSend {p : Fin 8} : Keeps s (execPdelayReqSend p s) :=
  keeps_next fun h => inv_inCore h (fun _ => inv_pdelayReqSend)
theorem inv_pdelayReq {p eighth seq : Nat} (h : Inv s) : Inv (pdelayReq p eighth seq s) := inv_ite (inv_gptpQueue (inv_gptpQueue h)) h
theorem keeps_execPdelayReq {at_ : Fin 8 × Fin 8} {seq : Fin 65536} : Keeps s (execPdelayReq at_ seq s) :=
  keeps_next fun h => inv_inCore h (fun _ => inv_pdelayReq)
theorem inv_pdelayResp {p eighth seq : Nat} {t2 t3 : Int} (h : Inv s) : Inv (pdelayResp p eighth seq t2 t3 s) := by
  unfold pdelayResp
  split
  · exact h
  extract_lets t4
  refine inv_ite h ?_
  split
  exact inv_gptpSelect (inv_setB (inv_modPort (inv_setN h)))
theorem keeps_execPdelayRespReceive {p eighth : Fin 8} {seq : Fin 65536} {t2 t3 : Int} :
    Keeps s (execPdelayRespReceive p eighth seq t2 t3 s) :=
  keeps_next fun h => inv_inCore h (fun _ => inv_pdelayResp)

/-! ### Sys2Proof/Machine/Bus.lean -/

theorem inv_busTo {u st : Nat} (h : Inv s) : Inv (busTo u st s) := inv_set h
theorem inv_busRaise {u b : Nat} (h : Inv s) : Inv (busRaise u b s) := inv_raise h
theorem inv_modCan {n : Nat} {f : CanH → CanH} (h : Inv s) : Inv (s.modCan n f) := inv_mk h
theorem inv_modMvb {m : Nat} {f : MvbH → MvbH} (h : Inv s) : Inv (s.modMvb m f) := inv_mk h
theorem inv_modSer {u : Nat} {f : SerH → SerH} (h : Inv s) : Inv (s.modSer u f) := inv_mk h
theorem inv_busEmpty {u : Nat} (h : Inv s) :
    Inv (busEmpty u s) := inv_ite (inv_setN (inv_modCan h)) (inv_ite (inv_modMvb h) (inv_modSer h))
theorem inv_busFields {u : Nat} {v : Word} (h : Inv s) : Inv (busFields u v s) := inv_setReg h
theorem inv_busEnable {m : Master} {u : Nat} {v : Word} (h : Inv s) : Inv (busEnable m u v s) :=
  inv_ite h (inv_ite (inv_set (inv_set (inv_busTo (inv_busEmpty (inv_busFields h))))) (inv_set (inv_busFields h)))
theorem keeps_execBusEnable {m : Master} {u : Fin 24} {v : Word} : Keeps s (execBusEnable m u v s) :=
  keeps_next fun h => inv_inCore h (fun _ => inv_busEnable)
theorem inv_canPick {n : Nat} (h : Inv s) : Inv (canPick n s) := inv_ite (inv_modCan h) h
theorem inv_canIdle {n : Nat} (h : Inv s) : Inv (canIdle n s) := inv_canPick (inv_modCan h)
theorem inv_busDisable {m : Master} {u : Nat} {v : Word} {wire : Option Nat} (h : Inv s) : Inv (busDisable m u v wire s) := by
  unfold busDisable
  extract_lets s1 left keep gone r writes keep1
  have h1 : Inv s1 := inv_set (inv_busTo h)
  have hleft : ∀ n s2, Inv s2 → Inv (left n s2) := fun _ _ h2 => inv_set h2
  exact inv_ite h (inv_ite (inv_busFields h) (inv_ite h (inv_ite (hleft _ _ h1) (inv_ite (hleft _ _ (inv_modCan (inv_setN h1)))
      (inv_ite (inv_ite (hleft _ _ h1) (hleft _ _ (inv_modMvb h1))) (hleft _ _ (inv_modSer h1)))))))
theorem keeps_execBusDisable {m : Master} {u : Fin 24} {v : Word} {wire : Option (Fin 16)} : Keeps s (execBusDisable m u v wire s) :=
  keeps_next fun h => inv_inCore h (fun _ => inv_busDisable)
theorem inv_busStop {u : Nat} (h : Inv s) : Inv (busStop u s) :=
  inv_ite (inv_ite (inv_setN (inv_set (inv_busTo h))) (inv_ite (inv_busTo h) (inv_modSer (inv_busTo h)))) h
theorem keeps_execBusStop {u : Fin 24} : Keeps s (execBusStop u s) := keeps_next fun h => inv_inCore h (fun _ => inv_busStop)
theorem inv_rxPush {u : Nat} {w : Word} (h : Inv s) : Inv (rxPush u w s) := inv_ite (inv_busRaise h) (inv_busRaise (inv_modSer h))
theorem inv_rxFifoPop {u : Nat} (h : Inv s) : Inv (rxFifoPop u s).2 := by
  unfold rxFifoPop
  split
  · split
    · exact h
    · exact inv_modCan h
  split
  · exact h
  split
  · exact h
  · exact inv_modSer h
theorem keeps_execRxFifoPop {u : Fin 24} : Keeps s (execRxFifoPop u s) := by
  refine keeps_next fun h => ?_
  refine inv_inCore h (fun s1 h1 => ?_)
  split
  rename_i s2 e
  have h2 : Inv s2 := inv_snd_of_eq e (inv_rxFifoPop h1)
  exact inv_mk h2
theorem inv_uartDe {u : Nat} (h : Inv s) : Inv (uartDe u s) := inv_when h (fun _ => inv_modSer)
theorem inv_txFifoWrite {m : Master} {u : Nat} {v : Word} (h : Inv s) : Inv (txFifoWrite m u v s) :=
  inv_ite h (inv_ite (inv_modSer h) (inv_ite (inv_busRaise h) (inv_modSer (inv_uartDe h))))
theorem keeps_execTxFifoWrite {m : Master} {u : Fin 24} {v : Word} : Keeps s (execTxFifoWrite m u v s) :=
  keeps_next fun h => inv_inCore h (fun _ => inv_txFifoWrite)
theorem inv_canTxReq {m : Master} {n : Nat} {v : Word} (h : Inv s) : Inv (canTxReq m n v s) :=
  inv_ite (inv_canPick (inv_setN (inv_canPick h))) h
theorem keeps_execCanTxReq {m : Master} {n : Fin 8} {v : Word} : Keeps s (execCanTxReq m n v s) :=
  keeps_next fun h => inv_inCore h (fun _ => inv_canTxReq)
theorem inv_canTxCancel {m : Master} {n : Nat} {v : Word} {wire : Option Nat} (h : Inv s) : Inv (canTxCancel m n v wire s) :=
  inv_ite h (inv_canPick (inv_modCan (inv_setN (inv_canPick h))))
theorem keeps_execCanTxCancel {m : Master} {n : Fin 8} {v : Word} {wire : Option (Fin 16)} : Keeps s (execCanTxCancel m n v wire s) :=
  keeps_next fun h => inv_inCore h (fun _ => inv_canTxCancel)
theorem inv_canFault {n tec rec : Nat} (h : Inv s) : Inv (canFault n tec rec s) :=
  inv_when (inv_when (inv_set (inv_set (inv_set h))) (fun _ => inv_busRaise)) (fun _ => inv_busRaise)
theorem inv_canError {n : Nat} (h : Inv s) : Inv (canError n s) := inv_busRaise h
theorem inv_canReceive {n : Nat} {w0 w1 start : Word} {data : List Word} (h : Inv s) : Inv (canReceive n w0 w1 start data s) := by
  unfold canReceive
  extract_lets w01 len key hit s1 bs
  have h1 : Inv s1 := by
    unfold s1
    clear_value hit
    split
    · exact h
    · exact inv_ite (inv_busRaise h) (inv_busRaise (inv_modCan h))
  exact inv_ite (inv_canError h) (inv_ite (inv_modCan h1) h1)
theorem inv_canHeard {n : Nat} {w0 w1 start : Word} {data : Option (List Word)} {rec : Nat} (h : Inv s) :
    Inv (canHeard n w0 w1 start data rec s) := by
  unfold canHeard
  extract_lets s1
  have h1 : Inv s1 := by
    unfold s1
    split
    · exact inv_canReceive h
    · exact inv_canError h
  exact inv_ite h (inv_canIdle (inv_canFault h1))
theorem keeps_execCanFrameReceive {n : Fin 8} {w0 w1 start : Word} {data : Option (List Word)} {rec : Fin 256} :
    Keeps s (execCanFrameReceive n w0 w1 start data rec s) :=
  keeps_next fun h => inv_inCore h (fun _ => inv_canHeard)
theorem inv_canFrameEnd {n b result tec rec delay : Nat} {start : Word} (h : Inv s) :
    Inv (canFrameEnd n b result tec rec delay start s) := by
  unfold canFrameEnd
  extract_lets auto_ s1 drop
  have h1 : Inv s1 := inv_canFault h
  have hdrop : ∀ s2, Inv s2 → Inv (drop s2) := fun _ h2 => inv_setN h2
  refine inv_ite h ?_
  split
  extract_lets s2 cancelled s3 s4
  have h2 : Inv s2 := inv_when h1 (fun _ => inv_set)
  have h3 : Inv s3 := inv_modCan h2
  have h4 : Inv s4 := inv_when h3 (fun _ => inv_canReceive)
  exact inv_canIdle (inv_ite (inv_ite (inv_when (inv_busRaise h4) hdrop) (inv_busRaise (hdrop _ h4))) (inv_when (inv_when h3
      (fun _ => inv_busRaise)) hdrop))
theorem keeps_execCanFrameEnd {n : Fin 8} {b : Fin 16} {result : Fin 3} {tec : Fin 257} {rec : Fin 256} {at_ : Fin 65536 × Word} :
    Keeps s (execCanFrameEnd n b result tec rec at_ s) :=
  keeps_next fun h => inv_inCore h (fun _ => inv_canFrameEnd)
theorem inv_busOffRecovery {n : Nat} (h : Inv s) : Inv (busOffRecovery n s) := inv_ite (inv_canIdle (inv_busRaise (inv_canFault h))) h
theorem keeps_execBusOffRecovery {n : Fin 8} : Keeps s (execBusOffRecovery n s) :=
  keeps_next fun h => inv_inCore h (fun _ => inv_busOffRecovery)
theorem inv_canTxbWrite {m : Master} {n b w : Nat} {v : Word} (h : Inv s) : Inv (canTxbWrite m n b w v s) :=
  inv_ite (inv_set (inv_setReg h)) h
theorem inv_mvbCommit {m p : Nat} {ws : List Word} (h : Inv s) : Inv (mvbCommit m p ws s) := inv_modMvb h
theorem inv_mvbMasterFrame {m addr f : Nat} {line : Bool} (h : Inv s) : Inv (mvbMasterFrame m addr f line s) :=
  inv_ite h (inv_modMvb (inv_setB (inv_when h (fun _ => inv_busRaise))))
theorem keeps_execMvbMasterFrame {m : Fin 2} {addr : Fin 4096} {f : Fin 16} {line : Bool} :
    Keeps s (execMvbMasterFrame m addr f line s) :=
  keeps_next fun h => inv_inCore h (fun _ => inv_mvbMasterFrame)
theorem inv_mvbSlaveReply {m : Nat} (h : Inv s) : Inv (mvbSlaveReply m s) := by
  unfold mvbSlaveReply
  split
  · exact h
  · exact inv_ite (inv_modMvb h) (inv_busRaise (inv_modMvb h))
theorem keeps_execMvbSlaveReply {m : Fin 2} : Keeps s (execMvbSlaveReply m s) :=
  keeps_next fun h => inv_inCore h (fun _ => inv_mvbSlaveReply)
theorem inv_mvbAdminError {m : Nat} (h : Inv s) :
    Inv (mvbAdminError m s) := inv_when h (fun _ h1 => inv_busRaise (inv_set (inv_modMvb h1)))
theorem inv_mvbSinkReceive {m : Nat} {ws : List Word} {ok : Bool} (h : Inv s) : Inv (mvbSinkReceive m ws ok s) := by
  unfold mvbSinkReceive
  extract_lets ps s1
  have h1 : Inv s1 := inv_modMvb h
  exact inv_ite h (inv_ite (inv_mvbAdminError (inv_busRaise (inv_modMvb h))) (inv_forEach h1 (fun _ _ h2 => inv_when (inv_modMvb
      (inv_setN (inv_mvbCommit h2))) (fun _ => inv_busRaise))))
theorem keeps_execMvbSinkReceive {m : Fin 2} {ws : List Word} {ok : Bool} : Keeps s (execMvbSinkReceive m ws ok s) :=
  keeps_next fun h => inv_inCore h (fun _ => inv_mvbSinkReceive)
theorem inv_mvbDataWrite {mas : Master} {m p w : Nat} {v : Word} (h : Inv s) : Inv (mvbDataWrite mas m p w v s) :=
  inv_ite h (inv_ite (inv_mvbCommit (inv_modMvb h)) (inv_modMvb h))
theorem keeps_execMvbSourceCommit {mas : Master} {m : Fin 2} {p : Fin 256} {v : Word} : Keeps s (execMvbSourceCommit mas m p v s) :=
  keeps_next fun h => inv_inCore h (fun _ => inv_mvbDataWrite)
theorem inv_mvbDataRead {r : Reader} {m p w : Nat} (h : Inv s) : Inv (mvbDataRead r m p w s).2 := by
  unfold mvbDataRead
  extract_lets n others put ws
  have hput : ∀ l s1, Inv s1 → Inv (put l s1) := fun _ _ h1 => inv_modMvb h1
  split
  · exact h
  split
  · exact hput _ _ h
  split
  · exact inv_ite (hput _ _ h) h
  · exact h
theorem keeps_execMvbSinkRead {r : Reader} {m : Fin 2} {p : Fin 256} : Keeps s (execMvbSinkRead r m p s) := by
  refine keeps_next fun h => ?_
  refine inv_inCore h (fun s1 h1 => ?_)
  split
  rename_i s2 e
  have h2 : Inv s2 := inv_snd_of_eq e (inv_mvbDataRead h1)
  exact inv_mk h2
theorem inv_mvbLatchExpiry {r : Reader} {m : Nat} (h : Inv s) : Inv (mvbLatchExpiry r m s) := inv_modMvb h
theorem keeps_execMvbPortLatchExpiry {r : Reader} {m : Fin 2} : Keeps s (execMvbPortLatchExpiry r m s) :=
  keeps_next fun h => inv_inCore h (fun _ => inv_mvbLatchExpiry)
theorem inv_mvbCycle (h : Inv s) : Inv (mvbCycle s) := inv_mk h
theorem inv_mvbAdminCmd {mas : Master} {m : Nat} {v : Word} (h : Inv s) : Inv (mvbAdminCmd mas m v s) :=
  inv_ite h (inv_ite (inv_set h) (inv_modMvb (inv_mvbMasterFrame h)))
theorem keeps_execMvbAdminCmd {mas : Master} {m : Fin 2} {v : Word} : Keeps s (execMvbAdminCmd mas m v s) :=
  keeps_next fun h => inv_inCore h (fun _ => inv_mvbAdminCmd)
theorem inv_mvbAdminTimeout {m : Nat} (h : Inv s) : Inv (mvbAdminTimeout m s) := inv_ite (inv_busRaise (inv_set (inv_modMvb h))) h
theorem keeps_execMvbAdminTimeout {m : Fin 2} : Keeps s (execMvbAdminTimeout m s) :=
  keeps_next fun h => inv_inCore h (fun _ => inv_mvbAdminTimeout)
theorem inv_mvbAdminReply {m : Nat} {ws : List Word} (h : Inv s) : Inv (mvbAdminReply m ws s) :=
  inv_ite (inv_busRaise (inv_set (inv_modMvb (inv_forEach h (fun _ _ => inv_setReg))))) h
theorem keeps_execMvbAdminReply {m : Fin 2} {ws : List Word} : Keeps s (execMvbAdminReply m ws s) :=
  keeps_next fun h => inv_inCore h (fun _ => inv_mvbAdminReply)
theorem inv_uartReceive {n : Nat} {c : BitVec 9} {parity framing brk : Bool} (h : Inv s) :
    Inv (uartReceive n c parity framing brk s) := by
  unfold uartReceive
  extract_lets u bits w s1
  have h1 : Inv s1 := inv_modSer (inv_rxPush h)
  exact inv_ite h (inv_when (inv_when (inv_when h1 (fun _ => inv_busRaise)) (fun _ => inv_busRaise)) (fun _ => inv_busRaise))
theorem inv_uartSent {n : Nat} (h : Inv s) : Inv (uartSent n s) := by
  unfold uartSent
  extract_lets u
  split
  · exact h
  · exact inv_ite h (inv_when (inv_when (inv_modSer h) (fun _ => inv_busRaise)) (fun _ => inv_uartReceive))
theorem keeps_execUartCharacter {n : Fin 8} {sent : Bool} {c : BitVec 9} {parity framing brk : Bool} :
    Keeps s (execUartCharacter n sent c parity framing brk s) :=
  keeps_next fun h => inv_inCore h (fun _ h1 => inv_ite (inv_uartSent h1) (inv_uartReceive h1))
theorem inv_uartIdle {n : Nat} (h : Inv s) : Inv (uartIdle n s) := inv_ite h (inv_busRaise (inv_modSer h))
theorem keeps_execUartIdle {n : Fin 8} : Keeps s (execUartIdle n s) := keeps_next fun h => inv_inCore h (fun _ => inv_uartIdle)
theorem inv_spiWord {n : Nat} {w : Word} {last : Bool} (h : Inv s) : Inv (spiWord n w last s) := by
  unfold spiWord
  extract_lets u bits r got emptied s1 cs s2
  have hemptied : ∀ s3, Inv s3 → Inv (emptied s3) := fun _ h1 => inv_when h1 (fun _ => inv_busRaise)
  have h1 : Inv s1 := inv_ite h (inv_ite (inv_busRaise h) (hemptied _ (inv_modSer h)))
  have h2 : Inv s2 := hemptied _ (inv_modSer h)
  exact inv_ite h (inv_ite (inv_when (inv_rxPush h1) (fun _ => inv_busRaise)) (inv_ite h (inv_when (inv_rxPush h2)
      (fun _ => inv_busRaise))))
theorem keeps_execSpiWord {n : Fin 4} {w : Word} {last : Bool} : Keeps s (execSpiWord n w last s) :=
  keeps_next fun h => inv_inCore h (fun _ => inv_spiWord)
theorem inv_i2cCmd {m : Master} {n : Nat} {v : Word} (h : Inv s) : Inv (i2cCmd m n v s) := inv_ite (inv_modSer h) h
theorem keeps_execI2cCmd {m : Master} {n : Fin 2} {v : Word} : Keeps s (execI2cCmd m n v s) :=
  keeps_next fun h => inv_inCore h (fun _ => inv_i2cCmd)
theorem inv_i2cDone {n result sent : Nat} {got : List Byte} (h : Inv s) : Inv (i2cDone n result sent got s) := by
  unfold i2cDone
  extract_lets u s1
  have h1 : Inv s1 := inv_modSer h
  split
  · exact h
  · exact inv_ite h (inv_busRaise (inv_ite (inv_forEach h1 (fun _ _ => inv_rxPush)) (inv_modSer h1)))
theorem keeps_execI2cTransferDone {n : Fin 2} {result : Fin 3} {sent : Fin 33} {got : List Byte} :
    Keeps s (execI2cTransferDone n result sent got s) :=
  keeps_next fun h => inv_inCore h (fun _ => inv_i2cDone)
theorem inv_i2cTarget {n : Nat} {read : Bool} {got : List Byte} (h : Inv s) : Inv (i2cTarget n read got s) := by
  unfold i2cTarget
  extract_lets u s1
  have h1 : Inv s1 := inv_busRaise h
  refine inv_ite h (inv_ite (inv_forEach h1 (fun _ _ => inv_rxPush)) (inv_ite h1 ?_))
  split
  · exact inv_modSer h1
  · exact inv_modSer h1
theorem keeps_execI2cTargetRequest {n : Fin 2} {read : Bool} {got : List Byte} : Keeps s (execI2cTargetRequest n read got s) :=
  keeps_next fun h => inv_inCore h (fun _ => inv_i2cTarget)
theorem inv_stretchTimeout {n : Nat} (h : Inv s) : Inv (stretchTimeout n s) := by
  unfold stretchTimeout
  extract_lets u
  split
  · exact h
  · exact inv_ite (inv_busRaise (inv_modSer h)) h
theorem keeps_execStretchTimeout {n : Fin 2} : Keeps s (execStretchTimeout n s) :=
  keeps_next fun h => inv_inCore h (fun _ => inv_stretchTimeout)

/-! ### Sys2Proof/Machine/Slots.lean -/

theorem inv_modBoot {f : BootH → BootH} (h : Inv s) : Inv (s.modBoot f) := inv_mk h
theorem inv_recFallback {ids : List Nat} (h : Inv s) : Inv (recFallback ids s) := inv_when h (fun _ => inv_raise)
theorem inv_writeRecord {id : Nat} {body : List Byte} (h : Inv s) : Inv (writeRecord id body s) := inv_modBoot h
theorem inv_clearRecord {id : Nat} (h : Inv s) : Inv (clearRecord id s) := inv_modBoot h
theorem inv_show48 {a : Nat} {v : List Byte} (h : Inv s) : Inv (show48 a v s) := inv_forEach h (fun _ _ => inv_setN)
theorem inv_loadEntry {x t : Nat} {e : ImageEntry} (h : Inv s) : Inv (loadEntry x t e s) := inv_setBytes h
theorem inv_loadTile {x t : Nat} (h : Inv s) : Inv (loadTile x t s) :=
  inv_modTile (inv_forEach (inv_forEach h (fun _ _ => inv_loadEntry)) (fun _ _ => inv_goodMem))

/-! ### Sys2Proof/Machine/Apply.lean -/

theorem inv_loadReg {p : Nat → Bool} {a v : Nat} (h : Inv s) : Inv (loadReg p a v s) := inv_when h (fun _ => inv_setN)
theorem inv_applyClock {b : List Byte} (h : Inv s) : Inv (applyClock b s) :=
  inv_when (inv_set (inv_setN (inv_setN (inv_setN (inv_setN h))))) (fun _ => inv_spreadStart)
theorem inv_bootList (h : Inv s) : Inv (bootList s) := inv_set (inv_set (inv_resetRegs h))
theorem inv_applyMemory {b : List Byte} {p : Nat → Bool} (h : Inv s) : Inv (applyMemory b p s) := by
  unfold applyMemory
  extract_lets s1
  have h1 : Inv s1 := by
    refine inv_forEach h (fun i s2 h2 => ?_)
    split
    exact inv_loadReg h2
  exact inv_loadReg h1
theorem inv_applyWorlds {b : List Byte} {p : Nat → Bool} (h : Inv s) : Inv (applyWorlds b p s) :=
  inv_forEach h (fun _ _ h1 => inv_forEach h1 (fun _ _ h2 => inv_forEach h2 (fun _ _ => inv_loadReg)))
theorem inv_applyEdgeSafe {b : List Byte} {p : Nat → Bool} (h : Inv s) : Inv (applyEdgeSafe b p s) :=
  inv_forEach h (fun _ _ => inv_loadReg)
theorem inv_applyPortRecs {b : List Byte} {p : Nat → Bool} (h : Inv s) : Inv (applyPortRecs b p s) :=
  inv_forEach h (fun _ _ => inv_loadReg)
theorem inv_reloadInv {p : Nat → Bool} (h : Inv s) : Inv (reloadInv p s) :=
  inv_ite (inv_applyPortRecs (inv_applyEdgeSafe (inv_applyWorlds (inv_applyMemory h)))) h
theorem inv_bankToDefault {b : Nat} (h : Inv s) : Inv (bankToDefault b s) := by
  unfold bankToDefault
  split
  · exact inv_modBank (inv_set (inv_bankClamp (inv_bankTo h)))
  · exact inv_bankWake h
  · exact inv_bankWake h
theorem inv_domFresh {d : Nat} (h : Inv s) : Inv (domFresh d s) := by
  unfold domFresh
  extract_lets s1 t s2 s3 s4 c s5 s6 s7 s8 s9 s10 s11
  have h1 : Inv s1 := inv_reloadInv (inv_resetRegs h)
  have h2 : Inv s2 := inv_goodMem (inv_clearMem (inv_tileReset h1))
  have h3 : Inv s3 := inv_forEach h2 (fun _ _ => inv_modDma)
  have h4 : Inv s4 := inv_reloadInv h3
  have h5 : Inv s5 := inv_clearMem h1
  have h6 : Inv s6 := inv_goodMem h5
  have h7 : Inv s7 := inv_forEach h6 (fun _ _ => inv_modDma)
  have h8 : Inv s8 := inv_mk h7
  have h9 : Inv s9 := inv_forEach h8 (fun _ _ => inv_modEdg)
  have h10 : Inv s10 := inv_modOmt h9
  have h11 : Inv s11 := inv_forEach h10 (fun _ _ => inv_modGrp)
  exact inv_ite (inv_modTile h4) (inv_ite (inv_modAdc (inv_modAdc h1)) (inv_ite (inv_forEach h11 (fun _ _ h12 => inv_bankClamp
      (inv_bankTo (inv_modBank h12)))) (inv_ite (inv_gateEntry h1) h1)))
theorem inv_domClamp {d : Nat} (h : Inv s) : Inv (domClamp d s) := by
  unfold domClamp
  extract_lets s1
  have h1 : Inv s1 := inv_raise h
  exact inv_ite (inv_gptpSelect (inv_linkChange h1)) (inv_ite (inv_modOmt h1) (inv_ite (inv_outputsSafe h1) h1))
theorem inv_applyPower {b : List Byte} (h : Inv s) : Inv (applyPower b s) := by
  unfold applyPower
  exact inv_forEach h (fun _ _ h1 => inv_ite (inv_when (inv_setB (inv_setB h1)) (fun _ h2 => inv_set (inv_domClamp h2))) (inv_set
      (inv_set (inv_when (inv_setB (inv_setB h1)) (fun _ => inv_domFresh)))))
theorem inv_applyBanks {b : List Byte} (h : Inv s) : Inv (applyBanks b s) :=
  inv_modMem (inv_raise (inv_forEach h (fun _ _ => inv_set)))
theorem inv_showActive (h : Inv s) : Inv (showActive s) := inv_forEach (inv_set (inv_setN h)) (fun _ _ => inv_setN)
theorem inv_applyManifest {b : List Byte} (h : Inv s) : Inv (applyManifest b s) :=
  inv_forEach (inv_mk (inv_resetRegs (inv_setN h))) (fun _ _ h1 => inv_when h1 (fun _ => inv_set))
theorem inv_applySplit {b : List Byte} (h : Inv s) : Inv (applySplit b s) := inv_forEach h (fun _ _ h1 => inv_set (inv_set h1))
theorem inv_applyInventory {b : List Byte} (h : Inv s) : Inv (applyInventory b s) := by
  unfold applyInventory
  extract_lets base s1 s2 s3 s4 base1 s5
  have h1 : Inv s1 := inv_showActive (inv_mk h)
  have h2 : Inv s2 := inv_applyWorlds (inv_applyMemory h1)
  have h3 : Inv s3 := inv_applyBalls (inv_applyPower (inv_applyBanks h2))
  have h4 : Inv s4 := inv_applySplit (inv_applyVote h3)
  have h5 : Inv s5 := inv_mk h4
  exact inv_gptpSelect (inv_applyManifest (inv_applyScheds h5))

/-! ### Sys2Proof/Machine/Power.lean -/

theorem inv_modPwr {f : PwrH → PwrH} (h : Inv s) : Inv (s.modPwr f) := inv_mk h
theorem inv_domEnter {d : Nat} (h : Inv s) : Inv (domEnter d s) := inv_when (inv_modPwr (inv_set h)) (fun _ => inv_tileReset)
theorem inv_domGoOff {d : Nat} (h : Inv s) : Inv (domGoOff d s) := inv_forEach h (fun _ _ => inv_domEnter)
theorem inv_domWake {d : Nat} (h : Inv s) : Inv (domWake d s) := inv_modPwr (inv_set (inv_set h))
theorem inv_domainRequest {m : Master} {d : Nat} {v : Word} (h : Inv s) : Inv (domainRequest m d v s) := by
  unfold domainRequest
  extract_lets off st result s1 s2
  have hresult : ∀ n s3, Inv s3 → Inv (result n s3) := fun _ _ h1 => inv_set h1
  have h1 : Inv s1 := inv_setB (inv_setB (hresult _ _ h))
  have h2 : Inv s2 := inv_when h1 (fun _ => inv_setB)
  exact inv_ite (inv_raise (hresult _ _ h)) (inv_ite (hresult _ _ h) (inv_ite (inv_raise (hresult _ _ h)) (inv_ite (inv_domGoOff h2)
      (inv_ite (inv_domWake h2) h2))))
theorem keeps_execDomainRequest {m : Master} {d : Fin 47} {v : Word} : Keeps s (execDomainRequest m d v s) :=
  keeps_next fun h => inv_inCore h (fun _ => inv_domainRequest)
theorem inv_domCycle (h : Inv s) : Inv (domCycle s) := inv_modPwr (inv_forEach h (fun _ _ h1 => inv_when h1 (fun _ => inv_domClamp)))
theorem inv_domOffDone {d : Nat} (h : Inv s) : Inv (domOffDone d s) := by
  unfold domOffDone
  extract_lets ms s1 s2 s3 s4
  have h1 : Inv s1 := inv_forEach h (fun _ _ h2 => inv_raise (inv_set h2))
  have h2 : Inv s2 := inv_modPwr h1
  have h3 : Inv s3 := inv_raise h2
  have h4 : Inv s4 := inv_forEach h3 (fun _ _ => inv_domWake)
  exact inv_ite h (inv_modPwr h4)
theorem keeps_execDomainOffDone {d : Fin 47} : Keeps s (execDomainOffDone d s) :=
  keeps_next fun h => inv_inCore h (fun _ => inv_domOffDone)
theorem inv_domWakeDone {d : Nat} (h : Inv s) : Inv (domWakeDone d s) := by
  unfold domWakeDone
  extract_lets up s1 s2
  have h1 : Inv s1 := inv_set (inv_set (inv_domFresh h))
  have h2 : Inv s2 := inv_raise h1
  exact inv_ite h (inv_ite (inv_outputsSafe (inv_applyVoted (inv_forEach h2 (fun _ _ => inv_bankToDefault)))) h2)
theorem keeps_execDomainWakeDone {d : Fin 47} : Keeps s (execDomainWakeDone d s) :=
  keeps_next fun h => inv_inCore h (fun _ => inv_domWakeDone)
theorem keeps_execTileReloadDone {t : Fin 24} : Keeps s (execTileReloadDone t s) := keeps_next fun h => inv_ite (inv_loadTile h) h
theorem inv_dozeEntry {t : Nat} (h : Inv s) : Inv (dozeEntry t s) := inv_ite (inv_raise (inv_modTile h)) h
theorem keeps_execDozeEntry {t : Fin 24} : Keeps s (execDozeEntry t s) := keeps_next fun h => inv_inCore h (fun _ => inv_dozeEntry)
theorem keeps_execDozeWake {t : Fin 24} : Keeps s (execDozeWake t s) :=
  keeps_next fun h => inv_inCore h (fun _ h1 => inv_ite (inv_set h1) h1)
theorem inv_entryStart {m : Master} {cellar : Bool} (h : Inv s) : Inv (entryStart m cellar s) :=
  inv_ite h (inv_ite (inv_set h) (inv_setB (inv_set (inv_set (inv_raise (inv_modPwr (inv_set h)))))))
theorem keeps_execDrizzle {m : Master} : Keeps s (execDrizzle m s) := keeps_next inv_entryStart
theorem keeps_execCellar {m : Master} : Keeps s (execCellar m s) := keeps_next inv_entryStart
theorem inv_entryCancel (h : Inv s) : Inv (entryCancel s) := inv_raise (inv_set (inv_modPwr h))
theorem keeps_execCancel {m : Master} : Keeps s (execCancel m s) :=
  keeps_next fun h => inv_ite h (inv_ite (inv_set h) (inv_ite (inv_entryCancel h) h))
theorem inv_entryStep {n us : Nat} {f : State → State} (h : Inv s) (hf : ∀ s, Inv s → Inv (f s)) : Inv (entryStep n us f s) := by
  unfold entryStep
  split
  · exact inv_ite (hf _ (inv_modPwr h)) h
  · exact h
theorem keeps_execNoticeEnd : Keeps s (execNoticeEnd s) :=
  keeps_next fun h => inv_inCore h (fun _ h1 => inv_entryStep h1 (fun _ h2 => inv_modPwr (inv_netStop (inv_forEach (inv_forEach h2
      (fun _ _ => inv_tileReset)) (fun _ _ => inv_chDisable)))))
theorem keeps_execMramFlushPoint : Keeps s (execMramFlushPoint s) :=
  keeps_next fun h => inv_inCore h (fun _ h1 => inv_entryStep h1 (fun _ h2 => inv_showLines (inv_modMem h2)))
theorem keeps_execDomainShutdownPoint : Keeps s (execDomainShutdownPoint s) :=
  keeps_next fun h => inv_inCore h (fun _ h1 => inv_entryStep h1 (fun _ h2 => inv_forEach (inv_forEach h2 (fun _ _ h3 => inv_ite
      (inv_bankEnter h3) (inv_ite (inv_modBank h3) (inv_modBank (inv_bankClamp (inv_bankTo h3)))))) (fun _ _ => inv_domGoOff)))
theorem inv_afterLoss {regs keys : Nat → Bool} (h : Inv s) : Inv (afterLoss regs keys s) :=
  ⟨canonical_filter _ h.1, canonical_filter _ h.2⟩
theorem inv_lowPowerEntered {cellar : Bool} (h : Inv s) : Inv (lowPowerEntered cellar s) := by
  unfold lowPowerEntered
  extract_lets latched mismatch volts banks wakes tick locked s1 base s2 base1 s3 s4 s5 s6
  have h1 : Inv s1 := inv_afterLoss h
  have h2 : Inv s2 := inv_withClk h1
  have hbase1 : Inv base1 := inv_setReg h2
  have h3 : Inv s3 := inv_mk hbase1
  have h4 : Inv s4 := inv_forEach h3 (fun _ _ h5 => inv_modBank (inv_bankClamp (inv_bankTo h5)))
  have h5 : Inv s5 := inv_forEach h4 (fun _ _ h6 => inv_raise (inv_set h6))
  have h6 : Inv s6 := inv_set h5
  exact inv_modPwr h6
theorem inv_startWake {cause : Nat} (h : Inv s) : Inv (startWake cause s) := by
  unfold startWake
  split
  · exact inv_when h (fun _ => inv_set)
  extract_lets s1 base s2 s3 s4 s5
  have h1 : Inv s1 := inv_resetRegs h
  have h2 : Inv s2 := inv_mk h1
  have h3 : Inv s3 := inv_bump (inv_setB (inv_set h2))
  have h4 : Inv s4 := inv_forEach h3 (fun _ _ h5 => inv_set (inv_set h5))
  have h5 : Inv s5 := inv_modPwr h4
  exact inv_modBoot h5
theorem keeps_execLowPowerEntryDone : Keeps s (execLowPowerEntryDone s) := by
  refine keeps_next fun h => ?_
  refine inv_inCore h (fun s1 h1 => ?_)
  split
  · exact inv_ite (inv_when (inv_lowPowerEntered h1) (fun _ => inv_startWake)) h1
  · exact h1
theorem inv_wakeAssert {src : Nat} (h : Inv s) : Inv (wakeAssert src s) := by
  unfold wakeAssert
  extract_lets cellar w
  refine inv_ite h ?_
  split
  · exact inv_entryCancel h
  · exact inv_modPwr h
  · exact inv_startWake h
theorem keeps_execWake {src : BitVec 14} : Keeps s (execWake src s) := keeps_next fun h => inv_ite h (inv_wakeAssert h)
theorem keeps_execTamperTrip {x : Fin 2} {level : Bool} {cycles : Nat} : Keeps s (execTamperTrip x level cycles s) :=
  keeps_next fun h => inv_when (inv_tamperTrip h) (fun _ => inv_wakeAssert)
theorem keeps_execWakeTimer : Keeps s (execWakeTimer s) :=
  keeps_next fun h => inv_ite h (inv_wakeAssert (inv_when (inv_setPair h) (fun _ => inv_modBoot)))
theorem inv_drizzleTick (h : Inv s) : Inv (drizzleTick s) := inv_ite h (inv_modPwr (inv_count (inv_setPair h)))
theorem keeps_execDrizzleTick : Keeps s (execDrizzleTick s) := keeps_next inv_drizzleTick
theorem inv_drizzleCheck {count : Nat} (h : Inv s) : Inv (drizzleCheck count s) := by
  unfold drizzleCheck
  extract_lets s1 none_ s2
  have h1 : Inv s1 := inv_setPair h
  have h2 : Inv s2 := inv_modPwr (inv_bump h1)
  exact inv_ite (inv_modPwr h1) (inv_ite (inv_startWake h2) (inv_when h2 (fun _ => inv_startWake)))
theorem keeps_execWatchCheck {count : Nat} : Keeps s (execWatchCheck count s) :=
  keeps_next fun h => inv_ite h (inv_ite (inv_ite (inv_drizzleCheck h) h) (inv_watchCheck h))
theorem inv_histPush {w : Nat} (h : Inv s) : Inv (histPush w s) := inv_ite (inv_set (inv_setN h)) (inv_ite h (inv_set (inv_setN h)))
theorem inv_drizzleResult {vin : Int} (h : Inv s) : Inv (drizzleResult vin s) := by
  unfold drizzleResult
  split
  · exact h
  refine inv_ite h ?_
  split
  exact inv_ite (inv_modPwr (inv_setN (inv_modPwr (inv_histPush h)))) (inv_modPwr (inv_histPush h))
theorem keeps_execDrizzleResult {vin : Int} : Keeps s (execDrizzleResult vin s) := keeps_next inv_drizzleResult
theorem inv_drizzleCycleEnd (h : Inv s) : Inv (drizzleCycleEnd s) := by
  unfold drizzleCycleEnd
  split
  · exact h
  · exact inv_ite h (inv_when (inv_modPwr h) (fun _ => inv_startWake))
theorem keeps_execDrizzleCycleEnd : Keeps s (execDrizzleCycleEnd s) := keeps_next inv_drizzleCycleEnd
theorem keeps_execHistClear {m : Master} : Keeps s (execHistClear m s) :=
  keeps_next fun h => inv_ite (inv_resetRegs (inv_setN h)) h
theorem inv_drizzleReinit (h : Inv s) : Inv (drizzleReinit s) := inv_modPwr (inv_setN h)
theorem keeps_execPowerOnReset : Keeps s (execPowerOnReset s) := keeps_next fun h => inv_mk (inv_modBoot (inv_afterLoss h))
theorem keeps_execPowerOnResetRelease : Keeps s (execPowerOnResetRelease s) := keeps_next inv_modPwr
theorem keeps_execSupwarn : Keeps s (execSupwarn s) := keeps_next fun h => inv_ite h (inv_fault (inv_raise (inv_raise (inv_modMem h))))
theorem keeps_execSupwarnRelease : Keeps s (execSupwarnRelease s) := keeps_next fun h => inv_ite h (inv_set (inv_modMem h))

/-! ### Sys2Proof/Machine/Fns.lean -/

theorem inv_crcDisable {abort : Bool} {d : Nat} (h : Inv s) : Inv (crcDisable abort d s) := inv_ite (inv_chDisable (inv_drawn h)) h
theorem inv_stagingIdle (h : Inv s) : Inv (stagingIdle s) := inv_progress (inv_set (inv_resetRegs (inv_mk h)))
theorem inv_fnDisable {f : Nat} {abort reinit : Bool} (h : Inv s) : Inv (fnDisable f abort reinit s) := by
  unfold fnDisable
  split
  · exact inv_withClk h
  · exact inv_when h (fun _ h1 => inv_forEach h1 (fun _ _ => inv_modPort))
  · exact inv_learnDisable h
  · exact inv_when h (fun _ => inv_voteAbort)
  · exact inv_adcPlausDisable h
  · exact inv_forEach h (fun _ _ => inv_crcDisable)
  · exact inv_when h (fun _ => inv_stagingIdle)
  · exact inv_when h (fun _ => inv_takeoverAbort)
  · exact h
theorem inv_sourcesProving (h : Inv s) : Inv (sourcesProving s) :=
  inv_forEach h (fun _ _ h1 => inv_ite h1 (inv_withClk (inv_set (inv_set h1))))
theorem inv_servoRestart (h : Inv s) : Inv (servoRestart s) := inv_refreshDegraded (inv_showSlew (inv_set (inv_withTt h)))
theorem inv_drawNonce (h : Inv s) : Inv (drawNonce s) := inv_modBoot (inv_raise (inv_forEach h (fun _ _ h1 => inv_drawn (inv_setReg h1))))
theorem inv_newNonce (h : Inv s) : Inv (newNonce s) := inv_when h (fun _ => inv_drawNonce)
theorem inv_fnReset {f : Nat} (h : Inv s) : Inv (fnReset f s) := by
  unfold fnReset
  split
  · exact inv_sourcesProving (inv_resetRegs h)
  · exact inv_servoRestart (inv_resetRegs h)
  · exact inv_learnReinit h
  · exact inv_voteReinit h
  · exact inv_adcPlausReset h
  · exact inv_forEach h (fun _ _ => inv_modDma)
  · exact inv_newNonce h
  · exact inv_drizzleReinit h
  · exact inv_when h (fun _ => inv_stagingIdle)
  · exact inv_forEach h (fun _ _ h1 => inv_set (inv_set h1))
  · exact h
theorem inv_fnChange {f v : Nat} {override : Bool} (h : Inv s) : Inv (fnChange f v override s) := by
  unfold fnChange
  extract_lets mode policy was old s1 s2 base s3
  have h1 : Inv s1 := inv_set (inv_set h)
  have h2 : Inv s2 := inv_set (inv_setB h1)
  have h3 : Inv s3 := inv_mk h2
  exact inv_ite (inv_set h) (inv_ite h3 (inv_fnDisable h3))
theorem inv_functionIdle {f : Nat} (h : Inv s) : Inv (functionIdle f s) :=
  inv_ite h (inv_progress (inv_progress (inv_raise (inv_set (inv_mk (inv_when h (fun _ => inv_fnReset)))))))
theorem keeps_execFunctionIdle {f : Fin 11} : Keeps s (execFunctionIdle f s) :=
  keeps_next fun h => inv_inCore h (fun _ => inv_functionIdle)
theorem inv_rungTaken {code fn cause : Nat} (h : Inv s) : Inv (rungTaken code fn cause s) := by
  unfold rungTaken
  split
  rename_i s1 e
  have h1 : Inv s1 := by
    split at e
    · cases e; exact h
    · cases e; exact inv_drawn h
  exact inv_raise (inv_bump (inv_set (inv_set (inv_set h1))))
theorem inv_reInit {f cause : Nat} (h : Inv s) : Inv (reInit f cause s) := by
  unfold reInit
  extract_lets s1 base s2 s3 s4 n s5
  have h1 : Inv s1 := inv_rungTaken h
  have h2 : Inv s2 := inv_mk h1
  have h3 : Inv s3 := inv_bump h2
  have h4 : Inv s4 := inv_ite h3 (inv_fnDisable (inv_set h3))
  have h5 : Inv s5 := inv_when (inv_set h4) (fun _ => inv_mk)
  exact inv_ite (inv_rung3Counted (inv_raise (inv_set h5))) h5
theorem keeps_execReInit {f : Fin 11} : Keeps s (execReInit f s) := keeps_next fun h => inv_ite (inv_reInit h) h
theorem inv_windowClose {n : Nat} (h : Inv s) : Inv (windowClose n s) := by
  unfold windowClose
  exact inv_ite (inv_when h (fun _ => inv_set)) (inv_ite (inv_when h (fun _ => inv_set)) (inv_when h (fun _ => inv_set)))
theorem keeps_execSquallWindowClose {n : Fin 23} : Keeps s (execSquallWindowClose n s) :=
  keeps_next fun h => inv_inCore h (fun _ => inv_windowClose)

/-! ### Sys2Proof/Machine/Staging.lean -/

theorem inv_modInv {f : InvH → InvH} (h : Inv s) : Inv (s.modInv f) := inv_mk h
theorem inv_invResult {code : Nat} (h : Inv s) : Inv (invResult code s).2 := inv_setReg (inv_set h)
theorem inv_stageBegin {persist : Bool} {total : Nat} {digest : List Byte} (h : Inv s) : Inv (stageBegin persist total digest s).2 := by
  unfold stageBegin
  extract_lets s1
  have h1 : Inv s1 := inv_modInv h
  split
  · exact inv_invResult h
  split
  · exact inv_invResult h
  · exact inv_invResult (inv_progress (inv_set h1))
theorem keeps_execStageBegin {persist : Bool} {total : BitVec 32} {digest : List Byte} :
    Keeps s (execStageBegin persist total digest s) :=
  keeps_next inv_stageBegin
theorem inv_stageData {offset : Nat} {d : List Byte} (h : Inv s) : Inv (stageData offset d s).2 := by
  unfold stageData
  extract_lets n s1
  have h1 : Inv s1 := inv_progress (inv_modInv h)
  split
  · exact h
  · exact inv_when h1 (fun _ => inv_set)
theorem keeps_execStageData {offset : BitVec 32} {d : List Byte} : Keeps s (execStageData offset d s) :=
  keeps_next inv_stageData
theorem inv_verifyDone (h : Inv s) : Inv (verifyDone s) := by
  unfold verifyDone
  refine inv_ite h ?_
  split
  extract_lets s1 b f s2 s3
  have h1 : Inv s1 := inv_raise (inv_stagingIdle h)
  have h2 : Inv s2 := inv_setN h
  have h3 : Inv s3 := inv_forEach h2 (fun _ _ => inv_setN)
  exact inv_ite (inv_set (inv_set (inv_set h1))) (inv_progress (inv_raise (inv_set (inv_invResult h3))))
theorem keeps_execInventoryVerifyDone : Keeps s (execInventoryVerifyDone s) := keeps_next inv_verifyDone
theorem inv_stageArm {epoch instant : Nat} (h : Inv s) : Inv (stageArm epoch instant s).2 := by
  unfold stageArm
  extract_lets st code s1
  have h1 : Inv s1 := inv_setPair (inv_modInv h)
  split
  · exact inv_invResult h
  split
  · exact inv_invResult h
  split
  · exact inv_invResult h
  · exact inv_invResult (inv_progress (inv_set h1))
theorem keeps_execStageArm {epoch : BitVec 32} {instant : BitVec 64} : Keeps s (execStageArm epoch instant s) :=
  keeps_next inv_stageArm
theorem inv_stageCancel (h : Inv s) : Inv (stageCancel s).2 := by
  unfold stageCancel
  extract_lets st
  split
  · exact inv_invResult h
  split
  · exact inv_invResult h
  · exact inv_invResult (inv_stagingIdle h)
theorem keeps_execStageCancel : Keeps s (execStageCancel s) := keeps_next inv_stageCancel
theorem inv_revertCommand (h : Inv s) : Inv (revertCommand s).2 := by
  unfold revertCommand
  split
  · exact inv_invResult (inv_set (inv_modInv h))
  · exact inv_invResult h
theorem keeps_execRevert : Keeps s (execRevert s) := keeps_next inv_revertCommand
theorem inv_switchTo {b : List Byte} {n : Nat} (h : Inv s) : Inv (switchTo b n s) := by
  unfold switchTo
  extract_lets old s1 s2 s3
  have h1 : Inv s1 := inv_modInv h
  have h2 : Inv s2 := inv_showActive (inv_modInv h1)
  have h3 : Inv s3 := inv_setN h2
  split
  rename_i s4 e
  have h4 : Inv s4 := inv_snd_of_eq e (inv_epochVote h3)
  extract_lets s5 s6
  have h5 : Inv s5 := inv_epochScheds (inv_when h4 (fun _ => inv_raise))
  have h6 : Inv s6 := inv_forEach h5 (fun _ _ h7 => inv_set (inv_when h7 (fun _ => inv_fnChange)))
  exact inv_applyManifest (inv_set h6)
theorem inv_epochTick (h : Inv s) : Inv (epochTick s) :=
  inv_ite h (inv_progress (inv_raise (inv_set (inv_raise (inv_modInv (inv_switchTo (inv_setB h)))))))
theorem keeps_execEpochTick : Keeps s (execEpochTick s) := keeps_next fun h => inv_inCore h (fun _ => inv_epochTick)
theorem inv_retireFallback (h : Inv s) : Inv s.retireFallback := inv_drawn (inv_modInv h)
theorem inv_fallbackDiscard (h : Inv s) : Inv (fallbackDiscard s) := by
  unfold fallbackDiscard
  split
  · exact inv_ite (inv_set (inv_modInv h)) h
  · exact h
theorem inv_restoreFallback (h : Inv s) : Inv (restoreFallback s) :=
  inv_fault (inv_raise (inv_retireFallback (inv_modInv (inv_switchTo h))))
theorem inv_sendBeacon {tt : Nat} {extra : Bool} (h : Inv s) : Inv (sendBeacon tt extra s) :=
  inv_ite h (inv_forEach h (fun _ _ => inv_serviceFrame))
theorem inv_decideRevert {atD : Bool} (h : Inv s) : Inv (decideRevert atD s) :=
  inv_ite (inv_sendBeacon (inv_modInv (inv_progress (inv_raise (inv_set h))))) (inv_progress (inv_raise (inv_set h)))
theorem inv_revertDecision (h : Inv s) : Inv (revertDecision s) := inv_ite h (inv_ite (inv_decideRevert h) h)
theorem keeps_execRevertDecision : Keeps s (execRevertDecision s) := keeps_next fun h => inv_inCore h (fun _ => inv_revertDecision)
theorem inv_persistWrite (h : Inv s) : Inv (persistWrite s) := inv_raise (inv_modBoot h)
theorem inv_revertInstantReached (h : Inv s) : Inv (revertInstantReached s) := by
  unfold revertInstantReached
  extract_lets r s1 s2 e
  have h1 : Inv s1 := inv_when h (fun _ => inv_persistWrite)
  have h2 : Inv s2 := inv_when h1 (fun _ => inv_writeRecord)
  exact inv_ite h (inv_stagingIdle (inv_retireFallback (inv_modInv h2)))
theorem keeps_execRevertInstant : Keeps s (execRevertInstant s) :=
  keeps_next fun h => inv_inCore h (fun _ => inv_revertInstantReached)
theorem inv_revertTick (h : Inv s) : Inv (revertTick s) := inv_ite h (inv_restoreFallback (inv_stagingIdle h))
theorem keeps_execRevertTick : Keeps s (execRevertTick s) := keeps_next fun h => inv_inCore h (fun _ => inv_revertTick)
theorem inv_lateRevertTick (h : Inv s) : Inv (lateRevertTick s) := by
  unfold lateRevertTick
  split
  · exact inv_ite (inv_raise (inv_restoreFallback h)) h
  · exact h
theorem keeps_execLateRevertTick : Keeps s (execLateRevertTick s) := keeps_next fun h => inv_inCore h (fun _ => inv_lateRevertTick)
theorem inv_beaconDue (h : Inv s) : Inv (beaconDue s) := inv_ite (inv_sendBeacon h) h
theorem keeps_execBeaconSend : Keeps s (execBeaconSend s) := keeps_next fun h => inv_inCore h (fun _ => inv_beaconDue)
theorem inv_peerTo {i n : Nat} (h : Inv s) : Inv (peerTo i n s) := inv_ite h (inv_raise (inv_set h))
theorem inv_showBeacon {i : Nat} {r : PeerRec} {fp : List Byte} {epoch flags tt : Nat} (h : Inv s) :
    Inv (showBeacon i r fp epoch flags tt s) :=
  inv_peerTo (inv_modInv (inv_setB (inv_setN (inv_setN (inv_setN h)))))
theorem inv_checkBeacon {i : Nat} {fp : List Byte} {epoch flags tt : Nat} (h : Inv s) : Inv (checkBeacon i fp epoch flags tt s) :=
  inv_ite h (inv_ite (inv_when (inv_raise (inv_modInv h)) (fun _ => inv_decideRevert)) (inv_modInv h))
theorem inv_lateBeacon {epoch flags tt : Nat} (h : Inv s) : Inv (lateBeacon epoch flags tt s) := by
  unfold lateBeacon
  split
  · exact inv_ite (inv_ite (inv_modInv h) (inv_raise h)) h
  · exact h
theorem inv_beaconReceive {mac : Nat} {fp : List Byte} {epoch flags eighth : Nat} (h : Inv s) :
    Inv (beaconReceive mac fp epoch flags eighth s) := by
  unfold beaconReceive
  extract_lets tt
  split
  · exact h
  · exact inv_ite h (inv_lateBeacon (inv_checkBeacon (inv_showBeacon h)))
theorem keeps_execBeaconReceive {mac : BitVec 48} {fp : List Byte} {epoch : BitVec 32} {flags : BitVec 8} {eighth : Fin 8} :
    Keeps s (execBeaconReceive mac fp epoch flags eighth s) :=
  keeps_next fun h => inv_inCore h (fun _ => inv_beaconReceive)
theorem inv_peerMissing {i : Nat} (h : Inv s) : Inv (peerMissing i s) := by
  unfold peerMissing
  split
  · exact inv_ite (inv_peerTo h) h
  · exact h
theorem keeps_execPeerMissing {p : Fin 64} : Keeps s (execPeerMissing p s) :=
  keeps_next fun h => inv_inCore h (fun _ => inv_peerMissing)

/-! ### Sys2Proof/Machine/Boot.lean -/

theorem inv_showSlot {x : Nat} (h : Inv s) : Inv (showSlot x s) :=
  inv_setB (inv_setB (inv_setB (inv_setB (inv_setB (inv_set (inv_setN h))))))
theorem inv_showRecords (h : Inv s) : Inv (showRecords s) := inv_set (inv_set (inv_setN (inv_setN (inv_setN h))))
theorem inv_showBoot (h : Inv s) : Inv (showBoot s) := inv_showSlot (inv_showSlot (inv_showRecords h))
theorem inv_bootFail {x code detail : Nat} (h : Inv s) :
    Inv (bootFail x code detail s) := inv_bump (inv_set (inv_set (inv_set (inv_set h))))
theorem inv_slotChecked {x code : Nat} (h : Inv s) : Inv (slotChecked x code s) := inv_set (inv_setB h)
theorem inv_slotBad {code detail : Nat} (h : Inv s) : Inv (slotBad code detail s) :=
  inv_rungDue (inv_fault (inv_raise (inv_showSlot (inv_slotChecked (inv_set (inv_bootFail (inv_modBoot h)))))))
theorem inv_toStage {n : Nat} (h : Inv s) : Inv (toStage n s) := inv_set h
theorem inv_mramLineBad {off : Nat} (h : Inv s) : Inv (mramLineBad off s) := inv_eccEvent h
theorem inv_romStart (h : Inv s) : Inv (romStart s) :=
  inv_ite h (inv_toStage (inv_showPermit (inv_refreshDegraded (inv_raise (inv_set (inv_setN h))))))
theorem keeps_execRomStart : Keeps s (execRomStart s) := keeps_next inv_romStart
theorem inv_selfTest {fails : List (Nat × Nat)} (h : Inv s) : Inv (selfTest fails s) := by
  unfold selfTest
  extract_lets s1 s2 s3 s4 s5
  have h1 : Inv s1 := inv_withMem (inv_clearMem h)
  have h2 : Inv s2 := inv_forEach (inv_goodMem h1) (fun _ _ h3 => inv_bankClamp (inv_bankTo h3))
  have h3 : Inv s3 := inv_setB (inv_raise (inv_set h2))
  have h4 : Inv s4 := inv_set h3
  have h5 : Inv s5 := inv_forEach h4 (fun _ _ => inv_fault)
  exact inv_ite h (inv_raise h5)
theorem inv_restoreKeys (h : Inv s) : Inv (restoreKeys s) := inv_raise (inv_modBoot h)
theorem inv_resumeCounters (h : Inv s) : Inv (resumeCounters s) := inv_forEach h (fun _ _ => inv_setPair)
theorem inv_applyRecoveryPorts (h : Inv s) : Inv (applyRecoveryPorts s) := by
  unfold applyRecoveryPorts
  extract_lets s1
  have h1 : Inv s1 := inv_forEach h (fun _ _ => inv_set)
  split
  · exact inv_forEach h1 (fun _ _ => inv_setN)
  · exact inv_setN h1
theorem inv_enterRecovery {code : Nat} (h : Inv s) : Inv (enterRecovery code s) :=
  inv_applyRecoveryPorts (inv_toStage (inv_raise (inv_set h)))
theorem inv_records {bad fails : List (Nat × Nat)} (h : Inv s) : Inv (records bad fails s) := by
  unfold records
  extract_lets s1 s2 s3 lc s4 base s5 s6
  have h1 : Inv s1 := inv_selfTest (inv_toStage (inv_modBoot h))
  have h2 : Inv s2 := inv_modBoot h1
  have h3 : Inv s3 := inv_recFallback h2
  have h4 : Inv s4 := inv_setB (inv_set (inv_set h3))
  have hbase : Inv base := inv_resumeCounters (inv_showRecords h4)
  have h5 : Inv s5 := inv_mk hbase
  have h6 : Inv s6 := inv_restoreKeys h5
  exact inv_ite h (inv_ite (inv_toStage (inv_set h5)) (inv_ite (inv_enterRecovery h6) (inv_toStage h6)))
theorem keeps_execRecords {bad : List (Fin 65536 × Fin 2)} {fails : List (Fin 256 × Fin 65536)} : Keeps s (execRecords bad fails s) :=
  keeps_next inv_records
theorem inv_chainPush {i : Nat} {v : List Byte} (h : Inv s) : Inv (chainPush i v s) := inv_show48 (inv_modBoot h)
theorem inv_slotSelect {bad : List Nat} (h : Inv s) : Inv (slotSelect bad s) := by
  unfold slotSelect
  extract_lets s1 a b s2
  have h1 : Inv s1 := inv_recFallback (inv_forEach h (fun _ _ => inv_mramLineBad))
  have h2 : Inv s2 := inv_slotChecked (inv_slotChecked h1)
  refine inv_ite h ?_
  split
  · exact inv_showBoot (inv_enterRecovery h2)
  · exact inv_showBoot (inv_toStage (inv_chainPush (inv_set (inv_show48 (inv_set (inv_set (inv_set h2)))))))
theorem keeps_execSlotSelect {bad : List (BitVec 26)} : Keeps s (execSlotSelect bad s) := keeps_next inv_slotSelect
theorem inv_bootStage {n : Nat} {bad : Option (BitVec 26)} {f : State → State} (h : Inv s) (hf : ∀ s, Inv s → Inv (f s)) :
    Inv (bootStage n bad f s) := by
  unfold bootStage
  refine inv_ite h ?_
  split
  · exact inv_slotBad (inv_mramLineBad h)
  · exact hf _ h
theorem inv_firmware (h : Inv s) : Inv (firmware s) :=
  inv_ite h (inv_ite (inv_slotBad (inv_mramBytes h)) (inv_toStage (inv_chainPush (inv_mramBytes h))))
theorem keeps_execFirmware {bad : Option (BitVec 26)} : Keeps s (execFirmware bad s) :=
  keeps_next fun h => inv_bootStage h (fun _ => inv_firmware)
theorem inv_persist (h : Inv s) : Inv (persist s) := by
  unfold persist
  extract_lets x x1
  have hx1 : Inv x1 := inv_modBoot (inv_toStage h)
  refine inv_ite h ?_
  split
  · exact inv_ite (inv_raise (inv_mramBytes hx1)) hx1
  · exact hx1
theorem keeps_execPersist : Keeps s (execPersist s) := keeps_next fun h => inv_ite (inv_persist h) h
theorem inv_inventory (h : Inv s) : Inv (inventory s) := by
  unfold inventory
  extract_lets x b early s1 s2 s3
  have h1 : Inv s1 := inv_when h (fun _ h2 => inv_applyPorts (inv_applyClock h2))
  have h2 : Inv s2 := inv_applyInventory h1
  have h3 : Inv s3 := inv_when h2 (fun _ h4 => inv_writeRecord (inv_writeRecord h4))
  split
  exact inv_ite (inv_slotBad (inv_when h1 (fun _ => inv_bootList))) (inv_toStage (inv_chainPush h3))
theorem keeps_execInventory {bad : Option (BitVec 26)} : Keeps s (execInventory bad s) :=
  keeps_next fun h => inv_bootStage h (fun _ => inv_inventory)
theorem inv_tileLoad (h : Inv s) : Inv (tileLoad s) := by
  unfold tileLoad
  extract_lets x s1
  have h1 : Inv s1 := inv_forEach h (fun _ _ => inv_loadTile)
  split
  · exact inv_slotBad h1
  · exact inv_toStage h1
theorem keeps_execTileLoad {bad : Option (BitVec 26)} : Keeps s (execTileLoad bad s) :=
  keeps_next fun h => inv_bootStage h (fun _ => inv_tileLoad)
theorem inv_measure (h : Inv s) : Inv (measure s) := by
  unfold measure
  extract_lets x ds s1
  have h1 : Inv s1 := inv_modBoot (inv_chainPush h)
  refine inv_ite h ?_
  split
  · exact inv_slotBad h
  · exact inv_ite (inv_raise (inv_toStage (inv_drawNonce h1))) h1
theorem keeps_execMeasure {bad : Option (BitVec 26)} : Keeps s (execMeasure bad s) :=
  keeps_next fun h => inv_bootStage h (fun _ => inv_measure)
theorem inv_verdictTimeout (h : Inv s) : Inv (verdictTimeout s) := inv_ite h (inv_modBoot (inv_set (inv_bootFail h)))
theorem keeps_execVerdictTimeout : Keeps s (execVerdictTimeout s) := keeps_next inv_verdictTimeout
theorem inv_endStart (h : Inv s) : Inv (endStart s) :=
  inv_ite h (inv_refreshDegraded (inv_setP (inv_raise (inv_raise (inv_set (inv_set (inv_lastSwitch h)))))))
theorem inv_thaw (h : Inv s) : Inv (thaw s) := by
  unfold thaw
  extract_lets us s1 s2 s3 base s4
  have h1 : Inv s1 := inv_setN (inv_set (inv_toStage h))
  have h2 : Inv s2 := inv_when h1 (fun _ => inv_raise)
  have h3 : Inv s3 := inv_modBoot (inv_modPwr h2)
  have h4 : Inv s4 := inv_mk h3
  exact inv_ite h (inv_outputsSafe (inv_showPermit (inv_raise (inv_endStart h4))))
theorem keeps_execThaw : Keeps s (execThaw s) := keeps_next inv_thaw
theorem inv_thawGo {m : Master} (h : Inv s) : Inv (thawGo m s) := inv_ite (inv_modBoot h) h
theorem keeps_execThawGo {m : Master} : Keeps s (execThawGo m s) := keeps_next inv_thawGo
theorem inv_advanceCounter {m : List Byte} (h : Inv s) : Inv (advanceCounter m s) := by
  unfold advanceCounter
  split
  · exact h
  · exact inv_ite (inv_clearRecord h) (inv_ite (inv_raise (inv_clearRecord (inv_modBoot h))) h)
theorem inv_postThaw (h : Inv s) : Inv (postThaw s) := by
  unfold postThaw
  extract_lets x m s1 s2 s3 s4 s5 s6 s7
  have h1 : Inv s1 := inv_recFallback h
  have h2 : Inv s2 := inv_writeRecord h1
  have h3 : Inv s3 := inv_when h2 (fun _ => inv_writeRecord)
  have h4 : Inv s4 := inv_when h3 (fun _ => inv_writeRecord)
  have h5 : Inv s5 := inv_when h4 (fun _ => inv_advanceCounter)
  have h6 : Inv s6 := inv_when h5 (fun _ => inv_writeRecord)
  have h7 : Inv s7 := inv_writeRecord h6
  exact inv_ite h (inv_showBoot (inv_modBoot h7))
theorem keeps_execPostThawRecords : Keeps s (execPostThawRecords s) := keeps_next inv_postThaw
theorem inv_changeLifecycle {b : Nat} (h : Inv s) : Inv (changeLifecycle b s) := by
  unfold changeLifecycle
  extract_lets s1 s2 s3
  have h1 : Inv s1 := inv_vaultWipe (inv_set (inv_modBoot h))
  have h2 : Inv s2 := inv_when h1 (fun _ h3 => inv_mk (inv_set h3))
  have h3 : Inv s3 := inv_when h2 (fun _ h4 => inv_modBoot (inv_clearMem (inv_clearMem h4)))
  exact inv_rungDue (inv_modBoot h3)
theorem inv_lifecycle {b : Nat} {blown : Bool} (h : Inv s) : Inv (lifecycle b blown s).2 := by
  unfold lifecycle
  split
  · exact h
  split
  · exact h
  split
  · exact h
  split
  · exact h
  split
  · exact h
  · exact inv_changeLifecycle h
theorem inv_provDone {r : Nat × State} (h : Inv r.2) : Inv (provDone r) := inv_resetRegs (inv_set h)
theorem inv_provision {m : Master} {f : State → Nat × State} (h : Inv s) (hf : Inv (f s).2) : Inv (provision m f s) := by
  refine inv_ite h (inv_provDone ?_)
  split
  · exact h
  split
  · exact h
  · exact hf
theorem keeps_execProgramImageKey {m : Master} {k : Fin 8} {blown : Bool} : Keeps s (execProgramImageKey m k blown s) := by
  refine keeps_next fun h => inv_provision h ?_
  split
  · exact h
  split
  · exact h
  split
  · exact h
  · exact inv_showRecords (inv_modBoot h)
theorem keeps_execInstallCommandKey {m : Master} {k : Fin 4} : Keeps s (execInstallCommandKey m k s) :=
  keeps_next fun h => inv_provision h (inv_when (inv_modBoot h) (fun _ => inv_writeRecord))
theorem keeps_execInstallNoSlot {m : Master} : Keeps s (execInstallNoSlot m s) :=
  keeps_next fun h => inv_provision h (inv_snd h)
theorem keeps_execEnterFactory {m : Master} {blown : Bool} : Keeps s (execEnterFactory m blown s) := by
  refine keeps_next fun h => inv_provision h ?_
  split
  · exact h
  · exact inv_lifecycle h

/-! ### Sys2Proof/Machine/Host.lean -/

theorem inv_modHost {f : HostH → HostH} (h : Inv s) : Inv (s.modHost f) := inv_mk h
theorem inv_ladderCommand {rung f : Nat} (h : Inv s) : Inv (ladderCommand rung f s).2 := by
  unfold ladderCommand
  split
  · exact h
  split
  · split
    · exact h
    split
    · exact h
    · exact inv_reInit h
  split
  · exact h
  split
  · exact inv_rung3Counted h
  split
  · exact inv_rungDue h
  · exact h
theorem keeps_execLadder {rung f : BitVec 8} : Keeps s (execLadder rung f s) := keeps_next inv_ladderCommand
theorem inv_slotOpen {x : Nat} (h : Inv s) : Inv (slotOpen x s).2 := by
  unfold slotOpen
  split
  · exact h
  split
  · exact h
  split
  · exact h
  · exact inv_modHost h
theorem keeps_execSlotOpen {x : BitVec 8} : Keeps s (execSlotOpen x s) := keeps_next inv_slotOpen
theorem inv_slotWrite {x off : Nat} {d : List Byte} (h : Inv s) : Inv (slotWrite x off d s) :=
  inv_ite (inv_mramBytes h) (inv_mramRefused h)
theorem inv_slotData {off : Nat} {d : List Byte} (h : Inv s) : Inv (slotData off d s).2 := by
  unfold slotData
  split
  · exact h
  extract_lets s1 s2
  have h1 : Inv s1 := inv_when h (fun _ => inv_writeRecord)
  have h2 : Inv s2 := inv_when h1 (fun _ => inv_clearRecord)
  split
  · exact h
  · exact inv_showSlot (inv_slotWrite h2)
theorem keeps_execSlotData {off : BitVec 32} {d : List Byte} : Keeps s (execSlotData off d s) :=
  keeps_next inv_slotData
theorem inv_activationCheck {x : Nat} {bind : Bool} {bad : Option (BitVec 26)} (h : Inv s) : Inv (activationCheck x bind bad s).2.2 := by
  unfold activationCheck
  extract_lets mram s1 s2
  have h1 : Inv s1 := by
    unfold s1
    split
    · exact inv_mramLineBad h
    · exact h
  have h2 : Inv s2 := inv_when h1 (fun _ => inv_writeRecord)
  split
  split
  · exact h1
  split
  exact h2
theorem inv_slotActivate {x : Nat} {adv bind : Bool} {bad : Option (BitVec 26)} (h : Inv s) : Inv (slotActivate x adv bind bad s).2 := by
  unfold slotActivate
  extract_lets s1
  have h1 : Inv s1 := inv_modHost h
  split
  · exact h
  split
  · exact h1
  split
  · exact h1
  split
  · exact h1
  split
  rename_i s2 e
  have h2 : Inv s2 := inv_third_of_eq e (inv_activationCheck h1)
  extract_lets s3 m s4 s5 s6
  have h3 : Inv s3 := inv_slotChecked h2
  have h4 : Inv s4 := inv_writeRecord (inv_writeRecord h3)
  have h5 : Inv s5 := inv_when h4 (fun _ => inv_writeRecord)
  have h6 : Inv s6 := inv_when h5 (fun _ h7 => inv_set (inv_modBoot h7))
  split
  · exact inv_showBoot (inv_bootFail h3)
  · exact inv_showBoot (inv_raise h6)
theorem keeps_execSlotActivate {x : BitVec 8} {adv bind : Bool} {bad : Option (BitVec 26)} :
    Keeps s (execSlotActivate x adv bind bad s) :=
  keeps_next inv_slotActivate
theorem inv_keyRevoke {k : Nat} {blown : Bool} (h : Inv s) : Inv (keyRevoke k blown s).2 := by
  unfold keyRevoke
  extract_lets m s1
  have h1 : Inv s1 := inv_modBoot h
  split
  · exact h
  split
  · exact h
  split
  · exact h
  split
  · exact h
  split
  · exact h
  split
  · exact h
  · exact inv_raise (inv_showRecords h1)
theorem keeps_execKeyRevoke {k : BitVec 8} {blown : Bool} : Keeps s (execKeyRevoke k blown s) := keeps_next inv_keyRevoke
theorem keeps_execLifecycle {b : BitVec 8} {blown : Bool} : Keeps s (execLifecycle b blown s) := keeps_next inv_lifecycle
theorem inv_debugUnlock (h : Inv s) : Inv (debugUnlock s).2 := by
  unfold debugUnlock
  split
  · exact h
  split
  · exact inv_raise (inv_set h)
  split
  · exact h
  · exact h
theorem keeps_execDebugUnlock : Keeps s (execDebugUnlock s) := keeps_next inv_debugUnlock
theorem inv_splitOverride {f v : Nat} (h : Inv s) : Inv (splitOverride f v s).2 := by
  unfold splitOverride
  split
  · exact h
  split
  · exact h
  · exact inv_fnChange (inv_raise h)
theorem keeps_execSplitOverride {f v : BitVec 8} : Keeps s (execSplitOverride f v s) := keeps_next inv_splitOverride
theorem inv_verdictOverride {g : Nat} {v : Word} (h : Inv s) : Inv (verdictOverride g v s).2 := by
  unfold verdictOverride
  split
  rename_i s1 e
  have h1 : Inv s1 := inv_snd_of_eq e (inv_verdictWrite h)
  exact h1
theorem keeps_execVerdictOverride {g : Fin 12} {v : Word} : Keeps s (execVerdictOverride g v s) :=
  keeps_next inv_verdictOverride
theorem inv_edgeOverride {e op : Nat} {v : Word} (h : Inv s) : Inv (edgeOverride e op v s).2 := by
  unfold edgeOverride
  extract_lets c k
  split
  · exact h
  · exact inv_ite (inv_edgCmpWrite h) (inv_ite (inv_edgArm h) (inv_ite (inv_edgDisarm h) (inv_edgForce h)))
theorem keeps_execEdgeOverride {e : Fin 96} {op : BitVec 8} {v : Word} : Keeps s (execEdgeOverride e op v s) :=
  keeps_next inv_edgeOverride
theorem inv_gpioOverride {b op : Nat} {v : Word} (h : Inv s) : Inv (gpioOverride b op v s).2 := by
  unfold gpioOverride
  extract_lets mask
  split
  · exact h
  · exact inv_ite (inv_gpioOut h) (inv_ite (inv_gpioOut h) (inv_ite (inv_gpioOut h) (inv_gpioDir h)))
theorem keeps_execGpioOverride {b : Fin 8} {op : BitVec 8} {v : Word} : Keeps s (execGpioOverride b op v s) :=
  keeps_next inv_gpioOverride
theorem inv_bootVerdict {nonce h3 : List Byte} {v : Nat} (h : Inv s) : Inv (bootVerdict nonce h3 v s).2 := by
  unfold bootVerdict
  split
  · exact h
  split
  · exact h
  split
  · exact inv_progress (inv_set (inv_modBoot h))
  split
  · exact inv_modBoot (inv_slotBad (inv_set h))
  · exact h
theorem keeps_execBootVerdict {nonce h3 : List Byte} {v : BitVec 8} : Keeps s (execBootVerdict nonce h3 v s) :=
  keeps_next inv_bootVerdict
theorem keeps_execStatusQuery : Keeps s (execStatusQuery s) := keeps_next fun h => h
theorem inv_recoveryWrite {x off : Nat} {d : List Byte} (h : Inv s) : Inv (recoveryWrite x off d s).2 := by
  unfold recoveryWrite
  split
  · exact h
  split
  · exact h
  · exact inv_slotWrite h
theorem keeps_execRecoveryWrite {x : BitVec 8} {off : BitVec 32} {d : List Byte} : Keeps s (execRecoveryWrite x off d s) :=
  keeps_next inv_recoveryWrite
theorem inv_recoveryCommit {x : Nat} {bad : Option (BitVec 26)} (h : Inv s) : Inv (recoveryCommit x bad s).2 := by
  unfold recoveryCommit
  split
  · exact h
  split
  · exact h
  split
  rename_i s1 e
  have h1 : Inv s1 := inv_third_of_eq e (inv_activationCheck h)
  extract_lets s2 s3 s4
  have h2 : Inv s2 := inv_slotChecked h1
  have h3 : Inv s3 := inv_writeRecord (inv_writeRecord h2)
  have h4 : Inv s4 := inv_modBoot h3
  split
  · exact inv_showBoot (inv_set (inv_bootFail h2))
  · exact inv_rungDue (inv_showBoot h4)
theorem keeps_execRecoveryCommit {x : BitVec 8} {bad : Option (BitVec 26)} : Keeps s (execRecoveryCommit x bad s) :=
  keeps_next inv_recoveryCommit
theorem inv_recordCounter {k c : Nat} {recOk : Bool} (h : Inv s) : Inv (recordCounter k c recOk s).2 := by
  unfold recordCounter
  split
  · exact h
  split
  · exact h
  · exact inv_writeRecord h
theorem inv_runCommand {op : Nat} {b : List Byte} {blown : Bool} {bad : Option (BitVec 26)} (h : Inv s) :
    Inv (runCommand op b blown bad s).2.2.2 := by
  unfold runCommand
  extract_lets plain session word
  have hplain : ∀ r, Inv r.2 → Inv (plain r).2.2.2 := fun _ h => h
  have hsession : ∀ r, Inv r.2 → Inv (session r).2.2.2 := fun _ h => h
  clear_value plain session word
  refine inv_ite_fourth (hplain _ (inv_ladderCommand h)) ?_
  refine inv_ite_fourth (hplain _ (inv_stageBegin h)) ?_
  refine inv_ite_fourth (hplain _ (inv_stageArm h)) ?_
  refine inv_ite_fourth (hplain _ (inv_stageCancel h)) ?_
  refine inv_ite_fourth (hplain _ (inv_revertCommand h)) ?_
  refine inv_ite_fourth (hplain _ (inv_slotOpen h)) ?_
  refine inv_ite_fourth (hplain _ (inv_slotActivate h)) ?_
  refine inv_ite_fourth (hplain _ (inv_keyRevoke h)) ?_
  refine inv_ite_fourth (hplain _ (inv_lifecycle h)) ?_
  refine inv_ite_fourth (hplain _ (inv_debugUnlock h)) ?_
  refine inv_ite_fourth (hplain _ (inv_splitOverride h)) ?_
  refine inv_ite_fourth (inv_ite_fourth (hplain _ (inv_verdictOverride h)) (inv_ite_fourth (hplain _ (inv_edgeOverride h))
    (inv_ite_fourth (hplain _ (inv_gpioOverride h)) h))) ?_
  refine inv_ite_fourth (hplain _ (inv_bootVerdict h)) ?_
  refine inv_ite_fourth (hsession _ (inv_stageData h)) ?_
  refine inv_ite_fourth (hsession _ (inv_slotData h)) ?_
  refine inv_ite_fourth h ?_
  exact inv_ite_fourth (hplain _ (inv_recoveryWrite h)) (hplain _ (inv_recoveryCommit h))
theorem inv_respond {job : CmdJob} {r : List Byte} {result detail : Nat} (h : Inv s) : Inv (respond job r result detail s) := by
  unfold respond
  split
  · exact inv_raise (inv_set (inv_set (inv_set (inv_forEach h (fun _ _ => inv_setN)))))
  · exact inv_sendService h
theorem inv_runChecked {d : List Byte} {recOk blown : Bool} {bad : Option (BitVec 26)} (h : Inv s) :
    Inv (runChecked d recOk blown bad s).2.2.2 := by
  unfold runChecked
  extract_lets op k c
  split
  · exact h
  split
  rename_i s1 e
  have h1 : Inv s1 := by
    split at e
    · exact inv_snd_of_eq e (inv_recordCounter h)
    · cases e; exact h
  split
  · exact h1
  split
  · exact h1
  · exact inv_runCommand (inv_when h1 (fun _ => inv_setPair))
theorem inv_commandExecute {recOk blown : Bool} {bad : Option (BitVec 26)} (h : Inv s) : Inv (commandExecute recOk blown bad s) := by
  unfold commandExecute
  split
  · exact h
  refine inv_ite h ?_
  split
  rename_i s1 e
  have h1 : Inv s1 := inv_fourth_of_eq e (inv_runChecked (inv_modHost h))
  exact inv_respond h1
theorem keeps_execCommandExecute {recOk blown : Bool} {bad : Option (BitVec 26)} : Keeps s (execCommandExecute recOk blown bad s) :=
  keeps_next inv_commandExecute
theorem inv_doorbell {m : Master} {v : Word} (h : Inv s) : Inv (doorbell m v s) :=
  inv_ite h (inv_ite (inv_raise h) (inv_modHost (inv_set (inv_set h))))
theorem inv_mailboxRun (h : Inv s) : Inv (mailboxRun s) := inv_when h (fun _ => inv_set)
theorem keeps_execHostCmdDoorbell {m : Master} {v : Word} : Keeps s (execHostCmdDoorbell m v s) :=
  keeps_next fun h => inv_inCore h (fun _ => inv_doorbell)
theorem inv_fqTxData {m : Master} {v : Word} (h : Inv s) : Inv (fqTxData m v s) := inv_ite (inv_modHost h) h
theorem inv_fqTxGo {m : Master} {v : Word} (h : Inv s) : Inv (fqTxGo m v s) :=
  inv_ite h (inv_ite (inv_internalFrame (inv_modHost h)) (inv_modHost (inv_raise (inv_internalFrame (inv_modHost h)))))
theorem keeps_execHostFqTxGo {m : Master} {v : Word} : Keeps s (execHostFqTxGo m v s) :=
  keeps_next fun h => inv_inCore h (fun _ => inv_fqTxGo)
theorem inv_fqRxLen (h : Inv s) : Inv (fqRxLen s).2 := by
  unfold fqRxLen
  split
  · exact h
  · exact inv_modHost h
theorem keeps_execHostFqRxLen : Keeps s (execHostFqRxLen s) := by
  refine keeps_next fun h => ?_
  refine inv_inCore h (fun s1 h1 => ?_)
  split
  rename_i s2 e
  have h2 : Inv s2 := inv_snd_of_eq e (inv_fqRxLen h1)
  exact inv_mk h2
theorem inv_fqRxData (h : Inv s) : Inv (fqRxData s).2 := inv_modHost h
theorem keeps_execHostFqRxData : Keeps s (execHostFqRxData s) := by
  refine keeps_next fun h => ?_
  refine inv_inCore h (fun s1 h1 => ?_)
  split
  rename_i s2 e
  have h2 : Inv s2 := inv_snd_of_eq e (inv_fqRxData h1)
  exact inv_mk h2
theorem inv_msixFire {v : Nat} (h : Inv s) : Inv (msixFire v s) := inv_ite (inv_modHost h) (inv_modHost h)
theorem inv_msixEdge {v : Nat} (h : Inv s) : Inv (msixEdge v s) := inv_when (inv_modHost h) (fun _ => inv_msixFire)
theorem keeps_execMsiXMessage {v : Fin 16} : Keeps s (execMsiXMessage v s) :=
  keeps_next fun h => inv_inCore h (fun _ => inv_msixEdge)
theorem inv_pcieReset (h : Inv s) : Inv (pcieReset s) := inv_modHost (inv_set (inv_set (inv_set h)))
theorem keeps_execPerstN : Keeps s (execPerstN s) := keeps_next fun h => inv_modHost (inv_pcieReset h)
theorem keeps_execPerstNRelease {width : Fin 3} {rate : Fin 4} : Keeps s (execPerstNRelease width rate s) :=
  keeps_next fun h => inv_ite (inv_modHost h) (inv_set (inv_set (inv_raise (inv_modHost h))))
theorem inv_accAddrRead {m : Master} (h : Inv s) : Inv (accAddrRead m s).2 := inv_ite (inv_modHost h) h
theorem keeps_execHostAccAddrRead {m : Master} : Keeps s (execHostAccAddrRead m s) := by
  refine keeps_next fun h => ?_
  refine inv_inCore h (fun s1 h1 => ?_)
  split
  rename_i s2 e
  have h2 : Inv s2 := inv_snd_of_eq e (inv_accAddrRead h1)
  exact inv_mk h2

/-! ### Sys2Proof/Machine/Faults.lean -/

theorem inv_maskRegs {mask : Nat → Word} (h : Inv s) : Inv (maskRegs mask s) := by
  refine ⟨⟨?_, ?_⟩, h.2⟩
  · refine h.1.1.filterMap _ (fun e e' hlt b hb b' hb' => ?_)
    rw [Option.ite_none_left_eq_some] at hb hb'
    obtain ⟨-, hb⟩ := hb
    obtain ⟨-, hb'⟩ := hb'
    cases hb
    cases hb'
    exact hlt
  · intro e he
    obtain ⟨e0, -, he0⟩ := List.mem_filterMap.1 he
    rw [Option.ite_none_left_eq_some] at he0
    obtain ⟨hne, he0⟩ := he0
    cases he0
    exact fun heq => hne (beq_iff_eq.2 heq)
theorem inv_warmReset (h : Inv s) : Inv (warmReset s) := by
  unfold warmReset
  extract_lets held s1 s2 memh s3 base p base1 f base2 r base3 b base4 base5 s4 s5 s6 base6 s7 s8 s9 s10
  have h1 : Inv s1 := inv_outputsSafe (inv_set (inv_raise h))
  have h2 : Inv s2 := inv_forEach h1 (fun _ _ h3 => inv_when h3 (fun _ => inv_domFresh))
  have h3 : Inv s3 := inv_maskRegs (inv_netReset h2)
  have h4 : Inv s4 := inv_mk h3
  have h5 : Inv s5 := inv_outputsSafe (inv_ballsHeld h4)
  have h6 : Inv s6 := inv_modBoot h5
  have h7 : Inv s7 := inv_sourcesProving (inv_withClk h6)
  have h8 : Inv s8 := inv_set (inv_bootList (inv_set h7))
  have h9 : Inv s9 := inv_when h8 (fun _ h10 => inv_setP (inv_raise (inv_set (inv_set (inv_set (inv_set h10))))))
  have h10 : Inv s10 := inv_when h9 (fun _ => inv_spreadStart)
  exact inv_showLines (inv_showPermit (inv_servoRestart h10))
theorem inv_writeTrail (h : Inv s) : Inv (writeTrail s) := inv_when h (fun _ => inv_writeRecord)
theorem inv_deviceReset {fn cause : Nat} (h : Inv s) : Inv (deviceReset fn cause s) := inv_warmReset (inv_rungTaken (inv_writeTrail h))
theorem keeps_execDeviceReset : Keeps s (execDeviceReset s) := by
  refine keeps_next fun h => ?_
  split
  · exact inv_ite h (inv_deviceReset h)
  · exact h
theorem inv_powerCycle {fn cause : Nat} (h : Inv s) : Inv (powerCycle fn cause s) :=
  inv_mk (inv_modBoot (inv_afterLoss (inv_rungTaken (inv_writeTrail (inv_when h (fun _ => inv_writeRecord))))))
theorem keeps_execPowerCycle : Keeps s (execPowerCycle s) := by
  refine keeps_next fun h => ?_
  split
  · exact inv_ite h (inv_powerCycle h)
  · exact h
theorem inv_stableRun (h : Inv s) : Inv (stableRun s) := by
  unfold stableRun
  split
  · exact h
  · exact inv_ite h (inv_mk (inv_set (inv_set (inv_clearRecord h))))
theorem keeps_execStableRun : Keeps s (execStableRun s) := keeps_next inv_stableRun
theorem keeps_execClearLog {m : Master} : Keeps s (execClearLog m s) :=
  keeps_next fun h => inv_inCore h (fun _ h1 => inv_ite (inv_set (inv_set h1)) h1)
theorem inv_wdtFrom {t : Nat} (h : Inv s) : Inv (wdtFrom t s) := inv_mk h
theorem inv_wdtReload {t : Nat} (h : Inv s) : Inv (wdtReload t s) := inv_mk h
theorem inv_wdtEvent {t : Nat} (h : Inv s) : Inv (wdtEvent t s) := inv_raise h
theorem inv_wdtAction {t : Nat} (h : Inv s) : Inv (wdtAction t s) := by
  unfold wdtAction
  split
  · exact inv_modTile h
  · exact inv_rung3Counted h
  · exact h
theorem inv_wdtService {m : Master} {t : Nat} {v : Word} (h : Inv s) : Inv (wdtService m t v s) := by
  unfold wdtService
  extract_lets own
  split
  exact inv_ite h (inv_ite (inv_wdtAction (inv_wdtEvent (inv_fault (inv_bump h)))) (inv_ite (inv_wdtAction (inv_wdtEvent (inv_fault
      (inv_bump (inv_wdtFrom h))))) (inv_ite (inv_wdtReload (inv_wdtFrom h)) h)))
theorem keeps_execWdtService {m : Master} {t : Fin 24} {v : Word} : Keeps s (execWdtService m t v s) :=
  keeps_next fun h => inv_inCore h (fun _ => inv_wdtService)
theorem inv_wdtLate {t : Nat} (h : Inv s) : Inv (wdtLate t s) :=
  inv_ite h (inv_wdtAction (inv_wdtEvent (inv_fault (inv_bump (inv_wdtFrom h)))))
theorem keeps_execWdtLate {t : Fin 24} : Keeps s (execWdtLate t s) := keeps_next fun h => inv_inCore h (fun _ => inv_wdtLate)
theorem inv_wdtBackstop {t : Nat} (h : Inv s) : Inv (wdtBackstop t s) :=
  inv_ite h (inv_rung3Counted (inv_wdtReload (inv_wdtEvent (inv_fault (inv_bump h)))))
theorem keeps_execWdtBackstop {t : Fin 24} : Keeps s (execWdtBackstop t s) := keeps_next inv_wdtBackstop
theorem inv_fnStall {f : Nat} (h : Inv s) : Inv (fnStall f s) :=
  inv_ite h (inv_progress (inv_failReport (inv_fault (inv_raise (inv_bump h)))))
theorem keeps_execFnStall {f : Fin 11} : Keeps s (execFnStall f s) := keeps_next fun h => inv_inCore h (fun _ => inv_fnStall)
theorem inv_fnWatch (h : Inv s) : Inv (fnWatch s) := inv_forEach h (fun _ _ => inv_progress)
theorem keeps_execVoteTakeover {m : Master} {g : Fin 12} {v : Word} : Keeps s (execVoteTakeover m g v s) :=
  keeps_next fun h => inv_inCore h (fun _ h1 => inv_ite (inv_takeoverWrite h1) h1)

/-! ### Sys2Proof/Machine/Dma.lean -/

theorem inv_chAdmit {m : Master} {d : Nat} {f : State → State} (h : Inv s) (hf : ∀ s, Inv s → Inv (f s)) : Inv (chAdmit m d f s) :=
  inv_ite h (inv_ite (inv_chResult h) (inv_ite (inv_chResult h) (hf _ h)))
theorem inv_chWrite {m : Master} {d : Nat} {f : State → State} (h : Inv s) (hf : ∀ s, Inv s → Inv (f s)) : Inv (chWrite m d f s) :=
  inv_chAdmit h (fun _ h1 => inv_ite (hf _ h1) (inv_chResult h1))
theorem inv_crcStart {d : Nat} (h : Inv s) : Inv (crcStart d s) := inv_ite h (inv_setN h)
theorem inv_crcBeat {d : Nat} {skip : Bool} {l : List Byte} (h : Inv s) : Inv (crcBeat d skip l s) :=
  inv_ite h (inv_progress (inv_when h (fun _ => inv_setN)))
theorem inv_chEnd {d code : Nat} (h : Inv s) : Inv (chEnd d code s) := by
  unfold chEnd
  extract_lets s1
  have h1 : Inv s1 := inv_chDone h
  split
  · exact inv_startCopy h1
  · exact h1
theorem inv_chComplete {d : Nat} (h : Inv s) : Inv (chComplete d s) :=
  inv_ite (inv_chDone h) (inv_ite (inv_chDone (inv_raise h)) (inv_ite (inv_chRaise (inv_chDone h)) (inv_chDone h)))
theorem inv_chSettle {d : Nat} (h : Inv s) : Inv (chSettle d s) :=
  inv_ite h (inv_ite (inv_ite (inv_chComplete h) (inv_modDma h)) (inv_ite (inv_chEnd h) h))
theorem inv_chBegin {d : Nat} (h : Inv s) : Inv (chBegin d s) := inv_chSettle (inv_chTo h)
theorem inv_chGo {m : Master} {d : Nat} (h : Inv s) : Inv (chGo m d s) := by
  unfold chGo
  extract_lets b stopped s1 s2 s3 s4 srcList dstList s5 len src dst base s6
  have h1 : Inv s1 := inv_chResult h
  have h2 : Inv s2 := inv_set h1
  have h3 : Inv s3 := inv_set (inv_set (inv_set h2))
  have h4 : Inv s4 := inv_crcStart (inv_setN (inv_setN h3))
  have h5 : Inv s5 := inv_setN h4
  have h6 : Inv s6 := inv_modDma h5
  exact inv_ite (inv_chResult h) (inv_ite (inv_chDone h1) (inv_ite (inv_chBegin h6) (inv_chTo h6)))
theorem inv_chDisableCmd {d inflight : Nat} (h : Inv s) : Inv (chDisableCmd d inflight s) :=
  inv_ite (inv_chResult h) (inv_chDisable (inv_chResult h))
theorem inv_chResume {d : Nat} (h : Inv s) : Inv (chResume d s) := inv_ite (inv_chTo (inv_chResult h)) (inv_chResult h)
theorem inv_chClear {d : Nat} (h : Inv s) : Inv (chClear d s) := inv_ite (inv_chTo (inv_chResult h)) (inv_chResult h)
theorem inv_engineRestart {c : Nat} (h : Inv s) : Inv (engineRestart c s) :=
  inv_ite h (inv_forEach (inv_set h) (fun _ _ h1 => inv_ite (inv_chTo h1) h1))
theorem inv_chCommand {m : Master} {d : Nat} {v : Word} {inflight : Nat} (h : Inv s) : Inv (chCommand m d v inflight s) := by
  unfold chCommand
  split
  · exact inv_chAdmit h (fun _ => inv_chGo)
  · exact inv_chAdmit h (fun _ => inv_chDisableCmd)
  · exact inv_chAdmit h (fun _ => inv_chResume)
  · exact inv_chAdmit h (fun _ => inv_chClear)
  · exact h
theorem inv_engineCommand {m : Master} {c : Nat} {v : Word} (h : Inv s) : Inv (engineCommand m c v s) :=
  inv_ite (inv_engineRestart h) h
theorem inv_chLevel {m : Master} {d : Nat} {v : Word} (h : Inv s) : Inv (chLevel m d v s) :=
  inv_chAdmit h (fun _ => inv_set)
theorem keeps_execDmaGo {m : Master} {d : Fin 144} : Keeps s (execDmaGo m d s) := keeps_next inv_chCommand
theorem keeps_execDisable {m : Master} {d : Fin 144} {inflight : Fin 9} : Keeps s (execDisable m d inflight s) :=
  keeps_next inv_chCommand
theorem keeps_execResume {m : Master} {d : Fin 144} : Keeps s (execResume m d s) := keeps_next inv_chCommand
theorem keeps_execClear {m : Master} {d : Fin 144} : Keeps s (execClear m d s) := keeps_next inv_chCommand
theorem keeps_execRestart {m : Master} {c : Fin 6} : Keeps s (execRestart m c s) := keeps_next inv_engineCommand
theorem keeps_execChLevel {m : Master} {d : Fin 144} {v : Word} : Keeps s (execChLevel m d v s) :=
  keeps_next inv_chLevel
theorem inv_paceEdge {d issued : Nat} (h : Inv s) : Inv (paceEdge d issued s) := by
  unfold paceEdge
  extract_lets b st n latch fell s1 s2
  have h1 : Inv s1 := inv_setB h
  have h2 : Inv s2 := inv_when h1 (fun _ => inv_modDma)
  exact inv_ite h (inv_ite (inv_chBegin h2) (inv_ite (inv_modDma (inv_chTo h2)) (inv_ite (inv_chTo h2) h2)))
theorem keeps_execPaceLatch {d : Fin 144} {issued : Fin 9} : Keeps s (execPaceLatch d issued s) := keeps_next inv_paceEdge
theorem inv_channelStart {d : Nat} (h : Inv s) :
    Inv (channelStart d s) := inv_ite h (inv_ite (inv_ite (inv_chBegin h) h) (inv_paceEdge h))
theorem keeps_execChannelStart {d : Fin 144} : Keeps s (execChannelStart d s) := keeps_next inv_channelStart
theorem inv_stopPoint {d : Nat} (h : Inv s) : Inv (stopPoint d s) := inv_ite h (inv_ite (inv_chEnd h) h)
theorem keeps_execDisableStopPoint {d : Fin 144} : Keeps s (execDisableStopPoint d s) := keeps_next inv_stopPoint
theorem inv_busError {d a : Nat} {write list : Bool} {cause : Nat} (h : Inv s) : Inv (busError d a write list cause s) := by
  unfold busError
  extract_lets b st retried s1 s2 s3 c copy first s4 s5 copyFails s6 s7
  have hretried : ∀ s8, Inv s8 → Inv (retried s8) := fun _ h1 => inv_when h1 (fun _ => inv_retryFail)
  have h1 : Inv s1 := inv_modDma h
  have h2 : Inv s2 := inv_setN (inv_chTo h1)
  have h3 : Inv s3 := inv_setN h2
  have h4 : Inv s4 := inv_bump h1
  have h5 : Inv s5 := inv_when h4 (fun _ => inv_modDma)
  have hcopyFails : ∀ s8, Inv s8 → Inv (copyFails s8) := by
    intro s8 h6
    unfold copyFails
    clear_value copy
    split
    · exact inv_abandon h6
    · exact h6
  have h61 : Inv s6 := inv_raise (inv_setN h5)
  have h7 : Inv s7 := inv_forEach h61 (fun _ _ h8 => inv_ite (inv_modDma (inv_chTo h8)) h8)
  exact inv_ite (inv_ite (hretried _ (inv_fault (inv_chRaise h3))) (hretried _ h1)) (inv_ite (hcopyFails _ (hretried _ h5))
      (hcopyFails _ (hretried _ (inv_fault (inv_raise h7)))))
theorem inv_entryDone {d : Nat} {dst event : Bool} (h : Inv s) : Inv (entryDone d dst event s) :=
  inv_ite (inv_when (inv_countReg h) (fun _ => inv_chRaise)) h
theorem inv_setSide {d : Nat} {dst : Bool} {x : Side} (h : Inv s) : Inv (setSide d dst x s) := inv_modDma h
theorem inv_showPos {d : Nat} {dst : Bool} (h : Inv s) : Inv (showPos d dst s) := inv_when h (fun _ => inv_setN)
theorem inv_walkEntry {d : Nat} {dst : Bool} {w0 w1 : Nat} (h : Inv s) : Inv (walkEntry d dst w0 w1 s) := by
  unfold walkEntry
  extract_lets x w len last link io event s1 y
  have h1 : Inv s1 := inv_entryDone h
  exact inv_ite (inv_chEnd h) (inv_ite (inv_showPos (inv_setSide h)) (inv_ite (inv_ite (inv_chSettle (inv_setSide h1)) (inv_showPos
      (inv_setSide h1))) (inv_ite (inv_chEnd h) (inv_chSettle (inv_setSide h)))))
theorem inv_sideBeat {d : Nat} {dst : Bool} {w : Nat} (h : Inv s) : Inv (sideBeat d dst w s) :=
  inv_when (inv_when (inv_setSide h) (fun _ => inv_entryDone)) (fun _ => inv_showPos)

/-! ### Sys2Proof/Machine/IoView.lean -/

theorem inv_wideRead {m : Master} {r : Reader} {lo : Nat} {hi : Bool} (h : Inv s) : Inv (wideRead m r lo hi s).2 := by
  unfold wideRead
  extract_lets c res cap now
  split
  · exact inv_learnRead h
  clear_value res
  clear_value cap
  split
  · split
    rename_i s1 e
    have h1 : Inv s1 := inv_snd_of_eq e (inv_adcCapture h)
    split
    exact inv_latchRead (inv_ite h1 h)
  · split
    rename_i s3 e2
    have h3 : Inv s3 := inv_third_of_eq e2 (inv_capPop h)
    extract_lets value
    split
    exact inv_latchRead (inv_ite h3 h)
  split
  rename_i s5 e4
  have h5 : Inv s5 := inv_third_of_eq e4 (inv_latchRead h)
  exact h5
theorem inv_ioRead {m : Master} {a : Nat} (h : Inv s) : Inv (ioRead m a s).2 := by
  unfold ioRead
  extract_lets r c
  split
  · exact h
  split
  · exact inv_wideRead h
  split
  · exact inv_fqRxLen h
  split
  · exact inv_fqRxData h
  split
  · exact inv_accAddrRead h
  split
  · split
    · exact inv_rxFifoPop h
    split
    · exact inv_mvbDataRead h
    · exact h
  split
  · split
    · exact inv_adcFifoRead h
    split
    · exact inv_adcFifoRead h
    split
    · split
      rename_i s1 e
      have h1 : Inv s1 := inv_third_of_eq e (inv_capPop h)
      exact h1
    · exact h
  · exact h

/-! ### Sys2Proof/Machine/IoWrite.lean -/

theorem inv_typedWrite {a : Nat} {v : Word} (h : Inv s) : Inv (typedWrite a v s) := by
  unfold typedWrite
  split
  split
  · exact h
  · exact inv_setReg h
theorem inv_plainWrite {m : Master} {a : Nat} {v : Word} (h : Inv s) : Inv (plainWrite m a v s) :=
  inv_ite (inv_typedWrite h) h
theorem inv_wideWrite {m : Master} {a : Nat} {v : Word} {commit : Nat → State → State} (h : Inv s) (hcommit : ∀ x s, Inv s → Inv
    (commit x s)) : Inv (wideWrite m a v commit s) := by
  unfold wideWrite
  split
  · exact inv_stageWrite h
  · split
    rename_i s1 e
    have h1 : Inv s1 := inv_snd_of_eq e (inv_stageCommit h)
    exact hcommit _ _ h1
  · exact h
theorem inv_swapStages {p q : Reader} (h : Inv s) : Inv (swapStages p q s) := inv_withTt h
theorem inv_provWrite {m : Master} {v : Word} (h : Inv s) : Inv (provWrite m v s) := by
  unfold provWrite
  extract_lets i blown
  split
  · exact inv_onward (inv_drawn h) keeps_execProgramImageKey
  · exact inv_ite (inv_onward h keeps_execInstallCommandKey) (inv_onward h keeps_execInstallNoSlot)
  · exact inv_onward (inv_drawn h) keeps_execEnterFactory
  · exact h
theorem inv_bootWrite {m : Master} {a : Nat} {v : Word} (h : Inv s) : Inv (bootWrite m a v s) := by
  unfold bootWrite
  extract_lets keep s1
  have h1 : Inv s1 := inv_plainWrite h
  exact inv_ite h (inv_ite (inv_provWrite h) (inv_ite (inv_ite (inv_plainWrite h) h) (inv_ite (inv_ite (inv_thawGo h1) h1)
      (inv_plainWrite h))))
theorem inv_pwrWrite {m : Master} {a : Nat} {v : Word} (h : Inv s) : Inv (pwrWrite m a v s) := by
  unfold pwrWrite
  extract_lets e frozen s1
  have h1 : Inv s1 := inv_plainWrite h
  refine inv_ite h (inv_ite ?_ (inv_ite h (inv_ite (inv_ite (inv_onward h1 keeps_execHistClear) h1) (inv_ite (inv_ite
      (inv_typedWrite h) ?_) ?_))))
  · split
    · exact inv_entryStart h
    · exact inv_entryStart h
    · exact inv_onward h keeps_execCancel
    · exact h
  · split
    · exact inv_set h
    · exact h
  split
  · exact inv_domainRequest h
  · exact inv_plainWrite h
theorem inv_ttWrite {m : Master} {a : Nat} {v : Word} (h : Inv s) : Inv (ttWrite m a v s) := by
  unfold ttWrite
  extract_lets e s1
  have h1 : Inv s1 := inv_haStateWrite h
  refine inv_ite (inv_plainWrite h1) (inv_ite (inv_ite (inv_plainWrite h) h) (inv_ite (inv_ttSlewAmount h) (inv_ite (inv_ite
      (inv_wideWrite h (fun _ _ => inv_ttStep)) h) ?_)))
  split
  · exact inv_snapWrite h
  · exact inv_plainWrite h
theorem inv_bankCtrlWrite {m : Master} {b : Nat} {v : Word} (h : Inv s) : Inv (bankCtrlWrite m b v s) :=
  inv_ite (inv_confClear (inv_bankStateReq h)) (inv_bankStateReq h)
theorem inv_memRegWrite {m : Master} {a : Nat} {v : Word} (h : Inv s) : Inv (memRegWrite m a v s) := by
  unfold memRegWrite
  split
  · exact inv_bankCtrlWrite h
  · exact inv_ite (inv_ite (inv_onward h keeps_execWipe) h) (inv_plainWrite h)
theorem inv_pinWrite {m : Master} {a : Nat} {v : Word} (h : Inv s) : Inv (pinWrite m a v s) := by
  unfold pinWrite
  extract_lets e
  split
  · exact inv_gpioWrite h
  · exact inv_gpioWrite h
  · exact inv_gpioWrite h
  · exact inv_ite (inv_gpioDir h) h
  · exact inv_plainWrite h
theorem inv_busWrite {m : Master} {a : Nat} {v : Word} (h : Inv s) : Inv (busWrite m a v s) := by
  unfold busWrite
  split
  · exact h
  refine inv_ite (inv_ite (inv_busEnable h) (inv_busDisable (inv_drawn h))) (inv_ite (inv_ite (inv_canTxReq h) (inv_ite
      (inv_canTxCancel (inv_drawn h)) ?_)) (inv_ite (inv_ite (inv_mvbAdminCmd h) ?_) (inv_ite (inv_ite (inv_txFifoWrite h)
      (inv_plainWrite h)) (inv_ite (inv_txFifoWrite h) (inv_ite (inv_i2cCmd h) (inv_plainWrite h))))))
  · split
    · exact inv_canTxbWrite h
    · exact inv_plainWrite h
  split
  · exact inv_mvbDataWrite h
  · exact inv_plainWrite h
theorem inv_hostWrite {m : Master} {a : Nat} {v : Word} (h : Inv s) : Inv (hostWrite m a v s) :=
  inv_ite (inv_doorbell h) (inv_ite (inv_fqTxGo h) (inv_ite (inv_fqTxData h) (inv_ite h (inv_plainWrite h))))
theorem inv_fltWrite {m : Master} {a : Nat} {v : Word} (h : Inv s) : Inv (fltWrite m a v s) := by
  unfold fltWrite
  extract_lets e s1
  have h1 : Inv s1 := inv_typedWrite h
  refine inv_ite (inv_plainWrite (inv_ite (inv_onward h keeps_execClearLog) h)) ?_
  split
  · exact inv_ite h (inv_ite (inv_wdtFrom h1) h1)
  · exact inv_wdtService h
  · exact inv_ite h (inv_wdtReload (inv_typedWrite h))
  · exact inv_plainWrite h
theorem inv_netWrite {m : Master} {a : Nat} {v : Word} (h : Inv s) : Inv (netWrite m a v s) := by
  unfold netWrite
  extract_lets e op s1
  have h1 : Inv s1 := inv_plainWrite h
  refine inv_ite (inv_ite (inv_fdbStart h) h) (inv_ite ?_ ?_)
  · split
    · exact inv_typedWrite h
    · exact inv_ite (inv_typedWrite h) h
  split
  · exact inv_ringCfg h
  · exact inv_txDoorbell h
  · exact inv_rxTail h
  · exact inv_ite (inv_gptpSelect h1) h1
theorem inv_devWrite {m : Master} {a : Nat} {v : Word} (h : Inv s) : Inv (devWrite m a v s) := by
  unfold devWrite
  split
  · exact inv_bootWrite h
  · exact inv_pwrWrite h
  · exact inv_ite (inv_clkSelect h) (inv_plainWrite h)
  · exact inv_ttWrite h
  · exact inv_memRegWrite h
  · exact inv_pinWrite h
  · exact inv_busWrite h
  · exact inv_busWrite h
  · exact inv_hostWrite h
  · exact inv_fltWrite h
  · exact inv_plainWrite h
  · exact h
  · exact inv_netWrite h
theorem inv_chanWrite {m : Master} {d o : Nat} {v : Word} (h : Inv s) : Inv (chanWrite m d o v s) := by
  unfold chanWrite
  extract_lets a
  split
  · exact inv_chCommand (inv_drawn h)
  · exact inv_chLevel h
  · exact inv_ite (inv_wideWrite h (fun _ _ h => h)) h
  · exact inv_ite (inv_wideWrite h (fun _ _ h1 => inv_chWrite h1 (fun _ => inv_setPair))) h
  · exact inv_ite (inv_chWrite h (fun _ => inv_typedWrite)) h
theorem inv_adcRegWrite {m : Master} {c a : Nat} {v : Word} (h : Inv s) : Inv (adcRegWrite m c a v s) := by
  unfold adcRegWrite
  extract_lets e
  refine inv_ite h (inv_ite (inv_adcPairWrite h) ?_)
  split
  · exact inv_adcCtrlWrite h
  · split
    · exact inv_adcGo h
    · exact inv_adcFlush h
    · exact h
  · exact inv_ite (inv_wideWrite h (fun _ _ h => h)) h
  · exact inv_ite (inv_wideWrite h (fun _ _ h1 => inv_adcConfigWrite h1 (fun _ => inv_setPair))) h
  · exact inv_ite (inv_adcConfigWrite h (fun _ => inv_typedWrite)) h
  · exact inv_plainWrite h
theorem inv_edgRegWrite {m : Master} {c a : Nat} {v : Word} (h : Inv s) : Inv (edgRegWrite m c a v s) := by
  delta edgRegWrite
  generalize tab a (EDG_CH_CTRL c 0) 0x40 16 = p
  refine inv_ite (inv_edgSync h) ?_
  split
  · exact inv_edgCtrlWrite h
  · extract_lets kk cc
    split
    · exact inv_edgArm h
    · exact inv_edgDisarm h
    · exact inv_edgForce h
    · exact inv_edgForce h
    · exact inv_onward h keeps_execSyncTt
    · exact inv_onward h keeps_execClrOvr
    · exact h
  · exact inv_ite (inv_setReg h) h
  · exact inv_edgCmpWrite h
  · exact inv_ite (inv_edgConfigWrite h (fun _ => inv_typedWrite)) h
  · exact inv_plainWrite h
/-- The function's name is generalized before it is unfolded: the kernel would otherwise meet `voteRegWrite …` against its body and
evaluate the table lookups there. -/
theorem inv_voteRegWrite {m : Master} {c a : Nat} {v : Word} (h : Inv s) : Inv (voteRegWrite m c a v s).2 := by
  generalize hx : voteRegWrite m c a v s = x
  generalize hf : @voteRegWrite = f at hx
  delta voteRegWrite at hf
  subst hf
  beta_reduce at hx
  subst hx
  generalize tab a (VOTE_PORT_DATA c 0 0) 0x10 384 = p
  generalize tab a (VOTE_GRP_STATUS c 0) 0x20 12 = q
  obtain _ | ⟨e, r⟩ := p
  · obtain _ | ⟨g, o⟩ := q
    · exact inv_plainWrite h
    dsimp -zeta only
    split
    · exact inv_snd (inv_ite (inv_takeoverWrite h) h)
    · exact h
    · exact inv_plainWrite h
  cases m with
  | tile t vital sup =>
    dsimp -zeta only
    split
    · exact h
    extract_lets w
    split
    · exact inv_voteWrite h
    · exact inv_cfgWrite h
    · exact inv_cfgWrite h
    · exact h
  | _ => exact h
theorem inv_shelfCmdWrite {m : Master} {c : Nat} {v : Word} (h : Inv s) : Inv (shelfCmdWrite m c v s) := by
  unfold shelfCmdWrite
  split
  · extract_lets w
    split
    · exact inv_shelfResend h
    · exact inv_shelfDiscard h
    · exact h
  · exact h
theorem inv_clusterWrite {m : Master} {c a : Nat} {v : Word} (h : Inv s) : Inv (clusterWrite m c a v s).2 := by
  unfold clusterWrite
  extract_lets o
  split
  · exact h
  split
  · split
    · exact inv_chanWrite h
    · exact inv_ite (inv_engineCommand h) (inv_plainWrite h)
  split
  · exact inv_adcRegWrite h
  split
  · exact inv_edgRegWrite h
  split
  · split
    · exact inv_bankCtrlWrite h
    · exact inv_plainWrite h
  split
  · exact inv_voteRegWrite h
  split
  · exact inv_shelfCmdWrite h
  · exact h
theorem inv_tileWrite {m : Master} {t a : Nat} {v : Word} (h : Inv s) : Inv (tileWrite m t a v s) := by
  unfold tileWrite
  extract_lets o s1 w p
  have h1 : Inv s1 := inv_typedWrite h
  refine inv_ite h (inv_ite (inv_ite h (inv_ite (inv_writeExcCtrl h) (inv_ite (inv_ite (inv_setN (inv_setN (inv_setN h1))) h1) ?_)))
      (inv_ite (inv_setReg h) (inv_ite ?_ (inv_ite ?_ ?_))))
  · split
    · exact inv_writeEvcCfg h
    · exact inv_typedWrite h
  · split
    · refine inv_ite h (inv_ite (inv_omtSend h) (inv_ite (inv_nackPop h) ?_))
      split
      · exact inv_rxPop h
      · exact h
      · exact inv_typedWrite h
    · exact h
  · split
    · exact inv_ite h (inv_ite (inv_typedWrite h) (inv_typedWrite h))
    · exact h
  split
  · exact inv_chanWrite h
  · exact inv_plainWrite h
theorem inv_ioWrite {m : Master} {a : Nat} {v : Word} (h : Inv s) : Inv (ioWrite m a v s).2 := by
  unfold ioWrite
  split
  · exact inv_devWrite h
  split
  · split
    · exact inv_tileWrite h
    · exact inv_clusterWrite h
  · exact h
theorem inv_ioWriteAt {m : Master} {pri a : Nat} {v : Word} (h : Inv s) : Inv (ioWriteAt m pri a v s).2 := by
  unfold ioWriteAt
  split
  · extract_lets p q r
    have hr : Inv r.2 := inv_ioWrite (inv_swapStages h)
    split
    · exact inv_ioWrite h
    · exact inv_swapStages hr
  · exact inv_ioWrite h

/-! ### Sys2Proof/Machine/Beats.lean -/

theorem inv_dmaRefused {d a cause : Nat} {write : Bool} {rec : Option (Place × Nat)} (h : Inv s) :
    Inv (dmaRefused d a cause write rec s) := by
  unfold dmaRefused
  split
  · exact inv_recordRefusal h
  · exact inv_ite h (inv_ite (inv_mramRefused h) (inv_offAccess h))
theorem inv_dmaRead {d a n : Nat} {io : Bool} {ecc waited : Nat} {fab : Bool} (h : Inv s) :
    Inv (dmaRead d a n io ecc waited fab s).state := by
  unfold dmaRead
  extract_lets m
  split
  · exact h
  split
  · split
    · exact h
    · exact inv_domTouch h
    split
    rename_i s1 e
    have h1 : Inv s1 := inv_snd_of_eq e (inv_ioRead h)
    exact h1
  split
  split
  · exact inv_dmaRefused h
  · exact inv_placeTouch h
  extract_lets ecc1
  split
  rename_i s2 e1
  have h2 : Inv s2 := inv_snd_of_eq e1 (inv_readData (inv_conflicts h))
  split
  · exact h2
  · exact h2
theorem inv_dmaWrite {d a : Nat} {l : List Byte} {io : Bool} {ecc waited : Nat} {fab : Bool} (h : Inv s) :
    Inv (dmaWrite d a l io ecc waited fab s).state := by
  unfold dmaWrite
  extract_lets m v
  split
  · exact h
  split
  · split
    · exact h
    · exact inv_domTouch h
    split
    · rename_i s1 e
      have h1 : Inv s1 := inv_snd_of_eq e (inv_ioWrite h)
      exact h1
    rename_i s2 e1
    have h2 : Inv s2 := inv_snd_of_eq e1 (inv_ioWrite h)
    exact h2
  split
  split
  · exact inv_dmaRefused h
  · exact inv_placeTouch h
  extract_lets ecc1 s3
  have h3 : Inv s3 := inv_eccEvent (inv_conflicts h)
  split
  · exact h
  split
  · exact h3
  split
  · exact inv_tileStore h3
  · exact inv_placeWrite h3
theorem inv_lateBeats {d w n : Nat} {x y : Side} (h : Inv s) : Inv (lateBeats d w n x y s) := by
  induction n generalizing x y s with
  | zero => exact h
  | succ n ih =>
    unfold lateBeats
    extract_lets failed
    have hfailed : ∀ s1, Inv s1 → Inv (failed s1) := fun _ h1 => inv_when h1 (fun _ => inv_bump)
    refine inv_ite h ?_
    split
    · rename_i s1 e
      have h1 : Inv s1 := DmaAcc.inv_of_eq e (inv_dmaRead h)
      split
      · rename_i s2 e
        exact ih (DmaAcc.inv_of_eq e (inv_dmaWrite h1))
      · rename_i s2 e
        exact ih (hfailed _ (DmaAcc.inv_of_eq e (inv_dmaWrite h1)))
      · exact h1
    · rename_i s1 e
      exact ih (hfailed _ (DmaAcc.inv_of_eq e (inv_dmaRead h)))
    · exact h
theorem inv_waitBeat {d : Nat} (h : Inv s) : Inv (waitBeat d s) := inv_modDma h
theorem inv_levelBeat {d : Nat} (h : Inv s) : Inv (levelBeat d s) := inv_when h (fun _ => inv_set)
theorem inv_countBeat {d w : Nat} {l : List Byte} (h : Inv s) : Inv (countBeat d w l s) :=
  inv_chSettle (inv_sideBeat (inv_sideBeat (inv_modDma (inv_levelBeat (inv_crcBeat (inv_setN h))))))
theorem inv_dataBeat {d eccR eccW waitR waitW fab late : Nat} (h : Inv s) : Inv (dataBeat d eccR eccW waitR waitW fab late s) := by
  unfold dataBeat
  extract_lets r w behind
  have hbehind : ∀ s1, Inv s1 → Inv (behind s1) := fun _ h1 => inv_lateBeats h1
  refine inv_ite h (inv_ite (inv_chEnd h) ?_)
  split
  · rename_i s1 e
    have h1 : Inv s1 := DmaAcc.inv_of_eq e (inv_dmaRead h)
    exact inv_waitBeat h1
  · rename_i s2 e1
    have h2 : Inv s2 := DmaAcc.inv_of_eq e1 (inv_dmaRead h)
    exact inv_busError (hbehind _ h2)
  rename_i s3 e2
  have h3 : Inv s3 := DmaAcc.inv_of_eq e2 (inv_dmaRead h)
  split
  · rename_i s4 e3
    split
    · rename_i s5 e4
      have h5 : Inv s5 := DmaAcc.inv_of_eq e4 (inv_dmaWrite h)
      exact inv_waitBeat h5
    · exact inv_waitBeat h
  · rename_i s6 e5
    have h6 : Inv s6 := DmaAcc.inv_of_eq e5 (inv_dmaWrite h3)
    exact inv_busError (hbehind _ h6)
  rename_i s7 e6
  have h7 : Inv s7 := DmaAcc.inv_of_eq e6 (inv_dmaWrite h3)
  exact inv_countBeat h7
theorem inv_crcTailBeat {d eccR eccW waitR waitW fab : Nat} (h : Inv s) : Inv (crcTailBeat d eccR eccW waitR waitW fab s) := by
  unfold crcTailBeat
  extract_lets b r n move ended l
  have hended : ∀ s1, Inv s1 → Inv (ended s1) := fun _ h1 => inv_when h1 (fun _ => inv_chComplete)
  refine inv_ite ?_ ?_
  · split
    · rename_i s1 e
      have h1 : Inv s1 := DmaAcc.inv_of_eq e (inv_dmaWrite h)
      exact inv_waitBeat h1
    · rename_i s2 e1
      have h2 : Inv s2 := DmaAcc.inv_of_eq e1 (inv_dmaWrite h)
      exact inv_busError h2
    rename_i s3 e2
    have h3 : Inv s3 := DmaAcc.inv_of_eq e2 (inv_dmaWrite h)
    exact hended _ (inv_modDma (inv_levelBeat h3))
  split
  · rename_i s4 e3
    have h4 : Inv s4 := DmaAcc.inv_of_eq e3 (inv_dmaRead h)
    exact inv_waitBeat h4
  · rename_i s5 e4
    have h5 : Inv s5 := DmaAcc.inv_of_eq e4 (inv_dmaRead h)
    exact inv_busError h5
  rename_i s6 e5
  have h6 : Inv s6 := DmaAcc.inv_of_eq e5 (inv_dmaRead h)
  exact hended _ (inv_setN (inv_modDma (inv_levelBeat h6)))
theorem inv_copyBeat {d g eccR eccW fab : Nat} (h : Inv s) : Inv (copyBeat d g eccR eccW fab s) := by
  unfold copyBeat
  extract_lets r donor m off
  split
  · extract_lets o n a z s1 s2 s3 s4 s5
    have h1 : Inv s1 := inv_eccEvent h
    have h2 : Inv s2 := inv_eccEvent h1
    have h3 : Inv s3 := inv_setBytes h2
    have h4 : Inv s4 := inv_setN h3
    have h5 : Inv s5 := inv_modDma h4
    exact inv_ite (inv_copyComplete h) (inv_ite (inv_busError h) (inv_ite (inv_busError h1) (inv_ite (inv_busError h1) (inv_ite
        (inv_busError h2) (inv_ite (inv_copyComplete h5) h5)))))
  · exact h
theorem inv_takeTurn {d : Nat} (h : Inv s) : Inv (takeTurn d s) := by
  unfold takeTurn
  split
  exact inv_mk h
theorem inv_orphanBeat {d : Nat} (h : Inv s) : Inv (orphanBeat d s) := by
  unfold orphanBeat
  extract_lets r f world
  split
  · exact h
  extract_lets s1 n s2
  have h1 : Inv s1 := inv_setB h
  have h2 : Inv s2 := by
    unfold s2
    split
    · rename_i s3 e
      have h3 : Inv s3 := DmaAcc.inv_of_eq e (inv_dmaWrite h1)
      exact h3
    · rename_i s4 e1
      have h4 : Inv s4 := DmaAcc.inv_of_eq e1 (inv_dmaWrite h1)
      exact h4
    rename_i s5 e2
    have h5 : Inv s5 := DmaAcc.inv_of_eq e2 (inv_dmaWrite h1)
    exact h5
  exact inv_ite (inv_modDma (inv_setB (inv_lateBeats h1))) (inv_modDma (inv_setB h2))
theorem inv_beatComplete {d eccR eccW waitR waitW fab late : Nat} (h : Inv s) :
    Inv (beatComplete d eccR eccW waitR waitW fab late s) := by
  unfold beatComplete
  extract_lets r st s1
  have h1 : Inv s1 := inv_when h (fun _ => inv_takeTurn)
  refine inv_ite h (inv_ite (inv_orphanBeat h) ?_)
  split
  · exact inv_ite (inv_copyBeat (inv_takeTurn h)) h
  · exact inv_ite (inv_ite (inv_bump h) (inv_ite h (inv_lateBeats h))) (inv_ite h (inv_ite (inv_dataBeat h1) (inv_ite
        (inv_modDma h1) (inv_crcTailBeat h1))))
theorem keeps_execBeatComplete {d : Fin 144} {eccR eccW : Fin 3} {waitR waitW : BitVec 16} {fab : Fin 3} {late : Fin 9} :
    Keeps s (execBeatComplete d eccR eccW waitR waitW fab late s) :=
  keeps_next inv_beatComplete
theorem inv_listFetch {d : Nat} {dst : Bool} {ecc waited : Nat} {fab : Bool} (h : Inv s) : Inv (listFetch d dst ecc waited fab s) := by
  unfold listFetch
  extract_lets r st x
  refine inv_ite h ?_
  split
  · rename_i s1 e
    have h1 : Inv s1 := DmaAcc.inv_of_eq e (inv_dmaRead h)
    exact inv_waitBeat h1
  · rename_i s2 e1
    have h2 : Inv s2 := DmaAcc.inv_of_eq e1 (inv_dmaRead h)
    exact inv_busError h2
  rename_i s3 e2
  have h3 : Inv s3 := DmaAcc.inv_of_eq e2 (inv_dmaRead h)
  exact inv_walkEntry (inv_modDma h3)
theorem keeps_execListFetch {d : Fin 144} {dst : Bool} {ecc : Fin 3} {waited : BitVec 16} {fab : Bool} :
    Keeps s (execListFetch d dst ecc waited fab s) :=
  keeps_next inv_listFetch
theorem inv_chWakeTimeout {d : Nat} (h : Inv s) : Inv (chWakeTimeout d s) := by
  unfold chWakeTimeout
  extract_lets r fetch off fails
  have hfails : ∀ a io write fetch1, Inv (fails a io write fetch1) := fun _ _ _ _ => inv_busError (inv_when h (fun _ => inv_dmaRefused))
  refine inv_ite h ?_
  clear_value fetch
  split
  · exact inv_ite (hfails _ _ _ _) h
  · exact inv_ite (hfails _ _ _ _) (inv_ite (hfails _ _ _ _) h)

/-! ### Sys2Proof/Machine/Access.lean -/

theorem keeps_execRegisterWrite {m : Master} {a : BitVec 24} {v : Word} : Keeps s (execRegisterWrite m a v s) :=
  keeps_next fun h => inv_ite (inv_ioWrite h) h
theorem keeps_execWidePairRead {m : Master} {a : BitVec 24} : Keeps s (execWidePairRead m a s) :=
  keeps_ite (keeps_next fun h => inv_mk (inv_ioRead h)) (keeps_next fun h => h)
theorem inv_halfWrite {m : Master} {a : Nat} {hi : Bool} {v : Word} (h : Inv s) : Inv (halfWrite m a hi v s) := by
  unfold halfWrite
  split
  · exact inv_ite (inv_ioWrite h) h
  · exact h
theorem keeps_execWriteStage {m : Master} {a : BitVec 24} {v : Word} : Keeps s (execWriteStage m a v s) :=
  keeps_next inv_halfWrite
theorem keeps_execWidePairCommit {m : Master} {a : BitVec 24} {v : Word} : Keeps s (execWidePairCommit m a v s) :=
  keeps_next inv_halfWrite
theorem inv_loadReturn {t ecc waited : Nat} (h : Inv s) : Inv (loadReturn t ecc waited s) := by
  unfold loadReturn
  extract_lets x m gone
  split
  · exact h
  rename_i l _
  have hgone : ∀ s1, Inv s1 → Inv (gone s1) := fun _ h1 => inv_modTile h1
  have htouch : ∀ s1, Inv s1 → Inv (((ioDomain l.addr).map domTouch).getD id s1) := fun _ h1 =>
    inv_getD_map_id h1 (fun _ => inv_domTouch h1)
  refine inv_ite h ?_
  split
  split
  refine inv_ite (inv_ite ?_ (inv_raiseSync (hgone _ (inv_ite h (inv_offAccess h)))))
    (inv_ite (inv_placeTouch h) (inv_ite (htouch _ h) ?_))
  · refine inv_waitWake (hgone _ h) (fun s1 h1 => ?_)
    split
    · exact htouch _ h1
    · exact inv_placeTouch h1
  · split
    rename_i s1 e
    refine inv_result (hgone _ ?_)
    split at e
    · split at e
      rename_i s2 e2
      cases e
      exact inv_snd_of_eq e2 (inv_ioRead h)
    · exact inv_snd_of_eq e (inv_readData (inv_conflicts h))
theorem keeps_execLoadDataReturn {t : Fin 24} {ecc : Fin 3} {waited : BitVec 16} : Keeps s (execLoadDataReturn t ecc waited s) :=
  keeps_next inv_loadReturn
theorem inv_postedComplete {t ecc waited : Nat} {fab : Bool} (h : Inv s) : Inv (postedComplete t ecc waited fab s) := by
  unfold postedComplete
  split
  · exact h
  extract_lets m gone kept touch
  have hgone : ∀ s1, Inv s1 → Inv (gone s1) := fun _ h1 => inv_modTile h1
  have htouch : ∀ s1, Inv s1 → Inv (touch s1) := fun _ h1 => inv_getD_map_id h1 (fun _ => inv_domTouch h1)
  refine inv_ite (inv_postErr (inv_retryFail (hgone _ h))) (inv_ite (inv_ite (htouch _ (inv_modTile h))
    (inv_ite (inv_ite (htouch _ h) (inv_postErr (hgone _ h))) ?_)) ?_)
  · split
    · rename_i s1 e
      exact inv_postErr (inv_snd_of_eq e (inv_ioWriteAt (hgone _ h)))
    · rename_i s1 e
      exact inv_snd_of_eq e (inv_ioWriteAt (hgone _ h))
  · split
    · rename_i s1 e
      exact inv_snd_of_eq e (inv_arriveStore h)
    · rename_i s1 e
      exact hgone _ (inv_snd_of_eq e (inv_arriveStore h))
    · rename_i s1 e
      exact inv_postErr (hgone _ (inv_snd_of_eq e (inv_arriveStore h)))
theorem keeps_execPostedWriteComplete {t : Fin 24} {ecc : Fin 3} {waited : BitVec 16} {fab : Bool} :
    Keeps s (execPostedWriteComplete t ecc waited fab s) :=
  keeps_next inv_postedComplete
theorem keeps_execWakeTimeout {m : Master} : Keeps s (execWakeTimeout m s) := by
  refine keeps_next fun h => ?_
  split
  · exact inv_wakeTimeout h
  · exact inv_chWakeTimeout h
  · exact inv_chWakeTimeout h
  · exact h
theorem inv_hostIo {write : Bool} {a n : Nat} {v : Word} {e : Nat} (h : Inv s) : Inv (hostIo write a n v e s).state := by
  unfold hostIo
  extract_lets off woa
  split
  · exact h
  split
  · exact h
  split
  · exact inv_retryFail h
  split
  · split
    · exact inv_getD_map h (fun _ => inv_domTouch h)
    · exact h
  split
  · split
    · exact h
    split
    · rename_i s1 e1
      exact inv_snd_of_eq e1 (inv_ioWrite h)
    · rename_i s1 e1
      exact inv_snd_of_eq e1 (inv_ioWrite h)
  split
  rename_i s1 e1
  exact inv_snd_of_eq e1 (inv_ioRead h)
theorem inv_hostData {write : Bool} {a n : Nat} {v : Word} {e waited : Nat} (h : Inv s) :
    Inv (hostData write a n v e waited s).state := by
  unfold hostData
  split
  split
  extract_lets m ecc ecc1 s1 ecc2
  have h1 : Inv s1 := inv_eccEvent (inv_conflicts h)
  split
  · exact h
  split
  · exact inv_retryFail h
  split
  · exact inv_recordRefusal h
  split
  split
  · exact inv_mramRefused h
  split
  · split
    · exact inv_placeTouch h
    · exact inv_offAccess h
  split
  · exact inv_placeTouch h
  split
  · split
    · exact h
    split
    · exact h1
    · exact inv_placeWrite h1
  split
  rename_i s2 e1
  have h2 : Inv s2 := inv_snd_of_eq e1 (inv_readData (inv_conflicts h))
  split
  · exact h2
  · exact h2
theorem inv_hostFailed {path write data : Bool} {a status : Nat} (h : Inv s) : Inv (hostFailed path write data a status s) :=
  inv_raise (inv_set (inv_ite h (inv_modHost (inv_setN (inv_setN h)))))
theorem inv_hostData_or_hostIo {write data : Bool} {a n : Nat} {v : Word} {e waited : Nat} (h : Inv s) :
    Inv (if data then hostData write a n v e waited s else hostIo write a n v e s).state := by
  split
  · exact inv_hostData h
  · exact inv_hostIo h
theorem inv_hostAccess {path write data : Bool} {a n : Nat} {v : Word} {e waited : Nat} (h : Inv s) :
    Inv (hostAccess path write data a n v e waited s).2 := by
  unfold hostAccess
  split
  · rename_i s1 e1
    exact HostEnd.inv_of_eq e1 (inv_hostData_or_hostIo h)
  · rename_i s1 e1
    have h1 : Inv s1 := HostEnd.inv_of_eq e1 (inv_hostData_or_hostIo h)
    exact inv_ite (inv_mk h1) (inv_hostFailed (inv_mk h1))
theorem inv_msixWrite {o n : Nat} {v : Word} (h : Inv s) : Inv (msixWrite o n v s) :=
  inv_ite h (inv_ite (inv_msixFire (inv_modHost h)) (inv_modHost h))
theorem inv_msixRelease (h : Inv s) : Inv (msixRelease s) := inv_forEach h (fun _ _ => inv_msixFire)
theorem inv_configWrite {o n : Nat} {v : Word} (h : Inv s) : Inv (configWrite o n v s) := by
  unfold configWrite
  extract_lets w
  refine inv_ite h (inv_ite (inv_msixRelease (inv_modHost h)) (inv_ite ?_ h))
  split
  · exact inv_msixRelease (inv_modHost h)
  · exact inv_modHost h
  · exact h
theorem keeps_execHostAccess {bar : Fin 4} {write : Bool} {x : BitVec 24} {n : Fin 5} {v : Word} {e : Fin 5} {waited : BitVec 16} :
    Keeps s (execHostAccess bar write x n v e waited s) := by
  refine keeps_next fun h => ?_
  extract_lets data a base
  have hbase : Inv base := inv_hostFailed h
  exact inv_ite h (inv_ite (inv_ite (inv_configWrite h) (inv_mk h)) (inv_ite h (inv_ite (inv_mk hbase) (inv_ite (inv_ite
      (inv_msixWrite h) (inv_mk h)) (inv_hostAccess h)))))
theorem inv_spiBurst {write data : Bool} {n a : Nat} {ws : List Word} {es : List (Fin 5 × BitVec 16)} (h : Inv s) :
    Inv (spiBurst write data a ws es n s) := by
  induction n generalizing a ws es s with
  | zero => exact h
  | succ n ih =>
    unfold spiBurst
    split
    split
    · rename_i s1 e
      exact inv_modHost (inv_snd_of_eq e (inv_hostAccess h))
    · rename_i s1 e
      exact ih (inv_modHost (inv_snd_of_eq e (inv_hostAccess h)))
theorem inv_spiRun {write data ends : Bool} {a : Nat} {ws : List Word} {es : List (Fin 5 × BitVec 16)} {n : Nat} (h : Inv s) :
    Inv (spiRun write data ends a ws es n s) :=
  inv_ite h (inv_modHost (inv_spiBurst (inv_modHost h)))
theorem keeps_execHostSpiTransaction {op : BitVec 8} {a : Word} {n : Fin 257} {ws : List Word} {es : List (Fin 5 × BitVec 16)} :
    Keeps s (execHostSpiTransaction op a n ws es s) := by
  refine keeps_next fun h => ?_
  refine inv_ite h ?_
  split
  · exact inv_spiRun h
  · exact inv_spiRun h
  · exact inv_spiRun h
  · exact inv_spiRun h
  · exact h
theorem keeps_execDebugAccess {write data : Bool} {a : Word} {n : Fin 5} {v : Word} {e : Fin 5} {waited : BitVec 16} :
    Keeps s (execDebugAccess write data a n v e waited s) := by
  refine keeps_next fun h => ?_
  refine inv_ite h (inv_ite (inv_mk h) ?_)
  split
  · rename_i s1 e1
    exact HostEnd.inv_of_eq e1 (inv_hostData_or_hostIo (inv_mk h))
  · rename_i s1 e1
    exact inv_mk (HostEnd.inv_of_eq e1 (inv_hostData_or_hostIo (inv_mk h)))

/-! ### Sys2Proof/Machine/Alu.lean -/

theorem keeps_execAdd {t : Fin 24} {ga gb gc : Fin 16} : Keeps s (execAdd t ga gb gc s) := keeps_next inv_aluR
theorem keeps_execSub {t : Fin 24} {ga gb gc : Fin 16} : Keeps s (execSub t ga gb gc s) := keeps_next inv_aluR
theorem keeps_execAnd {t : Fin 24} {ga gb gc : Fin 16} : Keeps s (execAnd t ga gb gc s) := keeps_next inv_aluR
theorem keeps_execOr {t : Fin 24} {ga gb gc : Fin 16} : Keeps s (execOr t ga gb gc s) := keeps_next inv_aluR
theorem keeps_execXor {t : Fin 24} {ga gb gc : Fin 16} : Keeps s (execXor t ga gb gc s) := keeps_next inv_aluR
theorem keeps_execAndn {t : Fin 24} {ga gb gc : Fin 16} : Keeps s (execAndn t ga gb gc s) := keeps_next inv_aluR
theorem keeps_execSlt {t : Fin 24} {ga gb gc : Fin 16} : Keeps s (execSlt t ga gb gc s) := keeps_next inv_aluR
theorem keeps_execSltu {t : Fin 24} {ga gb gc : Fin 16} : Keeps s (execSltu t ga gb gc s) := keeps_next inv_aluR
theorem keeps_execShl {t : Fin 24} {ga gb gc : Fin 16} : Keeps s (execShl t ga gb gc s) := keeps_next inv_aluR
theorem keeps_execShr {t : Fin 24} {ga gb gc : Fin 16} : Keeps s (execShr t ga gb gc s) := keeps_next inv_aluR
theorem keeps_execSar {t : Fin 24} {ga gb gc : Fin 16} : Keeps s (execSar t ga gb gc s) := keeps_next inv_aluR
theorem keeps_execRor {t : Fin 24} {ga gb gc : Fin 16} : Keeps s (execRor t ga gb gc s) := keeps_next inv_aluR
theorem keeps_execMin {t : Fin 24} {ga gb gc : Fin 16} : Keeps s (execMin t ga gb gc s) := keeps_next inv_aluR
theorem keeps_execMax {t : Fin 24} {ga gb gc : Fin 16} : Keeps s (execMax t ga gb gc s) := keeps_next inv_aluR
theorem keeps_execMinu {t : Fin 24} {ga gb gc : Fin 16} : Keeps s (execMinu t ga gb gc s) := keeps_next inv_aluR
theorem keeps_execMaxu {t : Fin 24} {ga gb gc : Fin 16} : Keeps s (execMaxu t ga gb gc s) := keeps_next inv_aluR
theorem keeps_execAdds {t : Fin 24} {ga gb gc : Fin 16} : Keeps s (execAdds t ga gb gc s) := keeps_next inv_aluSat
theorem keeps_execSubs {t : Fin 24} {ga gb gc : Fin 16} : Keeps s (execSubs t ga gb gc s) := keeps_next inv_aluSat
theorem keeps_execClz {t : Fin 24} {ga gb : Fin 16} : Keeps s (execClz t ga gb s) := keeps_next inv_aluR
theorem keeps_execAddi {t : Fin 24} {ga gb : Fin 16} {imm : BitVec 18} : Keeps s (execAddi t ga gb imm s) := keeps_next inv_aluI
theorem keeps_execAndi {t : Fin 24} {ga gb : Fin 16} {imm : BitVec 18} : Keeps s (execAndi t ga gb imm s) := keeps_next inv_aluI
theorem keeps_execOri {t : Fin 24} {ga gb : Fin 16} {imm : BitVec 18} : Keeps s (execOri t ga gb imm s) := keeps_next inv_aluI
theorem keeps_execXori {t : Fin 24} {ga gb : Fin 16} {imm : BitVec 18} : Keeps s (execXori t ga gb imm s) := keeps_next inv_aluI
theorem keeps_execSlti {t : Fin 24} {ga gb : Fin 16} {imm : BitVec 18} : Keeps s (execSlti t ga gb imm s) := keeps_next inv_aluI
theorem keeps_execSltui {t : Fin 24} {ga gb : Fin 16} {imm : BitVec 18} : Keeps s (execSltui t ga gb imm s) :=
  keeps_next inv_aluI
theorem keeps_execShiShl {t : Fin 24} {ga gb : Fin 16} {n : Fin 32} : Keeps s (execShiShl t ga gb n s) := keeps_next inv_aluI
theorem keeps_execShiShr {t : Fin 24} {ga gb : Fin 16} {n : Fin 32} : Keeps s (execShiShr t ga gb n s) := keeps_next inv_aluI
theorem keeps_execShiSar {t : Fin 24} {ga gb : Fin 16} {n : Fin 32} : Keeps s (execShiSar t ga gb n s) := keeps_next inv_aluI
theorem keeps_execShiRor {t : Fin 24} {ga gb : Fin 16} {n : Fin 32} : Keeps s (execShiRor t ga gb n s) := keeps_next inv_aluI
theorem keeps_execLui {t : Fin 24} {ga : Fin 16} {imm : BitVec 18} : Keeps s (execLui t ga imm s) := keeps_next inv_aluI
theorem keeps_execApc {t : Fin 24} {ga : Fin 16} {imm : BitVec 18} : Keeps s (execApc t ga imm s) :=
  keeps_next fun h => inv_issue h (fun _ _ => inv_result)
theorem keeps_execExtu {t : Fin 24} {ga gb : Fin 16} {pos len : Fin 32} : Keeps s (execExtu t ga gb pos len s) :=
  keeps_next inv_aluI
theorem keeps_execExts {t : Fin 24} {ga gb : Fin 16} {pos len : Fin 32} : Keeps s (execExts t ga gb pos len s) :=
  keeps_next inv_aluI
theorem keeps_execIns {t : Fin 24} {ga gb : Fin 16} {pos len : Fin 32} : Keeps s (execIns t ga gb pos len s) :=
  keeps_next fun h => inv_issue h (fun _ _ => inv_result)
theorem keeps_execSatg {t : Fin 24} {ga gb : Fin 16} {n : Fin 32} {u : Bool} : Keeps s (execSatg t ga gb n u s) :=
  keeps_next fun h => inv_issue h (fun _ _ => inv_result)

/-! ### Sys2Proof/Machine/Tick.lean -/

theorem inv_tick (h : Inv s) : Inv (tick s) := by
  unfold tick
  extract_lets before s1 base s2 s3 s4 s5 s6 s7
  have h1 : Inv s1 := inv_edgeLoads (inv_adcTake h)
  have h2 : Inv s2 := inv_ttCycle (inv_withClk h1)
  have h3 : Inv s3 := inv_keeperCycle (inv_voteCycle (inv_edgeCycle h2))
  have h4 : Inv s4 := inv_glideCycle (inv_spreadCycle h3)
  have h5 : Inv s5 := inv_snapCapture (inv_snapCapture (inv_snapCapture (inv_snapCapture (inv_adcCycle h4))))
  have h6 : Inv s6 := inv_mvbCycle (inv_ageLatches h5)
  have h7 : Inv s7 := inv_domCycle (inv_bankCycle h6)
  exact inv_ite h (inv_mailboxRun (inv_fnWatch (inv_gateCycle (inv_fallbackDiscard (inv_forEach h7 (fun _ _ => inv_tileEdge))))))

/-! ### The step -/

theorem keeps_exec (i : Instr) : Keeps s (exec i s) := by
  cases i with
  | registerWrite => exact keeps_execRegisterWrite
  | widePairRead => exact keeps_execWidePairRead
  | latchExpiry => exact keeps_execLatchExpiry
  | writeStage => exact keeps_execWriteStage
  | widePairCommit => exact keeps_execWidePairCommit
  | stageExpiry => exact keeps_execStageExpiry
  | stageBegin => exact keeps_execStageBegin
  | stageData => exact keeps_execStageData
  | inventoryVerifyDone => exact keeps_execInventoryVerifyDone
  | stageArm => exact keeps_execStageArm
  | stageCancel => exact keeps_execStageCancel
  | revert => exact keeps_execRevert
  | epochTick => exact keeps_execEpochTick
  | revertDecision => exact keeps_execRevertDecision
  | revertInstant => exact keeps_execRevertInstant
  | revertTick => exact keeps_execRevertTick
  | lateRevertTick => exact keeps_execLateRevertTick
  | beaconSend => exact keeps_execBeaconSend
  | beaconReceive => exact keeps_execBeaconReceive
  | peerMissing => exact keeps_execPeerMissing
  | watchCheck => exact keeps_execWatchCheck
  | monitorGate => exact keeps_execMonitorGate
  | missingEdge => exact keeps_execMissingEdge
  | sourceDecision => exact keeps_execSourceDecision
  | revertHoldoff => exact keeps_execRevertHoldoff
  | clkSelect => exact keeps_execClkSelect
  | referenceSwitchDone => exact keeps_execReferenceSwitchDone
  | deadswitch => exact keeps_execDeadswitch
  | glideEnd => exact keeps_execGlideEnd
  | periodMeasure => exact keeps_execPeriodMeasure
  | clockFaultHold => exact keeps_execClockFaultHold
  | holdTimeout => exact keeps_execHoldTimeout
  | syncReceive => exact keeps_execSyncReceive
  | syncTimeout => exact keeps_execSyncTimeout
  | announceReceive => exact keeps_execAnnounceReceive
  | announceReceiptTimeout => exact keeps_execAnnounceReceiptTimeout
  | syncSend => exact keeps_execSyncSend
  | pdelayReqSend => exact keeps_execPdelayReqSend
  | pdelayReq => exact keeps_execPdelayReq
  | pdelayRespReceive => exact keeps_execPdelayRespReceive
  | ttSlewAmount => exact keeps_execTtSlewAmount
  | ttStep => exact keeps_execTtStep
  | haStateWrite => exact keeps_execHaStateWrite
  | snapGo => exact keeps_execSnapGo
  | add => exact keeps_execAdd
  | sub => exact keeps_execSub
  | and => exact keeps_execAnd
  | or => exact keeps_execOr
  | xor => exact keeps_execXor
  | andn => exact keeps_execAndn
  | slt => exact keeps_execSlt
  | sltu => exact keeps_execSltu
  | shl => exact keeps_execShl
  | shr => exact keeps_execShr
  | sar => exact keeps_execSar
  | ror => exact keeps_execRor
  | min => exact keeps_execMin
  | max => exact keeps_execMax
  | minu => exact keeps_execMinu
  | maxu => exact keeps_execMaxu
  | adds => exact keeps_execAdds
  | subs => exact keeps_execSubs
  | clz => exact keeps_execClz
  | addi => exact keeps_execAddi
  | andi => exact keeps_execAndi
  | ori => exact keeps_execOri
  | xori => exact keeps_execXori
  | slti => exact keeps_execSlti
  | sltui => exact keeps_execSltui
  | shiShl => exact keeps_execShiShl
  | shiShr => exact keeps_execShiShr
  | shiSar => exact keeps_execShiSar
  | shiRor => exact keeps_execShiRor
  | lui => exact keeps_execLui
  | apc => exact keeps_execApc
  | extu => exact keeps_execExtu
  | exts => exact keeps_execExts
  | ins => exact keeps_execIns
  | satg => exact keeps_execSatg
  | mul => exact keeps_execMul
  | mulu => exact keeps_execMulu
  | mul16 => exact keeps_execMul16
  | mac => exact keeps_execMac
  | macu => exact keeps_execMacu
  | msu => exact keeps_execMsu
  | mac16 => exact keeps_execMac16
  | clra => exact keeps_execClra
  | lda => exact keeps_execLda
  | div => exact keeps_execDiv
  | divu => exact keeps_execDivu
  | mulResult => exact keeps_execMulResult
  | macResult => exact keeps_execMacResult
  | divResult => exact keeps_execDivResult
  | exta => exact keeps_execExta
  | mfs => exact keeps_execMfs
  | mts => exact keeps_execMts
  | ldw => exact keeps_execLdw
  | ldh => exact keeps_execLdh
  | ldhu => exact keeps_execLdhu
  | ldb => exact keeps_execLdb
  | ldbu => exact keeps_execLdbu
  | stw => exact keeps_execStw
  | sth => exact keeps_execSth
  | stb => exact keeps_execStb
  | ldxw => exact keeps_execLdxw
  | ldxh => exact keeps_execLdxh
  | ldxhu => exact keeps_execLdxhu
  | ldxb => exact keeps_execLdxb
  | ldxbu => exact keeps_execLdxbu
  | stxw => exact keeps_execStxw
  | stxh => exact keeps_execStxh
  | stxb => exact keeps_execStxb
  | inp => exact keeps_execIn
  | out => exact keeps_execOut
  | loadDataReturn => exact keeps_execLoadDataReturn
  | postedWriteComplete => exact keeps_execPostedWriteComplete
  | beq => exact keeps_execBeq
  | bne => exact keeps_execBne
  | blt => exact keeps_execBlt
  | bge => exact keeps_execBge
  | bltu => exact keeps_execBltu
  | bgeu => exact keeps_execBgeu
  | dbnz => exact keeps_execDbnz
  | jal => exact keeps_execJal
  | j => exact keeps_execJ
  | jr => exact keeps_execJr
  | jalr => exact keeps_execJalr
  | nop => exact keeps_execNop
  | sync => exact keeps_execSync
  | wait => exact keeps_execWait
  | eret => exact keeps_execEret
  | trap => exact keeps_execTrap
  | brk => exact keeps_execBrk
  | ei => exact keeps_execEi
  | di => exact keeps_execDi
  | wcall => exact keeps_execWcall
  | wret => exact keeps_execWret
  | cinv => exact keeps_execCinv
  | cinva => exact keeps_execCinva
  | bmov => exact keeps_execBmov
  | bfil => exact keeps_execBfil
  | bcrc => exact keeps_execBcrc
  | bcmp => exact keeps_execBcmp
  | bdot => exact keeps_execBdot
  | longElement => exact keeps_execLongElement
  | icacheMissFill => exact keeps_execIcacheMissFill
  | eventEntry => exact keeps_execEventEntry
  | lockupTileReset => exact keeps_execLockupTileReset
  | tileResetRelease => exact keeps_execTileResetRelease
  | holdOverrun => exact keeps_execHoldOverrun
  | wakeTimeout => exact keeps_execWakeTimeout
  | evcCfg => exact keeps_execEvcCfg
  | clearEmerg => exact keeps_execClearEmerg
  | omtTxGo => exact keeps_execOmtTxGo
  | messageArrival => exact keeps_execMessageArrival
  | queueFull => exact keeps_execQueueFull
  | messageVisible => exact keeps_execMessageVisible
  | omtRxPop => exact keeps_execOmtRxPop
  | omtNackPop => exact keeps_execOmtNackPop
  | resend => exact keeps_execResend
  | discard => exact keeps_execDiscard
  | voteWrite => exact keeps_execVoteWrite
  | voteWriteArrival => exact keeps_execVoteWriteArrival
  | finalize => exact keeps_execFinalize
  | verdictReceive => exact keeps_execVerdictReceive
  | votePortCfg => exact keeps_execVotePortCfg
  | cfgVoteTimeout => exact keeps_execCfgVoteTimeout
  | release => exact keeps_execRelease
  | lock => exact keeps_execLock
  | goSafe => exact keeps_execGoSafe
  | ckptDue => exact keeps_execCkptDue
  | memberFaultReport => exact keeps_execMemberFaultReport
  | copyComplete => exact keeps_execCopyComplete
  | spareRelease => exact keeps_execSpareRelease
  | hostTimeout => exact keeps_execHostTimeout
  | voteTakeover => exact keeps_execVoteTakeover
  | votedFrameRead => exact keeps_execVotedFrameRead
  | bankStateReq => exact keeps_execBankStateReq
  | bankEntryDone => exact keeps_execBankEntryDone
  | bankWakeDone => exact keeps_execBankWakeDone
  | confClear => exact keeps_execConfClear
  | deepExitGroup => exact keeps_execDeepExitGroup
  | eccWriteback => exact keeps_execEccWriteback
  | vaultWipe => exact keeps_execVaultWipe
  | vaultWipeDone => exact keeps_execVaultWipeDone
  | wipe => exact keeps_execWipe
  | mramLineWrite => exact keeps_execMramLineWrite
  | dmaGo => exact keeps_execDmaGo
  | disable => exact keeps_execDisable
  | resume => exact keeps_execResume
  | clear => exact keeps_execClear
  | restart => exact keeps_execRestart
  | channelStart => exact keeps_execChannelStart
  | paceLatch => exact keeps_execPaceLatch
  | chLevel => exact keeps_execChLevel
  | listFetch => exact keeps_execListFetch
  | beatComplete => exact keeps_execBeatComplete
  | disableStopPoint => exact keeps_execDisableStopPoint
  | adcEnable => exact keeps_execAdcEnable
  | adcDisable => exact keeps_execAdcDisable
  | adcGo => exact keeps_execAdcGo
  | flush => exact keeps_execFlush
  | adcTtTrigger => exact keeps_execAdcTtTrigger
  | conversionComplete => exact keeps_execConversionComplete
  | adcFifoRead m => exact keeps_execAdcFifoRead (m := m)
  | edgeEnable => exact keeps_execEdgeEnable
  | edgeDisable => exact keeps_execEdgeDisable
  | arm => exact keeps_execArm
  | disarm => exact keeps_execDisarm
  | forceActive => exact keeps_execForceActive
  | forceInactive => exact keeps_execForceInactive
  | syncTt => exact keeps_execSyncTt
  | clrOvr => exact keeps_execClrOvr
  | edgCmp => exact keeps_execEdgCmp
  | edgCnt => exact keeps_execEdgCnt
  | edgSync => exact keeps_execEdgSync
  | compareFire => exact keeps_execCompareFire
  | dutyLoad => exact keeps_execDutyLoad
  | cycleStart => exact keeps_execCycleStart
  | pwmTransition => exact keeps_execPwmTransition
  | capture => exact keeps_execCapture
  | edgCapPop m => exact keeps_execEdgCapPop (m := m)
  | frameHeaderReceive => exact keeps_execFrameHeaderReceive
  | frameReceive => exact keeps_execFrameReceive
  | transmitSelect => exact keeps_execTransmitSelect
  | transmitDone => exact keeps_execTransmitDone
  | gateEntry => exact keeps_execGateEntry
  | fdbAgeing => exact keeps_execFdbAgeing
  | lookup => exact keeps_execLookup
  | insert => exact keeps_execInsert
  | delete => exact keeps_execDelete
  | flushDynamic => exact keeps_execFlushDynamic
  | flushPort => exact keeps_execFlushPort
  | fdbDone => exact keeps_execFdbDone
  | learnNotifyRead => exact keeps_execLearnNotifyRead
  | linkChange => exact keeps_execLinkChange
  | frerReset => exact keeps_execFrerReset
  | ttdpHelloSend => exact keeps_execTtdpHelloSend
  | ttdpTimeout => exact keeps_execTtdpTimeout
  | bootStatusSend => exact keeps_execBootStatusSend
  | txDoorbell => exact keeps_execTxDoorbell
  | rxTail => exact keeps_execRxTail
  | busEnable => exact keeps_execBusEnable
  | busDisable => exact keeps_execBusDisable
  | busStop => exact keeps_execBusStop
  | rxFifoPop => exact keeps_execRxFifoPop
  | txFifoWrite => exact keeps_execTxFifoWrite
  | canTxReq => exact keeps_execCanTxReq
  | canTxCancel => exact keeps_execCanTxCancel
  | canFrameReceive => exact keeps_execCanFrameReceive
  | canFrameEnd => exact keeps_execCanFrameEnd
  | busOffRecovery => exact keeps_execBusOffRecovery
  | mvbMasterFrame => exact keeps_execMvbMasterFrame
  | mvbSlaveReply => exact keeps_execMvbSlaveReply
  | mvbSinkReceive => exact keeps_execMvbSinkReceive
  | mvbSourceCommit => exact keeps_execMvbSourceCommit
  | mvbSinkRead => exact keeps_execMvbSinkRead
  | mvbAdminCmd => exact keeps_execMvbAdminCmd
  | mvbAdminTimeout => exact keeps_execMvbAdminTimeout
  | uartCharacter => exact keeps_execUartCharacter
  | uartIdle => exact keeps_execUartIdle
  | spiWord => exact keeps_execSpiWord
  | i2cCmd => exact keeps_execI2cCmd
  | i2cTransferDone => exact keeps_execI2cTransferDone
  | stretchTimeout => exact keeps_execStretchTimeout
  | ownerDecision => exact keeps_execOwnerDecision
  | takeover => exact keeps_execTakeover
  | safeIntervalStart => exact keeps_execSafeIntervalStart
  | gpioSet => exact keeps_execGpioSet
  | gpioClr => exact keeps_execGpioClr
  | gpioTgl => exact keeps_execGpioTgl
  | gpioDir => exact keeps_execGpioDir
  | inputChange => exact keeps_execInputChange
  | supplyMeasure => exact keeps_execSupplyMeasure
  | tamperTrip => exact keeps_execTamperTrip
  | domainRequest => exact keeps_execDomainRequest
  | domainOffDone => exact keeps_execDomainOffDone
  | domainWakeDone => exact keeps_execDomainWakeDone
  | tileReloadDone => exact keeps_execTileReloadDone
  | dozeEntry => exact keeps_execDozeEntry
  | dozeWake => exact keeps_execDozeWake
  | drizzle => exact keeps_execDrizzle
  | cellar => exact keeps_execCellar
  | cancel => exact keeps_execCancel
  | noticeEnd => exact keeps_execNoticeEnd
  | mramFlushPoint => exact keeps_execMramFlushPoint
  | domainShutdownPoint => exact keeps_execDomainShutdownPoint
  | lowPowerEntryDone => exact keeps_execLowPowerEntryDone
  | drizzleTick => exact keeps_execDrizzleTick
  | drizzleResult => exact keeps_execDrizzleResult
  | drizzleCycleEnd => exact keeps_execDrizzleCycleEnd
  | wakeTimer => exact keeps_execWakeTimer
  | wake => exact keeps_execWake
  | histClear => exact keeps_execHistClear
  | powerOnReset => exact keeps_execPowerOnReset
  | powerOnResetRelease => exact keeps_execPowerOnResetRelease
  | supwarn => exact keeps_execSupwarn
  | romStart => exact keeps_execRomStart
  | records => exact keeps_execRecords
  | slotSelect => exact keeps_execSlotSelect
  | firmware => exact keeps_execFirmware
  | persist => exact keeps_execPersist
  | inventory => exact keeps_execInventory
  | tileLoad => exact keeps_execTileLoad
  | measure => exact keeps_execMeasure
  | verdictTimeout => exact keeps_execVerdictTimeout
  | thaw => exact keeps_execThaw
  | postThawRecords => exact keeps_execPostThawRecords
  | thawGo => exact keeps_execThawGo
  | programImageKey => exact keeps_execProgramImageKey
  | installCommandKey => exact keeps_execInstallCommandKey
  | enterFactory => exact keeps_execEnterFactory
  | hostAccess => exact keeps_execHostAccess
  | hostSpiTransaction => exact keeps_execHostSpiTransaction
  | perstN => exact keeps_execPerstN
  | msiXMessage => exact keeps_execMsiXMessage
  | hostFqTxGo => exact keeps_execHostFqTxGo
  | hostFqRxLen => exact keeps_execHostFqRxLen
  | hostCmdDoorbell => exact keeps_execHostCmdDoorbell
  | commandExecute => exact keeps_execCommandExecute
  | ladder => exact keeps_execLadder
  | slotOpen => exact keeps_execSlotOpen
  | slotData => exact keeps_execSlotData
  | slotActivate => exact keeps_execSlotActivate
  | keyRevoke => exact keeps_execKeyRevoke
  | lifecycle => exact keeps_execLifecycle
  | debugUnlock => exact keeps_execDebugUnlock
  | splitOverride => exact keeps_execSplitOverride
  | verdictOverride => exact keeps_execVerdictOverride
  | edgeOverride => exact keeps_execEdgeOverride
  | gpioOverride => exact keeps_execGpioOverride
  | bootVerdict => exact keeps_execBootVerdict
  | statusQuery => exact keeps_execStatusQuery
  | recoveryWrite => exact keeps_execRecoveryWrite
  | recoveryCommit => exact keeps_execRecoveryCommit
  | reInit => exact keeps_execReInit
  | functionIdle => exact keeps_execFunctionIdle
  | deviceReset => exact keeps_execDeviceReset
  | powerCycle => exact keeps_execPowerCycle
  | squallWindowClose => exact keeps_execSquallWindowClose
  | stableRun => exact keeps_execStableRun
  | clearLog => exact keeps_execClearLog
  | wdtService => exact keeps_execWdtService
  | wdtLate => exact keeps_execWdtLate
  | wdtBackstop => exact keeps_execWdtBackstop
  | fnStall => exact keeps_execFnStall
  | undefinedInstruction => exact keeps_execUndefinedInstruction
  | announceSend => exact keeps_execAnnounceSend
  | supwarnRelease => exact keeps_execSupwarnRelease
  | perstNRelease => exact keeps_execPerstNRelease
  | loopLossOfLock => exact keeps_execLoopLossOfLock
  | mvbPortLatchExpiry => exact keeps_execMvbPortLatchExpiry
  | mvbAdminReply => exact keeps_execMvbAdminReply
  | omtTxDone => exact keeps_execOmtTxDone
  | hostFqRxData => exact keeps_execHostFqRxData
  | hostAccAddrRead => exact keeps_execHostAccAddrRead
  | debugAccess => exact keeps_execDebugAccess
  | i2cTargetRequest => exact keeps_execI2cTargetRequest

theorem keeps_step : Keeps s (step s) := by
  unfold step
  split
  · exact keeps_next inv_tick
  · exact keeps_of_inv inv_mk (keeps_exec _)

/-- Settles O60: each command and each edge answers a next state, and each function of the state that they use keeps the invariant. -/
theorem everyStepKeepsTheInvariant : Obligations.EveryStepKeepsTheInvariant := by
  refine ⟨fun s => ?_, fun s t hs ht => ?_⟩
  · obtain ⟨t, ht, -⟩ := keeps_step (s := s)
    exact ⟨t, ht⟩
  · obtain ⟨u, hu, hinv⟩ := keeps_step (s := s)
    cases hu.symm.trans ht
    exact hinv hs

end Sys2Proof.Machine
end

section
/-!
O49. Register writes by access type, latched reads and staged writes of wide pairs: what each of the commands does, said once as an
equation of its next state, and the clauses of O49 from those.
-/
namespace Sys2Proof.Machine
open Sys2Proof
variable {s : State}

/-! ### Writes by access type (R6 to R9) -/

/-- The blocks of O49 in which a write of the block's writer follows the access types and does nothing else. -/
def PlainBlock (n : Nat) : Prop := (0x20000 ≤ n ∧ n < 0x30000 ∧ n ≠ CLK_SELECT) ∨ (0xA0000 ≤ n ∧ n < 0xB0000)

theorem regWriter_of_plainBlock {m : Master} {n : Nat} (h : PlainBlock n) : regWriter m n = devWriter (ioMaster m) := by
  unfold regWriter
  rcases h with ⟨hlo, hhi, -⟩ | ⟨hlo, hhi⟩
  · have hblock : n / 0x10000 = 0x2 := by omega
    have hdev : n < 0x100000 := by omega
    simp [hblock, hdev]
  · have hblock : n / 0x10000 = 0xA := by omega
    have hdev : n < 0x100000 := by omega
    simp [hblock, hdev]

theorem ioWrite_of_plainBlock {m : Master} {n : Nat} {v : Word} (h : PlainBlock n) : (ioWrite m n v s).2 = plainWrite m n v s := by
  unfold ioWrite devWrite
  rcases h with ⟨hlo, hhi, hne⟩ | ⟨hlo, hhi⟩
  · have hblock : n / 0x10000 = 0x2 := by omega
    have hdev : n < 0x100000 := by omega
    simp [hblock, hdev, hne]
  · have hblock : n / 0x10000 = 0xA := by omega
    have hdev : n < 0x100000 := by omega
    simp [hblock, hdev]

theorem typedWrite_of_reserved {a : Nat} {v : Word} (h : regRow a = none) : typedWrite a v s = s := by
  unfold regRow at h
  unfold typedWrite
  generalize blockRows a = b at h
  obtain ⟨rows, o, lock⟩ := b
  dsimp only at h ⊢
  rw [h]

/-- The bits of row `r` at `a` that a write changes: those of type RW, and those of type RWL while LOCK is 0. -/
def writableBits (s : State) (a : Nat) (r : RegRow) : Nat :=
  if (blockRows a).2.2 != 0 && (s.reg (blockRows a).2.2).getLsbD 31 then r.rw else r.rw ||| r.rwl

/-- What register `a` of row `r` reads after a write of `v`. -/
def typedWord (s : State) (a : Nat) (v : Word) (r : RegRow) : Word :=
  let rw := BitVec.ofNat 32 (writableBits s a r)
  (((s.reg a &&& ~~~rw) ||| (v &&& rw)) &&& ~~~(v &&& BitVec.ofNat 32 r.w1c)) ||| (v &&& BitVec.ofNat 32 r.w1s)

theorem typedWrite_of_row {a : Nat} {v : Word} {r : RegRow} (h : regRow a = some r) :
    typedWrite a v s = s.setReg a (typedWord s a v r) := by
  unfold regRow at h
  unfold typedWrite typedWord writableBits
  generalize blockRows a = b at h
  obtain ⟨rows, o, lock⟩ := b
  dsimp only at h ⊢
  rw [h]

theorem getLsbD_typedWord {a : Nat} {v : Word} {r : RegRow} {i : Nat} (hi : i < 32) : (typedWord s a v r).getLsbD i =
    (((if (writableBits s a r).testBit i then v.getLsbD i else (s.reg a).getLsbD i) && !(v.getLsbD i && r.w1c.testBit i)) ||
      (v.getLsbD i && r.w1s.testBit i)) := by
  have hbit : ∀ x : Nat, (BitVec.ofNat 32 x).getLsbD i = x.testBit i := fun x => by
    rw [BitVec.getLsbD_ofNat, decide_eq_true hi, Bool.true_and]
  simp only [typedWord, BitVec.getLsbD_or, BitVec.getLsbD_and, BitVec.getLsbD_not, hbit, hi, decide_true, Bool.true_and]
  cases (writableBits s a r).testBit i <;> simp

theorem regsOnly_setReg {a : Nat} {v : Word} : RegsOnly [a] s (s.setReg a v) := by
  refine ⟨fun b hb => ?_, rfl⟩
  rw [State.reg_setReg, if_neg (by simpa using hb)]

theorem exec_registerWrite_off {m : Master} {a : BitVec 24} {v : Word} (h : coreOn s = false) :
    exec (.registerWrite m a v) s = .next s := by
  show execRegisterWrite m a v s = _
  simp [execRegisterWrite, h]

theorem exec_registerWrite_plain {m : Master} {a : BitVec 24} {v : Word} (hon : coreOn s = true) (h : PlainBlock a.toNat) :
    exec (.registerWrite m a v) s = .next (if devWriter (ioMaster m) then typedWrite a.toNat v s else s) := by
  show execRegisterWrite m a v s = _
  simp [execRegisterWrite, hon, ioWrite_of_plainBlock h, plainWrite, regWriter_of_plainBlock h]

theorem plainRegisters_act (m : Master) (a : BitVec 24) (v : Word) (s : State) :
    let n := a.toNat
    (coreOn s = true → PlainBlock n → (devWriter (ioMaster m) = false ∨ regRow n = none) →
      exec (.registerWrite m a v) s = .next s) ∧
    (∀ r : RegRow, coreOn s = true → PlainBlock n → devWriter (ioMaster m) = true → regRow n = some r →
      Completes (.registerWrite m a v) s (fun s' => RegsOnly [n] s s' ∧ s'.reg n = typedWord s n v r)) := by
  refine ⟨fun hon hplain hor => ?_, fun r hon hplain hw hrow => ?_⟩
  · rw [exec_registerWrite_plain hon hplain]
    rcases hor with hw | hrow
    · simp [hw]
    · simp [typedWrite_of_reserved hrow]
  · refine ⟨_, exec_registerWrite_plain hon hplain, ?_⟩
    rw [if_pos hw, typedWrite_of_row hrow]
    exact ⟨regsOnly_setReg, by simp⟩

/-! ### Latches and stages -/

/-- The entry of reader `q` after the entry of `r` is taken out. -/
theorem find?_filter_reader {α : Type} (l : List (Reader × α)) (q r : Reader) :
    (l.filter (·.1 != r)).find? (·.1 == q) = if q = r then none else l.find? (·.1 == q) := by
  rw [List.find?_filter]
  split
  · rename_i hq
    subst hq
    rw [List.find?_eq_none]
    simp
  · rename_i hq
    congr 1
    funext e
    by_cases he : e.1 = q
    · simp [he, hq]
    · simp [he]

/-- The entry of reader `q` after `x` is put in the place of the entry of `r`. -/
theorem find?_cons_filter_reader {α : Type} (l : List (Reader × α)) (q r : Reader) (x : α) :
    (((r, x) :: l.filter (·.1 != r)).find? (·.1 == q)).map (·.2) = if q = r then some x else (l.find? (·.1 == q)).map (·.2) := by
  by_cases hq : q = r
  · simp [hq]
  · have hr : ¬ r = q := fun e => hq e.symm
    rw [List.find?_cons_of_neg (by simpa using hr), find?_filter_reader, if_neg hq, if_neg hq]

theorem latchOf_setLatch (r : Reader) (l : Option Latch) (q : Reader) :
    latchOf (setLatch r l s) q = if q = r then l else latchOf s q := by
  cases l with
  | none =>
    show ((s.tt.latches.filter (·.1 != r)).find? (·.1 == q)).map (·.2) = _
    rw [find?_filter_reader]
    split
    · rfl
    · rfl
  | some x => exact find?_cons_filter_reader _ _ _ _

theorem stageOf_setStage (r : Reader) (x : Option Stage) (q : Reader) :
    stageOf (setStage r x s) q = if q = r then x else stageOf s q := by
  cases x with
  | none =>
    show ((s.tt.stages.filter (·.1 != r)).find? (·.1 == q)).map (·.2) = _
    rw [find?_filter_reader]
    split
    · rfl
    · rfl
  | some y => exact find?_cons_filter_reader _ _ _ _


theorem latchOf_setLatch_same (r : Reader) (l : Option Latch) : latchOf (setLatch r l s) r = l :=
  (latchOf_setLatch r l r).trans (if_pos rfl)
theorem latchOf_setLatch_other (r : Reader) (l : Option Latch) {q : Reader} (h : q ≠ r) : latchOf (setLatch r l s) q = latchOf s q :=
  (latchOf_setLatch r l q).trans (if_neg h)
theorem stageOf_setStage_same (r : Reader) (x : Option Stage) : stageOf (setStage r x s) r = x :=
  (stageOf_setStage r x r).trans (if_pos rfl)
theorem stageOf_setStage_other (r : Reader) (x : Option Stage) {q : Reader} (h : q ≠ r) : stageOf (setStage r x s) q = stageOf s q :=
  (stageOf_setStage r x q).trans (if_neg h)

/-! ### Expiry (R87, R88) -/

theorem latchExpiry_young {r : Reader} (h : ∀ l, latchOf s r = some l → l.age < 64) : latchExpiry r s = s := by
  unfold latchExpiry
  split
  · rename_i l hl
    rw [if_neg (Nat.not_le.2 (h l hl))]
  · rfl
theorem latchExpiry_old {r : Reader} {l : Latch} (hl : latchOf s r = some l) (h : 64 ≤ l.age) :
    latchExpiry r s = setLatch r none s := by
  simp [latchExpiry, hl, h]
theorem stageExpiry_young {r : Reader} (h : ∀ x, stageOf s r = some x → x.age < 64) : stageExpiry r s = s := by
  unfold stageExpiry
  split
  · rename_i x hx
    rw [if_neg (Nat.not_le.2 (h x hx))]
  · rfl
theorem stageExpiry_old {r : Reader} {x : Stage} (hx : stageOf s r = some x) (h : 64 ≤ x.age) :
    stageExpiry r s = setStage r none s := by
  simp [stageExpiry, hx, h]

theorem exec_latchExpiry_young {r : Reader} (h : ∀ l, latchOf s r = some l → l.age < 64) : exec (.latchExpiry r) s = .next s := by
  show Host.Outcome.next (inCore (latchExpiry r) s) = _
  simp [inCore, latchExpiry_young h]
theorem exec_stageExpiry_young {r : Reader} (h : ∀ x, stageOf s r = some x → x.age < 64) : exec (.stageExpiry r) s = .next s := by
  show Host.Outcome.next (inCore (stageExpiry r) s) = _
  simp [inCore, stageExpiry_young h]
theorem exec_latchExpiry_old {r : Reader} {l : Latch} (hlive : live s = true) (hl : latchOf s r = some l) (h : 64 ≤ l.age) :
    exec (.latchExpiry r) s = .next (setLatch r none s) := by
  show Host.Outcome.next (inCore (latchExpiry r) s) = _
  rw [inCore_live _ _ hlive, latchExpiry_old hl h]
theorem exec_stageExpiry_old {r : Reader} {x : Stage} (hlive : live s = true) (hx : stageOf s r = some x) (h : 64 ≤ x.age) :
    exec (.stageExpiry r) s = .next (setStage r none s) := by
  show Host.Outcome.next (inCore (stageExpiry r) s) = _
  rw [inCore_live _ _ hlive, stageExpiry_old hx h]

/-- Latches and stages expire, and nothing else changes. -/
theorem expiry_acts (s : State) (r : Reader) :
    ((∀ l, latchOf s r = some l → l.age < 64) → exec (.latchExpiry r) s = .next s) ∧
    (∀ l, live s = true → latchOf s r = some l → 64 ≤ l.age → Completes (.latchExpiry r) s (fun s' => latchOf s' r = none ∧
      (∀ q, q ≠ r → latchOf s' q = latchOf s q) ∧ (∀ q, stageOf s' q = stageOf s q) ∧ { s' with tt := s.tt } = s)) ∧
    ((∀ x, stageOf s r = some x → x.age < 64) → exec (.stageExpiry r) s = .next s) ∧
    (∀ x, live s = true → stageOf s r = some x → 64 ≤ x.age → Completes (.stageExpiry r) s (fun s' => stageOf s' r = none ∧
      (∀ q, q ≠ r → stageOf s' q = stageOf s q) ∧ (∀ q, latchOf s' q = latchOf s q) ∧ { s' with tt := s.tt } = s)) := by
  refine ⟨exec_latchExpiry_young, fun l hlive hl h => ⟨_, exec_latchExpiry_old hlive hl h, latchOf_setLatch_same _ _,
      fun _ => latchOf_setLatch_other _ _, fun _ => rfl, rfl⟩,
    exec_stageExpiry_young, fun x hlive hx h => ⟨_, exec_stageExpiry_old hlive hx h, stageOf_setStage_same _ _,
      fun _ => stageOf_setStage_other _ _, fun _ => rfl, rfl⟩⟩

/-! ### Reads of wide pairs (Table TT-4, R85 to R87) -/

/-- The half of a 64-bit value that a read of _HI or _LO answers. -/
def halfOf (hi : Bool) (n : Nat) : Word := BitVec.ofNat 32 (if hi then n / 2 ^ 32 else n)

theorem latchRead_of_other {r : Reader} {lo now : Nat} {hi : Bool}
    (h : latchOf s r = none ∨ ∃ l, latchOf s r = some l ∧ l.pair ≠ lo) :
    latchRead r lo hi now s = (halfOf hi now, true, setLatch r (some ⟨lo, now, hi, s.frac, 0⟩) s) := by
  unfold latchRead
  rcases h with h | ⟨l, h, hne⟩
  · rw [h]
    rfl
  · rw [h]
    exact if_neg (by simpa using hne)
theorem latchRead_of_held {r : Reader} {now : Nat} {hi : Bool} {l : Latch} (h : latchOf s r = some l) :
    latchRead r l.pair hi now s = (halfOf hi l.value, false, if l.hiFirst = hi then s else setLatch r none s) := by
  unfold latchRead
  rw [h]
  by_cases hhi : l.hiFirst = hi
  · simp [hhi, halfOf]
  · simp [hhi, halfOf]

/-- The pairs of O49 whose reads show the registers or TT. -/
def pairsShown : List Nat :=
  [INV_EPOCH_TT_LO, CLK_SWITCH_TT_LO, TT_NOW_LO, TT_STEP_LO, DRZ_TICK_LO, NET_GPTP_GM_LO, CMD_CTR_LO 0, CMD_CTR_LO 3]

/-- The value a read of pair `lo` captures. -/
def pairNow (s : State) (lo : Nat) : Nat := if lo = TT_NOW_LO then s.now else s.pair lo

theorem widePair_of_shown : ∀ lo ∈ pairsShown, ∀ hi : Bool, widePair (if hi then lo + 4 else lo) = some (lo, hi) := by decide +kernel

theorem shown_address : ∀ lo ∈ pairsShown, ∀ hi : Bool,
    (BitVec.ofNat 24 (if hi then lo + 4 else lo)).toNat = if hi then lo + 4 else lo := by
  decide +kernel

theorem ioView_of_shown {m : Master} : ∀ lo ∈ pairsShown, ioView m s lo = s.reg lo ∧ ioView m s (lo + 4) = s.reg (lo + 4) := by
  intro lo h
  simp only [pairsShown, List.mem_cons, List.not_mem_nil, or_false] at h
  rcases h with rfl | rfl | rfl | rfl | rfl | rfl | rfl | rfl
  all_goals exact ⟨rfl, rfl⟩

theorem shown_not_special : ∀ lo ∈ pairsShown,
    lo < 0x100000 ∧ lo ≠ NET_LEARN_LO ∧ ∀ hi : Bool, (if hi then lo + 4 else lo) ≠ TT_NOW_FRAC := by
  decide +kernel

theorem wideRead_of_shown {m : Master} {r : Reader} {lo : Nat} {hi : Bool} (h : lo ∈ pairsShown) :
    wideRead m r lo hi s = ((latchRead r lo hi (pairNow s lo) s).1, (latchRead r lo hi (pairNow s lo) s).2.2) := by
  obtain ⟨hlt, hlearn, -⟩ := shown_not_special lo h
  obtain ⟨hreg, hreg4⟩ := ioView_of_shown (s := s) (m := m) lo h
  have hnow : (if lo == TT_NOW_LO then s.now else (ioView m s lo).toNat + 2 ^ 32 * (ioView m s (lo + 4)).toNat) = pairNow s lo := by
    rw [hreg, hreg4]
    simp only [pairNow, beq_iff_eq]
    rfl
  unfold wideRead
  simp only [hlt, hlearn, decide_true, Bool.true_or, if_true, beq_iff_eq, if_false]
  rw [← hnow]
  simp only [beq_iff_eq]

theorem exec_widePairRead_shown {m : Master} {lo : Nat} {hi : Bool} (hon : coreOn s = true) (h : lo ∈ pairsShown) :
    exec (.widePairRead m (BitVec.ofNat 24 (if hi then lo + 4 else lo))) s =
      .next { (latchRead (readerOf s m) lo hi (pairNow s lo) s).2.2 with
        data := (latchRead (readerOf s m) lo hi (pairNow s lo) s).1 } := by
  show execWidePairRead m _ s = _
  obtain ⟨-, -, hfrac⟩ := shown_not_special lo h
  have hpair := widePair_of_shown lo h hi
  have hread : ioRead m (if hi then lo + 4 else lo) s = wideRead m (readerOf s m) lo hi s := by
    unfold ioRead
    simp only [hpair, beq_iff_eq, hfrac hi, if_false]
  unfold execWidePairRead
  rw [shown_address lo h hi, hread, wideRead_of_shown h, hpair]
  simp only [hon, Option.isSome_some, Bool.and_true, if_true]

theorem exec_widePairRead_none {m : Master} {a : BitVec 24} (h : coreOn s = false ∨ widePair a.toNat = none) :
    exec (.widePairRead m a) s = .next s := by
  show execWidePairRead m a s = _
  unfold execWidePairRead
  rcases h with h | h
  · simp [h]
  · simp [h]

/-- A read of a half that finds no latch of the pair captures the pair. -/
theorem widePairRead_captures {m : Master} {lo : Nat} {hi : Bool} (hon : coreOn s = true) (h : lo ∈ pairsShown)
    (hl : latchOf s (readerOf s m) = none ∨ ∃ l, latchOf s (readerOf s m) = some l ∧ l.pair ≠ lo) :
    exec (.widePairRead m (BitVec.ofNat 24 (if hi then lo + 4 else lo))) s =
      .next { setLatch (readerOf s m) (some ⟨lo, pairNow s lo, hi, s.frac, 0⟩) s with data := halfOf hi (pairNow s lo) } := by
  rw [exec_widePairRead_shown hon h, latchRead_of_other hl]

/-- A read of a half of the pair that the latch holds answers from it, and empties it where it is the other half. -/
theorem widePairRead_latched {m : Master} {hi : Bool} {l : Latch} (hon : coreOn s = true) (h : l.pair ∈ pairsShown)
    (hl : latchOf s (readerOf s m) = some l) :
    exec (.widePairRead m (BitVec.ofNat 24 (if hi then l.pair + 4 else l.pair))) s =
      .next { (if l.hiFirst = hi then s else setLatch (readerOf s m) none s) with data := halfOf hi l.value } := by
  rw [exec_widePairRead_shown hon h, latchRead_of_held hl]

/-- What a read of a wide pair leaves unchanged: all but the word answered and the latch of the reader `r`. -/
def ReadKeeps (r : Reader) (s s' : State) : Prop :=
  { s' with data := s.data, tt := s.tt } = s ∧ s'.tt.t = s.tt.t ∧ s'.tt.stages = s.tt.stages ∧
    ∀ q, q ≠ r → latchOf s' q = latchOf s q

theorem readKeeps_setLatch {r : Reader} {l : Option Latch} {w : Word} : ReadKeeps r s { setLatch r l s with data := w } :=
  ⟨rfl, rfl, rfl, fun _ => latchOf_setLatch_other (s := s) r l⟩

/-- Reads of both halves of the pairs that O49 names. -/
theorem widePairRead_acts (s : State) (m : Master) (hi : Bool) (hon : coreOn s = true) (lo : Nat) (h : lo ∈ pairsShown) :
    ((latchOf s (readerOf s m) = none ∨ ∃ l, latchOf s (readerOf s m) = some l ∧ l.pair ≠ lo) →
      Completes (.widePairRead m (BitVec.ofNat 24 (if hi then lo + 4 else lo))) s (fun s' => s'.data = halfOf hi (pairNow s lo) ∧
        latchOf s' (readerOf s m) = some ⟨lo, pairNow s lo, hi, s.frac, 0⟩ ∧ ReadKeeps (readerOf s m) s s')) ∧
    (∀ l, latchOf s (readerOf s m) = some l → l.pair = lo →
      (l.hiFirst ≠ hi → Completes (.widePairRead m (BitVec.ofNat 24 (if hi then lo + 4 else lo))) s (fun s' =>
        s'.data = halfOf hi l.value ∧ latchOf s' (readerOf s m) = none ∧ ReadKeeps (readerOf s m) s s')) ∧
      (l.hiFirst = hi → exec (.widePairRead m (BitVec.ofNat 24 (if hi then lo + 4 else lo))) s =
        .next { s with data := halfOf hi l.value })) := by
  refine ⟨fun hl => ⟨_, widePairRead_captures hon h hl, rfl,
      latchOf_setLatch_same (s := s) (readerOf s m) (some _), readKeeps_setLatch⟩,
    fun l hl hlo => ?_⟩
  subst hlo
  refine ⟨fun hne => ?_, fun heq => ?_⟩
  · refine ⟨_, widePairRead_latched hon h hl, ?_⟩
    rw [if_neg hne]
    exact ⟨rfl, latchOf_setLatch_same (s := s) (readerOf s m) none, readKeeps_setLatch⟩
  · rw [widePairRead_latched hon h hl, if_pos heq]

/-! ### Commits of wide pairs (R88) -/

/-- The _LO half that a commit of pair `lo` by reader `r` takes: the staged one, or the present one where no such stage is held. -/
def lowHalf (s : State) (r : Reader) (lo : Nat) : Nat :=
  match stageOf s r with
  | some x => if x.pair = lo then x.value.toNat else s.regN lo
  | none => s.regN lo

/-- The value that a write of `v` to the _HI half of pair `lo` commits. -/
def committed (s : State) (r : Reader) (lo : Nat) (v : Word) : Nat := lowHalf s r lo + 2 ^ 32 * v.toNat

theorem lowHalf_lt (s : State) (r : Reader) (lo : Nat) : lowHalf s r lo < 2 ^ 32 := by
  have hreg : s.regN lo < 2 ^ 32 := (s.reg lo).isLt
  unfold lowHalf
  split
  · rename_i x _
    split
    · exact x.value.isLt
    · exact hreg
  · exact hreg

theorem committed_lt (s : State) (r : Reader) (lo : Nat) (v : Word) : committed s r lo v < 2 ^ 64 := by
  have hlow := lowHalf_lt s r lo
  have hv := v.isLt
  unfold committed
  omega

theorem stageCommit_eq (r : Reader) (lo : Nat) (v : Word) : stageCommit r lo v s = (committed s r lo v, setStage r none s) := by
  unfold stageCommit committed lowHalf
  cases stageOf s r with
  | none => rfl
  | some x => simp only [beq_iff_eq]

theorem regN_setN (a n b : Nat) : (s.setN a n).regN b = if b = a then n % 2 ^ 32 else s.regN b := by
  unfold State.regN State.setN
  rw [State.reg_setReg]
  split
  · exact BitVec.toNat_ofNat _ _
  · rfl

/-- A pair reads as the 64-bit value given to it. -/
theorem pair_setPair {n : Nat} (a : Nat) (h : n < 2 ^ 64) : (s.setPair a n).pair a = n := by
  have hne : a ≠ a + 4 := by omega
  simp only [State.pair, State.setPair, regN_setN, if_neg hne, if_true]
  omega

theorem regsOnly_setPair (a n : Nat) : RegsOnly [a, a + 4] s (s.setPair a n) := by
  refine ⟨fun b hb => ?_, rfl⟩
  simp only [List.mem_cons, List.not_mem_nil, or_false, not_or] at hb
  unfold State.setPair State.setN
  rw [State.reg_setReg, if_neg hb.2, State.reg_setReg, if_neg hb.1]

/-! ### What a step of TT leaves unchanged (R82, R243) -/

/-- The two registers of TT_STEP. -/
def stepRegs : List Nat := [TT_STEP_LO, TT_STEP_HI]

/-- `s` has the write stages and the TT_STEP of `u`. -/
def StepHeld (u s : State) : Prop := s.tt.stages = u.tt.stages ∧ s.pair TT_STEP_LO = u.pair TT_STEP_LO

section
variable {u : State}

theorem stepHeld_refl : StepHeld s s := ⟨rfl, rfl⟩
theorem stepHeld_setReg {a : Nat} {v : Word} (h : StepHeld u s) (ha : a ∉ stepRegs) : StepHeld u (s.setReg a v) := by
  obtain ⟨hstages, hpair⟩ := h
  simp only [stepRegs, List.mem_cons, List.not_mem_nil, or_false, not_or] at ha
  obtain ⟨hlo, hhi⟩ := ha
  refine ⟨hstages, ?_⟩
  rw [← hpair]
  unfold State.pair State.regN
  rw [State.reg_setReg, if_neg (Ne.symm hlo), State.reg_setReg, if_neg (show TT_STEP_LO + 4 ≠ a from Ne.symm hhi)]
theorem stepHeld_set {f : Fld} {n : Nat} (h : StepHeld u s) (ha : f.addr ∉ stepRegs) : StepHeld u (s.set f n) := stepHeld_setReg h ha
theorem stepHeld_setB {f : Fld} {b : Bool} (h : StepHeld u s) (ha : f.addr ∉ stepRegs) : StepHeld u (s.setB f b) :=
  stepHeld_setReg h ha
theorem stepHeld_raise {f : Fld} (h : StepHeld u s) (ha : f.addr ∉ stepRegs) : StepHeld u (s.raise f) := stepHeld_setReg h ha
theorem stepHeld_setN {a n : Nat} (h : StepHeld u s) (ha : a ∉ stepRegs) : StepHeld u (s.setN a n) := stepHeld_setReg h ha
theorem stepHeld_modEdg {e : Nat} {f : EdgH → EdgH} (h : StepHeld u s) : StepHeld u (s.modEdg e f) := h
theorem stepHeld_modAdc {c x : Nat} {f : AdcH → AdcH} (h : StepHeld u s) : StepHeld u (s.modAdc c x f) := h
theorem stepHeld_when {b : Bool} {f : State → State} (h : StepHeld u s) (hf : ∀ s, StepHeld u s → StepHeld u (f s)) :
    StepHeld u (s.when b f) := by
  cases b
  · exact h
  · exact hf s h
theorem stepHeld_forEach {α : Type} {l : List α} {f : α → State → State} (h : StepHeld u s)
    (hf : ∀ x s, StepHeld u s → StepHeld u (f x s)) : StepHeld u (s.forEach l f) := by
  unfold State.forEach
  induction l generalizing s with
  | nil => exact h
  | cons x l ih => exact ih (hf x s h)
theorem stepHeld_ite {c : Prop} [Decidable c] {t : State} (hs : StepHeld u s) (ht : StepHeld u t) :
    StepHeld u (if c then s else t) := by
  split
  · exact hs
  · exact ht

/-- The registers of the clusters are not those of TT_STEP. -/
theorem cluster_not_stepRegs {a : Nat} (h : 0x100000 ≤ a) : a ∉ stepRegs := by
  simp only [stepRegs, TT_STEP_LO, TT_STEP_HI, List.mem_cons, List.not_mem_nil, or_false]
  omega
theorem channelStat_not_stepRegs (c k : Nat) : EDG_CH_STAT c k ∉ stepRegs :=
  cluster_not_stepRegs (by unfold EDG_CH_STAT cluBlk; omega)
theorem channelCount_not_stepRegs (c k : Nat) : EDG_CNT c k ∉ stepRegs := cluster_not_stepRegs (by unfold EDG_CNT cluBlk; omega)
theorem edgeEvents_not_stepRegs (c : Nat) : EDG_EVENTS c ∉ stepRegs := cluster_not_stepRegs (by unfold EDG_EVENTS cluBlk; omega)

theorem stepHeld_setLevel {c k : Nat} {on : Bool} {placed : Option Nat} (h : StepHeld u s) : StepHeld u (setLevel c k on placed s) :=
  stepHeld_modEdg (stepHeld_setB (stepHeld_setB h (channelStat_not_stepRegs c k)) (channelStat_not_stepRegs c k))
theorem stepHeld_adcEdgeEvent {c k kind : Nat} (h : StepHeld u s) : StepHeld u (adcEdgeEvent c k kind s) :=
  stepHeld_forEach h (fun _ _ h => stepHeld_when h (fun _ h => stepHeld_modAdc h))
theorem stepHeld_fireCompare {c k : Nat} {step : Bool} (h : StepHeld u s) : StepHeld u (fireCompare c k step s) := by
  unfold fireCompare
  extract_lets late te due s1 s2
  have h1 : StepHeld u s1 := stepHeld_setB (stepHeld_set h (channelStat_not_stepRegs c k)) (channelStat_not_stepRegs c k)
  have h2 : StepHeld u s2 := stepHeld_when h1 (fun _ h => stepHeld_when h (fun _ h => stepHeld_setLevel h))
  exact stepHeld_adcEdgeEvent (stepHeld_raise h2 (edgeEvents_not_stepRegs c))
theorem stepHeld_edgeStep {d : Int} (h : StepHeld u s) : StepHeld u (edgeStep d s) := by
  unfold edgeStep
  refine stepHeld_forEach h (fun c s1 h1 => ?_)
  refine List.foldlRecOn (motive := fun p : State × _ => StepHeld u p.1) _ _ h1 (fun p hp k _ => ?_)
  obtain ⟨s2, carry⟩ := p
  have h2 : StepHeld u s2 := hp
  dsimp -zeta only
  split
  · exact h2
  extract_lets add was cmp n s3 compares s4 next shift cut s5 s6
  have h4 : StepHeld u s4 :=
    stepHeld_when (stepHeld_setN h2 (channelCount_not_stepRegs c k)) (fun _ h => stepHeld_fireCompare h)
  have h5 : StepHeld u s5 := stepHeld_modEdg (stepHeld_when h4 (fun _ h => stepHeld_setLevel h))
  exact stepHeld_ite (stepHeld_when h5 (fun _ h => stepHeld_modEdg h)) h4
theorem stepHeld_showSlew (h : StepHeld u s) : StepHeld u (showSlew s) :=
  stepHeld_setB (stepHeld_setN h (by decide)) (by decide)
theorem stepHeld_stepTt {d : Int} (h : StepHeld u s) : StepHeld u (stepTt d s) :=
  stepHeld_raise (stepHeld_showSlew (stepHeld_edgeStep h)) (by decide)

/-- A step request that HA mode takes keeps the stages and shows the value written, be the step permitted or not. -/
theorem stepHeld_ttStep {e : Master} {amount : BitVec 64} (hw : devWriter e = true) (hlive : live s = true) (hha : s.ha 1 = true) :
    StepHeld (s.setPair TT_STEP_LO amount.toNat) (ttStep e amount s) := by
  unfold ttStep
  rw [hw, hlive, hha]
  simp only [Bool.not_true, Bool.or_false, Bool.false_eq_true, if_false]
  refine stepHeld_ite (stepHeld_raise (stepHeld_set stepHeld_refl ?_) ?_) (stepHeld_stepTt (stepHeld_set stepHeld_refl ?_))
  all_goals decide
end

/-! ### Writes of TT_STEP -/

theorem ioWrite_step {m : Master} {a : Nat} {v : Word} (h : a ∈ stepRegs) : (ioWrite m a v s).2 =
    if devWriter (ioMaster m) then wideWrite m a v (fun x => ttStep (ioMaster m) (BitVec.ofNat 64 x)) s else s := by
  simp only [stepRegs, List.mem_cons, List.not_mem_nil, or_false] at h
  rcases h with rfl | rfl
  all_goals rfl

/-- A command on one half of a writable pair is the write of that half. -/
theorem halfWrite_of_pair {m : Master} {a lo : Nat} {hi : Bool} {v : Word} (hpair : widePair a = some (lo, hi))
    (hw : wideWritable lo = true) : halfWrite m a hi v s = if coreOn s then (ioWrite m a v s).2 else s := by
  unfold halfWrite
  rw [hpair]
  simp [hw]
theorem halfWrite_of_none {m : Master} {a : Nat} {hi : Bool} {v : Word} (h : widePair a = none) : halfWrite m a hi v s = s := by
  unfold halfWrite
  rw [h]
theorem wideWrite_lo {m : Master} {a lo : Nat} {v : Word} {commit : Nat → State → State} (h : widePair a = some (lo, false)) :
    wideWrite m a v commit s = setStage (readerOf s m) (some ⟨lo, v, 0⟩) s := by
  unfold wideWrite
  rw [h]
  rfl
theorem wideWrite_hi {m : Master} {a lo : Nat} {v : Word} {commit : Nat → State → State} (h : widePair a = some (lo, true)) :
    wideWrite m a v commit s = commit (committed s (readerOf s m) lo v) (setStage (readerOf s m) none s) := by
  unfold wideWrite
  rw [h]
  dsimp only
  rw [stageCommit_eq]

theorem stepLo_pair : widePair TT_STEP_LO = some (TT_STEP_LO, false) := by decide +kernel
theorem stepHi_pair : widePair TT_STEP_HI = some (TT_STEP_LO, true) := by decide +kernel

theorem exec_writeStage_stepLo {m : Master} {v : Word} : exec (.writeStage m (BitVec.ofNat 24 TT_STEP_LO) v) s =
    .next (if coreOn s && devWriter (ioMaster m) then setStage (readerOf s m) (some ⟨TT_STEP_LO, v, 0⟩) s else s) := by
  show Host.Outcome.next (halfWrite m TT_STEP_LO false v s) = _
  rw [halfWrite_of_pair stepLo_pair rfl, ioWrite_step (by decide), wideWrite_lo stepLo_pair]
  cases coreOn s <;> rfl
theorem exec_widePairCommit_stepHi {m : Master} {v : Word} : exec (.widePairCommit m (BitVec.ofNat 24 TT_STEP_HI) v) s =
    .next (if coreOn s && devWriter (ioMaster m) then
      ttStep (ioMaster m) (BitVec.ofNat 64 (committed s (readerOf s m) TT_STEP_LO v)) (setStage (readerOf s m) none s) else s) := by
  show Host.Outcome.next (halfWrite m TT_STEP_HI true v s) = _
  rw [halfWrite_of_pair stepHi_pair rfl, ioWrite_step (by decide), wideWrite_hi stepHi_pair]
  cases coreOn s <;> rfl

theorem live_of_coreOn (h : coreOn s = true) : live s = true := (Bool.and_eq_true_iff.1 h).2

/-- What a staged write does: it fills the stage of reader `r`, and changes nothing else. -/
def Stages (r : Reader) (lo : Nat) (v : Word) (s s' : State) : Prop :=
  stageOf s' r = some ⟨lo, v, 0⟩ ∧ (∀ q, q ≠ r → stageOf s' q = stageOf s q) ∧
    s'.tt.t = s.tt.t ∧ s'.tt.latches = s.tt.latches ∧ { s' with tt := s.tt } = s
/-- What a commit does: it empties the stage of reader `r` alone, and the pair reads as both halves. -/
def Commits (r : Reader) (lo : Nat) (v : Word) (s s' : State) : Prop :=
  stageOf s' r = none ∧ (∀ q, q ≠ r → stageOf s' q = stageOf s q) ∧ s'.pair lo = committed s r lo v

theorem stages_setStage {r : Reader} {lo : Nat} {v : Word} : Stages r lo v s (setStage r (some ⟨lo, v, 0⟩) s) :=
  ⟨stageOf_setStage_same _ _, fun _ => stageOf_setStage_other _ _, rfl, rfl, rfl⟩

/-- Two states with the same stages hold the same for each reader. -/
theorem stageOf_congr {t : State} (h : t.tt.stages = s.tt.stages) (q : Reader) : stageOf t q = stageOf s q := by
  unfold stageOf
  rw [h]

/-- A step request in HA mode commits both halves (R88). -/
theorem commits_ttStep {e : Master} {r : Reader} {v : Word} (hw : devWriter e = true) (hlive : live s = true) (hha : s.ha 1 = true) :
    Commits r TT_STEP_LO v s (ttStep e (BitVec.ofNat 64 (committed s r TT_STEP_LO v)) (setStage r none s)) := by
  obtain ⟨hstages, hpair⟩ := stepHeld_ttStep (s := setStage r none s)
    (amount := BitVec.ofNat 64 (committed s r TT_STEP_LO v)) hw hlive hha
  have hst := stageOf_congr (s := setStage r none s) hstages
  refine ⟨(hst r).trans (stageOf_setStage_same _ _), fun q hq => (hst q).trans (stageOf_setStage_other _ _ hq), hpair.trans ?_⟩
  rw [BitVec.toNat_ofNat, Nat.mod_eq_of_lt (committed_lt _ _ _ _)]
  exact pair_setPair _ (committed_lt _ _ _ _)

/-- In HW mode the value written is ignored (R84). -/
theorem ttStep_hw {e : Master} {amount : BitVec 64} (hw : devWriter e = true) (hlive : live s = true) (hha : s.ha 1 = false) :
    ttStep e amount s = s.set TT_STEP_STATUS.result 2 := by
  unfold ttStep
  rw [hw, hlive, hha]
  rfl

/-- The stage and the commit of TT_STEP. -/
theorem stepWrites_act (s : State) (m : Master) (v : Word) (hon : coreOn s = true) (hw : devWriter (ioMaster m) = true) :
    Completes (.writeStage m (BitVec.ofNat 24 TT_STEP_LO) v) s (Stages (readerOf s m) TT_STEP_LO v s) ∧
    (s.ha 1 = true → Completes (.widePairCommit m (BitVec.ofNat 24 TT_STEP_HI) v) s (Commits (readerOf s m) TT_STEP_LO v s)) ∧
    (s.ha 1 = false → Completes (.widePairCommit m (BitVec.ofNat 24 TT_STEP_HI) v) s (fun s' => stageOf s' (readerOf s m) = none ∧
      (∀ q, q ≠ readerOf s m → stageOf s' q = stageOf s q) ∧ s'.pair TT_STEP_LO = s.pair TT_STEP_LO ∧ s'.tt.t = s.tt.t)) := by
  have hlive := live_of_coreOn hon
  refine ⟨⟨_, exec_writeStage_stepLo, ?_⟩, fun hha => ⟨_, exec_widePairCommit_stepHi, ?_⟩,
    fun hha => ⟨_, exec_widePairCommit_stepHi, ?_⟩⟩
  · rw [hon, hw]
    exact stages_setStage
  · rw [hon, hw]
    exact commits_ttStep hw hlive hha
  · rw [hon, hw, Bool.and_true, if_pos rfl, ttStep_hw (s := setStage (readerOf s m) none s) hw hlive hha]
    obtain ⟨-, hpair⟩ := stepHeld_set (u := s) (f := TT_STEP_STATUS.result) (n := 2) stepHeld_refl (by decide)
    exact ⟨stageOf_setStage_same (s := s) (readerOf s m) none, fun _ => stageOf_setStage_other (s := s) (readerOf s m) none,
      hpair, rfl⟩

theorem stepWrites_refused (s : State) (m : Master) (v : Word) (h : coreOn s = false ∨ devWriter (ioMaster m) = false) :
    exec (.writeStage m (BitVec.ofNat 24 TT_STEP_LO) v) s = .next s ∧
    exec (.widePairCommit m (BitVec.ofNat 24 TT_STEP_HI) v) s = .next s := by
  have hno : (coreOn s && devWriter (ioMaster m)) = false := by
    rcases h with h | h
    · rw [h, Bool.false_and]
    · rw [h, Bool.and_false]
  rw [exec_writeStage_stepLo, exec_widePairCommit_stepHi, hno]
  exact ⟨rfl, rfl⟩

/-! ### Writes of a channel's CH_START_TT -/

theorem channel_pair : ∀ d : Fin 144, widePair (chBase d + 0x20) = some (chBase d + 0x20, false) ∧
    widePair (chBase d + 0x24) = some (chBase d + 0x20, true) ∧ wideWritable (chBase d + 0x20) = true ∧
    ∀ o ∈ [0x20, 0x24], (BitVec.ofNat 24 (chBase d + o)).toNat = chBase d + o := by
  decide +kernel

/-- Where the registers of a tile engine's channel lie. -/
theorem tileChannel_address : ∀ d : Fin 144, d.val < 96 → ∀ o ∈ [0x20, 0x24], let a := chBase d + o
    let t := d.val / 4
    0x100000 ≤ a ∧ a < 0x700000 ∧ 0x6000 ≤ a % 0x10000 ∧ tileBlock a = some (t, a % 0x10000) ∧ a ≠ EVC_SW_SET t ∧
      a ≠ OMT_EVENTS t ∧ a ≠ OMT_EVENT_EN t ∧ tab (a % 0x10000) 0x8100 0x80 4 = some (d.val % 4, o) := by
  decide +kernel

/-- Where the registers of a cluster engine's channel lie. -/
theorem clusterChannel_address : ∀ d : Fin 144, 96 ≤ d.val → ∀ o ∈ [0x20, 0x24], let a := chBase d + o
    0x100000 ≤ a ∧ a < 0x700000 ∧ a % 0x100000 < 0x20000 ∧ tileBlock a = none ∧ a / 0x100000 - 1 = (d.val - 96) / 8 ∧
      tab (a % 0x100000) 0x10100 0x80 8 = some ((d.val - 96) % 8, o) := by
  decide +kernel

theorem ioWrite_channel {m : Master} {d : Fin 144} {o : Nat} {v : Word} (ho : o ∈ [0x20, 0x24]) (hdom : domOn s (chDomain d) = true) :
    (ioWrite m (chBase d + o) v s).2 = chanWrite m d o v s := by
  by_cases hd : d.val < 96
  · obtain ⟨hlo, hhi, hpage, hblock, hsw, hev, hen, htab⟩ := tileChannel_address d hd o ho
    have hdom' : domOn s (domTile (d.val / 4)) = true := by rwa [chDomain, if_pos hd] at hdom
    have hd4 : 4 * (d.val / 4) + d.val % 4 = d.val := by omega
    generalize chBase d + o = a at *
    have h1 : ¬ a < 0x100000 := by omega
    have h2 : ¬ a % 0x10000 < 0x2000 := by omega
    have h3 : ¬ a % 0x10000 < 0x6000 := by omega
    simp [ioWrite, tileWrite, h1, h2, h3, hhi, hblock, hdom', hsw, hev, hen, htab, hd4]
  · obtain ⟨hlo, hhi, hpage, hblock, hc, htab⟩ := clusterChannel_address d (by omega) o ho
    have hdom' : domOn s (domCluster ((d.val - 96) / 8)) = true := by rwa [chDomain, if_neg hd] at hdom
    have hd8 : 96 + 8 * ((d.val - 96) / 8) + (d.val - 96) % 8 = d.val := by omega
    generalize chBase d + o = a at *
    have h1 : ¬ a < 0x100000 := by omega
    simp [ioWrite, clusterWrite, h1, hhi, hpage, hblock, hc, hdom', htab, hd8]

theorem chanWrite_startLo {m : Master} {d : Nat} {v : Word} (h : engineWriter d m = true) :
    chanWrite m d 0x20 v s = wideWrite m (chBase d + 0x20) v (fun _ s => s) s := if_pos h
theorem chanWrite_startHi {m : Master} {d : Nat} {v : Word} (h : engineWriter d m = true) : chanWrite m d 0x24 v s =
    wideWrite m (chBase d + 0x24) v (fun x => chWrite m d (·.setPair (chBase d + 0x20) x)) s := if_pos h

theorem exec_writeStage_channel {m : Master} {d : Fin 144} {v : Word} (hon : coreOn s = true) (hdom : domOn s (chDomain d) = true)
    (hw : engineWriter d m = true) : exec (.writeStage m (BitVec.ofNat 24 (chBase d + 0x20)) v) s =
      .next (setStage (readerOf s m) (some ⟨chBase d + 0x20, v, 0⟩) s) := by
  obtain ⟨hlo, -, hwr, haddr⟩ := channel_pair d
  show Host.Outcome.next (halfWrite m (BitVec.ofNat 24 (chBase d + 0x20)).toNat false v s) = _
  rw [haddr 0x20 (by decide), halfWrite_of_pair hlo hwr, if_pos hon, ioWrite_channel (by decide) hdom]
  rw [chanWrite_startLo hw, wideWrite_lo hlo]

theorem chWrite_of_free {m : Master} {d : Nat} {f : State → State} (hdom : domOn s (chDomain d) = true) (hw : engineWriter d m = true)
    (hclaimed : s.get (CH_STATUS.claimed (chBase d)) = 0) (hfree : chFree s d = true) : chWrite m d f s = f s := by
  simp [chWrite, chAdmit, hdom, hw, State.is, hclaimed, hfree]

theorem exec_widePairCommit_channel {m : Master} {d : Fin 144} {v : Word} (hon : coreOn s = true) (hdom : domOn s (chDomain d) = true)
    (hw : engineWriter d m = true) (hclaimed : s.get (CH_STATUS.claimed (chBase d)) = 0) (hfree : chFree s d = true) :
    exec (.widePairCommit m (BitVec.ofNat 24 (chBase d + 0x24)) v) s =
      .next ((setStage (readerOf s m) none s).setPair (chBase d + 0x20) (committed s (readerOf s m) (chBase d + 0x20) v)) := by
  obtain ⟨-, hhi, hwr, haddr⟩ := channel_pair d
  show Host.Outcome.next (halfWrite m (BitVec.ofNat 24 (chBase d + 0x24)).toNat true v s) = _
  rw [haddr 0x24 (by decide), halfWrite_of_pair hhi hwr, if_pos hon, ioWrite_channel (by decide) hdom]
  rw [chanWrite_startHi hw, wideWrite_hi hhi, chWrite_of_free (s := setStage (readerOf s m) none s) hdom hw hclaimed hfree]

/-- The stage and the commit of a channel's CH_START_TT. -/
theorem channelWrites_act (s : State) (m : Master) (v : Word) (d : Fin 144) (hon : coreOn s = true)
    (hdom : domOn s (chDomain d) = true) (hw : engineWriter d m = true) :
    Completes (.writeStage m (BitVec.ofNat 24 (chBase d + 0x20)) v) s (Stages (readerOf s m) (chBase d + 0x20) v s) ∧
    (s.get (CH_STATUS.claimed (chBase d)) = 0 → chFree s d = true →
      Completes (.widePairCommit m (BitVec.ofNat 24 (chBase d + 0x24)) v) s (fun s' =>
        Commits (readerOf s m) (chBase d + 0x20) v s s' ∧ RegsOnly [chBase d + 0x20, chBase d + 0x24] s { s' with tt := s.tt })) := by
  refine ⟨⟨_, exec_writeStage_channel hon hdom hw, stages_setStage⟩, fun hclaimed hfree =>
    ⟨_, exec_widePairCommit_channel hon hdom hw hclaimed hfree, ⟨?_, ?_, ?_⟩, ?_⟩⟩
  · exact stageOf_setStage_same (s := s) (readerOf s m) none
  · exact fun _ => stageOf_setStage_other (s := s) (readerOf s m) none
  · exact pair_setPair _ (committed_lt _ _ _ _)
  · exact regsOnly_setPair (s := s) (chBase d + 0x20) _

theorem pairWrites_none (s : State) (m : Master) (v : Word) (a : BitVec 24) (h : widePair a.toNat = none) :
    exec (.writeStage m a v) s = .next s ∧ exec (.widePairCommit m a v) s = .next s :=
  ⟨congrArg Host.Outcome.next (halfWrite_of_none h), congrArg Host.Outcome.next (halfWrite_of_none h)⟩

/-- Settles O49: each clause is the lemma of its command. -/
theorem registersAndWidePairsAct : Obligations.RegistersAndWidePairsAct := by
  refine ⟨fun s m a v => ⟨exec_registerWrite_off, (plainRegisters_act m a v s).1, fun r hon hplain hw hrow => ?_⟩,
    fun s m hi hon lo h => widePairRead_acts s m hi hon lo h, fun s m a => exec_widePairRead_none, expiry_acts, fun s m v =>
      ⟨stepWrites_act s m v, stepWrites_refused s m v, channelWrites_act s m v, pairWrites_none s m v⟩⟩
  obtain ⟨t, ht, honly, hword⟩ := (plainRegisters_act m a v s).2 r hon hplain hw hrow
  exact ⟨t, ht, honly, fun i hi => hword ▸ getLsbD_typedWord hi⟩

end Sys2Proof.Machine
end

section
/-!
What reads of a field or a register give after the operations' writes, and how a command on a block of the core domain completes:
the rules that the proofs of O27, O28 and O29 share.
-/
namespace Sys2Proof.Machine
open Sys2Proof
variable {s : State}

/-! ### Reads of fields and registers after writes -/

theorem get_set_of_lt {f : Fld} {n : Nat} (hf : f.lo + f.w ≤ 32) (hn : n < 2 ^ f.w) : (s.set f n).get f = n := by
  rw [State.get_set_same s f n hf, Nat.mod_eq_of_lt hn]

theorem get_raise_same {f : Fld} (hf : f.lo + f.w ≤ 32) (hw : 0 < f.w) : (s.raise f).get f = 1 :=
  get_set_of_lt hf (Nat.one_lt_two_pow hw.ne')

theorem get_raise_other {f g : Fld} (h : g.addr ≠ f.addr) : (s.raise f).get g = s.get g := State.get_set_other s f g 1 h

theorem get_raise_apart {f g : Fld} (hf : f.lo + f.w ≤ 32) (h : g.lo + g.w ≤ f.lo ∨ f.lo + f.w ≤ g.lo) :
    (s.raise f).get g = s.get g := State.get_set_apart s f g 1 hf h

theorem get_setN_other {a n : Nat} {g : Fld} (h : g.addr ≠ a) : (s.setN a n).get g = s.get g := State.get_setReg_other s a _ g h

theorem get_resetRegs_of_not {p : Nat → Bool} {g : Fld} (h : p g.addr = false) : (s.resetRegs p).get g = s.get g := by
  unfold State.get
  rw [State.reg_resetRegs, h, if_neg Bool.false_ne_true]

theorem reg_set_other {f : Fld} {n a : Nat} (h : a ≠ f.addr) : (s.set f n).reg a = s.reg a := by rw [State.reg_set, if_neg h]

theorem reg_raise_other {f : Fld} {a : Nat} (h : a ≠ f.addr) : (s.raise f).reg a = s.reg a := reg_set_other h

theorem reg_setN_other {a n b : Nat} (h : b ≠ a) : (s.setN a n).reg b = s.reg b := by rw [State.setN, State.reg_setReg, if_neg h]

theorem reg_setN_same {a n : Nat} : (s.setN a n).reg a = BitVec.ofNat 32 n := by rw [State.setN, State.reg_setReg, if_pos rfl]

theorem reg_setReg_other {a b : Nat} {v : Word} (h : b ≠ a) : (s.setReg a v).reg b = s.reg b := by rw [State.reg_setReg, if_neg h]

theorem reg_resetRegs_of_not {p : Nat → Bool} {b : Nat} (h : p b = false) : (s.resetRegs p).reg b = s.reg b := by
  rw [State.reg_resetRegs, h, if_neg Bool.false_ne_true]

/-- A progress event writes no register. -/
@[simp] theorem progress_reg (f a : Nat) : (s.progress f).reg a = s.reg a := rfl
@[simp] theorem progress_get (f : Nat) (g : Fld) : (s.progress f).get g = s.get g := rfl

/-- A change of the inventory's state writes no register. -/
@[simp] theorem modInv_reg (f : InvH → InvH) (a : Nat) : (s.modInv f).reg a = s.reg a := rfl
theorem reg_withInv (h : InvH) (a : Nat) : State.reg { s with inv := h } a = s.reg a := rfl
@[simp] theorem modInv_get (f : InvH → InvH) (g : Fld) : (s.modInv f).get g = s.get g := rfl
@[simp] theorem modInv_inv (f : InvH → InvH) : (s.modInv f).inv = f s.inv := rfl

/-- What each step of a `forEach` keeps, the whole keeps. -/
theorem forEach_keeps {α β : Type} (read : State → β) {l : List α} {f : α → State → State}
    (hf : ∀ x ∈ l, ∀ t, read (f x t) = read t) : read (s.forEach l f) = read s :=
  List.foldlRecOn (motive := fun t => read t = read s) l _ rfl (fun t ht x hx => (hf x hx t).trans ht)

theorem when_keeps {β : Type} (read : State → β) {b : Bool} {f : State → State} (hf : read (f s) = read s) :
    read (s.when b f) = read s := by
  cases b
  · rfl
  · exact hf

theorem onlyRegs_refl {l : List Nat} : OnlyRegs l s s := fun _ _ => rfl

theorem onlyRegs_set {l : List Nat} {t : State} {f : Fld} {n : Nat} (h : OnlyRegs l s t) (hf : f.addr ∈ l) : OnlyRegs l s (t.set f n) :=
  fun a ha => (reg_set_other (ne_of_mem_of_not_mem hf ha).symm).trans (h a ha)

theorem onlyRegs_setReg {l : List Nat} {t : State} {b : Nat} {v : Word} (h : OnlyRegs l s t) (hb : b ∈ l) : OnlyRegs l s (t.setReg b v) :=
  fun a ha => (reg_setReg_other (ne_of_mem_of_not_mem hb ha).symm).trans (h a ha)

theorem regsOnly_refl {l : List Nat} : RegsOnly l s s := ⟨onlyRegs_refl, rfl⟩

theorem regsOnly_set {l : List Nat} {t : State} {f : Fld} {n : Nat} (h : RegsOnly l s t) (hf : f.addr ∈ l) : RegsOnly l s (t.set f n) :=
  ⟨onlyRegs_set h.1 hf, h.2⟩

theorem regsOnly_raise {l : List Nat} {t : State} {f : Fld} (h : RegsOnly l s t) (hf : f.addr ∈ l) : RegsOnly l s (t.raise f) :=
  regsOnly_set h hf

/-! ### Commands of the core domain -/

theorem inCore_eq_self {f : State → State} (h : f s = s) : inCore f s = s := by
  unfold inCore
  rw [h, ite_self]

/-- A command on a block of the core domain completes as `f` does, the core being clocked. -/
theorem completes_inCore {c : Instr} {f : State → State} {P : State → Prop} (hc : exec c s = .next (inCore f s)) (hlive : live s = true)
    (h : P (f s)) : Completes c s P := ⟨f s, by rw [hc, inCore_live f s hlive], h⟩

end Sys2Proof.Machine
end

section
/-!
O27. The staging commands (R35, R41, R402) and the verification of a staged inventory (R33): one lemma for each case of each command,
and the clauses of O27 from those.
-/
namespace Sys2Proof.Machine
open Sys2Proof
variable {s : State}

/-! ### The end of a staging command -/

theorem invResult_eq (code : Nat) : (invResult code s).2 = (s.set INV_STATUS.code code).setReg INV_DETAIL 0 := rfl

theorem get_code_invResult {code : Nat} (h : code < 256) : (invResult code s).2.get INV_STATUS.code = code := by
  rw [invResult_eq, State.get_setReg_other _ _ _ _ (by decide), get_set_of_lt (by decide) h]

theorem reg_invResult {code a : Nat} (ha : a ∉ [INV_STATUS, INV_DETAIL]) : (invResult code s).2.reg a = s.reg a := by
  simp only [List.mem_cons, List.not_mem_nil, or_false, not_or] at ha
  obtain ⟨hstatus, hdetail⟩ := ha
  exact (reg_setReg_other hdetail).trans (reg_set_other hstatus)

theorem get_invResult {code : Nat} {g : Fld} (hg : g.addr ∉ [INV_STATUS, INV_DETAIL]) : (invResult code s).2.get g = s.get g :=
  congrArg (bitsOf · g.lo g.w) (reg_invResult hg)

/-- A refused staging command sets its code and nothing else. -/
theorem completes_invResult {c : Instr} {code : Nat} (hc : exec c s = .next (invResult code s).2) (h : code < 256) :
    Completes c s (fun s' => s'.get INV_STATUS.code = code ∧ RegsOnly [INV_STATUS, INV_DETAIL] s s') :=
  ⟨_, hc, get_code_invResult h, fun _ => reg_invResult, rfl⟩

/-! ### Staging returns to IDLE -/

theorem stagingIdle_state : (stagingIdle s).get INV_STATE.state = 0 := get_set_of_lt (by decide) (by decide)

/-- The registers that a return to IDLE clears: INV_EPOCH_TT, INV_STAGE_VERSION and INV_STAGE_FP. -/
def stagingReg (a : Nat) : Bool := a == INV_EPOCH_TT_LO || a == INV_EPOCH_TT_HI || (INV_STAGE_VERSION ≤ a && a < INV_STATUS)

theorem reg_stagingIdle {a : Nat} (h : stagingReg a = false) (ha : a ≠ INV_STATE) : (stagingIdle s).reg a = s.reg a :=
  (reg_set_other ha).trans (reg_resetRegs_of_not h)

/-- The other fields of INV_STATE stay. -/
theorem get_stagingIdle {g : Fld} (haddr : g.addr = INV_STATE) (hlo : 4 ≤ g.lo) : (stagingIdle s).get g = s.get g :=
  (State.get_set_apart _ INV_STATE.state g 0 (by decide) (.inr hlo)).trans (get_resetRegs_of_not (by rw [haddr]; decide))

/-! ### STAGE_BEGIN -/

section
variable {persist : Bool} {total : BitVec 32} {digest : List Byte}

theorem exec_stageBegin : exec (.stageBegin persist total digest) s = .next (stageBegin persist total.toNat digest s).2 := rfl

theorem stageBegin_busy {n : Nat} (h : s.get INV_STATE.state ≠ 0) : stageBegin persist n digest s = invResult invBusy s := by
  simp [stageBegin, h]

theorem stageBegin_badFormat {n : Nat} (h : s.get INV_STATE.state = 0) (hn : n = 0 ∨ 262144 < n) :
    stageBegin persist n digest s = invResult invBadFormat s := by
  simp [stageBegin, h, hn]

theorem stageBegin_begins {n : Nat} (h : s.get INV_STATE.state = 0) (hpos : 1 ≤ n) (hmax : n ≤ 262144) :
    stageBegin persist n digest s = invResult invOk
      (((s.modInv (fun h => { h with shadow := [], total := n, digest := digest, persist := persist })).set INV_STATE.state 1).progress 8) := by
  have hne : n ≠ 0 := by omega
  have hle : ¬ 262144 < n := by omega
  simp [stageBegin, h, hne, hle]

theorem stageBegin_acts :
    (s.get INV_STATE.state ≠ 0 → Completes (.stageBegin persist total digest) s (fun s' => s'.get INV_STATUS.code = invBusy ∧
      RegsOnly [INV_STATUS, INV_DETAIL] s s')) ∧
    (s.get INV_STATE.state = 0 → total = 0 ∨ 262144 < total.toNat → Completes (.stageBegin persist total digest) s (fun s' =>
      s'.get INV_STATUS.code = invBadFormat ∧ RegsOnly [INV_STATUS, INV_DETAIL] s s')) ∧
    (s.get INV_STATE.state = 0 → 1 ≤ total.toNat → total.toNat ≤ 262144 →
      Completes (.stageBegin persist total digest) s (fun s' => s'.get INV_STATE.state = 1 ∧ s'.get INV_STATUS.code = invOk ∧
        s'.inv = { s.inv with shadow := [], total := total.toNat, digest := digest, persist := persist } ∧
        OnlyRegs [INV_STATE, INV_STATUS, INV_DETAIL] s s' ∧ { s' with io := s.io, inv := s.inv, flt := s.flt } = s)) := by
  refine ⟨fun h => ?_, fun h hn => ?_, fun h hpos hmax => ?_⟩
  · exact completes_invResult (by rw [exec_stageBegin, stageBegin_busy h]) (by decide)
  · have hn : total.toNat = 0 ∨ 262144 < total.toNat := hn.imp_left (congrArg BitVec.toNat)
    exact completes_invResult (by rw [exec_stageBegin, stageBegin_badFormat h hn]) (by decide)
  · refine ⟨_, exec_stageBegin, ?_⟩
    rw [stageBegin_begins h hpos hmax]
    refine ⟨?_, get_code_invResult (by decide), rfl, ?_, rfl⟩
    · rw [get_invResult (by decide)]
      exact get_set_of_lt (by decide) (by decide)
    · exact onlyRegs_setReg (onlyRegs_set (onlyRegs_set (f := INV_STATE.state) onlyRegs_refl (by decide)) (by decide)) (by decide)
end

/-! ### STAGE_DATA -/

section
variable {o : BitVec 32} {d : List Byte}

theorem exec_stageData : exec (.stageData o d) s = .next (stageData o.toNat d s).2 := rfl

theorem stageData_refused (h : s.get INV_STATE.state ≠ 1 ∨ o.toNat ≠ s.inv.shadow.length ∨ s.inv.total < s.inv.shadow.length + d.length) :
    exec (.stageData o d) s = .next s := by
  rw [exec_stageData]
  simp [stageData, or_assoc, h]

theorem stageData_takes (hstate : s.get INV_STATE.state = 1) (ho : o.toNat = s.inv.shadow.length)
    (hn : s.inv.shadow.length + d.length ≤ s.inv.total) :
    (stageData o.toNat d s).2 = ((s.modInv (fun h => { h with shadow := h.shadow ++ d })).progress 8).when
      (s.inv.shadow.length + d.length == s.inv.total) (·.set INV_STATE.state 2) := by
  have hlt : ¬ s.inv.total < s.inv.shadow.length + d.length := by omega
  simp [stageData, hstate, ho, hlt]
  rfl

theorem stageData_acts (hstate : s.get INV_STATE.state = 1) (ho : o.toNat = s.inv.shadow.length)
    (hn : s.inv.shadow.length + d.length ≤ s.inv.total) : Completes (.stageData o d) s (fun s' =>
      s'.inv = { s.inv with shadow := s.inv.shadow ++ d } ∧
      s'.get INV_STATE.state = (if s.inv.shadow.length + d.length = s.inv.total then 2 else 1) ∧
      RegsOnly [INV_STATE] s { s' with inv := s.inv, flt := s.flt }) := by
  refine ⟨_, exec_stageData, ?_⟩
  rw [stageData_takes hstate ho hn]
  by_cases hlast : s.inv.shadow.length + d.length = s.inv.total
  · rw [beq_iff_eq.2 hlast, State.when_true, if_pos hlast]
    exact ⟨rfl, get_set_of_lt (by decide) (by decide),
      onlyRegs_set (f := INV_STATE.state) (n := 2) onlyRegs_refl (by decide), rfl⟩
  · rw [beq_eq_false_iff_ne.2 hlast, State.when_false, if_neg hlast]
    exact ⟨rfl, hstate, onlyRegs_refl, rfl⟩
end

/-! ### INVENTORY_VERIFY_DONE -/

theorem exec_inventoryVerifyDone : exec .inventoryVerifyDone s = .next (verifyDone s) := rfl

theorem verifyDone_other (h : s.get INV_STATE.state ≠ 2) : verifyDone s = s := by simp [verifyDone, h]

theorem verifyDone_bad (h : s.get INV_STATE.state = 2) (hbad : (verifyStaged s).1 ≠ 0) : verifyDone s =
    ((((stagingIdle s).raise INV_EVENTS.load_failed).set INV_STATUS.code (verifyStaged s).1).set INV_DETAIL.section
      (verifyStaged s).2.1).set INV_DETAIL.record (verifyStaged s).2.2 := by
  simp [verifyDone, h, hbad]

theorem verifyDone_good (h : s.get INV_STATE.state = 2) (hgood : (verifyStaged s).1 = 0) : verifyDone s =
    (((invResult invOk ((s.setN INV_STAGE_VERSION (invVersionOf s.inv.shadow)).forEach (List.range 3)
      (fun w => (·.setN (INV_STAGE_FP w) (u32 (fingerprint s.inv.shadow) (4 * w)))))).2.set INV_STATE.state 3).raise
        INV_EVENTS.staged).progress 8 := by
  simp [verifyDone, h, hgood]

theorem verifyStaged_digest (h : Config.sha384 s.inv.shadow ≠ s.inv.digest) : (verifyStaged s).1 = invBadFormat := by
  simp [verifyStaged, h]

/-- A staged inventory that fails is dropped, and its code shown. -/
theorem completes_verify_bad (h : s.get INV_STATE.state = 2) (hbad : (verifyStaged s).1 ≠ 0) :
    Completes .inventoryVerifyDone s (fun s' => (s'.get INV_STATE.state = 0 ∧ s'.get INV_EVENTS.load_failed = 1 ∧
      s'.inv.shadow = [] ∧ s'.inv.active = s.inv.active ∧ s'.reg INV_EPOCH = s.reg INV_EPOCH) ∧
      s'.get INV_STATUS.code = (verifyStaged s).1 % 256) := by
  refine ⟨_, exec_inventoryVerifyDone, ?_⟩
  rw [verifyDone_bad h hbad]
  refine ⟨⟨?_, ?_, rfl, rfl, ?_⟩, ?_⟩
  · simp (disch := decide) only [State.get_set_other, get_raise_other]
    exact stagingIdle_state
  · simp (disch := decide) only [State.get_set_other, get_raise_same]
  · simp (disch := decide) only [reg_set_other, reg_raise_other, reg_stagingIdle]
  · simp (disch := decide) only [State.get_set_other]
    exact State.get_set_same _ _ _ (by decide)

theorem reg_showStage {n : Nat} {x : Nat → Nat} : ((s.setN INV_STAGE_VERSION n).forEach (List.range 3)
    (fun w => (·.setN (INV_STAGE_FP w) (x w)))).reg INV_STAGE_VERSION = BitVec.ofNat 32 n := by
  rw [forEach_keeps (·.reg INV_STAGE_VERSION) fun w _ t => reg_setN_other (by unfold INV_STAGE_FP INV_STAGE_VERSION; omega)]
  exact reg_setN_same

/-- A staged inventory that passes is shown as staged. -/
theorem completes_verify_good (h : s.get INV_STATE.state = 2) (hgood : (verifyStaged s).1 = 0) :
    Completes .inventoryVerifyDone s (fun s' => s'.get INV_STATE.state = 3 ∧ s'.get INV_EVENTS.staged = 1 ∧
      s'.regN INV_STAGE_VERSION = invVersionOf s.inv.shadow % 2 ^ 32 ∧ s'.inv = s.inv) := by
  refine ⟨_, exec_inventoryVerifyDone, ?_⟩
  rw [verifyDone_good h hgood]
  refine ⟨?_, ?_, ?_, ?_⟩
  · rw [progress_get, get_raise_other (by decide)]
    exact get_set_of_lt (by decide) (by decide)
  · rw [progress_get]
    exact get_raise_same (by decide) (by decide)
  · rw [State.regN, progress_reg, reg_raise_other (by decide), reg_set_other (by decide), reg_invResult (by decide), reg_showStage]
    exact BitVec.toNat_ofNat _ _
  · rfl

/-! ### STAGE_ARM -/

section
variable {e : BitVec 32} {t : BitVec 64}

theorem exec_stageArm : exec (.stageArm e t) s = .next (stageArm e.toNat t.toNat s).2 := rfl

theorem armCode_eq (n i : Nat) : armCode n i s = if i < s.now + 20000000 then invEpochTooSoon
    else if i % 10000000 ≠ 0 ∨ s.now + 3600000000000 < i then invEpochMisaligned
    else if n ≤ s.regN INV_EPOCH then invEpochNumber else invOk := by
  simp only [armCode, Bool.or_eq_true, bne_iff_ne, decide_eq_true_eq]

theorem stageArm_unstaged {n i : Nat} (h : s.get INV_STATE.state < 3) : stageArm n i s = invResult invNothingStaged s := by
  simp [stageArm, h]

theorem stageArm_busy {n i : Nat} (h : 3 < s.get INV_STATE.state) : stageArm n i s = invResult invBusy s := by
  have hlt : ¬ s.get INV_STATE.state < 3 := by omega
  have hne : s.get INV_STATE.state ≠ 3 := by omega
  simp [stageArm, hlt, hne]

theorem stageArm_refused {n i : Nat} (h : s.get INV_STATE.state = 3) (hcode : armCode n i s ≠ 0) :
    stageArm n i s = invResult (armCode n i s) s := by
  simp [stageArm, h, hcode]

theorem stageArm_arms {n i : Nat} (h : s.get INV_STATE.state = 3) (hcode : armCode n i s = 0) :
    stageArm n i s = invResult invOk
      ((((s.modInv (fun h => { h with armedEpoch := n })).setPair INV_EPOCH_TT_LO i).set INV_STATE.state 4).progress 8) := by
  simp [stageArm, h, hcode]

/-- An arm command in STAGED that fails ends with the code of the first condition that fails. -/
theorem completes_stageArm_refused {code : Nat} (h : s.get INV_STATE.state = 3) (hcode : armCode e.toNat t.toNat s = code)
    (hne : code ≠ 0) (hlt : code < 256) :
    Completes (.stageArm e t) s (fun s' => s'.get INV_STATUS.code = code ∧ RegsOnly [INV_STATUS, INV_DETAIL] s s') := by
  subst hcode
  exact completes_invResult (by rw [exec_stageArm, stageArm_refused h hne]) hlt

theorem completes_stageArm_arms (h : s.get INV_STATE.state = 3) (hcode : armCode e.toNat t.toNat s = 0) :
    Completes (.stageArm e t) s (fun s' => s'.get INV_STATE.state = 4 ∧ s'.pair INV_EPOCH_TT_LO = t.toNat ∧
      s'.inv = { s.inv with armedEpoch := e.toNat } ∧ s'.get INV_STATUS.code = invOk) := by
  refine ⟨_, exec_stageArm, ?_⟩
  rw [stageArm_arms h hcode]
  refine ⟨?_, ?_, rfl, get_code_invResult (by decide)⟩
  · rw [get_invResult (by decide)]
    exact get_set_of_lt (by decide) (by decide)
  · refine Eq.trans ?_ (pair_setPair (s := s) INV_EPOCH_TT_LO t.isLt)
    have hreg : ∀ a, a ∉ [INV_STATE, INV_STATUS, INV_DETAIL] → (invResult invOk ((((s.modInv (fun h =>
        { h with armedEpoch := e.toNat })).setPair INV_EPOCH_TT_LO t.toNat).set INV_STATE.state 4).progress 8)).2.reg a =
        (s.setPair INV_EPOCH_TT_LO t.toNat).reg a := fun a ha => by
      simp only [List.mem_cons, List.not_mem_nil, or_false, not_or] at ha
      exact (reg_invResult (by simp [ha])).trans (reg_set_other ha.1)
    unfold State.pair State.regN
    rw [hreg _ (by decide), hreg _ (by decide)]

/-- Table INV-15: the codes of an arm command in STAGED, in the order of the model's choice. -/
theorem stageArm_acts (s : State) (e : BitVec 32) (t : BitVec 64) :
    let answers : Nat → Prop := fun code => Completes (.stageArm e t) s (fun s' => s'.get INV_STATUS.code = code ∧
      RegsOnly [INV_STATUS, INV_DETAIL] s s')
    let soon := t.toNat < s.now + 20000000
    let off := t.toNat % 10000000 ≠ 0 ∨ s.now + 3600000000000 < t.toNat
    let old := e.toNat ≤ s.regN INV_EPOCH
    (s.get INV_STATE.state < 3 → answers invNothingStaged) ∧
    (3 < s.get INV_STATE.state → answers invBusy) ∧
    (s.get INV_STATE.state = 3 → soon → answers invEpochTooSoon) ∧
    (s.get INV_STATE.state = 3 → ¬ soon → off → answers invEpochMisaligned) ∧
    (s.get INV_STATE.state = 3 → ¬ soon → ¬ off → old → answers invEpochNumber) ∧
    (s.get INV_STATE.state = 3 → ¬ soon → ¬ off → ¬ old → Completes (.stageArm e t) s (fun s' => s'.get INV_STATE.state = 4 ∧
      s'.pair INV_EPOCH_TT_LO = t.toNat ∧ s'.inv = { s.inv with armedEpoch := e.toNat } ∧ s'.get INV_STATUS.code = invOk)) := by
  intro answers soon off old
  refine ⟨fun h => ?_, fun h => ?_, fun h hsoon => ?_, fun h hsoon hoff => ?_, fun h hsoon hoff hold => ?_, fun h hsoon hoff hold => ?_⟩
  · exact completes_invResult (by rw [exec_stageArm, stageArm_unstaged h]) (by decide)
  · exact completes_invResult (by rw [exec_stageArm, stageArm_busy h]) (by decide)
  · exact completes_stageArm_refused h (by rw [armCode_eq, if_pos hsoon]) (by decide) (by decide)
  · exact completes_stageArm_refused h (by rw [armCode_eq, if_neg hsoon, if_pos hoff]) (by decide) (by decide)
  · exact completes_stageArm_refused h (by rw [armCode_eq, if_neg hsoon, if_neg hoff, if_pos hold]) (by decide) (by decide)
  · exact completes_stageArm_arms h (by rw [armCode_eq, if_neg hsoon, if_neg hoff, if_neg hold]; rfl)
end

/-! ### STAGE_CANCEL and REVERT -/

theorem exec_stageCancel : exec .stageCancel s = .next (stageCancel s).2 := rfl

theorem stageCancel_unstaged (h : s.get INV_STATE.state < 3) : stageCancel s = invResult invNothingStaged s := by
  simp [stageCancel, h]

theorem stageCancel_busy (h : 4 < s.get INV_STATE.state) : stageCancel s = invResult invBusy s := by
  have hlt : ¬ s.get INV_STATE.state < 3 := by omega
  simp [stageCancel, hlt, h]

theorem stageCancel_drops (h : s.get INV_STATE.state = 3 ∨ s.get INV_STATE.state = 4) :
    stageCancel s = invResult invOk (stagingIdle s) := by
  have hlt : ¬ s.get INV_STATE.state < 3 := by omega
  have hle : ¬ 4 < s.get INV_STATE.state := by omega
  simp [stageCancel, hlt, hle]

theorem completes_stageCancel_drops (h : s.get INV_STATE.state = 3 ∨ s.get INV_STATE.state = 4) :
    Completes .stageCancel s (fun s' => s'.get INV_STATE.state = 0 ∧ s'.inv.shadow = [] ∧ s'.get INV_STATUS.code = invOk ∧
      s'.inv.active = s.inv.active) := by
  refine ⟨_, exec_stageCancel, ?_⟩
  rw [stageCancel_drops h]
  refine ⟨?_, rfl, get_code_invResult (by decide), rfl⟩
  rw [get_invResult (by decide)]
  exact stagingIdle_state

theorem exec_revert : exec .revert s = .next (revertCommand s).2 := rfl

theorem haEpoch_eq_false (h : s.get (HOST_FN_STAT.mode 8) = 0) : haEpoch s = false := by simp [haEpoch, State.is, h]

theorem revertCommand_refused (h : s.get INV_STATE.state ≠ 5 ∨ s.get (HOST_FN_STAT.mode 8) = 0 ∨ revertInstant s ≤ s.now) :
    revertCommand s = invResult invBusy s := by
  refine if_neg fun htaken => ?_
  simp only [Bool.and_eq_true, beq_iff_eq, decide_eq_true_eq] at htaken
  obtain ⟨⟨hstate, hha⟩, hbefore⟩ := htaken
  rcases h with h | h | h
  · exact h hstate
  · simp [haEpoch_eq_false h] at hha
  · omega

theorem completes_revert_taken (hstate : s.get INV_STATE.state = 5) (hha : s.get (HOST_FN_STAT.mode 8) = 1)
    (hbefore : s.now < revertInstant s) : Completes .revert s (fun s' => s'.get INV_STATE.state = 6 ∧ s'.inv.revertAsked = true ∧
      s'.get INV_STATUS.code = invOk) := by
  have hif : revertCommand s = invResult invOk ((s.modInv (fun h => { h with revertAsked := true })).set INV_STATE.state 6) :=
    if_pos (by simp [hstate, haEpoch, State.is, hha, hbefore])
  refine ⟨_, exec_revert, ?_⟩
  rw [hif]
  refine ⟨?_, rfl, get_code_invResult (by decide)⟩
  rw [get_invResult (by decide)]
  exact get_set_of_lt (by decide) (by decide)

/-- Settles O27: each clause is the lemma of its command's case. -/
theorem stagingCommandsTakeEffect : Obligations.StagingCommandsTakeEffect := by
  refine ⟨fun s persist total digest => stageBegin_acts, fun s o d => ⟨stageData_acts, stageData_refused⟩, fun s => ⟨fun h hne => ?_,
    fun h hbad => ?_, completes_verify_good, fun h => congrArg Host.Outcome.next (verifyDone_other h)⟩, stageArm_acts, fun s =>
      ⟨fun h => ?_, fun h => ?_, completes_stageCancel_drops, completes_revert_taken, fun h => ?_⟩⟩
  · have hcode := verifyStaged_digest hne
    obtain ⟨t, ht, hdropped, hshown⟩ := completes_verify_bad h (by rw [hcode]; decide)
    exact ⟨t, ht, hdropped, by rw [hshown, hcode]; rfl⟩
  · obtain ⟨t, ht, hdropped, -⟩ := completes_verify_bad h hbad
    exact ⟨t, ht, hdropped⟩
  · exact completes_invResult (by rw [exec_stageCancel, stageCancel_unstaged h]) (by decide)
  · exact completes_invResult (by rw [exec_stageCancel, stageCancel_busy h]) (by decide)
  · exact completes_invResult (by rw [exec_revert, revertCommand_refused h]) (by decide)

end Sys2Proof.Machine
end

section
/-!
What the other blocks leave of the inventory: the functions that an epoch tick, a revert or a beacon calls in them write no register of
the block INV and change none of the Storekeeper's inventory state. One lemma `invHeld_f` for each function `f`, in the order of the
model's files.
-/
namespace Sys2Proof.Machine
open Sys2Proof
variable {s u : State}

/-- The registers of the block INV (Table MEM-2). -/
abbrev InvBlock (a : Nat) : Prop := 0xA0000 ≤ a ∧ a < 0xA1000

/-- `s` has the inventory state and the INV registers of `u`. -/
def InvHeld (u s : State) : Prop := s.inv = u.inv ∧ ∀ a, InvBlock a → s.reg a = u.reg a

theorem InvHeld.inv_eq (h : InvHeld u s) : s.inv = u.inv := h.1
theorem InvHeld.reg_eq (h : InvHeld u s) {a : Nat} (ha : InvBlock a) : s.reg a = u.reg a := h.2 a ha
theorem InvHeld.get_eq (h : InvHeld u s) {g : Fld} (hg : InvBlock g.addr) : s.get g = u.get g :=
  congrArg (bitsOf · g.lo g.w) (h.reg_eq hg)

/-! ### Addresses outside the block -/

theorem not_invBlock_of_lt {a : Nat} (h : a < 0xA0000) : ¬ InvBlock a := by omega
theorem not_invBlock_of_le {a : Nat} (h : 0xA1000 ≤ a) : ¬ InvBlock a := by omega
theorem edgVoted_not_invBlock {c : Nat} : ¬ InvBlock (EDG_VOTED c) := not_invBlock_of_le (by unfold EDG_VOTED cluBlk; omega)
theorem edgStatus_not_invBlock {c : Nat} : ¬ InvBlock (EDG_STATUS c) := not_invBlock_of_le (by unfold EDG_STATUS cluBlk; omega)
theorem edgChStat_not_invBlock {c k : Nat} : ¬ InvBlock (EDG_CH_STAT c k) := not_invBlock_of_le (by unfold EDG_CH_STAT cluBlk; omega)
theorem cdmaStatus_not_invBlock {c : Nat} : ¬ InvBlock (CDMA_STATUS c) := not_invBlock_of_le (by unfold CDMA_STATUS cluBlk; omega)
theorem cdmaEvents_not_invBlock {c : Nat} : ¬ InvBlock (CDMA_EVENTS c) := not_invBlock_of_le (by unfold CDMA_EVENTS cluBlk; omega)
theorem voteEvents_not_invBlock {c : Nat} : ¬ InvBlock (VOTE_EVENTS c) := not_invBlock_of_le (by unfold VOTE_EVENTS cluBlk; omega)
theorem chBase_not_invBlock {d o : Nat} : ¬ InvBlock (chBase d + o) := by
  refine not_invBlock_of_le ?_
  unfold chBase tdmaCh cdmaCh tileBlk cluBlk
  split <;> omega
theorem tdmaEvents_not_invBlock {t : Nat} : ¬ InvBlock (TDMA_EVENTS t) := not_invBlock_of_le (by unfold TDMA_EVENTS tileBlk; omega)
theorem role_not_invBlock {r : Nat} : ¬ InvBlock (OMT_ROLE r) := not_invBlock_of_le (by unfold OMT_ROLE; omega)
theorem portStatus_not_invBlock {p : Nat} : ¬ InvBlock (PORT_STATUS p) := not_invBlock_of_le (by unfold PORT_STATUS; omega)
theorem fnStat_not_invBlock {f : Nat} (h : f < 11) : ¬ InvBlock (HOST_FN_STAT f) := not_invBlock_of_lt (by unfold HOST_FN_STAT; omega)
theorem pinOwner_not_invBlock {n : Nat} (h : n < 192) : ¬ InvBlock (PIN_OWNER n) := not_invBlock_of_lt (by unfold PIN_OWNER; omega)

/-! ### The operations and the shapes of the model's functions -/

theorem invHeld_refl : InvHeld s s := ⟨rfl, fun _ _ => rfl⟩
theorem invHeld_setReg {a : Nat} {v : Word} (h : InvHeld u s) (ha : ¬ InvBlock a) : InvHeld u (s.setReg a v) :=
  ⟨h.inv_eq, fun b hb => (reg_setReg_other fun e : b = a => ha (e ▸ hb)).trans (h.reg_eq hb)⟩
theorem invHeld_set {f : Fld} {n : Nat} (h : InvHeld u s) (ha : ¬ InvBlock f.addr) : InvHeld u (s.set f n) := invHeld_setReg h ha
theorem invHeld_setB {f : Fld} {b : Bool} (h : InvHeld u s) (ha : ¬ InvBlock f.addr) : InvHeld u (s.setB f b) := invHeld_setReg h ha
theorem invHeld_raise {f : Fld} (h : InvHeld u s) (ha : ¬ InvBlock f.addr) : InvHeld u (s.raise f) := invHeld_setReg h ha
theorem invHeld_bump {f : Fld} (h : InvHeld u s) (ha : ¬ InvBlock f.addr) : InvHeld u (s.bump f) := invHeld_setReg h ha
theorem invHeld_setN {a n : Nat} (h : InvHeld u s) (ha : ¬ InvBlock a) : InvHeld u (s.setN a n) := invHeld_setReg h ha
theorem invHeld_countReg {a : Nat} (h : InvHeld u s) (ha : ¬ InvBlock a) : InvHeld u (s.countReg a) := invHeld_setReg h ha

/-- A change of any part of the state but the register map and the inventory. -/
theorem invHeld_mk {s : State} {mem fresh pending clk tt flt edg ball fnIn tiles adc data memh omt vote pwr dbg dma turn net host bus boot}
    (h : InvHeld u s) : InvHeld u ⟨s.io, mem, fresh, pending, s.inv, clk, tt, flt, edg, ball, fnIn, tiles, adc, data, memh, omt, vote,
      pwr, dbg, dma, turn, net, host, bus, boot⟩ := h

theorem invHeld_snd {α : Type} {a : α} (h : InvHeld u s) : InvHeld u (a, s).2 := h
theorem invHeld_when {b : Bool} {f : State → State} (h : InvHeld u s) (hf : ∀ s, InvHeld u s → InvHeld u (f s)) :
    InvHeld u (s.when b f) := by
  cases b
  · exact h
  · exact hf s h
theorem invHeld_forEach {α : Type} {l : List α} {f : α → State → State} (h : InvHeld u s)
    (hf : ∀ x ∈ l, ∀ s, InvHeld u s → InvHeld u (f x s)) : InvHeld u (s.forEach l f) :=
  List.foldlRecOn (motive := InvHeld u) l _ h (fun t ht x hx => hf x hx t ht)
theorem invHeld_ite {c : Prop} [Decidable c] {t : State} (hs : InvHeld u s) (ht : InvHeld u t) : InvHeld u (if c then s else t) := by
  split
  · exact hs
  · exact ht

/-! ### Faults (R418) -/

theorem fltLog_not_invBlock {w : Nat} (hw : w ≤ 4) : ¬ InvBlock (FLT_LOG (s.get FLT_STATUS.next) w) := by
  have hlt : s.get FLT_STATUS.next < 2 ^ 6 := bitsOf_lt _ _ _
  exact not_invBlock_of_lt (by unfold FLT_LOG; omega)
theorem invHeld_fault {code source : Nat} {detail : Word} (h : InvHeld u s) : InvHeld u (s.fault code source detail) := by
  unfold State.fault
  extract_lets i full s1 s2 s3 s4 s5 s6 s7 s8
  have h1 : InvHeld u s1 := invHeld_setN h (fltLog_not_invBlock (by decide))
  have h2 : InvHeld u s2 := invHeld_setN (invHeld_setN h1 (fltLog_not_invBlock (by decide))) (fltLog_not_invBlock (w := 2) (by decide))
  have h3 : InvHeld u s3 := invHeld_setReg h2 (fltLog_not_invBlock (by decide))
  have h5 : InvHeld u s5 := invHeld_mk h3
  have h6 : InvHeld u s6 := invHeld_set h5 (by decide)
  have h7 : InvHeld u s7 := invHeld_ite (invHeld_raise (invHeld_bump h6 (by decide)) (by decide)) (invHeld_set h6 (by decide))
  have h8 : InvHeld u s8 := invHeld_raise h7 (by decide)
  exact invHeld_when (invHeld_when h8 fun _ h => invHeld_raise h (by decide)) fun _ h => invHeld_raise h (by decide)

/-! ### Balls and edge channels -/

theorem invHeld_refreshFrom {d : Option Bool} {n : Nat} (hn : n < 192) (h : InvHeld u s) : InvHeld u (refreshFrom d n s) :=
  invHeld_setB (invHeld_when h fun _ => invHeld_mk) (pinOwner_not_invBlock hn)
theorem invHeld_refreshBalls (h : InvHeld u s) : InvHeld u (refreshBalls s) :=
  invHeld_forEach h fun _ hn _ h => invHeld_when (invHeld_refreshFrom (List.mem_range.1 hn) h) fun _ => invHeld_mk
theorem invHeld_showChanSafe {c k : Nat} {b : Bool} (h : InvHeld u s) : InvHeld u (showChanSafe c k b s) :=
  invHeld_setB (invHeld_setB (invHeld_when h fun _ h => invHeld_raise h edgChStat_not_invBlock) edgChStat_not_invBlock)
    edgStatus_not_invBlock
theorem invHeld_refreshChan {c k : Nat} (h : InvHeld u s) : InvHeld u (refreshChan c k s) :=
  invHeld_ite (invHeld_showChanSafe h) (invHeld_ite h (invHeld_showChanSafe h))
theorem invHeld_refreshOut {c k : Nat} (h : InvHeld u s) : InvHeld u (refreshOut c k s) :=
  invHeld_when (invHeld_refreshChan (invHeld_setB h edgVoted_not_invBlock)) fun _ => invHeld_refreshBalls
theorem invHeld_showVoted {c k : Nat} {voted safe : Bool} (h : InvHeld u s) : InvHeld u (showVoted c k voted safe s) :=
  invHeld_forEach (invHeld_mk (invHeld_setB h edgVoted_not_invBlock)) fun _ _ _ => invHeld_refreshOut

/-! ### DMA channels -/

theorem invHeld_chTo {d st : Nat} (h : InvHeld u s) : InvHeld u (chTo d st s) := invHeld_set h chBase_not_invBlock
theorem invHeld_chRaise {d kind : Nat} (h : InvHeld u s) : InvHeld u (chRaise d kind s) := by
  unfold chRaise
  extract_lets c k
  refine invHeld_ite (invHeld_raise h tdmaEvents_not_invBlock) ?_
  split
  · exact invHeld_raise h cdmaEvents_not_invBlock
  · exact invHeld_raise h cdmaEvents_not_invBlock
  · exact invHeld_raise h cdmaEvents_not_invBlock
  · exact h
theorem invHeld_chDone {d code : Nat} (h : InvHeld u s) : InvHeld u (chDone d code s) :=
  invHeld_chRaise (invHeld_set (invHeld_chTo h) chBase_not_invBlock)
theorem invHeld_chDisable {d : Nat} {drain : Bool} {inflight : Nat} (h : InvHeld u s) : InvHeld u (chDisable d drain inflight s) := by
  unfold chDisable
  split
  · exact invHeld_chDone h
  · exact invHeld_mk (invHeld_chTo h)
  · exact invHeld_chDone h
  · exact invHeld_chDone h
  · exact invHeld_chDone h
  · exact invHeld_set h chBase_not_invBlock
theorem invHeld_startCopy {c g : Nat} (h : InvHeld u s) : InvHeld u (startCopy c g s) :=
  invHeld_ite (invHeld_mk (invHeld_setN (invHeld_set (invHeld_chTo h) chBase_not_invBlock) chBase_not_invBlock)) h
theorem invHeld_releaseChannel {c : Nat} (h : InvHeld u s) : InvHeld u (releaseChannel c s) :=
  invHeld_ite (invHeld_raise (invHeld_mk (invHeld_chTo (invHeld_set (invHeld_set h chBase_not_invBlock) cdmaStatus_not_invBlock)))
    cdmaEvents_not_invBlock) h

/-! ### Vote groups and roles -/

theorem invHeld_voteRaise {g bit : Nat} (h : InvHeld u s) : InvHeld u (voteRaise g bit s) :=
  invHeld_forEach h fun _ _ _ h => invHeld_raise h voteEvents_not_invBlock
theorem invHeld_applyVoted (h : InvHeld u s) : InvHeld u (applyVoted s) := by
  unfold applyVoted
  extract_lets l before s1 s2
  have h1 : InvHeld u s1 := invHeld_forEach h fun _ _ _ h => invHeld_ite h (invHeld_showVoted h)
  have h2 : InvHeld u s2 := invHeld_forEach h1 fun b hb _ h => by
    have hb : b < 8 := List.mem_range.1 hb
    refine invHeld_ite h (invHeld_setN (invHeld_setN h ?_) ?_)
    · exact not_invBlock_of_lt (by unfold GPIO_VOTED; omega)
    · exact not_invBlock_of_lt (by unfold GPIO_DIR; omega)
  exact invHeld_forEach h2 fun _ hn _ h => invHeld_ite h (invHeld_refreshFrom (List.mem_range.1 hn) (invHeld_mk h))
theorem invHeld_takeoverFailed {g cause : Nat} (h : InvHeld u s) : InvHeld u (takeoverFailed g cause s) :=
  invHeld_fault (invHeld_voteRaise (invHeld_mk h))
theorem invHeld_nextCopy {c : Nat} (h : InvHeld u s) : InvHeld u (nextCopy c s) := by
  unfold nextCopy
  split
  · exact invHeld_startCopy h
  · exact h
theorem invHeld_releaseClaim {g : Nat} (h : InvHeld u s) : InvHeld u (releaseClaim g s) :=
  invHeld_ite (invHeld_releaseChannel h) (invHeld_ite (invHeld_mk (invHeld_chTo h)) h)
theorem invHeld_abandon {g cause : Nat} (h : InvHeld u s) : InvHeld u (abandon g cause s) :=
  invHeld_ite h (invHeld_nextCopy (invHeld_mk (invHeld_takeoverFailed (invHeld_mk (invHeld_releaseClaim h)))))
theorem invHeld_enterSafe {g cause : Nat} (h : InvHeld u s) : InvHeld u (enterSafe g cause s) :=
  invHeld_forEach (invHeld_forEach h fun _ _ _ h => invHeld_abandon (invHeld_voteRaise (invHeld_mk h))) fun _ _ _ => invHeld_fault
theorem invHeld_applyRoles {old new : List Byte} {epoch : Bool} (h : InvHeld u s) : InvHeld u (applyRoles old new epoch s) :=
  invHeld_forEach (invHeld_forEach h fun _ _ _ h => invHeld_mk (invHeld_setReg h role_not_invBlock)) fun _ _ _ h =>
    invHeld_setN h role_not_invBlock
theorem invHeld_epochVote {old new : List Byte} (h : InvHeld u s) : InvHeld u (epochVote old new s).2 := by
  unfold epochVote
  extract_lets dropped s1 base s2
  have h1 : InvHeld u s1 := invHeld_forEach h fun _ _ _ => invHeld_abandon
  have h2 : InvHeld u s2 := by
    refine invHeld_forEach h1 fun g _ s3 h3 => ?_
    extract_lets r s4 strays s5 r1
    have h4 : InvHeld u s4 := invHeld_abandon h3
    have h5 : InvHeld u s5 := invHeld_enterSafe (invHeld_mk h3)
    split
    · exact h3
    · exact invHeld_mk h3
    · exact invHeld_mk h4
    · exact invHeld_ite (invHeld_ite h3 (invHeld_mk h3)) (invHeld_mk h5)
  exact invHeld_snd (invHeld_applyVoted (invHeld_applyRoles h2))

/-! ### The switch -/

theorem invHeld_learnDisable {abort : Bool} (h : InvHeld u s) : InvHeld u (learnDisable abort s) := by
  unfold learnDisable flushStart
  extract_lets s1
  have h1 : InvHeld u s1 := invHeld_when h fun _ => invHeld_mk
  exact invHeld_ite (invHeld_raise (invHeld_mk h1) (by decide)) (invHeld_mk h1)
theorem invHeld_gateEntry {p : Nat} (h : InvHeld u s) : InvHeld u (gateEntry p s) := by
  unfold gateEntry
  extract_lets r s1
  have h1 : InvHeld u s1 := by
    unfold s1
    split
    · exact invHeld_ite (invHeld_mk h) h
    · exact h
  split
  · exact invHeld_set (invHeld_set (invHeld_set h1 portStatus_not_invBlock) portStatus_not_invBlock) portStatus_not_invBlock
  split
  exact invHeld_raise (invHeld_set (invHeld_set h1 portStatus_not_invBlock) portStatus_not_invBlock) portStatus_not_invBlock
theorem invHeld_epochScheds {b : List Byte} (h : InvHeld u s) : InvHeld u (epochScheds b s) :=
  invHeld_forEach h fun _ _ _ h => invHeld_ite (invHeld_mk h) (invHeld_gateEntry (invHeld_mk h))
theorem invHeld_enqueue {q cls : Nat} {f : NetFrame} (h : InvHeld u s) : InvHeld u (enqueue q cls f s) :=
  invHeld_ite (invHeld_countReg (invHeld_raise h (by decide)) (not_invBlock_of_le (by unfold PORT_TAIL_DROP; omega)))
    (invHeld_when (invHeld_mk h) fun _ h => invHeld_raise h (by decide))
theorem invHeld_serviceFrame {p dst : Nat} {payload : List Byte} (h : InvHeld u s) : InvHeld u (serviceFrame p dst payload s) :=
  invHeld_enqueue (invHeld_countReg (invHeld_mk h) (by decide))

/-! ### The functions of the split table -/

theorem invHeld_crcDisable {abort : Bool} {d : Nat} (h : InvHeld u s) : InvHeld u (crcDisable abort d s) :=
  invHeld_ite (invHeld_chDisable (invHeld_mk h)) h
/-- A disable that no rung 2 asks for leaves staging alone. -/
theorem invHeld_fnDisable {f : Nat} {abort : Bool} (h : InvHeld u s) : InvHeld u (fnDisable f abort false s) := by
  unfold fnDisable
  split
  · exact invHeld_mk h
  · exact invHeld_when h fun _ h => invHeld_forEach h fun _ _ _ => invHeld_mk
  · exact invHeld_learnDisable h
  · exact invHeld_when h fun _ h => invHeld_forEach h fun _ _ _ => invHeld_mk
  · exact invHeld_mk h
  · exact invHeld_forEach h fun _ _ _ => invHeld_crcDisable
  · rwa [Bool.and_false, Bool.false_and, State.when_false]
  · exact invHeld_when h fun _ h => invHeld_forEach h fun _ _ _ => invHeld_abandon
  · exact h
theorem invHeld_fnChange {f v : Nat} {override : Bool} (hf : f < 11) (h : InvHeld u s) : InvHeld u (fnChange f v override s) := by
  have ha := fnStat_not_invBlock hf
  unfold fnChange
  extract_lets mode policy was old s1 s2 base s3
  have h1 : InvHeld u s1 := invHeld_set (invHeld_set h ha) ha
  have h2 : InvHeld u s2 := invHeld_set (invHeld_setB h1 ha) ha
  have h3 : InvHeld u s3 := invHeld_mk h2
  exact invHeld_ite (invHeld_set h ha) (invHeld_ite h3 (invHeld_fnDisable h3))

/-! ### Beacons -/

theorem invHeld_sendBeacon {tt : Nat} {extra : Bool} (h : InvHeld u s) : InvHeld u (sendBeacon tt extra s) :=
  invHeld_ite h (invHeld_forEach h fun _ _ _ => invHeld_serviceFrame)

end Sys2Proof.Machine
end

section
/-!
O28. The epoch tick, the check, the confirmation and the reverts (R36 to R40, R381): what a switch to an inventory leaves, and one
lemma for each case of each instant, from which the clauses of O28 follow.
-/
namespace Sys2Proof.Machine
open Sys2Proof
variable {s : State}

/-! ### A switch to an inventory (R36, R37, R45) -/

theorem showActive_inv : (showActive s).inv = s.inv := by
  unfold showActive
  extract_lets b f s1
  rw [forEach_keeps State.inv fun _ _ _ => State.setN_inv _ _ _]
  exact (State.set_inv _ _ _).trans (State.setN_inv _ _ _)

theorem reg_showActive {a : Nat} (hversion : a ≠ INV_VERSION) (hkeys : a ≠ BOOT_KEYS) (hfp : a < INV_FP 0 ∨ INV_FP 2 < a) :
    (showActive s).reg a = s.reg a := by
  unfold showActive
  extract_lets b f s1
  have h1 : s1.reg a = s.reg a := (reg_set_other hkeys).trans (reg_setN_other hversion)
  rw [forEach_keeps (·.reg a) fun w hw t => reg_setN_other ?_, h1]
  have hw : w < 3 := List.mem_range.1 hw
  unfold INV_FP at *
  omega

theorem applyManifest_inv (b : List Byte) : (applyManifest b s).inv = { s.inv with lastBeacon := [] } := by
  unfold applyManifest
  extract_lets p s1 s2 base s3
  have h3 : s3.inv = { s.inv with lastBeacon := [] } := rfl
  rw [forEach_keeps State.inv fun e _ t => when_keeps State.inv (State.set_inv _ _ _), h3]

theorem reg_applyManifest (b : List Byte) {a : Nat} (ha : a < INV_CFG) : (applyManifest b s).reg a = s.reg a := by
  have hpeer : ∀ i, a ≠ BEACON_PEER_STAT i := fun i => by
    unfold INV_CFG at ha
    unfold BEACON_PEER_STAT
    omega
  unfold applyManifest
  extract_lets p s1 s2 base s3
  have h2 : s2.reg a = s.reg a := by
    unfold s2 s1
    rw [reg_resetRegs_of_not, reg_setN_other ha.ne]
    have hlt : a < BEACON_PEER_STAT 0 := ha.trans (by decide)
    rw [Bool.and_eq_false_iff, decide_eq_false_iff_not]
    exact .inl (by omega)
  have h3 : s3.reg a = s.reg a := (reg_withInv (s := s2) _ a).trans h2
  rw [forEach_keeps (·.reg a) fun e _ t => when_keeps (·.reg a) (reg_set_other (hpeer e.2)), h3]

/-- A switch to inventory `b` as epoch `n` ends with the manifest's registers and the split table's override mark cleared; what went
before wrote nothing else of INV_STATE and no epoch number but `n`. -/
theorem switchTo_shape (b : List Byte) (n : Nat) : ∃ t : State,
    t.inv = { s.inv with active := b, arrivals := [], sendRevert := false, revertAsked := false, lateAt := none } ∧
    t.reg INV_STATE = s.reg INV_STATE ∧ t.reg INV_EPOCH = BitVec.ofNat 32 n ∧
    switchTo b n s = applyManifest b (t.set INV_STATE.split_override 0) := by
  unfold switchTo
  extract_lets base old s1 s2 s3
  have hinv : s3.inv = { s.inv with active := b, arrivals := [], sendRevert := false, revertAsked := false, lateAt := none } := by
    unfold s3 s2
    rw [State.setN_inv, showActive_inv, modInv_inv, modInv_inv]
  have hstate : s3.reg INV_STATE = s.reg INV_STATE := by
    unfold s3 s2 s1
    rw [reg_setN_other (by decide), reg_showActive (by decide) (by decide) (by decide), modInv_reg, modInv_reg]
  have hepoch : s3.reg INV_EPOCH = BitVec.ofNat 32 n := reg_setN_same
  split
  rename_i dropped s4 e
  extract_lets s5 s6
  have h4 : InvHeld s3 s4 := by
    have hvote : InvHeld s3 (epochVote old b s3).2 := invHeld_epochVote invHeld_refl
    rwa [e] at hvote
  have h6 : InvHeld (s4.when dropped (·.raise INV_EVENTS.takeover_dropped)) s6 :=
    invHeld_forEach (invHeld_epochScheds invHeld_refl) fun f hf t h => by
      have hf : f < 11 := List.mem_range.1 hf
      exact invHeld_set (invHeld_when h fun _ => invHeld_fnChange hf) (fnStat_not_invBlock hf)
  have hreg : ∀ a, InvBlock a → a ≠ INV_EVENTS → s6.reg a = s3.reg a := fun a ha hne =>
    (h6.reg_eq ha).trans ((when_keeps (·.reg a) (reg_raise_other hne)).trans (h4.reg_eq ha))
  refine ⟨s6, ?_, ?_, ?_, rfl⟩
  · rw [h6.inv_eq, when_keeps State.inv (State.raise_inv _ _), h4.inv_eq, hinv]
  · rw [hreg INV_STATE (by decide) (by decide), hstate]
  · rw [hreg INV_EPOCH (by decide) (by decide), hepoch]

theorem switchTo_inv (b : List Byte) (n : Nat) : (switchTo b n s).inv =
    { s.inv with active := b, arrivals := [], sendRevert := false, revertAsked := false, lateAt := none, lastBeacon := [] } := by
  obtain ⟨t, hinv, -, -, heq⟩ := switchTo_shape (s := s) b n
  rw [heq, applyManifest_inv, State.set_inv, hinv]

theorem regN_switchTo (b : List Byte) (n : Nat) : (switchTo b n s).regN INV_EPOCH = n % 2 ^ 32 := by
  obtain ⟨t, -, -, hepoch, heq⟩ := switchTo_shape (s := s) b n
  rw [State.regN, heq, reg_applyManifest _ (by decide), reg_set_other (by decide), hepoch, BitVec.toNat_ofNat]

/-- The fields of INV_STATE but the split table's override mark stay. -/
theorem get_switchTo {b : List Byte} {n : Nat} {g : Fld} (haddr : g.addr = INV_STATE) (hbit : g.lo + g.w ≤ 9 ∨ 10 ≤ g.lo) :
    (switchTo b n s).get g = s.get g := by
  obtain ⟨t, -, hstate, -, heq⟩ := switchTo_shape (s := s) b n
  have hmanifest : (switchTo b n s).get g = (t.set INV_STATE.split_override 0).get g := by
    rw [heq]
    exact congrArg (bitsOf · g.lo g.w) (reg_applyManifest _ (by rw [haddr]; decide))
  rw [hmanifest, State.get_set_apart _ _ _ _ (by decide) hbit]
  unfold State.get
  rw [haddr, hstate]

/-! ### The epoch tick (R36) -/

theorem exec_epochTick : exec .epochTick s = .next (inCore epochTick s) := rfl

theorem epochTick_waits (h : s.get INV_STATE.state ≠ 4 ∨ s.now < s.pair INV_EPOCH_TT_LO) : epochTick s = s := by
  refine if_pos ?_
  simpa [State.due] using h

theorem epochTick_ticks (hstate : s.get INV_STATE.state = 4) (hdue : s.pair INV_EPOCH_TT_LO ≤ s.now) : epochTick s =
    (((((switchTo s.inv.shadow s.inv.armedEpoch (s.setB INV_STATE.degraded_epoch (s.is TT_STATUS.degraded))).modInv (fun h =>
      { h with fallback := s.inv.active, shadow := [], tickE := s.pair INV_EPOCH_TT_LO, confirmed := none, discardAt := none })).raise
        INV_STATE.fallback_held).set INV_STATE.state 5).raise INV_EVENTS.switched).progress 8 :=
  if_neg (by simp [hstate, State.due, hdue])

theorem epochTick_switches (hstate : s.get INV_STATE.state = 4) (hdue : s.pair INV_EPOCH_TT_LO ≤ s.now) :
    (epochTick s).inv.active = s.inv.shadow ∧ (epochTick s).inv.fallback = s.inv.active ∧ (epochTick s).inv.shadow = [] ∧
    (epochTick s).get INV_STATE.state = 5 ∧ (epochTick s).get INV_STATE.fallback_held = 1 ∧
    (epochTick s).get INV_EVENTS.switched = 1 ∧ (epochTick s).regN INV_EPOCH = s.inv.armedEpoch % 2 ^ 32 ∧
    (epochTick s).inv.tickE = s.pair INV_EPOCH_TT_LO := by
  rw [epochTick_ticks hstate hdue]
  have hinv := switchTo_inv (s := s.setB INV_STATE.degraded_epoch (s.is TT_STATUS.degraded)) s.inv.shadow s.inv.armedEpoch
  have hepoch := regN_switchTo (s := s.setB INV_STATE.degraded_epoch (s.is TT_STATUS.degraded)) s.inv.shadow s.inv.armedEpoch
  generalize switchTo s.inv.shadow s.inv.armedEpoch _ = t at hinv hepoch ⊢
  refine ⟨?_, rfl, rfl, ?_, ?_, ?_, ?_, rfl⟩
  · exact congrArg InvH.active hinv
  · rw [progress_get, get_raise_other (by decide)]
    exact get_set_of_lt (by decide) (by decide)
  · rw [progress_get, get_raise_other (by decide), State.get_set_apart _ _ _ _ (by decide) (by decide)]
    exact get_raise_same (by decide) (by decide)
  · rw [progress_get]
    exact get_raise_same (by decide) (by decide)
  · rw [State.regN, progress_reg, reg_raise_other (by decide), reg_set_other (by decide), reg_raise_other (by decide)]
    exact hepoch

/-! ### The decision instant (R38) -/

theorem exec_revertDecision : exec .revertDecision s = .next (inCore revertDecision s) := rfl

/-- R38: a required peer has not been heard with the new epoch. -/
def peerMissed (s : State) : Bool :=
  (peerRecs s.invB).zipIdx.any (fun e => bitN e.1.flags 0 && !bitN e.1.flags 1 && !peerHeard s e.2 e.1)

/-- R38: the check of HW mode is at its decision instant. -/
def Deciding (s : State) : Prop := s.get INV_STATE.state = 5 ∧ s.get (HOST_FN_STAT.mode 8) = 0 ∧ decisionInstant s ≤ s.now

theorem revertDecision_deciding (h : Deciding s) : revertDecision s = if peerMissed s then decideRevert true s else s := by
  obtain ⟨hstate, hmode, hdue⟩ := h
  exact if_neg (by simp [hstate, haEpoch_eq_false hmode, State.due, hdue])

theorem revertDecision_none (h : ¬ Deciding s ∨ peerMissed s = false) : revertDecision s = s := by
  by_cases hd : Deciding s
  · rw [revertDecision_deciding hd, h.resolve_left (not_not_intro hd), if_neg Bool.false_ne_true]
  · refine if_pos ?_
    unfold Deciding at hd
    simpa [haEpoch, State.is, State.due, or_assoc, imp_iff_not_or] using hd

theorem decideRevert_reverts : (decideRevert true s).get INV_STATE.state = 6 ∧ (decideRevert true s).get INV_EVENTS.revert_sent = 1 ∧
    (decideRevert true s).inv = { s.inv with sendRevert := true } := by
  have hheld : InvHeld ((((s.set INV_STATE.state 6).raise INV_EVENTS.revert_sent).progress 8).modInv (fun h => { h with sendRevert := true }))
      (decideRevert true s) := invHeld_sendBeacon invHeld_refl
  rw [hheld.get_eq (by decide), hheld.get_eq (by decide), modInv_get, modInv_get, progress_get, progress_get,
    get_raise_other (by decide)]
  exact ⟨get_set_of_lt (by decide) (by decide), get_raise_same (by decide) (by decide), hheld.inv_eq⟩

/-! ### The revert instant (R38, R381) -/

theorem exec_revertInstant : exec .revertInstant s = .next (inCore revertInstantReached s) := rfl

theorem revertInstantReached_waits (h : s.get INV_STATE.state ≠ 5 ∨ s.now < revertInstant s) : revertInstantReached s = s := by
  refine if_pos ?_
  simpa [State.due] using h

theorem persistWrite_acts : (persistWrite s).inv = s.inv ∧ (persistWrite s).reg INV_EPOCH = s.reg INV_EPOCH ∧
    (persistWrite s).get INV_STATE.fallback_held = s.get INV_STATE.fallback_held ∧ (persistWrite s).boot.persist.isSome ∧
    (persistWrite s).get INV_STATE.persist_pending = 1 := by
  unfold persistWrite
  refine ⟨State.raise_inv _ _, ?_, ?_, rfl, get_raise_same (by decide) (by decide)⟩
  · rw [reg_raise_other (by decide), State.modBoot_reg]
  · rw [get_raise_apart (by decide) (by decide), State.modBoot_get]

/-- What is written at the confirmation before staging returns to IDLE: the persisted copy and the BOOT_MODE record. -/
theorem revertInstantReached_shape (hstate : s.get INV_STATE.state = 5) (hdue : revertInstant s ≤ s.now) : ∃ t : State,
    t.inv = s.inv ∧ t.reg INV_EPOCH = s.reg INV_EPOCH ∧ t.get INV_STATE.fallback_held = s.get INV_STATE.fallback_held ∧
    (s.inv.persist = true → t.boot.persist.isSome ∧ t.get INV_STATE.persist_pending = 1) ∧
    revertInstantReached s = stagingIdle ((t.modInv (fun h => { h with
      confirmed := some (t.regN INV_EPOCH, revertInstant s, revertDelayMs t.invB * 1000000), sendRevert := false })).retireFallback) := by
  have hif : (s.get INV_STATE.state != 5 || !s.due (revertInstant s)) = false := by simp [hstate, State.due, hdue]
  unfold revertInstantReached
  extract_lets r s1 s2 e
  have h1 : s1.inv = s.inv ∧ s1.reg INV_EPOCH = s.reg INV_EPOCH ∧ s1.get INV_STATE.fallback_held = s.get INV_STATE.fallback_held ∧
      (s.inv.persist = true → s1.boot.persist.isSome ∧ s1.get INV_STATE.persist_pending = 1) := by
    unfold s1
    cases s.inv.persist
    · exact ⟨rfl, rfl, rfl, fun h => (Bool.false_ne_true h).elim⟩
    · obtain ⟨hinv, hepoch, hheld, hkept, hpending⟩ := persistWrite_acts (s := s)
      exact ⟨hinv, hepoch, hheld, fun _ => ⟨hkept, hpending⟩⟩
  obtain ⟨hinv, hepoch, hheld, hpersist⟩ := h1
  have h2 : s2.inv = s1.inv ∧ s2.io = s1.io ∧ s2.boot.persist = s1.boot.persist := by
    unfold s2
    cases recordsWritable s1
    · exact ⟨rfl, rfl, rfl⟩
    · exact ⟨rfl, rfl, rfl⟩
  obtain ⟨hinv2, hio, hboot⟩ := h2
  have hreg : ∀ a, s2.reg a = s1.reg a := fun a => by unfold State.reg; rw [hio]
  have hget : ∀ g, s2.get g = s1.get g := fun g => congrArg (bitsOf · g.lo g.w) (hreg g.addr)
  refine ⟨s2, hinv2.trans hinv, (hreg _).trans hepoch, (hget _).trans hheld, fun h => ?_, if_neg (by rw [hif]; exact Bool.false_ne_true)⟩
  rw [hboot, hget]
  exact hpersist h

@[simp] theorem retireFallback_reg (a : Nat) : s.retireFallback.reg a = s.reg a := rfl
@[simp] theorem retireFallback_get (g : Fld) : s.retireFallback.get g = s.get g := rfl

theorem revertInstantReached_confirms (hstate : s.get INV_STATE.state = 5) (hdue : revertInstant s ≤ s.now) :
    (revertInstantReached s).get INV_STATE.state = 0 ∧ (revertInstantReached s).inv.active = s.inv.active ∧
    (revertInstantReached s).inv.confirmed = some (s.regN INV_EPOCH, revertInstant s, revertDelayMs s.invB * 1000000) ∧
    (revertInstantReached s).inv.sendRevert = false ∧
    (revertInstantReached s).get INV_STATE.fallback_held = s.get INV_STATE.fallback_held ∧
    (s.inv.persist = true → (revertInstantReached s).boot.persist.isSome ∧
      (revertInstantReached s).get INV_STATE.persist_pending = 1) := by
  obtain ⟨t, hinv, hepoch, hheld, hpersist, heq⟩ := revertInstantReached_shape hstate hdue
  have hepoch : t.regN INV_EPOCH = s.regN INV_EPOCH := congrArg BitVec.toNat hepoch
  have hdelay : revertDelayMs t.invB = revertDelayMs s.invB := congrArg (fun h : InvH => revertDelayMs h.active) hinv
  rw [heq, hepoch, hdelay]
  refine ⟨stagingIdle_state, (congrArg InvH.active hinv :), rfl, rfl, ?_, fun h => ⟨(hpersist h).1, ?_⟩⟩
  · rw [get_stagingIdle rfl (by decide), retireFallback_get, modInv_get, hheld]
  · rw [get_stagingIdle rfl (by decide), retireFallback_get, modInv_get, (hpersist h).2]

/-! ### The revert ticks (R39, R40) -/

theorem restoreFallback_eq : restoreFallback s = (((switchTo s.inv.fallback (s.regN INV_EPOCH + 1) s).modInv (fun h =>
    { h with fallback := s.inv.active, confirmed := none })).retireFallback.raise INV_EVENTS.reverted).fault 0x2B 0
      (BitVec.ofNat 32 (s.regN INV_EPOCH)) := rfl

/-- The fallback copy is the active inventory of the next epoch, and the two have changed places. -/
theorem restoreFallback_restores :
    (restoreFallback s).inv.active = s.inv.fallback ∧ (restoreFallback s).inv.fallback = s.inv.active ∧
    (restoreFallback s).inv.confirmed = none ∧ (restoreFallback s).regN INV_EPOCH = (s.regN INV_EPOCH + 1) % 2 ^ 32 ∧
    (restoreFallback s).get INV_STATE.state = s.get INV_STATE.state ∧
    (restoreFallback s).get INV_STATE.fallback_held = s.get INV_STATE.fallback_held ∧
    (restoreFallback s).get INV_EVENTS.reverted = 1 := by
  have hinv := switchTo_inv (s := s) s.inv.fallback (s.regN INV_EPOCH + 1)
  have hepoch := regN_switchTo (s := s) s.inv.fallback (s.regN INV_EPOCH + 1)
  have hstate := get_switchTo (s := s) (b := s.inv.fallback) (n := s.regN INV_EPOCH + 1) (g := INV_STATE.state) rfl (by decide)
  have hheld := get_switchTo (s := s) (b := s.inv.fallback) (n := s.regN INV_EPOCH + 1) (g := INV_STATE.fallback_held) rfl (by decide)
  rw [restoreFallback_eq]
  generalize switchTo s.inv.fallback (s.regN INV_EPOCH + 1) s = t at hinv hepoch hstate hheld ⊢
  generalize BitVec.ofNat 32 (s.regN INV_EPOCH) = detail
  have hfault : InvHeld (((t.modInv (fun h => { h with fallback := s.inv.active, confirmed := none })).retireFallback).raise
      INV_EVENTS.reverted) (_ : State) := invHeld_fault (code := 0x2B) (source := 0) (detail := detail) invHeld_refl
  rw [hfault.inv_eq, State.regN, hfault.reg_eq (by decide), hfault.get_eq (by decide), hfault.get_eq (by decide),
    hfault.get_eq (by decide), get_raise_other (by decide), get_raise_other (by decide), reg_raise_other (by decide)]
  simp only [retireFallback_reg, retireFallback_get, modInv_reg, modInv_get]
  exact ⟨congrArg InvH.active hinv, rfl, rfl, hepoch, hstate, hheld, get_raise_same (by decide) (by decide)⟩

theorem exec_revertTick : exec .revertTick s = .next (inCore revertTick s) := rfl

theorem revertTick_waits (h : s.get INV_STATE.state ≠ 6 ∨ s.now < revertInstant s) : revertTick s = s := by
  refine if_pos ?_
  simpa [State.due] using h

theorem revertTick_reverts (hstate : s.get INV_STATE.state = 6) (hdue : revertInstant s ≤ s.now) :
    (revertTick s).get INV_STATE.state = 0 ∧ (revertTick s).inv.active = s.inv.fallback ∧
    (revertTick s).inv.fallback = s.inv.active ∧ (revertTick s).inv.confirmed = none ∧
    (revertTick s).regN INV_EPOCH = (s.regN INV_EPOCH + 1) % 2 ^ 32 ∧
    (revertTick s).get INV_STATE.fallback_held = s.get INV_STATE.fallback_held ∧ (revertTick s).get INV_EVENTS.reverted = 1 := by
  have heq : revertTick s = restoreFallback (stagingIdle s) := if_neg (by simp [hstate, State.due, hdue])
  obtain ⟨hactive, hfallback, hconfirmed, hepoch, hidle, hheld, hreverted⟩ := restoreFallback_restores (s := stagingIdle s)
  rw [heq]
  refine ⟨hidle.trans stagingIdle_state, hactive, hfallback, hconfirmed, ?_, hheld.trans (get_stagingIdle rfl (by decide)), hreverted⟩
  rw [hepoch, State.regN, State.regN, reg_stagingIdle (by decide) (by decide)]

theorem exec_lateRevertTick : exec .lateRevertTick s = .next (inCore lateRevertTick s) := rfl

theorem lateRevertTick_eq {t n r d : Nat} (hat : s.inv.lateAt = some t) (hconfirmed : s.inv.confirmed = some (n, r, d)) :
    lateRevertTick s = if t ≤ s.now ∧ n = s.regN INV_EPOCH ∧ s.get INV_STATE.fallback_held = 1 then
      (restoreFallback s).raise INV_EVENTS.late_revert else s := by
  have hbit : s.get INV_STATE.fallback_held < 2 ^ 1 := bitsOf_lt _ _ _
  have hheld : s.is INV_STATE.fallback_held = true ↔ s.get INV_STATE.fallback_held = 1 := by
    rw [State.is, bne_iff_ne]
    omega
  simp only [lateRevertTick, hat, hconfirmed, Bool.and_eq_true, beq_iff_eq, hheld, State.due, decide_eq_true_eq, and_assoc]

theorem lateRevertTick_reverts {t n r d : Nat} (hat : s.inv.lateAt = some t) (hconfirmed : s.inv.confirmed = some (n, r, d))
    (happlies : t ≤ s.now ∧ n = s.regN INV_EPOCH ∧ s.get INV_STATE.fallback_held = 1) :
    (lateRevertTick s).inv.active = s.inv.fallback ∧ (lateRevertTick s).inv.fallback = s.inv.active ∧
    (lateRevertTick s).inv.confirmed = none ∧ (lateRevertTick s).regN INV_EPOCH = (s.regN INV_EPOCH + 1) % 2 ^ 32 ∧
    (lateRevertTick s).get INV_EVENTS.late_revert = 1 ∧ (lateRevertTick s).get INV_EVENTS.reverted = 1 := by
  obtain ⟨hactive, hfallback, hconfirmed', hepoch, -, -, hreverted⟩ := restoreFallback_restores (s := s)
  rw [lateRevertTick_eq hat hconfirmed, if_pos happlies, State.raise_inv, State.regN, reg_raise_other (by decide),
    get_raise_apart (g := INV_EVENTS.reverted) (by decide) (by decide)]
  exact ⟨hactive, hfallback, hconfirmed', hepoch, get_raise_same (by decide) (by decide), hreverted⟩

/-- Settles O28: each clause is the lemma of its instant. -/
theorem epochsSwitchConfirmAndRevert : Obligations.EpochsSwitchConfirmAndRevert := by
  refine ⟨fun s => ⟨fun hlive hstate hdue => ?_, fun h => ?_⟩, fun s => ⟨fun hlive hchecks hmissing => ?_, fun h => ?_⟩,
    fun s hdue => ⟨fun hlive hstate => ?_, fun h => ?_, fun hlive hstate => ?_, fun h => ?_⟩, fun s h => ⟨?_, ?_⟩,
    fun s t n r d hat hconfirmed => ⟨fun hlive happlies => ?_, fun h => ?_⟩⟩
  · exact completes_inCore exec_epochTick hlive (epochTick_switches hstate hdue)
  · rw [exec_epochTick, inCore_eq_self (epochTick_waits h)]
  · refine completes_inCore exec_revertDecision hlive ?_
    rw [revertDecision_deciding hchecks, if_pos (show peerMissed s = true from hmissing)]
    exact decideRevert_reverts
  · rw [exec_revertDecision, inCore_eq_self (revertDecision_none h)]
  · exact completes_inCore exec_revertInstant hlive (revertInstantReached_confirms hstate hdue)
  · rw [exec_revertInstant, inCore_eq_self (revertInstantReached_waits (.inl h))]
  · exact completes_inCore exec_revertTick hlive (revertTick_reverts hstate hdue)
  · rw [exec_revertTick, inCore_eq_self (revertTick_waits (.inl h))]
  · rw [exec_revertInstant, inCore_eq_self (revertInstantReached_waits (.inr h))]
  · rw [exec_revertTick, inCore_eq_self (revertTick_waits (.inr h))]
  · exact completes_inCore exec_lateRevertTick hlive (lateRevertTick_reverts hat hconfirmed happlies)
  · rw [exec_lateRevertTick, inCore_eq_self (by rw [lateRevertTick_eq hat hconfirmed, if_neg h])]

end Sys2Proof.Machine
end

section
/-!
O29. Beacons and boot-status frames sent, beacons received, and peers that go missing (R37, R38, R43, R45, R289, R290): a service frame
that finds room enters its queue, what a beacon shows is still shown after the checks that follow it, and the clauses of O29 from those.
-/
namespace Sys2Proof.Machine
open Sys2Proof
variable {s u : State}

/-! ### Service frames (R272, R288) -/

theorem atD_eq_getD_toList {α : Type} {n : Nat} (v : Vector α n) (i : Nat) (d : α) : v.toList.getD i d = atD v i d := by
  unfold atD
  split
  · simp_all
  · simp_all

theorem portOf_modPort_same {q : Nat} {f : PortH → PortH} (hq : q < 10) : (s.modPort q f).portOf q = f (s.portOf q) := by
  unfold State.portOf State.modPort State.modNet
  rw [atD_updAt _ _ _ _ _ hq, if_pos rfl]

theorem portOf_of_port {q : Nat} (h : u.net.port = s.net.port) : u.portOf q = s.portOf q := by
  unfold State.portOf
  rw [h]

theorem usedCells_of_port (h : u.net.port = s.net.port) : usedCells u = usedCells s := by
  unfold usedCells heldFrames
  rw [h]

/-- The frames that wait at port `q` in class `cls`, oldest first. -/
def waitingAt (s : State) (q cls : Nat) : List NetFrame := (s.portOf q).queues.toList.getD (cls % 8) []

theorem waitingAt_of_port {q cls : Nat} (h : u.net.port = s.net.port) : waitingAt u q cls = waitingAt s q cls := by
  unfold waitingAt
  rw [portOf_of_port h]

/-- The cells that the queues of port `q` hold (R272). -/
def queuedCells (s : State) (q : Nat) : Nat := (((s.portOf q).queues.toList.flatten).map cellsOf).sum

/-- R272: port `q` and the buffer have room for four cells more. -/
def HasRoom (s : State) (q : Nat) : Prop := 4 + usedCells s ≤ totalCells s ∧ 4 + queuedCells s q ≤ s.get (PORT_QLIM.cells q)

/-- R272: a frame that finds room enters its queue last. -/
theorem waitingAt_enqueue {q cls : Nat} {f : NetFrame} (hq : q < 10) (hroom : HasRoom s q) (hf : cellsOf f ≤ 4) :
    waitingAt (enqueue q cls f s) q cls = waitingAt s q cls ++ [f] := by
  obtain ⟨hbuffer, hlimit⟩ := hroom
  unfold enqueue
  extract_lets c mine known s1
  have hc : c ≤ 4 := hf
  have hmine : 4 + mine ≤ s.get (PORT_QLIM.cells q) := hlimit
  rw [if_neg, when_keeps (waitingAt · q cls) (waitingAt_of_port (congrArg NetH.port (State.raise_net _ _)))]
  · unfold waitingAt s1
    rw [portOf_modPort_same hq, atD_eq_getD_toList, atD_eq_getD_toList, atD_updAt _ _ _ _ _ (Nat.mod_lt _ (by decide)), if_pos rfl]
  · simp only [Bool.or_eq_true, Bool.and_eq_true, decide_eq_true_eq, not_or, not_and]
    exact ⟨by omega, fun _ => by omega⟩

theorem length_leBytes (n v : Nat) : (leBytes n v).length = n := by
  induction n generalizing v with
  | zero => rfl
  | succ n ih => rw [leBytes, List.length_cons, ih]

theorem length_beBytes (n v : Nat) : (beBytes n v).length = n := by rw [beBytes, List.length_reverse, length_leBytes]

theorem hasRoom_received {q : Nat} {f : NetH → NetH} (hport : (f s.net).port = s.net.port) (h : HasRoom s q) :
    HasRoom ((s.modNet f).countReg (PORT_RX_FRAMES 9)) q := by
  have hport : ((s.modNet f).countReg (PORT_RX_FRAMES 9)).net.port = s.net.port := hport
  have hbuffer : totalCells ((s.modNet f).countReg (PORT_RX_FRAMES 9)) = totalCells s :=
    congrArg (4096 * ·) (get_setN_other (s := s.modNet f) (by decide))
  have hlimit : ((s.modNet f).countReg (PORT_RX_FRAMES 9)).get (PORT_QLIM.cells q) = s.get (PORT_QLIM.cells q) :=
    get_setN_other (s := s.modNet f) (by show PORT_QLIM q ≠ _; unfold PORT_QLIM PORT_RX_FRAMES; omega)
  unfold HasRoom queuedCells at *
  rw [usedCells_of_port hport, hbuffer, portOf_of_port hport, hlimit]
  exact h

/-- A service frame to `dst` with `payload` (R288), as the frame that waits at its port. -/
structure IsService (s : State) (dst : Nat) (payload : List Byte) (f : NetFrame) : Prop where
  dst_eq : f.dst = dst
  src_eq : f.src = macBase s
  body_eq : f.body.take 3 = [0x88, 0xB5] ++ payload.take 1
  vid_eq : f.vid = s.get NET_SVC_CFG.vid

theorem serviceFrame_waits {p dst : Nat} {payload : List Byte} (hp : p < 8) (hroom : HasRoom s p) (hpos : payload ≠ [])
    (hlen : payload.length ≤ 900) : ∃ f, IsService s dst payload f ∧
      waitingAt (serviceFrame p dst payload s) p (pcpClass s (s.get NET_SVC_CFG.pcp)) =
        waitingAt s p (pcpClass s (s.get NET_SVC_CFG.pcp)) ++ [f] := by
  unfold serviceFrame
  extract_lets vid tag
  have hvid : vid < 2 ^ 12 := bitsOf_lt _ _ _
  have htag : tag.getD 0 % 4096 = vid := by
    unfold tag
    by_cases h : vid = 0
    · simp [h]
    · simp [h]
      omega
  clear_value tag
  unfold sendService
  extract_lets body d vid2 f
  refine ⟨f, ⟨rfl, rfl, ?_, htag⟩, ?_⟩
  · obtain ⟨k, rest, rfl⟩ := List.exists_cons_of_ne_nil hpos
    rfl
  · have hcells : cellsOf f ≤ 4 := by
      have hbody : body.length ≤ 902 := by
        simp [body, length_beBytes]
        omega
      have hd : d.length ≤ 918 := by
        unfold d
        cases tag <;> simp [length_beBytes] <;> omega
      have hf : f.len = d.length + 4 := rfl
      unfold cellsOf
      omega
    exact (waitingAt_enqueue (by omega) (hasRoom_received rfl hroom) hcells).trans (congrArg (· ++ [f]) (waitingAt_of_port rfl))

theorem enqueue_bootSent {q cls : Nat} {f : NetFrame} : (enqueue q cls f s).net.bootSent = s.net.bootSent := by
  unfold enqueue
  extract_lets c mine known s1
  split
  · rw [State.countReg_net, State.raise_net]
  · rw [when_keeps (·.net.bootSent) (congrArg NetH.bootSent (State.raise_net _ _))]
    rfl

theorem serviceFrame_bootSent {p dst : Nat} {payload : List Byte} : (serviceFrame p dst payload s).net.bootSent = s.net.bootSent :=
  enqueue_bootSent

/-! ### Beacons and boot-status frames that are sent (R37, R289, R290) -/

theorem exec_beaconSend : exec .beaconSend s = .next (inCore beaconDue s) := rfl

/-- R37: what a beacon carries after its first octet. -/
def beaconRest (tt flags : Nat) (s : State) : List Byte :=
  beBytes 1 1 ++ beBytes 2 (u16 s.invB 0x40) ++ fingerprint s.invB ++ beBytes 4 (s.regN INV_EPOCH) ++
    beBytes 1 (s.get BOOT_STATUS.slot) ++ beBytes 1 flags ++ beBytes 2 0 ++
    beBytes 4 (manVersion (manifestOf s (s.get BOOT_STATUS.slot))) ++ beBytes 8 tt ++ beBytes 10 0

theorem length_beaconRest (tt flags : Nat) : (beaconRest tt flags s).length ≤ 45 := by
  have hfp : (fingerprint s.invB).length ≤ 12 := List.length_take_le _ _
  simp only [beaconRest, List.length_append, length_beBytes]
  omega

theorem sendBeacon_frost {tt : Nat} {extra : Bool} (h : s.frost = true) : sendBeacon tt extra s = s := if_pos (by rw [h]; rfl)

theorem sendBeacon_sends {tt p : Nat} {extra : Bool} (hfrost : s.frost = false) (hinv : s.hasInv = true) (hp : servicePorts s = [p]) :
    ∃ flags, sendBeacon tt extra s = serviceFrame p beaconDst (1 :: beaconRest tt flags s) s := by
  refine ⟨(if s.inv.sendRevert then 1 else 0) + (if s.is TT_STATUS.degraded then 2 else 0) + (if extra then 4 else 0), ?_⟩
  refine (if_neg (by simp [hfrost, hinv])).trans ?_
  rw [hp]
  simp only [beaconRest, List.append_assoc]
  rfl

/-- R293: the last beacon instant lies after the Thaw edge. -/
theorem thawed_iff : (s.flt.stableFrom.all (fun thaw => thaw < beaconInstant s) = true) ↔
    ∀ thaw, s.flt.stableFrom = some thaw → thaw < beaconInstant s := by
  cases s.flt.stableFrom with
  | none => exact ⟨fun _ _ h => (Option.some_ne_none _ h.symm).elim, fun _ => rfl⟩
  | some thaw =>
    rw [Option.all_some, decide_eq_true_eq]
    exact ⟨fun h _ e => Option.some.inj e ▸ h, fun h => h thaw rfl⟩

theorem beaconDue_early {thaw : Nat} (hthaw : s.flt.stableFrom = some thaw) (h : beaconInstant s ≤ thaw) : beaconDue s = s := by
  unfold beaconDue
  rw [if_neg fun hall => h.not_gt (thawed_iff.1 hall thaw hthaw)]

theorem beaconDue_due (h : ∀ thaw, s.flt.stableFrom = some thaw → thaw < beaconInstant s) :
    beaconDue s = sendBeacon (beaconInstant s) false s := by
  unfold beaconDue
  rw [if_pos (thawed_iff.2 h)]

theorem beaconDue_frost (h : s.frost = true) : beaconDue s = s := by
  unfold beaconDue
  rw [sendBeacon_frost h, ite_self]

/-- Port `p`'s queue of the service frames' class has one frame more, of kind `kind` (Table NET-5). -/
def Announces (p kind : Nat) (s s' : State) : Prop :=
  ∃ f : NetFrame, waitingAt s' p (pcpClass s (s.get NET_SVC_CFG.pcp)) = waitingAt s p (pcpClass s (s.get NET_SVC_CFG.pcp)) ++ [f] ∧
    f.dst = 0x03554C000001 ∧ f.src = macBase s ∧ f.body.take 3 = [0x88, 0xB5, BitVec.ofNat 8 kind] ∧ f.vid = s.get NET_SVC_CFG.vid

theorem serviceFrame_announces {p kind : Nat} {rest : List Byte} (hp : p < 8) (hroom : HasRoom s p) (hlen : rest.length ≤ 899) :
    Announces p kind s (serviceFrame p beaconDst (BitVec.ofNat 8 kind :: rest) s) := by
  obtain ⟨f, ⟨hdst, hsrc, hbody, hvid⟩, hwaits⟩ := serviceFrame_waits (s := s) (dst := beaconDst) hp hroom
    (List.cons_ne_nil (BitVec.ofNat 8 kind) rest) (by rw [List.length_cons]; omega)
  exact ⟨f, hwaits, hdst, hsrc, hbody, hvid⟩

theorem completes_beaconSend {p : Nat} (hp : p < 8) (hport : servicePorts s = [p]) (hroom : HasRoom s p) (hlive : live s = true)
    (hfrost : s.frost = false) (hinv : s.hasInv = true) (hdue : ∀ thaw, s.flt.stableFrom = some thaw → thaw < beaconInstant s) :
    Completes .beaconSend s (Announces p 1 s) := by
  obtain ⟨flags, hsend⟩ := sendBeacon_sends (tt := beaconInstant s) (extra := false) hfrost hinv hport
  refine completes_inCore exec_beaconSend hlive ?_
  rw [beaconDue_due hdue, hsend]
  exact serviceFrame_announces hp hroom ((length_beaconRest _ _).trans (by decide))

theorem exec_bootStatusSend : exec .bootStatusSend s = .next (inCore bootStatusSend s) := rfl

/-- R290: what a boot-status frame carries after its first octet. -/
def bootStatusRest (s : State) : List Byte :=
  let slot := if s.get BOOT_STATUS.stage < 3 || 0xE ≤ s.get BOOT_STATUS.stage then 0xFF else s.get BOOT_STATUS.slot
  beBytes 1 1 ++ beBytes 1 (s.get BOOT_STATUS.stage) ++ beBytes 1 (s.get BOOT_STATUS.lc) ++ beBytes 1 slot ++
    beBytes 1 (s.get BOOT_STATUS.result) ++ beBytes 2 0 ++ beBytes 8 s.now ++ beBytes 4 (Config.deviceId.toNat % 2 ^ 32)

theorem bootStatusBody_eq : bootStatusBody s = BitVec.ofNat 8 2 :: bootStatusRest s := by
  unfold bootStatusBody bootStatusRest
  simp only [List.append_assoc]
  rfl

theorem length_bootStatusRest : (bootStatusRest s).length = 19 := by
  simp only [bootStatusRest, List.length_append, length_beBytes]

theorem bootStatusSend_waits (h : s.frost = false ∨ s.net.bootSent = s.now / 10000000 + 1 ∨
    (s.now % 10000000 ≠ 0 ∧ s.now / 10000000 * 10000000 ≤ s.tt.last / 2 ^ 84)) : bootStatusSend s = s := by
  unfold bootStatusSend
  extract_lets k
  refine if_pos ?_
  simp only [Bool.or_eq_true, Bool.not_eq_true', beq_iff_eq, Bool.and_eq_true, decide_eq_true_eq, bne_iff_ne, or_assoc]
  exact h.imp_right (Or.imp_right fun ⟨hnow, hlast⟩ => ⟨hlast, by omega⟩)

theorem completes_bootStatusSend {p : Nat} (hp : p < 8) (hport : servicePorts s = [p]) (hroom : HasRoom s p) (hlive : live s = true)
    (hfrost : s.frost = true) (hnow : s.now % 10000000 = 0) (hsent : s.net.bootSent ≠ s.now / 10000000 + 1) :
    Completes .bootStatusSend s (fun s' => Announces p 2 s s' ∧ s'.net.bootSent = s.now / 10000000 + 1) := by
  have hk : s.now / 10000000 * 10000000 = s.now := by omega
  have heq : bootStatusSend s = serviceFrame p beaconDst (bootStatusBody s)
      (s.modNet (fun n => { n with bootSent := s.now / 10000000 + 1 })) := by
    unfold bootStatusSend
    rw [if_neg (by simp [hfrost, hsent, hk]), hport]
    rfl
  refine completes_inCore exec_bootStatusSend hlive ?_
  rw [heq, bootStatusBody_eq]
  refine ⟨?_, serviceFrame_bootSent⟩
  exact serviceFrame_announces (s := s.modNet (fun n => { n with bootSent := s.now / 10000000 + 1 })) hp hroom
    (by rw [length_bootStatusRest]; decide)

/-! ### Beacons that are received (R38, R40, R43) -/

theorem peerStat_ne_invEvents {i : Nat} : BEACON_PEER_STAT i ≠ INV_EVENTS := by
  unfold BEACON_PEER_STAT INV_EVENTS
  omega

theorem peerFp_ne_stat {i : Nat} : BEACON_PEER_FP0 i ≠ BEACON_PEER_STAT i := by
  unfold BEACON_PEER_FP0 BEACON_PEER_STAT
  omega

theorem peerFp_ne_invEvents {i : Nat} : BEACON_PEER_FP0 i ≠ INV_EVENTS := by
  unfold BEACON_PEER_FP0 INV_EVENTS
  omega

theorem RegsOnly.inv_eq {l : List Nat} (h : RegsOnly l s u) : u.inv = s.inv := (congrArg State.inv h.2 :)

/-- The state of peer `i` shown becomes `n`, and a change of it is an event. -/
theorem peerTo_shows {i n : Nat} (hn : n < 4) : (peerTo i n s).get (BEACON_PEER_STAT.state i) = n ∧
    (s.get (BEACON_PEER_STAT.state i) ≠ n → (peerTo i n s).get INV_EVENTS.peer_change = 1) ∧
    (∀ g : Fld, g.addr = BEACON_PEER_STAT i → 2 ≤ g.lo → (peerTo i n s).get g = s.get g) ∧
    RegsOnly [BEACON_PEER_STAT i, INV_EVENTS] s (peerTo i n s) := by
  have haway : ∀ g : Fld, g.addr = BEACON_PEER_STAT i → g.addr ≠ INV_EVENTS.peer_change.addr := fun g hg => by
    rw [hg]
    exact peerStat_ne_invEvents
  unfold peerTo
  by_cases h : s.get (BEACON_PEER_STAT.state i) = n
  · rw [if_pos (beq_iff_eq.2 h)]
    exact ⟨h, fun hne => (hne h).elim, fun _ _ _ => rfl, regsOnly_refl⟩
  · rw [if_neg (mt beq_iff_eq.1 h)]
    refine ⟨?_, fun _ => get_raise_same (by decide) (by decide), fun g hg hlo => ?_, ?_⟩
    · rw [get_raise_other (haway _ rfl)]
      exact get_set_of_lt (by show 0 + 2 ≤ 32; decide) hn
    · rw [get_raise_other (haway g hg)]
      exact State.get_set_apart _ _ _ _ (by show 0 + 2 ≤ 32; decide) (.inr hlo)
    · exact regsOnly_raise (regsOnly_set (f := BEACON_PEER_STAT.state i) regsOnly_refl (List.mem_cons_self ..))
        (List.mem_cons_of_mem _ (List.mem_cons_self ..))

/-- What is shown of peer `i`, but for the mark that its REVERT has been seen, is in `s` as in `u`. -/
def PeerHeld (i : Nat) (u s : State) : Prop :=
  (∀ g : Fld, g.addr = BEACON_PEER_STAT i → g.lo + g.w ≤ 16 ∨ 17 ≤ g.lo → s.get g = u.get g) ∧
    s.reg (BEACON_PEER_FP0 i) = u.reg (BEACON_PEER_FP0 i)

section
variable {i : Nat}

theorem PeerHeld.state_eq (h : PeerHeld i u s) : s.get (BEACON_PEER_STAT.state i) = u.get (BEACON_PEER_STAT.state i) :=
  h.1 _ rfl (.inl (by show 0 + 2 ≤ 16; decide))
theorem PeerHeld.degraded_eq (h : PeerHeld i u s) : s.get (BEACON_PEER_STAT.degraded i) = u.get (BEACON_PEER_STAT.degraded i) :=
  h.1 _ rfl (.inr (by show 17 ≤ 17; decide))
theorem peerHeld_refl : PeerHeld i s s := ⟨fun _ _ _ => rfl, rfl⟩
theorem peerHeld_modInv {f : InvH → InvH} (h : PeerHeld i u s) : PeerHeld i u (s.modInv f) := h
theorem peerHeld_progress {f : Nat} (h : PeerHeld i u s) : PeerHeld i u (s.progress f) := h
theorem peerHeld_set {f : Fld} {n : Nat} (h : PeerHeld i u s) (hf : InvBlock f.addr) : PeerHeld i u (s.set f n) := by
  have hne : ∀ a, 0xA1000 ≤ a → a ≠ f.addr := fun a ha => by omega
  refine ⟨fun g hg hbit => ?_, ?_⟩
  · rw [State.get_set_other _ _ _ _ (hne _ (by rw [hg]; unfold BEACON_PEER_STAT; omega))]
    exact h.1 g hg hbit
  · rw [reg_set_other (hne _ (by unfold BEACON_PEER_FP0; omega))]
    exact h.2
theorem peerHeld_revertSeen (h : PeerHeld i u s) : PeerHeld i u (s.raise (BEACON_PEER_STAT.revert_seen i)) := by
  refine ⟨fun g hg hbit => ?_, ?_⟩
  · rw [get_raise_apart (by show 16 + 1 ≤ 32; decide) hbit]
    exact h.1 g hg hbit
  · rw [reg_raise_other peerFp_ne_stat]
    exact h.2
theorem peerHeld_when {b : Bool} {f : State → State} (h : PeerHeld i u s) (hf : PeerHeld i u (f s)) : PeerHeld i u (s.when b f) := by
  cases b
  · exact h
  · exact hf
theorem decideRevert_inv : (decideRevert false s).inv = s.inv :=
  (State.raise_inv (s.set INV_STATE.state 6) INV_EVENTS.revert_sent).trans (State.set_inv _ _ _)
theorem peerHeld_decideRevert (h : PeerHeld i u s) : PeerHeld i u (decideRevert false s) :=
  peerHeld_progress (peerHeld_set (peerHeld_set h (by decide)) (by decide))

variable {fp : List Byte} {epoch flags tt : Nat}

/-- The check of an epoch keeps a beacon's arrival, and what is shown of its peer stays. -/
theorem checkBeacon_keeps : PeerHeld i s (checkBeacon i fp epoch flags tt s) ∧
    ∃ l, (checkBeacon i fp epoch flags tt s).inv = { s.inv with arrivals := l } ∧
      (s.get INV_STATE.state = 5 → l = ⟨i, tt, epoch, fp⟩ :: s.inv.arrivals) := by
  unfold checkBeacon
  extract_lets st s1
  have h1 : PeerHeld i s s1 := peerHeld_modInv peerHeld_refl
  by_cases h : st = 5 ∨ st = 6
  · rw [if_neg (by simp only [Bool.and_eq_true, bne_iff_ne]; omega)]
    refine ⟨?_, ⟨i, tt, epoch, fp⟩ :: s.inv.arrivals, ?_, fun _ => rfl⟩
    · split
      · have h2 := peerHeld_revertSeen h1
        exact peerHeld_when h2 (peerHeld_decideRevert h2)
      · exact h1
    · split
      · exact (when_keeps State.inv decideRevert_inv).trans (State.raise_inv _ _)
      · rfl
  · rw [if_pos (by simp only [Bool.and_eq_true, bne_iff_ne]; omega)]
    exact ⟨peerHeld_refl, s.inv.arrivals, rfl, fun h5 => (h (.inl h5)).elim⟩

/-- A beacon that comes after the revert instant changes at most the instant of the late revert. -/
theorem lateBeacon_keeps : PeerHeld i s (lateBeacon epoch flags tt s) ∧
    ∃ at_, (lateBeacon epoch flags tt s).inv = { s.inv with lateAt := at_ } := by
  unfold lateBeacon
  split
  · split
    · split
      · exact ⟨peerHeld_modInv peerHeld_refl, _, rfl⟩
      · exact ⟨peerHeld_set peerHeld_refl (by decide), s.inv.lateAt, rfl⟩
    · exact ⟨peerHeld_refl, s.inv.lateAt, rfl⟩
  · exact ⟨peerHeld_refl, s.inv.lateAt, rfl⟩

theorem u32_lt (b : List Byte) (o : Nat) : u32 b o < 2 ^ 32 := by
  have hbyte : ∀ o, u8 b o < 256 := fun o => (b.getD o 0).isLt
  have h0 := hbyte o
  have h1 := hbyte (o + 1)
  have h2 := hbyte (o + 2)
  have h3 := hbyte (o + 2 + 1)
  unfold u32 u16
  omega

/-- The state that a beacon gives its peer, by fingerprint and epoch (R43). -/
def peerCode (s : State) (r : PeerRec) (fp : List Byte) (epoch : Nat) : Nat :=
  if fp ≠ r.fp then 2 else if epoch = s.regN INV_EPOCH then 1 else 3

theorem showBeacon_shows {r : PeerRec} :
    (showBeacon i r fp epoch flags tt s).get (BEACON_PEER_STAT.state i) = peerCode s r fp epoch ∧
    (showBeacon i r fp epoch flags tt s).regN (BEACON_PEER_FP0 i) = u32 fp 0 ∧
    (showBeacon i r fp epoch flags tt s).get (BEACON_PEER_STAT.degraded i) = (if bitN flags 1 then 1 else 0) ∧
    (showBeacon i r fp epoch flags tt s).inv =
      { s.inv with lastBeacon := (i, tt) :: s.inv.lastBeacon.filter (fun e => e.1 != i) } ∧
    (showBeacon i r fp epoch flags tt s).get INV_STATE.state = s.get INV_STATE.state := by
  unfold showBeacon
  extract_lets st s1 s2
  have hcode : st = peerCode s r fp epoch := by simp [st, peerCode]
  have hlt : st < 4 := by
    rw [hcode]
    unfold peerCode
    split
    · decide
    · split <;> decide
  have hdegraded : s2.get (BEACON_PEER_STAT.degraded i) = if bitN flags 1 then 1 else 0 := by
    unfold s2 State.setB
    rw [modInv_get]
    exact get_set_of_lt (by show 17 + 1 ≤ 32; decide) (by show (if bitN flags 1 = true then 1 else 0) < 2 ^ 1; split <;> decide)
  have hfp : s2.regN (BEACON_PEER_FP0 i) = u32 fp 0 := by
    unfold s2 s1 State.setB
    rw [State.regN, modInv_reg, reg_set_other peerFp_ne_stat, reg_setN_other (by unfold BEACON_PEER_FP0 BEACON_PEER_FP2; omega),
      reg_setN_other (by unfold BEACON_PEER_FP0 BEACON_PEER_FP1; omega), reg_setN_same, BitVec.toNat_ofNat, Nat.mod_eq_of_lt (u32_lt _ _)]
  have hinvstate : s2.get INV_STATE.state = s.get INV_STATE.state := by
    unfold s2 s1 State.setB
    rw [modInv_get, State.get_set_other _ _ _ _ (by show INV_STATE ≠ BEACON_PEER_STAT i; unfold INV_STATE BEACON_PEER_STAT; omega),
      get_setN_other (by show INV_STATE ≠ _; unfold INV_STATE BEACON_PEER_FP2; omega),
      get_setN_other (by show INV_STATE ≠ _; unfold INV_STATE BEACON_PEER_FP1; omega),
      get_setN_other (by show INV_STATE ≠ _; unfold INV_STATE BEACON_PEER_FP0; omega)]
  have hinv : s2.inv = { s.inv with lastBeacon := (i, tt) :: s.inv.lastBeacon.filter (fun e => e.1 != i) } := by
    unfold s2 s1
    rw [modInv_inv, State.setB_inv, State.setN_inv, State.setN_inv, State.setN_inv]
  clear_value s2
  obtain ⟨hstate, -, hother, hregs⟩ := peerTo_shows (s := s2) (i := i) hlt
  refine ⟨hstate.trans hcode, ?_, (hother _ rfl (by show 2 ≤ 17; decide)).trans hdegraded, (RegsOnly.inv_eq hregs).trans hinv, ?_⟩
  · rw [State.regN, hregs.1 _ (by simpa using ⟨peerFp_ne_stat, peerFp_ne_invEvents⟩)]
    exact hfp
  · exact (congrArg (bitsOf · 0 4) (hregs.1 INV_STATE (by
      simp only [List.mem_cons, List.not_mem_nil, or_false, not_or]
      exact ⟨by unfold INV_STATE BEACON_PEER_STAT; omega, by decide⟩))).trans hinvstate

theorem exec_beaconReceive {mac : BitVec 48} {n : BitVec 32} {b : BitVec 8} {e : Fin 8} :
    exec (.beaconReceive mac fp n b e) s = .next (inCore (beaconReceive mac.toNat fp n.toNat b.toNat e) s) := rfl

theorem beaconReceive_unlisted {mac e : Nat} (h : (peerRecs s.invB).zipIdx.find? (fun e => e.1.mac == beBytes 6 mac) = none) :
    beaconReceive mac fp epoch flags e s = s := by
  unfold beaconReceive
  rw [h]

theorem beaconReceive_listed {mac e : Nat} {r : PeerRec}
    (h : (peerRecs s.invB).zipIdx.find? (fun e => e.1.mac == beBytes 6 mac) = some (r, i)) (hfrost : s.frost = false)
    (hflag : bitN r.flags 1 = false) (hmac : mac ≠ macBase s) : beaconReceive mac fp epoch flags e s =
      lateBeacon epoch flags (stampNs s e) (checkBeacon i fp epoch flags (stampNs s e) (showBeacon i r fp epoch flags (stampNs s e) s)) := by
  unfold beaconReceive
  rw [h]
  exact if_neg (by simp [hfrost, hflag, hmac])

theorem bitN_toNat {w k : Nat} (b : BitVec w) : bitN b.toNat k = b.getLsbD k := by
  rw [BitVec.getLsbD, Nat.testBit_eq_decide_div_mod_eq]
  rfl

/-- New arrivals and a new instant of the late revert leave what was heard last and the active inventory. -/
theorem heard_of_checks {v w : State} {l : List Arrival} {at_ : Option Nat} (h1 : v.inv = { u.inv with arrivals := l })
    (h2 : w.inv = { v.inv with lateAt := at_ }) : w.inv.lastBeacon = u.inv.lastBeacon ∧ w.inv.active = u.inv.active := by
  rw [h2, h1]
  exact ⟨rfl, rfl⟩

/-- What a beacon shows of its peer is still shown when the checks of its epoch have run. -/
theorem beaconReceive_shows {r : PeerRec} {s' : State} (heq : s' = lateBeacon epoch flags tt (checkBeacon i fp epoch flags tt
    (showBeacon i r fp epoch flags tt s))) : s'.get (BEACON_PEER_STAT.state i) = peerCode s r fp epoch ∧
    s'.regN (BEACON_PEER_FP0 i) = u32 fp 0 ∧ s'.get (BEACON_PEER_STAT.degraded i) = (if bitN flags 1 then 1 else 0) ∧
    lookup s'.inv.lastBeacon i = some tt ∧ s'.inv.active = s.inv.active ∧
    (s.get INV_STATE.state = 5 → ∃ rest, s'.inv.arrivals = ⟨i, tt, epoch, fp⟩ :: rest) := by
  subst heq
  obtain ⟨hstate, hfp, hdegraded, hinv, hinvstate⟩ := showBeacon_shows (s := s) (i := i) (r := r) (fp := fp) (epoch := epoch)
    (flags := flags) (tt := tt)
  generalize showBeacon i r fp epoch flags tt s = u at *
  obtain ⟨hheld1, l, hinv1, hl⟩ := checkBeacon_keeps (s := u) (i := i) (fp := fp) (epoch := epoch) (flags := flags) (tt := tt)
  generalize checkBeacon i fp epoch flags tt u = v at *
  obtain ⟨hheld2, at_, hinv2⟩ := lateBeacon_keeps (s := v) (i := i) (epoch := epoch) (flags := flags) (tt := tt)
  generalize lateBeacon epoch flags tt v = w at *
  obtain ⟨hlast, hactive⟩ := heard_of_checks hinv1 hinv2
  refine ⟨(hheld2.state_eq.trans hheld1.state_eq).trans hstate, ?_, (hheld2.degraded_eq.trans hheld1.degraded_eq).trans hdegraded, ?_, ?_,
    fun h5 => ⟨u.inv.arrivals, ?_⟩⟩
  · rw [← hfp, State.regN, State.regN, hheld2.2, hheld1.2]
  · rw [hlast, hinv]
    simp [lookup]
  · rw [hactive, hinv]
  · rw [hinv2, hinv1, hl (hinvstate.trans h5)]
end

/-! ### Peers that go missing (R43) -/

theorem exec_peerMissing {i : Fin 64} : exec (.peerMissing i) s = .next (inCore (peerMissing i) s) := rfl

theorem peerMissing_eq {i t : Nat} (h : lookup s.inv.lastBeacon i = some t) :
    peerMissing i s = if t + 30000000 ≤ s.now then peerTo i 0 s else s := by
  unfold peerMissing
  rw [h]
  simp only [State.due, decide_eq_true_eq]

/-- Settles O29: each clause is the lemma of its case of the command. -/
theorem beaconsAreSentAndHeard : Obligations.BeaconsAreSentAndHeard := by
  refine ⟨fun s p => ?_, fun s mac fp epoch flags e i r => ?_, fun s i t h => ?_⟩
  · intro cls one room hport hroom
    refine ⟨fun hlive hfrost hinv hdue => ?_, fun thaw hthaw hearly => ?_, fun hfrost => ?_, fun hlive hfrost hnow hsent => ?_, fun h => ?_⟩
    · exact completes_beaconSend p.isLt hport hroom hlive hfrost hinv hdue
    · rw [exec_beaconSend, inCore_eq_self (beaconDue_early hthaw hearly)]
    · rw [exec_beaconSend, inCore_eq_self (beaconDue_frost hfrost)]
    · exact completes_bootStatusSend p.isLt hport hroom hlive hfrost hnow hsent
    · rw [exec_bootStatusSend, inCore_eq_self (bootStatusSend_waits h)]
  · intro c found
    refine ⟨fun h => ?_, fun hlive h _ hfrost hflag hmac => ?_⟩
    · rw [exec_beaconReceive, inCore_eq_self (beaconReceive_unlisted h)]
    · refine completes_inCore exec_beaconReceive hlive ?_
      rw [← bitN_toNat]
      exact beaconReceive_shows (beaconReceive_listed h hfrost hflag hmac)
  · refine ⟨fun hlive hdue => ?_, fun hearly => ?_⟩
    · refine completes_inCore exec_peerMissing hlive ?_
      rw [peerMissing_eq h, if_pos hdue]
      obtain ⟨hstate, hchange, -, honly⟩ := peerTo_shows (s := s) (i := i) (n := 0) (by decide)
      exact ⟨hstate, hchange, honly⟩
    · rw [exec_peerMissing, inCore_eq_self (by rw [peerMissing_eq h, if_neg (by omega)])]

end Sys2Proof.Machine
end

section
/-!
What a function of one block leaves of the other blocks, said once for every property of states that does not look at what the function
writes: `Sees B P`. One lemma for each function, in the order of the model's files; a register, a part of the hidden state or several of
them together are such properties.
-/
namespace Sys2Proof.Machine
open Sys2Proof
variable {s t : State} {B : Nat → Prop} {P : State → Prop}

/-- `P` looks at no register outside `B`, and of the hidden state at no other part than the memory, the inventory, the clock, the rung
due and the Storekeeper. -/
structure Sees (B : Nat → Prop) (P : State → Prop) : Prop where
  setReg : ∀ {s : State} {a : Nat} {v : Word}, ¬ B a → P s → P (s.setReg a v)
  resetRegs : ∀ {s : State} {p : Nat → Bool}, (∀ a, B a → p a = false) → P s → P (s.resetRegs p)
  rest : ∀ {s : State} {fresh pending tt edg ball fnIn tiles adc data memh omt vote pwr dbg dma turn net host bus}, P s →
    P ⟨s.io, s.mem, fresh, pending, s.inv, s.clk, tt, s.flt, edg, ball, fnIn, tiles, adc, data, memh, omt, vote, pwr, dbg, dma, turn, net,
      host, bus, s.boot⟩
  flt : ∀ {s : State} {f : FltH}, f.due = s.flt.due → P s → P { s with flt := f }

namespace Sees

/-! ### Properties -/

theorem reg (a : Nat) (v : Word) : Sees (· = a) (fun t => t.reg a = v) where
  setReg ha h := (reg_setReg_other fun e => ha e.symm).trans h
  resetRegs hp h := (reg_resetRegs_of_not (hp a rfl)).trans h
  rest h := h
  flt _ h := h

theorem get (f : Fld) (n : Nat) : Sees (· = f.addr) (fun t => t.get f = n) where
  setReg ha h := (State.get_setReg_other _ _ _ _ fun e => ha e.symm).trans h
  resetRegs hp h := (get_resetRegs_of_not (hp f.addr rfl)).trans h
  rest h := h
  flt _ h := h

/-- A property of the hidden state alone. -/
theorem hidden (Q : List (Nat × Byte) → InvH → ClkH → Option (Nat × Nat × Nat) → BootH → Prop) :
    Sees (fun _ => False) (fun t => Q t.mem t.inv t.clk t.flt.due t.boot) where
  setReg _ h := h
  resetRegs _ h := h
  rest h := h
  flt hd h := hd ▸ h

theorem mono {B' : Nat → Prop} (hP : Sees B P) (hB : ∀ a, B a → B' a) : Sees B' P where
  setReg ha h := hP.setReg (fun hb => ha (hB _ hb)) h
  resetRegs hp h := hP.resetRegs (fun a hb => hp a (hB a hb)) h
  rest := hP.rest
  flt := hP.flt

end Sees

/-- `t` has the registers of `B` and what a `Sees` may look at as `s` has them. -/
structure Leaves (B : Nat → Prop) (s t : State) : Prop where
  reg : ∀ a, B a → t.reg a = s.reg a
  mem : t.mem = s.mem
  inv : t.inv = s.inv
  clk : t.clk = s.clk
  due : t.flt.due = s.flt.due
  boot : t.boot = s.boot

theorem Leaves.refl : Leaves B s s := ⟨fun _ _ => rfl, rfl, rfl, rfl, rfl, rfl⟩
theorem Leaves.get (h : Leaves B s t) {g : Fld} (hg : B g.addr) : t.get g = s.get g := congrArg (bitsOf · g.lo g.w) (h.reg _ hg)

theorem Leaves.sees : Sees B (Leaves B s) where
  setReg {_ a _} ha h := ⟨fun b hb => (reg_setReg_other fun e : b = a => ha (e ▸ hb)).trans (h.reg b hb), h.mem, h.inv, h.clk, h.due, h.boot⟩
  resetRegs hp h := ⟨fun b hb => (reg_resetRegs_of_not (hp b hb)).trans (h.reg b hb), h.mem, h.inv, h.clk, h.due, h.boot⟩
  rest h := ⟨h.reg, h.mem, h.inv, h.clk, h.due, h.boot⟩
  flt hd h := ⟨h.reg, h.mem, h.inv, h.clk, hd.trans h.due, h.boot⟩

namespace Sees

/-! ### The operations and the shapes of the model's functions -/

theorem set (hP : Sees B P) {f : Fld} {n : Nat} (hf : ¬ B f.addr) (h : P s) : P (s.set f n) := hP.setReg hf h
theorem setB (hP : Sees B P) {f : Fld} {b : Bool} (hf : ¬ B f.addr) (h : P s) : P (s.setB f b) := hP.setReg hf h
theorem raise (hP : Sees B P) {f : Fld} (hf : ¬ B f.addr) (h : P s) : P (s.raise f) := hP.setReg hf h
theorem bump (hP : Sees B P) {f : Fld} (hf : ¬ B f.addr) (h : P s) : P (s.bump f) := hP.setReg hf h
theorem setN (hP : Sees B P) {a n : Nat} (ha : ¬ B a) (h : P s) : P (s.setN a n) := hP.setReg ha h
theorem countReg (hP : Sees B P) {a : Nat} (ha : ¬ B a) (h : P s) : P (s.countReg a) := hP.setReg ha h
theorem setPair (hP : Sees B P) {a n : Nat} (ha : ¬ B a) (ha' : ¬ B (a + 4)) (h : P s) : P (s.setPair a n) :=
  hP.setN ha' (hP.setN ha h)

end Sees

theorem of_when {b : Bool} {f : State → State} (h : P s) (hf : P s → P (f s)) : P (s.when b f) := by
  cases b
  · exact h
  · exact hf h
theorem of_ite {c : Prop} [Decidable c] (hs : P s) (ht : P t) : P (if c then s else t) := by
  split
  · exact hs
  · exact ht
theorem of_forEach {α : Type} {l : List α} {f : α → State → State} (h : P s) (hf : ∀ x ∈ l, ∀ s, P s → P (f x s)) : P (s.forEach l f) :=
  List.foldlRecOn (motive := P) l _ h (fun t ht x hx => hf x hx t ht)

/-! ### Fault records, outputs, channels, votes and conversions -/

/-- The registers outside the blocks of pins, faults, the inventory, roles and clusters. -/
abbrev Quiet (a : Nat) : Prop := a < 0x50000 ∨ (0x60000 ≤ a ∧ a < 0x90000) ∨ (0xC0000 ≤ a ∧ a < 0x100000)

theorem not_quiet_pin {a : Nat} (hlo : 0x50000 ≤ a) (hhi : a < 0x60000) : ¬ Quiet a := by omega
theorem not_quiet_cluster {a : Nat} (h : 0x100000 ≤ a) : ¬ Quiet a := by omega
theorem edgStatus_le {c : Nat} : 0x100000 ≤ EDG_STATUS c := by unfold EDG_STATUS cluBlk; omega
theorem edgChStat_le {c k : Nat} : 0x100000 ≤ EDG_CH_STAT c k := by unfold EDG_CH_STAT cluBlk; omega
theorem cdmaStatus_le {c : Nat} : 0x100000 ≤ CDMA_STATUS c := by unfold CDMA_STATUS cluBlk; omega
theorem cdmaEvents_le {c : Nat} : 0x100000 ≤ CDMA_EVENTS c := by unfold CDMA_EVENTS cluBlk; omega
theorem voteEvents_le {c : Nat} : 0x100000 ≤ VOTE_EVENTS c := by unfold VOTE_EVENTS cluBlk; omega
theorem adcStat_le {c x : Nat} : 0x100000 ≤ ADC_STAT c x := by unfold ADC_STAT cluBlk; omega
theorem adcEvents_le {c : Nat} : 0x100000 ≤ ADC_EVENTS c := by unfold ADC_EVENTS cluBlk; omega
theorem adcPairStatus_le {c : Nat} : 0x100000 ≤ ADC_PAIR_STATUS c := by unfold ADC_PAIR_STATUS cluBlk; omega
theorem chBase_le {d o : Nat} : 0x100000 ≤ chBase d + o := by
  unfold chBase tdmaCh cdmaCh tileBlk cluBlk
  split <;> omega
theorem not_quiet_owner {n : Nat} (h : n < 192) : ¬ Quiet (PIN_OWNER n) :=
  not_quiet_pin (by unfold PIN_OWNER; omega) (by unfold PIN_OWNER; omega)

/-- A fault record writes the log and the registers that count it. -/
theorem Sees.faultOutside {code source : Nat} {detail : Word} (hP : Sees B P)
    (hB : ∀ a, B a → a ≠ FLT_STATUS ∧ a ≠ FLT_EVENTS ∧ (a < 0x91000 ∨ 0x92000 ≤ a)) (h : P s) : P (s.fault code source detail) := by
  have hst : ¬ B FLT_STATUS := fun hb => (hB _ hb).1 rfl
  have hev : ¬ B FLT_EVENTS := fun hb => (hB _ hb).2.1 rfl
  have hlog : ∀ {w : Nat}, w ≤ 4 → ¬ B (FLT_LOG (s.get FLT_STATUS.next) w) := fun hw hb => by
    have hlt : s.get FLT_STATUS.next < 2 ^ 6 := bitsOf_lt _ _ _
    have hout := (hB _ hb).2.2
    unfold FLT_LOG at hout
    omega
  unfold State.fault
  extract_lets i full s1 s2 s3 s4 s5 s6 s7 s8
  have h1 : P s1 := hP.setN (hlog (by decide)) h
  have h2 : P s2 := hP.setPair (hlog (by decide)) (hlog (w := 2) (by decide)) h1
  have h3 : P s3 := hP.setReg (hlog (by decide)) h2
  have h5 : P s5 := hP.flt rfl h3
  have h6 : P s6 := hP.set hst h5
  have h7 : P s7 := of_ite (hP.raise hev (hP.bump hst h6)) (hP.set hst h6)
  exact of_when (of_when (hP.raise hev h7) (hP.raise hev)) (hP.raise hev)

namespace Sees
variable (hP : Sees Quiet P)
include hP

theorem fault {code source : Nat} {detail : Word} (h : P s) : P (s.fault code source detail) :=
  hP.faultOutside (fun a ha => by unfold FLT_STATUS FLT_EVENTS; omega) h

/-! ### Outputs at their safe levels -/

theorem showChanSafe {c k : Nat} {b : Bool} (h : P s) : P (showChanSafe c k b s) :=
  hP.setB (not_quiet_cluster edgStatus_le) (hP.setB (not_quiet_cluster edgChStat_le)
    (of_when h (hP.raise (not_quiet_cluster edgChStat_le))))
theorem refreshChan {c k : Nat} (h : P s) : P (refreshChan c k s) :=
  of_ite (hP.showChanSafe (hP.rest h)) (of_ite (hP.rest h) (hP.showChanSafe h))
theorem refreshChans (h : P s) : P (refreshChans s) :=
  of_forEach h fun _ _ _ h => of_forEach h fun _ _ _ => hP.refreshChan
theorem refreshFrom {d : Option Bool} {n : Nat} (hn : n < 192) (h : P s) : P (refreshFrom d n s) :=
  hP.setB (not_quiet_owner hn) (of_when h hP.rest)
theorem refreshBalls (h : P s) : P (refreshBalls s) :=
  of_forEach h fun _ hn _ h => of_when (hP.refreshFrom (List.mem_range.1 hn) h) hP.rest
theorem outputsSafe (h : P s) : P (outputsSafe s) := hP.refreshBalls (hP.refreshChans h)
theorem edgeLull {on : Bool} (h : P s) : P (edgeLull on s) :=
  hP.outputsSafe (of_forEach h fun _ _ _ => hP.setB (not_quiet_cluster edgStatus_le))

/-! ### Channels and votes -/

theorem chTo {d st : Nat} (h : P s) : P (chTo d st s) := hP.set (not_quiet_cluster chBase_le) h
theorem startCopy {c g : Nat} (h : P s) : P (startCopy c g s) :=
  of_ite (hP.rest (hP.setN (not_quiet_cluster chBase_le) (hP.set (not_quiet_cluster chBase_le) (hP.chTo h)))) h
theorem releaseChannel {c : Nat} (h : P s) : P (releaseChannel c s) :=
  of_ite (hP.raise (not_quiet_cluster cdmaEvents_le) (hP.rest (hP.chTo (hP.set (not_quiet_cluster cdmaStatus_le) (hP.set (not_quiet_cluster chBase_le) h))))) h
theorem voteRaise {g bit : Nat} (h : P s) : P (voteRaise g bit s) := of_forEach h fun _ _ _ => hP.raise (not_quiet_cluster voteEvents_le)
theorem takeoverFailed {g cause : Nat} (h : P s) : P (takeoverFailed g cause s) := hP.fault (hP.voteRaise (hP.rest h))
theorem nextCopy {c : Nat} (h : P s) : P (nextCopy c s) := by
  unfold Machine.nextCopy
  split
  · exact hP.startCopy h
  · exact h
theorem releaseClaim {g : Nat} (h : P s) : P (releaseClaim g s) :=
  of_ite (hP.releaseChannel h) (of_ite (hP.rest (hP.chTo h)) h)
theorem abandon {g cause : Nat} (h : P s) : P (abandon g cause s) :=
  of_ite h (hP.nextCopy (hP.flt rfl (hP.takeoverFailed (hP.rest (hP.releaseClaim h)))))
theorem enterSafeAll {l : List (Nat × Nat)} (h : P s) : P (enterSafeAll l s) :=
  of_forEach (of_forEach h fun _ _ _ h => hP.abandon (hP.voteRaise (hP.rest h))) fun _ _ _ => hP.fault
theorem voteLull (h : P s) : P (voteLull s) := hP.enterSafeAll h

/-! ### Conversions -/

theorem adcTo {c x st : Nat} (h : P s) : P (adcTo c x st s) :=
  hP.set (not_quiet_cluster adcPairStatus_le) (hP.set (not_quiet_cluster adcStat_le) h)
theorem adcRaise {c x b : Nat} (h : P s) : P (adcRaise c x b s) := hP.raise (not_quiet_cluster adcEvents_le) h
theorem adcOff {c x : Nat} (h : P s) : P (adcOff c x s) :=
  hP.rest (hP.raise (not_quiet_cluster adcEvents_le) (hP.adcTo h))
theorem adcClockAbort (h : P s) : P (adcClockAbort s) :=
  of_forEach h fun _ _ _ h => of_forEach h fun _ _ _ h => by
    extract_lets st x s1
    have h1 : P s1 := of_when h (hP.set (not_quiet_cluster adcStat_le))
    exact of_ite (hP.adcRaise (hP.adcTo (hP.set (not_quiet_cluster adcStat_le) h1)))
      (of_ite (hP.adcOff (hP.adcRaise (hP.set (not_quiet_cluster adcStat_le) h1))) h1)

end Sees
end Sys2Proof.Machine
end

section
/-!
O30, first part: the period measured in Lull (R63), a source that fails (R53, R54), the loop's loss of lock (R53) and the watch check
(R51, R52, R66). Each function's effect is said once, and the clauses of O30 follow.
-/
namespace Sys2Proof.Machine
open Sys2Proof
variable {s t : State}

theorem regsOnly_setN {l : List Nat} {a n : Nat} (h : RegsOnly l s t) (ha : a ∈ l) : RegsOnly l s (t.setN a n) := ⟨onlyRegs_setReg h.1 ha, h.2⟩

/-- What a period measured in Lull becomes. -/
theorem periodMeasure_lull (p : BitVec 24) (hm : s.get CLK_STATUS.mode = 3) (hg : s.get CLK_STATUS.glide = 0) (hr : s.get CLK_RING.state ≠ 0) :
    periodMeasure p s = ((s.set CLK_PERIOD_MEAS.period p.toNat).raise CLK_PERIOD_MEAS.valid).setP (p.toNat * 2 ^ 40) := by
  have hper : ((s.set CLK_PERIOD_MEAS.period p.toNat).raise CLK_PERIOD_MEAS.valid).get CLK_PERIOD_MEAS.period = p.toNat := by
    rw [get_raise_apart (by decide) (by decide), get_set_of_lt (by decide) p.isLt]
  have hval : ((s.set CLK_PERIOD_MEAS.period p.toNat).raise CLK_PERIOD_MEAS.valid).get CLK_PERIOD_MEAS.valid = 1 :=
    get_raise_same (by decide) (by decide)
  simp [periodMeasure, hm, hg, hr, mLULL, State.is, nominalP, mREF, hper, hval]

theorem periodMeasure_acts (p : BitVec 24) (hm : s.get CLK_STATUS.mode = 3) (hg : s.get CLK_STATUS.glide = 0) (hr : s.get CLK_RING.state ≠ 0) :
    Completes (.periodMeasure p) s (fun s' => s'.get CLK_PERIOD_MEAS.period = p.toNat ∧ s'.get CLK_PERIOD_MEAS.valid = 1 ∧
      s'.regN TT_PERIOD = p.toNat * 256 ∧ s'.reg TT_PERIOD_FINE = 0 ∧ RegsOnly [CLK_PERIOD_MEAS, TT_PERIOD, TT_PERIOD_FINE] s s') := by
  have hp : p.toNat < 2 ^ 24 := p.isLt
  refine ⟨_, congrArg Host.Outcome.next (periodMeasure_lull p hm hg hr), ?_, ?_, ?_, ?_, ?_⟩
  · rw [State.setP, get_setN_other (by decide), get_setN_other (by decide), get_raise_apart (by decide) (by decide), get_set_of_lt (by decide) p.isLt]
  · rw [State.setP, get_setN_other (by decide), get_setN_other (by decide), get_raise_same (by decide) (by decide)]
  · rw [State.setP, State.regN, reg_setN_other (by decide), reg_setN_same, BitVec.toNat_ofNat]
    omega
  · rw [State.setP, reg_setN_same]
    apply BitVec.eq_of_toNat_eq
    rw [BitVec.toNat_ofNat]
    simp
    omega
  · exact regsOnly_setN (regsOnly_setN (regsOnly_raise (regsOnly_set regsOnly_refl (by decide)) (by decide)) (by decide)) (by decide)

theorem periodMeasure_waits (p : BitVec 24) (h : s.get CLK_STATUS.mode ≠ 3 ∨ s.get CLK_STATUS.glide = 1 ∨ s.get CLK_RING.state = 0) :
    exec (.periodMeasure p) s = .next s := by
  refine congrArg Host.Outcome.next (if_neg ?_)
  simp only [State.is, mLULL, Bool.and_eq_true, beq_iff_eq, Bool.not_eq_true', bne_iff_ne, bne_eq_false_iff_eq]
  omega

/-- `g` is another field than `f`: of other bits, or of another register. -/
def Fld.apart (f g : Fld) : Bool :=
  (Nat.ble (f.lo + f.w) 32 && (Nat.ble (g.lo + g.w) f.lo || Nat.ble (f.lo + f.w) g.lo)) || !Nat.beq g.addr f.addr

theorem get_set_of_apart {f g : Fld} {n : Nat} (h : f.apart g = true) : (s.set f n).get g = s.get g := by
  simp only [Fld.apart, Bool.or_eq_true, Bool.and_eq_true, Nat.ble_eq, Bool.not_eq_true'] at h
  rcases h with ⟨hf, h⟩ | h
  · exact State.get_set_apart s f g n hf h
  · exact State.get_set_other s f g n (Nat.ne_of_beq_eq_false h)

theorem forEach_append {α : Type} {l r : List α} {f : α → State → State} : s.forEach (l ++ r) f = (s.forEach l f).forEach r f :=
  List.foldl_append

/-! ### A source fails -/

theorem clk_withClk (c : ClkH) : (s.withClk c).clk = c := rfl

theorem fault_get {code source : Nat} {detail : Word} {g : Fld} (hg : Quiet g.addr) : (s.fault code source detail).get g = s.get g :=
  (Leaves.sees.fault Leaves.refl : Leaves Quiet s _).get hg
theorem fault_clk {code source : Nat} {detail : Word} : (s.fault code source detail).clk = s.clk :=
  (Leaves.sees.fault Leaves.refl : Leaves Quiet s _).clk

theorem reg_trimLost {a : Nat} (ha : a ≠ CLK_RING) : (trimLost s).reg a = s.reg a := by
  unfold trimLost
  split
  · exact (reg_set_other ha).trans (reg_set_other ha)
  · rfl
theorem get_trimLost {g : Fld} (hg : g.addr ≠ CLK_RING) : (trimLost s).get g = s.get g := congrArg (bitsOf · g.lo g.w) (reg_trimLost hg)
theorem trimLost_slips : (trimLost s).clk.slips = s.clk.slips := by
  unfold trimLost
  split
  · rw [State.set_clk, State.set_clk, clk_withClk]
  · rfl

theorem srcStat_quiet {i : Nat} (hi : i < 11) : Quiet (CLK_SRC_STAT i) := Or.inl (by unfold CLK_SRC_STAT; omega)
theorem srcStat_ne {i a : Nat} (ha : a < 0x20100) : CLK_SRC_STAT i ≠ a := by unfold CLK_SRC_STAT; omega

/-- Source `i` has entered FAILED for `cause` (Table CLK-3). -/
structure FailedFor (i cause : Nat) (t : State) : Prop where
  state : t.get (CLK_SRC_STAT.state i) = 3
  cause : t.get (CLK_SRC_STAT.fail_cause i) = cause
  passes : t.get (CLK_SRC_STAT.pass_count i) = 0
  event : t.get CLK_EVENTS.ref_fail = 1

theorem FailedFor.sees {i cause : Nat} : Sees (fun a => a = CLK_SRC_STAT i ∨ a = CLK_EVENTS) (FailedFor i cause) where
  setReg {_ a _} ha h := by
    have hs : CLK_SRC_STAT i ≠ a := fun e => ha (Or.inl e.symm)
    exact ⟨(State.get_setReg_other _ _ _ _ hs).trans h.state, (State.get_setReg_other _ _ _ _ hs).trans h.cause,
      (State.get_setReg_other _ _ _ _ hs).trans h.passes, (State.get_setReg_other _ _ _ _ fun e => ha (Or.inr e.symm)).trans h.event⟩
  resetRegs hp h := by
    have hs := hp _ (Or.inl rfl)
    exact ⟨(get_resetRegs_of_not hs).trans h.state, (get_resetRegs_of_not hs).trans h.cause, (get_resetRegs_of_not hs).trans h.passes,
      (get_resetRegs_of_not (hp _ (Or.inr rfl))).trans h.event⟩
  rest h := ⟨h.state, h.cause, h.passes, h.event⟩
  flt _ h := ⟨h.state, h.cause, h.passes, h.event⟩

theorem failSource_fails {i cause : Nat} (hi : i < 11) (hc : cause < 16)
    (hst : s.get (CLK_SRC_STAT.state i) = 1 ∨ s.get (CLK_SRC_STAT.state i) = 2) :
    FailedFor i cause (failSource i cause s) ∧ (failSource i cause s).clk.slips = s.clk.slips := by
  have hsees : Sees Quiet (FailedFor i cause) := FailedFor.sees.mono (by rintro a (rfl | rfl); exacts [srcStat_quiet hi, by decide])
  have hif : (s.get (CLK_SRC_STAT.state i) == 1 || s.get (CLK_SRC_STAT.state i) == 2) = true := by simpa using hst
  have hw {f : Fld} (h : Nat.ble (f.lo + f.w) 32 = true) : f.lo + f.w ≤ 32 := Nat.le_of_ble_eq_true h
  unfold failSource
  rw [if_pos hif]
  extract_lets sel s1 base s2 s3
  have hs2 : FailedFor i cause (s2.raise CLK_EVENTS.ref_fail) := by
    have hother {g : Fld} (hg : g.addr = CLK_SRC_STAT i) : (s2.raise CLK_EVENTS.ref_fail).get g = s1.get g :=
      (get_raise_other (hg ▸ srcStat_ne (by decide))).trans (State.withClk_get _ _ _)
    refine ⟨(hother rfl).trans ?_, (hother rfl).trans ?_, (hother rfl).trans ?_, get_raise_same (by decide) (by decide)⟩
    · rw [get_set_of_apart rfl, get_set_of_apart rfl, get_set_of_lt (hw rfl) (by show 3 < 2 ^ 2; decide)]
    · rw [get_set_of_apart rfl, get_set_of_lt (hw rfl) hc]
    · rw [get_set_of_lt (hw rfl) (by show 0 < 2 ^ 4; decide)]
  have hs3 : FailedFor i cause s3 := hsees.fault hs2
  have hslips : s3.clk.slips = s.clk.slips :=  by
    rw [fault_clk, State.raise_clk, clk_withClk]
    show s1.clk.slips = s.clk.slips
    rw [State.set_clk, State.set_clk, State.set_clk]
  refine ⟨of_when hs3 fun h => ?_, ?_⟩
  · have hr : CLK_SRC_STAT i ≠ CLK_RING := srcStat_ne (by decide)
    exact ⟨(get_trimLost hr).trans h.state, (get_trimLost hr).trans h.cause, (get_trimLost hr).trans h.passes,
      (get_trimLost (by decide)).trans h.event⟩
  · exact (when_keeps (fun t => t.clk.slips) trimLost_slips).trans hslips

/-- Another field than those of the failure keeps its value. -/
theorem failSource_get {i cause : Nat} {g : Fld} (hg : Quiet g.addr) (hsrc : g.addr ≠ CLK_SRC_STAT i) (hring : g.addr ≠ CLK_RING)
    (hev : CLK_EVENTS.ref_fail.apart g = true) : (failSource i cause s).get g = s.get g := by
  unfold failSource
  extract_lets sel s1 base s2 s3
  have h1 : s1.get g = s.get g :=
    (State.get_set_other _ _ _ _ hsrc).trans ((State.get_set_other _ _ _ _ hsrc).trans (State.get_set_other _ _ _ _ hsrc))
  have h3 : s3.get g = s.get g := (fault_get hg).trans ((get_set_of_apart hev).trans ((State.withClk_get _ _ _).trans h1))
  exact of_ite (P := fun t => t.get g = s.get g) (of_when (P := fun t => t.get g = s.get g) h3 (get_trimLost hring).trans) rfl

theorem failSource_other {i cause : Nat} (h1 : s.get (CLK_SRC_STAT.state i) ≠ 1) (h2 : s.get (CLK_SRC_STAT.state i) ≠ 2) :
    failSource i cause s = s := if_neg (by simp [h1, h2])

theorem missingEdge_acts (i : Fin 11) :
    (s.get (CLK_SRC_STAT.state i) = 1 ∨ s.get (CLK_SRC_STAT.state i) = 2 → Completes (.missingEdge i) s (fun s' =>
      s'.get (CLK_SRC_STAT.state i) = 3 ∧ s'.get (CLK_SRC_STAT.fail_cause i) = 1 ∧ s'.get (CLK_SRC_STAT.pass_count i) = 0 ∧
      s'.get CLK_EVENTS.ref_fail = 1)) ∧
    (s.get (CLK_SRC_STAT.state i) ≠ 1 → s.get (CLK_SRC_STAT.state i) ≠ 2 → exec (.missingEdge i) s = .next s) := by
  refine ⟨fun hst => ?_, fun h1 h2 => congrArg Host.Outcome.next (failSource_other h1 h2)⟩
  obtain ⟨h, -⟩ := failSource_fails i.isLt (cause := 1) (by decide) hst
  exact ⟨_, rfl, h.state, h.cause, h.passes, h.event⟩

/-! ### Loss of lock -/

/-- `t` is `s` but for the registers listed and the clock's hidden state. -/
def ClockOnly (l : List Nat) (s t : State) : Prop := RegsOnly l s { t with clk := s.clk }

theorem clockOnly_refl {l : List Nat} : ClockOnly l s s := regsOnly_refl
theorem clockOnly_set {l : List Nat} {f : Fld} {n : Nat} (h : ClockOnly l s t) (hf : f.addr ∈ l) : ClockOnly l s (t.set f n) :=
  ⟨onlyRegs_setReg h.1 hf, h.2⟩
theorem clockOnly_withClk {l : List Nat} {c : ClkH} (h : ClockOnly l s t) : ClockOnly l s (t.withClk c) := h

/-- The reports of the last 1000 gates. -/
def recentSlips (s : State) : List (Nat × Nat) := s.clk.slips.filter (fun g => s.clk.gates < g.2 + 1000)

/-- What a report of loss of lock leaves before it is counted. -/
def slipped (s : State) : State := (s.raise CLK_EVENTS.loop_slip).withClk
  { s.clk with slips := (s.get CLK_STATUS.selected, s.clk.gates) :: recentSlips s }

/-- A report counts as the third where two of the last 1000 gates are of the same source. -/
theorem lossOfLock_eq (hlt : s.get CLK_STATUS.selected < 11) : lossOfLock s =
    (slipped s).when (3 ≤ ((slipped s).clk.slips.filter (·.1 == s.get CLK_STATUS.selected)).length && (slipped s).get CLK_RING.state != 0)
      (fun t => failSource (s.get CLK_STATUS.selected) 5
        (t.withClk { t.clk with slips := (slipped s).clk.slips.filter (·.1 != s.get CLK_STATUS.selected) })) := by
  have hne : ¬ (s.get CLK_STATUS.selected == noSource) = true := by simp [noSource]; omega
  exact if_neg hne

theorem slipped_slips : (slipped s).clk.slips = (s.get CLK_STATUS.selected, s.clk.gates) :: recentSlips s := rfl
theorem slipped_count : ((slipped s).clk.slips.filter (·.1 == s.get CLK_STATUS.selected)).length =
    ((recentSlips s).filter (·.1 == s.get CLK_STATUS.selected)).length + 1 := by
  rw [slipped_slips, List.filter_cons_of_pos (by simp), List.length_cons]
theorem slipped_rest : (slipped s).clk.slips.filter (·.1 != s.get CLK_STATUS.selected) = (recentSlips s).filter (·.1 != s.get CLK_STATUS.selected) := by
  rw [slipped_slips, List.filter_cons_of_neg (by simp)]
theorem slipped_event : (slipped s).get CLK_EVENTS.loop_slip = 1 :=
  (State.withClk_get _ _ _).trans (get_raise_same (by decide) (by decide))
theorem slipped_get {g : Fld} (hg : g.addr ≠ CLK_EVENTS) : (slipped s).get g = s.get g :=
  (State.withClk_get _ _ _).trans (get_raise_other hg)

theorem lossOfLock_early (hlt : s.get CLK_STATUS.selected < 11)
    (h : ((recentSlips s).filter (fun g => g.1 == s.get CLK_STATUS.selected)).length < 2) :
    Completes .loopLossOfLock s (fun s' => s'.get CLK_EVENTS.loop_slip = 1 ∧
      s'.clk.slips = (s.get CLK_STATUS.selected, s.clk.gates) :: recentSlips s ∧ RegsOnly [CLK_EVENTS] s { s' with clk := s.clk }) := by
  have hfew : ¬ (3 ≤ ((slipped s).clk.slips.filter (·.1 == s.get CLK_STATUS.selected)).length) := by rw [slipped_count]; omega
  have heq : lossOfLock s = slipped s := by rw [lossOfLock_eq hlt, decide_eq_false hfew, Bool.false_and, State.when_false]
  refine ⟨_, congrArg Host.Outcome.next heq, ?_, ?_, ?_⟩
  · exact slipped_event
  · exact slipped_slips
  · exact clockOnly_withClk (clockOnly_set clockOnly_refl (by decide))

theorem lossOfLock_third (hlt : s.get CLK_STATUS.selected < 11)
    (h : 2 ≤ ((recentSlips s).filter (fun g => g.1 == s.get CLK_STATUS.selected)).length) (hring : s.get CLK_RING.state ≠ 0)
    (hst : s.get (CLK_SRC_STAT.state (s.get CLK_STATUS.selected)) = 2) :
    Completes .loopLossOfLock s (fun s' => s'.get (CLK_SRC_STAT.state (s.get CLK_STATUS.selected)) = 3 ∧
      s'.get (CLK_SRC_STAT.fail_cause (s.get CLK_STATUS.selected)) = 5 ∧ s'.get CLK_EVENTS.loop_slip = 1 ∧
      s'.clk.slips = (recentSlips s).filter (fun g => g.1 != s.get CLK_STATUS.selected)) := by
  have hmany : 3 ≤ ((slipped s).clk.slips.filter (·.1 == s.get CLK_STATUS.selected)).length := by rw [slipped_count]; omega
  have hr : (slipped s).get CLK_RING.state ≠ 0 := by rwa [slipped_get (by decide)]
  have heq := lossOfLock_eq hlt
  rw [decide_eq_true hmany, bne_iff_ne.2 hr, Bool.true_and, State.when_true, slipped_rest] at heq
  have hst' : (slipped s).get (CLK_SRC_STAT.state (s.get CLK_STATUS.selected)) = 2 := by rwa [slipped_get (srcStat_ne (by decide))]
  obtain ⟨hf, hslips⟩ := failSource_fails (s := (slipped s).withClk
    { (slipped s).clk with slips := (recentSlips s).filter (·.1 != s.get CLK_STATUS.selected) }) hlt (cause := 5) (by decide)
    (Or.inr ((State.withClk_get _ _ _).trans hst'))
  exact ⟨_, congrArg Host.Outcome.next heq, hf.state, hf.cause,
    (failSource_get (by decide) (srcStat_ne (by decide)).symm (by decide) rfl).trans ((State.withClk_get _ _ _).trans slipped_event), hslips⟩

/-! ### The watch check -/

theorem pair_setPair_mod {a n : Nat} : (s.setPair a n).pair a = n % 2 ^ 64 := by
  have hne : a ≠ a + 4 := by omega
  simp only [State.pair, State.setPair, regN_setN, if_neg hne, if_true]
  omega
theorem pair_congr {a : Nat} (h : t.reg a = s.reg a) (h' : t.reg (a + 4) = s.reg (a + 4)) : t.pair a = s.pair a := by
  simp only [State.pair, State.regN, h, h']

/-- `t` is `s` but for the registers listed, the clock's hidden state and the ladder's. -/
def LadderOnly (l : List Nat) (s t : State) : Prop := RegsOnly l s { t with clk := s.clk, flt := s.flt }

theorem ladderOnly_refl {l : List Nat} : LadderOnly l s s := regsOnly_refl
theorem ladderOnly_setReg {l : List Nat} {a : Nat} {v : Word} (h : LadderOnly l s t) (ha : a ∈ l) : LadderOnly l s (t.setReg a v) :=
  ⟨onlyRegs_setReg h.1 ha, h.2⟩
theorem ladderOnly_set {l : List Nat} {f : Fld} {n : Nat} (h : LadderOnly l s t) (hf : f.addr ∈ l) : LadderOnly l s (t.set f n) :=
  ladderOnly_setReg h hf
theorem ladderOnly_hidden {l : List Nat} {c : ClkH} {f : FltH} (h : LadderOnly l s t) : LadderOnly l s { t with clk := c, flt := f } := h

theorem ladderOnly_withClk {l : List Nat} {c : ClkH} (h : LadderOnly l s t) : LadderOnly l s (t.withClk c) := h

theorem rungDue_eq (rung fn cause : Nat) : ∃ d, s.rungDue rung fn cause = { s with flt := { s.flt with due := some d } } := by
  unfold State.rungDue
  split
  · next r g c hd =>
    split
    · exact ⟨(r, g, c), by rw [← hd]⟩
    · exact ⟨_, rfl⟩
  · exact ⟨_, rfl⟩

theorem rungDue_reg {rung fn cause a : Nat} : (s.rungDue rung fn cause).reg a = s.reg a := by
  obtain ⟨d, hd⟩ := rungDue_eq (s := s) rung fn cause
  rw [hd]
  rfl
theorem rungDue_due {rung fn cause : Nat} : (s.rungDue rung fn cause).flt.due.isSome := by
  obtain ⟨d, hd⟩ := rungDue_eq (s := s) rung fn cause
  rw [hd]
  rfl
theorem rungDue_ladderOnly {l : List Nat} {rung fn cause : Nat} (h : LadderOnly l s t) : LadderOnly l s (t.rungDue rung fn cause) := by
  obtain ⟨d, hd⟩ := rungDue_eq (s := t) rung fn cause
  rw [hd]
  exact h

theorem trimLost_ladderOnly {l : List Nat} (h : LadderOnly l s t) (hl : CLK_RING ∈ l) : LadderOnly l s (trimLost t) := by
  unfold trimLost
  exact of_ite (ladderOnly_set (ladderOnly_set (ladderOnly_hidden h) hl) hl) h
theorem ringFollow_ladderOnly {l : List Nat} (h : LadderOnly l s t) (hl : CLK_RING ∈ l) : LadderOnly l s (ringFollow t) := by
  unfold ringFollow
  exact of_ite (ladderOnly_hidden (ladderOnly_set h hl)) h

theorem ringFollow_state : (ringFollow s).get CLK_RING.state =
    if s.get CLK_RING.state = 1 ∧ s.get CLK_STATUS.selected < 0x0A then 2 else s.get CLK_RING.state := by
  unfold ringFollow
  by_cases h : s.get CLK_RING.state = 1 ∧ s.get CLK_STATUS.selected < 0x0A
  · rw [if_pos h, if_pos (by simp [h])]
    exact get_set_of_lt (by decide) (by decide)
  · rw [if_neg h, if_neg (by simpa using h)]

/-- An UNPROVEN ring that passes a watch check. -/
def ringPassed (s : State) : State :=
  let s := (s.set CLK_RING.state 1).withClk { s.clk with firstGate := true, lullRing := false }
  ringFollow s

theorem ringPassed_state : (ringPassed s).get CLK_RING.state = if s.get CLK_STATUS.selected < 0x0A then 2 else 1 := by
  have hone : (s.set CLK_RING.state 1).get CLK_RING.state = 1 := get_set_of_lt (by decide) (by decide)
  have hsel : (s.set CLK_RING.state 1).get CLK_STATUS.selected = s.get CLK_STATUS.selected := State.get_set_other _ _ _ _ (by decide)
  refine ringFollow_state.trans ?_
  show (if (s.set CLK_RING.state 1).get CLK_RING.state = 1 ∧ (s.set CLK_RING.state 1).get CLK_STATUS.selected < 0x0A then 2
    else (s.set CLK_RING.state 1).get CLK_RING.state) = _
  simp only [hone, hsel, true_and]

theorem ringPassed_ladderOnly {l : List Nat} (h : LadderOnly l s t) (hl : CLK_RING ∈ l) : LadderOnly l s (ringPassed t) :=
  ringFollow_ladderOnly (ladderOnly_hidden (ladderOnly_set h hl)) hl

/-- The state after 64 watch cycles and a passed check, before the ring and the ladder follow. -/
def checked (s : State) : State := (watchPass 64 s).withClk { s.clk with passed := true }

theorem watchPass_eq (n : Nat) : ∃ f, watchPass n s = { s.setPair DRZ_TICK_LO (s.pair DRZ_TICK_LO + n) with flt := f } := ⟨_, rfl⟩
theorem watchPass_reg {n a : Nat} : (watchPass n s).reg a = (s.setPair DRZ_TICK_LO (s.pair DRZ_TICK_LO + n)).reg a := by
  obtain ⟨f, hf⟩ := watchPass_eq (s := s) n
  rw [hf]
  rfl
theorem watchPass_get {n : Nat} {g : Fld} (hlo : g.addr ≠ DRZ_TICK_LO) (hhi : g.addr ≠ DRZ_TICK_HI) : (watchPass n s).get g = s.get g :=
  congrArg (bitsOf · g.lo g.w) (watchPass_reg.trans ((reg_setN_other hhi).trans (reg_setN_other hlo)))
theorem watchPass_pair {n : Nat} : (watchPass n s).pair DRZ_TICK_LO = (s.pair DRZ_TICK_LO + n) % 2 ^ 64 :=
  (pair_congr watchPass_reg watchPass_reg).trans pair_setPair_mod
theorem watchPass_ladderOnly {n : Nat} {l : List Nat} (hlo : DRZ_TICK_LO ∈ l) (hhi : DRZ_TICK_HI ∈ l) : LadderOnly l s (watchPass n s) := by
  obtain ⟨f, hf⟩ := watchPass_eq (s := s) n
  rw [hf]
  exact ladderOnly_hidden (t := s.setPair DRZ_TICK_LO (s.pair DRZ_TICK_LO + n)) (ladderOnly_setReg (ladderOnly_setReg ladderOnly_refl hlo) hhi)
theorem checked_get {g : Fld} : (checked s).get g = (watchPass 64 s).get g := State.withClk_get _ _ _

/-- The ring after a passed check. -/
def ringChecked (s : State) : State := (checked s).when ((checked s).get CLK_RING.state == 0) ringPassed

theorem watchCheck_inRange {count : Nat} (hlo : 1600 ≤ count) (hhi : count ≤ 2400) : watchCheck count s =
    (ringChecked s).when (s.clk.hold != 0) (·.rungDue 3 0 3) := by
  have hhold : (ringChecked s).clk.hold = s.clk.hold := by
    refine when_keeps (s := checked s) (fun t => t.clk.hold) ?_
    unfold ringPassed ringFollow
    extract_lets t u
    split <;> rfl
  rw [← hhold]
  exact if_pos (by simp [hlo, hhi])

/-- What the ring's block and the tick count are after the check, whatever then falls due. -/
theorem exec_watchCheck {count : Nat} (h : powered s = true) : exec (.watchCheck count) s = .next (watchCheck count s) := by
  obtain ⟨⟨hlow, hpor⟩, hreq⟩ : (s.pwr.low.isNone = true ∧ s.pwr.por = false) ∧ s.pwr.pwrc = false := by simpa [powered] using h
  show execWatchCheck count s = _
  simp [execWatchCheck, hpor, hreq, Option.isNone_iff_eq_none.1 hlow]

theorem checked_ladderOnly {l : List Nat} (hlo : DRZ_TICK_LO ∈ l) (hhi : DRZ_TICK_HI ∈ l) : LadderOnly l s (checked s) :=
  ladderOnly_withClk (watchPass_ladderOnly hlo hhi)

theorem ringChecked_state : (ringChecked s).get CLK_RING.state =
    if s.get CLK_RING.state = 0 then (if s.get CLK_STATUS.selected < 0x0A then 2 else 1) else s.get CLK_RING.state := by
  have hring : (checked s).get CLK_RING.state = s.get CLK_RING.state := checked_get.trans (watchPass_get (by decide) (by decide))
  have hsel : (checked s).get CLK_STATUS.selected = s.get CLK_STATUS.selected := checked_get.trans (watchPass_get (by decide) (by decide))
  unfold ringChecked
  by_cases h : s.get CLK_RING.state = 0
  · rw [if_pos h, hring, beq_iff_eq.2 h, State.when_true, ringPassed_state, hsel]
  · rw [if_neg h, hring, beq_eq_false_iff_ne.2 h, State.when_false, hring]

theorem ringChecked_ladderOnly : LadderOnly [CLK_RING, DRZ_TICK_LO, DRZ_TICK_HI] s (ringChecked s) :=
  of_when (checked_ladderOnly (by decide) (by decide)) fun h => ringPassed_ladderOnly h (by decide)

theorem ringChecked_reg {a : Nat} (ha : a ≠ CLK_RING) : (ringChecked s).reg a = (watchPass 64 s).reg a := by
  have h : LadderOnly [CLK_RING] (checked s) (ringChecked s) := of_when ladderOnly_refl fun h => ringPassed_ladderOnly h (by decide)
  exact (h.1 a (by simpa using ha)).trans (State.withClk_reg _ _ _)

theorem watchCheck_passes {count : Nat} (hp : powered s = true) (hlo : 1600 ≤ count) (hhi : count ≤ 2400) :
    Completes (.watchCheck count) s (fun s' =>
      s'.get CLK_RING.state = (if s.get CLK_RING.state = 0 then (if s.get CLK_STATUS.selected < 0x0A then 2 else 1)
        else s.get CLK_RING.state) ∧
      s'.pair DRZ_TICK_LO = (s.pair DRZ_TICK_LO + 64) % 2 ^ 64 ∧ (s.clk.hold ≠ 0 → s'.flt.due.isSome) ∧
      RegsOnly [CLK_RING, DRZ_TICK_LO, DRZ_TICK_HI] s { s' with clk := s.clk, flt := s.flt }) := by
  refine ⟨_, (exec_watchCheck hp).trans (congrArg Host.Outcome.next (watchCheck_inRange hlo hhi)), ?_, ?_, fun hhold => ?_, ?_⟩
  · exact (when_keeps (fun t => t.get CLK_RING.state) (congrArg (bitsOf · _ _) rungDue_reg)).trans ringChecked_state
  · have hreg {a : Nat} (ha : a ≠ CLK_RING) :
        ((ringChecked s).when (s.clk.hold != 0) (·.rungDue 3 0 3)).reg a = (watchPass 64 s).reg a :=
      (when_keeps (fun t => t.reg a) rungDue_reg).trans (ringChecked_reg ha)
    exact (pair_congr (hreg (by decide)) (hreg (by decide))).trans watchPass_pair
  · rw [bne_iff_ne.2 hhold, State.when_true]
    exact rungDue_due
  · exact of_when (P := LadderOnly _ s) ringChecked_ladderOnly rungDue_ladderOnly

/-! ### A check out of range -/

theorem trimLost_stat {i : Nat} : (trimLost s).get (CLK_SRC_STAT.state i) = s.get (CLK_SRC_STAT.state i) := get_trimLost (srcStat_ne (by decide))

theorem watchCheck_fails {count : Nat} (hp : powered s = true) (h : count < 1600 ∨ 2400 < count) :
    Completes (.watchCheck count) s (fun s' =>
      s'.get CLK_RING.state = 0 ∧ s'.get CLK_EVENTS.ring_fail = 1 ∧ s'.pair DRZ_TICK_LO = (s.pair DRZ_TICK_LO + 64) % 2 ^ 64 ∧
      (∀ i : Fin 11, s'.clk.held[i] = (s.get (CLK_SRC_STAT.state i) == 2)) ∧
      RegsOnly [CLK_RING, CLK_EVENTS, DRZ_TICK_LO, DRZ_TICK_HI] s { s' with clk := s.clk, flt := s.flt }) := by
  have heq : watchCheck count s = ringRestart (watchPass 64 s) := if_neg (by simp; omega)
  refine ⟨_, (exec_watchCheck hp).trans (congrArg Host.Outcome.next heq), ?_, ?_, ?_, fun i => ?_, ?_⟩
  · exact (State.withClk_get _ _ _).trans ((get_raise_other (by decide)).trans (get_set_of_lt (by decide) (by decide)))
  · exact (State.withClk_get _ _ _).trans (get_raise_same (by decide) (by decide))
  · have hreg {a : Nat} (ha : a ≠ CLK_RING) (he : a ≠ CLK_EVENTS) : (ringRestart (watchPass 64 s)).reg a = (watchPass 64 s).reg a :=
      (State.withClk_reg _ _ _).trans ((reg_raise_other he).trans ((reg_set_other ha).trans (reg_trimLost ha)))
    exact (pair_congr (hreg (by decide) (by decide)) (hreg (by decide) (by decide))).trans watchPass_pair
  · have hstat : ((((trimLost (watchPass 64 s)).set CLK_RING.state 0).raise CLK_EVENTS.ring_fail)).get (CLK_SRC_STAT.state i) =
        s.get (CLK_SRC_STAT.state i) :=
      (get_raise_other (srcStat_ne (by decide))).trans ((State.get_set_other _ _ _ _ (srcStat_ne (by decide))).trans
        (trimLost_stat.trans (watchPass_get (srcStat_ne (by decide)) (srcStat_ne (by decide)))))
    rw [← hstat]
    exact Vector.getElem_ofFn _
  · exact ladderOnly_withClk (ladderOnly_set (f := CLK_EVENTS.ring_fail) (ladderOnly_set (f := CLK_RING.state)
      (trimLost_ladderOnly (watchPass_ladderOnly (by decide) (by decide)) (by decide)) (by decide)) (by decide))

end Sys2Proof.Machine
end

section
/-!
O30, second part: the monitor's gate (R53, R54). The judgement of one source does not bear on another (`SameSource`), so the gate leaves
each source as its own judgement does; O30 follows.
-/
namespace Sys2Proof.Machine
open Sys2Proof
variable {s t : State} {i : Nat}

/-! ### The monitor's gate -/

/-- Source `i` has the nominal count `nom`, and a lane has its link (R53, R262). -/
structure Present (i nom : Nat) (s : State) : Prop where
  nominal : nominal16 s i = some nom
  link : i < 8 → s.get (PORT_CFG.role i) ≠ 0 ∧ domOn s (domLane i) = true ∧ atD s.clk.linkDown i false = false

/-- From `s` to `t` nothing that source `i` is judged by has changed: its status but for the deviation, the registers of its lane and
frequency, whether it waits for its first gate, and a raised REF_FAIL stays raised. -/
structure SameSource (i : Nat) (s t : State) : Prop where
  stat : ∀ {f : Fld}, f.addr = CLK_SRC_STAT i → f.lo + f.w ≤ 16 → t.get f = s.get f
  regs : ∀ {a : Nat}, a = PORT_CFG i ∨ a = PWR_DOM_STAT (domLane i) ∨ a = CLK_REF_CFG → t.reg a = s.reg a
  held : atD t.clk.held i false = atD s.clk.held i false
  links : t.clk.hold = s.clk.hold ∧ t.clk.linkDown = s.clk.linkDown
  event : s.get CLK_EVENTS.ref_fail = 1 → t.get CLK_EVENTS.ref_fail = 1

/-- The registers a `SameSource` looks at. -/
abbrev Judged (i a : Nat) : Prop := a = CLK_SRC_STAT i ∨ a = CLK_EVENTS ∨ a = PORT_CFG i ∨ a = PWR_DOM_STAT (domLane i) ∨ a = CLK_REF_CFG

namespace SameSource
variable {i : Nat}

theorem refl : SameSource i s s := ⟨fun _ _ => rfl, fun _ => rfl, rfl, ⟨rfl, rfl⟩, id⟩

theorem trans {u : State} (h : SameSource i s t) (h' : SameSource i t u) : SameSource i s u :=
  ⟨fun hf hb => (h'.stat hf hb).trans (h.stat hf hb), fun ha => (h'.regs ha).trans (h.regs ha), h'.held.trans h.held,
    ⟨h'.links.1.trans h.links.1, h'.links.2.trans h.links.2⟩, fun he => h'.event (h.event he)⟩

theorem sees : Sees (Judged i) (SameSource i s) where
  setReg {_ a _} ha h := by
    have hne {b : Nat} (hb : Judged i b) : b ≠ a := fun e => ha (e ▸ hb)
    exact ⟨fun hf hb => (State.get_setReg_other _ _ _ _ (hne (Or.inl hf))).trans (h.stat hf hb),
      fun hb => (reg_setReg_other (hne (Or.inr (Or.inr hb)))).trans (h.regs hb), h.held, h.links,
      fun he => (State.get_setReg_other _ _ _ _ (hne (Or.inr (Or.inl rfl)))).trans (h.event he)⟩
  resetRegs hp h :=
    ⟨fun hf hb => (get_resetRegs_of_not (hp _ (Or.inl hf))).trans (h.stat hf hb),
      fun hb => (reg_resetRegs_of_not (hp _ (Or.inr (Or.inr hb)))).trans (h.regs hb), h.held, h.links,
      fun he => (get_resetRegs_of_not (hp _ (Or.inr (Or.inl rfl)))).trans (h.event he)⟩
  rest h := ⟨h.stat, h.regs, h.held, h.links, h.event⟩
  flt _ h := ⟨h.stat, h.regs, h.held, h.links, h.event⟩

theorem quiet (hi : i < 11) : ∀ a, Judged i a → Quiet a := by
  rintro a (rfl | rfl | rfl | rfl | rfl)
  · exact srcStat_quiet hi
  · decide
  · exact Or.inr (Or.inr ⟨by unfold PORT_CFG; omega, by unfold PORT_CFG; omega⟩)
  · exact Or.inl (by unfold PWR_DOM_STAT domLane; omega)
  · decide

/-- Another source's status is not looked at. -/
theorem not_judged {j : Nat} (hi : i < 11) (hj : j < 11) (hne : j ≠ i) : ¬ Judged i (CLK_SRC_STAT j) := by
  unfold Judged CLK_SRC_STAT PORT_CFG PWR_DOM_STAT domLane CLK_EVENTS CLK_REF_CFG
  omega

theorem ring_not_judged (hi : i < 11) : ¬ Judged i CLK_RING := by
  unfold Judged CLK_SRC_STAT PORT_CFG PWR_DOM_STAT domLane CLK_EVENTS CLK_REF_CFG CLK_RING
  omega

theorem withClk {c : ClkH} (h : SameSource i s t) (hheld : atD c.held i false = atD t.clk.held i false)
    (hhold : c.hold = t.clk.hold := by rfl) (hlink : c.linkDown = t.clk.linkDown := by rfl) : SameSource i s (t.withClk c) :=
  ⟨h.stat, h.regs, hheld.trans h.held, ⟨hhold.trans h.links.1, hlink.trans h.links.2⟩, h.event⟩

theorem raiseEvent {f : Fld} (hi : i < 11) (h : SameSource i s t) (hf : f.addr = CLK_EVENTS)
    (hb : f = CLK_EVENTS.ref_fail ∨ f.apart CLK_EVENTS.ref_fail = true) : SameSource i s (t.raise f) := by
  refine ⟨fun hg hb => (get_raise_other ?_).trans (h.stat hg hb), fun ha => (reg_raise_other ?_).trans (h.regs ha), h.held, h.links, fun he => ?_⟩
  · rw [hg, hf]
    exact srcStat_ne (by decide)
  · rw [hf]
    unfold CLK_REF_CFG PORT_CFG PWR_DOM_STAT domLane at ha
    unfold CLK_EVENTS
    omega
  · rcases hb with rfl | hb
    · exact get_raise_same (by decide) (by decide)
    · exact (get_set_of_apart hb).trans (h.event he)

theorem present {nom : Nat} (h : SameSource i s t) (hp : Present i nom s) : Present i nom t := by
  have hget {f : Fld} (hf : f.addr = PORT_CFG i ∨ f.addr = PWR_DOM_STAT (domLane i) ∨ f.addr = CLK_REF_CFG) : t.get f = s.get f :=
    congrArg (bitsOf · f.lo f.w) (h.regs hf)
  refine ⟨?_, fun hlt => ?_⟩
  · rw [← hp.nominal]
    unfold nominal16
    rw [hget (Or.inl rfl), hget (f := CLK_REF_CFG.refin_freq) (Or.inr (Or.inr rfl))]
  · obtain ⟨hrole, hdom, hlink⟩ := hp.link hlt
    refine ⟨by rwa [hget (Or.inl rfl)], ?_, by rwa [h.links.2]⟩
    rw [← hdom]
    unfold domOn live State.is
    rw [hget (f := PWR_DOM_STAT.state _) (Or.inr (Or.inl rfl)), hget (f := PWR_DOM_STAT.clamped _) (Or.inr (Or.inl rfl)), h.links.1]

theorem trimLost (hi : i < 11) (h : SameSource i s t) : SameSource i s (trimLost t) :=
  of_ite (sees.set (ring_not_judged hi) (sees.set (ring_not_judged hi) (h.withClk rfl))) h

theorem atD_other {α : Type} {v : Vector α 11} {f : α → α} {j : Nat} {d : α} (hj : j < 11) (hne : j ≠ i) : atD (updAt v j f) i d = atD v i d := by
  rw [atD_updAt _ _ _ _ _ hj, if_neg hne.symm]

theorem failSource {j cause : Nat} (hi : i < 11) (hj : j < 11) (hne : j ≠ i) (h : SameSource i s t) : SameSource i s (failSource j cause t) := by
  unfold Machine.failSource
  extract_lets sel s1 base s2 s3
  have hn := not_judged hi hj hne
  have h1 : SameSource i s s1 := sees.set hn (sees.set hn (sees.set hn h))
  have h2 : SameSource i s s2 := h1.withClk (atD_other hj hne)
  have h3 : SameSource i s s3 := (sees.mono (quiet hi)).fault (h2.raiseEvent hi rfl (Or.inl rfl))
  exact of_ite (of_when h3 (trimLost hi)) h

theorem proveSource {j : Nat} (hi : i < 11) (hj : j < 11) (hne : j ≠ i) (h : SameSource i s t) : SameSource i s (proveSource j t) :=
  raiseEvent hi (withClk (sees.set (not_judged hi hj hne) h) rfl) rfl (Or.inr rfl)

/-- Another source's judgement. -/
theorem judgeSource {ring : Nat} {est : Int} {j edges : Nat} {link : Bool} (hi : i < 11) (hj : j < 11) (hne : j ≠ i) (h : SameSource i s t) :
    SameSource i s (judgeSource ring est j edges link t) := by
  unfold Machine.judgeSource
  extract_lets noLink nom dev cause s1 base s2 base1 s3 s4 base2
  have hset {u : State} {f : Fld} {n : Nat} (hf : f.addr = CLK_SRC_STAT j) (hu : SameSource i s u) : SameSource i s (u.set f n) :=
    sees.set (hf ▸ not_judged hi hj hne) hu
  have h1 : SameSource i s s1 := of_when h (hset rfl)
  have h3 : SameSource i s s3 := (h1.withClk rfl).withClk rfl
  have h4 : SameSource i s s4 := hset rfl h3
  split
  · exact of_when h3 fun hu => hset rfl (hset rfl hu)
  · exact of_ite h3 (of_ite (h3.failSource hi hj hne) (of_when h4 (proveSource hi hj hne)))
  · exact of_ite h3 (of_ite (h3.failSource hi hj hne) (h4.withClk (atD_other hj hne)))
  · exact of_ite (hset rfl h3) (of_when h3 fun hu => hset rfl (hset rfl hu))

theorem ringGate {trim est : Nat} (hi : i < 11) (h : SameSource i s t) : SameSource i s (ringGate trim est t) := by
  have hset {u : State} {f : Fld} {n : Nat} (hf : f.addr = CLK_RING) (hu : SameSource i s u) : SameSource i s (u.set f n) :=
    sees.set (hf ▸ ring_not_judged hi) hu
  unfold Machine.ringGate
  extract_lets old bit new base s1 new1 err move s2
  split
  · have h1 : SameSource i s s1 := (hset (f := CLK_RING.trim) rfl h).withClk rfl
    exact of_ite (raiseEvent hi (hset rfl (hset rfl h1)) rfl (Or.inr rfl)) h1
  · exact hset rfl (hset rfl (h.withClk rfl))
  · exact h

end SameSource

/-! ### A source's own judgement -/

/-- The deviation of a source's count from its nominal, in units of the nominal over 10^6. -/
def gateDeviation (ring : Nat) (est : Int) (edges nom : Nat) : Int :=
  16 * (edges : Int) * 1000000 - nom * (1000000 - (if ring = 3 then est else 0))

/-- The count is within the bound that the ring's state sets (R53). -/
def GateWithin (ring : Nat) (est : Int) (edges nom : Nat) : Prop :=
  (gateDeviation ring est edges nom).natAbs ≤ nom * (if ring = 3 then 200 else 150000)

/-- The cause a count out of its bound has. -/
theorem gateCause_eq {ring nom : Nat} {d : Int} (h0 : ring ≠ 0) (h3 : ring ≤ 3) :
    (if (ring == 3 && decide ((nom : Int) * 200 < d.natAbs)) = true then 2
      else if ((ring == 1 || ring == 2) && decide ((nom : Int) * 150000 < d.natAbs)) = true then 3 else 0) =
    if d.natAbs ≤ nom * (if ring = 3 then 200 else 150000) then 0 else if ring = 3 then 2 else 3 := by
  generalize d.natAbs = a
  have hfine : ((nom : Int) * 200 < a) ↔ ¬ a ≤ nom * 200 := by omega
  have hcoarse : ((nom : Int) * 150000 < a) ↔ ¬ a ≤ nom * 150000 := by omega
  simp only [hfine, hcoarse]
  obtain rfl | rfl | rfl : ring = 1 ∨ ring = 2 ∨ ring = 3 := by omega
  · by_cases h : a ≤ nom * 150000 <;> simp [h]
  · by_cases h : a ≤ nom * 150000 <;> simp [h]
  · by_cases h : a ≤ nom * 200 <;> simp [h]

theorem SameSource.setDeviation {n : Nat} (hi : i < 11) (h : SameSource i s t) : SameSource i s (t.set (CLK_SRC_STAT.deviation_ppm i) n) :=
  ⟨fun hf hb => (State.get_set_apart _ _ _ _ (Nat.le_of_ble_eq_true rfl) (Or.inl hb)).trans (h.stat hf hb),
    fun ha => (reg_set_other (by
      show _ ≠ CLK_SRC_STAT i
      unfold PORT_CFG PWR_DOM_STAT domLane CLK_REF_CFG at ha
      unfold CLK_SRC_STAT
      omega)).trans (h.regs ha), by rw [State.set_clk]; exact h.held, by rw [State.set_clk]; exact h.links,
    fun he => (State.get_set_other _ _ _ _ (srcStat_ne (by decide)).symm).trans (h.event he)⟩

/-- What the judgement of source `i` makes of it, from a state `u` that differs in the counts alone. -/
theorem judgeSource_cases {ring edges nom : Nat} {est : Int} {link : Bool} (hi : i < 11) (hp : Present i nom s)
    (hlink : i < 8 → link = true) (h0 : ring ≠ 0) (h3 : ring ≤ 3) :
    let j := judgeSource ring est i edges link s
    let st := s.get (CLK_SRC_STAT.state i)
    let n := Nat.min 8 (s.get (CLK_SRC_STAT.pass_count i) + 1)
    let cause := if ring = 3 then 2 else 3
    ∃ u, SameSource i s u ∧
      (st = 0 → edges ≠ 0 → j = (u.set (CLK_SRC_STAT.state i) 1).set (CLK_SRC_STAT.pass_count i) 0) ∧
      (st = 1 → GateWithin ring est edges nom → j = (u.set (CLK_SRC_STAT.pass_count i) n).when
        ((u.set (CLK_SRC_STAT.pass_count i) n).get (CLK_SRC_STAT.pass_count i) == 8) (proveSource i)) ∧
      (st = 2 → GateWithin ring est edges nom → j = (u.set (CLK_SRC_STAT.pass_count i) n).withClk
        { (u.set (CLK_SRC_STAT.pass_count i) n).clk with
          held := updAt (u.set (CLK_SRC_STAT.pass_count i) n).clk.held i (fun _ => false) }) ∧
      (st = 1 → ¬ GateWithin ring est edges nom → j = failSource i cause u) ∧
      (st = 2 → ¬ GateWithin ring est edges nom → j = failSource i (if atD s.clk.held i false then 6 else cause) u) := by
  intro j st n cause
  have hj : j = judgeSource ring est i edges link s := rfl
  unfold judgeSource at hj
  extract_lets noLink inom dev code s1 base s2 base1 s3 s4 base2 at hj
  have hno : noLink = false := by
    by_cases hlt : i < 8
    · obtain ⟨hrole, hdom, hdown⟩ := hp.link hlt
      simp [noLink, hlink hlt, hrole, hdom, hdown]
    · simp [noLink, hlt]
  have hnom : inom = nom := by simp [inom, hp.nominal]
  have hdev : dev = gateDeviation ring est edges nom := by simp [dev, hnom, gateDeviation]
  have hcode : code = if (gateDeviation ring est edges nom).natAbs ≤ nom * (if ring = 3 then 200 else 150000) then 0 else cause := by
    simp only [code, hno, hp.nominal, hdev, hnom, Option.isNone_some, Bool.false_eq_true, if_false]
    exact gateCause_eq h0 h3
  have hok (hw : GateWithin ring est edges nom) : (code != 0) = false := by rw [hcode, if_pos (show _ ≤ _ from hw), bne_self_eq_false]
  have hcause : cause ≠ 0 := by simp only [cause]; split <;> decide
  have hbad (hw : ¬ GateWithin ring est edges nom) : code = cause := by rw [hcode, if_neg (show ¬ _ ≤ _ from hw)]
  have hu : SameSource i s s3 := ((of_when SameSource.refl fun h => h.setDeviation hi : SameSource i s s1).withClk rfl).withClk rfl
  have hst : s3.get (CLK_SRC_STAT.state i) = st := hu.stat rfl (Nat.le_of_ble_eq_true rfl)
  have hpass : s3.get (CLK_SRC_STAT.pass_count i) = s.get (CLK_SRC_STAT.pass_count i) := hu.stat rfl (Nat.le_of_ble_eq_true rfl)
  have hn : min 8 (s.get (CLK_SRC_STAT.pass_count i) + 1) = n := rfl
  have hring : (ring == 0) = false := beq_eq_false_iff_ne.2 h0
  rw [hst] at hj
  have hheld : atD s3.clk.held i false = atD s.clk.held i false := hu.held
  refine ⟨s3, hu, fun h he => ?_, fun h hw => ?_, fun h hw => ?_, fun h hw => ?_, fun h hw => ?_⟩
  · simp only [hj, h, hno, bne_iff_ne.2 he, Bool.not_false, Bool.and_self, State.when_true]
  · simp only [hj, h, hring, hok hw, Bool.false_eq_true, if_false, s4, hpass, hn]
  · simp only [hj, h, hring, hok hw, Bool.false_eq_true, if_false, s4, base2, hpass, hn]
  · simp only [hj, h, hring, hbad hw, bne_iff_ne.2 hcause, Bool.false_eq_true, if_false, if_true]
  · simp only [hj, h, hring, hbad hw, bne_iff_ne.2 hcause, Bool.false_eq_true, if_false, if_true, hheld]

theorem identifyRefin_cases (edges : Nat) : identifyRefin edges s = s ∨ ∃ c, s.get CLK_REF_CFG.refin_freq = 0xFF ∧
    identifyRefin edges s = (s.set CLK_REF_CFG.refin_freq c).withClk { s.clk with bootRefin := c } := by
  unfold identifyRefin
  extract_lets near codes base
  split
  · next c n _ =>
    by_cases h : (s.is CLK_STATUS.boot_list && s.get CLK_REF_CFG.refin_freq == 0xFF && s.get CLK_RING.state != 0) = true
    · rw [if_pos h]
      simp only [Bool.and_eq_true, beq_iff_eq] at h
      exact Or.inr ⟨c, h.1.2, rfl⟩
    · exact Or.inl (if_neg h)
  · exact Or.inl rfl

/-- The frequency the boot list finds for REFIN is none of a source that has a nominal count already. -/
theorem identifyRefin_keeps {i nom : Nat} (edges : Nat) (hi : i < 11) (hp : Present i nom s) :
    Present i nom (identifyRefin edges s) ∧ (∀ {f : Fld}, f.addr ≠ CLK_REF_CFG → (identifyRefin edges s).get f = s.get f) ∧
      (identifyRefin edges s).clk.held = s.clk.held := by
  rcases identifyRefin_cases (s := s) edges with h | ⟨c, hff, h⟩
  · rw [h]
    exact ⟨hp, fun _ => rfl, rfl⟩
  · have hget {f : Fld} (hf : f.addr ≠ CLK_REF_CFG) : (identifyRefin edges s).get f = s.get f := by
      rw [h, State.withClk_get, State.get_set_other _ _ _ _ hf]
    refine ⟨⟨?_, fun hlt => ?_⟩, hget, by rw [h]; rfl⟩
    · have hrefin : i ≠ 8 := by
        rintro rfl
        have hnom := hp.nominal
        simp [nominal16, hff] at hnom
      have hmode : (identifyRefin edges s).get (PORT_CFG.line_mode i) = s.get (PORT_CFG.line_mode i) :=
        hget (by show PORT_CFG i ≠ CLK_REF_CFG; unfold PORT_CFG CLK_REF_CFG; omega)
      rw [← hp.nominal]
      simp [nominal16, hrefin, hmode]
    · obtain ⟨hrole, hdom, hdown⟩ := hp.link hlt
      have hd {f : Fld} (hf : f.addr = PWR_DOM_STAT (domLane i)) : (identifyRefin edges s).get f = s.get f :=
        hget (by rw [hf]; unfold PWR_DOM_STAT domLane CLK_REF_CFG; omega)
      have hhold : (identifyRefin edges s).clk.hold = s.clk.hold := by rw [h]; rfl
      refine ⟨?_, ?_, ?_⟩
      · rwa [hget (by show PORT_CFG i ≠ CLK_REF_CFG; unfold PORT_CFG CLK_REF_CFG; omega)]
      · rw [← hdom]
        unfold domOn live State.is
        rw [hd rfl, hd rfl, hhold]
      · rw [h]
        exact hdown

/-- The judgement of source `j` in a gate. -/
def gateJudge (edges : Vector Nat 11) (links : BitVec 8) (ring : Nat) (est : Int) (j : Fin 11) : State → State :=
  judgeSource ring est j edges[j] (links.getLsbD j)

/-- `t` has the state, the passes and the cause of source `i` as `s` has them, and whether it waits for its first gate. -/
structure SourceAs (i : Nat) (s t : State) : Prop where
  stat : ∀ {f : Fld}, f.addr = CLK_SRC_STAT i → f.lo + f.w ≤ 16 → t.get f = s.get f
  held : atD t.clk.held i false = atD s.clk.held i false
  event : s.get CLK_EVENTS.ref_fail = 1 → t.get CLK_EVENTS.ref_fail = 1

theorem SourceAs.get {i : Nat} (h : SourceAs i s t) {f : Fld} (hf : f.addr = CLK_SRC_STAT i) (hb : Nat.ble (f.lo + f.w) 16 = true) :
    t.get f = s.get f := h.stat hf (Nat.le_of_ble_eq_true hb)
theorem SourceAs.trans {i : Nat} {u : State} (h : SourceAs i s t) (h' : SourceAs i t u) : SourceAs i s u :=
  ⟨fun hf hb => (h'.stat hf hb).trans (h.stat hf hb), h'.held.trans h.held, fun he => h'.event (h.event he)⟩
theorem SameSource.sourceAs {i : Nat} (h : SameSource i s t) : SourceAs i s t := ⟨h.stat, h.held, h.event⟩

/-- The gate judges each source once, and no other judgement bears on it. -/
theorem monitorGate_source {edges : Vector Nat 11} {links : BitVec 8} {watch trim est nom : Nat} (i : Fin 11) (hp : Present i nom s) :
    ∃ u, Present i nom u ∧ SourceAs i s u ∧
      SourceAs i (gateJudge edges links (s.get CLK_RING.state) (signedN 16 (s.get CLK_RING.error_ppm)) i u)
        (monitorGate edges links watch trim est s) := by
  obtain ⟨l, r, hl, hnd⟩ : ∃ l r, List.finRange 11 = l ++ i :: r ∧ ∀ j, j ∈ l ∨ j ∈ r → j ≠ i := by
    obtain ⟨l, r, h⟩ := List.append_of_mem (List.mem_finRange i)
    refine ⟨l, r, h, ?_⟩
    have hn := List.nodup_finRange 11
    rw [h, List.nodup_append] at hn
    obtain ⟨-, hr, hlr⟩ := hn
    rintro j (hj | hj) rfl
    · exact hlr j hj j (by simp) rfl
    · exact (List.nodup_cons.1 hr).1 hj
  obtain ⟨hpres, hget, hheld⟩ := identifyRefin_keeps edges[8] i.isLt hp
  unfold monitorGate
  extract_lets ring s1 ringErr s2 s3 wbad base s4
  have herr : ringErr = signedN 16 (s.get CLK_RING.error_ppm) := congrArg (signedN 16) (hget (by decide))
  have others {u v : State} {k : List (Fin 11)} (hk : ∀ j ∈ k, j ≠ i) (h : SameSource i u v) : SameSource i u (v.forEach k (gateJudge edges links ring ringErr)) :=
    of_forEach h fun j hj v hv => hv.judgeSource i.isLt j.isLt fun e => hk j hj (Fin.ext e)
  have hu : SameSource i s1 (s1.forEach l (gateJudge edges links ring ringErr)) := others (fun j hj => hnd j (Or.inl hj)) SameSource.refl
  have hs1 : SourceAs i s s1 := ⟨fun hf _ => hget (hf ▸ srcStat_ne (by decide)), by rw [hheld], fun he => (hget (by decide)).trans he⟩
  refine ⟨_, hu.present hpres, hs1.trans hu.sourceAs, ?_⟩
  rw [← herr]
  have hs2 : s2 = (gateJudge edges links ring ringErr i (s1.forEach l (gateJudge edges links ring ringErr))).forEach r
      (gateJudge edges links ring ringErr) := by
    show s1.forEach (List.finRange 11) (gateJudge edges links ring ringErr) = _
    rw [hl, forEach_append]
    rfl
  have h2 : SameSource i _ s2 := hs2 ▸ others (fun j hj => hnd j (Or.inr hj)) SameSource.refl
  have h3 := (h2.ringGate (trim := trim) (est := est) i.isLt).sourceAs
  have h4 : SourceAs i _ s4 := ⟨h3.stat, h3.held, h3.event⟩
  refine of_when h4 fun h => h.trans (SameSource.sourceAs ?_)
  exact (SameSource.sees.mono (SameSource.quiet i.isLt)).fault (SameSource.refl.raiseEvent i.isLt rfl (Or.inr rfl))

theorem proveSource_state {i : Nat} : (proveSource i s).get (CLK_SRC_STAT.state i) = 2 :=
  (get_raise_other (srcStat_ne (by decide))).trans ((State.withClk_get _ _ _).trans
    (get_set_of_lt (Nat.le_of_ble_eq_true rfl) (by show 2 < 2 ^ 2; decide)))
theorem proveSource_passes {i : Nat} : (proveSource i s).get (CLK_SRC_STAT.pass_count i) = s.get (CLK_SRC_STAT.pass_count i) :=
  (get_raise_other (srcStat_ne (by decide))).trans ((State.withClk_get _ _ _).trans (get_set_of_apart rfl))

theorem atD_fin {α : Type} {n : Nat} (v : Vector α n) (i : Fin n) (d : α) : atD v i d = v[i] := dif_pos i.isLt

theorem exec_monitorGate {edges : Vector Nat 11} {links : BitVec 8} {watch trim est : Nat} (h : s.clk.hold = 0) :
    exec (.monitorGate edges links watch trim est) s = .next (monitorGate edges links watch trim est s) := by
  show execMonitorGate edges links watch trim est s = _
  simp [execMonitorGate, h]

section
variable {i nom ring edges : Nat} {est : Int} {link : Bool} (hi : i < 11) (hp : Present i nom s) (hlink : i < 8 → link = true)
  (h0 : ring ≠ 0) (h3 : ring ≤ 3) (ht : SourceAs i (judgeSource ring est i edges link s) t)
include hi hp hlink h0 h3 ht

theorem judged_absent (hst : s.get (CLK_SRC_STAT.state i) = 0) (he : edges ≠ 0) :
    t.get (CLK_SRC_STAT.state i) = 1 ∧ t.get (CLK_SRC_STAT.pass_count i) = 0 := by
  obtain ⟨u, -, hj, -⟩ := judgeSource_cases (est := est) (edges := edges) hi hp hlink h0 h3
  rw [ht.get rfl rfl, ht.get rfl rfl, hj hst he]
  refine ⟨?_, get_set_of_lt (Nat.le_of_ble_eq_true rfl) (by show 0 < 2 ^ 4; decide)⟩
  rw [get_set_of_apart rfl, get_set_of_lt (Nat.le_of_ble_eq_true rfl) (by show 1 < 2 ^ 2; decide)]

theorem judged_proving {n : Nat} (hst : s.get (CLK_SRC_STAT.state i) = 1) (hw : GateWithin ring est edges nom)
    (hn : Nat.min 8 (s.get (CLK_SRC_STAT.pass_count i) + 1) = n) :
    t.get (CLK_SRC_STAT.state i) = (if n = 8 then 2 else 1) ∧ t.get (CLK_SRC_STAT.pass_count i) = n := by
  obtain ⟨u, hu, -, hj, -⟩ := judgeSource_cases (est := est) (edges := edges) hi hp hlink h0 h3
  have hlt : n ≤ 8 := hn ▸ Nat.min_le_left _ _
  have hpass : (u.set (CLK_SRC_STAT.pass_count i) n).get (CLK_SRC_STAT.pass_count i) = n :=
    get_set_of_lt (Nat.le_of_ble_eq_true rfl) (by show n < 2 ^ 4; omega)
  rw [ht.get rfl rfl, ht.get rfl rfl, hj hst hw, hn, hpass]
  by_cases h8 : n = 8
  · rw [if_pos h8, beq_iff_eq.2 h8, State.when_true, proveSource_state, proveSource_passes, hpass]
    exact ⟨rfl, rfl⟩
  · rw [if_neg h8, beq_eq_false_iff_ne.2 h8, State.when_false, hpass, get_set_of_apart rfl, hu.sourceAs.get rfl rfl]
    exact ⟨hst, rfl⟩

theorem judged_proven (hst : s.get (CLK_SRC_STAT.state i) = 2) (hw : GateWithin ring est edges nom) :
    t.get (CLK_SRC_STAT.state i) = 2 ∧ t.get (CLK_SRC_STAT.pass_count i) = Nat.min 8 (s.get (CLK_SRC_STAT.pass_count i) + 1) ∧
      atD t.clk.held i false = false := by
  obtain ⟨u, hu, -, -, hj, -⟩ := judgeSource_cases (est := est) (edges := edges) hi hp hlink h0 h3
  rw [ht.get rfl rfl, ht.get rfl rfl, ht.held, hj hst hw]
  refine ⟨?_, ?_, (atD_updAt _ _ _ _ _ hi).trans (if_pos rfl)⟩
  · rw [State.withClk_get, get_set_of_apart rfl, hu.sourceAs.get rfl rfl, hst]
  · have hlt : Nat.min 8 (s.get (CLK_SRC_STAT.pass_count i) + 1) ≤ 8 := Nat.min_le_left _ _
    rw [State.withClk_get, get_set_of_lt (Nat.le_of_ble_eq_true rfl) (by show _ < 2 ^ 4; omega)]

theorem judged_fails (hst : s.get (CLK_SRC_STAT.state i) = 1 ∨ s.get (CLK_SRC_STAT.state i) = 2) (hw : ¬ GateWithin ring est edges nom) :
    FailedFor i (if s.get (CLK_SRC_STAT.state i) = 2 ∧ atD s.clk.held i false = true then 6 else if ring = 3 then 2 else 3) t := by
  obtain ⟨u, hu, -, -, -, hj1, hj2⟩ := judgeSource_cases (est := est) (edges := edges) hi hp hlink h0 h3
  have hfailed {cause : Nat} (hc : cause ≤ 6) (hj : judgeSource ring est i edges link s = failSource i cause u) : FailedFor i cause t := by
    obtain ⟨hf, -⟩ := failSource_fails (s := u) (cause := cause) hi (by omega) (by rwa [hu.sourceAs.get rfl rfl])
    rw [← hj] at hf
    exact ⟨(ht.get rfl rfl).trans hf.state, (ht.get rfl rfl).trans hf.cause, (ht.get rfl rfl).trans hf.passes, ht.event hf.event⟩
  have hcause : (if ring = 3 then 2 else 3) ≤ 6 := by split <;> decide
  by_cases h2 : s.get (CLK_SRC_STAT.state i) = 2
  · have h := hfailed (by split <;> omega) (hj2 h2 hw)
    simpa only [h2, true_and] using h
  · rw [if_neg (fun h => h2 h.1)]
    exact hfailed hcause (hj1 (hst.resolve_right h2) hw)

end

/-- What the gate makes of source `i`, by its state and count. -/
theorem monitorGate_acts {edges : Vector Nat 11} {links : BitVec 8} {watch trim est nom : Nat} (i : Fin 11) (hhold : s.clk.hold = 0)
    (hp : Present i nom s) (hlink : i.val < 8 → links.getLsbD i = true) (h0 : s.get CLK_RING.state ≠ 0) :
    let c : Instr := .monitorGate edges links watch trim est
    let ring := s.get CLK_RING.state
    let st := s.get (CLK_SRC_STAT.state i)
    let n := Nat.min 8 (s.get (CLK_SRC_STAT.pass_count i) + 1)
    let within := GateWithin ring (signedN 16 (s.get CLK_RING.error_ppm)) edges[i] nom
    (st = 0 → edges[i] ≠ 0 → Completes c s (fun s' => s'.get (CLK_SRC_STAT.state i) = 1 ∧ s'.get (CLK_SRC_STAT.pass_count i) = 0)) ∧
    (st = 1 → within → Completes c s (fun s' => s'.get (CLK_SRC_STAT.state i) = (if n = 8 then 2 else 1) ∧
      s'.get (CLK_SRC_STAT.pass_count i) = n)) ∧
    (st = 2 → within → Completes c s (fun s' => s'.get (CLK_SRC_STAT.state i) = 2 ∧ s'.get (CLK_SRC_STAT.pass_count i) = n ∧
      s'.clk.held[i] = false)) ∧
    (st = 1 ∨ st = 2 → ¬ within → Completes c s (fun s' => s'.get (CLK_SRC_STAT.state i) = 3 ∧
      s'.get (CLK_SRC_STAT.pass_count i) = 0 ∧ s'.get CLK_EVENTS.ref_fail = 1 ∧
      s'.get (CLK_SRC_STAT.fail_cause i) = (if st = 2 ∧ s.clk.held[i] = true then 6 else if ring = 3 then 2 else 3))) := by
  intro c ring st n within
  obtain ⟨u, hpres, hu, hend⟩ := monitorGate_source (edges := edges) (links := links) (watch := watch) (trim := trim) (est := est) i hp
  have hring : ring ≤ 3 := Nat.le_of_lt_succ (bitsOf_lt _ _ _)
  have hst : u.get (CLK_SRC_STAT.state i) = st := hu.get rfl rfl
  have hn : Nat.min 8 (u.get (CLK_SRC_STAT.pass_count i) + 1) = n := by rw [hu.get rfl rfl]
  have hheld : atD u.clk.held i false = s.clk.held[i] := hu.held.trans (atD_fin _ _ _)
  refine ⟨fun h he => ⟨_, exec_monitorGate hhold, judged_absent i.isLt hpres hlink h0 hring hend (hst.trans h) he⟩,
    fun h hw => ⟨_, exec_monitorGate hhold, judged_proving i.isLt hpres hlink h0 hring hend (hst.trans h) hw hn⟩,
    fun h hw => ⟨_, exec_monitorGate hhold, ?_⟩, fun h hw => ⟨_, exec_monitorGate hhold, ?_⟩⟩
  · obtain ⟨hstate, hpass, hfree⟩ := judged_proven i.isLt hpres hlink h0 hring hend (hst.trans h) hw
    exact ⟨hstate, hpass.trans hn, (atD_fin _ _ _).symm.trans hfree⟩
  · have hf := judged_fails i.isLt hpres hlink h0 hring hend (hst.symm ▸ h) hw
    rw [hst, hheld] at hf
    exact ⟨hf.state, hf.passes, hf.event, hf.cause⟩

/-- Settles O30: each clause is the lemma of its command. -/
theorem ringAndSourcesAreWatched : Obligations.RingAndSourcesAreWatched :=
  ⟨fun _ _ hp hlo hhi => watchCheck_passes hp hlo hhi, fun _ _ hp h => watchCheck_fails hp h,
    fun _ _ _ _ _ _ i _ hhold hnom hport hring => monitorGate_acts i hhold ⟨hnom, fun hlt => ⟨(hport hlt).1, (hport hlt).2.2⟩⟩
      (fun hlt => (hport hlt).2.1) hring,
    fun _ i => missingEdge_acts i, fun _ => ⟨lossOfLock_early, lossOfLock_third⟩, fun _ p => ⟨periodMeasure_acts p, periodMeasure_waits p⟩⟩

end Sys2Proof.Machine
end

section
/-!
O31. What a glide, the start of a switch and the entry to Lull show (R49, R58, R62), then the decision edge, the hold-off and CLK_SELECT
(R55, R56): one equation for each outcome, and O31 from those.
-/
namespace Sys2Proof.Machine
open Sys2Proof
variable {s t : State} {i : Nat}

/-! ### Train time's registers -/

/-- The registers below those of train time. -/
abbrev Early (a : Nat) : Prop := a < 0x30000

theorem early_quiet : ∀ a, Early a → Quiet a := fun a (h : a < 0x30000) => Or.inl (by omega)

namespace Sees
variable {P : State → Prop} (hP : Sees Early P)
include hP

theorem setP {p : Nat} (h : P s) : P (s.setP p) := hP.setN (by decide) (hP.setN (by decide) h)
theorem refreshDegraded (h : P s) : P s.refreshDegraded :=
  hP.setB (by decide) (hP.setB (by decide) (of_when h (hP.raise (by decide))))
theorem showPhase (h : P s) : P (showPhase s) := by
  unfold Machine.showPhase
  extract_lets enters
  exact of_when (hP.setB (by decide) h) hP.setP

end Sees

/-! ### Glides -/

section
variable {from_ to_ m : Nat}

/-- The state in which a glide loads its first period. -/
def glideMarked (s : State) : State := ((s.raise CLK_STATUS.glide).set CLK_STATUS.spread_active 0).raise CLK_STATUS.degraded

theorem startGlide_leaves : Leaves Early ((glideMarked s).withClk
    { s.clk with glideLeft := 8192, glideFrom := from_, glideTo := to_, glideMode := m, divD := 256 }) (startGlide from_ to_ m s) :=
  Leaves.sees.refreshDegraded (Leaves.sees.setP Leaves.refl)

theorem startGlide_clk : (startGlide from_ to_ m s).clk =
    { s.clk with glideLeft := 8192, glideFrom := from_, glideTo := to_, glideMode := m, divD := 256 } := startGlide_leaves.clk

theorem startGlide_glide : (startGlide from_ to_ m s).get CLK_STATUS.glide = 1 := by
  rw [startGlide_leaves.get (by decide), State.withClk_get, glideMarked, State.raise, get_set_of_apart rfl, get_set_of_apart rfl,
    get_raise_same (by decide) (by decide)]

theorem startGlide_get {g : Fld} (hg : Early g.addr) (hglide : CLK_STATUS.glide.apart g = true) (hspread : CLK_STATUS.spread_active.apart g = true)
    (hdeg : CLK_STATUS.degraded.apart g = true) : (startGlide from_ to_ m s).get g = s.get g := by
  rw [startGlide_leaves.get hg, State.withClk_get, glideMarked, State.raise, State.raise, get_set_of_apart hdeg, get_set_of_apart hspread,
    get_set_of_apart hglide]

end

/-! ### The start of a switch -/

/-- The old source of a switch: none from Lull, the ring from START (R58). -/
def oldSource (s : State) : Nat :=
  if s.get CLK_STATUS.mode = 3 then 0xFE else if s.get CLK_STATUS.mode = 0 then 0x0A else s.get CLK_STATUS.selected

section
variable {dst cause : Nat}

theorem lanesLock_get {g : Fld} : (lanesLock s).get g = s.get g := when_keeps (fun t => t.get g) (State.withClk_get _ _ _)

/-- What CLK_LAST_SWITCH shows of a switch that starts. -/
def switchShown (dst cause : Nat) (s : State) : State :=
  lastSwitch (if s.get CLK_STATUS.mode == mSTART then noSource else oldSource s) dst cause (lanesLock s)

theorem startSwitch_eq : startSwitch dst cause s = ((switchShown dst cause s).raise CLK_STATUS.switching).withClk
    { ((switchShown dst cause s).raise CLK_STATUS.switching).clk with switch := some ⟨oldSource s, dst, cause, false⟩ } := by
  have hold : (if s.get CLK_STATUS.mode == mLULL then noSource else if s.get CLK_STATUS.mode == mSTART then 0x0A
      else s.get CLK_STATUS.selected) = oldSource s := by
    simp [oldSource, mLULL, mSTART, noSource]
  unfold startSwitch
  simp only [hold]
  rfl

theorem startSwitch_switch : (startSwitch dst cause s).clk.switch = some ⟨oldSource s, dst, cause, false⟩ := by
  rw [startSwitch_eq, clk_withClk]

theorem startSwitch_switching : (startSwitch dst cause s).get CLK_STATUS.switching = 1 := by
  rw [startSwitch_eq, State.withClk_get, get_raise_same (by decide) (by decide)]

theorem startSwitch_get {g : Fld} (hg : g.addr ≠ CLK_LAST_SWITCH) (hbit : CLK_STATUS.switching.apart g = true) :
    (startSwitch dst cause s).get g = s.get g := by
  rw [startSwitch_eq, State.withClk_get, State.raise, get_set_of_apart hbit, switchShown, lastSwitch, get_setN_other hg, lanesLock_get]

theorem startSwitch_shown {g : Fld} (hg : g.addr = CLK_LAST_SWITCH) : (startSwitch dst cause s).get g =
    bitsOf (BitVec.ofNat 32 ((if s.get CLK_STATUS.mode == mSTART then noSource else oldSource s) + 256 * dst + 65536 * cause)) g.lo g.w := by
  rw [startSwitch_eq, State.withClk_get, get_raise_other (by rw [hg]; decide), switchShown, lastSwitch, State.get, hg, reg_setN_same]

theorem ladderOnly_startSwitch {l : List Nat} (h : LadderOnly l s t) (hst : CLK_STATUS ∈ l) (hlast : CLK_LAST_SWITCH ∈ l) :
    LadderOnly l s (startSwitch dst cause t) := by
  rw [startSwitch_eq]
  exact ladderOnly_withClk (ladderOnly_set (f := CLK_STATUS.switching)
    (ladderOnly_setReg (of_when (P := LadderOnly l s) h ladderOnly_withClk) hlast) hst)

end

/-! ### The entry to Lull -/

/-- What Lull shows on its first edge (Table CLK-7). -/
structure InLull (t : State) : Prop where
  mode : t.get CLK_STATUS.mode = 3
  lull : t.get CLK_STATUS.lull = 1
  glide : t.get CLK_STATUS.glide = 1
  selected : t.get CLK_STATUS.selected = 0xFE
  event : t.get CLK_EVENTS.lull_enter = 1
  left : t.clk.glideLeft = 8192
  to_ : t.clk.glideMode = 3

theorem lullEntry_inLull : InLull (lullEntry s) := by
  unfold lullEntry
  extract_lets m sel s1 s2 s3 s4 s5 s6 base
  have hshown : Leaves Early (((s2.raise CLK_STATUS.lull).set CLK_STATUS.mode mLULL).set CLK_STATUS.selected noSource) s3 :=
    Leaves.sees.showPhase Leaves.refl
  have hvotes : Leaves Quiet (s3.raise CLK_EVENTS.lull_enter) s4 := Leaves.sees.fault (Leaves.sees.voteLull Leaves.refl)
  have hstatus {g : Fld} (hg : g.addr = CLK_STATUS) (h1 : CLK_STATUS.glide.apart g = true) (h2 : CLK_STATUS.spread_active.apart g = true)
      (h3 : CLK_STATUS.degraded.apart g = true) : s6.get g =
      (((s2.raise CLK_STATUS.lull).set CLK_STATUS.mode mLULL).set CLK_STATUS.selected noSource).get g := by
    have haddr : Early g.addr := by rw [hg]; decide
    rw [startGlide_get haddr h1 h2 h3, get_setN_other (by rw [hg]; decide), hvotes.get (early_quiet _ haddr),
      get_raise_other (by rw [hg]; decide), hshown.get haddr]
  have hev : s6.get CLK_EVENTS.lull_enter = 1 := by
    rw [startGlide_get (by decide) rfl rfl rfl, get_setN_other (by decide), hvotes.get (by decide),
      get_raise_same (by decide) (by decide)]
  have hclk : s6.clk.glideLeft = 8192 ∧ s6.clk.glideMode = 3 := by
    rw [show s6.clk = _ from startGlide_clk]
    exact ⟨rfl, rfl⟩
  refine ⟨?_, ?_, ?_, ?_, (State.withClk_get _ _ _).trans hev, ?_, ?_⟩
  · rw [State.withClk_get, hstatus rfl rfl rfl rfl, get_set_of_apart rfl, get_set_of_lt (by decide) (by decide)]
    rfl
  · rw [State.withClk_get, hstatus rfl rfl rfl rfl, get_set_of_apart rfl, get_set_of_apart rfl, get_raise_same (by decide) (by decide)]
  · rw [State.withClk_get, startGlide_glide]
  · rw [State.withClk_get, hstatus rfl rfl rfl rfl, get_set_of_lt (by decide) (by decide)]
    rfl
  · rw [clk_withClk]
    exact hclk.1
  · rw [clk_withClk]
    exact hclk.2

/-! ### The decision (R55) -/

/-- The state in which the loop decides: no failure is left to answer. -/
def decided (s : State) : State := s.withClk { s.clk with failedNow := false }

theorem decided_get {g : Fld} : (decided s).get g = s.get g := State.withClk_get _ _ _

/-- A switch starts from `sel` in mode `m`, as the decision's clauses say it. -/
def Starts (src dst cause : Nat) (s s' : State) : Prop :=
  s'.clk.switch = some ⟨src, dst, cause, false⟩ ∧ s'.get CLK_STATUS.switching = 1 ∧ s'.get CLK_STATUS.mode = s.get CLK_STATUS.mode ∧
    s'.get CLK_STATUS.selected = s.get CLK_STATUS.selected ∧ RegsOnly [CLK_STATUS, CLK_LAST_SWITCH] s { s' with clk := s.clk, flt := s.flt }

theorem starts_startSwitch {src dst cause : Nat} (hsrc : oldSource s = src) : Starts src dst cause s (startSwitch dst cause (decided s)) := by
  have hold : oldSource (decided s) = src := by
    rw [← hsrc]
    simp only [oldSource, decided_get]
  refine ⟨hold ▸ startSwitch_switch, startSwitch_switching, ?_, ?_, ladderOnly_startSwitch (ladderOnly_withClk ladderOnly_refl) (by decide) (by decide)⟩
  · rw [startSwitch_get (by decide) rfl, decided_get]
  · rw [startSwitch_get (by decide) rfl, decided_get]

section
variable (hsw : s.get CLK_STATUS.switching = 0) (hhold : s.clk.hold = 0)
include hsw hhold

theorem decides : ¬ (s.is CLK_STATUS.switching || s.clk.hold != 0) = true := by simp [State.is, hsw, hhold]

theorem sourceDecision_start (hm : s.get CLK_STATUS.mode = 0) (hf : (refList s).find? (fun j => j != 0x0A && selectable s j) = some i) :
    sourceDecision s = startSwitch i 5 (decided s) := by
  unfold sourceDecision
  rw [if_neg (decides hsw hhold), if_pos (by simp [hm, mSTART]), hf]
  rfl

theorem sourceDecision_keeps (hm : s.get CLK_STATUS.mode = 1 ∨ s.get CLK_STATUS.mode = 2)
    (hk : s.get CLK_STATUS.selected ∈ refList s ∧ s.get (CLK_SRC_STAT.state (s.get CLK_STATUS.selected)) = 2) :
    sourceDecision s = decided s := by
  unfold sourceDecision
  rw [if_neg (decides hsw hhold), if_neg (by simp [mSTART]; omega), if_pos (by simp [mLULL, hk]; omega)]
  rfl

/-- The entry to Lull with the ring UNPROVEN. -/
def ringLull (s : State) : State :=
  let s := lullEntry s
  (s.raise CLK_EVENTS.hold_verdict).withClk { s.clk with lullRing := true }

/-- The selected source is lost: Lull with the ring UNPROVEN, else the best source, else Lull. -/
theorem sourceDecision_lost (hm : s.get CLK_STATUS.mode = 1 ∨ s.get CLK_STATUS.mode = 2)
    (hk : ¬ (s.get CLK_STATUS.selected ∈ refList s ∧ s.get (CLK_SRC_STAT.state (s.get CLK_STATUS.selected)) = 2)) :
    (s.get CLK_RING.state = 0 → sourceDecision s = ringLull (decided s)) ∧
    (s.get CLK_RING.state ≠ 0 → (refList s).find? (selectable s) = some i →
      sourceDecision s = startSwitch i (if s.get CLK_STATUS.selected ∈ refList s then 0 else 5) (decided s)) ∧
    (s.get CLK_RING.state ≠ 0 → (refList s).find? (selectable s) = none → sourceDecision s = lullEntry (decided s)) := by
  unfold sourceDecision
  extract_lets m sel base s1
  have hs1 : s1 = decided s := rfl
  clear_value s1
  subst hs1
  have h0 : ¬ (m == mSTART) = true := by simp [m, mSTART]; omega
  have h3 : (m == mLULL) = false := by simp [m, mLULL]; omega
  have h3' : (m != mLULL) = true := by simp [bne, h3]
  have hlost : ¬ (m != mLULL && (refList s).contains sel && s.get (CLK_SRC_STAT.state sel) == 2) = true := by
    simpa [h3'] using hk
  rw [if_neg (decides hsw hhold), if_neg h0, if_neg hlost]
  refine ⟨fun hr => ?_, fun hr hf => ?_, fun hr hf => ?_⟩
  · rw [if_pos (by simp [h3', hr])]
    rfl
  · rw [if_neg (by simp [hr]), bestSource, hf]
    simp only [h3, List.contains_iff_mem, Bool.false_eq_true, if_false]
    rfl
  · rw [if_neg (by simp [hr]), bestSource, hf]
    simp only [h3, Bool.false_eq_true, if_false]

theorem sourceDecision_lull (hm : s.get CLK_STATUS.mode = 3) (hf : (refList s).find? (selectable s) = some i) :
    sourceDecision s = startSwitch i 3 (decided s) := by
  unfold sourceDecision
  rw [if_neg (decides hsw hhold), if_neg (by simp [hm, mSTART]), if_neg (by simp [hm, mLULL]), if_neg (by simp [hm, mLULL]), bestSource, hf]
  simp only [hm, mLULL, beq_self_eq_true, if_true]
  rfl

end

theorem ringLull_inLull : InLull (ringLull s) := by
  have h : InLull (lullEntry s) := lullEntry_inLull
  unfold ringLull
  extract_lets u base
  have hget {g : Fld} (hg : g.addr = CLK_STATUS) : ((u.raise CLK_EVENTS.hold_verdict).withClk { u.clk with lullRing := true }).get g = u.get g := by
    rw [State.withClk_get, get_raise_other (by rw [hg]; decide)]
  refine ⟨(hget rfl).trans h.mode, (hget rfl).trans h.lull, (hget rfl).trans h.glide, (hget rfl).trans h.selected, ?_, h.left, h.to_⟩
  rw [State.withClk_get, State.raise, get_set_of_apart rfl]
  exact h.event

theorem ringLull_verdict : (ringLull s).get CLK_EVENTS.hold_verdict = 1 :=
  (State.withClk_get _ _ _).trans (get_raise_same (by decide) (by decide))
theorem ringLull_ring : (ringLull s).clk.lullRing = true := by
  unfold ringLull
  extract_lets u base
  rw [clk_withClk]

theorem InLull.lulled (h : InLull t) : t.get CLK_STATUS.mode = 3 ∧ t.get CLK_STATUS.lull = 1 ∧ t.get CLK_STATUS.glide = 1 ∧
    t.get CLK_STATUS.selected = 0xFE ∧ t.get CLK_EVENTS.lull_enter = 1 ∧ t.clk.glideLeft = 8192 ∧ t.clk.glideMode = 3 :=
  ⟨h.mode, h.lull, h.glide, h.selected, h.event, h.left, h.to_⟩

/-- The clauses of the decision edge. -/
theorem sourceDecision_acts (s : State) (i : Nat) (hsw : s.get CLK_STATUS.switching = 0) (hhold : s.clk.hold = 0) :
    let m := s.get CLK_STATUS.mode
    let sel := s.get CLK_STATUS.selected
    let kept := sel ∈ refList s ∧ s.get (CLK_SRC_STAT.state sel) = 2
    (m = 0 → (refList s).find? (fun j => j != 0x0A && selectable s j) = some i →
      Completes .sourceDecision s (Starts 0x0A i 5 s)) ∧
    (m = 1 ∨ m = 2 → kept → Completes .sourceDecision s (fun s' => { s' with clk := s.clk } = s ∧ s'.clk.failedNow = false)) ∧
    (m = 1 ∨ m = 2 → ¬ kept → s.get CLK_RING.state ≠ 0 → (refList s).find? (selectable s) = some i →
      Completes .sourceDecision s (Starts sel i (if sel ∈ refList s then 0 else 5) s)) ∧
    (m = 1 ∨ m = 2 → ¬ kept → s.get CLK_RING.state = 0 → Completes .sourceDecision s (fun s' => InLull s' ∧
      s'.get CLK_EVENTS.hold_verdict = 1 ∧ s'.clk.lullRing = true)) ∧
    (m = 1 ∨ m = 2 → ¬ kept → s.get CLK_RING.state ≠ 0 → (refList s).find? (selectable s) = none →
      Completes .sourceDecision s InLull) ∧
    (m = 3 → (refList s).find? (selectable s) = some i → Completes .sourceDecision s (Starts 0xFE i 3 s)) := by
  intro m sel kept
  have old (h0 : m ≠ 0) (h3 : m ≠ 3) : oldSource s = sel := by rw [oldSource, if_neg h3, if_neg h0]
  refine ⟨fun hm hf => ⟨_, congrArg Host.Outcome.next (sourceDecision_start hsw hhold hm hf), starts_startSwitch ?_⟩,
    fun hm hk => ⟨_, congrArg Host.Outcome.next (sourceDecision_keeps hsw hhold hm hk), rfl, rfl⟩,
    fun hm hk hr hf => ⟨_, congrArg Host.Outcome.next ((sourceDecision_lost hsw hhold hm hk).2.1 hr hf),
      starts_startSwitch (old (by omega) (by omega))⟩,
    fun hm hk hr => ⟨_, congrArg Host.Outcome.next ((sourceDecision_lost (i := i) hsw hhold hm hk).1 hr), ringLull_inLull, ringLull_verdict,
      ringLull_ring⟩,
    fun hm hk hr hf => ⟨_, congrArg Host.Outcome.next ((sourceDecision_lost (i := i) hsw hhold hm hk).2.2 hr hf), lullEntry_inLull⟩,
    fun hm hf => ⟨_, congrArg Host.Outcome.next (sourceDecision_lull hsw hhold hm hf), starts_startSwitch ?_⟩⟩
  · rw [oldSource, if_neg (show s.get CLK_STATUS.mode ≠ 3 by omega), if_pos hm]
  · rw [oldSource, if_pos hm]

/-! ### The hold-off (R55) -/

theorem revertHoldoff_acts (s : State) (i : Nat) (hsw : s.get CLK_STATUS.switching = 0) :
    let m := s.get CLK_STATUS.mode
    let sel := s.get CLK_STATUS.selected
    let ms := s.get CLK_CTRL.revert_holdoff_ms
    m = 1 ∨ m = 2 → s.get (CLK_SRC_STAT.state sel) = 2 → s.ha 0 = false → ms ≠ 0 →
    ((refList s).takeWhile (· != sel)).find? (fun j => selectable s j &&
      decide (Nat.max (atD s.clk.provenAt j 0) s.clk.holdFrom + ms * 1000000 ≤ s.now)) = some i →
    Completes .revertHoldoff s (fun s' => s'.clk.switch = some ⟨sel, i, 1, false⟩ ∧ s'.get CLK_STATUS.switching = 1) := by
  intro m sel ms hm hst hha hms hf
  have hheld : heldOff s = some i := (if_neg (by simpa using hms)).trans hf
  have hgo : ¬ (s.ha 0 || s.is CLK_STATUS.switching || !(s.get CLK_STATUS.mode == mREF || s.get CLK_STATUS.mode == mRING) ||
      s.get (CLK_SRC_STAT.state (s.get CLK_STATUS.selected)) != 2) = true := by
    have hmode : (s.get CLK_STATUS.mode == mREF || s.get CLK_STATUS.mode == mRING) = true := by simpa [mREF, mRING] using hm
    have hsel : s.get (CLK_SRC_STAT.state (s.get CLK_STATUS.selected)) = 2 := hst
    simp [hha, State.is, hsw, hmode, hsel]
  have heq : revertHoldoff s = startSwitch i 1 s := by
    unfold revertHoldoff
    rw [if_neg hgo, hheld]
  have hold : oldSource s = sel := by
    rw [oldSource, if_neg (show s.get CLK_STATUS.mode ≠ 3 by omega), if_neg (show s.get CLK_STATUS.mode ≠ 0 by omega)]
  exact ⟨_, congrArg Host.Outcome.next heq, hold ▸ startSwitch_switch, startSwitch_switching⟩

/-! ### CLK_SELECT (R56) -/

section
variable {m : Master} {v : Word}

theorem exec_clkSelect : exec (.clkSelect m v) s = .next (inCore (clkSelect m v) s) := rfl

theorem clkSelect_unheard (h : devWriter m = false) : exec (.clkSelect m v) s = .next s :=
  exec_clkSelect.trans (congrArg Host.Outcome.next (inCore_eq_self (if_pos (by rw [h]; rfl))))

theorem clkSelect_eq (h : devWriter m = true) : clkSelect m v s =
    (s.set CLK_STATUS.select_result (selectResult (bitsOf v 0 8) s)).when (selectResult (bitsOf v 0 8) s == 0) (startSwitch (bitsOf v 0 8) 2) :=
  if_neg (by rw [h]; decide)

/-- A refusal shows its code and no more. -/
theorem clkSelect_refuses {r : Nat} (h : devWriter m = true) (hlive : live s = true) (hr : selectResult (bitsOf v 0 8) s = r)
    (h0 : r ≠ 0) (h8 : r < 8) : Completes (.clkSelect m v) s (fun s' => s'.get CLK_STATUS.select_result = r ∧
      RegsOnly [CLK_STATUS] s s' ∧ s'.get CLK_STATUS.selected = s.get CLK_STATUS.selected) := by
  refine completes_inCore exec_clkSelect hlive ?_
  rw [clkSelect_eq h, hr, beq_eq_false_iff_ne.2 h0, State.when_false]
  exact ⟨get_set_of_lt (by decide) h8, regsOnly_set regsOnly_refl (by decide), get_set_of_apart rfl⟩

/-- An accepted source is switched to, with cause 2. -/
theorem clkSelect_accepts (h : devWriter m = true) (hlive : live s = true) (hr : selectResult (bitsOf v 0 8) s = 0)
    (hm : s.get CLK_STATUS.mode ≠ 0) : Completes (.clkSelect m v) s (fun s' => s'.get CLK_STATUS.select_result = 0 ∧
      s'.get CLK_STATUS.switching = 1 ∧
      s'.clk.switch = some ⟨if s.get CLK_STATUS.mode = 3 then 0xFE else s.get CLK_STATUS.selected, bitsOf v 0 8, 2, false⟩ ∧
      s'.get CLK_LAST_SWITCH.cause = 2 ∧ s'.get CLK_LAST_SWITCH.to = bitsOf v 0 8) := by
  have hmode : (s.set CLK_STATUS.select_result 0).get CLK_STATUS.mode = s.get CLK_STATUS.mode := get_set_of_apart rfl
  have hsel : (s.set CLK_STATUS.select_result 0).get CLK_STATUS.selected = s.get CLK_STATUS.selected := get_set_of_apart rfl
  have hold : oldSource (s.set CLK_STATUS.select_result 0) = if s.get CLK_STATUS.mode = 3 then 0xFE else s.get CLK_STATUS.selected := by
    rw [oldSource, hmode, hsel, if_neg hm]
  have hlast {g : Fld} (hg : g.addr = CLK_LAST_SWITCH) : (startSwitch (bitsOf v 0 8) 2 (s.set CLK_STATUS.select_result 0)).get g =
      bitsOf (BitVec.ofNat 32 (oldSource (s.set CLK_STATUS.select_result 0) + 256 * bitsOf v 0 8 + 65536 * 2)) g.lo g.w := by
    rw [startSwitch_shown hg, hmode, if_neg (by simpa [mSTART] using hm)]
  have hsrc : bitsOf v 0 8 < 256 := bitsOf_lt _ _ _
  have holdlt : oldSource (s.set CLK_STATUS.select_result 0) < 256 := by
    have hlt : s.get CLK_STATUS.selected < 2 ^ 8 := bitsOf_lt _ _ _
    rw [hold]
    split <;> omega
  refine completes_inCore exec_clkSelect hlive ?_
  rw [clkSelect_eq h, hr, beq_self_eq_true, State.when_true]
  refine ⟨?_, startSwitch_switching, hold ▸ startSwitch_switch, (hlast rfl).trans ?_, (hlast rfl).trans ?_⟩
  · rw [startSwitch_get (by decide) rfl, get_set_of_lt (by decide) (by decide)]
  · show (BitVec.ofNat 32 _).toNat / 2 ^ 16 % 2 ^ 4 = 2
    rw [BitVec.toNat_ofNat]
    omega
  · show (BitVec.ofNat 32 _).toNat / 2 ^ 8 % 2 ^ 8 = _
    rw [BitVec.toNat_ofNat]
    omega

end

/-- A selection waits for a switch, a glide, a failure and START. -/
def SelectBusy (s : State) : Prop :=
  s.get CLK_STATUS.switching = 1 ∨ s.get CLK_STATUS.glide = 1 ∨ s.clk.failedNow = true ∨ s.get CLK_STATUS.mode = 0

theorem get_bit {f : Fld} (h : f.w = 1) : s.get f = 0 ∨ s.get f = 1 := by
  have hlt : s.get f < 2 ^ f.w := bitsOf_lt _ _ _
  rw [h] at hlt
  omega

theorem is_iff_one {f : Fld} (h : f.w = 1) : s.is f = true ↔ s.get f = 1 := by
  have hbit := get_bit (s := s) h
  rw [State.is, bne_iff_ne]
  omega

theorem selectBusy_iff : (s.is CLK_STATUS.switching || s.is CLK_STATUS.glide || s.clk.failedNow || s.get CLK_STATUS.mode == mSTART) = true ↔
    SelectBusy s := by
  simp only [Bool.or_eq_true, is_iff_one (f := CLK_STATUS.switching) rfl, is_iff_one (f := CLK_STATUS.glide) rfl, beq_iff_eq, mSTART,
    SelectBusy, or_assoc]

/-- The codes of CLK_SELECT in the order of their conditions. -/
theorem selectResult_cases (src : Nat) (s : State) :
    (s.ha 0 = false → selectResult src s = 3) ∧ (s.ha 0 = true → SelectBusy s → selectResult src s = 4) ∧
    (s.ha 0 = true → ¬ SelectBusy s → src ∉ refList s → selectResult src s = 2) ∧
    (s.ha 0 = true → ¬ SelectBusy s → src ∈ refList s → s.get CLK_STATUS.selected = src → selectResult src s = 5) ∧
    (s.ha 0 = true → ¬ SelectBusy s → src ∈ refList s → s.get CLK_STATUS.selected ≠ src → selectable s src = false → selectResult src s = 1) ∧
    (s.ha 0 = true → ¬ SelectBusy s → src ∈ refList s → s.get CLK_STATUS.selected ≠ src → selectable s src = true → selectResult src s = 0) := by
  unfold selectResult
  have hfree (hb : ¬ SelectBusy s) := mt selectBusy_iff.1 hb
  refine ⟨fun h => if_pos (by rw [h]; rfl), fun h hb => ?_, fun h hb hl => ?_, fun h hb hl hs => ?_, fun h hb hl hs ht => ?_,
    fun h hb hl hs ht => ?_⟩
  · rw [if_neg (by simp [h]), if_pos (selectBusy_iff.2 hb)]
  · rw [if_neg (by simp [h]), if_neg (hfree hb), if_pos (by simp [hl])]
  · rw [if_neg (by simp [h]), if_neg (hfree hb), if_neg (by simp [hl]), if_pos (by simp [hs])]
  · rw [if_neg (by simp [h]), if_neg (hfree hb), if_neg (by simp [hl]), if_neg (by simp [hs]), if_pos (by simp [ht])]
  · rw [if_neg (by simp [h]), if_neg (hfree hb), if_neg (by simp [hl]), if_neg (by simp [hs]), if_neg (by simp [ht])]

/-- Settles O31: each clause is the lemma of its command. -/
theorem sourcesAreChosen : Obligations.SourcesAreChosen := by
  refine ⟨fun s i hsw hhold => ?_, revertHoldoff_acts, fun s m v => ⟨clkSelect_unheard, fun hm hlive => ?_⟩⟩
  · obtain ⟨hstart, hkeep, hswitch, hring, hlull, hleave⟩ := sourceDecision_acts s i hsw hhold
    refine ⟨hstart, hkeep, hswitch, fun hm hk hr => ?_, fun hm hk hr hf => ?_, hleave⟩
    · obtain ⟨t, ht, hl, hverdict⟩ := hring hm hk hr
      exact ⟨t, ht, hl.lulled, hverdict⟩
    · obtain ⟨t, ht, hl⟩ := hlull hm hk hr hf
      exact ⟨t, ht, hl.lulled⟩
  · obtain ⟨h3, h4, h2, h5, h1, h0⟩ := selectResult_cases (bitsOf v 0 8) s
    exact ⟨fun h => clkSelect_refuses hm hlive (h3 h) (by decide) (by decide),
      fun h hb => clkSelect_refuses hm hlive (h4 h hb) (by decide) (by decide),
      fun h hb hl => clkSelect_refuses hm hlive (h2 h hb hl) (by decide) (by decide),
      fun h hb hl hs => clkSelect_refuses hm hlive (h5 h hb hl hs) (by decide) (by decide),
      fun h hb hl hs ht => clkSelect_refuses hm hlive (h1 h hb hl hs ht) (by decide) (by decide),
      fun h hb hl hs ht => clkSelect_accepts hm hlive (h0 h hb hl hs ht) fun hz => hb (Or.inr (Or.inr (Or.inr hz)))⟩

end Sys2Proof.Machine
end

section
/-!
O32. What a change of a link leaves, the end of a reference switch (R58), its timeout (R59), the end of a glide (R49, R64, R65) and
clock-fault hold (R67, R413): one equation for each outcome, and O32 from those.
-/
namespace Sys2Proof.Machine
open Sys2Proof
variable {s t : State}

/-! ### Links -/

theorem forEach_establishes {α : Type} {P : State → Prop} {l : List α} {f : α → State → State} {x : α} (hx : x ∈ l)
    (he : ∀ t, P (f x t)) (hk : ∀ y t, P t → P (f y t)) : P (s.forEach l f) := by
  induction l generalizing s with
  | nil => exact absurd hx List.not_mem_nil
  | cons y ys ih =>
    rcases List.mem_cons.1 hx with rfl | hx
    · exact of_forEach (s := f x s) (he s) fun y _ => hk y
    · exact ih hx

/-- A property that does not look at the lanes' loops either. -/
structure SeesLanes (B : Nat → Prop) (P : State → Prop) : Prop extends Sees B P where
  lanes : ∀ {s : State} {tx ld : Vector Bool 8}, P s → P (s.withClk { s.clk with txLocked := tx, linkDown := ld })

/-- The registers a stomped frame writes none of: those below the switch, and each port's PORT_STATUS. -/
abbrev Unstomped (a : Nat) : Prop := a < 0xC0000 ∨ (0xC1000 ≤ a ∧ a % 0x400 = 4)
/-- The registers that a change of port `p`'s link leaves. -/
abbrev Linkless (p a : Nat) : Prop := a < 0xC0000 ∨ (0xC1000 ≤ a ∧ a % 0x400 = 4 ∧ a ≠ PORT_STATUS p)

theorem linkless_unstomped {p : Nat} : ∀ a, Linkless p a → Unstomped a := fun a h => by omega

theorem Sees.modPort {B : Nat → Prop} {P : State → Prop} (hP : Sees B P) {p : Nat} {f : PortH → PortH} (h : P s) : P (s.modPort p f) := hP.rest h

theorem Sees.stomp {P : State → Prop} {l : List Nat} (hP : Sees Unstomped P) (h : P s) : P (stomp l s) := by
  refine of_forEach h fun q _ s h => ?_
  split
  · exact hP.modPort (hP.countReg (by unfold Unstomped PORT_STOMP; omega) (hP.raise (by decide) h))
  · exact h

/-- What a link that goes down ends: cut-through frames, the port's transmission and its announcements (R274). -/
def portCleared (p : Nat) (s : State) : State :=
  ((stomp (s.portOf p).cutTo s).forEach (List.range 8) (fun q => (·.modPort q (fun h => { h with cutTo := h.cutTo.filter (· != p) })))).modPort p
    (fun h => { h with tx := none, gq := [], cutTo := [], ann := none, t1 := none })

theorem Sees.portCleared {P : State → Prop} {p : Nat} (hP : Sees Unstomped P) (h : P s) : P (portCleared p s) :=
  hP.modPort (of_forEach (hP.stomp h) fun _ _ _ => hP.modPort)

namespace SeesLanes
variable {P : State → Prop} {B : Nat → Prop}

theorem lanesLock (hP : SeesLanes B P) (h : P s) : P (lanesLock s) := of_when h (hP.lanes (ld := s.clk.linkDown))

theorem linkChange {p speed : Nat} {up : Bool} (hP : SeesLanes (Linkless p) P) (h : P s) : P (linkChange p up speed s) := by
  have hown : ¬ Linkless p (PORT_STATUS p) := by unfold Linkless PORT_STATUS; omega
  unfold Machine.linkChange
  extract_lets s1 rate speed1 up1 s2 s3
  have h1 : P s1 := hP.lanesLock h
  have h2 : P s2 := hP.set hown (hP.setB hown h1)
  have hun : Sees Unstomped P := hP.toSees.mono linkless_unstomped
  have h3 : P s3 := of_when h2 fun h => hP.set hown (hP.lanes (hun.portCleared h))
  exact of_ite (of_when h1 (hP.set hown)) (hun.raise (by decide) h3)

end SeesLanes

/-! ### The end of a switch (R58) -/

theorem srcStat_inj {i j : Nat} : CLK_SRC_STAT i = CLK_SRC_STAT j ↔ i = j := by unfold CLK_SRC_STAT; omega

theorem deselect_selected {i : Nat} (hi : i < 11) : (deselect s).get (CLK_SRC_STAT.selected i) = 0 := by
  refine forEach_establishes (P := fun t => t.get (CLK_SRC_STAT.selected i) = 0) (List.mem_range.2 hi)
    (fun t => get_set_of_lt (Nat.le_of_ble_eq_true rfl) (by show 0 < 2 ^ 1; decide)) fun j t ht => ?_
  by_cases hj : i = j
  · subst hj
    exact get_set_of_lt (Nat.le_of_ble_eq_true rfl) (by show 0 < 2 ^ 1; decide)
  · exact (State.get_set_other _ _ _ _ (mt srcStat_inj.1 hj)).trans ht

theorem deselect_get {g : Fld} (hg : g.addr < 0x20100) : (deselect s).get g = s.get g :=
  forEach_keeps (fun t => t.get g) fun _ _ _ => State.get_set_other _ _ _ _ (srcStat_ne hg).symm

theorem ringFollow_reg {a : Nat} (ha : a ≠ CLK_RING) : (ringFollow s).reg a = s.reg a := by
  have h : LadderOnly [CLK_RING] s (ringFollow s) := ringFollow_ladderOnly ladderOnly_refl (by decide)
  exact h.1 a (by simpa using ha)
theorem lanesLock_reg {a : Nat} : (lanesLock s).reg a = s.reg a := when_keeps (fun t => t.reg a) (State.withClk_reg _ _ _)

theorem trimLost_switch : (trimLost s).clk.switch = s.clk.switch := by
  unfold trimLost
  split
  · rw [State.set_clk, State.set_clk, clk_withClk]
  · rfl
theorem ringFollow_switch : (ringFollow s).clk.switch = s.clk.switch := by
  unfold ringFollow
  split
  · rw [clk_withClk]
  · rfl
theorem lanesLock_switch : (lanesLock s).clk.switch = s.clk.switch := by
  refine when_keeps (fun t => t.clk.switch) ?_
  rw [clk_withClk]

/-- The ring, the lanes and the phase-only mark after the new source is selected. -/
def afterSwitch (dst : Nat) (s : State) : State :=
  let s := if dst == 0x0A then trimLost s else lanesLock (ringFollow s)
  let lost := s.get (CLK_SRC_STAT.state dst) != 2
  showPhase (s.when lost (fun s => trimLost (s.withClk { s.clk with failedNow := true })))

theorem afterSwitch_keeps {dst : Nat} : (∀ a, Early a → a ≠ CLK_RING → (afterSwitch dst s).reg a = s.reg a) ∧
    (afterSwitch dst s).clk.switch = s.clk.switch := by
  unfold afterSwitch
  extract_lets u lost
  have hu : (∀ a, a ≠ CLK_RING → u.reg a = s.reg a) ∧ u.clk.switch = s.clk.switch := by
    refine of_ite (P := fun u => (∀ a, a ≠ CLK_RING → u.reg a = s.reg a) ∧ u.clk.switch = s.clk.switch) ⟨fun a ha => reg_trimLost ha, trimLost_switch⟩
      ⟨fun a ha => lanesLock_reg.trans (ringFollow_reg ha), lanesLock_switch.trans ringFollow_switch⟩
  have hv : (∀ a, a ≠ CLK_RING → (u.when lost (fun s => trimLost (s.withClk { s.clk with failedNow := true }))).reg a = s.reg a) ∧
      (u.when lost (fun s => trimLost (s.withClk { s.clk with failedNow := true }))).clk.switch = s.clk.switch := by
    refine ⟨fun a ha => (when_keeps (fun t => t.reg a) ?_).trans (hu.1 a ha), (when_keeps (fun t => t.clk.switch) ?_).trans hu.2⟩
    · exact (reg_trimLost ha).trans (State.withClk_reg _ _ _)
    · rw [trimLost_switch, clk_withClk]
  have hs : Leaves Early _ (showPhase (u.when lost (fun s => trimLost (s.withClk { s.clk with failedNow := true })))) :=
    Leaves.sees.showPhase Leaves.refl
  exact ⟨fun a he ha => (hs.reg a he).trans (hv.1 a ha), (congrArg ClkH.switch hs.clk).trans hv.2⟩

/-- The registers of a switch that has ended. -/
def switchedTo (dst : Nat) (s : State) : State :=
  let s := (deselect s).set CLK_STATUS.selected dst
  let s := (s.set (CLK_SRC_STAT.selected dst) 1).set CLK_STATUS.switching 0
  let s := ((s.setPair CLK_SWITCH_TT_LO s.now).bump CLK_COUNTS.switches).raise CLK_EVENTS.switched
  (s.withClk { s.clk with switch := none }).progress 0

theorem get_bump_same {f : Fld} (hf : f.lo + f.w ≤ 32) : (s.bump f).get f = Nat.min (s.get f + 1) (2 ^ f.w - 1) :=
  get_set_of_lt hf (by
    have hpos : 0 < 2 ^ f.w := Nat.two_pow_pos _
    have hle : min (s.get f + 1) (2 ^ f.w - 1) ≤ 2 ^ f.w - 1 := Nat.min_le_right _ _
    omega)
theorem get_bump_other {f g : Fld} (h : g.addr ≠ f.addr) : (s.bump f).get g = s.get g := State.get_set_other _ _ _ _ h
theorem reg_bump_other {f : Fld} {a : Nat} (h : a ≠ f.addr) : (s.bump f).reg a = s.reg a := reg_set_other h
theorem get_setPair_other {a n : Nat} {g : Fld} (hlo : g.addr ≠ a) (hhi : g.addr ≠ a + 4) : (s.setPair a n).get g = s.get g :=
  (get_setN_other hhi).trans (get_setN_other hlo)

section
variable {dst : Nat}

/-- The marks of the new source. -/
def switchMarked (dst : Nat) (s : State) : State :=
  (((deselect s).set CLK_STATUS.selected dst).set (CLK_SRC_STAT.selected dst) 1).set CLK_STATUS.switching 0

theorem switchedTo_eq : switchedTo dst s =
    ((((((switchMarked dst s).setPair CLK_SWITCH_TT_LO (switchMarked dst s).now).bump CLK_COUNTS.switches).raise CLK_EVENTS.switched).withClk
      { ((((switchMarked dst s).setPair CLK_SWITCH_TT_LO (switchMarked dst s).now).bump CLK_COUNTS.switches).raise CLK_EVENTS.switched).clk with
        switch := none }).progress 0) := rfl

theorem switchedTo_get {g : Fld} (hlo : g.addr ≠ CLK_SWITCH_TT_LO) (hhi : g.addr ≠ CLK_SWITCH_TT_HI) (hc : g.addr ≠ CLK_COUNTS)
    (he : g.addr ≠ CLK_EVENTS) : (switchedTo dst s).get g = (switchMarked dst s).get g := by
  rw [switchedTo_eq, progress_get, State.withClk_get, get_raise_other he, get_bump_other hc, get_setPair_other hlo hhi]

theorem switchMarked_status {g : Fld} (hg : g.addr = CLK_STATUS) (hsw : CLK_STATUS.switching.apart g = true) :
    (switchMarked dst s).get g = ((deselect s).set CLK_STATUS.selected dst).get g :=
  (get_set_of_apart hsw).trans (State.get_set_other _ _ _ _ (hg ▸ (srcStat_ne (by decide)).symm))

theorem switchedTo_selected (hd : dst < 11) : (switchedTo dst s).get CLK_STATUS.selected = dst := by
  rw [switchedTo_get (by decide) (by decide) (by decide) (by decide), switchMarked_status rfl rfl,
    get_set_of_lt (by decide) (by show dst < 2 ^ 8; omega)]
theorem switchedTo_switching : (switchedTo dst s).get CLK_STATUS.switching = 0 := by
  rw [switchedTo_get (by decide) (by decide) (by decide) (by decide), switchMarked, get_set_of_lt (by decide) (by decide)]
theorem switchedTo_status {g : Fld} (hg : g.addr = CLK_STATUS) (hsel : CLK_STATUS.selected.apart g = true)
    (hsw : CLK_STATUS.switching.apart g = true) : (switchedTo dst s).get g = s.get g := by
  rw [switchedTo_get (by rw [hg]; decide) (by rw [hg]; decide) (by rw [hg]; decide) (by rw [hg]; decide), switchMarked_status hg hsw,
    get_set_of_apart hsel, deselect_get (by rw [hg]; decide)]

theorem switchedTo_source {i : Nat} (hi : i < 11) : (switchedTo dst s).get (CLK_SRC_STAT.selected i) = if i = dst then 1 else 0 := by
  have hne {a : Nat} (ha : a < 0x20100) : (CLK_SRC_STAT.selected i).addr ≠ a := srcStat_ne ha
  rw [switchedTo_get (hne (by decide)) (hne (by decide)) (hne (by decide)) (hne (by decide)), switchMarked, State.get_set_other _ _ _ _ (hne (by decide))]
  by_cases h : i = dst
  · subst h
    rw [if_pos rfl, get_set_of_lt (Nat.le_of_ble_eq_true rfl) (by show 1 < 2 ^ 1; decide)]
  · rw [if_neg h, State.get_set_other _ _ _ _ (mt srcStat_inj.1 h), State.get_set_other _ _ _ _ (hne (by decide)), deselect_selected hi]

theorem switchedTo_event : (switchedTo dst s).get CLK_EVENTS.switched = 1 := by
  rw [switchedTo_eq, progress_get, State.withClk_get, get_raise_same (by decide) (by decide)]

theorem switchMarked_get {g : Fld} (hg : g.addr < 0x20100) (hst : g.addr ≠ CLK_STATUS) : (switchMarked dst s).get g = s.get g := by
  rw [switchMarked, State.get_set_other _ _ _ _ hst, State.get_set_other _ _ _ _ (srcStat_ne hg).symm, State.get_set_other _ _ _ _ hst, deselect_get hg]

theorem switchedTo_count : (switchedTo dst s).get CLK_COUNTS.switches = Nat.min (s.get CLK_COUNTS.switches + 1) 65535 := by
  rw [switchedTo_eq, progress_get, State.withClk_get, get_raise_other (by decide), get_bump_same (by decide), get_setPair_other (by decide) (by decide),
    switchMarked_get (by decide) (by decide)]
  rfl

theorem progress_clk (f : Nat) : (s.progress f).clk = s.clk := rfl

theorem deselect_tt : (deselect s).tt = s.tt := forEach_keeps (fun t => t.tt) fun _ _ _ => State.set_tt _ _ _

theorem switchMarked_now : (switchMarked dst s).now = s.now := by
  rw [switchMarked, State.set_now, State.set_now, State.set_now, State.now, deselect_tt, State.now]

theorem switchedTo_instant : (switchedTo dst s).pair CLK_SWITCH_TT_LO = s.now % 2 ^ 64 := by
  rw [switchedTo_eq, switchMarked_now]
  refine Eq.trans (pair_congr ?_ ?_) (pair_setPair_mod (s := switchMarked dst s))
  · rw [progress_reg, State.withClk_reg, reg_raise_other (by decide), reg_bump_other (by decide)]
  · rw [progress_reg, State.withClk_reg, reg_raise_other (by decide), reg_bump_other (by decide)]

theorem switchedTo_switch : (switchedTo dst s).clk.switch = none := by
  rw [switchedTo_eq, progress_clk, clk_withClk]
end

section
variable {w : SwitchH} (hw : s.clk.switch = some w) (hd : w.dst < 11)
include hw hd

/-- The end of a switch, by whether the mode changes with it. -/
theorem switchDone_cases {m : Nat} (hm : (if w.dst = 0x0A then 2 else 1) = m) :
    (s.get CLK_STATUS.mode = m → switchDone s = afterSwitch w.dst (switchedTo w.dst s)) ∧
    (s.get CLK_STATUS.mode ≠ m → switchDone s = (startGlide (modeKHz (s.get CLK_STATUS.mode)) (modeKHz m) m
      ((afterSwitch w.dst (switchedTo w.dst s)).set CLK_STATUS.mode m)).when (modeKHz (s.get CLK_STATUS.mode) < modeKHz m) adcClockAbort) := by
  have hne : ¬ (w.dst == watchOsc) = true := by simp [watchOsc]; omega
  have hm' : (if w.dst == 0x0A then mRING else mREF) = m := by simp [← hm, mRING, mREF]
  unfold switchDone
  rw [hw]
  show (_ → (if (w.dst == watchOsc) = true then _ else _) = _) ∧ (_ → (if (w.dst == watchOsc) = true then _ else _) = _)
  rw [if_neg hne, hm']
  exact ⟨fun h => if_pos (beq_iff_eq.2 h), fun h => if_neg (by simpa using h)⟩
end

/-- `t` ends the switch to `dst` of `s`: all but the mode and the glide. -/
structure SwitchEnds (dst : Nat) (s t : State) : Prop where
  selected : t.get CLK_STATUS.selected = dst
  switching : t.get CLK_STATUS.switching = 0
  sources : ∀ i : Fin 11, t.get (CLK_SRC_STAT.selected i) = if i.val = dst then 1 else 0
  event : t.get CLK_EVENTS.switched = 1
  instant : t.pair CLK_SWITCH_TT_LO = s.now % 2 ^ 64
  count : t.get CLK_COUNTS.switches = Nat.min (s.get CLK_COUNTS.switches + 1) 65535
  switch : t.clk.switch = none

theorem afterSwitch_get {dst : Nat} {g : Fld} (hg : Early g.addr) (hr : g.addr ≠ CLK_RING) : (afterSwitch dst s).get g = s.get g :=
  congrArg (bitsOf · g.lo g.w) (afterSwitch_keeps.1 _ hg hr)

theorem srcStat_early {i : Nat} (hi : i < 11) : Early (CLK_SRC_STAT i) := by unfold Early CLK_SRC_STAT; omega

theorem afterSwitch_ends {dst : Nat} (hd : dst < 11) : SwitchEnds dst s (afterSwitch dst (switchedTo dst s)) := by
  refine ⟨?_, ?_, fun i => ?_, ?_, ?_, ?_, afterSwitch_keeps.2.trans switchedTo_switch⟩
  · rw [afterSwitch_get (by decide) (by decide), switchedTo_selected hd]
  · rw [afterSwitch_get (by decide) (by decide), switchedTo_switching]
  · rw [afterSwitch_get (srcStat_early i.isLt) (srcStat_ne (by decide)), switchedTo_source i.isLt]
  · rw [afterSwitch_get (by decide) (by decide), switchedTo_event]
  · refine Eq.trans (pair_congr ?_ ?_) (switchedTo_instant (dst := dst))
    · exact afterSwitch_keeps.1 _ (by decide) (by decide)
    · exact afterSwitch_keeps.1 _ (by decide) (by decide)
  · rw [afterSwitch_get (by decide) (by decide), switchedTo_count]

/-- The glide after a switch leaves what the switch has shown. -/
theorem glideAfter_leaves {a b m : Nat} {up : Bool} : Leaves Early (startGlide a b m s) ((startGlide a b m s).when up adcClockAbort) :=
  of_when (P := Leaves Early _) Leaves.refl (Leaves.sees.mono early_quiet).adcClockAbort

theorem startGlide_reg {a b m x : Nat} (hx : Early x) (hst : x ≠ CLK_STATUS) : (startGlide a b m s).reg x = s.reg x := by
  rw [startGlide_leaves.reg x hx, State.withClk_reg, glideMarked, reg_raise_other hst, reg_set_other hst, reg_raise_other hst]

theorem SwitchEnds.glide {dst a b m : Nat} {up : Bool} (h : SwitchEnds dst s t) :
    SwitchEnds dst s ((startGlide a b m (t.set CLK_STATUS.mode m)).when up adcClockAbort) := by
  have hl : Leaves Early _ ((startGlide a b m (t.set CLK_STATUS.mode m)).when up adcClockAbort) := glideAfter_leaves
  have hreg {x : Nat} (hx : Early x) (hst : x ≠ CLK_STATUS) :
      ((startGlide a b m (t.set CLK_STATUS.mode m)).when up adcClockAbort).reg x = t.reg x := by
    rw [hl.reg x hx, startGlide_reg hx hst, reg_set_other hst]
  have hget {g : Fld} (hx : Early g.addr) (hst : g.addr ≠ CLK_STATUS) :
      ((startGlide a b m (t.set CLK_STATUS.mode m)).when up adcClockAbort).get g = t.get g := congrArg (bitsOf · g.lo g.w) (hreg hx hst)
  refine ⟨?_, ?_, fun i => ?_, ?_, ?_, ?_, ?_⟩
  · rw [hl.get (by decide), startGlide_get (by decide) rfl rfl rfl, get_set_of_apart rfl, h.selected]
  · rw [hl.get (by decide), startGlide_get (by decide) rfl rfl rfl, get_set_of_apart rfl, h.switching]
  · rw [hget (srcStat_early i.isLt) (srcStat_ne (by decide)), h.sources]
  · rw [hget (by decide) (by decide), h.event]
  · exact (pair_congr (hreg (by decide) (by decide)) (hreg (by decide) (by decide))).trans h.instant
  · rw [hget (by decide) (by decide), h.count]
  · rw [hl.clk, startGlide_clk]
    exact (congrArg ClkH.switch (State.set_clk _ _ _)).trans h.switch

/-- A switch that ends, by R58. -/
theorem switchDone_acts (s : State) (w : SwitchH) (hw : s.clk.switch = some w) (hd : w.dst < 11) :
    let m := if w.dst = 0x0A then 2 else 1
    Completes .referenceSwitchDone s (fun s' => s'.get CLK_STATUS.selected = w.dst ∧ s'.get CLK_STATUS.switching = 0 ∧
      s'.get CLK_STATUS.mode = m ∧ (∀ i : Fin 11, s'.get (CLK_SRC_STAT.selected i) = if i.val = w.dst then 1 else 0) ∧
      s'.get CLK_EVENTS.switched = 1 ∧ s'.pair CLK_SWITCH_TT_LO = s.now % 2 ^ 64 ∧
      s'.get CLK_COUNTS.switches = Nat.min (s.get CLK_COUNTS.switches + 1) 65535 ∧ s'.clk.switch = none ∧
      (s.get CLK_STATUS.mode = m → s'.get CLK_STATUS.glide = s.get CLK_STATUS.glide) ∧
      (s.get CLK_STATUS.mode ≠ m → s'.get CLK_STATUS.glide = 1 ∧ s'.clk.glideLeft = 8192 ∧ s'.clk.glideMode = m)) := by
  intro m
  have hlt : m < 8 := by simp only [m]; split <;> decide
  obtain ⟨hsame, hother⟩ := switchDone_cases hw hd (m := m) rfl
  by_cases hm : s.get CLK_STATUS.mode = m
  · have h : SwitchEnds w.dst s (switchDone s) := hsame hm ▸ afterSwitch_ends hd
    have hget {g : Fld} (hg : g.addr = CLK_STATUS) (hsel : CLK_STATUS.selected.apart g = true) (hsw : CLK_STATUS.switching.apart g = true) :
        (switchDone s).get g = s.get g := by
      rw [hsame hm, afterSwitch_get (by rw [hg]; decide) (by rw [hg]; decide), switchedTo_status hg hsel hsw]
    exact ⟨_, rfl, h.selected, h.switching, (hget rfl rfl rfl).trans hm, h.sources, h.event, h.instant, h.count, h.switch,
      fun _ => hget rfl rfl rfl, fun hne => absurd hm hne⟩
  · have h : SwitchEnds w.dst s (switchDone s) := hother hm ▸ (afterSwitch_ends hd).glide
    have hl := glideAfter_leaves (s := (afterSwitch w.dst (switchedTo w.dst s)).set CLK_STATUS.mode m) (a := modeKHz (s.get CLK_STATUS.mode))
      (b := modeKHz m) (m := m) (up := modeKHz (s.get CLK_STATUS.mode) < modeKHz m)
    rw [← hother hm] at hl
    refine ⟨_, rfl, h.selected, h.switching, ?_, h.sources, h.event, h.instant, h.count, h.switch, fun he => absurd he hm, fun _ => ⟨?_, ?_, ?_⟩⟩
    · rw [hl.get (by decide), startGlide_get (by decide) rfl rfl rfl, get_set_of_lt (by decide) hlt]
    · rw [hl.get (by decide), startGlide_glide]
    · rw [hl.clk, startGlide_clk]
    · rw [hl.clk, startGlide_clk]

/-- The switch of clock-fault hold ends without a source selected (R59). -/
theorem switchDone_watch (s : State) (w : SwitchH) (hw : s.clk.switch = some w) (hd : w.dst = 0xFF) :
    Completes .referenceSwitchDone s (fun s' =>
      s'.clk.switch = none ∧ s'.get CLK_STATUS.switching = 0 ∧ RegsOnly [CLK_STATUS] s { s' with clk := s.clk }) := by
  have heq : switchDone s = (s.set CLK_STATUS.switching 0).withClk { s.clk with switch := none } := by
    unfold switchDone
    rw [hw]
    exact if_pos (by rw [hd]; rfl)
  refine ⟨_, congrArg Host.Outcome.next heq, by rw [clk_withClk], ?_, clockOnly_withClk (clockOnly_set clockOnly_refl (by decide))⟩
  rw [State.withClk_get, get_set_of_lt (by decide) (by decide)]

/-! ### The timeout of a switch (R58, R59) -/

section
variable {w : SwitchH} (hw : s.clk.switch = some w)
include hw

theorem deadswitch_waits (h : w.dead = true ∨ (w.src = 0xFE ∧ w.dst ≠ 0xFF)) : exec .deadswitch s = .next s := by
  refine congrArg Host.Outcome.next ?_
  unfold deadswitch
  rw [hw]
  refine if_pos ?_
  rcases h with h | ⟨hsrc, hdst⟩
  · simp [h]
  · simp [hsrc, hdst, noSource, watchOsc]

/-- The registers of a timeout, before its record. -/
def deadMarked (s : State) : State :=
  ((s.raise CLK_LAST_SWITCH.deadswitch).bump CLK_COUNTS.deadswitches).raise CLK_EVENTS.deadswitch

theorem deadswitch_eq (hd : w.dead = false) (h : w.src ≠ 0xFE ∨ w.dst = 0xFF) : ∃ u, Leaves Quiet (deadMarked s) u ∧
    deadswitch s = u.withClk { u.clk with switch := some { w with dead := true } } := by
  refine ⟨(deadMarked s).fault 0x21 w.src (((s.raise CLK_LAST_SWITCH.deadswitch).bump CLK_COUNTS.deadswitches).reg CLK_LAST_SWITCH),
    Leaves.sees.fault Leaves.refl, ?_⟩
  unfold deadswitch
  rw [hw]
  refine if_neg ?_
  simp only [hd, noSource, watchOsc, Bool.false_or, Bool.and_eq_true, beq_iff_eq, bne_iff_ne]
  omega

theorem deadswitch_acts (hd : w.dead = false) (h : w.src ≠ 0xFE ∨ w.dst = 0xFF) : Completes .deadswitch s (fun s' =>
    s'.get CLK_LAST_SWITCH.deadswitch = 1 ∧
    s'.get CLK_COUNTS.deadswitches = Nat.min (s.get CLK_COUNTS.deadswitches + 1) 65535 ∧ s'.get CLK_EVENTS.deadswitch = 1 ∧
    s'.clk.switch = some { w with dead := true } ∧ s'.get CLK_STATUS.selected = s.get CLK_STATUS.selected) := by
  obtain ⟨u, hu, heq⟩ := deadswitch_eq hw hd h
  refine ⟨_, congrArg Host.Outcome.next heq, ?_, ?_, ?_, by rw [clk_withClk], ?_⟩
  · rw [State.withClk_get, hu.get (by decide), deadMarked, get_raise_other (by decide), get_bump_other (by decide), get_raise_same (by decide) (by decide)]
  · rw [State.withClk_get, hu.get (by decide), deadMarked, get_raise_other (by decide), get_bump_same (by decide), get_raise_other (by decide)]
    rfl
  · rw [State.withClk_get, hu.get (by decide), deadMarked, get_raise_same (by decide) (by decide)]
  · rw [State.withClk_get, hu.get (by decide), deadMarked, get_raise_other (by decide), get_bump_other (by decide), get_raise_other (by decide)]

end

/-! ### The end of a glide (R49, R64, R65) -/

theorem refreshDegraded_reg {a : Nat} (hs : a ≠ TT_STATUS) (he : a ≠ TT_EVENTS) : s.refreshDegraded.reg a = s.reg a := by
  unfold State.refreshDegraded
  extract_lets c st d u
  have hu : u.reg a = s.reg a := when_keeps (fun t => t.reg a) (reg_raise_other he)
  exact (reg_set_other (f := TT_STATUS.degraded) hs).trans ((reg_set_other (f := TT_STATUS.clock_degraded) hs).trans hu)

theorem get_setB_same {f : Fld} {b : Bool} (hf : f.lo + f.w ≤ 32) (hw : 0 < f.w) : (s.setB f b).get f = if b then 1 else 0 := by
  refine get_set_of_lt hf ?_
  have hone : 1 < 2 ^ f.w := Nat.one_lt_two_pow hw.ne'
  split <;> omega

/-- A glide that has run out, up to the mode it ends in. -/
def glideStopped (s : State) : State := (s.set CLK_STATUS.glide 0).progress 0
/-- The exit from Lull. -/
def lullExit (s : State) : State := edgeLull false ((s.set CLK_STATUS.lull 0).raise CLK_EVENTS.lull_exit)
/-- The registers of the mode a glide ends in. -/
def glideSettled (m : Nat) (s : State) : State :=
  let s := s.setB CLK_STATUS.degraded (m != mREF)
  (spreadStart (s.setP (nominalP s m))).refreshDegraded

theorem glideEnd_eq (hg : s.get CLK_STATUS.glide = 1) (hl : s.clk.glideLeft = 0) : glideEnd s = glideSettled s.clk.glideMode
    ((glideStopped s).when (s.clk.glideMode != mLULL && (glideStopped s).is CLK_STATUS.lull) lullExit) := if_pos (by simp [State.is, hg, hl])

theorem lullExit_get {g : Fld} (hg : Early g.addr) (hl : CLK_STATUS.lull.apart g = true) (he : CLK_EVENTS.lull_exit.apart g = true) :
    (lullExit s).get g = s.get g := by
  have h : Leaves Quiet ((s.set CLK_STATUS.lull 0).raise CLK_EVENTS.lull_exit) (lullExit s) := Leaves.sees.edgeLull Leaves.refl
  rw [h.get (early_quiet _ hg), State.raise, get_set_of_apart he, get_set_of_apart hl]

theorem lullExit_shows : (lullExit s).get CLK_STATUS.lull = 0 ∧ (lullExit s).get CLK_EVENTS.lull_exit = 1 := by
  have h : Leaves Quiet ((s.set CLK_STATUS.lull 0).raise CLK_EVENTS.lull_exit) (lullExit s) := Leaves.sees.edgeLull Leaves.refl
  rw [h.get (by decide), h.get (by decide), get_raise_other (by decide), get_raise_same (by decide) (by decide),
    get_set_of_lt (by decide) (by decide)]
  exact ⟨rfl, rfl⟩

section
variable {m : Nat}

theorem get_setP {p : Nat} {g : Fld} (hp : g.addr ≠ TT_PERIOD) (hf : g.addr ≠ TT_PERIOD_FINE) : (s.setP p).get g = s.get g :=
  (get_setN_other hf).trans (get_setN_other hp)

theorem glideSettled_leaves : ∃ (u : State) (c : ClkH), Leaves Early ((u.setB CLK_STATUS.spread_active
      (u.get CLK_STATUS.mode == mREF && u.get CLK_REF_CFG.spread_depth != 0)).withClk c) (glideSettled m s) ∧
    (∀ {g : Fld}, g.addr ≠ TT_PERIOD → g.addr ≠ TT_PERIOD_FINE → u.get g = (s.setB CLK_STATUS.degraded (m != mREF)).get g) := by
  refine ⟨(s.setB CLK_STATUS.degraded (m != mREF)).setP (nominalP (s.setB CLK_STATUS.degraded (m != mREF)) m), _,
    Leaves.sees.refreshDegraded Leaves.refl, get_setP⟩

theorem glideSettled_get {g : Fld} (hg : Early g.addr) (hs : CLK_STATUS.spread_active.apart g = true)
    (hd : CLK_STATUS.degraded.apart g = true) : (glideSettled m s).get g = s.get g := by
  obtain ⟨u, c, hl, hu⟩ := glideSettled_leaves (s := s) (m := m)
  have hp : g.addr ≠ TT_PERIOD ∧ g.addr ≠ TT_PERIOD_FINE := by
    unfold Early at hg
    unfold TT_PERIOD TT_PERIOD_FINE
    omega
  rw [hl.get hg, State.withClk_get, State.setB, get_set_of_apart hs, hu hp.1 hp.2, State.setB, get_set_of_apart hd]

theorem glideSettled_degraded : (glideSettled m s).get CLK_STATUS.degraded = if m = 1 then 0 else 1 := by
  obtain ⟨u, c, hl, hu⟩ := glideSettled_leaves (s := s) (m := m)
  rw [hl.get (by decide), State.withClk_get, State.setB, get_set_of_apart rfl, hu (by decide) (by decide), get_setB_same (by decide) (by decide)]
  by_cases h : m = 1
  · simp [h, mREF]
  · simp [h, mREF]

theorem glideSettled_spread : (glideSettled m s).get CLK_STATUS.spread_active =
    if s.get CLK_STATUS.mode = 1 ∧ s.get CLK_REF_CFG.spread_depth ≠ 0 then 1 else 0 := by
  obtain ⟨u, c, hl, hu⟩ := glideSettled_leaves (s := s) (m := m)
  have hmode : u.get CLK_STATUS.mode = s.get CLK_STATUS.mode := (hu (by decide) (by decide)).trans (get_set_of_apart rfl)
  have hdepth : u.get CLK_REF_CFG.spread_depth = s.get CLK_REF_CFG.spread_depth := (hu (by decide) (by decide)).trans (get_set_of_apart rfl)
  rw [hl.get (by decide), State.withClk_get, get_setB_same (by decide) (by decide), hmode, hdepth]
  simp [mREF]

theorem glideSettled_period : (glideSettled 1 s).reg TT_PERIOD = 0x01555555 ∧ (glideSettled 1 s).reg TT_PERIOD_FINE = 0x55555555 := by
  unfold glideSettled spreadStart
  extract_lets u on base
  have hp : nominalP u 1 = 0x0155555555555555 := rfl
  have hreg {a : Nat} (hs : a ≠ TT_STATUS) (he : a ≠ TT_EVENTS) (hc : a ≠ CLK_STATUS) {c : ClkH} :
      ((((u.setP (nominalP u 1)).setB CLK_STATUS.spread_active on).withClk c).refreshDegraded).reg a = (u.setP 0x0155555555555555).reg a := by
    rw [refreshDegraded_reg hs he, State.withClk_reg, State.setB, reg_set_other hc, hp]
  refine ⟨(hreg (by decide) (by decide) (by decide)).trans ?_, (hreg (by decide) (by decide) (by decide)).trans ?_⟩
  · rw [State.setP, reg_setN_other (by decide), reg_setN_same]
    rfl
  · rw [State.setP, reg_setN_same]
    rfl

end

theorem glideEnd_acts (hg : s.get CLK_STATUS.glide = 1) (hl : s.clk.glideLeft = 0) : Completes .glideEnd s (fun s' =>
    s'.get CLK_STATUS.glide = 0 ∧ s'.get CLK_STATUS.degraded = (if s.clk.glideMode = 1 then 0 else 1) ∧
    (s.clk.glideMode ≠ 3 → s.get CLK_STATUS.lull = 1 → s'.get CLK_STATUS.lull = 0 ∧ s'.get CLK_EVENTS.lull_exit = 1) ∧
    s'.get CLK_STATUS.spread_active = (if s.get CLK_STATUS.mode = 1 ∧ s.get CLK_REF_CFG.spread_depth ≠ 0 then 1 else 0) ∧
    (s.clk.glideMode = 1 → s'.reg TT_PERIOD = 0x01555555 ∧ s'.reg TT_PERIOD_FINE = 0x55555555)) := by
  have hget {g : Fld} (hg : Early g.addr) (hglide : CLK_STATUS.glide.apart g = true) (hl : CLK_STATUS.lull.apart g = true)
      (he : CLK_EVENTS.lull_exit.apart g = true) {b : Bool} : ((glideStopped s).when b lullExit).get g = s.get g :=
    (when_keeps (fun t => t.get g) (lullExit_get hg hl he)).trans ((progress_get _ _).trans (get_set_of_apart hglide))
  have hzero {b : Bool} : ((glideStopped s).when b lullExit).get CLK_STATUS.glide = 0 :=
    (when_keeps (fun t => t.get CLK_STATUS.glide) (lullExit_get (by decide) rfl rfl)).trans
      ((progress_get _ _).trans (get_set_of_lt (by decide) (by decide)))
  refine ⟨_, congrArg Host.Outcome.next (glideEnd_eq hg hl), ?_, glideSettled_degraded, fun hm hlull => ?_, ?_, fun hm => ?_⟩
  · rw [glideSettled_get (by decide) rfl rfl, hzero]
  · have hb : (s.clk.glideMode != mLULL && (glideStopped s).is CLK_STATUS.lull) = true := by
      have his : (glideStopped s).get CLK_STATUS.lull = 1 := ((progress_get _ _).trans (get_set_of_apart rfl)).trans hlull
      simp [State.is, his, hm, mLULL]
    rw [hb, State.when_true, glideSettled_get (by decide) rfl rfl, glideSettled_get (by decide) rfl rfl]
    exact lullExit_shows
  · rw [glideSettled_spread, hget (by decide) rfl rfl rfl, hget (by decide) rfl rfl rfl]
  · rw [hm]
    exact glideSettled_period

theorem glideEnd_waits (h : s.get CLK_STATUS.glide = 0 ∨ s.clk.glideLeft ≠ 0) : exec .glideEnd s = .next s :=
  congrArg Host.Outcome.next (if_neg (by
    simp only [State.is, Bool.and_eq_true, bne_iff_ne, beq_iff_eq]
    omega))

/-! ### Clock-fault hold (R67) -/

theorem SeesLanes.mono {B B' : Nat → Prop} {P : State → Prop} (hP : SeesLanes B P) (h : ∀ a, B a → B' a) : SeesLanes B' P :=
  ⟨hP.toSees.mono h, hP.lanes⟩

/-- A change of one port's link leaves a field of another page of registers, and the link of another port. -/
theorem linkChange_get {p speed : Nat} {up : Bool} {g : Fld} (hg : Linkless p g.addr) : (linkChange p up speed s).get g = s.get g :=
  SeesLanes.linkChange (P := fun t => t.get g = s.get g) (p := p)
    ⟨(Sees.get g _).mono (fun a (h : a = g.addr) => h ▸ hg), fun h => (State.withClk_get _ _ _).trans h⟩ rfl

theorem portStatus_unstomped {p : Nat} : Unstomped (PORT_STATUS p) := by unfold Unstomped PORT_STATUS; omega

/-- A port whose link goes down shows none. -/
theorem linkChange_down {p speed : Nat} : (linkChange p false speed s).get (PORT_STATUS.link p) = 0 := by
  have hw : (PORT_STATUS.link p).lo + (PORT_STATUS.link p).w ≤ 32 := Nat.le_of_ble_eq_true rfl
  have hsees : Sees Unstomped (fun t : State => t.get (PORT_STATUS.link p) = 0) :=
    (Sees.get _ _).mono fun a (h : a = PORT_STATUS p) => h ▸ portStatus_unstomped
  unfold linkChange
  extract_lets s1 rate speed1 up1 s2 s3
  have hup : up1 = false := by simp [up1]
  clear_value up1
  subst hup
  split
  next h =>
    have hzero : s1.get (PORT_STATUS.link p) = 0 := by simpa [State.is] using h
    exact hzero
  next _ =>
    have h2 : s2.get (PORT_STATUS.link p) = 0 := (get_set_of_apart rfl).trans (get_set_of_lt hw (by show 0 < 2 ^ 1; decide))
    have h3 : s3.get (PORT_STATUS.link p) = 0 := by
      have hs3 : s3 = ((portCleared p s2).withClk { (portCleared p s2).clk with
          linkDown := updAt (portCleared p s2).clk.linkDown p (fun _ => true) }).set (PORT_STATUS.as_capable p) 0 := rfl
      rw [hs3, get_set_of_apart rfl, State.withClk_get]
      exact hsees.portCleared h2
    exact hsees.raise (by decide) h3

/-- The links of all ports go down (R67). -/
def linksDown (s : State) : State := s.forEach (List.range 8) (fun p => linkChange p false 0)

theorem linksDown_get {g : Fld} (hg : g.addr < 0xC0000) : (linksDown s).get g = s.get g :=
  forEach_keeps (fun t => t.get g) fun _ _ _ => linkChange_get (Or.inl hg)

theorem linksDown_link (p : Fin 8) : (linksDown s).get (PORT_STATUS.link p) = 0 := by
  refine forEach_establishes (P := fun t => t.get (PORT_STATUS.link p) = 0) (List.mem_range.2 p.isLt) (fun _ => linkChange_down) fun q t ht => ?_
  by_cases hq : q = p.val
  · subst hq
    exact linkChange_down
  · refine (linkChange_get (Or.inr ?_)).trans ht
    show 0xC1000 ≤ PORT_STATUS p ∧ PORT_STATUS p % 0x400 = 4 ∧ PORT_STATUS p ≠ PORT_STATUS q
    unfold PORT_STATUS
    omega

/-- The clock's part of the hold. -/
def holdStarted (atPor : Bool) (s : State) : State := s.withClk { s.clk with
  hold := if atPor then 1 else 2, switch := some ⟨if atPor then 0x0A else noSource, watchOsc, 0, false⟩ }

/-- The registers of the hold. -/
def holdMarked (atPor : Bool) (s : State) : State :=
  ((((s.set HOST_STATUS.pcie_link 0).raise CLK_STATUS.switching).raise CLK_HOLD_RECORD.hold_entered).setB CLK_HOLD_RECORD.at_power_on
    atPor).bump CLK_HOLD_RECORD.holds

theorem holdMarked_clk {atPor : Bool} : (holdMarked atPor s).clk = s.clk := by
  rw [holdMarked, State.bump_clk, State.setB_clk, State.raise_clk, State.raise_clk, State.set_clk]

/-- Whether the ring has failed before any passed check. -/
def Starting (s : State) : Prop := s.get CLK_STATUS.mode = 0 ∧ s.clk.passed = false

theorem clockFaultHold_eq {atPor : Bool} (hhold : s.clk.hold = 0) (hring : s.get CLK_RING.state = 0) (hpor : atPor = true ↔ Starting s)
    (h : Starting s ∨ s.clk.lullRing = true) : ∃ c d, clockFaultHold s =
      (holdMarked atPor (outputsSafe (holdStarted atPor (linksDown s)))).fault c 0 d := by
  have hb : (s.get CLK_STATUS.mode == mSTART && !s.clk.passed) = atPor := by
    rw [Bool.eq_iff_iff, hpor]
    simp [Starting, mSTART]
  have hgo : (s.clk.hold == 0 && s.get CLK_RING.state == 0 && (atPor || s.clk.lullRing)) = true := by
    rcases h with h | h
    · simp [hhold, hring, hpor.2 h]
    · simp [hhold, hring, h]
  unfold clockFaultHold
  extract_lets b s1 base s2 s3 s4
  have hb' : b = atPor := hb
  have h1 : s1 = linksDown s := rfl
  have h2 : s2 = outputsSafe (holdStarted b s1) := rfl
  have h4 : s4 = holdMarked b s2 := rfl
  clear_value s4 s2 s1 b
  subst hb' h1 h2 h4
  exact ⟨_, _, if_pos hgo⟩

theorem clockFaultHold_acts {atPor : Bool} (hhold : s.clk.hold = 0) (hring : s.get CLK_RING.state = 0) (hpor : atPor = true ↔ Starting s)
    (h : Starting s ∨ s.clk.lullRing = true) : Completes .clockFaultHold s (fun s' =>
      s'.clk.hold = (if atPor then 1 else 2) ∧ s'.get CLK_HOLD_RECORD.hold_entered = 1 ∧
      s'.get CLK_HOLD_RECORD.at_power_on = (if atPor then 1 else 0) ∧
      s'.get CLK_HOLD_RECORD.holds = Nat.min (s.get CLK_HOLD_RECORD.holds + 1) 255 ∧
      s'.get HOST_STATUS.pcie_link = 0 ∧ (∀ p : Fin 8, s'.get (PORT_STATUS.link p) = 0) ∧
      s'.clk.switch = some ⟨if atPor then 0x0A else 0xFE, 0xFF, 0, false⟩) := by
  obtain ⟨c, d, heq⟩ := clockFaultHold_eq hhold hring hpor h
  have hsafe : Leaves Quiet (holdStarted atPor (linksDown s)) (outputsSafe (holdStarted atPor (linksDown s))) := Leaves.sees.outputsSafe Leaves.refl
  generalize hu : outputsSafe (holdStarted atPor (linksDown s)) = u at hsafe heq
  have hfault : Leaves Quiet (holdMarked atPor u) ((holdMarked atPor u).fault c 0 d) := Leaves.sees.fault Leaves.refl
  have hclk : ((holdMarked atPor u).fault c 0 d).clk = (holdStarted atPor (linksDown s)).clk :=
    hfault.clk.trans (holdMarked_clk.trans hsafe.clk)
  have hport (p : Fin 8) : Quiet (PORT_STATUS p) := by unfold Quiet PORT_STATUS; omega
  refine ⟨_, congrArg Host.Outcome.next heq, ?_, ?_, ?_, ?_, ?_, fun p => ?_, ?_⟩
  · rw [hclk, holdStarted, clk_withClk]
  · rw [hfault.get (by decide), holdMarked, State.bump, get_set_of_apart rfl, State.setB, get_set_of_apart rfl, get_raise_same (by decide) (by decide)]
  · rw [hfault.get (by decide), holdMarked, State.bump, get_set_of_apart rfl, get_setB_same (by decide) (by decide)]
  · have hold : u.get CLK_HOLD_RECORD.holds = s.get CLK_HOLD_RECORD.holds := by
      rw [hsafe.get (by decide), holdStarted, State.withClk_get, linksDown_get (by decide)]
    rw [hfault.get (by decide), holdMarked, get_bump_same (by decide), State.setB, get_set_of_apart rfl, State.raise, get_set_of_apart rfl,
      State.raise, get_set_of_apart rfl, get_set_of_apart rfl, hold]
    rfl
  · rw [hfault.get (by decide), holdMarked, State.bump, get_set_of_apart rfl, State.setB, get_set_of_apart rfl, State.raise, get_set_of_apart rfl,
      State.raise, get_set_of_apart rfl, get_set_of_lt (by decide) (by decide)]
  · have hne {a : Nat} (ha : a < 0xC0000) : (PORT_STATUS.link p).addr ≠ a := by
      show PORT_STATUS p ≠ a
      unfold PORT_STATUS
      omega
    rw [hfault.get (hport p), holdMarked, get_bump_other (hne (by decide)), State.setB, State.get_set_other _ _ _ _ (hne (by decide)),
      get_raise_other (hne (by decide)), get_raise_other (hne (by decide)), State.get_set_other _ _ _ _ (hne (by decide)), hsafe.get (hport p),
      holdStarted, State.withClk_get, linksDown_link]
  · rw [hclk, holdStarted, clk_withClk]
    rfl

theorem clockFaultHold_waits (h : s.clk.hold ≠ 0 ∨ s.get CLK_RING.state ≠ 0 ∨ (¬ Starting s ∧ s.clk.lullRing = false)) :
    exec .clockFaultHold s = .next s := by
  refine congrArg Host.Outcome.next (if_neg ?_)
  rcases h with h | h | ⟨hn, hl⟩
  · simp [h]
  · simp [h]
  · simp only [Starting, not_and, Bool.not_eq_false] at hn
    simp only [hl, mSTART, Bool.and_eq_true, beq_iff_eq, Bool.or_false, Bool.not_eq_true', not_and, Bool.not_eq_false]
    exact fun _ hm => hn hm

/-! ### A further timeout of the hold -/

theorem rungDue_first {rung fn cause : Nat} (h : s.flt.due = none) : s.rungDue rung fn cause = { s with flt := { s.flt with due := some (rung, fn, cause) } } := by
  unfold State.rungDue
  rw [h]

theorem holdTimeout_acts (s : State) (hhold : s.clk.hold ≠ 0) (hring : s.get CLK_RING.state = 0) (hdue : s.flt.due = none) :
    let limit := s.get LADDER_CFG1.r4_limit
    (limit = 0 ∨ s.get LADDER_STATUS.rung4 < limit → Completes .holdTimeout s (fun s' => s'.flt.due = some (4, 0, 3) ∧ s'.io = s.io)) ∧
    (limit ≠ 0 → limit ≤ s.get LADDER_STATUS.rung4 → Completes .holdTimeout s (fun s' => s'.flt.due = some (3, 0, 3) ∧
      s'.get LADDER_STATUS.exhausted = 1)) := by
  intro limit
  have hheld : holdTimeout s = s.rung4 0 3 := by
    unfold holdTimeout
    rw [bne_iff_ne.2 hhold, beq_iff_eq.2 hring, Bool.and_self, State.when_true]
  have hexec : exec .holdTimeout s = .next (s.rung4 0 3) := congrArg Host.Outcome.next hheld
  refine ⟨fun h => ⟨_, hexec, ?_⟩, fun h0 hle => ⟨_, hexec, ?_⟩⟩
  · have heq : s.rung4 0 3 = s.rungDue 4 0 3 := if_neg (by
      simp only [Bool.and_eq_true, bne_iff_ne, decide_eq_true_eq]
      omega)
    rw [heq, rungDue_first hdue]
    exact ⟨rfl, rfl⟩
  · have heq : s.rung4 0 3 = (((s.raise LADDER_STATUS.exhausted).raise HOST_EVENTS.ladder_exhausted).rungDue 3 0 3).fault 0x31 0
        ((((s.raise LADDER_STATUS.exhausted).raise HOST_EVENTS.ladder_exhausted).rungDue 3 0 3).reg LADDER_STATUS) := if_pos (by
      simp only [Bool.and_eq_true, bne_iff_ne, decide_eq_true_eq]
      exact ⟨h0, hle⟩)
    have hl : Leaves Quiet (((s.raise LADDER_STATUS.exhausted).raise HOST_EVENTS.ladder_exhausted).rungDue 3 0 3) (s.rung4 0 3) :=
      heq ▸ Leaves.sees.fault Leaves.refl
    have hex : ((s.raise LADDER_STATUS.exhausted).raise HOST_EVENTS.ladder_exhausted).get LADDER_STATUS.exhausted = 1 := by
      rw [get_raise_other (by decide), get_raise_same (by decide) (by decide)]
    beta_reduce
    rw [hl.due, hl.get (by decide), State.get, rungDue_reg]
    refine ⟨?_, hex⟩
    rw [rungDue_first (by rw [State.raise_flt, State.raise_flt, hdue])]

/-- Settles O32: each clause is the lemma of its command. -/
theorem switchesGlidesAndHolds : Obligations.SwitchesGlidesAndHolds := by
  refine ⟨switchDone_acts, switchDone_watch, fun s w hw => ⟨deadswitch_acts hw, deadswitch_waits hw⟩, fun s => ⟨glideEnd_acts, glideEnd_waits⟩,
    fun s => ⟨fun hhold hring h => ?_, clockFaultHold_waits⟩, holdTimeout_acts⟩
  by_cases hs : Starting s
  · have hc := clockFaultHold_acts (atPor := true) hhold hring (by simp [hs]) h
    simpa only [if_pos (show _ ∧ _ from hs), if_true] using hc
  · have hc := clockFaultHold_acts (atPor := false) hhold hring (by simp [hs]) h
    simpa only [if_neg (show ¬ (_ ∧ _) from hs), Bool.false_eq_true, if_false] using hc

end Sys2Proof.Machine
end

section
/-!
O53. What the functions that show the boot write, and what they leave.
-/
namespace Sys2Proof.Machine
open Sys2Proof
variable {s t : State}

/-! ### What the boot shows -/

/-- The registers that `showBoot` leaves. -/
abbrev Unshown (a : Nat) : Prop := (a < 0x1C ∨ 0x3C ≤ a) ∧ a ≠ LADDER_STATUS

/-- The registers of the BOOT block's page. -/
abbrev BootPage (a : Nat) : Prop := a < 0x10000

theorem bootPage_quiet : ∀ a, BootPage a → Quiet a := fun _ h => Or.inl (Nat.lt_trans h (by decide))
theorem unshown_bootSlot {x : Nat} (hx : x < 2) : ¬ Unshown (BOOT_SLOT x) := by unfold Unshown BOOT_SLOT; omega
theorem unshown_bootVer {x : Nat} (hx : x < 2) : ¬ Unshown (BOOT_VER x) := by unfold Unshown BOOT_VER; omega

/-- What an uncorrectable MRAM line shows, before its record in the log. -/
def lineShown (key : Nat) (s : State) : State :=
  (((badLine key s).bump MRAM_STATUS.uncorr_count).raise MEM_EVENTS.mram_uncorr).setN MRAM_ERR_ADDR ((key - mramKey) / 32 * 32)

theorem mramLineBad_eq {off : Nat} : mramLineBad off s = (lineShown (mramKey + off) s).fault 0x26 0 ((lineShown (mramKey + off) s).reg MRAM_ERR_ADDR) := by
  simp only [mramLineBad, eccEvent, lineShown, show ((2 : Nat) == 0) = false from rfl, show ((2 : Nat) == 1) = false from rfl,
      Bool.false_eq_true, if_false]

namespace Sees
variable {B : Nat → Prop} {P : State → Prop}

theorem showSlotOutside {x : Nat} (hP : Sees B P) (hslot : ¬ B (BOOT_SLOT x)) (hver : ¬ B (BOOT_VER x)) (h : P s) : P (showSlot x s) :=
  hP.setB hslot (hP.setB hslot (hP.setB hslot (hP.setB hslot (hP.setB hslot (hP.set hslot (hP.setN hver h))))))
theorem showSlot {x : Nat} (hP : Sees Unshown P) (hx : x < 2) (h : P s) : P (showSlot x s) :=
  hP.showSlotOutside (unshown_bootSlot hx) (unshown_bootVer hx) h
theorem showRecords (hP : Sees Unshown P) (h : P s) : P (showRecords s) :=
  hP.set (by decide) (hP.set (by decide) (hP.setN (by decide) (hP.setN (by decide) (hP.setN (by decide) h))))
theorem showBoot (hP : Sees Unshown P) (h : P s) : P (showBoot s) :=
  hP.showSlot (by decide) (hP.showSlot (by decide) (hP.showRecords h))
theorem slotChecked {x code : Nat} (hP : Sees Unshown P) (hx : x < 2) (h : P s) : P (slotChecked x code s) :=
  hP.set (unshown_bootSlot hx) (hP.setB (unshown_bootSlot hx) h)
theorem bootFail {x code detail : Nat} (hP : Sees B P) (hB : ¬ B BOOT_FAIL) (h : P s) : P (bootFail x code detail s) :=
  hP.bump hB (hP.set hB (hP.set hB (hP.set hB (hP.set hB h))))
theorem show48 {a : Nat} {v : List Byte} (hP : Sees B P) (hB : ∀ w, w < 12 → ¬ B (a + 4 * w)) (h : P s) : P (show48 a v s) :=
  of_forEach h fun w hw _ => hP.setN (hB w (List.mem_range.mp hw))
theorem recFallback {ids : List Nat} (hP : Sees B P) (hB : ¬ B BOOT_EVENTS) (h : P s) : P (recFallback ids s) := of_when h (hP.raise hB)
end Sees

end Sys2Proof.Machine
end

section
/-!
O53. What leaves the boot's own state: one lemma for each function by which an inventory takes effect (R35 to R37, R71), in the order of
the model's files, for every property that looks only at that state.
-/
namespace Sys2Proof.Machine
open Sys2Proof
variable {s t : State}

/-! ### What leaves the boot's own state -/

/-- A property that does not look at the clock either. -/
structure SeesClk (B : Nat → Prop) (P : State → Prop) : Prop extends Sees B P where
  clk : ∀ {s : State} {c : ClkH}, P s → P { s with clk := c }

/-- A property that looks only at the page of the BOOT block, the active inventory, the rung due and the Storekeeper. -/
structure SeesBoot (P : State → Prop) : Prop extends SeesClk BootPage P where
  mem : ∀ {s : State} {m : List (Nat × Byte)}, P s → P { s with mem := m }
  inv : ∀ {s : State} {v : InvH}, v.active = s.inv.active → P s → P { s with inv := v }

/-- `t` has the BOOT block, the active inventory, the rung due and the Storekeeper as `s` has them. -/
structure BootLeaves (s t : State) : Prop where
  reg : ∀ a, BootPage a → t.reg a = s.reg a
  active : t.inv.active = s.inv.active
  due : t.flt.due = s.flt.due
  boot : t.boot = s.boot

theorem BootLeaves.refl : BootLeaves s s := ⟨fun _ _ => rfl, rfl, rfl, rfl⟩
theorem BootLeaves.get (h : BootLeaves s t) {g : Fld} (hg : BootPage g.addr) : t.get g = s.get g := congrArg (bitsOf · g.lo g.w) (h.reg _ hg)

theorem BootLeaves.sees : SeesBoot (BootLeaves s) where
  setReg {_ a _} ha h := ⟨fun b hb => (reg_setReg_other fun e : b = a => ha (e ▸ hb)).trans (h.reg b hb), h.active, h.due, h.boot⟩
  resetRegs hp h := ⟨fun b hb => (reg_resetRegs_of_not (hp b hb)).trans (h.reg b hb), h.active, h.due, h.boot⟩
  rest h := ⟨h.reg, h.active, h.due, h.boot⟩
  flt hd h := ⟨h.reg, h.active, hd.trans h.due, h.boot⟩
  clk h := ⟨h.reg, h.active, h.due, h.boot⟩
  mem h := ⟨h.reg, h.active, h.due, h.boot⟩
  inv hv h := ⟨h.reg, hv.trans h.active, h.due, h.boot⟩

theorem offPage {a : Nat} (h : 0x10000 ≤ a) : ¬ BootPage a := Nat.not_lt.mpr h
theorem offPage_cluster {a : Nat} (h : 0x100000 ≤ a) : ¬ BootPage a := offPage (Nat.le_trans (by decide) h)
theorem bankCtrl_le {b o : Nat} : 0x10000 ≤ bankCtrl b + o := by
  unfold bankCtrl BANK_CTRL CBANK_CTRL cluBlk
  split <;> omega
theorem portStatus_offPage {p : Nat} : ¬ BootPage (PORT_STATUS p) := offPage (by unfold PORT_STATUS; omega)
theorem portCfg_offPage {p : Nat} : ¬ BootPage (PORT_CFG p) := offPage (by unfold PORT_CFG; omega)
theorem domStat_offPage {d : Nat} : ¬ BootPage (PWR_DOM_STAT d) := offPage (by unfold PWR_DOM_STAT; omega)
theorem domCtrl_offPage {d : Nat} : ¬ BootPage (PWR_DOM_CTRL d) := offPage (by unfold PWR_DOM_CTRL; omega)
theorem hostFnStat_offPage {f : Nat} : ¬ BootPage (HOST_FN_STAT f) := offPage (by unfold HOST_FN_STAT; omega)
theorem peerStat_offPage {p : Nat} : ¬ BootPage (BEACON_PEER_STAT p) := offPage (by unfold BEACON_PEER_STAT; omega)
theorem edgSafeLvl_offPage {c : Nat} : ¬ BootPage (EDG_SAFE_LVL c) := offPage_cluster (by unfold EDG_SAFE_LVL cluBlk; omega)
theorem tileBlk_le {t : Nat} : 0x100000 ≤ tileBlk t := by unfold tileBlk; omega
theorem domRegs_offPage {d a : Nat} (ha : BootPage a) : domRegs d a = false := by
  have ha : a < 0x10000 := ha
  unfold domRegs tileBlk cluBlk PORT_CFG
  split
  · exact Bool.and_eq_false_imp.mpr fun h => absurd (of_decide_eq_true h) (by omega)
  split
  · exact Bool.and_eq_false_imp.mpr fun h => absurd (of_decide_eq_true h) (by omega)
  split
  · simp only [Bool.and_eq_false_iff, decide_eq_false_iff_not]
    omega
  · simp only [Bool.and_eq_false_iff, decide_eq_false_iff_not]
    omega
theorem tileResetReg_offPage {t a : Nat} (ha : BootPage a) : tileResetReg t a = false := by
  have hb := tileBlk_le (t := t)
  have ha : a < 0x10000 := ha
  unfold tileResetReg
  exact Bool.and_eq_false_imp.mpr fun h => absurd (of_decide_eq_true (Bool.and_eq_true_iff.mp h).1) (by omega)

namespace SeesClk
variable {P : State → Prop}

theorem lanes {B : Nat → Prop} (hP : SeesClk BootPage P) (hB : ∀ a, BootPage a → B a) : SeesLanes B P where
  toSees := hP.toSees.mono hB
  lanes := hP.clk

section
variable (hP : SeesClk BootPage P)
include hP

theorem quiet : Sees Quiet P := hP.toSees.mono bootPage_quiet
theorem early : Sees Early P := hP.toSees.mono fun _ ha => Nat.lt_trans ha (by decide)
theorem withClk {c : ClkH} (h : P s) : P (s.withClk c) := hP.clk h

/-! ### The clock and the ports of an inventory -/

theorem spreadStart (h : P s) : P (spreadStart s) := hP.withClk (hP.setB (by decide) h)
theorem applyClock {b : List Byte} (h : P s) : P (applyClock b s) :=
  of_when (hP.set (by decide) (hP.setN (by decide) (hP.setN (by decide) (hP.setN (by decide) (hP.setN (by decide) h))))) hP.spreadStart
theorem bootList (h : P s) : P (bootList s) :=
  hP.set (by decide) (hP.set (by decide) (hP.resetRegs (fun a (ha : a < 0x10000) => by
    have : ¬ CLK_REF_CFG ≤ a := by unfold CLK_REF_CFG; omega
    simp [this]) h))
theorem linkChange {p speed : Nat} {up : Bool} (h : P s) : P (linkChange p up speed s) :=
  (hP.lanes fun _ ha => Or.inl (Nat.lt_trans ha (by decide))).linkChange h
theorem applyPorts {b : List Byte} (h : P s) : P (applyPorts b s) :=
  of_forEach (of_forEach h fun _ _ _ => hP.setN portCfg_offPage) fun _ _ _ h =>
    of_when (of_when h (hP.set portStatus_offPage)) hP.linkChange

end
end SeesClk

namespace SeesBoot
variable {P : State → Prop} (hP : SeesBoot P)
include hP

theorem clearMem {lo hi : Nat} (h : P s) : P (s.clearMem lo hi) := hP.mem h
theorem setBytes {k : Nat} {d : List Byte} (h : P s) : P (s.setBytes k d) := by
  induction d generalizing s k with
  | nil => exact h
  | cons b rest ih => exact ih (hP.mem h)
theorem badWord {k : Nat} (h : P s) : P (badWord k s) := by
  unfold Machine.badWord
  extract_lets s1 s2
  have h1 : P s1 := hP.rest (hP.setBytes h)
  have h2 : P s2 := hP.rest (hP.setBytes h1)
  exact of_ite h (hP.rest h2)
theorem mramLineBad {off : Nat} (h : P s) : P (mramLineBad off s) := by
  have hline : P (badLine (mramKey + off) s) := of_forEach h fun _ _ _ => hP.badWord
  exact mramLineBad_eq ▸ hP.quiet.fault (hP.setN (by decide) (hP.raise (by decide) (hP.bump (by decide) hline)))

/-! ### The sections of an inventory -/

theorem loadReg {p : Nat → Bool} {a v : Nat} (ha : ¬ BootPage a) (h : P s) : P (loadReg p a v s) := of_when h (hP.setN ha)
theorem applyMemory {b : List Byte} {p : Nat → Bool} (h : P s) : P (applyMemory b p s) :=
  hP.loadReg (by decide) (of_forEach h fun _ _ _ => hP.loadReg (offPage bankCtrl_le))
theorem applyWorlds {b : List Byte} {p : Nat → Bool} (h : P s) : P (applyWorlds b p s) :=
  of_forEach h fun _ _ _ h => of_forEach h fun _ _ _ h => of_forEach h fun _ _ _ =>
    hP.loadReg (offPage_cluster (by unfold EXC_WIN tileBlk; omega))
theorem applyEdgeSafe {b : List Byte} {p : Nat → Bool} (h : P s) : P (applyEdgeSafe b p s) :=
  of_forEach h fun _ _ _ => hP.loadReg edgSafeLvl_offPage
theorem applyPortRecs {b : List Byte} {p : Nat → Bool} (h : P s) : P (applyPortRecs b p s) :=
  of_forEach h fun _ _ _ => hP.loadReg portCfg_offPage
theorem reloadInv {p : Nat → Bool} (h : P s) : P (reloadInv p s) :=
  of_ite (hP.applyPortRecs (hP.applyEdgeSafe (hP.applyWorlds (hP.applyMemory h)))) h

theorem bankTo {b st : Nat} (h : P s) : P (bankTo b st s) := hP.set (offPage bankCtrl_le) h
theorem bankClamp {b : Nat} {on : Bool} (h : P s) : P (bankClamp b on s) := hP.setB (offPage bankCtrl_le) h
theorem tileReset {t wait : Nat} (h : P s) : P (tileReset t wait s) :=
  hP.rest (hP.rest (hP.set (offPage (Nat.le_refl PWR_STATUS)) (hP.resetRegs (fun _ => tileResetReg_offPage) (hP.rest h))))
theorem gateEntry {p : Nat} (h : P s) : P (gateEntry p s) := by
  have hst := portStatus_offPage (p := p)
  unfold Machine.gateEntry
  extract_lets r s1
  have h1 : P s1 := by
    unfold s1
    split
    · exact of_ite (hP.rest h) h
    · exact h
  split
  · exact hP.set hst (hP.set hst (hP.set hst h1))
  split
  exact hP.raise hst (hP.set hst (hP.set hst h1))
theorem applyScheds {b : List Byte} (h : P s) : P (applyScheds b s) := of_forEach h fun _ _ _ h => hP.gateEntry (hP.rest h)
theorem applyBanks {b : List Byte} (h : P s) : P (applyBanks b s) :=
  hP.rest (hP.raise (by decide) (of_forEach h fun _ _ _ => hP.set (offPage (bankCtrl_le (o := 0)))))

/-! ### Time as selected by the network -/

theorem showSlew (h : P s) : P (showSlew s) := hP.setB (by decide) (hP.setN (by decide) h)
theorem grandmasterChange {gm : Bool} (h : P s) : P (grandmasterChange gm s) := by
  unfold Machine.grandmasterChange
  extract_lets base s1 s2 base1 s3 s4 base2 s5
  have h1 : P s1 := hP.raise (by decide) (hP.rest h)
  have h2 : P s2 := of_when h1 (hP.raise (by decide))
  have h3 : P s3 := hP.showSlew (hP.rest h2)
  have h4 : P s4 := of_ite h3 (hP.early.setP h3)
  have h5 : P s5 := of_ite h1 (of_ite (hP.set (by decide) h4) (hP.rest (hP.set (by decide) h1)))
  exact of_ite h (hP.early.refreshDegraded h5)
theorem gptpSelect (h : P s) : P (gptpSelect s) := by
  unfold Machine.gptpSelect
  extract_lets usable heard best ext stateOf states changed slave gm s1 s2 s3 s4
  have h1 : P s1 := of_forEach h fun _ _ _ => hP.set portStatus_offPage
  have h3 : P s3 := hP.early.showPhase (hP.set (by decide) (of_when h1 (hP.raise (by decide))))
  have h4 : P s4 := by
    unfold s4
    clear_value best
    split
    · exact hP.early.setPair (by decide) (by decide) h3
    · exact hP.early.setPair (by decide) (by decide) h3
  exact hP.grandmasterChange h4

/-! ### Power domains -/

theorem domFresh {d : Nat} (h : P s) : P (domFresh d s) := by
  unfold Machine.domFresh
  extract_lets s1 t s2 s3 s4 c s5 s6 s7 s8 s9 s10 s11
  have h1 : P s1 := hP.reloadInv (hP.resetRegs (fun _ => domRegs_offPage) h)
  have h2 : P s2 := hP.rest (hP.clearMem (hP.tileReset h1))
  have h3 : P s3 := of_forEach h2 fun _ _ _ => hP.rest
  have h4 : P s4 := hP.reloadInv h3
  have h7 : P s7 := of_forEach (hP.rest (hP.clearMem h1)) fun _ _ _ => hP.rest
  have h9 : P s9 := of_forEach (hP.rest h7) fun _ _ _ => hP.rest
  have h11 : P s11 := of_forEach (hP.rest h9) fun _ _ _ => hP.rest
  have hbanks := of_forEach (P := P) (l := List.range 16) (f := fun k s => Machine.bankClamp (64 + 16 * c + k) true <|
    Machine.bankTo (64 + 16 * c + k) 2 (s.modBank (64 + 16 * c + k) (fun h => { h with zero := true, next := none, woaPend := false })))
    h11 fun _ _ _ h => hP.bankClamp (hP.bankTo (hP.rest h))
  exact of_ite (hP.rest h4) (of_ite (hP.rest (hP.rest h1)) (of_ite hbanks (of_ite (hP.gateEntry h1) h1)))
theorem domClamp {d : Nat} (h : P s) : P (domClamp d s) := by
  have h1 : P (s.raise (PWR_DOM_STAT.clamped d)) := hP.raise domStat_offPage h
  exact of_ite (hP.gptpSelect (hP.linkChange h1)) (of_ite (hP.rest h1) (of_ite (hP.quiet.outputsSafe h1) h1))
theorem applyPower {b : List Byte} (h : P s) : P (applyPower b s) := by
  refine of_forEach h fun d _ s h => ?_
  have hreq := hP.setB (f := PWR_DOM_CTRL.woa d) (b := domDefault b d == 2) domCtrl_offPage
    (hP.setB (f := PWR_DOM_CTRL.req d) (b := domDefault b d != 0) domCtrl_offPage h)
  exact of_ite (of_when hreq fun h => hP.set domStat_offPage (hP.domClamp h))
    (hP.set domStat_offPage (hP.set domStat_offPage (of_when hreq hP.domFresh)))

/-! ### Balls, roles and votes -/

theorem applyBalls {b : List Byte} (h : P s) : P (applyBalls b s) := by
  have hpins := of_forEach (P := P) h (l := List.range 192) (f := fun n s =>
    (s.setN (PIN_CAND n) (u8 (section_ b 5) (8 + 8 * n) + 256 * ballByte b n 1 + 65536 * ballByte b n 2 + 16777216 * ballByte b n 3)).setN
      (PIN_PADCFG n) (ballByte b n 4 + 4 * ballByte b n 5 + 16 * ballByte b n 6 + 4096 * ballByte b n 7)) fun n _ _ h =>
    hP.setN (offPage (by unfold PIN_PADCFG; omega)) (hP.setN (offPage (by unfold PIN_CAND; omega)) h)
  have hlevels := of_forEach (P := P) (hP.setN (a := PIN_SUPPLY) (n := ((List.range 8).map (fun k => bank18Of b k * 2 ^ k)).sum) (by decide) hpins)
    (l := List.range 6) (f := fun c s => s.setN (EDG_SAFE_LVL c) ((List.range 16).map (fun k => edgeSafeOf b c k * 4 ^ k)).sum) fun c _ _ =>
    hP.setN edgSafeLvl_offPage
  exact hP.quiet.outputsSafe (hP.raise (by decide) (hP.rest hlevels))
theorem showVoted {c k : Nat} {voted safe : Bool} (h : P s) : P (showVoted c k voted safe s) := by
  have hvoted : ¬ BootPage (EDG_VOTED c) := offPage_cluster (by unfold EDG_VOTED cluBlk; omega)
  exact of_forEach (hP.rest (hP.setB hvoted h)) fun _ _ _ h => of_when (hP.quiet.refreshChan (hP.setB hvoted h)) hP.quiet.refreshBalls
theorem applyVoted (h : P s) : P (applyVoted s) := by
  unfold Machine.applyVoted
  extract_lets l before s1 s2
  have h1 : P s1 := of_forEach h fun _ _ _ h => of_ite h (hP.showVoted h)
  have h2 : P s2 := of_forEach h1 fun n _ _ h => of_ite h (hP.setN (offPage (by unfold GPIO_DIR; omega)) (hP.setN (offPage (by unfold GPIO_VOTED; omega)) h))
  exact of_forEach h2 fun _ hn _ h => of_ite h (hP.quiet.refreshFrom (List.mem_range.mp hn) (hP.rest h))
theorem applyRoles {old new : List Byte} {epoch : Bool} (h : P s) : P (applyRoles old new epoch s) := by
  have hrole : ∀ r, ¬ BootPage (OMT_ROLE r) := fun r => offPage (by unfold OMT_ROLE; omega)
  unfold Machine.applyRoles
  extract_lets was gens gone s1
  have h1 : P s1 := of_forEach h fun _ _ _ h => hP.rest (hP.setReg (hrole _) h)
  exact of_forEach h1 fun _ _ _ => hP.setN (hrole _)
theorem applyVote {b : List Byte} (h : P s) : P (applyVote b s) :=
  hP.applyVoted (of_forEach (hP.applyRoles (hP.rest h)) fun _ _ _ => hP.rest)
theorem applySplit {b : List Byte} (h : P s) : P (applySplit b s) :=
  of_forEach h fun _ _ _ h => hP.set hostFnStat_offPage (hP.set hostFnStat_offPage h)
theorem applyManifest {b : List Byte} (h : P s) : P (applyManifest b s) := by
  have hpeers : P ((s.setN INV_CFG (u16 (section_ b 0x15) 2 % 1024 + 65536 * (u16 (section_ b 0x15) 4 % 1024))).resetRegs
      (fun a => BEACON_PEER_STAT 0 ≤ a && a < BEACON_PEER_STAT 64)) :=
    hP.resetRegs (fun a (ha : a < 0x10000) => by
      have : ¬ BEACON_PEER_STAT 0 ≤ a := by unfold BEACON_PEER_STAT; omega
      simp [this]) (hP.setN (by decide) h)
  exact of_forEach (hP.inv rfl hpeers) fun _ _ _ h => of_when h (hP.set peerStat_offPage)

end SeesBoot

/-- The full inventory of a boot, shown as the active one, before its sections take effect. -/
def inventoryShown (b : List Byte) (s : State) : State := showActive { s with inv := { s.inv with active := b } }

theorem applyInventory_leaves {b : List Byte} : BootLeaves (inventoryShown b s) (applyInventory b s) := by
  have hP := BootLeaves.sees (s := inventoryShown b s)
  exact hP.gptpSelect (hP.applyManifest (hP.applyScheds (hP.rest (hP.applySplit (hP.applyVote (hP.applyBalls (hP.applyPower
    (hP.applyBanks (hP.applyWorlds (hP.applyMemory BootLeaves.refl))))))))))

end Sys2Proof.Machine
end

section
/-!
O53. A slot found bad after SLOT_SELECT (R374): what is recorded, and the rung that falls due.
-/
namespace Sys2Proof.Machine
open Sys2Proof
variable {s t : State}

/-! ### A slot found bad -/

theorem bootFail_result {x code detail : Nat} (hc : code < 256) : (bootFail x code detail s).get BOOT_FAIL.result = code := by
  rw [bootFail, State.bump, get_set_of_apart rfl, get_set_of_apart rfl, get_set_of_apart rfl, get_set_of_apart rfl,
      State.get_set_same _ _ _ (by decide)]
  exact Nat.mod_eq_of_lt hc

theorem slotChecked_result {x code : Nat} (hc : code < 256) : (slotChecked x code s).get (BOOT_SLOT.result x) = code := by
  rw [slotChecked, State.get_set_same _ _ _ (Nat.le_of_ble_eq_true rfl)]
  exact Nat.mod_eq_of_lt hc

theorem showSlot_result {x : Nat} : (showSlot x s).get (BOOT_SLOT.result x) = s.get (BOOT_SLOT.result x) := by
  have hver : (BOOT_SLOT.result x).addr ≠ BOOT_VER x := by
    change BOOT_SLOT x ≠ BOOT_VER x
    unfold BOOT_SLOT BOOT_VER
    omega
  unfold showSlot State.setB
  extract_lets m s1 s2 s3
  rw [get_set_of_apart rfl]
  unfold s3
  rw [get_set_of_apart rfl, get_set_of_apart rfl]
  unfold s2
  rw [get_set_of_apart rfl, get_set_of_apart rfl]
  unfold s1
  rw [get_set_of_apart rfl, get_setN_other hver]

/-- The failure `code` of slot `x` is recorded, the slot is excluded, and a rung 3 is due. -/
def SlotIsBad (x code : Nat) (t : State) : Prop :=
  t.get BOOT_FAIL.result = code ∧ t.get BOOT_STATUS.result = code ∧ t.get (BOOT_SLOT.result x) = code ∧
    atD t.boot.excl x false = true ∧ t.get BOOT_EVENTS.slot_bad = 1 ∧ t.flt.due = some (3, 0, 4)

/-- The failure of slot `x` as the registers show it, before its event, its log record and its rung. -/
def badShown (x code detail : Nat) (s : State) : State :=
  showSlot x (slotChecked x code ((bootFail x code detail (s.modBoot (fun b => { b with excl := updAt b.excl x (fun _ => true) }))).set
    BOOT_STATUS.result code))

theorem slotBad_eq {code detail : Nat} : slotBad code detail s =
    (((badShown (s.get BOOT_STATUS.slot) code detail s).raise BOOT_EVENTS.slot_bad).fault 0x2D (s.get BOOT_STATUS.slot)
      ((badShown (s.get BOOT_STATUS.slot) code detail s).reg BOOT_FAIL)).rungDue 3 0 4 := by
  simp only [slotBad, badShown]

theorem badShown_get {x code detail : Nat} {g : Fld} (hx : x < 2) (hg : Unshown g.addr) : (badShown x code detail s).get g =
    ((bootFail x code detail (s.modBoot (fun b => { b with excl := updAt b.excl x (fun _ => true) }))).set BOOT_STATUS.result code).get g :=
  have hP := (Sees.get g _).mono fun _ h => h ▸ hg
  hP.showSlot hx (hP.slotChecked hx rfl)

theorem badShown_hidden {x code detail : Nat} : (badShown x code detail s).flt.due = s.flt.due ∧
    (badShown x code detail s).boot = { s.boot with excl := updAt s.boot.excl x (fun _ => true) } :=
  have hP := Sees.hidden fun _ _ _ due boot => due = s.flt.due ∧ boot = { s.boot with excl := updAt s.boot.excl x (fun _ => true) }
  hP.showSlotOutside id id (hP.set id (hP.setB id (hP.set id (hP.bootFail id ⟨rfl, rfl⟩))))

theorem badShown_slot {x code detail : Nat} (hc : code < 256) : (badShown x code detail s).get (BOOT_SLOT.result x) = code := by
  rw [badShown, showSlot_result, slotChecked_result hc]

theorem badShown_status {x code detail : Nat} (hx : x < 2) (hc : code < 256) : (badShown x code detail s).get BOOT_STATUS.result = code := by
  rw [badShown_get hx (by decide), State.get_set_same _ _ _ (by decide)]
  exact Nat.mod_eq_of_lt hc

theorem badShown_fail {x code detail : Nat} (hx : x < 2) (hc : code < 256) : (badShown x code detail s).get BOOT_FAIL.result = code := by
  rw [badShown_get hx (by decide), get_set_of_apart rfl, bootFail_result hc]

/-- A fault record leaves the rung due. -/
theorem fault_due {code source : Nat} {detail : Word} : (s.fault code source detail).flt.due = s.flt.due :=
  (BootLeaves.sees.quiet.fault BootLeaves.refl).due
theorem fault_boot {code source : Nat} {detail : Word} : (s.fault code source detail).boot = s.boot :=
  (BootLeaves.sees.quiet.fault BootLeaves.refl).boot

theorem slot_lt : s.get BOOT_STATUS.slot < 2 := bitsOf_lt _ _ _

theorem slotIsBad_rungDue {x code : Nat} (hfail : s.get BOOT_FAIL.result = code) (hstatus : s.get BOOT_STATUS.result = code)
    (hslot : s.get (BOOT_SLOT.result x) = code) (hexcl : atD s.boot.excl x false = true) (hevent : s.get BOOT_EVENTS.slot_bad = 1)
    (hdue : s.flt.due = none) : SlotIsBad x code (s.rungDue 3 0 4) := by
  rw [rungDue_first hdue]
  exact ⟨hfail, hstatus, hslot, hexcl, hevent, rfl⟩

/-- A failure once shown is recorded in the log, and its rung falls due. -/
theorem slotIsBad_of_shown {x code : Nat} {detail : Word} (hx : x < 2) (hfail : s.get BOOT_FAIL.result = code)
    (hstatus : s.get BOOT_STATUS.result = code)
    (hslot : s.get (BOOT_SLOT.result x) = code) (hexcl : atD s.boot.excl x false = true) (hdue : s.flt.due = none) :
    SlotIsBad x code (((s.raise BOOT_EVENTS.slot_bad).fault 0x2D x detail).rungDue 3 0 4) := by
  have hnone : ((s.raise BOOT_EVENTS.slot_bad).fault 0x2D x detail).flt.due = none := fault_due.trans hdue
  have hboot : ((s.raise BOOT_EVENTS.slot_bad).fault 0x2D x detail).boot = s.boot := fault_boot
  have hget : ∀ {g : Fld}, BootPage g.addr → g.addr ≠ BOOT_EVENTS →
      ((s.raise BOOT_EVENTS.slot_bad).fault 0x2D x detail).get g = s.get g := fun hg he =>
    (fault_get (bootPage_quiet _ hg)).trans (get_raise_other he)
  have hpage : BOOT_SLOT x < 0x10000 ∧ BOOT_SLOT x ≠ BOOT_EVENTS := by unfold BOOT_SLOT BOOT_EVENTS; omega
  have hevent : ((s.raise BOOT_EVENTS.slot_bad).fault 0x2D x detail).get BOOT_EVENTS.slot_bad = 1 :=
    (fault_get (by decide)).trans (get_raise_same (by decide) (by decide))
  exact slotIsBad_rungDue ((hget (by decide) (by decide)).trans hfail) ((hget (by decide) (by decide)).trans hstatus)
    ((hget hpage.1 hpage.2).trans hslot) ((congrArg (fun b : BootH => atD b.excl x false) hboot).trans hexcl) hevent hnone

theorem slotBad_isBad {x code detail : Nat} (hdue : s.flt.due = none) (hslot : s.get BOOT_STATUS.slot = x) (hc : code < 256) :
    SlotIsBad x code (slotBad code detail s) := by
  have hx : x < 2 := hslot ▸ slot_lt
  have hexcl : atD (badShown x code detail s).boot.excl x false = true := by
    rw [badShown_hidden.2, atD_updAt _ _ _ _ _ hx, if_pos rfl]
  rw [slotBad_eq, hslot]
  exact slotIsBad_of_shown hx (badShown_fail hx hc) (badShown_status hx hc) (badShown_slot hc) hexcl (badShown_hidden.1.trans hdue)

end Sys2Proof.Machine
end

section
/-!
O53. The turn of each stage (R67, R375), a line that cannot be read in any of them (R188), and ROM_START (R372).
-/
namespace Sys2Proof.Machine
open Sys2Proof
variable {s t : State} {n : Nat}

/-! ### Stages and their turns -/

theorem inStage_due (h : inStage s n = true) : s.flt.due = none := Option.isNone_iff_eq_none.mp (Bool.and_eq_true_iff.mp h).2
theorem inStage_stage (h : inStage s n = true) (hn : n ≠ 1) : s.get BOOT_STATUS.stage = n := by
  have hturn := (Bool.and_eq_true_iff.mp (Bool.and_eq_true_iff.mp h).1).1
  split at hturn
  · exact absurd (beq_iff_eq.mp hturn) hn
  · exact beq_iff_eq.mp hturn

variable {bad : Option (BitVec 26)} {f : State → State}

theorem bootStage_waits (h : inStage s n = false) : bootStage n bad f s = s := if_pos (by rw [h]; rfl)
theorem bootStage_none (h : inStage s n = true) : bootStage n none f s = f s := if_neg (by simp [h])
theorem bootStage_badLine {off : BitVec 26} (h : inStage s n = true) : SlotIsBad (s.get BOOT_STATUS.slot) 0x0B (bootStage n (some off) f s) := by
  have hl : BootLeaves s (mramLineBad off.toNat s) := BootLeaves.sees.mramLineBad BootLeaves.refl
  have heq : bootStage n (some off) f s = slotBad 0x0B 0 (mramLineBad off.toNat s) := if_neg (by simp [h])
  exact heq ▸ slotBad_isBad (hl.due.trans (inStage_due h)) (hl.get (by decide)) (by decide)

theorem romStart_waits (h : inStage s 0 = false ∨ s.get CLK_RING.state = 0) : exec .romStart s = .next s :=
  congrArg Host.Outcome.next (if_pos (by rcases h with h | h <;> simp [h]))
theorem records_waits {cs : List (Fin 65536 × Fin 2)} {fs : List (Fin 256 × Fin 65536)} (h : inStage s 1 = false) :
    exec (.records cs fs) s = .next s := congrArg Host.Outcome.next (if_pos (by simp [h]))
theorem slotSelect_waits {l : List (BitVec 26)} (h : inStage s 2 = false) : exec (.slotSelect l) s = .next s :=
  congrArg Host.Outcome.next (if_pos (by simp [h]))
theorem persist_waits (h : inStage s 4 = false) : exec .persist s = .next s := congrArg Host.Outcome.next (if_neg (by simp [h]))
theorem verdictTimeout_waits (h : inStage s 8 = false) : exec .verdictTimeout s = .next s := congrArg Host.Outcome.next (if_pos (by simp [h]))

/-! ### ROM_START -/

theorem refreshDegraded_regsOnly {l : List Nat} (h : RegsOnly l s t) (hs : TT_STATUS ∈ l) (he : TT_EVENTS ∈ l) : RegsOnly l s t.refreshDegraded :=
  regsOnly_set (regsOnly_set (of_when (P := RegsOnly l s) h fun h => regsOnly_raise h he) hs) hs

/-- The state in which the ring is proven, before the stage is shown. -/
def romDegraded (s : State) : State :=
  (((s.setN NET_MAC_LO (32 * Config.macBase.toNat)).set NET_MAC_HI.mac_hi (Config.macBase.toNat / 2 ^ 27)).raise CLK_STATUS.degraded).refreshDegraded

theorem refreshDegraded_shows (h : s.get CLK_STATUS.degraded = 1) : s.refreshDegraded.get TT_STATUS.degraded = 1 := by
  unfold State.refreshDegraded
  extract_lets c st d s1
  have hc : c = true := by simp [c, State.is, h]
  have hd : d = true := by simp [d, hc]
  rw [get_setB_same (by decide) (by decide), hd]
  rfl

theorem romStart_acts (h : inStage s 0 = true) (hr : s.get CLK_RING.state ≠ 0) : Completes .romStart s (fun s' => s'.get BOOT_STATUS.stage = 1 ∧
    s'.get CLK_STATUS.degraded = 1 ∧ s'.get TT_STATUS.degraded = 1 ∧
    RegsOnly [BOOT_STATUS, NET_MAC_LO, NET_MAC_HI, CLK_STATUS, TT_STATUS, TT_EVENTS] s s') := by
  have heq : romStart s = toStage 1 (showPermit (romDegraded s)) := if_neg (by simp [h, hr])
  refine ⟨_, congrArg Host.Outcome.next heq, State.get_set_same _ _ _ (by decide), ?_, ?_, ?_⟩
  · have hclk : (romDegraded s).get CLK_STATUS.degraded = 1 :=
      (congrArg (bitsOf · CLK_STATUS.degraded.lo CLK_STATUS.degraded.w) (refreshDegraded_reg (by decide) (by decide))).trans
        (get_raise_same (by decide) (by decide))
    rw [toStage, get_set_of_apart rfl, showPermit, State.setB, get_set_of_apart rfl, hclk]
  · rw [toStage, get_set_of_apart rfl, showPermit, State.setB, get_set_of_apart rfl]
    exact refreshDegraded_shows (get_raise_same (by decide) (by decide))
  · exact regsOnly_set (regsOnly_set (refreshDegraded_regsOnly (regsOnly_raise (regsOnly_set (regsOnly_setN regsOnly_refl
      (by decide)) (by decide)) (by decide)) (by decide) (by decide)) (by decide)) (by decide)

end Sys2Proof.Machine
end

section
/-!
O53. Bytes and the measurement chain (R368), and the stages FIRMWARE and PERSIST (R372, R381).
-/
namespace Sys2Proof.Machine
open Sys2Proof
variable {s t : State} {n : Nat}

/-! ### Bytes -/

theorem byte_congr (h : t.mem = s.mem) (k : Nat) : t.byte k = s.byte k := congrArg (fun m => (lookup m k).getD (memReset k)) h
theorem bytes_congr {k : Nat} (h : ∀ i, i < n → t.byte (k + i) = s.byte (k + i)) : t.bytes k n = s.bytes k n :=
  List.map_congr_left fun i hi => h i (List.mem_range.mp hi)
theorem bytes_of_mem {k : Nat} (h : t.mem = s.mem) : t.bytes k n = s.bytes k n := bytes_congr fun _ _ => byte_congr h _
theorem bytes_setBytes {k : Nat} {l : List Byte} : (s.setBytes k l).bytes k l.length = l := by
  refine List.ext_getElem (by simp [State.bytes]) fun i h _ => ?_
  have hi : i < l.length := by simpa [State.bytes] using h
  simp [State.bytes, State.byte_setBytes_inside s k l i hi]
/-- Bytes stored elsewhere leave a range as it was. -/
theorem bytes_setBytes_apart {k j : Nat} {l : List Byte} (h : j + n ≤ k ∨ k + l.length ≤ j) : (s.setBytes k l).bytes j n = s.bytes j n :=
  bytes_congr fun i hi => State.byte_setBytes_outside s k l (j + i) (by omega)

theorem bufferLine_mem {key : Nat} : (bufferLine key s).mem = s.mem := rfl
theorem mramBytes_mem {key : Nat} {l : List Byte} : (mramBytes key l s).mem = (s.setBytes key l).mem :=
  forEach_keeps (fun t => t.mem) fun _ _ _ => bufferLine_mem
theorem mramBytes_bytes {key k : Nat} {l : List Byte} : (mramBytes key l s).bytes k n = (s.setBytes key l).bytes k n := bytes_of_mem mramBytes_mem
theorem mramBytes_leaves {key : Nat} {l : List Byte} : BootLeaves s (mramBytes key l s) :=
  have hP := BootLeaves.sees (s := s)
  of_forEach (hP.rest (hP.setBytes BootLeaves.refl)) fun _ _ _ h => hP.setB (by decide) (hP.set (by decide) (hP.rest h))

theorem slotBase_add {x : Nat} (hx : x < 2) : slotBase x + 0x8000 ≤ mramKey + 0x3C00000 := by unfold slotBase; omega
theorem manifestOf_of_mem {x : Nat} (h : t.mem = s.mem) : manifestOf t x = manifestOf s x := bytes_of_mem h

/-! ### The measurement chain -/

/-- Stage `n` follows, and the chain has grown by the measurement of `d`. -/
def Chained (n : Nat) (d : List Byte) (s t : State) : Prop :=
  t.get BOOT_STATUS.stage = n ∧ t.boot.chain = s.boot.chain ++ [Config.sha384 (chainLast s ++ d)]

theorem chainPush_hidden {i : Nat} {v : List Byte} : (chainPush i v s).mem = s.mem ∧ (chainPush i v s).inv = s.inv ∧
    (chainPush i v s).flt.due = s.flt.due ∧
    (chainPush i v s).boot = { s.boot with chain := s.boot.chain ++ [v] } :=
  (Sees.hidden fun mem inv _ due boot => mem = s.mem ∧ inv = s.inv ∧ due = s.flt.due ∧ boot = { s.boot with chain := s.boot.chain ++ [v] }).show48
    (fun _ _ => id) ⟨rfl, rfl, rfl, rfl⟩
theorem chainPush_get {i : Nat} {v : List Byte} {g : Fld} (hg : g.addr < 0x100 ∨ 0x200 ≤ g.addr) (hi : i < 4) : (chainPush i v s).get g = s.get g :=
  ((Sees.get g _).mono fun _ h => h).show48 (s := s.modBoot (fun b => { b with chain := b.chain ++ [v] }))
    (fun w hw => by unfold BOOT_MEAS; omega) rfl

theorem toStage_stage (hn : n < 16) : (toStage n s).get BOOT_STATUS.stage = n := (State.get_set_same _ _ _ (by decide)).trans (Nat.mod_eq_of_lt hn)
theorem toStage_mem : (toStage n s).mem = s.mem := State.set_mem s _ _
theorem toStage_boot : (toStage n s).boot = s.boot := State.set_boot s _ _

theorem chained_chainPush {i : Nat} {d : List Byte} (h : t.boot.chain = s.boot.chain) (hn : n < 16) :
    Chained n d s (toStage n (chainPush i (Config.sha384 (chainLast t ++ d)) t)) := by
  refine ⟨toStage_stage hn, ?_⟩
  rw [toStage_boot, chainPush_hidden.2.2.2, chainLast, h]
  rfl

/-! ### FIRMWARE -/

variable {x : Nat}

theorem exec_firmware (h : inStage s 3 = true) : exec (.firmware none) s = .next (firmware s) := congrArg Host.Outcome.next (bootStage_none h)
theorem firmware_waits (h : inStage s 3 = true) (hw : recordsWritable s = false) : exec (.firmware none) s = .next s :=
  (exec_firmware h).trans (congrArg Host.Outcome.next (if_pos (by simp [hw])))

/-- The copy of the firmware in the execution region leaves the slots. -/
theorem firmwareCopy_manifest {fw : List Byte} (hx : x < 2) : manifestOf (mramBytes (mramKey + 0x3C00000) fw s) x = manifestOf s x :=
  mramBytes_bytes.trans (bytes_setBytes_apart (Or.inl (slotBase_add hx)))

theorem firmware_eq (hslot : s.get BOOT_STATUS.slot = x) (hw : recordsWritable s = true) : firmware s =
    if Config.sha384 (firmwareOf s x) = slice (manifestOf s x) 0x30 48 then
      toStage 4 (chainPush 1 (Config.sha384 (chainLast (mramBytes (mramKey + 0x3C00000) (firmwareOf s x) s) ++ Config.sha384 (firmwareOf s x)))
        (mramBytes (mramKey + 0x3C00000) (firmwareOf s x) s))
    else slotBad 0x08 0 (mramBytes (mramKey + 0x3C00000) (firmwareOf s x) s) := by
  have hx : x < 2 := hslot ▸ slot_lt
  unfold firmware
  rw [hslot]
  extract_lets x' fw u
  rw [if_neg (by simp [hw])]
  have hm : manifestOf u x' = manifestOf s x := firmwareCopy_manifest hx
  rw [hm]
  by_cases hd : Config.sha384 fw = slice (manifestOf s x) 0x30 48
  · rw [if_neg (by simp [hd]), if_pos hd]
  · rw [if_pos (by simpa using hd), if_neg hd]

theorem firmware_fails (hslot : s.get BOOT_STATUS.slot = x) (h : inStage s 3 = true) (hw : recordsWritable s = true)
    (hd : Config.sha384 (firmwareOf s x) ≠ slice (manifestOf s x) 0x30 48) : Completes (.firmware none) s (SlotIsBad x 0x08) := by
  have hl := mramBytes_leaves (s := s) (key := mramKey + 0x3C00000) (l := firmwareOf s x)
  refine ⟨slotBad 0x08 0 (mramBytes (mramKey + 0x3C00000) (firmwareOf s x) s), ?_, ?_⟩
  · rw [exec_firmware h, firmware_eq hslot hw, if_neg hd]
  exact slotBad_isBad (hl.due.trans (inStage_due h)) ((hl.get (by decide)).trans hslot) (by decide)

theorem firmware_acts (hslot : s.get BOOT_STATUS.slot = x) (h : inStage s 3 = true) (hw : recordsWritable s = true)
    (hd : Config.sha384 (firmwareOf s x) = slice (manifestOf s x) 0x30 48) : Completes (.firmware none) s (fun s' =>
      Chained 4 (Config.sha384 (firmwareOf s x)) s s' ∧ s'.bytes (mramKey + 0x3C00000) (firmwareOf s x).length = firmwareOf s x) := by
  rw [Completes, exec_firmware h, firmware_eq hslot hw, if_pos hd]
  refine ⟨_, rfl, chained_chainPush (congrArg BootH.chain mramBytes_leaves.boot) (by decide), ?_⟩
  rw [bytes_of_mem toStage_mem, bytes_of_mem chainPush_hidden.1, mramBytes_bytes, bytes_setBytes]

/-! ### PERSIST -/

/-- Stage PERSIST has ended, without a write to the slot. -/
def unpersisted (s : State) : State := (toStage 5 s).modBoot (fun b => { b with persist := none })

theorem unpersisted_stage : (unpersisted s).get BOOT_STATUS.stage = 5 := (State.modBoot_get _ _ _).trans (toStage_stage (n := 5) (by decide))
theorem unpersisted_boot : (unpersisted s).boot = { s.boot with persist := none } := by rw [unpersisted, State.modBoot, toStage_boot]

theorem exec_persist (h : inStage s 4 = true) : exec .persist s = .next (persist s) := congrArg Host.Outcome.next (if_pos h)
theorem persist_unwritable (h : inStage s 4 = true) (hw : recordsWritable s = false) : exec .persist s = .next s :=
  (exec_persist h).trans (congrArg Host.Outcome.next (if_pos (by simp [hw])))

theorem persist_acts {b d : List Byte} (hslot : s.get BOOT_STATUS.slot = x) (h : inStage s 4 = true) (hw : recordsWritable s = true)
    (hp : s.boot.persist = some (b, d)) (hd : d = slotMeasure (manifestOf s x)) (hc : (checkInventory b (invCtx s x none)).1 = 0) :
    Completes .persist s (fun s' => s'.get BOOT_STATUS.stage = 5 ∧ s'.get BOOT_STATUS.persisted = 1 ∧ s'.boot.persist = none ∧
      s'.bytes (slotBase x + 0x100000) b.length = b) := by
  have heq : persist s = (mramBytes (slotBase x + 0x100000) b (unpersisted s)).raise BOOT_STATUS.persisted := by
    unfold persist
    simp only [hp, hslot]
    rw [if_neg (by simp [hw]), if_pos (by rw [Bool.and_eq_true]; exact ⟨beq_iff_eq.mpr hd, beq_iff_eq.mpr hc⟩), unpersisted]
  have hl := mramBytes_leaves (s := unpersisted s) (key := slotBase x + 0x100000) (l := b)
  refine ⟨_, (exec_persist h).trans (congrArg Host.Outcome.next heq), ?_, get_raise_same (by decide) (by decide), ?_, ?_⟩
  · rw [State.raise, get_set_of_apart rfl, hl.get (by decide), unpersisted_stage]
  · rw [State.raise_boot, hl.boot, unpersisted_boot]
  · rw [bytes_of_mem (State.raise_mem _ _), mramBytes_bytes, bytes_setBytes]

theorem modBoot_self {f : BootH → BootH} (h : f s.boot = s.boot) : s.modBoot f = s := by rw [State.modBoot, h]

theorem persist_none (h : inStage s 4 = true) (hw : recordsWritable s = true) (hp : s.boot.persist = none) :
    Completes .persist s (fun s' => s'.get BOOT_STATUS.stage = 5 ∧ s'.mem = s.mem ∧ RegsOnly [BOOT_STATUS] s s') := by
  have hsame : unpersisted s = toStage 5 s := modBoot_self (by rw [toStage_boot, ← hp])
  have heq : persist s = toStage 5 s := by
    unfold persist
    simp only [hp]
    rw [if_neg (by simp [hw]), ← unpersisted, hsame]
  exact ⟨_, (exec_persist h).trans (congrArg Host.Outcome.next heq), toStage_stage (by decide), toStage_mem, regsOnly_set regsOnly_refl (by decide)⟩

end Sys2Proof.Machine
end

section
/-!
O53. Stage INVENTORY (R71, R369, R372): its check does not see what its early sections changed.
-/
namespace Sys2Proof.Machine
open Sys2Proof
variable {s t : State} {x : Nat}

/-! ### INVENTORY -/

/-- `t` has the memory and the boot's own state as `s` has them. -/
structure BootAndMemory (s t : State) : Prop extends BootLeaves s t where
  mem : t.mem = s.mem

theorem BootAndMemory.refl : BootAndMemory s s := ⟨.refl, rfl⟩
theorem BootAndMemory.sees : SeesClk BootPage (BootAndMemory s) where
  setReg ha h := ⟨BootLeaves.sees.setReg ha h.toBootLeaves, h.mem⟩
  resetRegs hp h := ⟨BootLeaves.sees.resetRegs hp h.toBootLeaves, h.mem⟩
  rest h := ⟨BootLeaves.sees.rest h.toBootLeaves, h.mem⟩
  flt hd h := ⟨BootLeaves.sees.flt hd h.toBootLeaves, h.mem⟩
  clk h := ⟨BootLeaves.sees.clk h.toBootLeaves, h.mem⟩

theorem readRecord_of_recs (h : t.boot.recs = s.boot.recs) : readRecord t = readRecord s := by
  funext id
  rw [readRecord, readRecord, recCopies, recCopies, h]

section
variable (hb : t.boot = s.boot)
include hb

theorem keyState_congr : keyState t = keyState s := funext fun k => by rw [keyState, keyState, hb]
theorem validKeyRecord_congr : validKeyRecord t = validKeyRecord s := by
  funext m k
  rw [validKeyRecord, validKeyRecord, keyState_congr hb, hb]
theorem readRecord_congr : readRecord t = readRecord s := readRecord_of_recs (congrArg BootH.recs hb)

/-- What R33's checks look at is the memory and the Storekeeper. -/
theorem invCtx_congr {total : Option Nat} (hm : t.mem = s.mem) : invCtx t x total = invCtx s x total := by
  rw [invCtx, invCtx, manifestOf_of_mem hm, hb, keyState_congr hb, validKeyRecord_congr hb]

end

/-- The ports and the clock of an inventory whose sections match their digests apply at once (R71). -/
def earlySections (b : List Byte) (s : State) : State :=
  s.when (sectionProven b 1 && sectionProven b 7) (fun s => applyPorts b (applyClock b s))

theorem earlySections_leaves {b : List Byte} : BootAndMemory s (earlySections b s) :=
  of_when .refl fun h => BootAndMemory.sees.applyPorts (BootAndMemory.sees.applyClock h)

theorem inventoryShown_hidden {b : List Byte} : (inventoryShown b s).inv.active = b ∧ (inventoryShown b s).boot = s.boot ∧
    (inventoryShown b s).flt.due = s.flt.due := by
  have hP := Sees.hidden fun _ inv _ due boot => inv.active = b ∧ boot = s.boot ∧ due = s.flt.due
  unfold inventoryShown showActive
  extract_lets src b' f u
  have hu : u.inv.active = b ∧ u.boot = s.boot ∧ u.flt.due = s.flt.due :=
    hP.set id (hP.setN (s := { s with inv := { s.inv with active := b } }) id ⟨rfl, rfl, rfl⟩)
  exact of_forEach (P := fun t => t.inv.active = b ∧ t.boot = s.boot ∧ t.flt.due = s.flt.due) hu fun _ _ _ => hP.setN id

theorem inventoryShown_key {b : List Byte} : (inventoryShown b s).get BOOT_KEYS.inventory_key = keySlotOf b % 256 := by
  unfold inventoryShown showActive
  extract_lets src b' f u
  have hu : u.get BOOT_KEYS.inventory_key = keySlotOf b % 256 := State.get_set_same _ _ _ (by decide)
  exact (forEach_keeps (fun t => t.get BOOT_KEYS.inventory_key) fun w _ _ => get_setN_other (by
    change BOOT_KEYS ≠ INV_FP w
    unfold BOOT_KEYS INV_FP
    omega)).trans hu

/-- The records of an accepted inventory: the recovery ports and the boot's mode (R372). -/
def inventoryRecords (b : List Byte) (s : State) : State :=
  s.when (recordsWritable s) (fun s => writeRecord recRECOVERY_PORTS (section_ b 7) (writeRecord recBOOT_MODE [BitVec.ofNat 8 (splitByte b 6 % 2)] s))

theorem inventoryRecords_keeps {b : List Byte} : (inventoryRecords b s).io = s.io ∧ (inventoryRecords b s).inv = s.inv ∧
    (inventoryRecords b s).boot.chain = s.boot.chain :=
  of_when (P := fun t => t.io = s.io ∧ t.inv = s.inv ∧ t.boot.chain = s.boot.chain) ⟨rfl, rfl, rfl⟩ id

theorem exec_inventory (h : inStage s 5 = true) : exec (.inventory none) s = .next (inventory s) := congrArg Host.Outcome.next (bootStage_none h)

/-- The inventory's check does not see what its early sections changed. -/
theorem inventory_eq {b : List Byte} (hslot : s.get BOOT_STATUS.slot = x) (hb : slotInventory s x = b) : inventory s =
    if (checkInventory b (invCtx s x none)).1 = 0 then
      toStage 6 (chainPush 2 (Config.sha384 (chainLast (inventoryRecords b (applyInventory b (earlySections b s))) ++ Config.sha384 (signedBytes b)))
        (inventoryRecords b (applyInventory b (earlySections b s))))
    else slotBad 0x09 (checkInventory b (invCtx s x none)).1 ((earlySections b s).when (sectionProven b 1 && sectionProven b 7) bootList) := by
  have hl := earlySections_leaves (s := s) (b := b)
  have hctx : invCtx (earlySections b s) x none = invCtx s x none := invCtx_congr hl.boot hl.mem
  unfold inventory
  rw [hslot]
  extract_lets x' b' early u
  have hu : u = earlySections b s := hb ▸ rfl
  have hb' : b' = b := hb
  clear_value u b'
  subst hu hb'
  rw [show invCtx (earlySections b' s) x' none = invCtx s x none from hctx]
  generalize checkInventory b' (invCtx s x none) = r
  obtain ⟨code, _, _⟩ := r
  by_cases hc : code = 0
  · simp only [hc, bne_self_eq_false, Bool.false_eq_true, if_false, if_true]
    rfl
  · exact (if_pos (bne_iff_ne.mpr hc)).trans (if_neg hc).symm

theorem inventory_fails {b : List Byte} (hslot : s.get BOOT_STATUS.slot = x) (hb : slotInventory s x = b) (h : inStage s 5 = true)
    (hc : (checkInventory b (invCtx s x none)).1 ≠ 0) : Completes (.inventory none) s (SlotIsBad x 0x09) := by
  have hP := BootLeaves.sees (s := s)
  have hl : BootLeaves s ((earlySections b s).when (sectionProven b 1 && sectionProven b 7) bootList) :=
    of_when earlySections_leaves.toBootLeaves hP.bootList
  rw [Completes, exec_inventory h, inventory_eq hslot hb, if_neg hc]
  exact ⟨_, rfl, slotBad_isBad (hl.due.trans (inStage_due h)) ((hl.get (by decide)).trans hslot) (by decide)⟩

theorem inventory_acts {b : List Byte} (hslot : s.get BOOT_STATUS.slot = x) (hb : slotInventory s x = b) (h : inStage s 5 = true)
    (hc : (checkInventory b (invCtx s x none)).1 = 0) : Completes (.inventory none) s (fun s' => Chained 6 (Config.sha384 (signedBytes b)) s s' ∧
      s'.inv.active = b ∧ s'.get BOOT_KEYS.inventory_key = keySlotOf b % 256) := by
  have happ := applyInventory_leaves (b := b) (s := earlySections b s)
  obtain ⟨hactive, hboot, -⟩ := inventoryShown_hidden (b := b) (s := earlySections b s)
  obtain ⟨hio, hinv, hchain⟩ := inventoryRecords_keeps (b := b) (s := applyInventory b (earlySections b s))
  have hboot' : (applyInventory b (earlySections b s)).boot = s.boot := happ.boot.trans (hboot.trans earlySections_leaves.boot)
  have hkey : (inventoryRecords b (applyInventory b (earlySections b s))).get BOOT_KEYS.inventory_key = keySlotOf b % 256 :=
    (congrArg (fun r => bitsOf ((lookup r BOOT_KEYS).getD (ioReset BOOT_KEYS)) 24 8) hio).trans ((happ.get (by decide)).trans inventoryShown_key)
  rw [Completes, exec_inventory h, inventory_eq hslot hb, if_pos hc]
  refine ⟨_, rfl, chained_chainPush (hchain.trans (congrArg BootH.chain hboot')) (by decide), ?_, ?_⟩
  · rw [toStage, State.set_inv, chainPush_hidden.2.1, hinv, happ.active, hactive]
  · rw [toStage, get_set_of_apart rfl, chainPush_get (Or.inl (by decide)) (by decide), hkey]

end Sys2Proof.Machine
end

section
/-!
O53. Stage TILE_LOAD (R372): the entries of a tile lie apart, and so do the tiles; each keeps what the ones before it loaded.
-/
namespace Sys2Proof.Machine
open Sys2Proof
variable {s t u : State} {x : Nat}

/-! ### TILE_LOAD -/

/-- An element of a list that is run through establishes `P` where an invariant holds. -/
theorem forEach_achieves {α : Type} {I P : State → Prop} {l : List α} {f : α → State → State} {a : α} (ha : a ∈ l) (hI : I s)
    (hkeep : ∀ b ∈ l, ∀ t, I t → I (f b t)) (he : ∀ t, I t → P (f a t)) (hk : ∀ b ∈ l, ∀ t, I t → P t → P (f b t)) : P (s.forEach l f) := by
  induction l generalizing s with
  | nil => exact absurd ha List.not_mem_nil
  | cons b rest ih =>
    have hI' : I (f b s) := hkeep b List.mem_cons_self s hI
    by_cases hab : a = b
    · subst hab
      exact (of_forEach (P := fun t => I t ∧ P t) (s := f a s) ⟨hI', he s hI⟩ fun c hc t ht =>
        ⟨hkeep c (List.mem_cons_of_mem _ hc) t ht.1, hk c (List.mem_cons_of_mem _ hc) t ht.1 ht.2⟩).2
    · exact ih ((List.mem_cons.mp ha).resolve_left hab) hI' (fun c hc => hkeep c (List.mem_cons_of_mem _ hc))
        fun c hc => hk c (List.mem_cons_of_mem _ hc)

/-- The MRAM of `t` is that of `s`. -/
def SameMram (s t : State) : Prop := ∀ k, mramKey ≤ k → t.byte k = s.byte k

theorem SameMram.bytes (h : SameMram s t) {k n : Nat} (hk : mramKey ≤ k) : t.bytes k n = s.bytes k n := bytes_congr fun _ _ => h _ (by omega)
theorem slotBase_le : mramKey ≤ slotBase x := by unfold slotBase; omega
theorem SameMram.manifest (h : SameMram s t) : manifestOf t x = manifestOf s x := h.bytes slotBase_le
theorem SameMram.image (h : SameMram s t) {e : ImageEntry} : imageBytes t x e = imageBytes s x e :=
    h.bytes (Nat.le_trans slotBase_le (Nat.le_add_right _ _))
theorem imageBytes_length {e : ImageEntry} : (imageBytes s x e).length = e.len := by simp [imageBytes, State.bytes]

/-- A TCM entry within its areas. -/
structure TcmEntry (e : ImageEntry) : Prop where
  kind : e.kind = 1 ∨ e.kind = 2
  fits : e.dest + e.len ≤ 0x40000

theorem tcmEntry_of_ok {e : ImageEntry} (h : imageOk e = true) (hk : e.kind ≠ 3) : TcmEntry e := by
  simp only [imageOk, Bool.and_eq_true, decide_eq_true_eq, beq_iff_eq, if_neg hk] at h
  obtain ⟨⟨⟨⟨⟨⟨h1, h3⟩, -⟩, -⟩, -⟩, -⟩, ⟨-, -⟩, hfit⟩ := h
  exact ⟨by omega, hfit⟩

theorem tcmDest_eq {k : Nat} {e : ImageEntry} : tcmDest k e = (if e.kind = 1 then itcmKey k else dtcmKey k) + e.dest := by
  simp only [tcmDest, beq_iff_eq]

theorem TcmEntry.dest_ge {k : Nat} {e : ImageEntry} (_ : TcmEntry e) : itcmKey k ≤ tcmDest k e := by
  rw [tcmDest_eq]
  unfold itcmKey dtcmKey
  split <;> omega
theorem TcmEntry.end_le {k : Nat} {e : ImageEntry} (h : TcmEntry e) : tcmDest k e + e.len ≤ itcmKey (k + 1) := by
  have hfit := h.fits
  rw [tcmDest_eq]
  unfold itcmKey dtcmKey
  split <;> omega
theorem TcmEntry.below {k : Nat} {e : ImageEntry} (h : TcmEntry e) (hk : k < 24) : tcmDest k e + e.len ≤ mramKey :=
  Nat.le_trans h.end_le (by unfold itcmKey mramKey; omega)

/-- The TCMs of two tiles lie apart. -/
theorem TcmEntry.tiles_apart {j k : Nat} {e y : ImageEntry} (he : TcmEntry e) (hy : TcmEntry y) (hjk : j ≠ k) :
    tcmDest k e + e.len ≤ tcmDest j y ∨ tcmDest j y + y.len ≤ tcmDest k e := by
  have h1 := he.dest_ge (k := k)
  have h2 := he.end_le (k := k)
  have h3 := hy.dest_ge (k := j)
  have h4 := hy.end_le (k := j)
  unfold itcmKey at h1 h2 h3 h4
  omega

theorem bitN_testBit {n i : Nat} : bitN n i = n.testBit i := by
  rw [bitN, Nat.testBit_eq_decide_div_mod_eq]
  rfl

/-- Two entries of one tile that do not meet write apart. -/
theorem TcmEntry.entries_apart {k : Nat} {e y : ImageEntry} (he : TcmEntry e) (hy : TcmEntry y) (hek : bitN e.mask k = true)
    (hyk : bitN y.mask k = true)
    (h : imagesMeet e y = false) : tcmDest k e + e.len ≤ tcmDest k y ∨ tcmDest k y + y.len ≤ tcmDest k e := by
  have hmask : (e.mask &&& y.mask) ≠ 0 := fun hz => by
    have hbit : (e.mask &&& y.mask).testBit k = true := by rw [Nat.testBit_and, ← bitN_testBit, ← bitN_testBit, hek, hyk]; rfl
    rw [hz, Nat.zero_testBit] at hbit
    exact absurd hbit (by decide)
  have hnot3 : e.kind ≠ 3 := by rcases he.kind with h | h <;> omega
  have h1 := he.fits
  have h2 := hy.fits
  rw [tcmDest_eq, tcmDest_eq]
  by_cases hkind : e.kind = y.kind
  · have hrange : e.dest < y.dest + y.len → ¬ y.dest < e.dest + e.len := fun h3 h4 => by
      have hmeet : imagesMeet e y = true := by simp [imagesMeet, hkind, hmask, h3, h4, hkind ▸ hnot3]
      rw [hmeet] at h
      exact absurd h (by decide)
    rw [hkind]
    omega
  · unfold itcmKey dtcmKey
    rcases he.kind with h3 | h3 <;> rcases hy.kind with h4 | h4
    · omega
    · rw [if_pos h3, if_neg (by omega)]; omega
    · rw [if_neg (by omega), if_pos h4]; omega
    · omega

theorem imagesMeet_comm {e y : ImageEntry} : imagesMeet e y = imagesMeet y e := by
  have hmask : (e.mask &&& y.mask) = (y.mask &&& e.mask) := Nat.and_comm _ _
  rw [Bool.eq_iff_iff]
  simp only [imagesMeet, Bool.and_eq_true, beq_iff_eq, bne_iff_ne, decide_eq_true_eq, hmask]
  constructor <;> rintro ⟨⟨⟨⟨hk, h3⟩, hm⟩, h1⟩, h2⟩ <;> exact ⟨⟨⟨⟨hk.symm, hk ▸ h3⟩, hm⟩, h2⟩, h1⟩

theorem imagesApart_pairwise {l : List ImageEntry} (h : imagesApart l = true) : l.Pairwise (fun a b => imagesMeet a b = false) := by
  induction l with
  | nil => exact List.Pairwise.nil
  | cons e rest ih =>
    simp only [imagesApart, Bool.and_eq_true, Bool.not_eq_true', List.any_eq_false] at h
    exact List.Pairwise.cons (fun y hy => Bool.eq_false_iff.mpr (h.1 y hy)) (ih h.2)

theorem imagesApart_meet {l : List ImageEntry} {e y : ImageEntry} (h : imagesApart l = true) (he : e ∈ l) (hy : y ∈ l) (hne : e ≠ y) :
    imagesMeet e y = false :=
  have : Std.Symm fun a b => imagesMeet a b = false := ⟨fun _ _ h => imagesMeet_comm.trans h⟩
  (imagesApart_pairwise h).forall he hy hne

theorem mem_entriesFor {m : List Byte} {k : Nat} {e : ImageEntry} : e ∈ entriesFor m k ↔ e ∈ imageEntries m ∧ e.kind ≠ 3 ∧ bitN e.mask k = true := by
  simp [entriesFor, List.mem_filter, bne_iff_ne]

/-! #### One entry and one tile -/

theorem loadEntry_mram {k : Nat} {e : ImageEntry} (hk : k < 24) (he : TcmEntry e) (h : SameMram s u) : SameMram s (loadEntry x k e u) := fun j hj =>
  (State.byte_setBytes_outside _ _ _ _ (Or.inr (by rw [imageBytes_length]; exact Nat.le_trans (he.below hk) hj))).trans (h j hj)

theorem loadEntry_bytes {k : Nat} {e : ImageEntry} (h : SameMram s u) : (loadEntry x k e u).bytes (tcmDest k e) e.len = imageBytes s x e := by
  have hb := bytes_setBytes (s := u) (k := tcmDest k e) (l := imageBytes u x e)
  rw [imageBytes_length] at hb
  exact hb.trans h.image

theorem loadEntry_apart {j k : Nat} {e y : ImageEntry} (h : tcmDest k e + e.len ≤ tcmDest j y ∨ tcmDest j y + y.len ≤ tcmDest k e) :
    (loadEntry x j y u).bytes (tcmDest k e) e.len = u.bytes (tcmDest k e) e.len :=
  bytes_setBytes_apart (by rw [imageBytes_length]; exact h)

/-- The entries of a tile, loaded. -/
def entriesLoaded (x k : Nat) (s : State) : State :=
  let es := entriesFor (manifestOf s x) k
  (s.forEach es (loadEntry x k)).forEach es (fun e s => s.goodMem (tcmDest k e) (tcmDest k e + e.len))

theorem entriesLoaded_mem {k : Nat} : (entriesLoaded x k s).mem = (s.forEach (entriesFor (manifestOf s x) k) (loadEntry x k)).mem :=
  forEach_keeps (fun t => t.mem) fun _ _ _ => rfl

/-- Whether the entries of a tile are there and match their digests. -/
def tileSound (x k : Nat) (s : State) : Bool :=
  !(entriesFor (manifestOf s x) k).isEmpty && (entriesFor (manifestOf s x) k).all (fun e => Config.sha384 (imageBytes s x e) == e.digest)

theorem loadTile_eq {k : Nat} : loadTile x k s = (entriesLoaded x k s).modTile k (fun y => { y with unloaded := !tileSound x k s }) := rfl
theorem loadTile_mem {k : Nat} : (loadTile x k s).mem = (s.forEach (entriesFor (manifestOf s x) k) (loadEntry x k)).mem := by
  rw [loadTile_eq, State.modTile_mem, entriesLoaded_mem]

theorem loadTile_leaves {k : Nat} (h : BootLeaves s u) : BootLeaves s (loadTile x k u) := by
  have hP := BootLeaves.sees (s := s)
  rw [loadTile_eq]
  exact hP.rest (of_forEach (of_forEach h fun _ _ _ => hP.setBytes) fun _ _ _ h => hP.rest h)

section
variable (hok : ∀ e ∈ imageEntries (manifestOf s x), imageOk e = true)
include hok

theorem entriesFor_tcm {k : Nat} {e : ImageEntry} (he : e ∈ entriesFor (manifestOf s x) k) : TcmEntry e :=
  have h := mem_entriesFor.mp he
  tcmEntry_of_ok (hok e h.1) h.2.1

theorem loadTile_mram {k : Nat} (hk : k < 24) (h : SameMram s u) : SameMram s (loadTile x k u) := fun j hj => by
  have hu : SameMram s (u.forEach (entriesFor (manifestOf u x) k) (loadEntry x k)) := of_forEach h fun e he _ =>
    loadEntry_mram hk (entriesFor_tcm hok (h.manifest ▸ he))
  exact (byte_congr loadTile_mem j).trans (hu j hj)

/-- Each entry of a tile is there once the tile is loaded. -/
theorem loadTile_bytes {k : Nat} {e : ImageEntry} (hk : k < 24) (hap : imagesApart (imageEntries (manifestOf s x)) = true) (h : SameMram s u)
    (he : e ∈ entriesFor (manifestOf s x) k) : (loadTile x k u).bytes (tcmDest k e) e.len = imageBytes s x e := by
  rw [bytes_of_mem loadTile_mem, h.manifest]
  have hin := mem_entriesFor.mp he
  refine forEach_achieves (I := SameMram s) (P := fun t => t.bytes (tcmDest k e) e.len = imageBytes s x e) he h
    (fun y hy _ => loadEntry_mram hk (entriesFor_tcm hok hy)) (fun _ => loadEntry_bytes) fun y hy t ht hbytes => ?_
  by_cases hey : e = y
  · subst hey
    exact loadEntry_bytes ht
  · have hyin := mem_entriesFor.mp hy
    have hmeet := imagesApart_meet hap hin.1 hyin.1 hey
    exact (loadEntry_apart ((entriesFor_tcm hok he).entries_apart (entriesFor_tcm hok hy) hin.2.2 hyin.2.2 hmeet)).trans hbytes

/-- A tile that is loaded leaves the TCMs of the others. -/
theorem loadTile_other {j k : Nat} {e : ImageEntry} (hjk : j ≠ k) (h : SameMram s u) (he : e ∈ entriesFor (manifestOf s x) k) :
    (loadTile x j u).bytes (tcmDest k e) e.len = u.bytes (tcmDest k e) e.len := by
  rw [bytes_of_mem loadTile_mem, h.manifest]
  exact of_forEach (P := fun t => t.bytes (tcmDest k e) e.len = u.bytes (tcmDest k e) e.len) rfl fun y hy _ ht =>
    (loadEntry_apart ((entriesFor_tcm hok he).tiles_apart (entriesFor_tcm hok hy) hjk)).trans ht

end

/-! #### The tile itself -/

theorem setBytes_tiles {k : Nat} {d : List Byte} : (s.setBytes k d).tiles = s.tiles := by
  induction d generalizing s k with
  | nil => rfl
  | cons b rest ih => exact ih.trans (State.setByte_tiles _ _ _)

theorem loadEntries_tiles {j : Nat} {l : List ImageEntry} : (s.forEach l (loadEntry x j)).tiles = s.tiles :=
  forEach_keeps State.tiles fun _ _ _ => setBytes_tiles
theorem goodEntries_tiles {j : Nat} {l : List ImageEntry} :
    (s.forEach l (fun e s => s.goodMem (tcmDest j e) (tcmDest j e + e.len))).tiles = s.tiles := forEach_keeps State.tiles fun _ _ _ => rfl
theorem entriesLoaded_tileOf {j k : Nat} : (entriesLoaded x j s).tileOf k = s.tileOf k := by
  rw [State.tileOf, State.tileOf, entriesLoaded, goodEntries_tiles, loadEntries_tiles]

theorem SameMram.sound (h : SameMram s t) {k : Nat} : tileSound x k t = tileSound x k s := by
  unfold tileSound
  rw [h.manifest]
  congr 2
  funext e
  rw [h.image]

theorem loadTile_unloaded {k : Nat} (hk : k < 24) (h : SameMram s u) : ((loadTile x k u).tileOf k).unloaded = !tileSound x k s := by
  rw [loadTile_eq, State.tileOf_modTile _ _ _ _ hk, if_pos rfl, h.sound]

theorem loadTile_tileOf_other {j k : Nat} (hj : j < 24) (hjk : j ≠ k) : (loadTile x j u).tileOf k = u.tileOf k := by
  rw [loadTile_eq, State.tileOf_modTile _ _ _ _ hj, if_neg hjk.symm, entriesLoaded_tileOf]

/-- With every image sound, a tile may be released where entries name it. -/
theorem tileSound_iff {k : Nat} (hsound : ∀ e ∈ imageEntries (manifestOf s x), e.kind ≠ 3 → Config.sha384 (imageBytes s x e) = e.digest) :
    tileSound x k s = true ↔ entriesFor (manifestOf s x) k ≠ [] := by
  have hall : (entriesFor (manifestOf s x) k).all (fun e => Config.sha384 (imageBytes s x e) == e.digest) = true :=
    List.all_eq_true.mpr fun e he => beq_iff_eq.mpr (hsound e (mem_entriesFor.mp he).1 (mem_entriesFor.mp he).2.1)
  simp [tileSound, hall]

/-! #### The stage -/

/-- The tiles that have power, loaded. -/
def tilesLoaded (x : Nat) (s : State) : State := s.forEach ((List.range 24).filter (fun t => domOn s (domTile t))) (loadTile x)

theorem mem_poweredTiles {k : Nat} : k ∈ (List.range 24).filter (fun t => domOn s (domTile t)) ↔ k < 24 ∧ domOn s (domTile k) = true := by
  rw [List.mem_filter, List.mem_range]

theorem tilesLoaded_leaves : BootLeaves s (tilesLoaded x s) := of_forEach .refl fun _ _ _ => loadTile_leaves

/-- No entry that `p` admits has the wrong digest, in the slot `x` of `s`. -/
theorem badEntry_none {p : ImageEntry → Bool} (hslot : t.get BOOT_STATUS.slot = x) (hm : SameMram s t) :
    badEntry t p = none ↔ ∀ e ∈ imageEntries (manifestOf s x), p e = true → Config.sha384 (imageBytes s x e) = e.digest := by
  have hbytes : (fun e => p e && Config.sha384 (imageBytes t x e) != e.digest) = fun e => p e && Config.sha384 (imageBytes s x e) != e.digest := by
    funext e
    rw [hm.image]
  unfold badEntry
  rw [hslot]
  change List.findIdx? _ (imageEntries (manifestOf t x)) = none ↔ _
  rw [hm.manifest, hbytes, List.findIdx?_eq_none_iff]
  simp [imp_iff_not_or]

theorem exec_tileLoad (h : inStage s 6 = true) : exec (.tileLoad none) s = .next (tileLoad s) := congrArg Host.Outcome.next (bootStage_none h)

theorem tileLoad_sound (hslot : s.get BOOT_STATUS.slot = x) (hb : badEntry (tilesLoaded x s) (fun e => e.kind != 3) = none) :
    tileLoad s = toStage 7 (tilesLoaded x s) := by
  unfold tileLoad
  extract_lets x' u
  have hu : u = tilesLoaded x s := hslot ▸ rfl
  rw [hu, hb]

theorem tileLoad_unsound {i : Nat} (hslot : s.get BOOT_STATUS.slot = x) (hb : badEntry (tilesLoaded x s) (fun e => e.kind != 3) = some i) :
    tileLoad s = slotBad 0x0A i (tilesLoaded x s) := by
  unfold tileLoad
  extract_lets x' u
  have hu : u = tilesLoaded x s := hslot ▸ rfl
  rw [hu, hb]

section
variable (hok : ∀ e ∈ imageEntries (manifestOf s x), imageOk e = true)
include hok

theorem tilesLoaded_mram : SameMram s (tilesLoaded x s) :=
  of_forEach (fun _ _ => rfl) fun _ hk _ => loadTile_mram hok (mem_poweredTiles.mp hk).1

theorem tilesLoaded_unloaded {k : Nat} (hk : k < 24) (hon : domOn s (domTile k) = true) :
    ((tilesLoaded x s).tileOf k).unloaded = !tileSound x k s := by
  refine forEach_achieves (I := SameMram s) (P := fun t => (t.tileOf k).unloaded = !tileSound x k s) (mem_poweredTiles.mpr ⟨hk, hon⟩) (fun _ _ => rfl)
    (fun j hj _ => loadTile_mram hok (mem_poweredTiles.mp hj).1) (fun _ => loadTile_unloaded hk) fun j hj t ht hun => ?_
  by_cases hjk : j = k
  · subst hjk
    exact loadTile_unloaded hk ht
  · exact (congrArg Tile.unloaded (loadTile_tileOf_other (mem_poweredTiles.mp hj).1 hjk)).trans hun

theorem tilesLoaded_bytes {k : Nat} {e : ImageEntry} (hk : k < 24) (hon : domOn s (domTile k) = true)
    (hap : imagesApart (imageEntries (manifestOf s x)) = true) (he : e ∈ entriesFor (manifestOf s x) k) :
    (tilesLoaded x s).bytes (tcmDest k e) e.len = imageBytes s x e := by
  refine forEach_achieves (I := SameMram s) (P := fun t => t.bytes (tcmDest k e) e.len = imageBytes s x e)
    (mem_poweredTiles.mpr ⟨hk, hon⟩) (fun _ _ => rfl)
    (fun j hj _ => loadTile_mram hok (mem_poweredTiles.mp hj).1) (fun _ ht => loadTile_bytes hok hk hap ht he) fun j hj t ht hbytes => ?_
  by_cases hjk : j = k
  · subst hjk
    exact loadTile_bytes hok hk hap ht he
  · exact (loadTile_other hok hjk ht he).trans hbytes

variable (h : inStage s 6 = true) (hslot : s.get BOOT_STATUS.slot = x)
include h hslot

theorem tileLoad_fails {e : ImageEntry} (he : e ∈ imageEntries (manifestOf s x)) (hk : e.kind ≠ 3)
    (hbad : Config.sha384 (imageBytes s x e) ≠ e.digest) :
    Completes (.tileLoad none) s (SlotIsBad x 0x0A) := by
  have hl := tilesLoaded_leaves (s := s) (x := x)
  have hsl : (tilesLoaded x s).get BOOT_STATUS.slot = x := (hl.get (by decide)).trans hslot
  rw [Completes, exec_tileLoad h]
  rcases hb : badEntry (tilesLoaded x s) (fun e => e.kind != 3) with _ | i
  · exact absurd ((badEntry_none hsl (tilesLoaded_mram hok)).mp hb e he (bne_iff_ne.mpr hk)) hbad
  · exact ⟨_, congrArg Host.Outcome.next (tileLoad_unsound hslot hb), slotBad_isBad (hl.due.trans (inStage_due h)) hsl (by decide)⟩

theorem tileLoad_acts (hap : imagesApart (imageEntries (manifestOf s x)) = true)
    (hsound : ∀ e ∈ imageEntries (manifestOf s x), e.kind ≠ 3 → Config.sha384 (imageBytes s x e) = e.digest) :
    Completes (.tileLoad none) s (fun s' => s'.get BOOT_STATUS.stage = 7 ∧ (∀ k, mramKey ≤ k → s'.byte k = s.byte k) ∧
      ∀ t : Fin 24, domOn s (domTile t) = true → ((s'.tileOf t).unloaded = false ↔ entriesFor (manifestOf s x) t ≠ []) ∧
        ∀ e ∈ entriesFor (manifestOf s x) t, s'.bytes ((if e.kind = 1 then itcmKey t else dtcmKey t) + e.dest) e.len = imageBytes s x e) := by
  have hsl : (tilesLoaded x s).get BOOT_STATUS.slot = x := (tilesLoaded_leaves.get (by decide)).trans hslot
  have hnone : badEntry (tilesLoaded x s) (fun e => e.kind != 3) = none :=
    (badEntry_none hsl (tilesLoaded_mram hok)).mpr fun e he hk => hsound e he (bne_iff_ne.mp hk)
  rw [Completes, exec_tileLoad h, tileLoad_sound hslot hnone]
  refine ⟨_, rfl, toStage_stage (by decide), fun k hk => (byte_congr toStage_mem k).trans (tilesLoaded_mram hok k hk),
      fun t ht => ⟨?_, fun e he => ?_⟩⟩
  · rw [toStage, State.set_tileOf, tilesLoaded_unloaded hok t.isLt ht, Bool.not_eq_false', tileSound_iff hsound]
  · rw [← tcmDest_eq, bytes_of_mem toStage_mem, tilesLoaded_bytes hok t.isLt ht hap he]

end

end Sys2Proof.Machine
end

section
/-!
O53. Stage MEASURE and the wait for a verdict (R368, R376).
-/
namespace Sys2Proof.Machine
open Sys2Proof
variable {s t u : State} {x : Nat}

/-! ### MEASURE -/

theorem modBoot_boot {f : BootH → BootH} : (s.modBoot f).boot = f s.boot := rfl

/-- The measurement of every image of slot `x`. -/
def imagesMeasured (x : Nat) (s : State) : List Byte :=
  ((imageEntries (manifestOf s x)).map (fun e => Config.sha384 (imageBytes s x e))).flatten

/-- The chain is complete (R368). -/
def measured (x : Nat) (s : State) : State :=
  (chainPush 3 (Config.sha384 (chainLast s ++ Config.sha384 (imagesMeasured x s))) s).modBoot
    (fun b => { b with digests := (imageEntries (manifestOf s x)).map (fun e => Config.sha384 (imageBytes s x e)) })

theorem measured_get {g : Fld} (hg : g.addr < 0x100 ∨ 0x200 ≤ g.addr) : (measured x s).get g = s.get g :=
  (State.modBoot_get _ _ _).trans (chainPush_get hg (by decide))
theorem measured_mem : (measured x s).mem = s.mem := (State.modBoot_mem _ _).trans chainPush_hidden.1
theorem measured_chain : (measured x s).boot.chain = s.boot.chain ++ [Config.sha384 (chainLast s ++ Config.sha384 (imagesMeasured x s))] := by
  rw [measured, modBoot_boot, chainPush_hidden.2.2.2]

theorem drawNonce_waits : (drawNonce s).get BOOT_STATUS.verdict_wait = 1 :=
  (State.modBoot_get _ _ _).trans (get_raise_same (by decide) (by decide))
theorem drawNonce_hidden : (drawNonce s).mem = s.mem ∧ (drawNonce s).boot = { s.boot with timedOut := false, verdict := false } := by
  have hP := Sees.hidden fun mem _ _ _ boot => mem = s.mem ∧ boot = s.boot
  obtain ⟨hm, hb⟩ := of_forEach (P := fun t => t.mem = s.mem ∧ t.boot = s.boot) (s := s) (l := List.range 4)
    (f := fun i s => (s.setReg (BOOT_NONCE i) s.freeWord).drawn) ⟨rfl, rfl⟩ fun _ _ _ h => hP.rest (hP.setReg id h)
  rw [drawNonce]
  exact ⟨by rw [State.modBoot_mem, State.raise_mem, hm], by rw [modBoot_boot, State.raise_boot, hb]⟩

/-- The wait for a verdict has started (R376). -/
def verdictAwaited (s : State) : State := (toStage 8 (drawNonce s)).raise BOOT_EVENTS.verdict_needed

theorem measure_eq (hslot : s.get BOOT_STATUS.slot = x) (hchain : s.boot.chain.length = 3) (hb : badEntry s (fun e => e.kind == 3) = none) :
    measure s = if s.get BOOT_STATUS.ha = 1 then verdictAwaited (measured x s) else measured x s := by
  have hha : (measured x s).is BOOT_STATUS.ha = decide (s.get BOOT_STATUS.ha = 1) := by
    rw [State.is, measured_get (Or.inl (by decide))]
    rcases get_bit (s := s) (f := BOOT_STATUS.ha) rfl with h | h <;> rw [h] <;> rfl
  unfold measure
  rw [if_neg (by simp [hchain]), hb, hslot]
  change (if (measured x s).is BOOT_STATUS.ha = true then verdictAwaited (measured x s) else measured x s) = _
  simp only [hha, decide_eq_true_eq]

theorem exec_measure (h : inStage s 7 = true) : exec (.measure none) s = .next (measure s) := congrArg Host.Outcome.next (bootStage_none h)

theorem measure_acts (hslot : s.get BOOT_STATUS.slot = x) (h : inStage s 7 = true) (hchain : s.boot.chain.length = 3)
    (hsound : ∀ e ∈ imageEntries (manifestOf s x), e.kind = 3 → Config.sha384 (imageBytes s x e) = e.digest) :
    Completes (.measure none) s (fun s' => s'.mem = s.mem ∧
      s'.boot.chain = s.boot.chain ++ [Config.sha384 (chainLast s ++ Config.sha384 (imagesMeasured x s))] ∧
      (s.get BOOT_STATUS.ha = 0 → s'.get BOOT_STATUS.stage = 7) ∧
      (s.get BOOT_STATUS.ha = 1 → s'.get BOOT_STATUS.stage = 8 ∧ s'.get BOOT_STATUS.verdict_wait = 1 ∧
        s'.get BOOT_EVENTS.verdict_needed = 1 ∧ s'.boot.verdict = false)) := by
  have hnone : badEntry s (fun e => e.kind == 3) = none :=
    (badEntry_none hslot fun _ _ => rfl).mpr fun e he hk => hsound e he (beq_iff_eq.mp hk)
  rw [Completes, exec_measure h, measure_eq hslot hchain hnone]
  rcases get_bit (s := s) (f := BOOT_STATUS.ha) rfl with hha | hha
  · rw [if_neg (by rw [hha]; decide)]
    refine ⟨_, rfl, measured_mem, measured_chain, fun _ => ?_, fun h1 => absurd (hha.symm.trans h1) (by decide)⟩
    rw [measured_get (Or.inl (by decide)), inStage_stage h (by decide)]
  · rw [if_pos hha]
    obtain ⟨hm, hb⟩ := drawNonce_hidden (s := measured x s)
    have hmem : (verdictAwaited (measured x s)).mem = s.mem := by rw [verdictAwaited, State.raise_mem, toStage_mem, hm, measured_mem]
    have hboot : (verdictAwaited (measured x s)).boot = { (measured x s).boot with timedOut := false, verdict := false } := by
      rw [verdictAwaited, State.raise_boot, toStage_boot, hb]
    refine ⟨_, rfl, hmem, ?_, fun h0 => absurd (hha.symm.trans h0) (by decide), fun _ => ⟨?_, ?_, get_raise_same (by decide) (by decide), ?_⟩⟩
    · rw [hboot, measured_chain]
    · rw [verdictAwaited, get_raise_other (by decide), toStage_stage (by decide)]
    · rw [verdictAwaited, get_raise_other (by decide), toStage, get_set_of_apart rfl, drawNonce_waits]
    · rw [hboot]

/-! ### VERDICT -/

theorem verdictTimeout_acts (h : inStage s 8 = true) (hv : s.boot.verdict = false) (ht : s.boot.timedOut = false) :
    Completes .verdictTimeout s (fun s' => s'.get BOOT_FAIL.result = 0x0D ∧ s'.get BOOT_STATUS.result = 0x0D ∧ s'.get BOOT_STATUS.stage = 8 ∧
      s'.boot.timedOut = true) := by
  have heq : verdictTimeout s = ((bootFail (s.get BOOT_STATUS.slot) 0x0D 0 s).set BOOT_STATUS.result 0x0D).modBoot
      (fun b => { b with timedOut := true }) := if_neg (by simp [h, hv, ht])
  have hstage : (bootFail (s.get BOOT_STATUS.slot) 0x0D 0 s).get BOOT_STATUS.stage = 8 :=
    (Sees.get BOOT_STATUS.stage 8).bootFail (by decide) (inStage_stage h (by decide))
  refine ⟨_, congrArg Host.Outcome.next heq, ?_, ?_, ?_, rfl⟩
  · rw [State.modBoot_get, get_set_of_apart rfl, bootFail_result (by decide)]
  · rw [State.modBoot_get, State.get_set_same _ _ _ (by decide)]
    rfl
  · rw [State.modBoot_get, get_set_of_apart rfl, hstage]

end Sys2Proof.Machine
end

section
/-!
O53. Stage SLOT_SELECT (R373) and the start of the recovery loader (R383).
-/
namespace Sys2Proof.Machine
open Sys2Proof
variable {s t u : State} {x : Nat}

/-! ### SLOT_SELECT -/

section
variable (hm : t.mem = s.mem) (hb : t.boot = s.boot)
include hb

theorem activeFlag_congr : activeFlag t = activeFlag s := by
  funext x
  rw [activeFlag, activeFlag, readRecord_congr hb]

include hm

theorem slotBound_congr : slotBound t x = slotBound s x := by rw [slotBound, slotBound, readRecord_congr hb, manifestOf_of_mem hm]
theorem checkManifest_congr {bind mram : Bool} : checkManifest t x bind mram = checkManifest s x bind mram := by
  have hfloor : rollbackFloor t = rollbackFloor s := by rw [rollbackFloor, rollbackFloor, minVersion, minVersion, readRecord_congr hb, hb]
  rw [checkManifest, checkManifest, manifestOf_of_mem hm, keyState_congr hb, validKeyRecord_congr hb, slotBound_congr hm hb, hfloor, hb]
theorem selectCheck_congr {l : List Nat} : selectCheck l t x = selectCheck l s x := by
  rw [selectCheck, selectCheck, checkManifest_congr hm hb, hb]
theorem chooseSlot_congr {a b : Nat} : chooseSlot t a b = chooseSlot s a b := by
  rw [chooseSlot, chooseSlot, activeFlag_congr hb, readRecord_congr hb, manifestOf_of_mem hm, manifestOf_of_mem hm]

end

/-- The records that SLOT_SELECT reads. -/
def selectRecords : List Nat := [recACTIVE 0, recACTIVE 1, recLAST_GOOD, recMIN_VERSION, recBIND 0, recBIND 1]

theorem recFallback_hidden {ids : List Nat} : (recFallback ids s).mem = s.mem ∧ (recFallback ids s).boot = s.boot :=
  (Sees.hidden fun mem _ _ _ boot => mem = s.mem ∧ boot = s.boot).recFallback id ⟨rfl, rfl⟩

/-- The checks of both slots are shown. -/
def slotsChecked (a b : Nat) (s : State) : State := slotChecked 1 b (slotChecked 0 a (recFallback selectRecords s))

theorem slotsChecked_hidden {a b : Nat} : (slotsChecked a b s).mem = s.mem ∧ (slotsChecked a b s).boot = s.boot :=
  have hP := Sees.hidden fun mem _ _ _ boot => mem = s.mem ∧ boot = s.boot
  hP.set id (hP.setB id (hP.set id (hP.setB id recFallback_hidden)))

/-- Slot `x` is chosen. -/
def slotChosen (x : Nat) (s : State) : State :=
  (show48 (BOOT_SLOT_MEAS 0) (slotMeasure (manifestOf s x)) (((s.set BOOT_STATUS.slot x).set MRAM_STATUS.active_slot x).set BOOT_STATUS.result 0)).set
    BOOT_KEYS.manifest_key (manKey (manifestOf s x))
/-- Its measurement is the chain's first value. -/
def slotMeasured (x : Nat) (s : State) : State :=
  toStage 3 (chainPush 0 (Config.sha384 (List.replicate 48 0 ++ slotMeasure (manifestOf s x))) (slotChosen x s))

/-- The end of SLOT_SELECT, as `chooseSlot` answers. -/
def slotSelected (choice : Option Nat) (s : State) : State :=
  match choice with
  | none => showBoot (enterRecovery 0x0F s)
  | some x => showBoot (slotMeasured x s)

theorem slotSelected_none : slotSelected none s = showBoot (enterRecovery 0x0F s) := by rw [slotSelected]
theorem slotSelected_some : slotSelected (some x) s = showBoot (slotMeasured x s) := by rw [slotSelected]

theorem slotSelect_eq (h : inStage s 2 = true) : slotSelect [] s =
    slotSelected (chooseSlot s (selectCheck [] s 0) (selectCheck [] s 1)) (slotsChecked (selectCheck [] s 0) (selectCheck [] s 1) s) := by
  obtain ⟨hum, hub⟩ := recFallback_hidden (s := s) (ids := selectRecords)
  obtain ⟨hvm, hvb⟩ := slotsChecked_hidden (s := s) (a := selectCheck [] s 0) (b := selectCheck [] s 1)
  unfold slotSelect
  rw [if_neg (by simp [h])]
  extract_lets u a b v
  have ha : a = selectCheck [] s 0 := selectCheck_congr hum hub
  have hb : b = selectCheck [] s 1 := selectCheck_congr hum hub
  have hv : v = slotsChecked a b s := rfl
  clear_value u a b v
  rw [hv, ha, hb, chooseSlot_congr hvm hvb]
  cases chooseSlot s (selectCheck [] s 0) (selectCheck [] s 1)
  case none => simp only [slotSelected]
  case some x => simp only [slotSelected, slotMeasured, slotChosen]

/-! #### No slot: the recovery loader -/

theorem applyRecoveryPorts_sees {P : State → Prop} (hP : Sees (· < 0xC0000) P) (h : P s) : P (applyRecoveryPorts s) := by
  have hst : ∀ p, ¬ PORT_STATUS p < 0xC0000 := fun p => by unfold PORT_STATUS; omega
  have hcfg : ∀ p, ¬ PORT_CFG p < 0xC0000 := fun p => by unfold PORT_CFG; omega
  unfold applyRecoveryPorts
  extract_lets u
  have hu : P u := of_forEach h fun p _ _ => hP.set (hst p)
  split
  · exact of_forEach hu fun p _ _ => hP.setN (hcfg p)
  · exact hP.setN (by decide) hu

/-- Whether no image key could ever sign a commit, so that the boot halts (R383). -/
def bootHalts (s : State) : Bool := s.boot.lc != 0 && (List.range 8).all (fun k => keyState s k != 1)

/-- The recovery loader is shown. -/
def recoveryShown (code : Nat) (s : State) : State := (s.set BOOT_STATUS.result code).raise BOOT_STATUS.recovery

theorem enterRecovery_eq {code : Nat} : enterRecovery code s =
    applyRecoveryPorts (toStage (if bootHalts (recoveryShown code s) then 0xF else 0xE) (recoveryShown code s)) := by
  unfold enterRecovery bootHalts recoveryShown
  rfl
theorem bootHalts_recoveryShown {code : Nat} : bootHalts (recoveryShown code s) = bootHalts s := by
  have hb : (recoveryShown code s).boot = s.boot := by rw [recoveryShown, State.raise_boot, State.set_boot]
  rw [bootHalts, bootHalts, keyState_congr hb, hb]

theorem enterRecovery_get {code : Nat} {g : Fld} (hg : g.addr < 0xC0000) : (enterRecovery code s).get g =
    (toStage (if bootHalts s then 0xF else 0xE) (recoveryShown code s)).get g := by
  rw [enterRecovery_eq, bootHalts_recoveryShown]
  exact applyRecoveryPorts_sees ((Sees.get g _).mono fun _ ha => ha ▸ hg) rfl

theorem enterRecovery_recovery {code : Nat} : (enterRecovery code s).get BOOT_STATUS.recovery = 1 := by
  rw [enterRecovery_get (by decide), toStage, get_set_of_apart rfl, recoveryShown, get_raise_same (by decide) (by decide)]
theorem enterRecovery_result {code : Nat} (hc : code < 256) : (enterRecovery code s).get BOOT_STATUS.result = code := by
  rw [enterRecovery_get (by decide), toStage, get_set_of_apart rfl, recoveryShown, State.raise, get_set_of_apart rfl,
      State.get_set_same _ _ _ (by decide)]
  exact Nat.mod_eq_of_lt hc
theorem enterRecovery_stage {code : Nat} : (enterRecovery code s).get BOOT_STATUS.stage = if bootHalts s then 0xF else 0xE := by
  rw [enterRecovery_get (by decide), toStage_stage (by split <;> decide)]
theorem enterRecovery_hidden {code : Nat} : (enterRecovery code s).mem = s.mem ∧ (enterRecovery code s).boot = s.boot := by
  have hP := Sees.hidden fun mem _ _ _ boot => mem = s.mem ∧ boot = s.boot
  rw [enterRecovery_eq]
  exact applyRecoveryPorts_sees (hP.mono fun _ => False.elim) (hP.set id (hP.raise id (hP.set id ⟨rfl, rfl⟩)))

theorem showBoot_get {g : Fld} (hg : Unshown g.addr) : (showBoot s).get g = s.get g := ((Sees.get g _).mono fun _ ha => ha ▸ hg).showBoot rfl
theorem showBoot_hidden : (showBoot s).mem = s.mem ∧ (showBoot s).boot = s.boot :=
  ((Sees.hidden fun mem _ _ _ boot => mem = s.mem ∧ boot = s.boot).mono fun _ => False.elim).showBoot ⟨rfl, rfl⟩

theorem exec_slotSelect (h : inStage s 2 = true) : exec (.slotSelect []) s = .next
    (slotSelected (chooseSlot s (selectCheck [] s 0) (selectCheck [] s 1)) (slotsChecked (selectCheck [] s 0) (selectCheck [] s 1) s)) :=
  congrArg Host.Outcome.next (slotSelect_eq h)

section
variable {a b : Nat}

theorem chooseSlot_none (ha : a ≠ 0) (hb : b ≠ 0) : chooseSlot s a b = none := by simp [chooseSlot, ha, hb]
theorem chooseSlot_first (hb : b ≠ 0) : chooseSlot s 0 b = some 0 := by simp [chooseSlot, hb]
theorem chooseSlot_second (ha : a ≠ 0) : chooseSlot s a 0 = some 1 := by simp [chooseSlot, ha]
theorem chooseSlot_flagged {x y : Bool} (h0 : activeFlag s 0 = x) (h1 : activeFlag s 1 = y) (hne : x ≠ y) :
    chooseSlot s 0 0 = some (if x then 0 else 1) := by
  cases x <;> cases y
  · exact absurd rfl hne
  · simp [chooseSlot, h0, h1]
  · simp [chooseSlot, h0, h1]
  · exact absurd rfl hne
theorem chooseSlot_lastGood (h0 : activeFlag s 0 = true) (h1 : activeFlag s 1 = true)
    (hg0 : readRecord s recLAST_GOOD ≠ some (slotMeasure (manifestOf s 0))) (hg1 : readRecord s recLAST_GOOD = some (slotMeasure (manifestOf s 1))) :
    chooseSlot s 0 0 = some 1 := by
  have hne : ¬ slotMeasure (manifestOf s 1) = slotMeasure (manifestOf s 0) := fun e => hg0 (by rw [hg1, e])
  simp [chooseSlot, h0, h1, hg1, hne]

end

theorem slotSelect_none (h : inStage s 2 = true) (ha : selectCheck [] s 0 ≠ 0) (hb : selectCheck [] s 1 ≠ 0) :
    Completes (.slotSelect []) s (fun s' => s'.get BOOT_STATUS.recovery = 1 ∧ s'.get BOOT_STATUS.result = 0x0F ∧
      (s'.get BOOT_STATUS.stage = 0xE ∨ s'.get BOOT_STATUS.stage = 0xF) ∧ s'.mem = s.mem) := by
  have hnone : chooseSlot s (selectCheck [] s 0) (selectCheck [] s 1) = none := chooseSlot_none ha hb
  obtain ⟨hvm, -⟩ := slotsChecked_hidden (s := s) (a := selectCheck [] s 0) (b := selectCheck [] s 1)
  rw [Completes, exec_slotSelect h, hnone, slotSelected_none]
  generalize slotsChecked (selectCheck [] s 0) (selectCheck [] s 1) s = w at hvm
  refine ⟨showBoot (enterRecovery 0x0F w), rfl, ?_, ?_, ?_, ?_⟩
  · rw [showBoot_get (by decide), enterRecovery_recovery]
  · rw [showBoot_get (by decide), enterRecovery_result (by decide)]
  · rw [showBoot_get (by decide), enterRecovery_stage]
    split
    · exact Or.inr rfl
    · exact Or.inl rfl
  · rw [showBoot_hidden.1, enterRecovery_hidden.1, hvm]

/-! #### A slot chosen -/

theorem slotChosen_hidden : (slotChosen x s).mem = s.mem ∧ (slotChosen x s).boot = s.boot :=
  have hP := Sees.hidden fun mem _ _ _ boot => mem = s.mem ∧ boot = s.boot
  hP.set id (hP.show48 (fun _ _ => id) (hP.set id (hP.set id (hP.set id ⟨rfl, rfl⟩))))
theorem slotChosen_get {g : Fld} (hg : g.addr < 0x38 ∨ 0x200 ≤ g.addr) : (slotChosen x s).get g =
    (((s.set BOOT_STATUS.slot x).set MRAM_STATUS.active_slot x).set BOOT_STATUS.result 0).get g := by
  have hkeys : ¬ g.addr = BOOT_KEYS := by unfold BOOT_KEYS; omega
  exact (Sees.get g _).set (fun e : BOOT_KEYS = g.addr => hkeys e.symm)
    ((Sees.get g _).show48 (fun w hw => by unfold BOOT_SLOT_MEAS; omega) rfl)

theorem slotMeasured_hidden : (slotMeasured x s).mem = s.mem ∧
    (slotMeasured x s).boot.chain = s.boot.chain ++ [Config.sha384 (List.replicate 48 0 ++ slotMeasure (manifestOf s x))] := by
  rw [slotMeasured, toStage_mem, toStage_boot, chainPush_hidden.1, chainPush_hidden.2.2.2, slotChosen_hidden.1, slotChosen_hidden.2]
  exact ⟨rfl, rfl⟩
theorem slotMeasured_get {g : Fld} (hg : g.addr < 0x38 ∨ 0x200 ≤ g.addr) (hst : BOOT_STATUS.stage.apart g = true) : (slotMeasured x s).get g =
    (((s.set BOOT_STATUS.slot x).set MRAM_STATUS.active_slot x).set BOOT_STATUS.result 0).get g := by
  rw [slotMeasured, toStage, get_set_of_apart hst, chainPush_get (by omega) (by decide), slotChosen_get hg]

/-- Slot `x` has been chosen and measured. -/
def SlotTaken (x : Nat) (s s' : State) : Prop := s'.get BOOT_STATUS.stage = 3 ∧ s'.get BOOT_STATUS.slot = x ∧
  s'.get MRAM_STATUS.active_slot = x ∧ s'.mem = s.mem ∧
  s'.boot.chain = s.boot.chain ++ [Config.sha384 (List.replicate 48 0 ++ slotMeasure (manifestOf s x))]

theorem slotSelect_takes (h : inStage s 2 = true) (hx : x < 2) (hc : chooseSlot s (selectCheck [] s 0) (selectCheck [] s 1) = some x) :
    Completes (.slotSelect []) s (SlotTaken x s) := by
  obtain ⟨hvm, hvb⟩ := slotsChecked_hidden (s := s) (a := selectCheck [] s 0) (b := selectCheck [] s 1)
  rw [Completes, exec_slotSelect h, hc, slotSelected_some]
  generalize slotsChecked (selectCheck [] s 0) (selectCheck [] s 1) s = w at hvm hvb
  obtain ⟨hm, hb⟩ := slotMeasured_hidden (s := w) (x := x)
  refine ⟨showBoot (slotMeasured x w), rfl, ?_, ?_, ?_, ?_, ?_⟩
  · rw [showBoot_get (by decide), slotMeasured, toStage_stage (by decide)]
  · rw [showBoot_get (by decide), slotMeasured_get (Or.inl (by decide)) rfl, get_set_of_apart rfl, get_set_of_apart rfl,
    State.get_set_same _ _ _ (by decide)]
    exact Nat.mod_eq_of_lt hx
  · rw [showBoot_get (by decide), slotMeasured_get (Or.inr (by decide)) rfl, get_set_of_apart rfl, State.get_set_same _ _ _ (by decide)]
    exact Nat.mod_eq_of_lt hx
  · rw [showBoot_hidden.1, hm, hvm]
  · rw [showBoot_hidden.2, hb, hvb, manifestOf_of_mem hvm]

theorem slotSelect_acts (h : inStage s 2 = true) (a b : Nat) (ha : selectCheck [] s 0 = a) (hb : selectCheck [] s 1 = b) :
    (a ≠ 0 → b ≠ 0 → Completes (.slotSelect []) s (fun s' => s'.get BOOT_STATUS.recovery = 1 ∧ s'.get BOOT_STATUS.result = 0x0F ∧
      (s'.get BOOT_STATUS.stage = 0xE ∨ s'.get BOOT_STATUS.stage = 0xF) ∧ s'.mem = s.mem)) ∧
    (a = 0 → b ≠ 0 → Completes (.slotSelect []) s (SlotTaken 0 s)) ∧ (a ≠ 0 → b = 0 → Completes (.slotSelect []) s (SlotTaken 1 s)) ∧
    (a = 0 → b = 0 → (activeFlag s 0 = true ∧ activeFlag s 1 = false → Completes (.slotSelect []) s (SlotTaken 0 s)) ∧
      (activeFlag s 0 = false ∧ activeFlag s 1 = true → Completes (.slotSelect []) s (SlotTaken 1 s)) ∧
      (activeFlag s 0 = true ∧ activeFlag s 1 = true → readRecord s recLAST_GOOD ≠ some (slotMeasure (manifestOf s 0)) →
        readRecord s recLAST_GOOD = some (slotMeasure (manifestOf s 1)) → Completes (.slotSelect []) s (SlotTaken 1 s))) := by
  have htake : ∀ {x}, x < 2 → chooseSlot s a b = some x → Completes (.slotSelect []) s (SlotTaken x s) := fun hx hc =>
    slotSelect_takes h hx (by rw [ha, hb, hc])
  refine ⟨fun h0 h1 => slotSelect_none h (ha ▸ h0) (hb ▸ h1), fun h0 h1 => htake (by decide) (by rw [h0, chooseSlot_first h1]),
    fun h0 h1 => htake (by decide) (by rw [h1, chooseSlot_second h0]), fun h0 h1 => ?_⟩
  subst h0 h1
  exact ⟨fun hf => htake (by decide) (chooseSlot_flagged hf.1 hf.2 (by decide)),
      fun hf => htake (by decide) (chooseSlot_flagged hf.1 hf.2 (by decide)),
    fun hf hg0 hg1 => htake (by decide) (chooseSlot_lastGood hf.1 hf.2 hg0 hg1)⟩

end Sys2Proof.Machine
end

section
/-!
O53. The Thaw edge (R375, R445), THAW_GO, and the records after Thaw (R379).
-/
namespace Sys2Proof.Machine
open Sys2Proof
variable {s t u : State} {x : Nat}

/-! ### THAW -/

section
variable {c k n : Nat} {b : Bool} {d : Option Bool}

theorem showChanSafe_flt : (showChanSafe c k b s).flt = s.flt := by
  rw [showChanSafe, State.setB_flt, State.setB_flt]
  exact when_keeps State.flt (State.raise_flt _ _)
theorem refreshChan_flt : (refreshChan c k s).flt = s.flt := by
  unfold refreshChan
  split
  · exact showChanSafe_flt
  split
  · rfl
  · exact showChanSafe_flt
theorem refreshFrom_flt : (refreshFrom d n s).flt = s.flt := by
  rw [refreshFrom, State.setB_flt]
  exact when_keeps State.flt rfl
theorem refreshBall_flt : (refreshBall n s).flt = s.flt := (when_keeps State.flt rfl).trans refreshFrom_flt
theorem outputsSafe_flt : (outputsSafe s).flt = s.flt :=
  (forEach_keeps State.flt fun _ _ _ => refreshBall_flt).trans
    (forEach_keeps State.flt fun _ _ _ => forEach_keeps State.flt fun _ _ _ => refreshChan_flt)
end

/-- RING mode follows START at the Thaw edge (R445). -/
def ringEntered (s : State) : State :=
  let t := (((lastSwitch noSource 0x0A 5 s).set CLK_STATUS.mode mRING).set CLK_STATUS.selected 0x0A).raise (CLK_SRC_STAT.selected 0x0A)
  ((t.raise CLK_STATUS.degraded).setP (nominalP (t.raise CLK_STATUS.degraded) mRING)).refreshDegraded

theorem endStart_cases : endStart s = s ∨ endStart s = ringEntered s := by
  unfold endStart
  extract_lets l t1 t2
  split
  · exact Or.inl rfl
  · exact Or.inr rfl

theorem refreshDegraded_flt : s.refreshDegraded.flt = s.flt := by
  rw [State.refreshDegraded, State.setB_flt, State.setB_flt]
  exact when_keeps State.flt (State.raise_flt _ _)
theorem endStart_flt : (endStart s).flt = s.flt := by
  rcases endStart_cases (s := s) with h | h <;> rw [h]
  rw [ringEntered, refreshDegraded_flt, State.setP, State.setN_flt, State.setN_flt, State.raise_flt, State.raise_flt, State.set_flt, State.set_flt,
    lastSwitch, State.setN_flt]
theorem endStart_leaves : BootAndMemory s (endStart s) := by
  have hP := BootAndMemory.sees (s := s)
  rcases endStart_cases (s := s) with h | h <;> rw [h]
  · exact .refl
  · exact hP.early.refreshDegraded (hP.early.setP (hP.raise (by decide) (hP.raise (by decide) (hP.set (by decide) (hP.set (by decide)
      (hP.setN (by decide) .refl))))))

/-- The stage, the end of Frost and the time it took. -/
def thawShown (s : State) : State :=
  ((toStage 9 s).set BOOT_STATUS.frost 0).setN BOOT_THAW_US (min ((s.pair DRZ_TICK_LO - s.boot.resetTick) / 8) 0xFFFFFFFF)
/-- The records after Thaw are due, and a stable run begins. -/
def thawOpened (s : State) : State :=
  let t := ((thawShown s).when s.pwr.woke (·.raise PWR_EVENTS.woke)).modPwr (fun p => { p with woke := false })
  let t := t.modBoot (fun b => { b with post := true })
  { t with flt := { t.flt with stableFrom := some t.now } }
/-- The Thaw edge (R375). -/
def thawed (s : State) : State := outputsSafe (showPermit ((endStart (thawOpened s)).raise BOOT_EVENTS.thawed))

theorem thaw_eq (h : thawReady s = true ∧ (s.get BOOT_CTRL.thaw_gate = 0 ∨ s.boot.go = true)) : thaw s = thawed s := by
  obtain ⟨hr, hg⟩ := h
  have hwoke : (thawShown s).pwr.woke = s.pwr.woke := by
    rw [thawShown, State.setN_pwr, State.set_pwr, toStage, State.set_pwr]
  unfold thaw
  rw [if_neg (by rcases hg with hg | hg <;> simp [hr, hg, State.is])]
  extract_lets us u0 u1 u2 u3
  have h1 : u1 = (thawShown s).when s.pwr.woke (·.raise PWR_EVENTS.woke) := congrArg (fun b => (thawShown s).when b (·.raise PWR_EVENTS.woke)) hwoke
  unfold thawed thawOpened
  rw [← h1]

theorem thaw_waits (h : ¬ (thawReady s = true ∧ (s.get BOOT_CTRL.thaw_gate = 0 ∨ s.boot.go = true))) : exec .thaw s = .next s := by
  refine congrArg Host.Outcome.next (if_pos ?_)
  rcases get_bit (s := s) (f := BOOT_CTRL.thaw_gate) rfl with hg | hg
  · have hr : thawReady s = false := Bool.eq_false_iff.mpr fun hr => h ⟨hr, Or.inl hg⟩
    simp [hr]
  · by_cases hr : thawReady s = true
    · have hgo : s.boot.go = false := Bool.eq_false_iff.mpr fun hgo => h ⟨hr, Or.inr hgo⟩
      simp [State.is, hg, hgo]
    · simp [hr]

theorem wokenShown_leaves {b : Bool} : Leaves BootPage s (s.when b (·.raise PWR_EVENTS.woke)) := of_when .refl (Leaves.sees.raise (by decide))
theorem wokenShown_now {b : Bool} : (s.when b (·.raise PWR_EVENTS.woke)).now = s.now := when_keeps State.now (State.raise_now _ _)

theorem get_withFlt {f : FltH} {g : Fld} : State.get { s with flt := f } g = s.get g := rfl
theorem thawOpened_get {g : Fld} (hg : BootPage g.addr) : (thawOpened s).get g = (thawShown s).get g := by
  rw [thawOpened, get_withFlt, State.modBoot_get, State.modPwr_get, wokenShown_leaves.get hg]
theorem thawShown_hidden : (thawShown s).mem = s.mem ∧ (thawShown s).boot = s.boot ∧ (thawShown s).now = s.now := by
  unfold thawShown
  exact ⟨by rw [State.setN_mem, State.set_mem, toStage_mem], by rw [State.setN_boot, State.set_boot, toStage_boot],
    by rw [State.setN_now, State.set_now, toStage, State.set_now]⟩
theorem thawOpened_hidden : (thawOpened s).mem = s.mem ∧ (thawOpened s).boot = { s.boot with post := true } ∧
    (thawOpened s).flt.stableFrom = some s.now := by
  obtain ⟨hm, hb, hn⟩ := thawShown_hidden (s := s)
  have hl := wokenShown_leaves (s := thawShown s) (b := s.pwr.woke)
  have hnow := wokenShown_now (s := thawShown s) (b := s.pwr.woke)
  unfold thawOpened
  generalize (thawShown s).when s.pwr.woke (·.raise PWR_EVENTS.woke) = w at hl hnow
  refine ⟨hl.mem.trans hm, ?_, congrArg some (hnow.trans hn)⟩
  rw [← hb, ← hl.boot]
  rfl

theorem thawed_leaves : Leaves BootPage ((endStart (thawOpened s)).raise BOOT_EVENTS.thawed) (thawed s) :=
  (Leaves.sees.mono bootPage_quiet).outputsSafe (Leaves.sees.setB (by decide) .refl)
theorem thawed_get {g : Fld} (hg : BootPage g.addr) (he : g.addr ≠ BOOT_EVENTS) (hus : g.addr ≠ BOOT_THAW_US) :
    (thawed s).get g = ((toStage 9 s).set BOOT_STATUS.frost 0).get g := by
  rw [thawed_leaves.get hg, get_raise_other he, endStart_leaves.get hg, thawOpened_get hg, thawShown, get_setN_other hus]

theorem thaw_acts (h : thawReady s = true ∧ (s.get BOOT_CTRL.thaw_gate = 0 ∨ s.boot.go = true)) : Completes .thaw s (fun s' => s'.frost = false ∧
    s'.get BOOT_STATUS.stage = 9 ∧ s'.get BOOT_EVENTS.thawed = 1 ∧ s'.boot.post = true ∧ s'.flt.stableFrom = some s.now ∧ s'.mem = s.mem) := by
  obtain ⟨hm, hb, hst⟩ := thawOpened_hidden (s := s)
  refine ⟨_, congrArg Host.Outcome.next (thaw_eq h), ?_, ?_, ?_, ?_, ?_, ?_⟩
  · rw [State.frost, State.is, thawed_get (by decide) (by decide) (by decide), State.get_set_same _ _ _ (by decide)]
    rfl
  · rw [thawed_get (by decide) (by decide) (by decide), get_set_of_apart rfl, toStage_stage (by decide)]
  · rw [thawed_leaves.get (by decide), get_raise_same (by decide) (by decide)]
  · rw [thawed_leaves.boot, State.raise_boot, endStart_leaves.boot, hb]
  · rw [thawed, outputsSafe_flt, showPermit, State.setB_flt, State.raise_flt, endStart_flt, hst]
  · rw [thawed_leaves.mem, State.raise_mem, endStart_leaves.mem, hm]

/-! ### THAW_GO -/

section
variable {m : Master}

/-- Whether a writer's THAW_GO counts. -/
def mayThaw (m : Master) : Bool := devWriter m && m != .storekeeper

theorem thawGo_eq : thawGo m s = if mayThaw m && thawReady s then s.modBoot (fun b => { b with go := true }) else s := by
  unfold thawGo mayThaw
  cases m <;> simp [devWriter]

theorem mayThaw_iff : (mayThaw m && thawReady s) = true ↔ devWriter m = true ∧ m ≠ .storekeeper ∧ thawReady s = true := by
  simp only [mayThaw, Bool.and_eq_true, bne_iff_ne, and_assoc]

theorem thawGo_acts (h : devWriter m = true ∧ m ≠ .storekeeper ∧ thawReady s = true) :
    Completes (.thawGo m) s (fun s' => s'.boot.go = true ∧ { s' with boot := s.boot } = s) :=
  ⟨_, congrArg Host.Outcome.next (thawGo_eq.trans (if_pos (mayThaw_iff.mpr h))), rfl, rfl⟩
theorem thawGo_waits (h : ¬ (devWriter m = true ∧ m ≠ .storekeeper ∧ thawReady s = true)) : exec (.thawGo m) s = .next s :=
  congrArg Host.Outcome.next (thawGo_eq.trans (if_neg (mt mayThaw_iff.mp h)))

end

/-! ### POST_THAW_RECORDS -/

/-- `s` holds a copy of a record with this body. -/
def HasRecord (id : Nat) (body : List Byte) (s : State) : Prop := ∃ c ∈ s.boot.recs, c.id = id ∧ c.body = body

section
variable {id id' : Nat} {body body' : List Byte}

theorem hasRecord_written : HasRecord id body (writeRecord id body s) := ⟨_, List.mem_cons_self, rfl, rfl⟩
theorem HasRecord.writeRecord (h : HasRecord id body s) (hne : id ≠ id') : HasRecord id body (writeRecord id' body' s) := by
  obtain ⟨c, hc, hid, hbody⟩ := h
  exact ⟨c, List.mem_cons_of_mem _ (List.mem_filter.mpr ⟨hc, by simp [hid, hne]⟩), hid, hbody⟩
theorem HasRecord.clearRecord (h : HasRecord id body s) (hne : id ≠ id') : HasRecord id body (clearRecord id' s) := by
  obtain ⟨c, hc, hid, hbody⟩ := h
  exact ⟨c, List.mem_filter.mpr ⟨hc, by simp [hid, hne]⟩, hid, hbody⟩
theorem HasRecord.of_recs (h : HasRecord id body s) (hr : t.boot.recs = s.boot.recs) : HasRecord id body t := by
  unfold HasRecord
  rw [hr]
  exact h

theorem recCopies_writeRecord (hne : id ≠ id') : recCopies (writeRecord id' body s) id = recCopies s id := by
  unfold recCopies writeRecord
  rw [modBoot_boot, List.filter_cons, if_neg (by simp [hne.symm]), List.filter_filter]
  refine List.filter_congr fun c _ => ?_
  by_cases hc : c.id = id
  · simp [hc, hne]
  · simp [hc]
theorem readRecord_writeRecord (hne : id ≠ id') : readRecord (writeRecord id' body s) id = readRecord s id := by
  rw [readRecord, recCopies_writeRecord hne, ← readRecord]

end

theorem activeFlag_writeRecord {id : Nat} {body : List Byte} (hne : recACTIVE x ≠ id) : activeFlag (writeRecord id body s) x = activeFlag s x := by
  rw [activeFlag, readRecord_writeRecord hne, ← activeFlag]

/-- The records of the slot that runs, and of the flags that must change. -/
def slotRecords (x : Nat) (body : List Byte) (s : State) : State :=
  let s := writeRecord recLAST_GOOD body s
  let s := s.when (!activeFlag s x) (writeRecord (recACTIVE x) [1])
  s.when (activeFlag s (1 - x)) (writeRecord (recACTIVE (1 - x)) [0])

/-- What POST_THAW_RECORDS leaves: the memory, the life cycle, and the records with those ids. -/
structure RecordsKept (ids : List Nat) (s t : State) : Prop where
  mem : t.mem = s.mem
  lc : t.boot.lc = s.boot.lc
  recs : ∀ id ∈ ids, ∀ body, HasRecord id body s → HasRecord id body t

theorem RecordsKept.refl {ids : List Nat} : RecordsKept ids s s := ⟨rfl, rfl, fun _ _ _ => id⟩
theorem RecordsKept.writeRecord {ids : List Nat} {id : Nat} {body : List Byte} (h : RecordsKept ids s t) (hid : id ∉ ids) :
    RecordsKept ids s (writeRecord id body t) :=
  ⟨h.mem, h.lc, fun i hi b hb => (h.recs i hi b hb).writeRecord fun e => hid (e ▸ hi)⟩
theorem RecordsKept.clearRecord {ids : List Nat} {id : Nat} (h : RecordsKept ids s t) (hid : id ∉ ids) : RecordsKept ids s (clearRecord id t) :=
  ⟨h.mem, h.lc, fun i hi b hb => (h.recs i hi b hb).clearRecord fun e => hid (e ▸ hi)⟩

section
variable {body : List Byte}

/-- The ids of the records that say which slot runs. -/
def slotIds : List Nat := [recACTIVE 0, recACTIVE 1, recLAST_GOOD]

theorem recACTIVE_mem (hx : x < 2) : recACTIVE x ∈ slotIds := by
  unfold slotIds recACTIVE recLAST_GOOD
  simp only [List.mem_cons, List.not_mem_nil, or_false]
  omega
theorem recACTIVE_ne_lastGood (hx : x < 2) : recACTIVE x ≠ recLAST_GOOD := by unfold recACTIVE recLAST_GOOD; omega
theorem recACTIVE_ne_other (hx : x < 2) : recACTIVE x ≠ recACTIVE (1 - x) := by unfold recACTIVE; omega

theorem slotRecords_kept {body : List Byte} : RecordsKept [] s (slotRecords x body s) := by
  unfold slotRecords
  extract_lets s1 s2
  have h1 : RecordsKept [] s s1 := RecordsKept.refl.writeRecord List.not_mem_nil
  have h2 : RecordsKept [] s s2 := of_when h1 fun h => h.writeRecord List.not_mem_nil
  exact of_when h2 fun h => h.writeRecord List.not_mem_nil

theorem slotRecords_lastGood (hx : x < 2) : HasRecord recLAST_GOOD body (slotRecords x body s) := by
  have hother : recLAST_GOOD ≠ recACTIVE (1 - x) := (recACTIVE_ne_lastGood (by omega)).symm
  unfold slotRecords
  exact of_when (of_when hasRecord_written fun h => h.writeRecord (recACTIVE_ne_lastGood hx).symm) fun h => h.writeRecord hother

theorem slotRecords_active (hx : x < 2) (h : activeFlag s x = false) : HasRecord (recACTIVE x) [1] (slotRecords x body s) := by
  have hflag : activeFlag (writeRecord recLAST_GOOD body s) x = false := (activeFlag_writeRecord (recACTIVE_ne_lastGood hx)).trans h
  unfold slotRecords
  extract_lets s1 s2
  have h2 : HasRecord (recACTIVE x) [1] s2 := by
    unfold s2
    rw [show activeFlag s1 x = false from hflag]
    exact hasRecord_written
  exact of_when h2 fun h => h.writeRecord (recACTIVE_ne_other hx)

theorem slotRecords_inactive (hx : x < 2) (h : activeFlag s (1 - x) = true) : HasRecord (recACTIVE (1 - x)) [0] (slotRecords x body s) := by
  have hgood : activeFlag (writeRecord recLAST_GOOD body s) (1 - x) = true := (activeFlag_writeRecord (recACTIVE_ne_lastGood (by omega))).trans h
  have hflag : activeFlag ((writeRecord recLAST_GOOD body s).when (!activeFlag (writeRecord recLAST_GOOD body s) x)
      (writeRecord (recACTIVE x) [1])) (1 - x) = true :=
    of_when (P := fun t => activeFlag t (1 - x) = true) hgood fun h => (activeFlag_writeRecord (recACTIVE_ne_other hx).symm).trans h
  unfold slotRecords
  extract_lets s1 s2
  rw [show activeFlag s2 (1 - x) = true from hflag]
  exact hasRecord_written

theorem advanceCounter_kept {ids : List Nat} {m : List Byte} (h : RecordsKept ids s t) (hid : recADVANCE ∉ ids) :
    RecordsKept ids s (advanceCounter m t) := by
  have hctr : ∀ n, RecordsKept ids s (t.modBoot (fun b => { b with ctr := n })) := fun _ => ⟨h.mem, h.lc, h.recs⟩
  have hdone : ∀ n, RecordsKept ids s ((clearRecord recADVANCE (t.modBoot (fun b => { b with ctr := n }))).raise BOOT_EVENTS.fuse_done) := fun n =>
    have hclear := (hctr n).clearRecord hid
    ⟨hclear.mem, hclear.lc, hclear.recs⟩
  unfold advanceCounter
  split
  · exact h
  · exact of_ite (h.clearRecord hid) (of_ite (hdone _) h)

/-- The roll-back counter, the least version and the boot's mode, as the manifest and the inventory say. -/
def versionRecords (m : List Byte) (s : State) : State :=
  let s := s.when (fusesAllowed s) (advanceCounter (slotMeasure m))
  let s := s.when (minVersion s < manMinVersion m) (writeRecord recMIN_VERSION (leBytes 4 (manMinVersion m)))
  writeRecord recBOOT_MODE [BitVec.ofNat 8 (splitByte s.invB 6 % 2)] s

theorem versionRecords_kept {m : List Byte} : RecordsKept slotIds s (versionRecords m s) := by
  unfold versionRecords
  extract_lets s1 s2
  have h1 : RecordsKept slotIds s s1 := of_when .refl fun h => advanceCounter_kept h (by decide)
  have h2 : RecordsKept slotIds s s2 := of_when h1 fun h => h.writeRecord (by decide)
  exact h2.writeRecord (by decide)

/-- The records that POST_THAW_RECORDS reads. -/
def thawReads : List Nat := [recACTIVE 0, recACTIVE 1, recMIN_VERSION, recADVANCE]
/-- The records of slot `x`, which runs. -/
def slotRecorded (x : Nat) (s : State) : State := slotRecords x (slotMeasure (manifestOf s x)) (recFallback thawReads s)
/-- Every record after Thaw. -/
def thawRecords (x : Nat) (s : State) : State := versionRecords (manifestOf s x) (slotRecorded x s)
/-- The records are done, and no slot is excluded any more. -/
def thawSettled (s : State) : State := s.modBoot (fun b => { b with post := false, excl := Vector.replicate 2 false })

theorem postThaw_eq (hp : s.boot.post = true) (hw : recordsWritable s = true) : postThaw s =
    showBoot (thawSettled (thawRecords (s.get BOOT_STATUS.slot) s)) := by
  unfold postThaw
  rw [if_neg (by simp [hp, hw])]
  unfold thawRecords slotRecorded versionRecords slotRecords
  rfl

theorem postThaw_waits (h : s.boot.post = false ∨ recordsWritable s = false) : exec .postThawRecords s = .next s :=
  congrArg Host.Outcome.next (if_pos (by rcases h with h | h <;> simp [h]))

theorem exec_postThaw : exec .postThawRecords s = .next (postThaw s) := rfl

theorem postThaw_acts (hslot : s.get BOOT_STATUS.slot = x) (hp : s.boot.post = true) (hw : recordsWritable s = true) :
    Completes .postThawRecords s (fun s' => s'.boot.post = false ∧ s'.boot.excl = Vector.replicate 2 false ∧ s'.mem = s.mem ∧ s'.boot.lc = s.boot.lc ∧
      HasRecord recLAST_GOOD (slotMeasure (manifestOf s x)) s' ∧ (activeFlag s x = false → HasRecord (recACTIVE x) [1] s') ∧
      (activeFlag s (1 - x) = true → HasRecord (recACTIVE (1 - x)) [0] s')) := by
  have hx : x < 2 := hslot ▸ slot_lt
  obtain ⟨hum, hub⟩ := recFallback_hidden (s := s) (ids := thawReads)
  have hflag := activeFlag_congr hub
  have hslots : RecordsKept [] (recFallback thawReads s) (slotRecorded x s) := slotRecords_kept
  have hver : RecordsKept slotIds (slotRecorded x s) (thawRecords x s) := versionRecords_kept
  have hmem : (thawRecords x s).mem = s.mem := hver.mem.trans (hslots.mem.trans hum)
  have hlc : (thawRecords x s).boot.lc = s.boot.lc := hver.lc.trans (hslots.lc.trans (congrArg BootH.lc hub))
  have hkept := fun {id : Nat} {body : List Byte} (hid : id ∈ slotIds) => hver.recs id hid body
  rw [Completes, exec_postThaw, postThaw_eq hp hw, hslot]
  generalize thawRecords x s = w at hkept hmem hlc
  obtain ⟨hm, hb⟩ := showBoot_hidden (s := thawSettled w)
  have hsettled : (thawSettled w).boot = { w.boot with post := false, excl := Vector.replicate 2 false } := modBoot_boot
  have hrec : ∀ {id body}, HasRecord id body w → HasRecord id body (showBoot (thawSettled w)) := fun h => h.of_recs (by rw [hb, hsettled])
  refine ⟨_, rfl, by rw [hb, hsettled], by rw [hb, hsettled], ?_, by rw [hb, hsettled]; exact hlc, ?_, fun h => ?_, fun h => ?_⟩
  · rw [hm, thawSettled, State.modBoot_mem, hmem]
  · exact hrec (hkept (by decide) (slotRecords_lastGood hx))
  · exact hrec (hkept (recACTIVE_mem hx) (slotRecords_active hx (hflag ▸ h)))
  · exact hrec (hkept (recACTIVE_mem (by omega)) (slotRecords_inactive hx (hflag ▸ h)))

end

end Sys2Proof.Machine
end

section
/-!
O53. Provisioning (R386) and the life-cycle change to Factory (R384).
-/
namespace Sys2Proof.Machine
open Sys2Proof
variable {s t u : State} {m : Master} {k : Fin 8} {j : Fin 4} {blown : Bool}

/-! ### Provisioning -/

/-- A request that answers `r` has changed nothing but the registers, and its data read 0. -/
def ProvAnswer (s : State) (r : Nat) (t : State) : Prop := t.get BOOT_PROV_RESULT.result = r ∧ t.boot = s.boot ∧
  (∀ w, w < 8 → t.reg (BOOT_PROV_DATA w) = 0) ∧ { t with io := s.io } = s

theorem provDone_result {r : Nat} (hr : r < 16) : (provDone (r, s)).get BOOT_PROV_RESULT.result = r :=
  (get_resetRegs_of_not (by decide)).trans ((State.get_set_same _ _ _ (by decide)).trans (Nat.mod_eq_of_lt hr))
theorem provDone_boot {r : Nat × State} : (provDone r).boot = r.2.boot := rfl
theorem provDone_get {r : Nat × State} {g : Fld} (hg : g.addr < 0x300 ∨ 0x400 ≤ g.addr) : (provDone r).get g = r.2.get g := by
  have hne : g.addr ≠ BOOT_PROV_RESULT := by unfold BOOT_PROV_RESULT; omega
  refine (get_resetRegs_of_not ?_).trans (State.get_set_other _ _ _ _ hne)
  have hout : ¬ (BOOT_PROV_DATA 0 ≤ g.addr ∧ g.addr ≤ BOOT_PROV_DATA 7) := by unfold BOOT_PROV_DATA; omega
  simpa using hout

theorem provDone_answers {r : Nat} (hr : r < 16) : ProvAnswer s r (provDone (r, s)) := by
  refine ⟨provDone_result hr, rfl, fun w hw => ?_, rfl⟩
  have hin : (decide (BOOT_PROV_DATA 0 ≤ BOOT_PROV_DATA w) && decide (BOOT_PROV_DATA w ≤ BOOT_PROV_DATA 7)) = true := by
    rw [Bool.and_eq_true, decide_eq_true_eq, decide_eq_true_eq]
    unfold BOOT_PROV_DATA
    omega
  have hzero : ∀ w : Fin 8, ioReset (BOOT_PROV_DATA w) = 0 := by decide
  rw [provDone, State.reg_resetRegs, if_pos hin, hzero ⟨w, hw⟩]

section
variable {f : State → Nat × State}

theorem provision_off (h : coreOn s = false) : provision m f s = s := if_pos (by simp [h])
theorem provision_refused (h : coreOn s = true) (hm : ¬ (m = .host ∧ s.boot.lc ≤ 1)) : provision m f s = provDone (9, s) := by
  have hno : (m != .host || decide (1 < s.boot.lc)) = true := by
    by_cases hhost : m = .host
    · have hlc : ¬ s.boot.lc ≤ 1 := fun hlc => hm ⟨hhost, hlc⟩
      simp [hhost, Nat.lt_of_not_le hlc]
    · simp [hhost]
  rw [provision, if_neg (by simp [h]), if_pos hno]
theorem provision_busy (h : coreOn s = true) (hm : m = .host ∧ s.boot.lc ≤ 1) (hb : s.boot.busy = true) : provision m f s = provDone (7, s) := by
  rw [provision, if_neg (by simp [h]), if_neg (by simp [hm.1, hm.2]), if_pos hb]
theorem provision_runs (h : coreOn s = true) (hm : m = .host ∧ s.boot.lc ≤ 1) (hb : s.boot.busy = false) : provision m f s = provDone (f s) := by
  rw [provision, if_neg (by simp [h]), if_neg (by simp [hm.1, hm.2]), if_neg (by simp [hb])]
end

/-- Image-key slot `k` holds the host's data, and is valid unless it was revoked. -/
def keyProgrammed (k : Fin 8) (s : State) : State := s.modBoot (fun b => { b with keys := updAt b.keys k (fun e => (provData s, true, e.2.2)) })
/-- The answer of PROGRAM_IMAGE_KEY. -/
def programKey (k : Fin 8) (blown : Bool) (s : State) : Nat × State :=
  if keyState s k != 0 then (8, s)
  else if !fusesAllowed s then (6, s)
  else if !blown then (5, s)
  else (0, showRecords (keyProgrammed k s))
/-- The answer of INSTALL_COMMAND_KEY. -/
def installKey (j : Fin 4) (s : State) : Nat × State :=
  let t := s.modBoot (fun b => { b with
    cmdKeys := updAt b.cmdKeys j (fun _ => some (provData s)),
    wrapped := updAt b.wrapped j (fun _ => some (Config.aesWrap wrappingKey (provData s))) })
  (0, t.when (recordsWritable t) (writeRecord (recCOUNTER j) (leBytes 16 0)))
/-- The answer of ENTER_FACTORY. -/
def toFactory (blown : Bool) (s : State) : Nat × State := if s.boot.lc != 0 then (3, s) else lifecycle 1 blown s

theorem exec_programImageKey : exec (.programImageKey m k blown) s = .next (provision m (programKey k blown) s) := rfl
theorem exec_installCommandKey : exec (.installCommandKey m j) s = .next (provision m (installKey j) s) := rfl
theorem exec_enterFactory : exec (.enterFactory m blown) s = .next (provision m (toFactory blown) s) := rfl

/-- `c` is a request of provisioning. -/
def ProvCommand (m : Master) (k : Fin 8) (j : Fin 4) (blown : Bool) (c : Instr) : Prop :=
  c ∈ [(.programImageKey m k blown : Instr), .installCommandKey m j, .enterFactory m blown]

theorem provCommand_exec {c : Instr} (hc : ProvCommand m k j blown c) : ∃ f, exec c s = .next (provision m f s) := by
  simp only [ProvCommand, List.mem_cons, List.not_mem_nil, or_false] at hc
  rcases hc with rfl | rfl | rfl
  · exact ⟨_, exec_programImageKey⟩
  · exact ⟨_, exec_installCommandKey⟩
  · exact ⟨_, exec_enterFactory⟩

theorem provCommand_off {c : Instr} (hc : ProvCommand m k j blown c) (h : coreOn s = false) : exec c s = .next s := by
  obtain ⟨f, hf⟩ := provCommand_exec (s := s) hc
  rw [hf, provision_off h]
theorem provCommand_refused {c : Instr} (hc : ProvCommand m k j blown c) (h : coreOn s = true) (hm : ¬ (m = .host ∧ s.boot.lc ≤ 1)) :
    Completes c s (ProvAnswer s 9) := by
  obtain ⟨f, hf⟩ := provCommand_exec (s := s) hc
  exact ⟨_, hf.trans (congrArg Host.Outcome.next (provision_refused h hm)), provDone_answers (by decide)⟩
theorem provCommand_busy {c : Instr} (hc : ProvCommand m k j blown c) (h : coreOn s = true) (hm : m = .host ∧ s.boot.lc ≤ 1)
    (hb : s.boot.busy = true) : Completes c s (ProvAnswer s 7) := by
  obtain ⟨f, hf⟩ := provCommand_exec (s := s) hc
  exact ⟨_, hf.trans (congrArg Host.Outcome.next (provision_busy h hm hb)), provDone_answers (by decide)⟩

theorem fusesAllowed_iff : fusesAllowed s = true ↔ ¬ s.get PWR_STATUS.supwarn = 1 := by
  rw [fusesAllowed, Bool.not_eq_true', Bool.eq_false_iff, ne_eq, is_iff_one rfl]

theorem transitionMet_factory : transitionMet s 1 = (List.range 8).any (fun k => keyState s k == 1) := by
  rw [transitionMet, if_pos (beq_self_eq_true 1)]

/-- Debug falls back from full to restricted. -/
def debugClosed (s : State) : State := { s.set BOOT_STATUS.debug 1 with dbg := false }
theorem debugClosed_eq : debugClosed = fun s => { s.set BOOT_STATUS.debug 1 with dbg := false } := rfl

/-- A life-cycle change to Factory, from its acceptance. -/
def factoryEntered (s : State) : State :=
  let s := vaultWipe 6 ((s.modBoot (fun h => { h with lc := 1 })).set BOOT_STATUS.lc 1)
  s.when (s.get BOOT_STATUS.debug == 2) debugClosed

theorem changeLifecycle_factory : changeLifecycle 1 s = ((factoryEntered s).modBoot (fun h => { h with busy := true })).rungDue 3 0 4 := by
  simp only [changeLifecycle, factoryEntered, debugClosed_eq, show ((1 : Nat) == 5) = false from rfl, State.when_false]

theorem vaultWipe_wiping {cause : Nat} : (vaultWipe cause s).get VAULT_STATUS.wiping = 1 := by
  rw [vaultWipe, fault_get (by decide), get_set_of_apart rfl, get_set_of_apart rfl, get_raise_same (by decide) (by decide)]
theorem vaultWipe_leaves {cause : Nat} : Leaves BootPage s (vaultWipe cause s) :=
  have hP := Leaves.sees (s := s) (B := BootPage)
  (hP.mono bootPage_quiet).fault (hP.set (by decide) (hP.set (by decide) (hP.raise (by decide) (of_when .refl (hP.bump (by decide))))))

/-- Factory is shown, the Vault is being wiped, and the life cycle has changed. -/
structure InFactory (t : State) : Prop where
  lc : t.boot.lc = 1
  shown : t.get BOOT_STATUS.lc = 1
  wiping : t.get VAULT_STATUS.wiping = 1

theorem get_withDbg {b : Bool} {g : Fld} : State.get { s with dbg := b } g = s.get g := rfl
theorem InFactory.closeDebug (h : InFactory s) : InFactory (debugClosed s) :=
  have hget : ∀ {g : Fld}, Fld.apart BOOT_STATUS.debug g = true → (debugClosed s).get g = s.get g := fun hg => by
    rw [debugClosed, get_withDbg, get_set_of_apart hg]
  ⟨h.lc, (hget rfl).trans h.shown, (hget rfl).trans h.wiping⟩

theorem factoryEntered_inFactory : InFactory (factoryEntered s) := by
  have hl := vaultWipe_leaves (s := (s.modBoot (fun h => { h with lc := 1 })).set BOOT_STATUS.lc 1) (cause := 6)
  have hwipe : InFactory (vaultWipe 6 ((s.modBoot (fun h => { h with lc := 1 })).set BOOT_STATUS.lc 1)) :=
    ⟨by rw [hl.boot, State.set_boot, modBoot_boot], by rw [hl.get (by decide), State.get_set_same _ _ _ (by decide)]; rfl, vaultWipe_wiping⟩
  exact of_when hwipe InFactory.closeDebug

theorem InFactory.busy (h : InFactory s) : InFactory (s.modBoot (fun h => { h with busy := true })) := ⟨h.lc, h.shown, h.wiping⟩
theorem rungDue_factory {rung fn cause : Nat} (h : InFactory s) : InFactory (s.rungDue rung fn cause) := by
  obtain ⟨d, hd⟩ := rungDue_eq (s := s) rung fn cause
  rw [hd]
  exact ⟨h.lc, h.shown, h.wiping⟩

theorem provDone_factory (h : InFactory s) (hdue : s.flt.due.isSome) : (provDone (0, s)).get BOOT_PROV_RESULT.result = 0 ∧
    (provDone (0, s)).boot.lc = 1 ∧
    (provDone (0, s)).get BOOT_STATUS.lc = 1 ∧ (provDone (0, s)).get VAULT_STATUS.wiping = 1 ∧ (provDone (0, s)).flt.due.isSome :=
  ⟨provDone_result (by decide), h.lc, (provDone_get (Or.inl (by decide))).trans h.shown, (provDone_get (Or.inr (by decide))).trans h.wiping, hdue⟩

theorem toFactory_keyed (hb : s.boot.busy = false) (i : Fin 8) (hlc : s.boot.lc = 0) (hk : keyState s i = 1) : toFactory blown s =
    if s.get PWR_STATUS.supwarn = 1 then (6, s) else if blown = false then (5, s) else (0, changeLifecycle 1 s) := by
  have hmet : transitionMet s 1 = true :=
    transitionMet_factory.trans (List.any_eq_true.mpr ⟨i, List.mem_range.mpr i.isLt, beq_iff_eq.mpr hk⟩)
  rw [toFactory, if_neg (by simp [hlc]), lifecycle, if_neg (by simp [hb]), if_neg (by simp [hlc, transition]), if_neg (by simp [hmet])]
  by_cases hd : s.get PWR_STATUS.supwarn = 1
  · have hf : fusesAllowed s = false := Bool.eq_false_iff.mpr fun hf => fusesAllowed_iff.mp hf hd
    rw [if_pos (by simp [hf]), if_pos hd]
  · rw [if_neg (by simp [fusesAllowed_iff.mpr hd]), if_neg hd]
    cases blown
    · rfl
    · rfl

section
variable (hon : coreOn s = true) (hm : m = .host ∧ s.boot.lc ≤ 1) (hb : s.boot.busy = false)
include hon hm hb

/-- A request whose own answer is a code changes nothing else. -/
theorem provision_answers {c : Instr} {f : State → Nat × State} {r : Nat} (hc : exec c s = .next (provision m f s)) (hf : f s = (r, s))
    (hr : r < 16) :
    Completes c s (ProvAnswer s r) :=
  ⟨_, hc.trans (congrArg Host.Outcome.next (provision_runs hon hm hb)), hf ▸ provDone_answers hr⟩

theorem programImageKey_acts : (keyState s k ≠ 0 → Completes (.programImageKey m k blown) s (ProvAnswer s 8)) ∧
    (keyState s k = 0 → s.get PWR_STATUS.supwarn = 1 → Completes (.programImageKey m k blown) s (ProvAnswer s 6)) ∧
    (keyState s k = 0 → ¬ s.get PWR_STATUS.supwarn = 1 → blown = false → Completes (.programImageKey m k blown) s (ProvAnswer s 5)) := by
  have hans := fun {r : Nat} => provision_answers hon hm hb (r := r) (exec_programImageKey (k := k) (blown := blown))
  refine ⟨fun h => hans (if_pos (bne_iff_ne.mpr h)) (by decide), fun h hd => hans ?_ (by decide), fun h hd hbl => hans ?_ (by decide)⟩
  · have hf : fusesAllowed s = false := Bool.eq_false_iff.mpr fun hf => fusesAllowed_iff.mp hf hd
    rw [programKey, if_neg (by simp [h]), if_pos (by simp [hf])]
  · rw [programKey, if_neg (by simp [h]), if_neg (by simp [fusesAllowed_iff.mpr hd]), if_pos (by simp [hbl])]

theorem programImageKey_blown (hk : keyState s k = 0) (hd : ¬ s.get PWR_STATUS.supwarn = 1) (hbl : blown = true) :
    Completes (.programImageKey m k blown) s (fun s' => s'.get BOOT_PROV_RESULT.result = 0 ∧ keyState s' k = 1 ∧ (s'.boot.keys[k]).1 = provData s ∧
      ∀ i : Fin 8, i ≠ k → s'.boot.keys[i] = s.boot.keys[i]) := by
  have hf : programKey k blown s = (0, showRecords (keyProgrammed k s)) := by
    rw [programKey, if_neg (by simp [hk]), if_neg (by simp [fusesAllowed_iff.mpr hd]), if_neg (by simp [hbl])]
  have hboot : (showRecords (keyProgrammed k s)).boot =
      { s.boot with keys := updAt s.boot.keys k (fun e => (provData s, true, e.2.2)) } :=
    ((Sees.hidden fun _ _ _ _ boot => boot = { s.boot with keys := updAt s.boot.keys k (fun e => (provData s, true, e.2.2)) }).mono
      fun _ => False.elim).showRecords rfl
  have hrevoked : (atD s.boot.keys k ([], false, false)).2.2 = false := by
    cases h : (atD s.boot.keys k ([], false, false)).2.2
    · rfl
    · rw [keyState, if_pos h] at hk
      exact absurd hk (by decide)
  have hkeys : ∀ i : Fin 8, (updAt s.boot.keys k (fun e => (provData s, true, e.2.2)))[i] =
      if i = k then (provData s, true, false) else s.boot.keys[i] := fun i => by
    rw [← atD_fin _ i ([], false, false), atD_updAt _ _ _ _ _ k.isLt, hrevoked, ← atD_fin _ i ([], false, false)]
    simp only [Fin.ext_iff]
  refine ⟨_, exec_programImageKey.trans (congrArg Host.Outcome.next (provision_runs hon hm hb)), ?_⟩
  rw [hf]
  refine ⟨provDone_result (by decide), ?_, ?_, fun i hi => ?_⟩
  · rw [keyState, provDone_boot, hboot, atD_fin, hkeys, if_pos rfl]
    rfl
  · rw [provDone_boot, hboot, hkeys, if_pos rfl]
  · rw [provDone_boot, hboot, hkeys, if_neg hi]

theorem installCommandKey_acts : Completes (.installCommandKey m j) s (fun s' => s'.get BOOT_PROV_RESULT.result = 0 ∧
    s'.boot.cmdKeys[j] = some (provData s) ∧ s'.boot.wrapped[j] = some (Config.aesWrap wrappingKey (provData s))) := by
  have hkeys : (installKey j s).2.boot.cmdKeys = updAt s.boot.cmdKeys j (fun _ => some (provData s)) ∧
      (installKey j s).2.boot.wrapped = updAt s.boot.wrapped j (fun _ => some (Config.aesWrap wrappingKey (provData s))) :=
    of_when (P := fun t => t.boot.cmdKeys = updAt s.boot.cmdKeys j (fun _ => some (provData s)) ∧
      t.boot.wrapped = updAt s.boot.wrapped j (fun _ => some (Config.aesWrap wrappingKey (provData s)))) ⟨rfl, rfl⟩ id
  refine ⟨_, exec_installCommandKey.trans (congrArg Host.Outcome.next (provision_runs hon hm hb)),
      provDone_result (s := (installKey j s).2) (by decide), ?_, ?_⟩
  · rw [provDone_boot, hkeys.1, ← atD_fin _ j none, atD_updAt _ _ _ _ _ j.isLt, if_pos rfl]
  · rw [provDone_boot, hkeys.2, ← atD_fin _ j none, atD_updAt _ _ _ _ _ j.isLt, if_pos rfl]

theorem enterFactory_refuses : (s.boot.lc = 1 → Completes (.enterFactory m blown) s (ProvAnswer s 3)) ∧
    (s.boot.lc = 0 → (∀ i : Fin 8, keyState s i ≠ 1) → Completes (.enterFactory m blown) s (ProvAnswer s 4)) := by
  have hans := fun {r : Nat} => provision_answers hon hm hb (r := r) (exec_enterFactory (blown := blown))
  refine ⟨fun h => hans (if_pos (by simp [h])) (by decide), fun h hk => hans ?_ (by decide)⟩
  have hnone : transitionMet s 1 = false := by
    have hall : ∀ i ∈ List.range 8, ¬ (keyState s i == 1) = true := fun i hi he => hk ⟨i, List.mem_range.mp hi⟩ (beq_iff_eq.mp he)
    exact transitionMet_factory.trans (List.any_eq_false.mpr hall)
  rw [toFactory, if_neg (by simp [h]), lifecycle, if_neg (by simp [hb]), if_neg (by simp [h, transition]), if_pos (by simp [hnone])]

theorem enterFactory_acts (i : Fin 8) (hlc : s.boot.lc = 0) (hk : keyState s i = 1) :
    (s.get PWR_STATUS.supwarn = 1 → Completes (.enterFactory m blown) s (ProvAnswer s 6)) ∧
    (¬ s.get PWR_STATUS.supwarn = 1 → blown = false → Completes (.enterFactory m blown) s (ProvAnswer s 5)) ∧
    (¬ s.get PWR_STATUS.supwarn = 1 → blown = true → Completes (.enterFactory m blown) s (fun s' => s'.get BOOT_PROV_RESULT.result = 0 ∧
      s'.boot.lc = 1 ∧ s'.get BOOT_STATUS.lc = 1 ∧ s'.get VAULT_STATUS.wiping = 1 ∧ s'.flt.due.isSome)) := by
  have hans := fun {r : Nat} => provision_answers hon hm hb (r := r) (exec_enterFactory (blown := blown))
  have hf := toFactory_keyed (blown := blown) hb i hlc hk
  refine ⟨fun hd => hans (hf.trans (if_pos hd)) (by decide), fun hd hbl => hans (hf.trans ((if_neg hd).trans (if_pos hbl))) (by decide),
      fun hd hbl => ?_⟩
  refine ⟨_, exec_enterFactory.trans (congrArg Host.Outcome.next (provision_runs hon hm hb)), ?_⟩
  rw [hf, if_neg hd, if_neg (by simp [hbl]), changeLifecycle_factory]
  exact provDone_factory (rungDue_factory factoryEntered_inFactory.busy) rungDue_due

end

end Sys2Proof.Machine
end

section
/-!
O53. Stage RECORDS (R360, R361, R372, R405) with the self-test that was asked for (R423).
-/
namespace Sys2Proof.Machine
open Sys2Proof
variable {s t u : State}

/-! ### The self-test of RECORDS (R423) -/

theorem byte_clearMem {lo hi k : Nat} : (s.clearMem lo hi).byte k = if lo ≤ k ∧ k < hi then 0 else s.byte k := by
  have hl : lookup (s.clearMem lo hi).mem k = if (!(decide (lo ≤ k) && decide (k < hi))) = true then lookup s.mem k else none :=
    lookup_filter_self s.mem (fun k => !(decide (lo ≤ k) && decide (k < hi))) k
  rw [State.byte, hl]
  by_cases h : lo ≤ k ∧ k < hi
  · rw [if_pos h, if_neg (by simp [h])]
    rfl
  · rw [if_neg h, if_pos (by rw [Bool.not_eq_true', Bool.and_eq_false_iff, decide_eq_false_iff_not,
    decide_eq_false_iff_not]; exact not_and_or.mp h), ← State.byte]

/-- Every bank after the test of it and of every other: cleared and in Deep retention. -/
def banksTested (s : State) : State :=
  ((((s.clearMem 0 mramKey).withMem (banksDeep s)).goodMem 0 mramKey).forEach (List.range 160) (fun b s => bankClamp b true (bankTo b 3 s)))
/-- The result of the self-test. -/
def testShown (fails : List (Nat × Nat)) (s : State) : State :=
  ((((s.set FLT_SELFTEST.req 0).raise FLT_SELFTEST.done).setB FLT_SELFTEST.pass (fails.all (fun e => e.2 == 0))).set FLT_SELFTEST.failed
    (min 0xFFFF (fails.map (·.2)).sum))
/-- The faults that it found. -/
def testLogged (fails : List (Nat × Nat)) (s : State) : State :=
  s.forEach (fails.filter (fun e => e.2 != 0)) (fun e s => s.fault 0x32 e.1 (BitVec.ofNat 32 e.2))

variable {fails : List (Nat × Nat)}

theorem selfTest_asked (h : s.get FLT_SELFTEST.req = 1) : selfTest fails s =
    (testLogged fails (testShown fails (banksTested s))).raise FLT_EVENTS.selftest_done := by
  unfold selfTest testLogged testShown banksTested
  rw [if_neg (by simp [State.is, h])]

theorem selfTest_unasked (h : s.get FLT_SELFTEST.req = 0) : selfTest fails s = s := if_pos (by simp [State.is, h])

theorem banksTested_leaves : Leaves BootPage (s.clearMem 0 mramKey) (banksTested s) := by
  have hP := Leaves.sees (s := s.clearMem 0 mramKey) (B := BootPage)
  have hgood : Leaves BootPage (s.clearMem 0 mramKey) (((s.clearMem 0 mramKey).withMem (banksDeep s)).goodMem 0 mramKey) := hP.rest (hP.rest .refl)
  exact of_forEach hgood fun b _ t ht => hP.setB (offPage bankCtrl_le) (hP.set (offPage bankCtrl_le) ht)

theorem testLogged_leaves : Leaves BootPage (s.clearMem 0 mramKey) (testLogged fails (testShown fails (banksTested s))) := by
  have hP := Leaves.sees (s := s.clearMem 0 mramKey) (B := BootPage)
  have hshown : Leaves BootPage (s.clearMem 0 mramKey) (testShown fails (banksTested s)) :=
    hP.set (by decide) (hP.setB (by decide) (hP.raise (by decide) (hP.set (by decide) banksTested_leaves)))
  exact of_forEach hshown fun _ _ _ => (hP.mono bootPage_quiet).fault

theorem testLogged_get {g : Fld} (hg : g.addr = FLT_SELFTEST) : (testLogged fails s).get g = s.get g := by
  have hP := Sees.get g (s.get g)
  exact of_forEach (P := fun t => t.get g = s.get g) rfl fun _ _ _ => hP.faultOutside fun a ha => by
    rw [show a = FLT_SELFTEST from ha.trans hg]
    decide

/-- The self-test has run over every memory. -/
structure TestDone (fails : List (Nat × Nat)) (t : State) : Prop where
  req : t.get FLT_SELFTEST.req = 0
  done : t.get FLT_SELFTEST.done = 1
  pass : t.get FLT_SELFTEST.pass = 1 ↔ ∀ e ∈ fails, e.2 = 0
  event : t.get FLT_EVENTS.selftest_done = 1

theorem selfTest_done (h : s.get FLT_SELFTEST.req = 1) : TestDone fails (selfTest fails s) := by
  have hget : ∀ {g : Fld}, g.addr = FLT_SELFTEST →
      ((testLogged fails (testShown fails (banksTested s))).raise FLT_EVENTS.selftest_done).get g = (testShown fails (banksTested s)).get g := fun hg =>
    (get_raise_other (by rw [hg]; decide)).trans (testLogged_get hg)
  rw [selfTest_asked h]
  generalize banksTested s = w at hget
  refine ⟨?_, ?_, ?_, get_raise_same (by decide) (by decide)⟩
  · rw [hget rfl, testShown, get_set_of_apart rfl, State.setB, get_set_of_apart rfl, State.raise, get_set_of_apart rfl,
    State.get_set_same _ _ _ (by decide)]
    rfl
  · rw [hget rfl, testShown, get_set_of_apart rfl, State.setB, get_set_of_apart rfl, get_raise_same (by decide) (by decide)]
  · rw [hget rfl, testShown, get_set_of_apart rfl, get_setB_same (by decide) (by decide)]
    cases hall : fails.all (fun e => e.2 == 0)
    · refine iff_of_false (by decide) fun h => ?_
      rw [List.all_eq_true.mpr fun e he => beq_iff_eq.mpr (h e he)] at hall
      exact absurd hall (by decide)
    · exact iff_of_true rfl fun e he => beq_iff_eq.mp (List.all_eq_true.mp hall e he)

theorem selfTest_byte {k : Nat} (h : s.get FLT_SELFTEST.req = 1) : (selfTest fails s).byte k = if mramKey ≤ k then s.byte k else 0 := by
  rw [selfTest_asked h, byte_congr ((State.raise_mem _ _).trans testLogged_leaves.mem), byte_clearMem]
  by_cases hk : mramKey ≤ k
  · rw [if_neg (by omega), if_pos hk]
  · rw [if_pos (by omega), if_neg hk]

/-- The self-test leaves the BOOT block and the Storekeeper, and no byte but those it clears. -/
theorem selfTest_keeps : (∀ a, BootPage a → (selfTest fails s).reg a = s.reg a) ∧ (selfTest fails s).boot = s.boot := by
  rcases get_bit (s := s) (f := FLT_SELFTEST.req) rfl with h | h
  · rw [selfTest_unasked h]
    exact ⟨fun _ _ => rfl, rfl⟩
  · rw [selfTest_asked h]
    exact ⟨fun a ha => (reg_raise_other fun e : a = FLT_EVENTS => absurd (e ▸ ha) (show ¬ BootPage FLT_EVENTS by decide)).trans (testLogged_leaves.reg a ha),
      (State.raise_boot _ _).trans testLogged_leaves.boot⟩

/-! ### RECORDS -/

/-- The page of the fault log and the self-test. -/
abbrev FaultPage (a : Nat) : Prop := 0x90000 ≤ a ∧ a < 0xA0000

/-- The copies of records that can be read. -/
def recordsRead (bad : List (Nat × Nat)) (s : State) : State :=
  let s := s.modBoot (fun b => { b with recs := b.recs.filter (fun c => !bad.contains (c.id, c.copy)) })
  recFallback (s.boot.recs.map (·.id)) s
/-- The life cycle, the debug state and the mode of verification, as BOOT_STATUS shows them. -/
def lifeShown (s : State) : State :=
  ((s.set BOOT_STATUS.lc s.boot.lc).set BOOT_STATUS.debug (debugOf s.boot.lc)).setB BOOT_STATUS.ha (((readRecord s recBOOT_MODE).getD []).getD 0 0 == 1)
/-- What the records say is shown. -/
def recordsShown (s : State) : State :=
  let t := resumeCounters (showRecords (lifeShown s))
  { t with dbg := (lifeShown s).dbg && s.boot.lc ≤ 1 }
/-- The end of RECORDS in life cycle `lc`. -/
def recordsEnd (lc : Nat) (s : State) : State :=
  if lc == 5 then toStage 0xF (s.set BOOT_STATUS.result 0x10)
  else if lc == 0 then enterRecovery 0x10 (restoreKeys s) else toStage 2 (restoreKeys s)

/-- Stage RECORDS begins, with the self-test that was asked for. -/
def recordsTested (fails : List (Nat × Nat)) (s : State) : State := selfTest fails (toStage 1 (s.modBoot (fun b => { b with warm := false })))

theorem records_eq {bad : List (Nat × Nat)} (h : inStage s 1 = true) : records bad fails s =
    recordsEnd (recordsRead bad (recordsTested fails s)).boot.lc (recordsShown (recordsRead bad (recordsTested fails s))) := by
  unfold records
  rw [if_neg (by simp [h])]
  extract_lets u1 u2 u3 lc u4 u5 u6
  have h3 : u3 = recordsRead bad (recordsTested fails s) := rfl
  have h6 : u6 = recordsShown u3 := rfl
  rw [← h3, recordsEnd, ← h6]

/-! #### What RECORDS reads -/

variable {bad : List (Nat × Nat)}

theorem recordsTested_boot : (recordsTested fails s).boot = { s.boot with warm := false } := by
  rw [recordsTested, selfTest_keeps.2, toStage_boot, modBoot_boot]
theorem recordsRead_boot : (recordsRead bad s).boot = { s.boot with recs := s.boot.recs.filter (fun c => !bad.contains (c.id, c.copy)) } := by
  rw [recordsRead, recFallback_hidden.2, modBoot_boot]
theorem recordsRead_mem : (recordsRead bad s).mem = s.mem := by rw [recordsRead, recFallback_hidden.1, State.modBoot_mem]
theorem recordsRead_get {g : Fld} (hg : g.addr ≠ BOOT_EVENTS) : (recordsRead bad s).get g = s.get g :=
  (Sees.get g (s.get g)).recFallback (s := s.modBoot (fun b => { b with recs := b.recs.filter (fun c => !bad.contains (c.id, c.copy)) }))
    (fun e => hg e.symm) rfl

/-! #### What RECORDS shows -/

theorem ctr_addr (k : Nat) : CMD_CTR_LO k + 4 = 0x80044 + 8 * k ∧ CMD_CTR_LO k = 0x80040 + 8 * k := by unfold CMD_CTR_LO; omega

theorem Sees.resumeCounters {B : Nat → Prop} {P : State → Prop} (hP : Sees B P) (hB : ∀ a, B a → a < 0x80040 ∨ 0x80060 ≤ a) (h : P s) :
    P (resumeCounters s) := by
  refine of_forEach h fun k hk t ht => hP.setPair (fun hb => ?_) (fun hb => ?_) ht
  · have := hB _ hb
    have := ctr_addr k
    have := List.mem_range.mp hk
    omega
  · have := hB _ hb
    have := ctr_addr k
    have := List.mem_range.mp hk
    omega

theorem lifeShown_hidden : (lifeShown s).mem = s.mem ∧ (lifeShown s).boot = s.boot :=
  have hP := Sees.hidden fun mem _ _ _ boot => mem = s.mem ∧ boot = s.boot
  hP.setB id (hP.set id (hP.set id ⟨rfl, rfl⟩))

/-- The records as RECORDS shows them leave the memory, the Storekeeper, the first registers of its block and the page of faults. -/
theorem recordsShown_leaves {B : Nat → Prop} (hB : ∀ a, B a → a < 0x1C ∨ (0x90000 ≤ a ∧ a < 0xA0000)) : Leaves B (lifeShown s) (recordsShown s) := by
  have hP := Leaves.sees (s := lifeShown s) (B := B)
  have hun : Sees Unshown (Leaves B (lifeShown s)) := hP.mono fun a ha => by
    have hout := hB a ha
    unfold Unshown LADDER_STATUS
    omega
  exact hP.rest (hP.resumeCounters (fun a ha => by have hout := hB a ha; omega) (hun.showRecords .refl))

theorem recordsShown_status {g : Fld} (hg : g.addr = BOOT_STATUS) : (recordsShown s).get g = (lifeShown s).get g :=
  (recordsShown_leaves (B := (· = BOOT_STATUS)) fun a ha => Or.inl (ha ▸ by decide)).get hg
theorem recordsShown_fault {g : Fld} (hg : FaultPage g.addr) : (recordsShown s).get g = s.get g := by
  have hne : g.addr ≠ BOOT_STATUS := by unfold BOOT_STATUS; omega
  rw [(recordsShown_leaves (B := FaultPage) fun _ => Or.inr).get hg, lifeShown, State.setB, State.get_set_other _ _ _ _ hne,
    State.get_set_other _ _ _ _ hne, State.get_set_other _ _ _ _ hne]
theorem recordsShown_hidden : (recordsShown s).mem = s.mem ∧ (recordsShown s).boot = s.boot :=
  have hl := recordsShown_leaves (s := s) (B := fun _ => False) fun _ => False.elim
  ⟨hl.mem.trans lifeShown_hidden.1, hl.boot.trans lifeShown_hidden.2⟩

theorem recordsShown_lc : (recordsShown s).get BOOT_STATUS.lc = s.boot.lc % 8 := by
  rw [recordsShown_status rfl, lifeShown, State.setB, get_set_of_apart rfl, get_set_of_apart rfl, State.get_set_same _ _ _ (by decide)]
  rfl
theorem recordsShown_debug : (recordsShown s).get BOOT_STATUS.debug = debugOf s.boot.lc % 4 := by
  rw [recordsShown_status rfl, lifeShown, State.setB, get_set_of_apart rfl, State.get_set_same _ _ _ (by decide)]
  rfl

/-- Each counter resumes from its record (R405). -/
theorem resumeCounters_pair (k : Fin 4) : (resumeCounters s).pair (CMD_CTR_LO k) = ceiling s k % 2 ^ 64 := by
  have hceil : ∀ {t : State}, t.boot = s.boot → ∀ k, ceiling t k = ceiling s k := fun h k => by rw [ceiling, ceiling, readRecord_congr h]
  refine forEach_achieves (I := fun t => t.boot = s.boot) (P := fun t => t.pair (CMD_CTR_LO k) = ceiling s k % 2 ^ 64) (List.mem_range.mpr k.isLt) rfl
    (fun _ _ _ h => h) (fun t h => pair_setPair_mod.trans (by rw [hceil h])) fun j _ t h hpair => ?_
  by_cases hjk : j = k
  · subst hjk
    exact pair_setPair_mod.trans (by rw [hceil h])
  · have hj := ctr_addr j
    have hk := ctr_addr k
    have hne : ∀ {a}, a = CMD_CTR_LO k ∨ a = CMD_CTR_LO k + 4 → (t.setPair (CMD_CTR_LO j) (ceiling t j)).reg a = t.reg a := fun ha =>
      (reg_setN_other (by omega)).trans (reg_setN_other (by omega))
    exact (pair_congr (hne (Or.inl rfl)) (hne (Or.inr rfl))).trans hpair

theorem pair_withDbg {b : Bool} {a : Nat} : State.pair { s with dbg := b } a = s.pair a := rfl

theorem recordsShown_counter (k : Fin 4) : (recordsShown s).pair (CMD_CTR_LO k) = ceiling s k % 2 ^ 64 := by
  have hboot : (showRecords (lifeShown s)).boot = s.boot :=
    ((Sees.hidden fun _ _ _ _ boot => boot = s.boot).mono fun _ => False.elim).showRecords lifeShown_hidden.2
  rw [recordsShown, pair_withDbg, resumeCounters_pair, ceiling, readRecord_congr hboot, ← ceiling]

/-! #### How RECORDS ends -/

variable {lc : Nat}

theorem restoreKeys_get {g : Fld} (hg : g.addr ≠ VAULT_STATUS) : (restoreKeys s).get g = s.get g := by
  rw [restoreKeys, get_raise_other hg, State.modBoot_get]
theorem restoreKeys_boot : (restoreKeys s).boot = { s.boot with cmdKeys := s.boot.wrapped.map (fun w => w.bind (Config.aesUnwrap wrappingKey)) } := by
  rw [restoreKeys, State.raise_boot, modBoot_boot]
theorem restoreKeys_mem : (restoreKeys s).mem = s.mem := by rw [restoreKeys, State.raise_mem, State.modBoot_mem]

theorem recordsEnd_scrap : recordsEnd 5 s = toStage 0xF (s.set BOOT_STATUS.result 0x10) := if_pos rfl
theorem recordsEnd_blank : recordsEnd 0 s = enterRecovery 0x10 (restoreKeys s) := (if_neg (by decide)).trans (if_pos rfl)
theorem recordsEnd_boots (h5 : lc ≠ 5) (h0 : lc ≠ 0) : recordsEnd lc s = toStage 2 (restoreKeys s) :=
  (if_neg (by simpa using h5)).trans (if_neg (by simpa using h0))

theorem recordsEnd_cases : recordsEnd lc s = toStage 0xF (s.set BOOT_STATUS.result 0x10) ∨ recordsEnd lc s = enterRecovery 0x10 (restoreKeys s) ∨
    recordsEnd lc s = toStage 2 (restoreKeys s) := by
  by_cases h5 : lc = 5
  · exact Or.inl (h5 ▸ recordsEnd_scrap)
  by_cases h0 : lc = 0
  · exact Or.inr (Or.inl (h0 ▸ recordsEnd_blank))
  · exact Or.inr (Or.inr (recordsEnd_boots h5 h0))

/-- The end of RECORDS leaves the records, the memory, the life cycle shown and the page of faults. -/
theorem recordsEnd_keeps : (recordsEnd lc s).boot.recs = s.boot.recs ∧ (recordsEnd lc s).mem = s.mem ∧
    (recordsEnd lc s).get BOOT_STATUS.lc = s.get BOOT_STATUS.lc ∧ ∀ g : Fld, FaultPage g.addr → (recordsEnd lc s).get g = s.get g := by
  have hpage : ∀ {g : Fld}, FaultPage g.addr → g.addr ≠ BOOT_STATUS ∧ g.addr ≠ VAULT_STATUS := fun hg => by unfold BOOT_STATUS VAULT_STATUS; omega
  rcases recordsEnd_cases (lc := lc) (s := s) with h | h | h <;> rw [h]
  · refine ⟨by rw [toStage_boot, State.set_boot], by rw [toStage_mem, State.set_mem], by rw [toStage, get_set_of_apart rfl, get_set_of_apart rfl], ?_⟩
    intro g hg
    rw [toStage, State.get_set_other _ _ _ _ (hpage hg).1, State.get_set_other _ _ _ _ (hpage hg).1]
  · refine ⟨by rw [enterRecovery_hidden.2, restoreKeys_boot], by rw [enterRecovery_hidden.1, restoreKeys_mem], ?_, ?_⟩
    · rw [enterRecovery_get (by decide), toStage, get_set_of_apart rfl, recoveryShown, State.raise, get_set_of_apart rfl, get_set_of_apart rfl,
        restoreKeys_get (by decide)]
    · intro g hg
      rw [enterRecovery_get (by omega), toStage, State.get_set_other _ _ _ _ (hpage hg).1, recoveryShown, get_raise_other (hpage hg).1,
        State.get_set_other _ _ _ _ (hpage hg).1, restoreKeys_get (hpage hg).2]
  · refine ⟨by rw [toStage_boot, restoreKeys_boot], by rw [toStage_mem, restoreKeys_mem], ?_, ?_⟩
    · rw [toStage, get_set_of_apart rfl, restoreKeys_get (by decide)]
    · intro g hg
      rw [toStage, State.get_set_other _ _ _ _ (hpage hg).1, restoreKeys_get (hpage hg).2]

/-- The life cycle boots on: Factory to Return, whose keys are restored. -/
theorem recordsEnd_on (h1 : 1 ≤ lc) (h4 : lc ≤ 4) : recordsEnd lc s = toStage 2 (restoreKeys s) := recordsEnd_boots (by omega) (by omega)

theorem debugOf_on (h1 : 1 ≤ lc) (h4 : lc ≤ 4) : debugOf lc % 4 = if lc = 1 then 3 else if lc = 3 then 0 else 1 := by
  obtain rfl | rfl | rfl | rfl : lc = 1 ∨ lc = 2 ∨ lc = 3 ∨ lc = 4 := by omega
  all_goals rfl

/-- What the end of RECORDS shows in each life cycle, of a state whose records are read. -/
theorem recordsDone_shows (hlc : s.boot.lc = lc) :
    (recordsEnd lc (recordsShown s)).get BOOT_STATUS.lc = lc % 8 ∧
    (lc = 5 → (recordsEnd lc (recordsShown s)).get BOOT_STATUS.stage = 0xF) ∧
    (lc = 0 → (recordsEnd lc (recordsShown s)).get BOOT_STATUS.stage = 0xE ∧ (recordsEnd lc (recordsShown s)).get BOOT_STATUS.recovery = 1) ∧
    (1 ≤ lc ∧ lc ≤ 4 → (recordsEnd lc (recordsShown s)).get BOOT_STATUS.stage = 2 ∧ (recordsEnd lc (recordsShown s)).get VAULT_STATUS.restored = 1 ∧
      (recordsEnd lc (recordsShown s)).boot.cmdKeys = s.boot.wrapped.map (fun w => w.bind (Config.aesUnwrap wrappingKey)) ∧
      (recordsEnd lc (recordsShown s)).get BOOT_STATUS.debug = (if lc = 1 then 3 else if lc = 3 then 0 else 1) ∧
      ∀ k : Fin 4, (recordsEnd lc (recordsShown s)).pair (CMD_CTR_LO k) = ceiling s k % 2 ^ 64) := by
  have hboot := (recordsShown_hidden (s := s)).2
  have hshown := recordsShown_lc (s := s)
  have hdebug := recordsShown_debug (s := s)
  have hctr := recordsShown_counter (s := s)
  rw [hlc] at hshown hdebug
  generalize recordsShown s = w at *
  refine ⟨recordsEnd_keeps.2.2.1.trans hshown, fun h => ?_, fun h => ?_, fun ⟨h1, h4⟩ => ?_⟩
  · rw [h, recordsEnd_scrap, toStage_stage (by decide)]
  · have hgo : bootHalts (restoreKeys w) = false := by
      have hblank : (restoreKeys w).boot.lc = 0 := by rw [restoreKeys_boot, hboot, hlc, h]
      rw [bootHalts, hblank]
      rfl
    rw [h, recordsEnd_blank, enterRecovery_stage, hgo]
    exact ⟨rfl, enterRecovery_recovery⟩
  · rw [recordsEnd_on h1 h4]
    refine ⟨toStage_stage (by decide), ?_, ?_, ?_, fun k => ?_⟩
    · rw [toStage, get_set_of_apart rfl, restoreKeys, get_raise_same (by decide) (by decide)]
    · rw [toStage_boot, restoreKeys_boot, hboot]
    · rw [toStage, get_set_of_apart rfl, restoreKeys_get (by decide), hdebug, debugOf_on h1 h4]
    · have haddr := ctr_addr k
      have hreg : ∀ {a}, a = CMD_CTR_LO k ∨ a = CMD_CTR_LO k + 4 → (toStage 2 (restoreKeys w)).reg a = w.reg a := fun ha => by
        rw [toStage, reg_set_other (by change _ ≠ BOOT_STATUS; unfold BOOT_STATUS; omega), restoreKeys,
          reg_raise_other (by change _ ≠ VAULT_STATUS; unfold VAULT_STATUS; omega), State.modBoot_reg]
      exact (pair_congr (hreg (Or.inl rfl)) (hreg (Or.inr rfl))).trans (hctr k)

end Sys2Proof.Machine
end

section
/-!
O53. RECORDS as a whole, and O53 from the lemmas of its stages.
-/
namespace Sys2Proof.Machine
open Sys2Proof
variable {s t u : State}

/-! ### RECORDS as a whole -/

section
variable {bad fails : List (Nat × Nat)}

/-- The state in which RECORDS ends. -/
def recordsDone (bad fails : List (Nat × Nat)) (s : State) : State := recordsEnd s.boot.lc (recordsShown (recordsRead bad (recordsTested fails s)))

theorem recordsBegun_boot : (recordsRead bad (recordsTested fails s)).boot =
    { s.boot with warm := false, recs := s.boot.recs.filter (fun c => !bad.contains (c.id, c.copy)) } := by
  rw [recordsRead_boot, recordsTested_boot]

theorem recordsBegun_keys : (recordsRead bad (recordsTested fails s)).boot.lc = s.boot.lc ∧
    (recordsRead bad (recordsTested fails s)).boot.wrapped = s.boot.wrapped := by
  rw [recordsBegun_boot]
  exact ⟨rfl, rfl⟩

theorem records_done (h : inStage s 1 = true) : records bad fails s = recordsDone bad fails s := by
  rw [records_eq h, recordsBegun_boot, recordsDone]

theorem recordsDone_recs : (recordsDone bad fails s).boot.recs = s.boot.recs.filter (fun c => !bad.contains (c.id, c.copy)) := by
  rw [recordsDone, recordsEnd_keeps.1, recordsShown_hidden.2, recordsBegun_boot]
theorem recordsDone_ceiling {k : Nat} : ceiling (recordsDone bad fails s) k = ceiling (recordsRead bad (recordsTested fails s)) k := by
  rw [ceiling, ceiling, readRecord_of_recs (recordsDone_recs.trans (congrArg BootH.recs recordsBegun_boot).symm)]
theorem recordsDone_mem : (recordsDone bad fails s).mem = (recordsTested fails s).mem := by
  rw [recordsDone, recordsEnd_keeps.2.1, recordsShown_hidden.1, recordsRead_mem]
theorem recordsDone_fault {g : Fld} (hg : FaultPage g.addr) : (recordsDone bad fails s).get g = (recordsTested fails s).get g := by
  rw [recordsDone, recordsEnd_keeps.2.2.2 g hg, recordsShown_fault hg, recordsRead_get (by unfold BOOT_EVENTS; omega)]

theorem testBegun_get {g : Fld} (hg : FaultPage g.addr) : (toStage 1 (s.modBoot (fun b => { b with warm := false }))).get g = s.get g := by
  rw [toStage, State.get_set_other _ _ _ _ (by change g.addr ≠ BOOT_STATUS; unfold BOOT_STATUS; omega), State.modBoot_get]
theorem testBegun_mem : (toStage 1 (s.modBoot (fun b => { b with warm := false }))).mem = s.mem := by rw [toStage_mem, State.modBoot_mem]

theorem recordsDone_untested (h : s.get FLT_SELFTEST.req = 0) : (recordsDone bad fails s).mem = s.mem := by
  rw [recordsDone_mem, recordsTested, selfTest_unasked ((testBegun_get (by decide)).trans h), testBegun_mem]

theorem recordsDone_tested (h : s.get FLT_SELFTEST.req = 1) : TestDone fails (recordsDone bad fails s) ∧
    ∀ k, (recordsDone bad fails s).byte k = if mramKey ≤ k then s.byte k else 0 := by
  have hreq := (testBegun_get (s := s) (g := FLT_SELFTEST.req) (by decide)).trans h
  obtain ⟨h0, h1, hpass, hevent⟩ := selfTest_done (fails := fails) hreq
  refine ⟨⟨(recordsDone_fault (by decide)).trans h0, (recordsDone_fault (by decide)).trans h1, ?_,
      (recordsDone_fault (by decide)).trans hevent⟩, fun k => ?_⟩
  · rw [recordsDone_fault (by decide)]
    exact hpass
  · rw [byte_congr recordsDone_mem, recordsTested, selfTest_byte hreq, byte_congr testBegun_mem]

end

theorem records_acts {cs : List (Fin 65536 × Fin 2)} {fs : List (Fin 256 × Fin 65536)} (h : inStage s 1 = true) :
    Completes (.records cs fs) s (fun s' =>
      s'.boot.recs = s.boot.recs.filter (fun c => !(cs.map (fun e => (e.1.val, e.2.val))).contains (c.id, c.copy)) ∧
      s'.get BOOT_STATUS.lc = s.boot.lc % 8 ∧
      (s.boot.lc = 5 → s'.get BOOT_STATUS.stage = 0xF) ∧
      (s.boot.lc = 0 → s'.get BOOT_STATUS.stage = 0xE ∧ s'.get BOOT_STATUS.recovery = 1) ∧
      (1 ≤ s.boot.lc ∧ s.boot.lc ≤ 4 → s'.get BOOT_STATUS.stage = 2 ∧ s'.get VAULT_STATUS.restored = 1 ∧
        s'.boot.cmdKeys = s.boot.wrapped.map (fun w => w.bind (Config.aesUnwrap wrappingKey)) ∧
        s'.get BOOT_STATUS.debug = (if s.boot.lc = 1 then 3 else if s.boot.lc = 3 then 0 else 1) ∧
        ∀ k : Fin 4, s'.pair (CMD_CTR_LO k) = ceiling s' k % 2 ^ 64) ∧
      (s.get FLT_SELFTEST.req = 0 → s'.mem = s.mem) ∧
      (s.get FLT_SELFTEST.req = 1 → s'.get FLT_SELFTEST.req = 0 ∧ s'.get FLT_SELFTEST.done = 1 ∧
        (s'.get FLT_SELFTEST.pass = 1 ↔ ∀ e ∈ fs, e.2.val = 0) ∧ s'.get FLT_EVENTS.selftest_done = 1 ∧
        ∀ k, s'.byte k = if mramKey ≤ k then s.byte k else 0)) := by
  obtain ⟨hlife, hwrapped⟩ := recordsBegun_keys (s := s) (bad := cs.map (fun e => (e.1.val, e.2.val))) (fails := fs.map (fun e => (e.1.val, e.2.val)))
  obtain ⟨hlc, h5, h0, hon⟩ := recordsDone_shows hlife
  refine ⟨_, congrArg Host.Outcome.next (records_done h), recordsDone_recs, hlc, h5, h0, fun hr => ?_, recordsDone_untested, fun hreq => ?_⟩
  · obtain ⟨hst, hrest, hkeys, hdebug, hctr⟩ := hon hr
    refine ⟨hst, hrest, hkeys.trans (by rw [hwrapped]), hdebug, fun k => ?_⟩
    rw [recordsDone_ceiling]
    exact hctr k
  · obtain ⟨⟨hr, hd, hpass, hevent⟩, hbyte⟩ := recordsDone_tested (bad := cs.map (fun e => (e.1.val, e.2.val)))
      (fails := fs.map (fun e => (e.1.val, e.2.val))) hreq
    exact ⟨hr, hd, hpass.trans List.forall_mem_map, hevent, hbyte⟩

/-! ### The obligation -/

theorem bootStages_start (s : State) (bad : Option (BitVec 26)) (l : List (BitVec 26)) (cs : List (Fin 65536 × Fin 2))
    (fs : List (Fin 256 × Fin 65536)) :
    (inStage s 0 = false ∨ s.get CLK_RING.state = 0 → exec .romStart s = .next s) ∧
    (inStage s 1 = false → exec (.records cs fs) s = .next s) ∧ (inStage s 2 = false → exec (.slotSelect l) s = .next s) ∧
    (inStage s 3 = false → exec (.firmware bad) s = .next s) ∧ (inStage s 4 = false → exec .persist s = .next s) ∧
    (inStage s 5 = false → exec (.inventory bad) s = .next s) ∧ (inStage s 6 = false → exec (.tileLoad bad) s = .next s) ∧
    (inStage s 7 = false → exec (.measure bad) s = .next s) ∧ (inStage s 8 = false → exec .verdictTimeout s = .next s) :=
  ⟨romStart_waits, records_waits, slotSelect_waits, fun h => congrArg Host.Outcome.next (bootStage_waits h), persist_waits,
    fun h => congrArg Host.Outcome.next (bootStage_waits h), fun h => congrArg Host.Outcome.next (bootStage_waits h),
    fun h => congrArg Host.Outcome.next (bootStage_waits h), verdictTimeout_waits⟩

theorem stages_badLine (s : State) (off : BitVec 26) :
    (inStage s 3 = true → Completes (.firmware (some off)) s (SlotIsBad (s.get BOOT_STATUS.slot) 0x0B)) ∧
    (inStage s 5 = true → Completes (.inventory (some off)) s (SlotIsBad (s.get BOOT_STATUS.slot) 0x0B)) ∧
    (inStage s 6 = true → Completes (.tileLoad (some off)) s (SlotIsBad (s.get BOOT_STATUS.slot) 0x0B)) ∧
    (inStage s 7 = true → Completes (.measure (some off)) s (SlotIsBad (s.get BOOT_STATUS.slot) 0x0B)) :=
  ⟨fun h => ⟨_, rfl, bootStage_badLine h⟩, fun h => ⟨_, rfl, bootStage_badLine h⟩, fun h => ⟨_, rfl, bootStage_badLine h⟩,
    fun h => ⟨_, rfl, bootStage_badLine h⟩⟩

/-- Settles O53: each stage is an equation of its own, a slot found bad one lemma for every stage, and what a stage leaves of the boot's own
state is said once for every property that does not look at what its functions write. -/
theorem theBootRunsItsStages : Obligations.TheBootRunsItsStages := by
  unfold Obligations.TheBootRunsItsStages
  refine ⟨fun s bad l cs fs => ?_, fun s h => slotSelect_acts h _ _ rfl rfl, fun s => ?_, fun s m => ?_, fun s m k j blown => ?_⟩
  · obtain ⟨h0, h1, h2, h3, h4, h5, h6, h7, h8⟩ := bootStages_start s bad l cs fs
    exact ⟨h0, h1, h2, h3, h4, h5, h6, h7, h8, romStart_acts, records_acts⟩
  · exact ⟨fun off => stages_badLine s off, firmware_waits, persist_unwritable, firmware_fails rfl, firmware_acts rfl,
      fun b d h hw hp hd hc => persist_acts rfl h hw hp hd hc, persist_none, inventory_fails rfl rfl, inventory_acts rfl rfl,
      fun h hok hap hsound => tileLoad_acts hok h rfl hap hsound, fun e he h hok hk hbad => tileLoad_fails hok h rfl he hk hbad, measure_acts rfl,
      verdictTimeout_acts⟩
  · exact ⟨thaw_waits, thaw_acts, thawGo_acts, thawGo_waits, postThaw_waits, postThaw_acts rfl⟩
  · exact ⟨fun h c hc => provCommand_off hc h, fun h hm c hc => provCommand_refused hc h hm, fun h hm hb c hc => provCommand_busy hc h hm hb,
      fun h hm hb => ⟨(programImageKey_acts h hm hb).1, (programImageKey_acts h hm hb).2.1, (programImageKey_acts h hm hb).2.2,
        programImageKey_blown h hm hb, installCommandKey_acts h hm hb, enterFactory_refuses h hm hb |>.1, enterFactory_refuses h hm hb |>.2,
        fun i hlc hk => enterFactory_acts h hm hb i hlc hk⟩⟩

end Sys2Proof.Machine
end

section
/-!
The state after reset, and the register fields a function writes: `Writes fs rs s t` says of two states that outside the clusters' and the
tiles' blocks they differ in no field but those of `fs` and of the registers `rs`. A function of the model has one such lemma with the fields
it writes, and what another field reads as after it is a comparison of fields.
-/
namespace Sys2Proof.Machine
open Sys2Proof
variable {s t u : State} {fs : List Fld} {rs : List Nat}

/-- Settles O59: the maps of the state at reset are empty, and the rest is read off it. -/
theorem resetMeetsTheInvariant : Obligations.ResetMeetsTheInvariant :=
  ⟨⟨reset_regs_nil, reset_memory_wf⟩, rfl, by decide, by decide, by decide, rfl, by decide, rfl, rfl⟩

/-! ### The fields written -/

/-- Field `g` is of a register below the blocks of clusters and tiles, none of `rs`, and apart from the fields `fs`. -/
def outside (fs : List Fld) (rs : List Nat) (g : Fld) : Bool := decide (g.addr < 0x100000) && !rs.contains g.addr && fs.all (·.apart g)

theorem outside_iff {g : Fld} : outside fs rs g = true ↔ g.addr < 0x100000 ∧ g.addr ∉ rs ∧ ∀ f ∈ fs, f.apart g = true := by
  simp only [outside, Bool.and_eq_true, decide_eq_true_eq, Bool.not_eq_true', List.contains_eq_mem, decide_eq_false_iff_not,
    List.all_eq_true, and_assoc]

/-- Below the blocks of clusters and tiles `t` differs from `s` in no field but `fs` and those of `rs`. -/
def Writes (fs : List Fld) (rs : List Nat) (s t : State) : Prop := ∀ g, outside fs rs g = true → t.get g = s.get g

namespace Writes

theorem refl : Writes fs rs s s := fun _ _ => rfl
theorem trans (h : Writes fs rs u s) (h' : Writes fs rs s t) : Writes fs rs u t := fun g hg => (h' g hg).trans (h g hg)
theorem mono {fs' : List Fld} {rs' : List Nat} (h : Writes fs rs s t) (hf : fs ⊆ fs') (hr : rs ⊆ rs') : Writes fs' rs' s t := fun g hg => by
  obtain ⟨hlt, hreg, hapart⟩ := outside_iff.1 hg
  exact h g (outside_iff.2 ⟨hlt, fun ha => hreg (hr ha), fun f h => hapart f (hf h)⟩)

theorem setReg {a : Nat} {v : Word} (h : Writes fs rs u s) (ha : a ∈ rs ∨ 0x100000 ≤ a) : Writes fs rs u (s.setReg a v) := fun g hg => by
  obtain ⟨hlt, hreg, -⟩ := outside_iff.1 hg
  have hne : g.addr ≠ a := by
    rintro rfl
    exact ha.elim hreg (Nat.not_le.2 hlt)
  exact (State.get_setReg_other s a v g hne).trans (h g hg)
theorem setN {a n : Nat} (h : Writes fs rs u s) (ha : a ∈ rs ∨ 0x100000 ≤ a) : Writes fs rs u (s.setN a n) := h.setReg ha
theorem setIn {f : Fld} {n : Nat} (h : Writes fs rs u s) (ha : f.addr ∈ rs ∨ 0x100000 ≤ f.addr) : Writes fs rs u (s.set f n) := h.setReg ha
theorem set {f : Fld} {n : Nat} (h : Writes fs rs u s) (hf : f ∈ fs) : Writes fs rs u (s.set f n) := fun g hg =>
  (get_set_of_apart ((outside_iff.1 hg).2.2 f hf)).trans (h g hg)
theorem raise {f : Fld} (h : Writes fs rs u s) (hf : f ∈ fs) : Writes fs rs u (s.raise f) := h.set hf
theorem setB {f : Fld} {b : Bool} (h : Writes fs rs u s) (hf : f ∈ fs) : Writes fs rs u (s.setB f b) := h.set hf

end Writes

/-- A register read whole, as a field. -/
theorem regN_eq_get (s : State) (a : Nat) : s.regN a = s.get ⟨a, 0, 32⟩ := by
  rw [State.get, bitsOf, Nat.pow_zero, Nat.div_one, Nat.mod_eq_of_lt (s.reg a).isLt, State.regN]

theorem Writes.regN {a : Nat} (h : Writes fs rs s t) (ha : outside fs rs ⟨a, 0, 32⟩ = true) : t.regN a = s.regN a := by
  rw [regN_eq_get, regN_eq_get, h _ ha]

end Sys2Proof.Machine
end

section
/-!
O33. The servo: what a step of TT leaves of the registers that are no unit's, what a slew and a step do to the time base, and the
states of the servo, each an equation of its own.
-/
namespace Sys2Proof.Machine
open Sys2Proof
variable {s t u : State} {d off : Int}

/-! ### A step of TT and the units that count it (R82, R243) -/

/-- `t` has the time base of `s`, and its registers below the blocks of clusters and tiles. -/
structure UnitsOnly (s t : State) : Prop where
  tt : t.tt = s.tt
  writes : Writes [] [] s t

namespace UnitsOnly

theorem refl : UnitsOnly s s := ⟨rfl, .refl⟩
theorem setReg {a : Nat} {v : Word} (h : UnitsOnly u s) (ha : 0x100000 ≤ a) : UnitsOnly u (s.setReg a v) :=
  ⟨h.tt, h.writes.setReg (.inr ha)⟩
theorem modEdg {e : Nat} {f : EdgH → EdgH} (h : UnitsOnly u s) : UnitsOnly u (s.modEdg e f) := ⟨h.tt, h.writes⟩
theorem setLevel {c k : Nat} {on : Bool} {placed : Option Nat} (h : UnitsOnly u s) : UnitsOnly u (setLevel c k on placed s) :=
  ((h.setReg edgChStat_le).setReg edgChStat_le).modEdg
theorem adcEdgeEvent {c k kind : Nat} (h : UnitsOnly u s) : UnitsOnly u (adcEdgeEvent c k kind s) :=
  of_forEach h fun _ _ _ h => of_when h fun h => ⟨h.tt, h.writes⟩
theorem fireCompare {c k : Nat} {step : Bool} (h : UnitsOnly u s) : UnitsOnly u (fireCompare c k step s) := by
  have hev : 0x100000 ≤ EDG_EVENTS c := by unfold EDG_EVENTS cluBlk; omega
  unfold Machine.fireCompare
  extract_lets late te due s1 s2
  have h1 : UnitsOnly u s1 := (h.setReg edgChStat_le).setReg edgChStat_le
  have h2 : UnitsOnly u s2 := of_when h1 fun h => of_when h setLevel
  exact (h2.setReg hev).adcEdgeEvent
theorem edgeStep (h : UnitsOnly u s) : UnitsOnly u (edgeStep d s) := by
  unfold Machine.edgeStep
  refine of_forEach h fun c _ s1 h1 => ?_
  refine List.foldlRecOn (motive := fun p : State × _ => UnitsOnly u p.1) _ _ h1 fun p hp k _ => ?_
  obtain ⟨s2, carry⟩ := p
  have h2 : UnitsOnly u s2 := hp
  have hcnt : 0x100000 ≤ EDG_CNT c k := by unfold EDG_CNT cluBlk; omega
  dsimp -zeta only
  split
  · exact h2
  extract_lets add was cmp n s3 compares s4 next shift cut s5 s6
  have h4 : UnitsOnly u s4 := of_when (h2.setReg hcnt) fireCompare
  have h5 : UnitsOnly u s5 := (of_when h4 setLevel).modEdg
  exact of_ite (of_when h5 modEdg) h4

end UnitsOnly

/-! ### Slews and steps (R81, R82) -/

theorem showSlew_writes : Writes [TT_STATUS.slewing] [TT_SLEW_LEFT] s (showSlew s) :=
  (Writes.refl.setN (.inl (by decide))).setB (by decide)

theorem slewMax_writes : Writes [TT_STATUS.slewing] [TT_SLEW_LEFT] s (slewMax off s) := showSlew_writes (s := s.withTt _)
theorem slewMax_tt : (slewMax off s).tt = { s.tt with slew := off * 2 ^ 76, slewHost := false } := rfl

/-- The time base after a step of `d` ns. -/
def steppedTt (d : Int) (c : TtH) : TtH :=
  { c with t := (((c.t : Int) + d * 2 ^ 84) % 2 ^ 148).toNat, slew := 0, lastSync := (((c.lastSync : Int) + d) % 2 ^ 64).toNat }

theorem steppedTt_t (c : TtH) : ((steppedTt d c).t : Int) = ((c.t : Int) + d * 2 ^ 84) % 2 ^ 148 :=
  Int.toNat_of_nonneg (Int.emod_nonneg _ (by decide))

theorem edgeStep_units : UnitsOnly s (edgeStep d s) := UnitsOnly.refl.edgeStep

theorem stepTt_tt : (stepTt d s).tt = steppedTt d s.tt := edgeStep_units.tt
theorem stepTt_writes : Writes [TT_STATUS.slewing, TT_EVENTS.step_taken] [TT_SLEW_LEFT] s (stepTt d s) := by
  unfold stepTt
  extract_lets x c s1
  have h1 : Writes [TT_STATUS.slewing, TT_EVENTS.step_taken] [TT_SLEW_LEFT] s s1 :=
    edgeStep_units.writes.mono (List.nil_subset _) (List.nil_subset _)
  have h2 : Writes [TT_STATUS.slewing, TT_EVENTS.step_taken] [TT_SLEW_LEFT] s (showSlew s1) :=
    h1.trans (showSlew_writes.mono (by decide) (List.Subset.refl _))
  exact h2.raise (by decide)
theorem stepTt_taken : (stepTt d s).get TT_EVENTS.step_taken = 1 := get_raise_same (by decide) (by decide)

theorem stepByOffset_writes : Writes [TT_STATUS.slewing, TT_EVENTS.step_taken] [TT_SLEW_LEFT] s (stepByOffset off s) :=
  of_when (P := Writes _ _ s) stepTt_writes fun h => h.trans (slewMax_writes.mono (by decide) (by decide))
theorem stepByOffset_taken : (stepByOffset off s).get TT_EVENTS.step_taken = 1 :=
  of_when (P := fun t : State => t.get TT_EVENTS.step_taken = 1) stepTt_taken fun h => (slewMax_writes _ (by decide)).trans h
theorem stepByOffset_t : ((stepByOffset off s).tt.t : Int) = ((s.tt.t : Int) - off.tdiv 256 * 2 ^ 84) % 2 ^ 148 := by
  have ht : ((steppedTt (-off.tdiv 256) s.tt).t : Int) = ((s.tt.t : Int) - off.tdiv 256 * 2 ^ 84) % 2 ^ 148 := by
    rw [steppedTt_t, Int.neg_mul, Int.sub_eq_add_neg]
  exact of_when (P := fun t : State => (t.tt.t : Int) = _) ((congrArg (fun c : TtH => (c.t : Int)) stepTt_tt).trans ht) id
theorem stepByOffset_slew : (stepByOffset off s).tt.slew = (off - off.tdiv 256 * 256) * 2 ^ 76 := by
  unfold stepByOffset
  extract_lets ns s1
  have h1 : s1.tt.slew = 0 := congrArg TtH.slew stepTt_tt
  by_cases h : off - ns * 256 = 0
  · rw [State.when, if_neg (by simp [h]), h1, h, Int.zero_mul]
  · rw [State.when, if_pos (by simp [h]), slewMax_tt]

theorem stepPermitted_iff : stepPermitted s = true ↔ s.get BOOT_STATUS.frost = 1 ∨ s.get TT_STATUS.ever_synced = 0 := by
  rw [stepPermitted, Bool.or_eq_true, State.frost, is_iff_one rfl, Bool.not_eq_true', ← Bool.not_eq_true, is_iff_one rfl]
  have hbit := get_bit (s := s) (f := TT_STATUS.ever_synced) rfl
  omega

/-! ### The end of each Sync: the period and the state shown (R80, R82) -/

theorem setP_writes {n : Nat} : Writes [] [TT_PERIOD, TT_PERIOD_FINE] s (s.setP n) :=
  (Writes.refl.setN (.inl (by decide))).setN (.inl (by decide))

theorem refreshDegraded_writes :
    Writes [TT_EVENTS.degraded_change, TT_STATUS.clock_degraded, TT_STATUS.degraded] [] s s.refreshDegraded := by
  unfold State.refreshDegraded
  extract_lets c st d s1
  have h1 : Writes [TT_EVENTS.degraded_change, TT_STATUS.clock_degraded, TT_STATUS.degraded] [] s s1 :=
    of_when (f := (·.raise TT_EVENTS.degraded_change)) .refl fun h => h.raise (by decide)
  clear_value s1 c d
  exact (h1.setB (by decide)).setB (by decide)
theorem refreshDegraded_tt : s.refreshDegraded.tt = s.tt := by
  rw [State.refreshDegraded, State.setB_tt, State.setB_tt]
  exact when_keeps State.tt (State.raise_tt s _)

theorem servoPeriod_writes : Writes [] [TT_PERIOD, TT_PERIOD_FINE] s (servoPeriod s) := of_ite .refl (of_ite setP_writes setP_writes)
theorem servoPeriod_tt : (servoPeriod s).tt = s.tt :=
  of_ite (P := fun t : State => t.tt = s.tt) rfl (of_ite (P := fun t : State => t.tt = s.tt) rfl rfl)

/-- What follows the servo's own part of a Sync in HW mode. -/
def servoShown (s : State) : State := showPermit ((servoPeriod s).raise TT_STATUS.ever_synced).refreshDegraded

/-- The fields of TT_STATUS and TT_EVENTS that `servoShown` writes. -/
def servoFlds : List Fld :=
  [TT_STATUS.ever_synced, TT_EVENTS.degraded_change, TT_STATUS.clock_degraded, TT_STATUS.degraded, TT_STATUS.step_permitted]

theorem servoShown_tt : (servoShown s).tt = s.tt := by
  rw [servoShown, showPermit, State.setB_tt, refreshDegraded_tt, State.raise_tt, servoPeriod_tt]
theorem servoShown_writes : Writes servoFlds [TT_PERIOD, TT_PERIOD_FINE] s (servoShown s) := by
  have hraised : Writes servoFlds [TT_PERIOD, TT_PERIOD_FINE] s ((servoPeriod s).raise TT_STATUS.ever_synced) :=
    (servoPeriod_writes.mono (List.nil_subset _) (List.Subset.refl _)).raise (by decide)
  have hrefreshed : Writes servoFlds [TT_PERIOD, TT_PERIOD_FINE] s ((servoPeriod s).raise TT_STATUS.ever_synced).refreshDegraded :=
    hraised.trans (refreshDegraded_writes.mono (by decide) (List.nil_subset _))
  unfold servoShown showPermit
  exact hrefreshed.setB (by decide)
theorem servoShown_synced : (servoShown s).get TT_STATUS.ever_synced = 1 := by
  rw [servoShown, showPermit, State.setB, get_set_of_apart (by decide), refreshDegraded_writes _ (by decide)]
  exact get_raise_same (by decide) (by decide)

/-! ### The servo's states (Table TT-2) -/

theorem servoSync_free (h : s.get TT_STATUS.state = 0) (hp : stepPermitted s = true) :
    servoSync off s = (stepByOffset off (s.withTt { s.tt with good := 0, bad := 0 })).set TT_STATUS.state 1 := by
  unfold servoSync
  rw [h]
  exact congrArg (State.set · TT_STATUS.state 1) (if_pos hp)
theorem servoSync_acquire (h : s.get TT_STATUS.state = 1) : servoSync off s = servoAcquire off s := by
  simp only [servoSync, h]
theorem servoSync_near (h : s.get TT_STATUS.state = 2) (hn : off.natAbs ≤ s.get TT_CTRL.lock_ns * 256) :
    servoSync off s = slewMax (off.tdiv 2) (s.withTt { s.tt with bad := 0 }) := by
  unfold servoSync
  rw [h]
  exact if_pos hn
theorem servoSync_far (h : s.get TT_STATUS.state = 2) (hn : ¬ off.natAbs ≤ s.get TT_CTRL.lock_ns * 256) (hb : s.tt.bad = 0) :
    servoSync off s = slewMax (off.tdiv 2) (s.withTt { s.tt with bad := 1 }) := by
  unfold servoSync
  rw [h]
  exact (if_neg hn).trans (if_pos (beq_iff_eq.2 hb))
theorem servoSync_unlocks (h : s.get TT_STATUS.state = 2) (hn : ¬ off.natAbs ≤ s.get TT_CTRL.lock_ns * 256) (hb : s.tt.bad ≠ 0) :
    servoSync off s = servoAcquire off ((s.withTt { s.tt with good := 0, bad := 0 }).raise TT_EVENTS.unlocked) := by
  unfold servoSync
  rw [h]
  exact (if_neg hn).trans (if_neg fun hz => hb (beq_iff_eq.1 hz))

end Sys2Proof.Machine
end

section
/-!
O33. A Sync: what is shown of it in either mode, what the servo makes of it in HW mode, and the timeout.
-/
namespace Sys2Proof.Machine
open Sys2Proof
variable {s t : State} {p e : Fin 8} {origin corr cum off ratio : Int} {interval seqId : Nat}

/-! ### What a Sync shows (R79, R80) -/

/-- The registers in which a Sync shows its offset, its rate and its number. -/
def syncRegs (port : Fin 8) (off ratio : Int) (seqId : Nat) (s : State) : State :=
  let s := s.setN TT_OFFSET (toBits 32 (clampS 32 off))
  let s := s.setN TT_RATE (toBits 32 (clampS 32 (ratio / 512)))
  ((s.set TT_SYNC.sequence_id seqId).set TT_SYNC.port port).bump TT_SYNC.count

theorem toBits_lt (n : Int) : toBits 32 n < 2 ^ 32 := by
  have := Int.emod_lt_of_pos n (show (0 : Int) < 2 ^ 32 by decide)
  have := Int.emod_nonneg n (show (2 ^ 32 : Int) ≠ 0 by decide)
  unfold toBits
  omega

theorem syncRegs_writes : Writes [] [TT_OFFSET, TT_RATE, TT_SYNC] s (syncRegs p off ratio seqId s) := by
  unfold syncRegs
  extract_lets s1 s2
  have h1 : Writes [] [TT_OFFSET, TT_RATE, TT_SYNC] s s1 := Writes.refl.setN (.inl (by decide))
  have h2 : Writes [] [TT_OFFSET, TT_RATE, TT_SYNC] s s2 := h1.setN (.inl (by decide))
  exact ((h2.setIn (.inl (by decide))).setIn (.inl (by decide))).setIn (.inl (by decide))

theorem syncRegs_shown : (syncRegs p off ratio seqId s).regN TT_OFFSET = toBits 32 (clampS 32 off) ∧
    (syncRegs p off ratio seqId s).regN TT_RATE = toBits 32 (clampS 32 (ratio / 512)) ∧
    (syncRegs p off ratio seqId s).get TT_SYNC.sequence_id = seqId % 65536 ∧ (syncRegs p off ratio seqId s).get TT_SYNC.port = p := by
  have hsync (v : State) : Writes [] [TT_SYNC] v (((v.set TT_SYNC.sequence_id seqId).set TT_SYNC.port p).bump TT_SYNC.count) :=
    ((Writes.refl.setIn (.inl (by decide))).setIn (.inl (by decide))).setIn (.inl (by decide))
  unfold syncRegs
  extract_lets s1 s2
  refine ⟨((hsync s2).regN (by decide)).trans ?_, ((hsync s2).regN (by decide)).trans ?_, ?_, ?_⟩
  · rw [regN_setN, if_neg (by decide), regN_setN, if_pos rfl, Nat.mod_eq_of_lt (toBits_lt _)]
  · rw [regN_setN, if_pos rfl, Nat.mod_eq_of_lt (toBits_lt _)]
  · exact (get_set_of_apart (by decide)).trans ((get_set_of_apart (by decide)).trans (State.get_set_same _ _ _ (by decide)))
  · exact (get_set_of_apart (by decide)).trans (get_set_of_lt (by decide) (Nat.lt_trans p.isLt (by decide)))
theorem syncRegs_tt : (syncRegs p off ratio seqId s).tt = s.tt := by
  simp only [syncRegs, State.bump_tt, State.set_tt, State.setN_tt]
theorem syncRegs_flt : (syncRegs p off ratio seqId s).flt = s.flt := by
  simp only [syncRegs, State.bump_flt, State.set_flt, State.setN_flt]

/-- The time base `c` with a Sync recorded at `now`. -/
def heardTt (ratio : Int) (interval now : Nat) (relay : SyncRec) (c : TtH) : TtH :=
  { c with ratios := (ratio :: c.ratios).take 8, interval := interval, lastSync := now, relay := some relay }

/-- The part of a Sync before the servo: what is shown of it, and its record in the time base. -/
def syncShown (port : Fin 8) (off ratio : Int) (interval seqId : Nat) (relay : SyncRec) (s : State) : State :=
  let t := syncRegs port off ratio seqId s
  (t.withTt (heardTt ratio interval t.now relay t.tt)).progress 1

/-- TT_OFFSET, TT_RATE, TT_SYNC and the record of the Sync in the time base, as O33 names them. -/
def SyncSeen (p : Fin 8) (off ratio : Int) (interval seqId now : Nat) (t : State) : Prop :=
  t.regN TT_OFFSET = toBits 32 (clampS 32 off) ∧ t.get TT_SYNC.sequence_id = seqId % 65536 ∧ t.get TT_SYNC.port = p ∧
    t.tt.lastSync = now ∧ t.tt.interval = interval ∧ t.regN TT_RATE = toBits 32 (clampS 32 (ratio / 512))

/-- What leaves the registers shown and the record as they are keeps a Sync seen. -/
theorem SyncSeen.kept {fs : List Fld} {rs : List Nat} {now : Nat} (h : SyncSeen p off ratio interval seqId now s) (hw : Writes fs rs s t)
    (hout : ∀ g ∈ [⟨TT_OFFSET, 0, 32⟩, ⟨TT_RATE, 0, 32⟩, TT_SYNC.sequence_id, TT_SYNC.port], outside fs rs g = true)
    (hl : t.tt.lastSync = s.tt.lastSync) (hi : t.tt.interval = s.tt.interval) : SyncSeen p off ratio interval seqId now t := by
  simp only [List.forall_mem_cons] at hout
  obtain ⟨ho, hr, hs, hp, -⟩ := hout
  obtain ⟨hoff, hseq, hport, hlast, hint, hrate⟩ := h
  exact ⟨(hw.regN ho).trans hoff, (hw _ hs).trans hseq, (hw _ hp).trans hport, hl.trans hlast, hi.trans hint, (hw.regN hr).trans hrate⟩

section
variable {relay : SyncRec}

theorem syncShown_tt : (syncShown p off ratio interval seqId relay s).tt = heardTt ratio interval s.now relay s.tt := by
  show heardTt ratio interval (syncRegs p off ratio seqId s).now relay (syncRegs p off ratio seqId s).tt = _
  rw [State.now, syncRegs_tt, State.now]

theorem syncShown_regs : Writes [] [] (syncRegs p off ratio seqId s) (syncShown p off ratio interval seqId relay s) := fun g _ => by
  rw [syncShown, progress_get, State.withTt_get]
theorem syncShown_writes : Writes [] [TT_OFFSET, TT_RATE, TT_SYNC] s (syncShown p off ratio interval seqId relay s) :=
  syncRegs_writes.trans (syncShown_regs.mono (List.nil_subset _) (List.nil_subset _))

theorem syncShown_seen : SyncSeen p off ratio interval seqId s.now (syncShown p off ratio interval seqId relay s) := by
  obtain ⟨hoff, hrate, hseq, hport⟩ := syncRegs_shown (s := s) (p := p) (off := off) (ratio := ratio) (seqId := seqId)
  refine ⟨(syncShown_regs.regN (by decide)).trans hoff, (syncShown_regs _ (by decide)).trans hseq,
    (syncShown_regs _ (by decide)).trans hport, ?_, ?_, (syncShown_regs.regN (by decide)).trans hrate⟩
  · rw [syncShown_tt, heardTt]
  · rw [syncShown_tt, heardTt]

theorem progress_next (s : State) (f : Nat) : (s.progress f).flt.next = s.flt.next := rfl

theorem syncShown_ha : (syncShown p off ratio interval seqId relay s).ha 1 = s.ha 1 := by
  have hnext : (syncShown p off ratio interval seqId relay s).flt.next = s.flt.next := by
    rw [syncShown, progress_next, State.withTt_flt, syncRegs_flt]
  rw [State.ha, State.ha, hnext, State.is, State.is, syncShown_writes _ (by decide)]

end

/-! ### The Syncs taken and not taken -/

/-- The neighbour's rate and the servo's offset of a Sync, as O33 writes them. -/
theorem rateRatio_slave (h : s.get TT_STATUS.slave_port = p) :
    rateRatio p cum s = if s.get CLK_STATUS.selected < 8 ∧ s.get CLK_STATUS.selected = p then 0 else cum + (s.portOf p).nrr := by
  rw [rateRatio, phaseOnly, h]
  simp only [Bool.and_eq_true, decide_eq_true_eq, beq_iff_eq]
  rfl

theorem syncReceive_none (h : s.get TT_STATUS.slave_port ≠ p ∨ s.tt.gm = true ∨ s.reg (TT_PORT_DELAY p) = 0xFFFFFFFF) :
    syncReceive p e origin corr cum interval seqId s = s := by
  refine if_pos ?_
  simp only [Bool.or_eq_true, bne_iff_ne, beq_iff_eq]
  rcases h with h | h | h
  · exact .inl (.inl (.inl (.inl h)))
  · exact .inl (.inl (.inl (.inr h)))
  · exact .inl (.inl (.inr (congrArg BitVec.toNat h)))

/-- The state in which the servo takes the Sync of the command. -/
def syncHeard (p e : Fin 8) (origin corr cum : Int) (interval seqId : Nat) (s : State) : State :=
  let rx := stampAt s e
  let ratio := rateRatio p cum s
  syncShown p (syncOffset rx origin corr p s) ratio interval seqId ⟨p, rx, origin * 256, corr, ratio⟩ s

theorem syncReceive_taken (hlive : live s = true) (hslave : s.get TT_STATUS.slave_port = p) (hgm : s.tt.gm = false)
    (hdelay : s.reg (TT_PORT_DELAY p) ≠ 0xFFFFFFFF) (hservo : s.ha 1 = true ∨ s.get TT_STATUS.state ≠ 4) :
    syncReceive p e origin corr cum interval seqId s =
      let t := syncHeard p e origin corr cum interval seqId s
      if s.ha 1 then t.withTt { t.tt with good := 0, bad := 0 }
      else servoShown (servoSync (syncOffset (stampAt s e) origin corr p s) t) := by
  have hregN : s.regN (TT_PORT_DELAY p) ≠ 0xFFFFFFFF := fun h => hdelay (BitVec.eq_of_toNat_eq h)
  have hguard : ¬ (s.get TT_STATUS.slave_port != p.val || s.tt.gm || s.regN (TT_PORT_DELAY p) == 0xFFFFFFFF ||
      (!s.ha 1 && s.get TT_STATUS.state == 4) || !live s) = true := by
    simp only [Bool.or_eq_true, Bool.and_eq_true, bne_iff_ne, beq_iff_eq, Bool.not_eq_true', hlive, hgm, hslave]
    rcases hservo with h | h
    · simp [h, hregN]
    · simp [h, hregN]
  unfold syncReceive
  rw [if_neg hguard, ← syncShown_ha]
  rfl

theorem syncHeard_writes : Writes [] [TT_OFFSET, TT_RATE, TT_SYNC] s (syncHeard p e origin corr cum interval seqId s) := syncShown_writes
theorem syncHeard_tt : ∃ relay, (syncHeard p e origin corr cum interval seqId s).tt = heardTt (rateRatio p cum s) interval s.now relay s.tt :=
  ⟨_, syncShown_tt⟩
theorem syncHeard_seen : SyncSeen p (syncOffset (stampAt s e) origin corr p s) (rateRatio p cum s) interval seqId s.now
    (syncHeard p e origin corr cum interval seqId s) := syncShown_seen

/-! ### The servo in ACQUIRE (Table TT-2) -/

/-- The fields of a slew and of the servo's state. -/
def acquireFlds : List Fld := [TT_STATUS.state, TT_STATUS.slewing, TT_EVENTS.step_far, TT_EVENTS.step_taken, TT_EVENTS.locked]

/-- ACQUIRE entered with the time base `c`. -/
def acquiring (c : TtH) (s : State) : State := (s.set TT_STATUS.state 1).withTt c

theorem acquiring_writes {c : TtH} : Writes [TT_STATUS.state] [] s (acquiring c s) :=
  Writes.refl.set (f := TT_STATUS.state) (n := 1) (List.mem_singleton_self _)
theorem acquiring_state {c : TtH} : (acquiring c s).get TT_STATUS.state = 1 := get_set_of_lt (s := s) (by decide) (by decide)
theorem stepPermitted_congr (h : Writes [TT_STATUS.state] [] s t) : stepPermitted t = stepPermitted s := by
  rw [stepPermitted, stepPermitted, State.frost, State.frost, State.is, State.is, State.is, State.is, h _ (by decide), h _ (by decide)]

theorem servoAcquire_far (hfar : s.get TT_CTRL.step_threshold_us * 256000 < off.natAbs) :
    servoAcquire off s = if stepPermitted s then stepByOffset off (acquiring { s.tt with good := 0 } s)
      else (slewMax off (acquiring { s.tt with good := 0 } s)).raise TT_EVENTS.step_far := by
  rw [← stepPermitted_congr (acquiring_writes (c := { s.tt with good := 0 }))]
  exact if_pos hfar
theorem servoAcquire_close (hfar : ¬ s.get TT_CTRL.step_threshold_us * 256000 < off.natAbs) (n : Nat)
    (hn : n = if off.natAbs ≤ s.get TT_CTRL.lock_ns * 256 then s.tt.good + 1 else 0) :
    servoAcquire off s = (slewMax (off.tdiv 2) (acquiring { s.tt with good := n, bad := 0 } s)).when (4 ≤ n)
      (fun s => (s.set TT_STATUS.state 2).raise TT_EVENTS.locked) := by
  have hlock : (s.set TT_STATUS.state 1).get TT_CTRL.lock_ns = s.get TT_CTRL.lock_ns := get_set_of_apart (by decide)
  unfold servoAcquire
  extract_lets thr s1 c s2 good s3
  rw [if_neg hfar]
  have hgood : good = n := by
    rw [hn, ← hlock]
    rfl
  rw [← hgood]
  rfl

/-- An offset outside lock_ns leaves ACQUIRE entered, and the event of the lock lost as it was. -/
theorem servoAcquire_lost (h : ¬ off.natAbs ≤ s.get TT_CTRL.lock_ns * 256) :
    (servoAcquire off s).get TT_STATUS.state = 1 ∧ (servoAcquire off s).get TT_EVENTS.unlocked = s.get TT_EVENTS.unlocked := by
  have hkeeps {c : TtH} {t : State} (hw : Writes [TT_STATUS.slewing, TT_EVENTS.step_taken, TT_EVENTS.step_far] [TT_SLEW_LEFT] (acquiring c s) t) :
      t.get TT_STATUS.state = 1 ∧ t.get TT_EVENTS.unlocked = s.get TT_EVENTS.unlocked :=
    ⟨(hw _ (by decide)).trans acquiring_state, (hw _ (by decide)).trans (acquiring_writes _ (by decide))⟩
  by_cases hfar : s.get TT_CTRL.step_threshold_us * 256000 < off.natAbs
  · rw [servoAcquire_far hfar]
    split
    · exact hkeeps (stepByOffset_writes.mono (by decide) (by decide))
    · exact hkeeps ((slewMax_writes.mono (by decide) (by decide)).raise (by decide))
  · rw [servoAcquire_close hfar 0 (if_neg h).symm, State.when, if_neg (by decide)]
    exact hkeeps (slewMax_writes.mono (by decide) (by decide))

/-! ### A Sync in HW mode, by the state it finds (Table TT-2) -/

/-- What the servo writes of a Sync that takes no step, the Sync stays seen with. -/
theorem servoShown_seen {now : Nat} (hs : SyncSeen p off ratio interval seqId now s) (hw : Writes acquireFlds [TT_SLEW_LEFT] s t)
    (hl : t.tt.lastSync = s.tt.lastSync) (hi : t.tt.interval = s.tt.interval) : SyncSeen p off ratio interval seqId now (servoShown t) :=
  (hs.kept hw (by decide) hl hi).kept servoShown_writes (by decide) (congrArg TtH.lastSync servoShown_tt) (congrArg TtH.interval servoShown_tt)

theorem syncFree (h : s.get TT_STATUS.state = 0) (hp : stepPermitted s = true) : let t := servoShown (servoSync off s)
    t.get TT_STATUS.state = 1 ∧ t.get TT_STATUS.ever_synced = 1 ∧ t.get TT_EVENTS.step_taken = 1 ∧
      (t.tt.t : Int) = ((s.tt.t : Int) - off.tdiv 256 * 2 ^ 84) % 2 ^ 148 ∧ t.tt.slew = (off - off.tdiv 256 * 256) * 2 ^ 76 := by
  rw [servoSync_free h hp]
  refine ⟨(servoShown_writes _ (by decide)).trans (get_set_of_lt (by decide) (by decide)), servoShown_synced,
    (servoShown_writes _ (by decide)).trans ((get_set_of_apart (by decide)).trans stepByOffset_taken), ?_, ?_⟩
  · rw [servoShown_tt, State.set_tt, stepByOffset_t]
    rfl
  · rw [servoShown_tt, State.set_tt, stepByOffset_slew]

theorem syncAcquire_near {now : Nat} (h : s.get TT_STATUS.state = 1) (hfar : ¬ s.get TT_CTRL.step_threshold_us * 256000 < off.natAbs)
    (hn : off.natAbs ≤ s.get TT_CTRL.lock_ns * 256) (hs : SyncSeen p off ratio interval seqId now s) : let t := servoShown (servoSync off s)
    SyncSeen p off ratio interval seqId now t ∧ t.tt.good = s.tt.good + 1 ∧ t.tt.slew = off.tdiv 2 * 2 ^ 76 ∧ t.tt.t = s.tt.t ∧
      t.get TT_STATUS.state = (if 3 ≤ s.tt.good then 2 else 1) ∧ (3 ≤ s.tt.good → t.get TT_EVENTS.locked = 1) := by
  rw [servoSync_acquire h, servoAcquire_close hfar _ (if_pos hn).symm]
  set x := slewMax (off.tdiv 2) (acquiring { s.tt with good := s.tt.good + 1, bad := 0 } s)
  have hw : Writes acquireFlds [TT_SLEW_LEFT] s x :=
    (acquiring_writes.mono (by decide) (List.nil_subset _)).trans (slewMax_writes.mono (by decide) (List.Subset.refl _))
  have htt : x.tt = { s.tt with good := s.tt.good + 1, bad := 0, slew := off.tdiv 2 * 2 ^ 76, slewHost := false } := slewMax_tt
  have hstate : x.get TT_STATUS.state = 1 := (slewMax_writes _ (by decide)).trans acquiring_state
  by_cases hlock : 3 ≤ s.tt.good
  · rw [State.when, if_pos (by simpa using hlock), if_pos hlock]
    refine ⟨servoShown_seen hs ((hw.set (by decide)).raise (by decide)) ?_ ?_, ?_, ?_, ?_, ?_, fun _ => ?_⟩
    · rw [State.raise_tt, State.set_tt, htt]
    · rw [State.raise_tt, State.set_tt, htt]
    · rw [servoShown_tt, State.raise_tt, State.set_tt, htt]
    · rw [servoShown_tt, State.raise_tt, State.set_tt, htt]
    · rw [servoShown_tt, State.raise_tt, State.set_tt, htt]
    · exact (servoShown_writes _ (by decide)).trans ((get_set_of_apart (by decide)).trans (get_set_of_lt (by decide) (by decide)))
    · exact (servoShown_writes _ (by decide)).trans (get_raise_same (by decide) (by decide))
  · rw [State.when, if_neg (by simpa using hlock), if_neg hlock]
    refine ⟨servoShown_seen hs hw ?_ ?_, ?_, ?_, ?_, (servoShown_writes _ (by decide)).trans hstate, fun hl => absurd hl hlock⟩
    · rw [htt]
    · rw [htt]
    · rw [servoShown_tt, htt]
    · rw [servoShown_tt, htt]
    · rw [servoShown_tt, htt]

theorem syncAcquire_far {now : Nat} (h : s.get TT_STATUS.state = 1) (hfar : s.get TT_CTRL.step_threshold_us * 256000 < off.natAbs)
    (hp : ¬ stepPermitted s = true) (hs : SyncSeen p off ratio interval seqId now s) : let t := servoShown (servoSync off s)
    SyncSeen p off ratio interval seqId now t ∧ t.tt.good = 0 ∧ t.tt.slew = off * 2 ^ 76 ∧ t.get TT_STATUS.state = 1 ∧
      t.get TT_EVENTS.step_far = 1 ∧ t.tt.t = s.tt.t := by
  rw [servoSync_acquire h, servoAcquire_far hfar, if_neg hp]
  set x := slewMax off (acquiring { s.tt with good := 0 } s) with hx
  have hw : Writes acquireFlds [TT_SLEW_LEFT] s x :=
    (acquiring_writes.mono (by decide) (List.nil_subset _)).trans (slewMax_writes.mono (by decide) (List.Subset.refl _))
  have htt : (x.raise TT_EVENTS.step_far).tt = { s.tt with good := 0, slew := off * 2 ^ 76, slewHost := false } := by
    rw [State.raise_tt, hx, slewMax_tt]
    rfl
  have hstate : x.get TT_STATUS.state = 1 := (slewMax_writes _ (by decide)).trans acquiring_state
  refine ⟨servoShown_seen hs (hw.raise (by decide)) ?_ ?_, ?_, ?_, (servoShown_writes _ (by decide)).trans ((get_set_of_apart (by decide)).trans hstate),
    (servoShown_writes _ (by decide)).trans (get_raise_same (by decide) (by decide)), ?_⟩
  · rw [htt]
  · rw [htt]
  · rw [servoShown_tt, htt]
  · rw [servoShown_tt, htt]
  · rw [servoShown_tt, htt]

/-- In LOCKED half the offset is slewed away with the count `n` of Syncs outside lock_ns. -/
theorem syncLocked_slews {now n : Nat} (h : s.get TT_STATUS.state = 2) (hs : SyncSeen p off ratio interval seqId now s)
    (heq : servoSync off s = slewMax (off.tdiv 2) (s.withTt { s.tt with bad := n })) : let t := servoShown (servoSync off s)
    SyncSeen p off ratio interval seqId now t ∧ t.get TT_STATUS.state = 2 ∧ t.tt.slew = off.tdiv 2 * 2 ^ 76 ∧ t.tt.bad = n ∧ t.tt.t = s.tt.t := by
  rw [heq]
  set x := slewMax (off.tdiv 2) (s.withTt { s.tt with bad := n })
  have hw : Writes [TT_STATUS.slewing] [TT_SLEW_LEFT] s x := slewMax_writes
  have htt : x.tt = { s.tt with bad := n, slew := off.tdiv 2 * 2 ^ 76, slewHost := false } := slewMax_tt
  refine ⟨servoShown_seen hs (hw.mono (by decide) (List.Subset.refl _)) ?_ ?_,
    (servoShown_writes _ (by decide)).trans ((hw _ (by decide)).trans h), ?_, ?_, ?_⟩
  · rw [htt]
  · rw [htt]
  · rw [servoShown_tt, htt]
  · rw [servoShown_tt, htt]
  · rw [servoShown_tt, htt]

theorem syncLocked_unlocks (h : s.get TT_STATUS.state = 2) (hn : ¬ off.natAbs ≤ s.get TT_CTRL.lock_ns * 256) (hb : s.tt.bad ≠ 0) :
    let t := servoShown (servoSync off s)
    t.get TT_STATUS.state = 1 ∧ t.get TT_EVENTS.unlocked = 1 := by
  rw [servoSync_unlocks h hn hb]
  obtain ⟨hstate, hevent⟩ := servoAcquire_lost (s := (s.withTt { s.tt with good := 0, bad := 0 }).raise TT_EVENTS.unlocked) (off := off)
    (by rwa [get_raise_other (by decide), State.withTt_get])
  exact ⟨(servoShown_writes _ (by decide)).trans hstate,
    (servoShown_writes _ (by decide)).trans (hevent.trans (get_raise_same (by decide) (by decide)))⟩

/-! ### Three intervals without a Sync (R83) -/

theorem syncTimeout_waits (h : s.ha 1 = true ∨ s.get TT_STATUS.state = 0 ∨ 3 ≤ s.get TT_STATUS.state ∨
    s.now < s.tt.lastSync + 3 * s.tt.interval) : syncTimeout s = s := by
  refine if_neg ?_
  simp only [Bool.and_eq_true, Bool.or_eq_true, Bool.not_eq_true', beq_iff_eq, State.due, decide_eq_true_eq]
  rintro ⟨⟨⟨-, hha⟩, hst⟩, hdue⟩
  rw [hha] at h
  simp only [Bool.false_eq_true, false_or] at h
  omega

/-- A fault record keeps what neither the registers nor the fault log's own state show. -/
theorem fault_keeps {β : Type} {read : State → β} {code source : Nat} {detail : Word} (hreg : ∀ (v : State) a w, read (v.setReg a w) = read v)
    (hflt : ∀ (v : State) f, read { v with flt := f } = read v) : read (s.fault code source detail) = read s := by
  have hset (v : State) (f : Fld) (n : Nat) : read (v.set f n) = read v := hreg v _ _
  unfold State.fault
  extract_lets i full s1 s2 s3 x s5 s6 s7 s8 s9
  have h3 : read s3 = read s := (hreg _ _ _).trans ((hreg _ _ _).trans ((hreg _ _ _).trans (hreg _ _ _)))
  have h6 : read s6 = read s := (hset _ _ _).trans ((hflt _ _).trans h3)
  have h7 : read s7 = read s := of_ite (P := fun v => read v = read s) ((hset _ _ _).trans ((hset _ _ _).trans h6)) ((hset _ _ _).trans h6)
  have h9 : read s9 = read s := (when_keeps read (hset _ _ _)).trans ((hset _ _ _).trans h7)
  exact (when_keeps read (hset _ _ _)).trans h9
theorem fault_tt {code source : Nat} {detail : Word} : (s.fault code source detail).tt = s.tt :=
  fault_keeps (read := State.tt) State.setReg_tt fun _ _ => rfl

theorem refreshDegraded_unlocked (h : s.get TT_STATUS.state = 3) : s.refreshDegraded.get TT_STATUS.degraded = 1 := by
  unfold State.refreshDegraded
  extract_lets c st d s1
  have hd : d = true := by simp [d, st, h]
  rw [get_setB_same (by decide) (by decide), hd, if_pos rfl]

theorem syncTimeout_acts (hlive : live s = true) (hha : s.ha 1 = false) (hst : s.get TT_STATUS.state = 1 ∨ s.get TT_STATUS.state = 2)
    (hdue : s.tt.lastSync + 3 * s.tt.interval ≤ s.now) :
    (syncTimeout s).get TT_STATUS.state = 3 ∧ (syncTimeout s).get TT_EVENTS.holdover = 1 ∧
      (s.get TT_STATUS.state = 2 → (syncTimeout s).get TT_EVENTS.unlocked = 1) ∧ (syncTimeout s).get TT_STATUS.degraded = 1 ∧
      (syncTimeout s).tt = s.tt := by
  have hguard : (live s && !s.ha 1 && (s.get TT_STATUS.state == 1 || s.get TT_STATUS.state == 2) &&
      s.due (s.tt.lastSync + 3 * s.tt.interval)) = true := by
    simp only [hlive, hha, Bool.not_false, Bool.and_self, Bool.true_and, Bool.and_eq_true, Bool.or_eq_true, beq_iff_eq, State.due,
      decide_eq_true_eq]
    exact ⟨hst, hdue⟩
  unfold syncTimeout
  rw [if_pos hguard]
  extract_lets t
  have hstate : t.get TT_STATUS.state = 3 :=
    of_when (P := fun v : State => v.get TT_STATUS.state = 3)
      ((get_set_of_apart (by decide)).trans (get_set_of_lt (by decide) (by decide))) fun h => (get_set_of_apart (by decide)).trans h
  have hholdover : t.get TT_EVENTS.holdover = 1 :=
    of_when (P := fun v : State => v.get TT_EVENTS.holdover = 1) (get_raise_same (by decide) (by decide))
      fun h => (get_set_of_apart (by decide)).trans h
  have hunlocked (h : s.get TT_STATUS.state = 2) : t.get TT_EVENTS.unlocked = 1 := by
    rw [show t = _ from if_pos (by simpa using h)]
    exact get_raise_same (by decide) (by decide)
  refine ⟨?_, ?_, fun h => ?_, ?_, ?_⟩
  · rw [refreshDegraded_writes _ (by decide), fault_get (by decide), hstate]
  · rw [refreshDegraded_writes _ (by decide), fault_get (by decide), hholdover]
  · rw [refreshDegraded_writes _ (by decide), fault_get (by decide), hunlocked h]
  · exact refreshDegraded_unlocked ((fault_get (by decide)).trans hstate)
  · rw [refreshDegraded_tt, fault_tt]
    exact (when_keeps State.tt (State.raise_tt _ _)).trans ((State.raise_tt _ _).trans (State.set_tt _ _ _))

/-! ### The obligation -/

theorem exec_syncReceive : exec (.syncReceive p e origin corr cum interval seqId) s =
    .next (syncReceive p e origin corr cum interval seqId s) := rfl
theorem exec_syncTimeout : exec .syncTimeout s = .next (syncTimeout s) := rfl

/-- The state `x` of a Sync of `s` that the servo is to take: shown and recorded, and otherwise as `s` was. -/
structure SyncTaken (p : Fin 8) (off ratio : Int) (interval seqId : Nat) (s x : State) : Prop where
  seen : SyncSeen p off ratio interval seqId s.now x
  writes : Writes [] [TT_OFFSET, TT_RATE, TT_SYNC] s x
  t : x.tt.t = s.tt.t
  slew : x.tt.slew = s.tt.slew
  good : x.tt.good = s.tt.good
  bad : x.tt.bad = s.tt.bad

theorem syncHeard_taken : SyncTaken p (syncOffset (stampAt s e) origin corr p s) (rateRatio p cum s) interval seqId s
    (syncHeard p e origin corr cum interval seqId s) := by
  obtain ⟨relay, htt⟩ := syncHeard_tt (s := s) (p := p) (e := e) (origin := origin) (corr := corr) (cum := cum) (interval := interval)
    (seqId := seqId)
  refine ⟨syncHeard_seen, syncHeard_writes, ?_, ?_, ?_, ?_⟩
  · rw [htt, heardTt]
  · rw [htt, heardTt]
  · rw [htt, heardTt]
  · rw [htt, heardTt]

/-- A Sync that the servo is to take completes in either mode as the servo's part of some state that records it. -/
theorem syncReceive_completes {P : State → Prop} (hlive : live s = true) (hslave : s.get TT_STATUS.slave_port = p) (hgm : s.tt.gm = false)
    (hdelay : s.reg (TT_PORT_DELAY p) ≠ 0xFFFFFFFF) (hservo : s.ha 1 = true ∨ s.get TT_STATUS.state ≠ 4)
    (h : ∀ x, SyncTaken p (syncOffset (stampAt s e) origin corr p s) (rateRatio p cum s) interval seqId s x →
      P (if s.ha 1 then x.withTt { x.tt with good := 0, bad := 0 } else servoShown (servoSync (syncOffset (stampAt s e) origin corr p s) x))) :
    Completes (.syncReceive p e origin corr cum interval seqId) s P :=
  ⟨_, exec_syncReceive, by
    rw [syncReceive_taken hlive hslave hgm hdelay hservo]
    exact h _ syncHeard_taken⟩

section
variable {x : State} (hx : SyncTaken p off ratio interval seqId s x)
include hx

theorem SyncTaken.ha : let t := x.withTt { x.tt with good := 0, bad := 0 }
    SyncSeen p off ratio interval seqId s.now t ∧ t.get TT_STATUS.state = s.get TT_STATUS.state ∧ t.tt.slew = s.tt.slew ∧ t.tt.t = s.tt.t :=
  ⟨hx.seen, hx.writes TT_STATUS.state (by decide), hx.slew, hx.t⟩

theorem SyncTaken.permitted : stepPermitted x = true ↔ s.get BOOT_STATUS.frost = 1 ∨ s.get TT_STATUS.ever_synced = 0 := by
  rw [stepPermitted_iff, hx.writes _ (by decide), hx.writes _ (by decide)]

theorem SyncTaken.free (h : s.get TT_STATUS.state = 0) (hp : s.get BOOT_STATUS.frost = 1 ∨ s.get TT_STATUS.ever_synced = 0) :
    let t := servoShown (servoSync off x)
    t.get TT_STATUS.state = 1 ∧ t.get TT_STATUS.ever_synced = 1 ∧ t.get TT_EVENTS.step_taken = 1 ∧
      (t.tt.t : Int) = ((s.tt.t : Int) - off.tdiv 256 * 2 ^ 84) % 2 ^ 148 ∧ t.tt.slew = (off - off.tdiv 256 * 256) * 2 ^ 76 := by
  rw [← hx.t]
  exact syncFree ((hx.writes _ (by decide)).trans h) (hx.permitted.2 hp)

theorem SyncTaken.near (h : s.get TT_STATUS.state = 1) (hfar : ¬ s.get TT_CTRL.step_threshold_us * 256000 < off.natAbs)
    (hn : off.natAbs ≤ s.get TT_CTRL.lock_ns * 256) : let t := servoShown (servoSync off x)
    SyncSeen p off ratio interval seqId s.now t ∧ t.tt.good = s.tt.good + 1 ∧ t.tt.slew = off.tdiv 2 * 2 ^ 76 ∧ t.tt.t = s.tt.t ∧
      t.get TT_STATUS.state = (if 3 ≤ s.tt.good then 2 else 1) ∧ (3 ≤ s.tt.good → t.get TT_EVENTS.locked = 1) := by
  rw [← hx.t, ← hx.good]
  exact syncAcquire_near ((hx.writes _ (by decide)).trans h) (by rwa [hx.writes _ (by decide)]) (by rwa [hx.writes _ (by decide)]) hx.seen

theorem SyncTaken.far (h : s.get TT_STATUS.state = 1) (hfar : s.get TT_CTRL.step_threshold_us * 256000 < off.natAbs)
    (hp : ¬ (s.get BOOT_STATUS.frost = 1 ∨ s.get TT_STATUS.ever_synced = 0)) : let t := servoShown (servoSync off x)
    SyncSeen p off ratio interval seqId s.now t ∧ t.tt.good = 0 ∧ t.tt.slew = off * 2 ^ 76 ∧ t.get TT_STATUS.state = 1 ∧
      t.get TT_EVENTS.step_far = 1 ∧ t.tt.t = s.tt.t := by
  rw [← hx.t]
  exact syncAcquire_far ((hx.writes _ (by decide)).trans h) (by rwa [hx.writes _ (by decide)]) (mt hx.permitted.1 hp) hx.seen

theorem SyncTaken.locked (h : s.get TT_STATUS.state = 2) (hn : off.natAbs ≤ s.get TT_CTRL.lock_ns * 256) :
    let t := servoShown (servoSync off x)
    SyncSeen p off ratio interval seqId s.now t ∧ t.get TT_STATUS.state = 2 ∧ t.tt.slew = off.tdiv 2 * 2 ^ 76 ∧ t.tt.bad = 0 ∧ t.tt.t = s.tt.t := by
  have hst : x.get TT_STATUS.state = 2 := (hx.writes _ (by decide)).trans h
  rw [← hx.t]
  exact syncLocked_slews hst hx.seen (servoSync_near hst (by rwa [hx.writes _ (by decide)]))

theorem SyncTaken.outside_once (h : s.get TT_STATUS.state = 2) (hn : ¬ off.natAbs ≤ s.get TT_CTRL.lock_ns * 256) (hb : s.tt.bad = 0) :
    let t := servoShown (servoSync off x)
    SyncSeen p off ratio interval seqId s.now t ∧ t.get TT_STATUS.state = 2 ∧ t.tt.bad = 1 := by
  have hst : x.get TT_STATUS.state = 2 := (hx.writes _ (by decide)).trans h
  obtain ⟨hseen, hstate, -, hbad, -⟩ :=
    syncLocked_slews hst hx.seen (servoSync_far hst (by rwa [hx.writes _ (by decide)]) (hx.bad.trans hb))
  exact ⟨hseen, hstate, hbad⟩

theorem SyncTaken.outside_again (h : s.get TT_STATUS.state = 2) (hn : ¬ off.natAbs ≤ s.get TT_CTRL.lock_ns * 256) (hb : s.tt.bad ≠ 0) :
    let t := servoShown (servoSync off x)
    t.get TT_STATUS.state = 1 ∧ t.get TT_EVENTS.unlocked = 1 :=
  syncLocked_unlocks ((hx.writes _ (by decide)).trans h) (by rwa [hx.writes _ (by decide)]) (hx.bad.trans_ne hb)

end

/-- Settles O33: what a Sync shows is one state in either mode, and the servo's part of it one lemma for each state it finds. -/
theorem syncsDriveTheServo : Obligations.SyncsDriveTheServo := by
  unfold Obligations.SyncsDriveTheServo
  refine ⟨fun s p e origin corr cum interval seqId => ?_, fun s => ⟨fun hlive hha hst hdue => ?_, fun h => ?_⟩⟩
  · intro c rx ratio off st near far permitted shown
    refine ⟨fun h => by rw [exec_syncReceive, syncReceive_none h], fun hlive hslave hgm hdelay => ?_⟩
    have hrate : rateRatio p cum s = ratio := rateRatio_slave hslave
    have hacts {P : State → Prop} (hservo : s.ha 1 = true ∨ st ≠ 4) (h : ∀ x, SyncTaken p off ratio interval seqId s x →
        P (if s.ha 1 then x.withTt { x.tt with good := 0, bad := 0 } else servoShown (servoSync off x))) : Completes c s P := by
      refine syncReceive_completes hlive hslave hgm hdelay hservo fun x hx => h x ?_
      rwa [hrate] at hx
    refine ⟨fun hha => ?_, fun hha => ?_⟩
    · rw [hha] at hacts
      exact hacts (.inl rfl) fun x hx => hx.ha
    · rw [hha] at hacts
      have hne {n : Nat} (h : st = n) (hn : n ≠ 4) : false = true ∨ st ≠ 4 := .inr (h ▸ hn)
      exact ⟨fun h0 hp => hacts (hne h0 (by decide)) fun x hx => hx.free h0 hp,
        fun h1 hf hn => hacts (hne h1 (by decide)) fun x hx => hx.near h1 hf hn,
        fun h1 hf hp => hacts (hne h1 (by decide)) fun x hx => hx.far h1 hf hp,
        fun h2 hn => hacts (hne h2 (by decide)) fun x hx => hx.locked h2 hn,
        fun h2 hn hb => hacts (hne h2 (by decide)) fun x hx => hx.outside_once h2 hn hb,
        fun h2 hn hb => hacts (hne h2 (by decide)) fun x hx => hx.outside_again h2 hn hb⟩
  · exact ⟨_, exec_syncTimeout, syncTimeout_acts hlive hha hst hdue⟩
  · rw [exec_syncTimeout, syncTimeout_waits h]

end Sys2Proof.Machine
end

section
/-!
O34. The edge on which a lane's domain is clamped with a slew in progress: R84's selection makes this node grandmaster, and that ends the slew.
-/
namespace Sys2Proof.Machine
open Sys2Proof

/-- A clocked state in HW mode with a slew of 2^24 / 2^8 ns left, the domain of lane 39 one edge from its clamp. -/
def clampingSlew : State :=
  { State.reset.set CLK_RING.state 1 with
    tt := { TtH.reset with slew := 2 ^ 100 }, pwr := { PwrH.reset with por := false, entering := [(39, 2)] } }

theorem clampingSlew_clocked : clocked clampingSlew = true := by decide +kernel

theorem clampingSlew_ended : (tick clampingSlew).tt.slew = 0 := by decide +kernel

/-- What the edge's own part of the slew would leave of it. -/
theorem clampingSlew_left : clampingSlew.tt.slew - (Nat.min clampingSlew.tt.slew.natAbs
    ((clampingSlew.regN TT_PERIOD * 2 ^ 32 + clampingSlew.regN TT_PERIOD_FINE) * clampingSlew.clk.divD * 2 ^ 20 *
      Nat.max 1 (if clampingSlew.tt.slewHost then clampingSlew.get TT_SLEW_RATE.rate else clampingSlew.get TT_CTRL.slew_max) / 2 ^ 20) : Nat) ≠ 0 := by
  decide +kernel

/-- Refutes O34: on the edge of `clampingSlew` the clamp of a lane ends all that is left of the slew, where the first clause has only the
edge's own part taken from it. -/
theorem not_trainTimeIsSteered : ¬ Obligations.TrainTimeIsSteered := by
  rintro ⟨hedge, -⟩
  obtain ⟨t, hstep, hpos, -⟩ := hedge clampingSlew rfl clampingSlew_clocked
  have ht : tick clampingSlew = t := Host.Outcome.next.inj hstep
  obtain ⟨-, hslew⟩ := hpos (by decide +kernel)
  rw [← ht, clampingSlew_ended] at hslew
  exact clampingSlew_left hslew.symm

end Sys2Proof.Machine
end

section
/-!
O35. gPTP: what a selection writes and leaves, the messages a port queues with their numbers and intervals, and the peer delay exchange.
-/
namespace Sys2Proof.Machine
open Sys2Proof
variable {s t u : State} {p : Nat}

/-! ### What a selection writes (R283) -/

/-- Only the fields `fs`, the registers `rs` and parts of the hidden state other than the memory and the switch differ from `s`. -/
structure Steered (fs : List Fld) (rs : List Nat) (s t : State) : Prop where
  writes : Writes fs rs s t
  mem : t.mem = s.mem
  net : t.net = s.net

namespace Steered
variable {fs : List Fld} {rs : List Nat}

theorem refl : Steered fs rs s s := ⟨.refl, rfl, rfl⟩
theorem mono {fs' : List Fld} {rs' : List Nat} (h : Steered fs rs s t) (hf : fs ⊆ fs') (hr : rs ⊆ rs') : Steered fs' rs' s t :=
  ⟨h.writes.mono hf hr, h.mem, h.net⟩
theorem trans (h : Steered fs rs u s) (h' : Steered fs rs s t) : Steered fs rs u t :=
  ⟨h.writes.trans h'.writes, h'.mem.trans h.mem, h'.net.trans h.net⟩
theorem set {f : Fld} {n : Nat} (h : Steered fs rs u s) (hf : f ∈ fs) : Steered fs rs u (s.set f n) := ⟨h.writes.set hf, h.mem, h.net⟩
theorem setB {f : Fld} {b : Bool} (h : Steered fs rs u s) (hf : f ∈ fs) : Steered fs rs u (s.setB f b) := h.set hf
theorem raise {f : Fld} (h : Steered fs rs u s) (hf : f ∈ fs) : Steered fs rs u (s.raise f) := h.set hf
theorem setN {a n : Nat} (h : Steered fs rs u s) (ha : a ∈ rs) : Steered fs rs u (s.setN a n) := ⟨h.writes.setN (.inl ha), h.mem, h.net⟩
theorem withTt {c : TtH} (h : Steered fs rs u s) : Steered fs rs u (s.withTt c) := ⟨h.writes, h.mem, h.net⟩

end Steered

/-- The fields of TT_STATUS and TT_EVENTS that the choice of a grandmaster writes. -/
def masterFlds : List Fld :=
  [TT_EVENTS.grandmaster, TT_EVENTS.unlocked, TT_EVENTS.degraded_change, TT_STATUS.state, TT_STATUS.slewing, TT_STATUS.clock_degraded,
    TT_STATUS.degraded, TT_STATUS.phase_only]
/-- The registers it writes whole. -/
def masterRegs : List Nat := [TT_SLEW_LEFT, TT_PERIOD, TT_PERIOD_FINE, NET_GPTP_GM_LO, NET_GPTP_GM_HI]

theorem steered_setP {n : Nat} (h : Steered masterFlds masterRegs u s) : Steered masterFlds masterRegs u (s.setP n) :=
  (h.setN (by decide)).setN (by decide)
theorem steered_showPhase (h : Steered masterFlds masterRegs u s) : Steered masterFlds masterRegs u (showPhase s) := by
  have hphase : Steered masterFlds masterRegs u (s.setB TT_STATUS.phase_only (phaseOnly s)) := h.setB (by decide)
  unfold showPhase
  extract_lets enters
  exact of_when hphase fun h => steered_setP h
theorem steered_showSlew (h : Steered masterFlds masterRegs u s) : Steered masterFlds masterRegs u (showSlew s) :=
  (h.setN (by decide)).setB (by decide)
theorem steered_refreshDegraded (h : Steered masterFlds masterRegs u s) : Steered masterFlds masterRegs u s.refreshDegraded :=
  ((of_when h fun h => h.raise (by decide)).setB (by decide)).setB (by decide)

theorem steered_grandmasterChange {gm : Bool} (h : Steered masterFlds masterRegs u s) : Steered masterFlds masterRegs u (grandmasterChange gm s) := by
  unfold grandmasterChange
  have hgm : Steered masterFlds masterRegs u ((s.withTt { s.tt with gm := gm }).raise TT_EVENTS.grandmaster) := h.withTt.raise (by decide)
  refine of_ite h (steered_refreshDegraded (of_ite hgm (of_ite ?_ (hgm.set (by decide)).withTt)))
  extract_lets c s1 c' s2 s3
  have h1 : Steered masterFlds masterRegs u s1 := of_when hgm fun h => h.raise (by decide)
  have h2 : Steered masterFlds masterRegs u s2 := steered_showSlew h1.withTt
  have h3 : Steered masterFlds masterRegs u s3 := of_ite h2 (steered_setP h2)
  exact h3.set (by decide)

/-- The fields that a selection writes before it compares grandmasters. -/
def selectFlds : List Fld := TT_STATUS.slave_port :: NET_EVENTS.gptp_state :: (List.range 8).map PORT_STATUS.gptp_state

/-- The states of the ports shown, with the slave port. -/
def showStates (states : List Nat) (changed : Bool) (slave : Nat) (s : State) : State :=
  let s := s.forEach (List.range 8) (fun p => (·.set (PORT_STATUS.gptp_state p) (states.getD p 0)))
  (s.when changed (·.raise NET_EVENTS.gptp_state)).set TT_STATUS.slave_port slave

section
variable {states : List Nat} {changed : Bool} {slave : Nat}

theorem steered_showStates : Steered selectFlds [] s (showStates states changed slave s) := by
  have hstates : Steered selectFlds [] s (s.forEach (List.range 8) (fun p => (·.set (PORT_STATUS.gptp_state p) (states.getD p 0)))) :=
    of_forEach .refl fun x hx _ h => h.set (List.mem_cons_of_mem _ (List.mem_cons_of_mem _ (List.mem_map_of_mem hx)))
  have hraised := of_when (b := changed) (f := (·.raise NET_EVENTS.gptp_state)) hstates fun h => h.raise (by decide)
  exact hraised.set (by decide)

theorem showStates_slave (h : slave < 16) : (showStates states changed slave s).get TT_STATUS.slave_port = slave :=
  get_set_of_lt (by decide) h

theorem showStates_state {q : Nat} (hq : q < 8) (h : states.getD q 0 = 2) :
    (showStates states changed slave s).get (PORT_STATUS.gptp_state q) = 2 := by
  have hset : (s.forEach (List.range 8) (fun p => (·.set (PORT_STATUS.gptp_state p) (states.getD p 0)))).get (PORT_STATUS.gptp_state q) = 2 := by
    refine forEach_establishes (P := fun t : State => t.get (PORT_STATUS.gptp_state q) = 2) (List.mem_range.2 hq) (fun t => ?_) (fun y t ht => ?_)
    · rw [get_set_of_lt (show 4 + 3 ≤ 32 by decide) (h ▸ (by decide : 2 < 2 ^ 3)), h]
    · by_cases hy : q = y
      · subst hy
        rw [get_set_of_lt (show 4 + 3 ≤ 32 by decide) (h ▸ (by decide : 2 < 2 ^ 3)), h]
      · rw [State.get_set_other _ _ _ _ (by unfold PORT_STATUS.gptp_state PORT_STATUS; dsimp only; omega), ht]
  have hport : (PORT_STATUS.gptp_state q).addr ≠ TT_STATUS ∧ (PORT_STATUS.gptp_state q).addr ≠ NET_EVENTS := by
    unfold PORT_STATUS.gptp_state PORT_STATUS TT_STATUS NET_EVENTS
    dsimp only
    omega
  obtain ⟨htt, hnet⟩ := hport
  unfold showStates
  rw [State.get_set_other _ _ _ _ htt]
  exact of_when (P := fun t : State => t.get (PORT_STATUS.gptp_state q) = 2) hset fun h => (get_raise_other hnet).trans h

end

/-- The slave port of the states: the first in state 2, 0xF where there is none. -/
def slaveOf (states : List Nat) : Nat := ((List.range 8).find? (fun p => states.getD p 0 == 2)).getD 0xF

theorem slaveOf_cases (states : List Nat) : slaveOf states = 0xF ∨ (slaveOf states < 8 ∧ states.getD (slaveOf states) 0 = 2) := by
  unfold slaveOf
  cases h : (List.range 8).find? (fun p => states.getD p 0 == 2) with
  | none => exact .inl rfl
  | some q => exact .inr ⟨List.mem_range.1 (List.mem_of_find?_eq_some h), by simpa using List.find?_some h⟩

/-- A selection shows some states with their slave port, and chooses the grandmaster. -/
theorem gptpSelect_shows (s : State) : ∃ states changed, Steered masterFlds masterRegs (showStates states changed (slaveOf states) s) (gptpSelect s) := by
  unfold gptpSelect
  extract_lets usable heard best ext stateOf states changed slave gm s1 s2 s3 s4
  refine ⟨states, changed, steered_grandmasterChange ?_⟩
  have h3 : Steered masterFlds masterRegs (showStates states changed slave s) s3 := steered_showPhase .refl
  clear_value s3
  have hpair {n : Nat} : Steered masterFlds masterRegs (showStates states changed slave s) (s3.setPair NET_GPTP_GM_LO n) :=
    (h3.setN (a := NET_GPTP_GM_LO) (by decide)).setN (a := NET_GPTP_GM_LO + 4) (by decide)
  simp only [s4]
  generalize best = b
  cases b with
  | none => exact hpair
  | some x => exact hpair

theorem gptpSelect_steered : Steered (masterFlds ++ selectFlds) masterRegs s (gptpSelect s) := by
  obtain ⟨states, changed, h⟩ := gptpSelect_shows s
  exact (steered_showStates.mono (List.subset_append_right _ _) (List.nil_subset _)).trans
    (h.mono (List.subset_append_left _ _) (List.Subset.refl _))

theorem gptpState_kept : ∀ q < 8, outside masterFlds masterRegs (PORT_STATUS.gptp_state q) = true := by decide

/-- The slave port shown is in state 2. -/
theorem gptpSelect_slave (h : (gptpSelect s).get TT_STATUS.slave_port ≠ 0xF) :
    (gptpSelect s).get (PORT_STATUS.gptp_state ((gptpSelect s).get TT_STATUS.slave_port)) = 2 := by
  obtain ⟨states, changed, hrest⟩ := gptpSelect_shows s
  have hlt : slaveOf states < 16 := by
    rcases slaveOf_cases states with h | ⟨h, -⟩
    · rw [h]
      decide
    · exact Nat.lt_trans h (by decide)
  have hslave : (gptpSelect s).get TT_STATUS.slave_port = slaveOf states := (hrest.writes _ (by decide)).trans (showStates_slave hlt)
  obtain ⟨hq, h2⟩ := (slaveOf_cases states).resolve_left (hslave ▸ h)
  rw [hslave, hrest.writes _ (gptpState_kept _ hq)]
  exact showStates_state hq h2

theorem portOf_of_net (h : t.net = s.net) (q : Nat) : t.portOf q = s.portOf q := portOf_of_port (congrArg NetH.port h)

/-! ### Announces (R283) -/

theorem toList_getD {n : Nat} (v : Vector Nat n) (i : Nat) (h : i < n) : v.toList.getD i 0 = v[i] := by
  rw [atD_eq_getD_toList]
  exact dif_pos h

theorem announceReceive_acts {p : Fin 8} {vec : Vector Nat 9} {interval : Nat} (hon : gptpOn s p = true) (hid : vec[7] ≠ clockId s)
    (hsteps : vec[6] < 255) : ((announceReceive p vec.toList interval s).portOf p).ann = some ⟨vec.toList, s.now, interval⟩ ∧
      (announceReceive p vec.toList interval s).mem = s.mem ∧ ((announceReceive p vec.toList interval s).get TT_STATUS.slave_port ≠ 0xF →
      (announceReceive p vec.toList interval s).get (PORT_STATUS.gptp_state ((announceReceive p vec.toList interval s).get TT_STATUS.slave_port)) = 2) := by
  have hguard : ¬ (!gptpOn s p || vec.toList.getD 7 0 == clockId s || 255 ≤ vec.toList.getD 6 0) = true := by
    rw [toList_getD vec 7 (by decide), toList_getD vec 6 (by decide), hon]
    simp only [Bool.not_true, Bool.false_or, Bool.or_eq_true, beq_iff_eq, decide_eq_true_eq]
    omega
  rw [announceReceive, if_neg hguard]
  refine ⟨?_, gptpSelect_steered.mem, gptpSelect_slave⟩
  rw [portOf_of_net gptpSelect_steered.net, portOf_modPort_same (by omega)]

theorem announceReceive_none {p : Fin 8} {vec : Vector Nat 9} {interval : Nat} (h : vec[7] = clockId s ∨ 255 ≤ vec[6]) :
    announceReceive p vec.toList interval s = s := by
  refine if_pos ?_
  rw [toList_getD vec 7 (by decide), toList_getD vec 6 (by decide)]
  simp only [Bool.or_eq_true, beq_iff_eq, decide_eq_true_eq]
  omega

theorem announceTimeout_acts {p : Fin 8} {a : Announce} (ha : (s.portOf p).ann = some a) (hdue : a.tt + 3 * a.interval ≤ s.now) :
    ((announceTimeout p s).portOf p).ann = none ∧ (announceTimeout p s).mem = s.mem := by
  have heq : announceTimeout p s = gptpSelect (s.modPort p (fun h => { h with ann := none })) := by
    unfold announceTimeout
    rw [ha]
    exact if_pos (decide_eq_true hdue)
  rw [heq]
  refine ⟨?_, gptpSelect_steered.mem⟩
  rw [portOf_of_net gptpSelect_steered.net, portOf_modPort_same (by omega)]

theorem announceTimeout_waits {p : Fin 8} {a : Announce} (ha : (s.portOf p).ann = some a) (hearly : s.now < a.tt + 3 * a.interval) :
    announceTimeout p s = s := by
  unfold announceTimeout
  rw [ha]
  exact if_neg (by simpa [State.due] using hearly)

/-! ### Messages (R262, R283) -/

/-- Of the ports `t` changes at most port `p`, and of the rest nothing. -/
def PortOnly (p : Nat) (s t : State) : Prop := (∀ u : Fin 10, u.val ≠ p → t.portOf u = s.portOf u) ∧ { t with net := s.net } = s

theorem portOnly_modPort {f : PortH → PortH} (h : PortOnly p u s) (hp : p < 10) : PortOnly p u (s.modPort p f) := by
  obtain ⟨hports, hrest⟩ := h
  refine ⟨fun q hq => Eq.trans ?_ (hports q hq), hrest⟩
  unfold State.portOf State.modPort State.modNet
  rw [atD_updAt _ _ _ _ _ hp, if_neg hq]

/-- Port `p` after a message of kind `k` is numbered: its next number, and the instant before which the next is not sent. -/
def numberedPort (k next : Nat) (h : PortH) : PortH :=
  { h with nextAt := updAt h.nextAt k (fun _ => next), seqs := updAt h.seqs k (fun n => (n + 1) % 65536) }

/-- The state in which a message of kind `k` has its number. -/
def numbered (p k : Nat) (s : State) : State := (gptpSeq p k (gptpSent p k s)).2

theorem numbered_portOf {k : Nat} (hp : p < 10) : (numbered p k s).portOf p = numberedPort k (s.now + gptpInterval s k) (s.portOf p) := by
  unfold numbered gptpSeq gptpSent
  rw [portOf_modPort_same hp, portOf_modPort_same hp]
  rfl
theorem numbered_now {k : Nat} : (numbered p k s).now = s.now := rfl
theorem numbered_only {k : Nat} (hp : p < 10) : PortOnly p s (numbered p k s) :=
  portOnly_modPort (portOnly_modPort ⟨fun _ _ => rfl, rfl⟩ hp) hp
theorem gptpSeq_sent {k : Nat} (hp : p < 10) : (gptpSeq p k (gptpSent p k s)).1 = atD (s.portOf p).seqs k 0 := by
  unfold gptpSeq gptpSent
  rw [portOf_modPort_same hp]

theorem gptpQueue_portOf {kind n : Nat} {times : List Int} (hp : p < 10) :
    (gptpQueue p kind n times s).portOf p = { s.portOf p with gq := (s.portOf p).gq ++ [⟨kind, n, s.now, times⟩] } :=
  portOf_modPort_same hp
theorem gptpQueue_now {kind n : Nat} {times : List Int} : (gptpQueue p kind n times s).now = s.now := rfl
theorem gptpQueue_only {kind n : Nat} {times : List Int} (hp : p < 10) (h : PortOnly p u s) : PortOnly p u (gptpQueue p kind n times s) :=
  portOnly_modPort h hp

/-- The messages `l` have joined port `p`'s queue, and nothing but the port has changed. -/
def Queued (p : Nat) (l : List Gptp) (s t : State) : Prop :=
  (t.portOf p).gq = (s.portOf p).gq ++ l ∧ t.io = s.io ∧ (∀ u : Fin 10, u.val ≠ p → t.portOf u = s.portOf u) ∧ { t with net := s.net } = s

theorem queued_of_only {l : List Gptp} (h : PortOnly p s t) (hq : (t.portOf p).gq = (s.portOf p).gq ++ l) : Queued p l s t := by
  obtain ⟨hports, hrest⟩ := h
  exact ⟨hq, by rw [← hrest], hports, hrest⟩

theorem updAt_getElem {α : Type} {n i : Nat} (v : Vector α n) (f : α → α) (d : α) (h : i < n) : (updAt v i f)[i] = f (atD v i d) := by
  have hat := atD_updAt v i f i d h
  rwa [if_pos rfl, atD, dif_pos h] at hat

/-- Messages `l` numbered and queued together, the next of their kind due at `next`. -/
theorem numbered_queued {k next : Nat} {l : List Gptp} (hk : k < 3) (honly : PortOnly p s t)
    (hport : t.portOf p = { numberedPort k next (s.portOf p) with gq := (s.portOf p).gq ++ l }) :
    Queued p l s t ∧ (t.portOf p).seqs[k] = (atD (s.portOf p).seqs k 0 + 1) % 65536 ∧ (t.portOf p).nextAt[k] = next := by
  refine ⟨queued_of_only honly (congrArg PortH.gq hport), ?_, ?_⟩
  · rw [hport]
    exact updAt_getElem _ _ 0 hk
  · rw [hport]
    exact updAt_getElem _ (fun _ => next) 0 hk

/-- One message of kind `kind`, numbered as the kind `k` of its sequence. -/
theorem oneMessage_queued {k kind : Nat} (hk : k < 3) (hp : p < 10)
    (heq : t = gptpQueue p kind (atD (s.portOf p).seqs k 0) [] (numbered p k s)) :
    Queued p [⟨kind, atD (s.portOf p).seqs k 0, s.now, []⟩] s t ∧ (t.portOf p).seqs[k] = (atD (s.portOf p).seqs k 0 + 1) % 65536 ∧
      (t.portOf p).nextAt[k] = s.now + gptpInterval s k := by
  refine numbered_queued hk (heq ▸ gptpQueue_only hp (numbered_only hp)) ?_
  rw [heq, gptpQueue_portOf hp, numbered_now, numbered_portOf hp]
  rfl

section
variable {p : Fin 8}

theorem syncSend_acts (hon : gptpOn s p = true) (hmaster : s.get (PORT_STATUS.gptp_state p) = 1)
    (htimed : s.tt.gm = true ∨ s.tt.relay.isSome = true) (hdue : gptpDue s p 0 = true) (hrun : s.disabling 1 = false) :
    Queued p [⟨0, atD (s.portOf p).seqs 0 0, s.now, []⟩, ⟨1, atD (s.portOf p).seqs 0 0, s.now, []⟩] s (syncSend p s) ∧
      ((syncSend p s).portOf p).seqs[0] = (atD (s.portOf p).seqs 0 0 + 1) % 65536 ∧
      ((syncSend p s).portOf p).nextAt[0] = s.now + gptpInterval s 0 := by
  have hp : p.val < 10 := by omega
  have heq : syncSend p s = gptpQueue p 1 (atD (s.portOf p).seqs 0 0) [] (gptpQueue p 0 (atD (s.portOf p).seqs 0 0) [] (numbered p 0 s)) := by
    unfold syncSend
    rw [if_pos (by simpa [hon, hmaster, hdue, hrun] using htimed), ← gptpSeq_sent hp]
    rfl
  refine numbered_queued (by decide) (heq ▸ gptpQueue_only hp (gptpQueue_only hp (numbered_only hp))) ?_
  rw [heq, gptpQueue_portOf hp, gptpQueue_portOf hp, gptpQueue_now, numbered_now, numbered_portOf hp]
  simp only [numberedPort, List.append_assoc, List.cons_append, List.nil_append]

theorem announceSend_acts (hon : gptpOn s p = true) (hmaster : s.get (PORT_STATUS.gptp_state p) = 1) (hdue : gptpDue s p 2 = true) :
    Queued p [⟨5, atD (s.portOf p).seqs 2 0, s.now, []⟩] s (announceSend p s) ∧
      ((announceSend p s).portOf p).seqs[2] = (atD (s.portOf p).seqs 2 0 + 1) % 65536 ∧
      ((announceSend p s).portOf p).nextAt[2] = s.now + gptpInterval s 2 := by
  have hp : p.val < 10 := by omega
  refine oneMessage_queued (by decide) hp ?_
  unfold announceSend
  rw [if_pos (by simp [hon, hmaster, hdue]), ← gptpSeq_sent hp]
  rfl

theorem pdelayReqSend_acts (hon : gptpOn s p = true)
    (hdue : (gptpDue s p 1 = true ∧ s.disabling 1 = false) ∨ (s.portOf p).t1.isSome = true) :
    Queued p [⟨2, atD (s.portOf p).seqs 1 0, s.now, []⟩] s (pdelayReqSend p s) ∧
      ((pdelayReqSend p s).portOf p).seqs[1] = (atD (s.portOf p).seqs 1 0 + 1) % 65536 ∧
      ((pdelayReqSend p s).portOf p).nextAt[1] = s.now + gptpInterval s 1 := by
  have hp : p.val < 10 := by omega
  have hguard : ((gptpDue s p 1 && !s.disabling 1) || (s.portOf p).t1.isSome) = true := by
    simpa only [Bool.or_eq_true, Bool.and_eq_true, Bool.not_eq_true'] using hdue
  refine oneMessage_queued (by decide) hp ?_
  unfold pdelayReqSend
  rw [if_neg (by simp only [hon, hguard, Bool.not_true, Bool.or_false, Bool.false_eq_true, not_false_eq_true]), ← gptpSeq_sent hp]
  rfl

theorem pdelayReq_acts {e : Fin 8} {q : Fin 65536} (hon : gptpOn s p = true) :
    Queued p [⟨3, q, s.now, [stampAt s e]⟩, ⟨4, q, s.now, []⟩] s (pdelayReq p e q s) := by
  have hp : p.val < 10 := by omega
  have heq : pdelayReq p e q s = gptpQueue p 4 q [] (gptpQueue p 3 q [stampAt s e] s) := if_pos hon
  refine queued_of_only (heq ▸ gptpQueue_only hp (gptpQueue_only hp ⟨fun _ _ => rfl, rfl⟩)) ?_
  rw [heq, gptpQueue_portOf hp, gptpQueue_portOf hp, gptpQueue_now]
  simp only [List.append_assoc, List.cons_append, List.nil_append]

theorem syncSend_waits (h : gptpOn s p = false ∨ ¬ s.get (PORT_STATUS.gptp_state p) = 1 ∨ ¬ (s.tt.gm = true ∨ s.tt.relay.isSome = true) ∨
    gptpDue s p 0 = false ∨ s.disabling 1 = true) : syncSend p s = s := by
  refine if_neg ?_
  simp only [Bool.and_eq_true, Bool.or_eq_true, Bool.not_eq_true', beq_iff_eq]
  rintro ⟨⟨⟨⟨hrun, hon⟩, hmaster⟩, hdue⟩, htimed⟩
  rw [hon, hdue, hrun] at h
  simp only [Bool.true_eq_false, Bool.false_eq_true, false_or, or_false] at h
  exact h.elim (absurd hmaster) (absurd htimed)

theorem announceSend_waits (h : gptpOn s p = false ∨ ¬ s.get (PORT_STATUS.gptp_state p) = 1 ∨ gptpDue s p 2 = false) : announceSend p s = s := by
  refine if_neg ?_
  simp only [Bool.and_eq_true, beq_iff_eq]
  rintro ⟨⟨hon, hmaster⟩, hdue⟩
  rw [hon, hdue] at h
  simp only [Bool.true_eq_false, false_or, or_false] at h
  exact h hmaster

theorem pdelayReqSend_waits (h : gptpOn s p = false ∨
    ((gptpDue s p 1 = false ∨ s.disabling 1 = true) ∧ ¬ (s.portOf p).t1.isSome = true)) : pdelayReqSend p s = s := by
  refine if_pos ?_
  simp only [Bool.or_eq_true, Bool.not_eq_true', Bool.or_eq_false_iff, Bool.and_eq_false_iff, Bool.not_eq_false']
  simpa only [Bool.not_eq_true] using h

theorem pdelayReq_none {e : Fin 8} {q : Fin 65536} (h : gptpOn s p = false) : pdelayReq p e q s = s := if_neg (by simp [h])

/-! ### The peer delay exchange (R84) -/

theorem pdelayResp_none {e : Fin 8} {q : Fin 65536} {t2 t3 : Int}
    (h : gptpOn s p = false ∨ (s.portOf p).t1 = none ∨ ¬ (q.val + 1) % 65536 = atD (s.portOf p).seqs 1 0) : pdelayResp p e q t2 t3 s = s := by
  unfold pdelayResp
  cases ht : (s.portOf p).t1 with
  | none => rfl
  | some t1 =>
    refine if_pos ?_
    simp only [Bool.or_eq_true, Bool.not_eq_true', bne_iff_ne]
    simpa only [ht, reduceCtorEq, false_or] using h

/-- The fields of a peer delay exchange are not those of a selection. -/
theorem pdelay_outside : ∀ p : Fin 8, outside (masterFlds ++ selectFlds) masterRegs ⟨TT_PORT_DELAY p, 0, 32⟩ = true ∧
    outside (masterFlds ++ selectFlds) masterRegs (PORT_STATUS.as_capable p) = true := by decide

/-- What a completed exchange records of port `p` before the selection. -/
def pdelayShown (p d : Nat) (f : PortH → PortH) (s : State) : State :=
  ((s.setN (TT_PORT_DELAY p) d).modPort p f).setB (PORT_STATUS.as_capable p) (d ≤ 800 * 256)

theorem pdelayShown_shows {d : Nat} {f : PortH → PortH} (hd : d < 2 ^ 32) : (gptpSelect (pdelayShown p d f s)).regN (TT_PORT_DELAY p) = d ∧
    (gptpSelect (pdelayShown p d f s)).get (PORT_STATUS.as_capable p) = (if d ≤ 204800 then 1 else 0) ∧
    (gptpSelect (pdelayShown p d f s)).portOf p = f (s.portOf p) ∧ (gptpSelect (pdelayShown p d f s)).mem = s.mem := by
  obtain ⟨hdelay, hcap⟩ := pdelay_outside p
  obtain ⟨hw, hmem, hnet⟩ := gptpSelect_steered (s := pdelayShown p d f s)
  have hne : TT_PORT_DELAY p ≠ PORT_STATUS p := by
    unfold TT_PORT_DELAY PORT_STATUS
    omega
  refine ⟨(hw.regN hdelay).trans ?_, (hw _ hcap).trans ?_, (portOf_of_net hnet p).trans ?_, hmem⟩
  · rw [pdelayShown, State.setB, State.regN, reg_set_other hne, State.modPort_reg, reg_setN_same, BitVec.toNat_ofNat, Nat.mod_eq_of_lt hd]
  · rw [pdelayShown, get_setB_same (f := PORT_STATUS.as_capable p) (show 7 + 1 ≤ 32 by decide) (show 0 < 1 by decide)]
    simp only [decide_eq_true_eq]
  · exact portOf_modPort_same (s := s.setN (TT_PORT_DELAY p) d) (by omega)

theorem delay_lt (x : Int) : (max 0 (min x 0xFFFFFFFE)).toNat < 2 ^ 32 := by omega

theorem pdelayResp_acts {e : Fin 8} {q : Fin 65536} {t1 t2 t3 : Int} (hon : gptpOn s p = true) (ht : (s.portOf p).t1 = some t1)
    (hq : (q.val + 1) % 65536 = atD (s.portOf p).seqs 1 0) (hfirst : (s.portOf p).pdelay = none) :
    ∃ f : PortH → PortH, (∀ h, (f h).pdelay = some (t3, stampAt s e) ∧ (f h).t1 = none) ∧ pdelayResp p e q t2 t3 s =
      gptpSelect (pdelayShown p (max 0 (min (((stampAt s e - t1) - (t3 - t2)) / 2) 0xFFFFFFFE)).toNat f s) := by
  have hguard : ¬ (!gptpOn s p || (q.val + 1) % 65536 != atD (s.portOf p).seqs 1 0) = true := by simp [hon, hq]
  refine ⟨fun h => { h with pdelay := some (t3, stampAt s e), t1 := none, nrr := 1 * 2 ^ 41 / 1 - 2 ^ 41 }, fun h => ⟨rfl, rfl⟩, ?_⟩
  unfold pdelayResp
  rw [ht]
  dsimp only
  rw [if_neg hguard, hfirst]
  simp only [Int.mul_one, pdelayShown]

end

/-! ### The obligation -/

section
variable {p e : Fin 8} {q : Fin 65536} {vec : Vector Nat 9} {interval : Nat} {t2 t3 : Int}

theorem exec_announceReceive : exec (.announceReceive p vec interval) s = .next (inCore (announceReceive p vec.toList interval) s) := rfl
theorem exec_announceReceiptTimeout : exec (.announceReceiptTimeout p) s = .next (inCore (announceTimeout p) s) := rfl
theorem exec_syncSend : exec (.syncSend p) s = .next (inCore (syncSend p) s) := rfl
theorem exec_announceSend : exec (.announceSend p) s = .next (inCore (announceSend p) s) := rfl
theorem exec_pdelayReqSend : exec (.pdelayReqSend p) s = .next (inCore (pdelayReqSend p) s) := rfl
theorem exec_pdelayReq : exec (.pdelayReq (p, e) q) s = .next (inCore (pdelayReq p e q) s) := rfl
theorem exec_pdelayRespReceive : exec (.pdelayRespReceive p e q t2 t3) s = .next (inCore (pdelayResp p e q t2 t3) s) := rfl

/-- A command of the core that has nothing to do leaves the state. -/
theorem exec_idle {c : Instr} {f : State → State} (hc : exec c s = .next (inCore f s)) (h : f s = s) : exec c s = .next s := by
  rw [hc, inCore_eq_self h]

end

/-- Settles O35: a selection is some states shown with their slave port and then the choice of a grandmaster; the messages a port queues
are numbered in one step, said once for every kind. -/
theorem gptpMessagesAreHandled : Obligations.GptpMessagesAreHandled := by
  unfold Obligations.GptpMessagesAreHandled
  refine ⟨fun s p vec interval hlive hon => ⟨fun hid hsteps => ?_, fun h => exec_idle exec_announceReceive (announceReceive_none h)⟩,
    fun s p a ha => ⟨fun hlive hdue => ?_, fun hearly => exec_idle exec_announceReceiptTimeout (announceTimeout_waits ha hearly)⟩,
    fun s p e q hlive => ?_, fun s p e q t1 t2 t3 hlive => ?_⟩
  · exact completes_inCore exec_announceReceive hlive (announceReceive_acts hon hid hsteps)
  · exact completes_inCore exec_announceReceiptTimeout hlive (announceTimeout_acts ha hdue)
  · intro n queued master timed waits
    exact ⟨fun hon hmaster => ⟨fun htimed hdue hrun => completes_inCore exec_syncSend hlive (syncSend_acts hon hmaster htimed hdue hrun),
        fun hdue => completes_inCore exec_announceSend hlive (announceSend_acts hon hmaster hdue)⟩,
      fun hon hdue => completes_inCore exec_pdelayReqSend hlive (pdelayReqSend_acts hon hdue),
      fun hon => completes_inCore exec_pdelayReq hlive (pdelayReq_acts hon),
      fun h => exec_idle exec_syncSend (syncSend_waits h), fun h => exec_idle exec_announceSend (announceSend_waits h),
      fun h => exec_idle exec_pdelayReqSend (pdelayReqSend_waits h), fun h => exec_idle exec_pdelayReq (pdelayReq_none h)⟩
  · intro t4 answers d
    refine ⟨fun hon ht hq hfirst => completes_inCore exec_pdelayRespReceive hlive ?_, fun h => exec_idle exec_pdelayRespReceive (pdelayResp_none h)⟩
    obtain ⟨f, hf, heq⟩ := pdelayResp_acts (e := e) (t2 := t2) (t3 := t3) hon ht hq hfirst
    obtain ⟨hdelay, hcap, hport, hmem⟩ := pdelayShown_shows (s := s) (p := p) (f := f) (delay_lt (((t4 - t1) - (t3 - t2)) / 2))
    obtain ⟨hpd, ht1⟩ := hf (s.portOf p)
    rw [heq]
    exact ⟨hdelay, hcap, (congrArg PortH.pdelay hport).trans hpd, (congrArg PortH.t1 hport).trans ht1, hmem⟩

end Sys2Proof.Machine
end

section
/-!
O51, the requests. Entry to Drizzle and Cellar is asked for and cancelled by writes of PWR_CMD: what each is answered, in the order of its
reasons, and what one that is taken changes (R341, R343).
-/
namespace Sys2Proof.Machine
open Sys2Proof
variable {s t : State} {c : Bool} {m : Master} {l : List Nat}

/-! ### Registers and the power block -/

/-- `t` is `s` but for the power block's hidden state and registers, of which only those at the listed addresses may differ. -/
def PowerOnly (l : List Nat) (s t : State) : Prop := RegsOnly l s { t with pwr := s.pwr }

theorem powerOnly_set {f : Fld} {n : Nat} (h : PowerOnly l s t) (hf : f.addr ∈ l) : PowerOnly l s (t.set f n) :=
  regsOnly_set (t := { t with pwr := s.pwr }) h hf
theorem powerOnly_modPwr {f : PwrH → PwrH} (h : PowerOnly l s t) : PowerOnly l s (t.modPwr f) := h
theorem powerOnly_refl : PowerOnly l s s := regsOnly_refl

/-! ### What a request is answered (Table PWR-4) -/

/-- A wake source that the low-power state can use is enabled. -/
def WakeUsable (c : Bool) (s : State) : Prop := s.get PWR_WAKE_EN.enable &&& (if c then 0x3FFC else 0x3FFF) ≠ 0
/-- Nothing forbids an entry. -/
def EntryFree (s : State) : Prop := s.frost = false ∧ s.pwr.entry = none ∧ s.get PWR_STATUS.supwarn = 0 ∧ s.get INV_STATE.state = 0
/-- The Drizzle cycle is configured. -/
def CycleConfigured (s : State) : Prop := s.get DRZ_CFG.pair ≤ 5 ∧ 80000 ≤ s.regN DRZ_PERIOD

theorem entryResult_misconfigured (h : ¬ CycleConfigured s) : entryResult s false = 2 := by
  refine if_pos ?_
  simp only [Bool.not_false, Bool.true_and, Bool.or_eq_true, decide_eq_true_eq]
  unfold CycleConfigured at h
  omega

theorem entryResult_configured (h : c = false → CycleConfigured s) : entryResult s c =
    if s.get PWR_WAKE_EN.enable &&& wakeMask c == 0 then 3
    else if s.frost || s.pwr.entry.isSome || s.is PWR_STATUS.supwarn || s.get INV_STATE.state != 0 then 4 else 0 := by
  refine if_neg ?_
  simp only [Bool.and_eq_true, Bool.or_eq_true, Bool.not_eq_true', decide_eq_true_eq]
  rintro ⟨hc, hbad⟩
  obtain ⟨hpair, hperiod⟩ := h hc
  omega

theorem entryResult_unusable (h : c = false → CycleConfigured s) (hu : ¬ WakeUsable c s) : entryResult s c = 3 := by
  rw [entryResult_configured h]
  exact if_pos (beq_iff_eq.2 (not_not.1 hu))

theorem entryForbidden_iff : (s.frost || s.pwr.entry.isSome || s.is PWR_STATUS.supwarn || s.get INV_STATE.state != 0) = true ↔ ¬ EntryFree s := by
  rw [← Bool.not_eq_false, not_iff_not]
  simp only [EntryFree, Bool.or_eq_false_iff, Option.isSome_eq_false_iff, Option.isNone_iff_eq_none, State.is, bne_eq_false_iff_eq, and_assoc]

theorem entryResult_usable (h : c = false → CycleConfigured s) (hu : WakeUsable c s) : (¬ EntryFree s → entryResult s c = 4) ∧
    (EntryFree s → entryResult s c = 0) := by
  have heq := (entryResult_configured h).trans (if_neg (mt beq_iff_eq.1 hu))
  exact ⟨fun hf => heq.trans (if_pos (entryForbidden_iff.2 hf)), fun hf => heq.trans (if_neg fun hb => entryForbidden_iff.1 hb hf)⟩

/-! ### Requests refused, taken and cancelled (R341, R343) -/

/-- The request is answered `r`, and nothing else changes. -/
def EntryAnswered (r : Nat) (s t : State) : Prop := t.get PWR_CMD_RESULT.result = r ∧ RegsOnly [PWR_CMD_RESULT] s t

theorem entryAnswered_set {r : Nat} (hr : r < 8) : EntryAnswered r s (s.set PWR_CMD_RESULT.result r) :=
  ⟨get_set_of_lt (by decide) hr, regsOnly_set regsOnly_refl (by decide)⟩

/-- An entry is in its notice window. -/
def EntryTaken (c : Bool) (s t : State) : Prop := t.get PWR_CMD_RESULT.result = 0 ∧ t.pwr.entry = some (c, 0) ∧
  t.pwr.wakes = 0 ∧ t.get PWR_EVENTS.notice = 1 ∧ t.get PWR_WAKE_REC.cause = 0 ∧ t.get PWR_WAKE_REC.cellar = 0 ∧
  PowerOnly [PWR_CMD_RESULT, PWR_EVENTS, PWR_WAKE_REC, DRZ_CFG] s t

theorem entryStart_off (h : coreOn s = false) : entryStart m c s = s := if_pos (by rw [h]; rfl)

theorem entryStart_refused {r : Nat} (hon : coreOn s = true) (h : (if devWriter m then entryResult s c else 1) = r) (hr : r ≠ 0) (hlt : r < 8) :
    EntryAnswered r s (entryStart m c s) := by
  have heq : entryStart m c s = s.set PWR_CMD_RESULT.result r := by
    unfold entryStart
    rw [if_neg (by simp [hon]), h]
    exact if_pos (bne_iff_ne.2 hr)
  exact heq ▸ entryAnswered_set hlt

theorem entryStart_taken (hon : coreOn s = true) (h : (if devWriter m then entryResult s c else 1) = 0) : EntryTaken c s (entryStart m c s) := by
  unfold entryStart
  rw [if_neg (by simp [hon]), h]
  extract_lets r s0 s1 s2
  rw [if_neg (by decide)]
  have h0 : PowerOnly [PWR_CMD_RESULT, PWR_EVENTS, PWR_WAKE_REC, DRZ_CFG] s s0 := powerOnly_set powerOnly_refl (by decide)
  have h1 : PowerOnly [PWR_CMD_RESULT, PWR_EVENTS, PWR_WAKE_REC, DRZ_CFG] s s1 := powerOnly_set (powerOnly_modPwr h0) (by decide)
  have h2 : PowerOnly [PWR_CMD_RESULT, PWR_EVENTS, PWR_WAKE_REC, DRZ_CFG] s s2 := powerOnly_set (powerOnly_set h1 (by decide)) (by decide)
  refine ⟨?_, rfl, rfl, ?_, ?_, ?_, powerOnly_set h2 (by decide)⟩
  · exact (get_set_of_apart (by decide)).trans ((get_set_of_apart (by decide)).trans ((get_set_of_apart (by decide)).trans
      ((get_set_of_apart (by decide)).trans (get_set_of_lt (s := s) (by decide) (by decide)))))
  · exact (get_set_of_apart (by decide)).trans ((get_set_of_apart (by decide)).trans ((get_set_of_apart (by decide)).trans
      (get_raise_same (by decide) (by decide))))
  · exact (get_set_of_apart (by decide)).trans ((get_set_of_apart (by decide)).trans (get_set_of_lt (by decide) (by decide)))
  · exact (get_set_of_apart (by decide)).trans (get_set_of_lt (by decide) (by decide))

theorem entryCancel_shows : (entryCancel s).get PWR_CMD_RESULT.result = 5 ∧ (entryCancel s).pwr.entry = none ∧
    (entryCancel s).get PWR_EVENTS.wake_cancel = 1 ∧ PowerOnly [PWR_CMD_RESULT, PWR_EVENTS] s (entryCancel s) :=
  ⟨(get_set_of_apart (by decide)).trans (get_set_of_lt (by decide) (by decide)), rfl, get_raise_same (by decide) (by decide),
    powerOnly_set (powerOnly_set (powerOnly_modPwr powerOnly_refl) (by decide)) (by decide)⟩

/-- The command that asks for a low-power state (not compiled: `Instr` has more cases than the compiler numbers). -/
noncomputable def entryCmd (m : Master) (c : Bool) : Instr := if c then .cellar m else .drizzle m

theorem exec_entryCmd : exec (entryCmd m c) s = .next (entryStart m c s) := by
  cases c
  · rfl
  · rfl

theorem exec_cancel : exec (.cancel m) s = .next (if !coreOn s then s else if !devWriter m then s.set PWR_CMD_RESULT.result 1
    else if s.pwr.entry.any (fun e => e.2 == 0) then entryCancel s else s) := rfl

/-- The requests and the cancelling of O51. -/
theorem entryRequests_act (s : State) (m : Master) :
    (coreOn s = false → (∀ c, exec (entryCmd m c) s = .next s) ∧ exec (.cancel m) s = .next s) ∧
    (coreOn s = true → devWriter m = false → (∀ c, Completes (entryCmd m c) s (EntryAnswered 1 s)) ∧ Completes (.cancel m) s (EntryAnswered 1 s)) ∧
    (coreOn s = true → devWriter m = true → (¬ CycleConfigured s → Completes (.drizzle m) s (EntryAnswered 2 s)) ∧
      (∀ c, (c = false → CycleConfigured s) → (¬ WakeUsable c s → Completes (entryCmd m c) s (EntryAnswered 3 s)) ∧
        (WakeUsable c s → ¬ EntryFree s → Completes (entryCmd m c) s (EntryAnswered 4 s)) ∧
        (WakeUsable c s → EntryFree s → Completes (entryCmd m c) s (EntryTaken c s)))) ∧
    (∀ c, coreOn s = true → devWriter m = true → s.pwr.entry = some (c, 0) → Completes (.cancel m) s (fun t =>
      t.get PWR_CMD_RESULT.result = 5 ∧ t.pwr.entry = none ∧ t.get PWR_EVENTS.wake_cancel = 1 ∧ PowerOnly [PWR_CMD_RESULT, PWR_EVENTS] s t)) := by
  refine ⟨fun hoff => ⟨fun c => ?_, ?_⟩, fun hon hw => ⟨fun c => ⟨_, exec_entryCmd, ?_⟩, _, exec_cancel, ?_⟩, fun hon hw => ?_, fun c hon hw he => ⟨_, exec_cancel, ?_⟩⟩
  · rw [exec_entryCmd, entryStart_off hoff]
  · rw [exec_cancel, hoff]
    rfl
  · exact entryStart_refused hon (by rw [hw]; rfl) (by decide) (by decide)
  · rw [hon, hw]
    exact entryAnswered_set (by decide)
  · have hr (c : Bool) : (if devWriter m then entryResult s c else 1) = entryResult s c := if_pos hw
    refine ⟨fun hd => ⟨_, exec_entryCmd (c := false), entryStart_refused hon ((hr _).trans (entryResult_misconfigured hd)) (by decide) (by decide)⟩,
      fun c hd => ⟨fun hu => ⟨_, exec_entryCmd, ?_⟩, fun hu hf => ⟨_, exec_entryCmd, ?_⟩, fun hu hf => ⟨_, exec_entryCmd, ?_⟩⟩⟩
    · exact entryStart_refused hon ((hr c).trans (entryResult_unusable hd hu)) (by decide) (by decide)
    · exact entryStart_refused hon ((hr c).trans ((entryResult_usable hd hu).1 hf)) (by decide) (by decide)
    · exact entryStart_taken hon ((hr c).trans ((entryResult_usable hd hu).2 hf))
  · rw [hon, hw, he]
    exact entryCancel_shows

end Sys2Proof.Machine
end

section
/-!
O51, the reset and supply signals (R352, R353), with what a loss of supplies leaves of the registers and the memory, and what a fault
record shows.
-/
namespace Sys2Proof.Machine
open Sys2Proof
variable {s t : State}

/-! ### What a loss of supplies leaves (R344, R352) -/

section
variable {regs keys : Nat → Bool}

theorem afterLoss_reg (a : Nat) : (afterLoss regs keys s).reg a = if regs a then s.reg a else ioReset a := by
  show (lookup (s.io.filter (fun e => regs e.1)) a).getD (ioReset a) = _
  rw [lookup_filter_self s.io regs a]
  cases regs a
  · rfl
  · rfl

theorem afterLoss_byte (k : Nat) : (afterLoss regs keys s).byte k = if keys k then s.byte k else memReset k := by
  show (lookup (s.mem.filter (fun e => keys e.1)) k).getD (memReset k) = _
  rw [lookup_filter_self s.mem keys k]
  cases keys k
  · rfl
  · rfl

theorem reset_tileOf (t : Fin 24) : State.reset.tileOf t = Tile.reset := by
  rw [State.tileOf, atD_fin]
  exact Vector.getElem_replicate _

end

/-! ### Power-on reset (R352) -/

/-- The state in which power-on reset leaves the device. -/
def porState (s : State) : State :=
  { (afterLoss (· == FLT_SELFTEST) (fun k => mramKey ≤ k) s).modBoot (fun b => { b with excl := Vector.replicate 2 false }) with flt := FltH.reset }

theorem exec_powerOnReset : exec .powerOnReset s = .next (porState s) := rfl

theorem porState_now : (porState s).now = 0 := by
  show TtH.reset.t / 2 ^ 84 = 0
  decide

theorem porState_reg (a : Nat) : (porState s).reg a = if a = FLT_SELFTEST then s.reg a else ioReset a := by
  have h := afterLoss_reg (regs := (· == FLT_SELFTEST)) (keys := fun k => mramKey ≤ k) (s := s) a
  simp only [beq_iff_eq] at h
  exact h

theorem porState_byte (k : Nat) : (porState s).byte k = if mramKey ≤ k then s.byte k else memReset k := by
  have h := afterLoss_byte (regs := (· == FLT_SELFTEST)) (keys := fun k => mramKey ≤ k) (s := s) k
  simp only [decide_eq_true_eq] at h
  exact h

/-! ### The supply warning (R353) -/

theorem apart_of_addr {f g : Fld} (h : g.addr ≠ f.addr) : f.apart g = true := by
  unfold Fld.apart
  rw [Bool.eq_false_iff.2 fun he => h (Nat.eq_of_beq_eq_true he), Bool.not_false, Bool.or_true]
theorem regN_setReg_other {a b : Nat} {v : Word} (h : b ≠ a) : (s.setReg a v).regN b = s.regN b := congrArg BitVec.toNat (reg_setReg_other h)
theorem regN_setPair_other {a b n : Nat} (h : b ≠ a) (h' : b ≠ a + 4) : (s.setPair a n).regN b = s.regN b :=
  (regN_setReg_other h').trans (regN_setReg_other h)

/-- The four words of a fault record, in the log's next entry. -/
def faultWords (code source : Nat) (detail : Word) (s : State) : State :=
  let i := s.get FLT_STATUS.next
  let s := s.setN (FLT_LOG i 0) (code + 256 * faultLevel code source + 65536 * (source % 256) + 16777216 * s.flt.seq)
  (s.setPair (FLT_LOG i 1) s.now).setReg (FLT_LOG i 3) detail

/-- The counts and events of a fault record, written in entry `i` of a log that was full or not. -/
def faultCounted (code i : Nat) (full : Bool) (s : State) : State :=
  let s := { s with flt := { s.flt with seq := (s.flt.seq + 1) % 256 } }
  let s := s.set FLT_STATUS.next ((i + 1) % 64)
  let s := if full then (s.bump FLT_STATUS.overflow).raise FLT_EVENTS.log_overflow
    else s.set FLT_STATUS.level (s.get FLT_STATUS.level + 1)
  let s := s.raise FLT_EVENTS.logged
  let s := s.when (code == 0x05 || code == 0x10 || code == 0x26) (·.raise FLT_EVENTS.uncorr)
  s.when (code == 0x12) (·.raise FLT_EVENTS.plaus)

section
variable {code source : Nat} {detail : Word}

theorem fault_eq : s.fault code source detail =
    faultCounted code (s.get FLT_STATUS.next) (s.get FLT_STATUS.level == 64) (faultWords code source detail s) := rfl

theorem faultWords_code (hcode : code < 256) : (faultWords code source detail s).regN (FLT_LOG (s.get FLT_STATUS.next) 0) % 256 = code := by
  unfold faultWords
  extract_lets i s1
  have h1 : s1.regN (FLT_LOG i 0) % 256 = code := by
    rw [regN_setN, if_pos rfl]
    omega
  clear_value s1
  rwa [regN_setReg_other (by unfold FLT_LOG; omega), regN_setPair_other (by unfold FLT_LOG; omega) (by unfold FLT_LOG; omega)]

theorem faultCounted_writes {i : Nat} {full : Bool} :
    Writes [FLT_EVENTS.log_overflow, FLT_EVENTS.logged, FLT_EVENTS.uncorr, FLT_EVENTS.plaus] [FLT_STATUS] s (faultCounted code i full s) := by
  unfold faultCounted
  extract_lets x s1 s2 s3 s4 s5
  have h1 : Writes [FLT_EVENTS.log_overflow, FLT_EVENTS.logged, FLT_EVENTS.uncorr, FLT_EVENTS.plaus] [FLT_STATUS] s s1 := fun _ _ => rfl
  have h2 : Writes [FLT_EVENTS.log_overflow, FLT_EVENTS.logged, FLT_EVENTS.uncorr, FLT_EVENTS.plaus] [FLT_STATUS] s s2 :=
    h1.setIn (.inl (by decide))
  have h3 : Writes [FLT_EVENTS.log_overflow, FLT_EVENTS.logged, FLT_EVENTS.uncorr, FLT_EVENTS.plaus] [FLT_STATUS] s s3 :=
    of_ite ((h2.setIn (.inl (by decide))).raise (by decide)) (h2.setIn (.inl (by decide)))
  have h4 : Writes [FLT_EVENTS.log_overflow, FLT_EVENTS.logged, FLT_EVENTS.uncorr, FLT_EVENTS.plaus] [FLT_STATUS] s s4 := h3.raise (by decide)
  have h5 : Writes [FLT_EVENTS.log_overflow, FLT_EVENTS.logged, FLT_EVENTS.uncorr, FLT_EVENTS.plaus] [FLT_STATUS] s s5 :=
    of_when h4 fun h => h.raise (by decide)
  exact of_when h5 fun h => h.raise (by decide)

theorem faultCounted_logged {i : Nat} {full : Bool} : (faultCounted code i full s).get FLT_EVENTS.logged = 1 := by
  unfold faultCounted
  extract_lets x s1 s2 s3 s4 s5
  have h4 : s4.get FLT_EVENTS.logged = 1 := get_raise_same (by decide) (by decide)
  have h5 : s5.get FLT_EVENTS.logged = 1 :=
    of_when (P := fun v : State => v.get FLT_EVENTS.logged = 1) h4 fun h => (get_set_of_apart (by decide)).trans h
  exact of_when (P := fun v : State => v.get FLT_EVENTS.logged = 1) h5 fun h => (get_set_of_apart (by decide)).trans h

/-- A fault record shows its code in the log's next entry, and is announced. -/
theorem fault_shows (hcode : code < 256) : (s.fault code source detail).get FLT_EVENTS.logged = 1 ∧
    (s.fault code source detail).regN (FLT_LOG (s.get FLT_STATUS.next) 0) % 256 = code := by
  have hnext : s.get FLT_STATUS.next < 2 ^ 6 := bitsOf_lt _ _ _
  have hst : FLT_LOG (s.get FLT_STATUS.next) 0 ≠ FLT_STATUS := by
    unfold FLT_LOG FLT_STATUS
    omega
  have hev : ∀ f ∈ [FLT_EVENTS.log_overflow, FLT_EVENTS.logged, FLT_EVENTS.uncorr, FLT_EVENTS.plaus],
      f.apart ⟨FLT_LOG (s.get FLT_STATUS.next) 0, 0, 32⟩ = true := by
    have hne : FLT_LOG (s.get FLT_STATUS.next) 0 ≠ FLT_EVENTS := by
      unfold FLT_LOG FLT_EVENTS
      omega
    simp only [List.forall_mem_cons]
    exact ⟨apart_of_addr hne, apart_of_addr hne, apart_of_addr hne, apart_of_addr hne, by simp⟩
  have hlt : FLT_LOG (s.get FLT_STATUS.next) 0 < 0x100000 := by
    unfold FLT_LOG
    omega
  rw [fault_eq]
  refine ⟨faultCounted_logged, ?_⟩
  rw [faultCounted_writes.regN (a := FLT_LOG (s.get FLT_STATUS.next) 0) (outside_iff.2 ⟨hlt, fun h => hst (List.mem_singleton.1 h), hev⟩)]
  exact faultWords_code hcode

end

theorem fault_memh {code source : Nat} {detail : Word} : (s.fault code source detail).memh = s.memh :=
  fault_keeps (read := State.memh) State.setReg_memh fun _ _ => rfl
theorem fault_mem {code source : Nat} {detail : Word} : (s.fault code source detail).mem = s.mem :=
  fault_keeps (read := State.mem) State.setReg_mem fun _ _ => rfl

/-- A supply warning as it is shown, before its record in the log. -/
def warned (s : State) : State :=
  ((s.modMem (fun h => { h with mramOpen := false })).raise PWR_STATUS.supwarn).raise PWR_EVENTS.supply_warn

theorem exec_supwarn : exec .supwarn s = .next (if !powered s || s.is PWR_STATUS.supwarn then s else (warned s).fault 0x2A 0 0) := rfl
theorem exec_supwarnRelease : exec .supwarnRelease s = .next (if !s.is PWR_STATUS.supwarn then s
    else (s.modMem (fun h => { h with mramOpen := !s.pwr.entry.any (fun e => 2 ≤ e.2) })).set PWR_STATUS.supwarn 0) := rfl

theorem supwarn_acts (hon : powered s = true) (h : s.get PWR_STATUS.supwarn = 0) : Completes .supwarn s (fun t =>
    t.get PWR_STATUS.supwarn = 1 ∧ t.get PWR_EVENTS.supply_warn = 1 ∧ t.memh.mramOpen = false ∧ t.get FLT_EVENTS.logged = 1 ∧
      t.regN (FLT_LOG (s.get FLT_STATUS.next) 0) % 256 = 0x2A ∧ t.mem = s.mem) := by
  have hguard : ¬ (!powered s || s.is PWR_STATUS.supwarn) = true := by simp [hon, State.is, h]
  have hnext : (warned s).get FLT_STATUS.next = s.get FLT_STATUS.next :=
    (get_raise_other (by decide)).trans ((get_raise_other (by decide)).trans rfl)
  obtain ⟨hlogged, hcode⟩ := fault_shows (s := warned s) (code := 0x2A) (source := 0) (detail := 0) (by decide)
  rw [hnext] at hcode
  refine ⟨_, exec_supwarn.trans (congrArg Host.Outcome.next (if_neg hguard)), ?_, ?_, ?_, hlogged, hcode, fault_mem⟩
  · exact (fault_get (by decide)).trans ((get_raise_other (by decide)).trans (get_raise_same (by decide) (by decide)))
  · exact (fault_get (by decide)).trans (get_raise_same (by decide) (by decide))
  · rw [fault_memh]
    rfl

theorem supwarn_waits (h : powered s = false ∨ s.get PWR_STATUS.supwarn = 1) : exec .supwarn s = .next s := by
  refine exec_supwarn.trans (congrArg Host.Outcome.next (if_pos ?_))
  rwa [Bool.or_eq_true, Bool.not_eq_true', is_iff_one rfl]

theorem supwarnRelease_waits (h : s.get PWR_STATUS.supwarn = 0) : exec .supwarnRelease s = .next s :=
  exec_supwarnRelease.trans (congrArg Host.Outcome.next (if_pos (by simp [State.is, h])))

theorem supwarnRelease_acts (h : s.get PWR_STATUS.supwarn = 1) : Completes .supwarnRelease s (fun t => t.get PWR_STATUS.supwarn = 0 ∧
    RegsOnly [PWR_STATUS] s { t with memh := s.memh } ∧ (s.pwr.entry = none → t.memh.mramOpen = true)) := by
  refine ⟨_, exec_supwarnRelease.trans (congrArg Host.Outcome.next (if_neg (by simp [State.is, h]))), get_set_of_lt (by decide) (by decide),
    regsOnly_set (f := PWR_STATUS.supwarn) (n := 0) regsOnly_refl (by decide), fun he => ?_⟩
  simp only [State.set_memh, he]
  rfl

/-- The reset and supply signals of O51. -/
theorem supplySignals_act (s : State) :
    Completes .powerOnReset s (fun t => t.pwr.por = true ∧ t.now = 0 ∧ t.pending = s.pending ∧
      (∀ a, t.reg a = if a = FLT_SELFTEST then s.reg a else ioReset a) ∧ (∀ b, t.byte b = if mramKey ≤ b then s.byte b else memReset b) ∧
      (∀ i : Fin 24, t.tileOf i = Tile.reset) ∧ t.boot.lc = s.boot.lc ∧ t.boot.keys = s.boot.keys ∧ t.boot.ctr = s.boot.ctr ∧
      t.boot.recs = s.boot.recs) ∧
    Completes .powerOnResetRelease s (fun t => t.pwr.por = false ∧ { t with pwr := s.pwr } = s) ∧
    (powered s = true → s.get PWR_STATUS.supwarn = 0 → Completes .supwarn s (fun t => t.get PWR_STATUS.supwarn = 1 ∧
      t.get PWR_EVENTS.supply_warn = 1 ∧ t.memh.mramOpen = false ∧ t.get FLT_EVENTS.logged = 1 ∧
      t.regN (FLT_LOG (s.get FLT_STATUS.next) 0) % 256 = 0x2A ∧ t.mem = s.mem)) ∧
    (powered s = false ∨ s.get PWR_STATUS.supwarn = 1 → exec .supwarn s = .next s) ∧
    (s.get PWR_STATUS.supwarn = 0 → exec .supwarnRelease s = .next s) ∧
    (s.get PWR_STATUS.supwarn = 1 → Completes .supwarnRelease s (fun t => t.get PWR_STATUS.supwarn = 0 ∧
      RegsOnly [PWR_STATUS] s { t with memh := s.memh } ∧ (s.pwr.entry = none → t.memh.mramOpen = true))) :=
  ⟨⟨_, exec_powerOnReset, rfl, porState_now, rfl, porState_reg, porState_byte, reset_tileOf, rfl, rfl, rfl, rfl⟩, ⟨_, rfl, rfl, rfl⟩,
    supwarn_acts, supwarn_waits, supwarnRelease_waits, supwarnRelease_acts⟩

end Sys2Proof.Machine
end

section
/-!
O51, waking (R345, R348, R350, R351): one lemma says what the start of a wake shows and keeps, and each source of a wake is an equation.
-/
namespace Sys2Proof.Machine
open Sys2Proof
variable {s t : State} {c : Bool} {w : Nat}

/-! ### The start of a wake (R351) -/

/-- The device wakes from the low-power state `c` with the sources `w`, the memory as `s` has it. -/
def Woken (c : Bool) (w : Nat) (s t : State) : Prop := t.pwr.low = none ∧ t.get PWR_WAKE_REC.cause = w % 2 ^ 15 ∧
  t.get PWR_WAKE_REC.cellar = c.toNat ∧ t.get (PWR_DOM_STAT.state 0) = 0 ∧ t.get (PWR_DOM_STAT.state 1) = 0 ∧
  t.get (PWR_DOM_STAT.state 2) = 0 ∧ t.pwr.rstout = true ∧ t.mem = s.mem

/-- What the blocks without power would have shown since the entry is lost at a wake. -/
def lostShown (s : State) : State :=
  let s := s.resetRegs (fun a => !aonReg a && (a == PIN_EVENTS || a == VAULT_STATUS || a / 0x10000 == 8 || a / 0x10000 == 9))
  { s with flt := { FltH.reset with resetOpen := s.flt.resetOpen } }

/-- The record of a wake. -/
def wakeShown (cause : Nat) (c : Bool) (s : State) : State :=
  ((s.set PWR_WAKE_REC.cause cause).setB PWR_WAKE_REC.cellar c).bump PWR_WAKE_REC.wakes

/-- The domains of the core on. -/
def coreDomainsOn (s : State) : State := s.forEach (List.range 3) (fun d s => (s.set (PWR_DOM_STAT.state d) 0).set (PWR_DOM_STAT.clamped d) 0)

/-- The power block and the boot at the start of a wake. -/
def wakeStarted (s : State) : State :=
  let s := s.modPwr (fun p => { p with low := none, cycle := none, wakes := 0, rstout := true, woke := true })
  s.modBoot (fun b => { b with resetTick := s.pair DRZ_TICK_LO })

theorem startWake_eq (h : s.pwr.low = some c) (cause : Nat) :
    startWake cause s = wakeStarted (coreDomainsOn (wakeShown cause c (lostShown s))) := by
  unfold startWake
  rw [h]
  rfl

theorem domStat_inj {d e : Nat} : PWR_DOM_STAT d = PWR_DOM_STAT e ↔ d = e := by unfold PWR_DOM_STAT; omega

theorem coreDomainsOn_mem : (coreDomainsOn s).mem = s.mem := forEach_keeps State.mem fun _ _ _ => rfl
theorem coreDomainsOn_get {g : Fld} (hg : g.addr < 0x10200 ∨ 0x1020C ≤ g.addr) : (coreDomainsOn s).get g = s.get g := by
  refine forEach_keeps (fun v : State => v.get g) fun d hd v => ?_
  have hne : g.addr ≠ PWR_DOM_STAT d := by
    have hlt := List.mem_range.1 hd
    unfold PWR_DOM_STAT
    omega
  exact (State.get_set_other _ _ _ _ hne).trans (State.get_set_other _ _ _ _ hne)
theorem coreDomainsOn_state {d : Nat} (hd : d < 3) : (coreDomainsOn s).get (PWR_DOM_STAT.state d) = 0 := by
  have hset (v : State) : ((v.set (PWR_DOM_STAT.state d) 0).set (PWR_DOM_STAT.clamped d) 0).get (PWR_DOM_STAT.state d) = 0 :=
    (get_set_of_apart rfl).trans (get_set_of_lt (Nat.le_of_ble_eq_true rfl) (by show 0 < 2 ^ 2; decide))
  refine forEach_establishes (P := fun v : State => v.get (PWR_DOM_STAT.state d) = 0) (List.mem_range.2 hd) hset fun e v hv => ?_
  by_cases hde : d = e
  · subst hde
    exact hset v
  · have hne : PWR_DOM_STAT d ≠ PWR_DOM_STAT e := mt domStat_inj.1 hde
    exact (State.get_set_other _ _ _ _ hne).trans ((State.get_set_other _ _ _ _ hne).trans hv)

theorem wakeShown_mem : (wakeShown w c s).mem = s.mem := by rw [wakeShown, State.bump_mem, State.setB_mem, State.set_mem]
theorem wakeShown_cause : (wakeShown w c s).get PWR_WAKE_REC.cause = w % 2 ^ 15 :=
  (get_set_of_apart (by decide)).trans ((get_set_of_apart (by decide)).trans (State.get_set_same _ _ _ (by decide)))
theorem wakeShown_cellar : (wakeShown w c s).get PWR_WAKE_REC.cellar = c.toNat := by
  refine (get_set_of_apart (by decide)).trans ((get_setB_same (by decide) (by decide)).trans ?_)
  cases c
  · rfl
  · rfl
theorem wakeShown_get {g : Fld} (hg : g.addr ≠ PWR_WAKE_REC) : (wakeShown w c s).get g = s.get g :=
  (State.get_set_other _ _ _ _ hg).trans ((State.get_set_other _ _ _ _ hg).trans (State.get_set_other _ _ _ _ hg))

theorem lostShown_mem : (lostShown s).mem = s.mem := rfl
theorem lostShown_get {g : Fld} (hg : aonReg g.addr = true) : (lostShown s).get g = s.get g := by
  unfold lostShown
  rw [get_withFlt]
  refine get_resetRegs_of_not ?_
  rw [hg, Bool.not_true, Bool.false_and]

theorem wakeStarted_woken (hmem : t.mem = s.mem) (hcause : t.get PWR_WAKE_REC.cause = w % 2 ^ 15) (hcellar : t.get PWR_WAKE_REC.cellar = c.toNat)
    (hdom : ∀ d < 3, t.get (PWR_DOM_STAT.state d) = 0) : Woken c w s (wakeStarted t) :=
  ⟨rfl, hcause, hcellar, hdom 0 (by decide), hdom 1 (by decide), hdom 2 (by decide), rfl, hmem⟩
theorem wakeStarted_regN (a : Nat) : (wakeStarted t).regN a = t.regN a := rfl

theorem startWake_woken (h : s.pwr.low = some c) : Woken c w s (startWake w s) := by
  rw [startWake_eq h]
  refine wakeStarted_woken ?_ ((coreDomainsOn_get (.inl (by decide))).trans wakeShown_cause)
    ((coreDomainsOn_get (.inl (by decide))).trans wakeShown_cellar) fun d => coreDomainsOn_state
  rw [coreDomainsOn_mem, wakeShown_mem, lostShown_mem]

theorem startWake_pair (h : s.pwr.low = some c) : (startWake w s).pair DRZ_TICK_LO = s.pair DRZ_TICK_LO := by
  have hreg (a : Nat) (hlo : 0x1020C ≤ a) (haon : aonReg a = true) : (startWake w s).regN a = s.regN a := by
    have hne : a ≠ PWR_WAKE_REC := by
      unfold PWR_WAKE_REC
      omega
    rw [startWake_eq h, wakeStarted_regN, regN_eq_get, coreDomainsOn_get (g := ⟨a, 0, 32⟩) (.inr hlo),
      wakeShown_get (g := ⟨a, 0, 32⟩) hne, lostShown_get (g := ⟨a, 0, 32⟩) haon, regN_eq_get]
  rw [State.pair, hreg _ (by decide) (by decide), hreg _ (by decide) (by decide), State.pair]

/-! ### The sources of a wake (R350) -/

/-- The sources enabled for the low-power state `c`. -/
def wakeEnabled (c : Bool) (s : State) : Nat := s.get PWR_WAKE_EN.enable &&& (if c then 0x3FFC else 0x3FFF)

theorem wakeAssert_low (h : s.pwr.low = some c) (he : s.pwr.entry = none) (src : Nat) :
    wakeAssert src s = if (src &&& wakeEnabled c s) ||| s.pwr.wakes = 0 then s else startWake ((src &&& wakeEnabled c s) ||| s.pwr.wakes) s := by
  unfold wakeAssert
  rw [he]
  dsimp only
  rw [h, Option.getD_some, Nat.land_assoc]
  simp only [beq_iff_eq]
  rfl

theorem exec_wake {src : BitVec 14} : exec (.wake src) s = .next (if s.pwr.por || s.pwr.pwrc then s else wakeAssert (src.toNat &&& 0x3FF8) s) := rfl

theorem wake_acts {src : BitVec 14} (h : s.pwr.low = some c) (he : s.pwr.entry = none) (hpor : s.pwr.por = false) (hpwrc : s.pwr.pwrc = false)
    (hw : w = (src.toNat &&& 0x3FF8 &&& wakeEnabled c s) ||| s.pwr.wakes) :
    (w = 0 → exec (.wake src) s = .next s) ∧ (w ≠ 0 → Completes (.wake src) s (Woken c w s)) := by
  have heq : exec (.wake src) s = .next (if w = 0 then s else startWake w s) := by
    rw [exec_wake, hpor, hpwrc, wakeAssert_low h he, ← hw]
    rfl
  refine ⟨fun h0 => heq.trans (congrArg Host.Outcome.next (if_pos h0)), fun h0 => ⟨_, heq.trans (congrArg Host.Outcome.next (if_neg h0)), ?_⟩⟩
  exact startWake_woken h

/-- The entry's time is past: DRZ_TICK shows the watch edge of the wake. -/
def timedOut (s : State) : State := s.setPair DRZ_TICK_LO (max (s.pwr.lowFrom + 8000 * s.regN PWR_WAKE_TIMER) (s.pair DRZ_TICK_LO))

theorem timedOut_pwr : (timedOut s).pwr = s.pwr := rfl

theorem wakeTimer_idle (h : s.regN PWR_WAKE_TIMER = 0) : exec .wakeTimer s = .next s :=
  congrArg Host.Outcome.next (if_pos (by simp [h]))

theorem wakeTimer_low (h : s.pwr.low = some c) (hne : s.regN PWR_WAKE_TIMER ≠ 0) : exec .wakeTimer s = .next (wakeAssert 4 (timedOut s)) := by
  have hnow : wakingNow s = false := by simp [wakingNow, h]
  show execWakeTimer s = _
  unfold execWakeTimer
  rw [hnow, h]
  exact congrArg Host.Outcome.next (if_neg (by simp [hne]))

theorem wakeTimer_acts (h : s.pwr.low = some c) (he : s.pwr.entry = none) (hne : s.regN PWR_WAKE_TIMER ≠ 0)
    (hw : w = (4 &&& wakeEnabled c s) ||| s.pwr.wakes) (h0 : w ≠ 0) : Completes .wakeTimer s (fun t => Woken c w s t ∧
      t.pair DRZ_TICK_LO = (max (s.pwr.lowFrom + 8000 * s.regN PWR_WAKE_TIMER) (s.pair DRZ_TICK_LO)) % 2 ^ 64) := by
  have henabled : wakeEnabled c (timedOut s) = wakeEnabled c s := by
    unfold wakeEnabled timedOut
    rw [get_setPair_other (by decide) (by decide)]
  have heq : wakeAssert 4 (timedOut s) = startWake w (timedOut s) := by
    rw [wakeAssert_low (s := timedOut s) (c := c) h he, henabled]
    rw [timedOut_pwr, ← hw, if_neg h0]
  refine ⟨_, (wakeTimer_low h hne).trans (congrArg Host.Outcome.next heq), startWake_woken (s := timedOut s) h, ?_⟩
  rw [startWake_pair (s := timedOut s) h]
  exact pair_setPair_mod

/-! ### The Drizzle cycle (R345, R348) -/

theorem exec_drizzleTick : exec .drizzleTick s = .next (drizzleTick s) := rfl
theorem exec_drizzleCycleEnd : exec .drizzleCycleEnd s = .next (drizzleCycleEnd s) := rfl

theorem drizzleTick_waits (h : s.pwr.low = some c) (hc : c = true ∨ s.pwr.cycle.isSome = true) : drizzleTick s = s := by
  refine if_pos ?_
  rw [h]
  simp only [Bool.or_eq_true, bne_iff_ne, ne_eq, Option.some.injEq, Bool.not_eq_false]
  exact hc

theorem drizzleTick_acts (h : s.pwr.low = some false) (hc : s.pwr.cycle = none) : (drizzleTick s).pwr.cycle = some 0 ∧
    (drizzleTick s).pwr.checked = false ∧ (drizzleTick s).get DRZ_CYCLES.cycles = (s.get DRZ_CYCLES.cycles + 1) % 2 ^ 24 ∧
    (drizzleTick s).pwr.lastTick = s.pwr.lastTick + s.regN DRZ_PERIOD ∧ { drizzleTick s with io := s.io, pwr := s.pwr } = s := by
  unfold drizzleTick
  rw [if_neg (by simp [h, hc])]
  extract_lets x s1
  have hcycles : s1.get DRZ_CYCLES.cycles = (s.get DRZ_CYCLES.cycles + 1) % 2 ^ 24 :=
    (State.get_set_same _ _ _ (by decide)).trans (by rw [get_setPair_other (by decide) (by decide)]; rfl)
  exact ⟨rfl, rfl, hcycles, rfl, rfl⟩

theorem drizzleCycleEnd_waits {i : Nat} (hc : s.pwr.cycle = some i) (h : s.pwr.checked = false ∨ i ≤ s.get DRZ_CFG.length) :
    drizzleCycleEnd s = s := by
  unfold drizzleCycleEnd
  rw [hc]
  refine if_pos ?_
  simpa only [Bool.or_eq_true, Bool.not_eq_true', decide_eq_true_eq] using h

/-- The sources with which a cycle's end wakes the device. -/
def cycleWakes (s : State) : Nat := s.pwr.wakes ||| (if s.get DRZ_CFG.ha = 1 ∧ 64 - s.get DRZ_HIST_LEVEL.level < s.get DRZ_CFG.length + 1 then
  s.get PWR_WAKE_EN.enable &&& 2 else 0)

theorem drizzleCycleEnd_ends {i : Nat} (hc : s.pwr.cycle = some i) (h : s.pwr.checked = true) (hi : s.get DRZ_CFG.length < i) :
    drizzleCycleEnd s = let t := s.modPwr (fun p => { p with cycle := none, wakes := cycleWakes s })
      t.when (cycleWakes s != 0) (startWake (cycleWakes s)) := by
  have hshort : (s.is DRZ_CFG.ha && 64 - s.get DRZ_HIST_LEVEL.level < s.get DRZ_CFG.length + 1) =
      decide (s.get DRZ_CFG.ha = 1 ∧ 64 - s.get DRZ_HIST_LEVEL.level < s.get DRZ_CFG.length + 1) := by
    rw [Bool.eq_iff_iff, Bool.and_eq_true, is_iff_one rfl, decide_eq_true_eq, decide_eq_true_eq]
  unfold drizzleCycleEnd
  rw [hc]
  refine (if_neg (by simp [h, hi])).trans ?_
  rw [hshort]
  simp only [decide_eq_true_eq]
  rfl

theorem drizzleCycleEnd_sleeps {i : Nat} (hc : s.pwr.cycle = some i) (hlow : s.pwr.low = some c) (h : s.pwr.checked = true)
    (hi : s.get DRZ_CFG.length < i) (hw : cycleWakes s = 0) : (drizzleCycleEnd s).pwr.cycle = none ∧ (drizzleCycleEnd s).pwr.low = some c ∧
      { drizzleCycleEnd s with pwr := s.pwr } = s := by
  rw [drizzleCycleEnd_ends hc h hi, hw]
  exact ⟨rfl, hlow, rfl⟩

theorem drizzleCycleEnd_wakes {i : Nat} (hc : s.pwr.cycle = some i) (hlow : s.pwr.low = some c) (h : s.pwr.checked = true)
    (hi : s.get DRZ_CFG.length < i) (hw : cycleWakes s ≠ 0) : Woken c (cycleWakes s) s (drizzleCycleEnd s) := by
  have heq := drizzleCycleEnd_ends hc h hi
  rw [heq, State.when, if_pos (bne_iff_ne.2 hw)]
  exact startWake_woken (s := s.modPwr (fun p => { p with cycle := none, wakes := cycleWakes s })) hlow

/-- The sources of a wake and the Drizzle cycle of O51. -/
theorem wakes_act (s : State) (src : BitVec 14) (c : Bool) (hlow : s.pwr.low = some c) (he : s.pwr.entry = none) :
    let w := (src.toNat &&& 0x3FF8 &&& wakeEnabled c s) ||| s.pwr.wakes
    let wt := (4 &&& wakeEnabled c s) ||| s.pwr.wakes
    (s.pwr.por = false → s.pwr.pwrc = false → (w = 0 → exec (.wake src) s = .next s) ∧ (w ≠ 0 → Completes (.wake src) s (Woken c w s))) ∧
    (s.regN PWR_WAKE_TIMER = 0 → exec .wakeTimer s = .next s) ∧
    (s.regN PWR_WAKE_TIMER ≠ 0 → wt ≠ 0 → Completes .wakeTimer s (fun t => Woken c wt s t ∧
      t.pair DRZ_TICK_LO = (max (s.pwr.lowFrom + 8000 * s.regN PWR_WAKE_TIMER) (s.pair DRZ_TICK_LO)) % 2 ^ 64)) ∧
    (c = false → s.pwr.cycle = none → Completes .drizzleTick s (fun t => t.pwr.cycle = some 0 ∧ t.pwr.checked = false ∧
      t.get DRZ_CYCLES.cycles = (s.get DRZ_CYCLES.cycles + 1) % 2 ^ 24 ∧ t.pwr.lastTick = s.pwr.lastTick + s.regN DRZ_PERIOD ∧
      { t with io := s.io, pwr := s.pwr } = s)) ∧
    (c = true ∨ s.pwr.cycle.isSome → exec .drizzleTick s = .next s) ∧
    (∀ i, s.pwr.cycle = some i → (s.pwr.checked = false ∨ i ≤ s.get DRZ_CFG.length → exec .drizzleCycleEnd s = .next s) ∧
      (s.pwr.checked = true → s.get DRZ_CFG.length < i → (cycleWakes s = 0 → Completes .drizzleCycleEnd s (fun t =>
          t.pwr.cycle = none ∧ t.pwr.low = some c ∧ { t with pwr := s.pwr } = s)) ∧
        (cycleWakes s ≠ 0 → Completes .drizzleCycleEnd s (Woken c (cycleWakes s) s)))) := by
  intro w wt
  refine ⟨fun hpor hpwrc => wake_acts hlow he hpor hpwrc rfl, wakeTimer_idle, fun hne h0 => wakeTimer_acts hlow he hne rfl h0,
    fun hc hcyc => ⟨_, exec_drizzleTick, drizzleTick_acts (hc ▸ hlow) hcyc⟩,
    fun h => exec_drizzleTick.trans (congrArg Host.Outcome.next (drizzleTick_waits hlow h)), fun i hi => ⟨fun h => ?_, fun hch hlen => ⟨fun h0 => ?_, fun h0 => ?_⟩⟩⟩
  · rw [exec_drizzleCycleEnd, drizzleCycleEnd_waits hi h]
  · exact ⟨_, exec_drizzleCycleEnd, drizzleCycleEnd_sleeps hi hlow hch hlen h0⟩
  · exact ⟨_, exec_drizzleCycleEnd, drizzleCycleEnd_wakes hi hlow hch hlen h0⟩

end Sys2Proof.Machine
end

section
/-!
O51, the steps of an entry at the end of the notice and at the flush of the MRAM (R342, Table PWR-5): what a stop of the channels and of the
switch leaves, and the tiles in reset.
-/
namespace Sys2Proof.Machine
open Sys2Proof
variable {s t u : State} {c : Bool}

/-! ### The step of an entry -/

/-- The state that step `n` of the entry acts on. -/
def entryAtStep (c : Bool) (n : Nat) (s : State) : State := s.modPwr (fun p => { p with entry := some (c, n) })

section
variable {n k us : Nat} {f : State → State}

theorem entryStep_other (h : s.pwr.entry = some (c, k)) (hk : k ≠ n) : entryStep n us f s = s := by
  unfold entryStep
  rw [h]
  exact if_neg (by simp [hk])
theorem entryStep_early (h : ¬ entryInstant s us ≤ s.now) : entryStep n us f s = s := by
  unfold entryStep
  split
  · exact if_neg (by simp [State.due, h])
  · rfl
theorem entryStep_due (h : s.pwr.entry = some (c, n)) (hdue : entryInstant s us ≤ s.now) :
    entryStep n us f s = f (entryAtStep c (n + 1) s) := by
  unfold entryStep
  rw [h]
  exact if_pos (by simp [State.due, hdue])

end

/-! ### Channels and the switch stop -/

/-- `t` has the memory of `s` and the step of its entry. -/
structure KeepsEntry (s t : State) : Prop where
  mem : t.mem = s.mem
  entry : t.pwr.entry = s.pwr.entry

/-- `t` has the memory of `s`, the step of its entry and its tiles. -/
structure KeepsRun (s t : State) : Prop extends KeepsEntry s t where
  tiles : t.tiles = s.tiles

namespace KeepsRun

theorem refl : KeepsRun s s := ⟨⟨rfl, rfl⟩, rfl⟩
theorem rest {io fresh pending inv clk tt flt edg ball fnIn adc data memh omt vote dbg dma turn net host bus boot} (h : KeepsRun u s) :
    KeepsRun u ⟨io, s.mem, fresh, pending, inv, clk, tt, flt, edg, ball, fnIn, s.tiles, adc, data, memh, omt, vote, s.pwr, dbg, dma, turn, net,
      host, bus, boot⟩ := ⟨⟨h.mem, h.entry⟩, h.tiles⟩
theorem setReg {a : Nat} {v : Word} (h : KeepsRun u s) : KeepsRun u (s.setReg a v) := h.rest
theorem set {f : Fld} {n : Nat} (h : KeepsRun u s) : KeepsRun u (s.set f n) := h.setReg
theorem modPort {p : Nat} {f : PortH → PortH} (h : KeepsRun u s) : KeepsRun u (s.modPort p f) := h.rest
theorem withClk {k : ClkH} (h : KeepsRun u s) : KeepsRun u (s.withClk k) := h.rest

theorem chRaise {d kind : Nat} (h : KeepsRun u s) : KeepsRun u (chRaise d kind s) := by
  unfold Machine.chRaise
  split
  · exact h.set
  · split
    · exact h.set
    · exact h.set
    · exact h.set
    · exact h
theorem chDone {d code : Nat} (h : KeepsRun u s) : KeepsRun u (chDone d code s) := by
  have hset : KeepsRun u ((chTo d chDONE s).set (CH_STATUS.end_ (chBase d)) code) := (h.set (f := CH_STATUS.state (chBase d))).set
  exact hset.chRaise
theorem chDisable {d inflight : Nat} {drain : Bool} (h : KeepsRun u s) : KeepsRun u (chDisable d drain inflight s) := by
  unfold Machine.chDisable
  split
  · exact h.chDone
  · exact (h.set (f := CH_STATUS.state (chBase d))).rest
  · exact h.chDone
  · exact h.chDone
  · exact h.chDone
  · exact h.set

theorem stomp {l : List Nat} (h : KeepsRun u s) : KeepsRun u (stomp l s) := by
  refine of_forEach h fun q _ s h => ?_
  split
  · exact h.set.setReg.modPort
  · exact h
theorem portCleared {p : Nat} (h : KeepsRun u s) : KeepsRun u (portCleared p s) :=
  modPort (of_forEach (stomp h) fun _ _ _ h => h.modPort)
theorem linkChange {p speed : Nat} {up : Bool} (h : KeepsRun u s) : KeepsRun u (linkChange p up speed s) := by
  unfold Machine.linkChange
  extract_lets s1 rate speed1 up1 s2 s3
  have h1 : KeepsRun u s1 := of_when h withClk
  have h2 : KeepsRun u s2 := (h1.set (f := PORT_STATUS.link p)).set
  have h3 : KeepsRun u s3 := of_when h2 fun h => h.portCleared.withClk.set
  exact of_ite (of_when h1 fun h => h.set) h3.set
theorem netStop (h : KeepsRun u s) : KeepsRun u (netStop s) :=
  of_forEach (of_forEach h fun _ _ _ h => h.linkChange) fun _ _ _ h => h.modPort

end KeepsRun

theorem netStop_link (p : Fin 8) : (netStop s).get (PORT_STATUS.link p) = 0 := by
  have heq : netStop s = (linksDown s).forEach (List.range 10)
      (fun p s => s.modPort p (fun h => { h with queues := Vector.replicate 8 [], gq := [], tx := none })) := rfl
  rw [heq]
  exact (forEach_keeps (fun v : State => v.get (PORT_STATUS.link p)) fun _ _ _ => State.modPort_get _ _ _ _).trans (linksDown_link p)

/-! ### The tiles in reset (R118) -/

/-- A tile after a tile reset. -/
def heldTile (x : Tile) : Tile := { Tile.reset with pinned := x.pinned, unloaded := x.unloaded, posted := x.posted }

theorem KeepsEntry.refl : KeepsEntry s s := ⟨rfl, rfl⟩
theorem KeepsEntry.rest {io fresh pending inv clk tt flt edg ball fnIn tiles adc data memh omt vote dbg dma turn net host bus boot}
    (h : KeepsEntry u s) : KeepsEntry u ⟨io, s.mem, fresh, pending, inv, clk, tt, flt, edg, ball, fnIn, tiles, adc, data, memh, omt, vote, s.pwr,
      dbg, dma, turn, net, host, bus, boot⟩ := ⟨h.mem, h.entry⟩
theorem KeepsEntry.set {f : Fld} {n : Nat} (h : KeepsEntry u s) : KeepsEntry u (s.set f n) := h.rest

theorem KeepsEntry.tileReset {n : Nat} (h : KeepsEntry u s) : KeepsEntry u (tileReset n 0 s) := by
  unfold Machine.tileReset
  extract_lets s1 s2 s3 o o1 s4
  have h1 : KeepsEntry u s1 := h.rest
  have h2 : KeepsEntry u s2 := h1.rest
  have h3 : KeepsEntry u s3 := h2.set
  have h4 : KeepsEntry u s4 := h3.rest
  exact h4.rest

theorem tileReset_tileOf {n : Nat} (hn : n < 24) (i : Nat) :
    (tileReset n 0 s).tileOf i = if i = n then heldTile (s.tileOf i) else s.tileOf i := by
  unfold tileReset
  extract_lets s1 s2 s3 o o1 s4
  have h4 : s4.tileOf = s.tileOf := rfl
  rw [State.tileOf_modTile _ _ _ _ hn, h4]
  split
  next h =>
    rw [h]
    rfl
  next => rfl

/-- All tiles in tile reset. -/
def tilesHeld (s : State) : State := s.forEach (List.range 24) (fun t => tileReset t 0)

theorem tilesHeld_tileOf (i : Fin 24) : (tilesHeld s).tileOf i = heldTile (s.tileOf i) := by
  have hkeep (b : Nat) (hb : b ∈ List.range 24) (v : State) (h : v.tileOf i = s.tileOf i ∨ v.tileOf i = heldTile (s.tileOf i)) :
      (tileReset b 0 v).tileOf i = v.tileOf i ∨ (tileReset b 0 v).tileOf i = heldTile (s.tileOf i) := by
    rw [tileReset_tileOf (List.mem_range.1 hb)]
    split
    · rcases h with h | h
      · exact .inr (by rw [h])
      · exact .inr (by rw [h]; rfl)
    · exact .inl rfl
  refine forEach_achieves (I := fun v => v.tileOf i = s.tileOf i ∨ v.tileOf i = heldTile (s.tileOf i)) (P := fun v => v.tileOf i = heldTile (s.tileOf i))
    (a := i.val) (List.mem_range.2 i.isLt) (.inl rfl) (fun b hb v h => ?_) (fun v h => ?_) fun b hb v _ h => ?_
  · rcases hkeep b hb v h with he | he
    · rwa [he]
    · exact .inr he
  · rw [tileReset_tileOf i.isLt, if_pos rfl]
    rcases h with h | h
    · rw [h]
    · rw [h]
      rfl
  · rcases hkeep b hb v (.inr h) with he | he
    · rw [he, h]
    · exact he

/-! ### The end of the notice (R342, time N) -/

/-- The tiles in reset, the channels disabled and the switch stopped. -/
def allStopped (s : State) : State := netStop ((tilesHeld s).forEach (List.range 144) (fun d => chDisable d false 0))

/-- RSTOUT asserted. -/
def resetOut (s : State) : State := s.modPwr (fun p => { p with rstout := true })

theorem exec_noticeEnd : exec .noticeEnd s = .next (inCore (entryStep 0 0 (fun s => resetOut (allStopped s))) s) := rfl

theorem resetOut_shows : (resetOut s).pwr.entry = s.pwr.entry ∧ (resetOut s).pwr.rstout = true ∧ (resetOut s).mem = s.mem ∧
    (∀ i, (resetOut s).tileOf i = s.tileOf i) ∧ ∀ f, (resetOut s).get f = s.get f := ⟨rfl, rfl, rfl, fun _ => rfl, fun _ => rfl⟩

theorem allStopped_shows : (allStopped s).pwr.entry = s.pwr.entry ∧ (allStopped s).mem = s.mem ∧
    (∀ i : Fin 24, (allStopped s).tileOf i = heldTile (s.tileOf i)) ∧ ∀ p : Fin 8, (allStopped s).get (PORT_STATUS.link p) = 0 := by
  have hheld : KeepsEntry s (tilesHeld s) := of_forEach .refl fun _ _ _ h => h.tileReset
  have hstopped : KeepsRun (tilesHeld s) (allStopped s) := (of_forEach KeepsRun.refl fun _ _ _ h => h.chDisable).netStop
  refine ⟨hstopped.entry.trans hheld.entry, hstopped.mem.trans hheld.mem, fun i => Eq.trans ?_ (tilesHeld_tileOf i), fun p => netStop_link p⟩
  exact congrArg (fun v => atD v i.val Tile.reset) hstopped.tiles

theorem noticeEnd_acts (hlive : live s = true) (h : s.pwr.entry = some (c, 0)) (hdue : entryInstant s 0 ≤ s.now) : Completes .noticeEnd s (fun t =>
    t.pwr.entry = some (c, 1) ∧ t.pwr.rstout = true ∧ t.mem = s.mem ∧ (∀ i : Fin 24, t.tileOf i = heldTile (s.tileOf i)) ∧
      ∀ p : Fin 8, t.get (PORT_STATUS.link p) = 0) := by
  refine completes_inCore exec_noticeEnd hlive ?_
  rw [entryStep_due h hdue]
  obtain ⟨hentry, hmem, htiles, hlinks⟩ := allStopped_shows (s := entryAtStep c 1 s)
  obtain ⟨hentry', hrst, hmem', htiles', hget⟩ := resetOut_shows (s := allStopped (entryAtStep c 1 s))
  exact ⟨hentry'.trans hentry, hrst, hmem'.trans hmem, fun i => (htiles' i).trans (htiles i), fun p => (hget _).trans (hlinks p)⟩

/-! ### The flush of the MRAM's buffer (R188, N + 10 µs) -/

theorem showLines_pwr : (showLines s).pwr = s.pwr := by rw [showLines, State.setB_pwr, State.set_pwr]
theorem showLines_mem : (showLines s).mem = s.mem := by rw [showLines, State.setB_mem, State.set_mem]
theorem showLines_memh : (showLines s).memh = s.memh := by rw [showLines, State.setB_memh, State.set_memh]
theorem showLines_none (h : s.memh.lines = []) : (showLines s).get MEM_STATUS.wbuf_lines = 0 := by
  rw [showLines, h]
  exact (get_set_of_apart (by decide)).trans (get_set_of_lt (by decide) (by decide))

/-- The buffer empty and the MRAM closed. -/
def mramClosed (s : State) : State := s.modMem (fun h => { h with lines := [], mramOpen := false })

theorem exec_mramFlushPoint : exec .mramFlushPoint s = .next (inCore (fun s => entryStep 1 10 (fun s => showLines (mramClosed s)) s) s) := rfl

theorem mramFlushPoint_acts (hlive : live s = true) (h : s.pwr.entry = some (c, 1)) (hdue : entryInstant s 10 ≤ s.now) :
    Completes .mramFlushPoint s (fun t => t.pwr.entry = some (c, 2) ∧ t.memh.lines = [] ∧ t.memh.mramOpen = false ∧
      t.get MEM_STATUS.wbuf_lines = 0 ∧ t.mem = s.mem) := by
  refine completes_inCore exec_mramFlushPoint hlive ?_
  rw [entryStep_due h hdue]
  have hlines : (mramClosed (entryAtStep c 2 s)).memh.lines = [] := rfl
  refine ⟨?_, ?_, ?_, showLines_none hlines, ?_⟩
  · rw [showLines_pwr]
    rfl
  · rw [showLines_memh, hlines]
  · rw [showLines_memh]
    rfl
  · rw [showLines_mem]
    rfl

end Sys2Proof.Machine
end

section
/-!
O51, the steps of an entry at the shutdown of the domains and at its end (R342, R344, Table PWR-5): the states of the domains, said once for a
list of them, and what is left once the supplies are away.
-/
namespace Sys2Proof.Machine
open Sys2Proof
variable {s t u : State} {c : Bool} {d : Nat}

/-! ### Registers of banks and domains -/

/-- The registers that neither a bank, a cluster nor a tile has. -/
def OffBanks (a : Nat) : Prop := a < 0x100000 ∧ (a < 0x40000 ∨ 0x50000 ≤ a)

theorem bankStat_ne {a b : Nat} (h : OffBanks a) : a ≠ bankCtrl b + 4 := by
  unfold OffBanks at h
  unfold bankCtrl BANK_CTRL CBANK_CTRL cluBlk
  split <;> omega

theorem domStat_offBanks (hd : d < 47) : OffBanks (PWR_DOM_STAT d) := by
  unfold OffBanks PWR_DOM_STAT
  omega

/-! ### The banks clamped (R183) -/

/-- `t` has the memory of `s`, the step of its entry and the registers off the banks' and the units' blocks. -/
structure KeepsDomains (s t : State) : Prop extends KeepsEntry s t where
  get : ∀ g : Fld, OffBanks g.addr → t.get g = s.get g

namespace KeepsDomains

theorem refl : KeepsDomains s s := ⟨.refl, fun _ _ => rfl⟩
theorem setBank {b lo w n : Nat} (h : KeepsDomains u s) : KeepsDomains u (s.set ⟨bankCtrl b + 4, lo, w⟩ n) :=
  ⟨h.toKeepsEntry.set, fun g hg => (State.get_set_other _ _ _ _ (bankStat_ne hg)).trans (h.get g hg)⟩
theorem modMem {f : MemH → MemH} (h : KeepsDomains u s) : KeepsDomains u (s.modMem f) := ⟨h.toKeepsEntry.rest, h.get⟩
theorem modBank {b : Nat} {f : BankH → BankH} (h : KeepsDomains u s) : KeepsDomains u (s.modBank b f) := ⟨h.toKeepsEntry.rest, h.get⟩
theorem bankTo {b n : Nat} (h : KeepsDomains u s) : KeepsDomains u (bankTo b n s) := h.setBank
theorem bankClamp {b : Nat} {on : Bool} (h : KeepsDomains u s) : KeepsDomains u (bankClamp b on s) := h.setBank
theorem bankEnter {b n : Nat} (h : KeepsDomains u s) : KeepsDomains u (bankEnter b n s) := by
  have hclamped : KeepsDomains u (Machine.bankClamp b false (Machine.bankTo b 5 s)) := h.bankTo.bankClamp
  unfold Machine.bankEnter
  extract_lets v
  exact (show KeepsDomains u v from hclamped).modBank.modMem

end KeepsDomains

/-- The banks on their way to the states of a low-power entry. -/
def banksDown (s : State) : State :=
  s.forEach (List.range 160) (fun b s =>
    let target := if bankCellar s.invB b then 1 else 2
    if bankState s b == 0 then bankEnter b target s
    else if bankState s b == 5 then s.modBank b (fun h => { h with target := target })
    else (bankClamp b true (bankTo b target s)).modBank b (fun h => { h with zero := h.zero || target == 2, next := none }))

theorem banksDown_keeps : KeepsDomains s (banksDown s) :=
  of_forEach .refl fun _ _ _ h => of_ite h.bankEnter (of_ite h.modBank h.bankTo.bankClamp.modBank)

/-! ### The domains go off (R333, R335) -/

theorem tileReset_get {n : Nat} {g : Fld} (hlt : g.addr < 0x100000) (hne : g.addr ≠ PWR_STATUS) : (tileReset n 0 s).get g = s.get g := by
  have hout : tileResetReg n g.addr = false := by
    have hle := tileBlk_le (t := n)
    unfold tileResetReg
    exact Bool.and_eq_false_imp.2 fun h => absurd (of_decide_eq_true (Bool.and_eq_true _ _ ▸ h).1) (by omega)
  unfold tileReset
  extract_lets s1 s2 s3 o o1 s4
  have h1 : s1.get g = s.get g := rfl
  have h2 : s2.get g = s1.get g := get_resetRegs_of_not hout
  have h3 : s3.get g = s2.get g := State.get_set_other _ _ _ _ hne
  have h4 : s4.get g = s3.get g := rfl
  exact h4.trans (h3.trans (h2.trans h1))

/-- The state of a domain that goes off, by the one it was in: On and Waking become Entering. -/
def goesOff (a : Nat) : Nat := if a = 0 ∨ a = 3 then 2 else a

theorem goesOff_idem (a : Nat) : goesOff (goesOff a) = goesOff a := by
  unfold goesOff
  split
  · rfl
  · rfl

theorem domEnter_entry {x : Nat} (h : KeepsEntry u s) : KeepsEntry u (domEnter x s) := by
  have hset : KeepsEntry u (s.set (PWR_DOM_STAT.state x) 2) := h.set
  exact of_when (b := 9 ≤ x && x < 33) ⟨hset.mem, hset.entry⟩ fun h => h.tileReset

theorem domEnter_state {x : Nat} (hd : d < 47) :
    (domEnter x s).get (PWR_DOM_STAT.state d) = if d = x then 2 else s.get (PWR_DOM_STAT.state d) := by
  have hkeep (v : State) : (v.when (9 ≤ x && x < 33) (tileReset (x - 9) 0)).get (PWR_DOM_STAT.state d) = v.get (PWR_DOM_STAT.state d) := by
    refine when_keeps (fun v : State => v.get (PWR_DOM_STAT.state d)) (tileReset_get ?_ ?_)
    · exact (domStat_offBanks hd).1
    · show PWR_DOM_STAT d ≠ PWR_STATUS
      unfold PWR_DOM_STAT PWR_STATUS
      omega
  refine (hkeep _).trans ?_
  show (s.set (PWR_DOM_STAT.state x) 2).get (PWR_DOM_STAT.state d) = _
  split
  next h =>
    rw [h]
    exact get_set_of_lt (Nat.le_of_ble_eq_true rfl) (by show 2 < 2 ^ 2; decide)
  next h => exact State.get_set_other _ _ _ _ (mt domStat_inj.1 h)

theorem forEach_cons {α : Type} {x : α} {l : List α} {f : α → State → State} : s.forEach (x :: l) f = (f x s).forEach l f := rfl

theorem domsEnter_state {l : List Nat} (hd : d < 47) :
    (s.forEach l domEnter).get (PWR_DOM_STAT.state d) = if d ∈ l then 2 else s.get (PWR_DOM_STAT.state d) := by
  induction l generalizing s with
  | nil => rfl
  | cons x l ih =>
    rw [forEach_cons, ih, domEnter_state hd]
    by_cases hx : d = x
    · simp [hx]
    · simp [hx]

theorem domGoOff_state {x : Nat} (hd : d < 47) : (domGoOff x s).get (PWR_DOM_STAT.state d) =
    if d ∈ domMembers x then goesOff (s.get (PWR_DOM_STAT.state d)) else s.get (PWR_DOM_STAT.state d) := by
  unfold domGoOff goesOff
  rw [domsEnter_state hd]
  simp only [List.mem_filter, Bool.or_eq_true, beq_iff_eq]
  by_cases hm : d ∈ domMembers x
  · simp only [hm, true_and, if_true]
  · simp only [hm, false_and, if_false]

theorem domsGoOff_state {l : List Nat} (hd : d < 47) : (s.forEach l domGoOff).get (PWR_DOM_STAT.state d) =
    if ∃ x ∈ l, d ∈ domMembers x then goesOff (s.get (PWR_DOM_STAT.state d)) else s.get (PWR_DOM_STAT.state d) := by
  induction l generalizing s with
  | nil => simp [State.forEach]
  | cons x l ih =>
    rw [forEach_cons, ih, domGoOff_state hd]
    by_cases hx : d ∈ domMembers x
    · simp only [hx, if_true, List.mem_cons, exists_eq_or_imp, true_or, goesOff_idem, ite_self]
    · simp only [hx, if_false, List.mem_cons, exists_eq_or_imp, false_or]

theorem domGoOff_entry {x : Nat} (h : KeepsEntry u s) : KeepsEntry u (domGoOff x s) := of_forEach h fun _ _ _ h => domEnter_entry h

/-- The domains that the shutdown turns off by name: clusters and lanes. -/
def shutDomains : List Nat := (List.range 6).map domCluster ++ (List.range 8).map domLane

theorem shutDomains_cover : ∀ d : Fin 47, 3 ≤ d.val → ∃ x ∈ shutDomains, d.val ∈ domMembers x := by decide

theorem exec_domainShutdownPoint :
    exec .domainShutdownPoint s = .next (inCore (fun s => entryStep 2 40 (fun s => (banksDown s).forEach shutDomains domGoOff) s) s) := rfl

theorem domainShutdownPoint_acts (hlive : live s = true) (h : s.pwr.entry = some (c, 2)) (hdue : entryInstant s 40 ≤ s.now) :
    Completes .domainShutdownPoint s (fun t => t.pwr.entry = some (c, 3) ∧ t.mem = s.mem ∧
      ∀ d : Fin 47, 3 ≤ d.val → t.get (PWR_DOM_STAT.state d) = goesOff (s.get (PWR_DOM_STAT.state d))) := by
  refine completes_inCore exec_domainShutdownPoint hlive ?_
  rw [entryStep_due h hdue]
  have hbanks := banksDown_keeps (s := entryAtStep c 3 s)
  have hentry : KeepsEntry (entryAtStep c 3 s) ((banksDown (entryAtStep c 3 s)).forEach shutDomains domGoOff) :=
    of_forEach hbanks.toKeepsEntry fun _ _ _ h => domGoOff_entry h
  refine ⟨hentry.entry, hentry.mem, fun d hd => ?_⟩
  rw [domsGoOff_state d.isLt, if_pos (shutDomains_cover d hd), hbanks.get _ (domStat_offBanks d.isLt)]
  rfl

/-! ### The end of the entry (R344) -/

/-- `t` is `s` but for registers and the hidden states of clock, balls and banks. -/
structure KeepsCore (s t : State) : Prop where
  mem : t.mem = s.mem
  pending : t.pending = s.pending
  tiles : t.tiles = s.tiles
  tt : t.tt = s.tt
  boot : t.boot = s.boot
  pwr : t.pwr = s.pwr

namespace KeepsCore

theorem refl : KeepsCore s s := ⟨rfl, rfl, rfl, rfl, rfl, rfl⟩
theorem rest {io fresh inv clk flt edg ball fnIn adc data memh omt vote dbg dma turn net host bus} (h : KeepsCore u s) :
    KeepsCore u ⟨io, s.mem, fresh, s.pending, inv, clk, s.tt, flt, edg, ball, fnIn, s.tiles, adc, data, memh, omt, vote, s.pwr, dbg, dma, turn, net,
      host, bus, s.boot⟩ := ⟨h.mem, h.pending, h.tiles, h.tt, h.boot, h.pwr⟩
theorem set {f : Fld} {n : Nat} (h : KeepsCore u s) : KeepsCore u (s.set f n) := h.rest
theorem setB {f : Fld} {b : Bool} (h : KeepsCore u s) : KeepsCore u (s.setB f b) := h.rest
theorem modBank {b : Nat} {f : BankH → BankH} (h : KeepsCore u s) : KeepsCore u (s.modBank b f) := h.rest

end KeepsCore

/-- The banks clamped in the states in which they stay, each with whether it keeps its contents. -/
def banksLeft (banks : List Bool) (s : State) : State :=
  s.forEach (banks.zipIdx) (fun e s =>
    (bankClamp e.2 true (bankTo e.2 (if e.1 then 1 else 2) s)).modBank e.2 (fun h => { h with zero := !e.1 }))

/-- Every domain off. -/
def domainsOff (s : State) : State :=
  s.forEach (List.range 47) (fun d s => (s.set (PWR_DOM_STAT.state d) 1).raise (PWR_DOM_STAT.clamped d))

/-- The lanes' loops, the mismatch marks and the balls held in the AON domain. -/
def padsHeld (locked : Vector Bool 8) (mismatch : Word) (latched : Vector BallH 192) (s : State) : State :=
  { (s.withClk { s.clk with txLocked := locked }).setReg PIN_STATUS mismatch with ball := latched }

/-- The registers and the hidden state shown once the supplies are away. -/
def lossShown (banks : List Bool) (locked : Vector Bool 8) (mismatch : Word) (latched : Vector BallH 192) (s : State) : State :=
  (domainsOff (banksLeft banks (padsHeld locked mismatch latched s))).set DRZ_CYCLES.cycles 0

theorem lowPowerEntered_eq : ∃ banks locked mismatch latched, lowPowerEntered c s =
    (lossShown banks locked mismatch latched (afterLoss aonReg (keptKey s) s)).modPwr (fun p => { p with
      low := some c, lowFrom := s.pair DRZ_TICK_LO, lastTick := s.pair DRZ_TICK_LO, por := false, wakes := s.pwr.wakes, balls := s.pwr.balls }) :=
  ⟨(List.range 160).map (fun b => bankCellar s.invB b && bankState s b != 2 && bankState s b != 3), s.clk.txLocked, s.reg PIN_STATUS &&& 0xFF00,
    padLatches s, rfl⟩

section
variable {banks : List Bool} {locked : Vector Bool 8} {mismatch : Word} {latched : Vector BallH 192}

theorem padsHeld_core : KeepsCore s (padsHeld locked mismatch latched s) := ⟨rfl, rfl, rfl, rfl, rfl, rfl⟩
theorem padsHeld_reg {a : Nat} (ha : a ≠ PIN_STATUS) : (padsHeld locked mismatch latched s).reg a = s.reg a :=
  reg_setReg_other (s := s.withClk { s.clk with txLocked := locked }) ha
theorem banksLeft_core (h : KeepsCore u s) : KeepsCore u (banksLeft banks s) := of_forEach h fun _ _ _ h => (h.set.setB).modBank
theorem domainsOff_core (h : KeepsCore u s) : KeepsCore u (domainsOff s) := of_forEach h fun _ _ _ h => h.set.set

theorem lossShown_core : KeepsCore s (lossShown banks locked mismatch latched s) := by
  have hoff : KeepsCore s (domainsOff (banksLeft banks (padsHeld locked mismatch latched s))) :=
    domainsOff_core (banksLeft_core padsHeld_core)
  unfold lossShown
  exact hoff.set

theorem banksLeft_reg {a : Nat} (ha : OffBanks a) : (banksLeft banks s).reg a = s.reg a :=
  forEach_keeps (fun v : State => v.reg a) fun _ _ _ => (reg_set_other (bankStat_ne ha)).trans (reg_set_other (bankStat_ne ha))

theorem domainsOff_reg {a : Nat} (ha : a < 0x10200 ∨ 0x102BC ≤ a) : (domainsOff s).reg a = s.reg a := by
  refine forEach_keeps (fun v : State => v.reg a) fun d hd v => ?_
  have hne : a ≠ PWR_DOM_STAT d := by
    have hlt := List.mem_range.1 hd
    unfold PWR_DOM_STAT
    omega
  exact (reg_raise_other hne).trans (reg_set_other hne)

theorem domainsOff_state (hd : d < 47) : (domainsOff s).get (PWR_DOM_STAT.state d) = 1 := by
  have hset (v : State) : ((v.set (PWR_DOM_STAT.state d) 1).raise (PWR_DOM_STAT.clamped d)).get (PWR_DOM_STAT.state d) = 1 :=
    (get_set_of_apart rfl).trans (get_set_of_lt (Nat.le_of_ble_eq_true rfl) (by show 1 < 2 ^ 2; decide))
  refine forEach_establishes (P := fun v : State => v.get (PWR_DOM_STAT.state d) = 1) (List.mem_range.2 hd) hset fun e v hv => ?_
  by_cases hde : d = e
  · subst hde
    exact hset v
  · have hne : PWR_DOM_STAT d ≠ PWR_DOM_STAT e := mt domStat_inj.1 hde
    exact (State.get_set_other _ _ _ _ hne).trans ((State.get_set_other _ _ _ _ hne).trans hv)

theorem lossShown_state (hd : d < 47) : (lossShown banks locked mismatch latched s).get (PWR_DOM_STAT.state d) = 1 := by
  have hne : PWR_DOM_STAT d ≠ DRZ_CYCLES := by
    unfold PWR_DOM_STAT DRZ_CYCLES
    omega
  exact (State.get_set_other _ _ _ _ hne).trans (domainsOff_state hd)

theorem lossShown_reg {a : Nat} (ha : OffBanks a) (hdom : a < 0x10200 ∨ 0x102BC ≤ a) (hcyc : a ≠ DRZ_CYCLES) (hpin : a ≠ PIN_STATUS) :
    (lossShown banks locked mismatch latched s).reg a = s.reg a := by
  rw [lossShown, reg_set_other hcyc, domainsOff_reg hdom, banksLeft_reg ha, padsHeld_reg hpin]

end

/-- The registers of O51 that the AON domain keeps. -/
def aonKept : List Nat := [PWR_WAKE_EN, PWR_WAKE_TIMER, DRZ_PERIOD, CLK_HOLD_RECORD, PIN_TAMPER_STAT, FLT_SELFTEST, LADDER_STATUS]

theorem aonKept_kept : ∀ a ∈ aonKept, aonReg a = true ∧ (a < 0x100000 ∧ (a < 0x40000 ∨ 0x50000 ≤ a)) ∧ (a < 0x10200 ∨ 0x102BC ≤ a) ∧
    a ≠ DRZ_CYCLES ∧ a ≠ PIN_STATUS := by decide

/-- The device in the low-power state `c`, entered from `s`. -/
def LowPowerIn (c : Bool) (s t : State) : Prop := t.pwr.low = some c ∧ t.pwr.entry = none ∧
  coreOn t = false ∧ t.pending = s.pending ∧ (∀ d : Fin 47, t.get (PWR_DOM_STAT.state d) = 1) ∧
  (∀ b, t.byte b = if keptKey s b then s.byte b else memReset b) ∧ (∀ i : Fin 24, t.tileOf i = Tile.reset) ∧
  (∀ a ∈ aonKept, t.reg a = s.reg a) ∧ t.boot.lc = s.boot.lc ∧ t.boot.keys = s.boot.keys ∧ t.boot.recs = s.boot.recs ∧ t.now = 0

/-- What the power block's state `p`, of a device in low power, gives with the rest of `t`. -/
theorem lowPowerIn_modPwr {f : PwrH → PwrH} (hcore : KeepsCore (afterLoss aonReg (keptKey s) s) t) (hlow : (f t.pwr).low = some c)
    (hentry : (f t.pwr).entry = none) (hdom : ∀ d : Fin 47, t.get (PWR_DOM_STAT.state d) = 1)
    (hreg : ∀ a ∈ aonKept, t.reg a = s.reg a) : LowPowerIn c s (t.modPwr f) := by
  obtain ⟨hmem, hpending, htiles, htt, hboot, -⟩ := hcore
  have hfuses : t.boot.lc = s.boot.lc ∧ t.boot.keys = s.boot.keys ∧ t.boot.recs = s.boot.recs := by
    rw [hboot]
    exact ⟨rfl, rfl, rfl⟩
  obtain ⟨hlc, hkeys, hrecs⟩ := hfuses
  refine ⟨hlow, hentry, ?_, hpending, hdom, fun b => (byte_congr (s := afterLoss aonReg (keptKey s) s) (t := t.modPwr f) hmem b).trans (afterLoss_byte b),
    fun i => ?_, hreg, hlc, hkeys, hrecs, ?_⟩
  · have hoff : powered (t.modPwr f) = false := by
      show ((f t.pwr).low.isNone && !(f t.pwr).por && !(f t.pwr).pwrc) = false
      rw [hlow, Option.isNone_some, Bool.false_and, Bool.false_and]
    rw [coreOn, hoff, Bool.false_and]
  · exact (congrArg (fun v => atD v i.val Tile.reset) htiles).trans (reset_tileOf i)
  · show t.tt.t / 2 ^ 84 = 0
    rw [htt]
    show TtH.reset.t / 2 ^ 84 = 0
    decide

theorem lowPowerEntered_shows : LowPowerIn c s (lowPowerEntered c s) ∧ (lowPowerEntered c s).pwr.wakes = s.pwr.wakes := by
  obtain ⟨banks, locked, mismatch, latched, heq⟩ := lowPowerEntered_eq (c := c) (s := s)
  rw [heq]
  have hcore := lossShown_core (banks := banks) (locked := locked) (mismatch := mismatch) (latched := latched) (s := afterLoss aonReg (keptKey s) s)
  refine ⟨lowPowerIn_modPwr hcore rfl ?_ (fun d => lossShown_state d.isLt) fun a ha => ?_, rfl⟩
  · show (lossShown banks locked mismatch latched (afterLoss aonReg (keptKey s) s)).pwr.entry = none
    rw [hcore.pwr]
    rfl
  · obtain ⟨haon, hbank, hdom, hcyc, hpin⟩ := aonKept_kept a ha
    rw [lossShown_reg hbank hdom hcyc hpin, afterLoss_reg, if_pos haon]

theorem lowPowerEntryDone_acts (hlive : live s = true) (h : s.pwr.entry = some (c, 3)) (hdue : entryInstant s 150 ≤ s.now) (hw : s.pwr.wakes = 0) :
    Completes .lowPowerEntryDone s (LowPowerIn c s) := by
  obtain ⟨hshows, hwakes⟩ := lowPowerEntered_shows (c := c) (s := s)
  refine ⟨lowPowerEntered c s, ?_, hshows⟩
  show execLowPowerEntryDone s = _
  unfold execLowPowerEntryDone
  rw [inCore_live _ _ hlive]
  split
  next c' heq =>
    obtain rfl : c = c' := congrArg Prod.fst (Option.some.inj (h.symm.trans heq))
    rw [State.due, if_pos (decide_eq_true hdue), State.when, hwakes, hw, if_neg (by decide)]
  next hne => exact absurd h (hne c)

theorem lowPowerEntryDone_other {k : Nat} (h : s.pwr.entry = some (c, k)) (hk : k ≠ 3) : exec .lowPowerEntryDone s = .next s := by
  show execLowPowerEntryDone s = _
  unfold execLowPowerEntryDone
  rw [inCore_eq_self]
  rw [h]
  split
  next c' heq =>
    injection heq with heq
    injection heq with _ heq
    exact absurd heq hk
  next => rfl

theorem lowPowerEntryDone_early (h : ¬ entryInstant s 150 ≤ s.now) : exec .lowPowerEntryDone s = .next s := by
  show execLowPowerEntryDone s = _
  unfold execLowPowerEntryDone
  rw [inCore_eq_self]
  split
  · exact if_neg (by simp [State.due, h])
  · rfl

/-! ### The obligation -/

/-- The steps of an entry of O51. -/
theorem entrySteps_act (s : State) (c : Bool) (k : Nat) (h : s.pwr.entry = some (c, k)) :
    (k ≠ 0 → exec .noticeEnd s = .next s) ∧ (k ≠ 1 → exec .mramFlushPoint s = .next s) ∧
    (k ≠ 2 → exec .domainShutdownPoint s = .next s) ∧ (k ≠ 3 → exec .lowPowerEntryDone s = .next s) ∧
    (k = 0 → ¬ entryInstant s 0 ≤ s.now → exec .noticeEnd s = .next s) ∧
    (k = 1 → ¬ entryInstant s 10 ≤ s.now → exec .mramFlushPoint s = .next s) ∧
    (k = 2 → ¬ entryInstant s 40 ≤ s.now → exec .domainShutdownPoint s = .next s) ∧
    (k = 3 → ¬ entryInstant s 150 ≤ s.now → exec .lowPowerEntryDone s = .next s) :=
  ⟨fun hk => exec_idle exec_noticeEnd (entryStep_other h hk), fun hk => exec_idle exec_mramFlushPoint (entryStep_other h hk),
    fun hk => exec_idle exec_domainShutdownPoint (entryStep_other h hk), lowPowerEntryDone_other h,
    fun _ hd => exec_idle exec_noticeEnd (entryStep_early hd), fun _ hd => exec_idle exec_mramFlushPoint (entryStep_early hd),
    fun _ hd => exec_idle exec_domainShutdownPoint (entryStep_early hd), fun _ hd => lowPowerEntryDone_early hd⟩

/-- Settles O51: requests, steps, wakes and signals each have their lemma; a step of the entry is the same case split for the four of them. -/
theorem lowPowerIsEnteredAndLeft : Obligations.LowPowerIsEnteredAndLeft := by
  unfold Obligations.LowPowerIsEnteredAndLeft
  refine ⟨fun s m => entryRequests_act s m, fun s c k h => ?_, fun s src c hlow he => wakes_act s src c hlow he, supplySignals_act⟩
  obtain ⟨h0, h1, h2, h3, e0, e1, e2, e3⟩ := entrySteps_act s c k h
  refine ⟨h0, h1, h2, h3, e0, e1, e2, e3, fun hlive hk hdue => ?_, fun hlive hk hdue => ?_, fun hlive hk hdue => ?_, fun hlive hk hdue hw => ?_⟩
  · exact noticeEnd_acts hlive (hk ▸ h) hdue
  · exact mramFlushPoint_acts hlive (hk ▸ h) hdue
  · exact domainShutdownPoint_acts hlive (hk ▸ h) hdue
  · exact lowPowerEntryDone_acts hlive (hk ▸ h) hdue hw

end Sys2Proof.Machine
end
